-- ==== Sys2Proof/Word.lean ====
section
/-!
DEFINITION. The word types of the module: bytes, 64-bit words (R11) and F32 codes (R45).
-/

namespace Sys2Proof

/-- One byte of device memory. -/
abbrev Byte := BitVec 8

/-- A 64-bit word: a control word, or a word of a structure in memory (R10, R11). -/
abbrev Word := BitVec 64

/-- The code of an F32 value (R45, format 0x5). -/
abbrev F32 := BitVec 32

end Sys2Proof
end

