-- ==== Sys2Proof/Config.lean ====
section
/-!
DEFINITION. What an implementation fixes and no rule of the spec gives a value for: key material and signatures of
the attestation engine (R462, R464, R465; log 14), the data of poisoned words (log 28) and the strokes of Topiary's diagonal
fallback (log 9), as uninterpreted constants.
-/

namespace Sys2Proof

/-- Byte `k` of the XMSS public key (R462). -/
opaque Config.publicKey : Nat → Byte

/-- The eight check bits of a word in the code of R23, whose matrix no rule gives (R399); log 23. -/
opaque Config.checkBits : Word → Byte

/-- Byte `k` of the XMSS signature of a record under index `i` (R462, R465). -/
opaque Config.signature : Nat → List Byte → Nat → Byte

/-- What the host is given in place of a byte of a poisoned word (R387, R438), by its local address; log 28. -/
opaque Config.poisonByte : Nat → Byte

/-- Topiary strokes of the diagonal fallback of a block of a given edge (R254 bounds them); log 9. -/
opaque Config.fallbackStrokes : Nat → Nat

end Sys2Proof
end

