-- ==== Sys2Proof/Machine/Bits.lean ====
section
/-!
DEFINITION. Bit fields, sign extension, byte order and small list helpers (R10, R11).
-/

namespace Sys2Proof.Machine

/-- The field [hi:lo] of a 64-bit word, as a number (R10). -/
def fld (w : Word) (hi lo : Nat) : Nat := (w.toNat >>> lo) % 2 ^ (hi - lo + 1)

/-- One bit of a word. -/
def bit (w : Word) (n : Nat) : Bool := w.getLsbD n

/-- The word with the field [hi:lo] replaced by the low bits of `v`. -/
def setFld (w : Word) (hi lo v : Nat) : Word :=
  let k := 2 ^ (hi - lo + 1)
  let n := w.toNat
  BitVec.ofNat 64 (n % 2 ^ lo + (v % k) * 2 ^ lo + (n >>> (hi + 1)) * 2 ^ (hi + 1))

/-- A word made of one field only. -/
def mkFld (hi lo v : Nat) : Word := BitVec.ofNat 64 ((v % 2 ^ (hi - lo + 1)) * 2 ^ lo)

/-- The low `n` bits of `v` read as a two's-complement number. -/
def signExt (n v : Nat) : Int :=
  let u := v % 2 ^ n
  if u < 2 ^ (n - 1) then (u : Int) else (u : Int) - 2 ^ n

/-- The two's-complement code of `v` in `n` bits. -/
def toCode (n : Nat) (v : Int) : Nat := (v % (2 ^ n : Int)).toNat

/-- A Boolean as 0 or 1. -/
def b2n (b : Bool) : Nat := if b then 1 else 0

/-- An item put before the first item that it may stand before. -/
def sortIn {α : Type} (le : α → α → Bool) (x : α) : List α → List α
  | [] => [x]
  | y :: ys => if le x y then x :: y :: ys else y :: sortIn le x ys

/-- A list in order; items that may stand either way keep their order. -/
def sortBy {α : Type} (le : α → α → Bool) (l : List α) : List α := l.foldr (sortIn le) []

/-- The `n` bytes of `v`, least significant first (R11). -/
def leBytes : Nat → Nat → List Byte
  | 0, _ => []
  | n + 1, v => BitVec.ofNat 8 v :: leBytes n (v >>> 8)

/-- The number whose bytes are given, least significant first (R11). -/
def ofLeBytes : List Byte → Nat
  | [] => 0
  | b :: bs => b.toNat + 256 * ofLeBytes bs

/-- Saturating increment at `2 ^ n − 1`. -/
def satAdd (n a b : Nat) : Nat := min (a + b) (2 ^ n - 1)

/-- Rounding up division. -/
def ceilDiv (a b : Nat) : Nat := (a + b - 1) / b

/-- Rounded up to a multiple of `b`. -/
def roundUp (a b : Nat) : Nat := ceilDiv a b * b

/-- The smallest `k` with `2 ^ k ≥ n`. -/
def clog2 (n : Nat) : Nat := if n ≤ 1 then 0 else Nat.log2 (n - 1) + 1

/-- Element `i` of a list of words, 0 where there is none. -/
def wordAt (ws : List Word) (i : Nat) : Word := ws.getD i 0

/-- The list with element `i` changed by `f`; unchanged where there is no such element. -/
def updAt {α : Type} (l : List α) (i : Nat) (f : α → α) : List α := l.modify i f

/-- Value of a key in an association list. -/
def assoc {α β : Type} [BEq α] (l : List (α × β)) (k : α) : Option β := l.lookup k

/-- Association list with the key's value replaced (or put in front). -/
def assocSet {α β : Type} [BEq α] (l : List (α × β)) (k : α) (v : β) : List (α × β) :=
  (k, v) :: l.filter (fun p => p.1 != k)

/-- Association list without the key. -/
def assocDel {α β : Type} [BEq α] (l : List (α × β)) (k : α) : List (α × β) :=
  l.filter (fun p => p.1 != k)

/-- A list cut into pieces of `n` elements (the last may be shorter); `fuel` bounds the pieces. -/
def chunksAux {α : Type} (n : Nat) : Nat → List α → List (List α)
  | 0, _ => []
  | fuel + 1, l => if l.isEmpty then [] else l.take n :: chunksAux n fuel (l.drop n)

/-- A list cut into pieces of `n` elements, `n` at least 1. -/
def chunks {α : Type} (n : Nat) (l : List α) : List (List α) := chunksAux n l.length l

/-- The little-endian 64-bit words of a byte string, zero-padded at its end. -/
def wordsOfBytes (bs : List Byte) : List Word :=
  (chunks 8 bs).map (fun c => BitVec.ofNat 64 (ofLeBytes c))

/-- The bytes of a list of words. -/
def bytesOfWords (ws : List Word) : List Byte := ws.flatMap (fun w => leBytes 8 w.toNat)

/-- The sum of a list of numbers. -/
def sumNat (l : List Nat) : Nat := l.foldl (· + ·) 0

/-- The largest of a list of numbers, 0 for none. -/
def maxNat (l : List Nat) : Nat := l.foldl max 0

/-- No value occurs twice. -/
def noDup {α : Type} [BEq α] : List α → Bool
  | [] => true
  | a :: l => !l.contains a && noDup l

end Sys2Proof.Machine
end

