-- ==== Sys2Proof/Machine/Num.lean ====
section
/-!
DEFINITION. Exact values and the single rounding of the conversions: the formats of R45 to R47, the values of R49, R51,
R52 and R57, the rounding modes of R66 and R67, saturation (R68) and specials (R69).
-/

namespace Sys2Proof.Machine

/-- Rounding modes of R66. The stochastic mode carries R of R67. -/
inductive Rnd where
  | rne
  | sr (r : Nat)
  | rtz
  deriving DecidableEq, Repr

/-- A value that a format can hold: a NaN (payloads are never kept, R48), an infinity, or a signed dyadic number
`±m × 2^e`, zero with its sign. -/
inductive Val where
  | nan
  | inf (neg : Bool)
  | fin (neg : Bool) (m : Nat) (e : Int)
  deriving DecidableEq, Repr

/-- An exact dyadic number `m × 2^e`. -/
structure Dy where
  m : Int
  e : Int
  deriving DecidableEq, Repr

/-- `m × 2^k` for `k ≥ 0`, and the floor of it for `k < 0`. -/
def shiftInt (m : Int) (k : Int) : Int :=
  if k ≥ 0 then m * 2 ^ k.toNat else m / 2 ^ (-k).toNat

def Dy.zero : Dy := ⟨0, 0⟩
def Dy.ofInt (n : Int) : Dy := ⟨n, 0⟩
def Dy.neg (a : Dy) : Dy := ⟨-a.m, a.e⟩
def Dy.abs (a : Dy) : Dy := ⟨a.m.natAbs, a.e⟩
def Dy.mul (a b : Dy) : Dy := ⟨a.m * b.m, a.e + b.e⟩
def Dy.scale (a : Dy) (k : Int) : Dy := ⟨a.m, a.e + k⟩

/-- Exact sum. -/
def Dy.add (a b : Dy) : Dy :=
  if a.m = 0 then b else if b.m = 0 then a else
  let e := min a.e b.e
  ⟨shiftInt a.m (a.e - e) + shiftInt b.m (b.e - e), e⟩

def Dy.sub (a b : Dy) : Dy := a.add b.neg

/-- Sign of `a − b`, exactly. -/
def Dy.cmp (a b : Dy) : Ordering := compare (a.sub b).m 0

def Dy.lt (a b : Dy) : Bool := (a.sub b).m < 0
def Dy.le (a b : Dy) : Bool := (a.sub b).m ≤ 0
def Dy.max (a b : Dy) : Dy := if a.lt b then b else a
def Dy.sum (l : List Dy) : Dy := l.foldl Dy.add Dy.zero

/-- The smallest integer `k` with `|a| < 2^k`; 0 for zero. -/
def Dy.expo (a : Dy) : Int := if a.m = 0 then 0 else (Nat.log2 a.m.natAbs : Int) + 1 + a.e

/-- The exact value of a finite `Val` (0 otherwise). -/
def Val.dy : Val → Dy
  | .fin s m e => ⟨if s then -(m : Int) else m, e⟩
  | _ => Dy.zero

def Val.isNan : Val → Bool | .nan => true | _ => false
def Val.isFin : Val → Bool | .fin _ _ _ => true | _ => false
def Val.isZero : Val → Bool | .fin _ m _ => m == 0 | _ => false
def Val.sign : Val → Bool | .nan => false | .inf s => s | .fin s _ _ => s

/-- A finite value from an exact dyadic, `+0` for zero. -/
def Val.ofDy (a : Dy) : Val := .fin (a.m < 0) a.m.natAbs a.e

/-- `m × 2^e` in units of `2^lp`, rounded by R67 on the magnitude. -/
def roundMag (mode : Rnd) (m : Nat) (e lp : Int) : Nat :=
  if e ≥ lp then m <<< (e - lp).toNat else
  let sh := (lp - e).toNat
  let q := m >>> sh
  let r := m - q <<< sh
  match mode with
  | .rtz => q
  | .sr rr => if (r <<< 16) >>> sh + rr ≥ 2 ^ 16 then q + 1 else q
  | .rne =>
    let h := 2 * r
    if h > 1 <<< sh then q + 1 else if h = 1 <<< sh then q + q % 2 else q

/-- A binary float layout: fraction bits, exponent bits and bias (R45). -/
structure Layout where
  fb : Nat
  eb : Nat
  bias : Nat
  deriving DecidableEq, Repr

/-- The exponent of the last place of a subnormal. -/
def Layout.emin (f : Layout) : Int := 1 - (f.bias : Int) - f.fb

def Layout.s4 : Layout := ⟨1, 2, 1⟩
def Layout.s8e : Layout := ⟨3, 4, 7⟩
def Layout.s8w : Layout := ⟨2, 5, 15⟩
def Layout.h16 : Layout := ⟨7, 8, 127⟩
def Layout.f32 : Layout := ⟨23, 8, 127⟩
def Layout.mw40 : Layout := ⟨31, 8, 127⟩

/-- The code of the rounded magnitude with an unbounded exponent: codes of one layout rise with the magnitude, so a code
above the largest finite one is an overflow (R68). -/
def roundCode (f : Layout) (mode : Rnd) (m : Nat) (e : Int) : Nat :=
  if m = 0 then 0 else
  let lp := max ((Nat.log2 m : Int) + e - f.fb) f.emin
  (lp - f.emin).toNat * 2 ^ f.fb + roundMag mode m e lp

/-- The value of a code whose exponent field is not special. -/
def decodePlain (f : Layout) (c : Nat) : Val :=
  let s := (c >>> (f.fb + f.eb)) % 2 == 1
  let ex := (c >>> f.fb) % 2 ^ f.eb
  let fr := c % 2 ^ f.fb
  if ex = 0 then .fin s fr f.emin else .fin s (2 ^ f.fb + fr) (f.emin + ((ex : Int) - 1))

/-- The value of a code of an IEEE-like layout: the all-ones exponent holds infinities and NaNs (R47, R51). -/
def decodeIeee (f : Layout) (c : Nat) : Val :=
  let s := (c >>> (f.fb + f.eb)) % 2 == 1
  if (c >>> f.fb) % 2 ^ f.eb = 2 ^ f.eb - 1 then
    (if c % 2 ^ f.fb = 0 then .inf s else .nan)
  else decodePlain f c

/-- The eight formats of R45. -/
inductive Fmt where
  | s4 | s8e | s8w | h16 | f32 | mw40 | bx48 | i32
  deriving DecidableEq, Repr

/-- Format codes of R45; other codes are reserved. -/
def Fmt.ofCode : Nat → Option Fmt
  | 1 => some .s4
  | 2 => some .s8e
  | 3 => some .s8w
  | 4 => some .h16
  | 5 => some .f32
  | 6 => some .mw40
  | 7 => some .bx48
  | 8 => some .i32
  | _ => none

def Fmt.code : Fmt → Nat
  | .s4 => 1
  | .s8e => 2
  | .s8w => 3
  | .h16 => 4
  | .f32 => 5
  | .mw40 => 6
  | .bx48 => 7
  | .i32 => 8

/-- Element width in bits (R45). -/
def Fmt.bits : Fmt → Nat
  | .s4 => 4
  | .s8e => 8
  | .s8w => 8
  | .h16 => 16
  | .f32 => 32
  | .mw40 => 40
  | .bx48 => 48
  | .i32 => 32

/-- The formats that carry a tensor scale (R71). -/
def Fmt.scaled : Fmt → Bool
  | .s4 | .s8e | .s8w => true
  | _ => false

/-- Bytes of a row of `n` held elements (R46); MW40 in octets, BX48 in segments of 64, the last of which may hold fewer (log 37). -/
def Fmt.rowBytes (f : Fmt) (n : Nat) : Nat :=
  match f with
  | .s4 => n / 2
  | .s8e => n
  | .s8w => n
  | .h16 => 2 * n
  | .f32 => 4 * n
  | .mw40 => 5 * n
  | .bx48 => (n + 63) / 64 * 392
  | .i32 => 4 * n

/-- Largest finite value Q of a scaled format, in R72. -/
def Fmt.maxQ : Fmt → Nat
  | .s4 => 6
  | .s8e => 448
  | .s8w => 57344
  | _ => 0

/-- The value of a code, before any scale (R47, R48, R51). BX48 elements are read with their segment (R57). -/
def Fmt.decode : Fmt → Nat → Val
  | .s4, c => decodePlain .s4 c
  | .s8e, c => if c % 128 = 127 then .nan else decodePlain .s8e c
  | .s8w, c => decodeIeee .s8w c
  | .h16, c => decodeIeee .h16 c
  | .f32, c => decodeIeee .f32 c
  | .mw40, c => decodeIeee .mw40 c
  | .bx48, c => Val.ofDy ⟨signExt 48 c, 0⟩
  | .i32, c => Val.ofDy ⟨signExt 32 c, 0⟩

/-- Layout of a float format. -/
def Fmt.layout : Fmt → Layout
  | .s4 => .s4
  | .s8e => .s8e
  | .s8w => .s8w
  | .h16 => .h16
  | .mw40 => .mw40
  | _ => .f32

/-- The code of the largest finite magnitude. -/
def Fmt.maxCode : Fmt → Nat
  | .s4 => 0x7
  | .s8e => 0x7E
  | .s8w => 0x7B
  | .h16 => 0x7F7F
  | .f32 => 0x7F7FFFFF
  | .mw40 => 0x7F7FFFFFFF
  | .bx48 => 2 ^ 47 - 1
  | .i32 => 0x7FFFFFFF

/-- The canonical NaN of a format (R47); +0 for a format without one. -/
def Fmt.nanCode : Fmt → Nat
  | .s8e => 0x7F
  | .s8w => 0x7E
  | .h16 => 0x7FC0
  | .f32 => 0x7FC00000
  | .mw40 => 0x7FC0000000
  | _ => 0

/-- What one conversion did, for the counters of R68 and R69. -/
structure Conv where
  code : Nat
  ovf : Bool := false
  flush : Bool := false
  nonfin : Bool := false
  deriving DecidableEq, Repr

/-- Code of a signed magnitude code. -/
def signCode (f : Fmt) (s : Bool) (c : Nat) : Nat := c + (if s then 2 ^ (f.bits - 1) else 0)

/-- One element converted to a float format other than S4 and BX48 (R67 to R69). `v` is the exact value with the target's
scale already removed. -/
def convFloat (f : Fmt) (mode : Rnd) (v : Val) : Conv :=
  match v with
  | .nan => { code := f.nanCode, nonfin := true }
  | .inf s =>
    if f = .s8e then { code := f.nanCode, nonfin := true }
    else { code := signCode f s (2 ^ f.layout.fb * (2 ^ f.layout.eb - 1)), nonfin := true }
  | .fin s m e =>
    let c := roundCode f.layout mode m e
    if c > f.maxCode then { code := signCode f s f.maxCode, ovf := true }
    else { code := signCode f s c, flush := m != 0 && c == 0 }

/-- F32 to I32, or I32 to I32 (R83, R69). -/
def convI32 (mode : Rnd) (v : Val) : Conv :=
  match v with
  | .nan => { code := 0, nonfin := true }
  | .inf s => { code := if s then 0x80000000 else 0x7FFFFFFF, nonfin := true }
  | .fin s m e =>
    let q := roundMag mode m e 0
    if s then
      (if q > 2 ^ 31 then { code := 0x80000000, ovf := true } else
        { code := toCode 32 (-(q : Int)), flush := m != 0 && q == 0 })
    else
      (if q > 2 ^ 31 - 1 then { code := 0x7FFFFFFF, ovf := true } else
        { code := q, flush := m != 0 && q == 0 })

/-- One element converted to any format written element by element. -/
def convElem (f : Fmt) (mode : Rnd) (v : Val) : Conv :=
  match f with
  | .i32 => convI32 mode v
  | _ => convFloat f mode v

/-- The conversions that R82 offers. -/
def convOffered (a b : Fmt) : Bool :=
  match a, b with
  | .s4, .bx48 | .s4, .i32 | .s8e, .bx48 | .s8e, .i32 | .s8w, .bx48 | .s8w, .i32 => false
  | .h16, .i32 | .mw40, .i32 => false
  | .bx48, .s4 | .bx48, .s8e | .bx48, .s8w | .bx48, .i32 => false
  | .i32, .f32 | .i32, .mw40 | .i32, .i32 => true
  | .i32, _ => false
  | _, _ => true

/-- The conversions that R82 marks as always exact. -/
def convExact (a b : Fmt) : Bool :=
  match a, b with
  | .h16, .h16 | .h16, .f32 | .h16, .mw40 | .f32, .f32 | .f32, .mw40 | .mw40, .mw40 | .i32, .mw40 | .i32, .i32 => true
  | _, _ => false

/-- A value times `2^k`. -/
def Val.scale (v : Val) (k : Int) : Val :=
  match v with
  | .fin s m e => .fin s m (e + k)
  | w => w

/-- Exact product of two values: NaN for a NaN or for infinity times zero (R63). -/
def Val.mul : Val → Val → Val
  | .nan, _ => .nan
  | _, .nan => .nan
  | .inf s, .inf t => .inf (s != t)
  | .inf s, .fin t m _ => if m = 0 then .nan else .inf (s != t)
  | .fin s m _, .inf t => if m = 0 then .nan else .inf (s != t)
  | .fin s m e, .fin t n f => .fin (s != t) (m * n) (e + f)

/-- Exact sum of two values, `+0` for a zero sum of non-zero or opposite terms; NaN for opposite infinities (R63). -/
def Val.add : Val → Val → Val
  | .nan, _ => .nan
  | _, .nan => .nan
  | .inf s, .inf t => if s = t then .inf s else .nan
  | .inf s, .fin _ _ _ => .inf s
  | .fin _ _ _, .inf t => .inf t
  | .fin s m e, .fin t n f =>
    if m = 0 ∧ n = 0 then .fin (s && t) 0 0
    else Val.ofDy (Dy.add (Val.dy (.fin s m e)) (Val.dy (.fin t n f)))

def Val.neg : Val → Val
  | .nan => .nan
  | .inf s => .inf (!s)
  | .fin s m e => .fin (!s) m e

def Val.abs : Val → Val
  | .nan => .nan
  | .inf _ => .inf false
  | .fin _ m e => .fin false m e

/-- Exact sum of a list of values, from +0. -/
def Val.sum (l : List Val) : Val := l.foldl Val.add (.fin false 0 0)

/-- A finite positive magnitude rounded upward to F32, capped at the largest finite value (R74). -/
def f32Up (m : Nat) (e : Int) : Nat :=
  let c := roundCode .f32 .rtz m e
  let back := (decodePlain .f32 c).dy
  let c' := if Dy.lt back ⟨m, e⟩ then c + 1 else c
  min c' 0x7F7FFFFF

end Sys2Proof.Machine
end

