-- ==== Sys2Proof/Machine/F32.lean ====
section
/-!
DEFINITION. F32 arithmetic, IEEE 754 binary32 without traps, each operation rounded once (R53, R200), with the flags of
R208, and the correctly rounded functions RCP, RSQ, SQRT, DIV, EXP2 and LOG2.
-/

namespace Sys2Proof.Machine

/-- The flags that one F32 operation raises (R208; NF is a matter of the sink). -/
structure Fl where
  inv : Bool := false
  dz : Bool := false
  ovf : Bool := false
  deriving DecidableEq, Repr

def Fl.or (a b : Fl) : Fl := ⟨a.inv || b.inv, a.dz || b.dz, a.ovf || b.ovf⟩

/-- An F32 result with the flags it raised. -/
structure FR where
  v : F32
  fl : Fl := {}
  deriving DecidableEq, Repr

namespace Fp

/-- The canonical NaN, the zeros, one and the infinities. -/
def nan : F32 := 0x7FC00000
def zero : F32 := 0
def one : F32 := 0x3F800000
def inf (s : Bool) : F32 := if s then 0xFF800000 else 0x7F800000
def maxFin (s : Bool) : F32 := if s then 0xFF7FFFFF else 0x7F7FFFFF
def szero (s : Bool) : F32 := if s then 0x80000000 else 0

def val (x : F32) : Val := decodeIeee .f32 x.toNat
def isNan (x : F32) : Bool := (val x).isNan
def isFin (x : F32) : Bool := (val x).isFin
def isZero (x : F32) : Bool := (val x).isZero
def sign (x : F32) : Bool := x.getLsbD 31

/-- The F32 of a value by IEEE 754: an overflow gives an infinity under RNE and the largest finite value under RTZ. -/
def round (mode : Rnd) (v : Val) : FR :=
  match v with
  | .nan => { v := nan }
  | .inf s => { v := inf s }
  | .fin s m e =>
    let c := roundCode .f32 mode m e
    if c > 0x7F7FFFFF then
      { v := if mode = .rtz then maxFin s else inf s, fl := { ovf := true } }
    else { v := BitVec.ofNat 32 (signCode .f32 s c) }

/-- The F32 of an exact dyadic, `+0` for zero. -/
def ofDy (mode : Rnd) (a : Dy) : F32 := (round mode (Val.ofDy a)).v

/-- The nearest F32 of an integer. -/
def ofNat (n : Nat) : F32 := ofDy .rne ⟨n, 0⟩

/-- Sum of two values with IEEE's INV for opposite infinities; a NaN operand raises nothing. -/
def addVal (mode : Rnd) (a b : Val) : FR :=
  match a, b with
  | .inf s, .inf t => if s = t then { v := inf s } else { v := nan, fl := { inv := true } }
  | _, _ => round mode (a.add b)

def addM (mode : Rnd) (a b : F32) : FR := addVal mode (val a) (val b)
def subM (mode : Rnd) (a b : F32) : FR := addVal mode (val a) (val b).neg

/-- INV of a multiplication: zero times infinity. -/
def mulInv (a b : Val) : Bool :=
  match a, b with
  | .inf _, .fin _ m _ => m == 0
  | .fin _ m _, .inf _ => m == 0
  | _, _ => false

def mulM (mode : Rnd) (a b : F32) : FR :=
  let r := round mode ((val a).mul (val b))
  { r with fl := { r.fl with inv := mulInv (val a) (val b) } }

/-- `±(a × b) + c` with one rounding; INV for 0 × ∞ also when the addend is NaN (R208). -/
def fmaM (mode : Rnd) (negate : Bool) (a b c : F32) : FR :=
  let p := (val a).mul (val b)
  let p := if negate then p.neg else p
  let r := addVal mode p (val c)
  { r with fl := { r.fl with inv := r.fl.inv || mulInv (val a) (val b) } }

def add (a b : F32) : F32 := (addM .rne a b).v
def sub (a b : F32) : F32 := (subM .rne a b).v
def mul (a b : F32) : F32 := (mulM .rne a b).v
def fma (a b c : F32) : F32 := (fmaM .rne false a b c).v
def neg (a : F32) : F32 := if isNan a then nan else a ^^^ 0x80000000
def abs (a : F32) : F32 := if isNan a then nan else a &&& 0x7FFFFFFF

/-- A quotient of two positive numbers as a dyadic with a sticky last bit, wide enough for any rounding to F32. -/
def quotDy (ma mb : Nat) (e : Int) : Nat × Int :=
  let k := Nat.log2 mb + 66 - Nat.log2 ma
  let q := (ma <<< k) / mb
  let st := if q * mb = ma <<< k then 0 else 1
  (2 * q + st, e - k - 1)

/-- DIV with its flags: DZ for finite non-zero over zero, INV for 0/0 and ∞/∞. -/
def divM (mode : Rnd) (a b : F32) : FR :=
  match val a, val b with
  | .nan, _ => { v := nan }
  | _, .nan => { v := nan }
  | .inf _, .inf _ => { v := nan, fl := { inv := true } }
  | .inf s, .fin t _ _ => { v := inf (s != t) }
  | .fin s _ _, .inf t => { v := szero (s != t) }
  | .fin s m e, .fin t n f =>
    if n = 0 then
      (if m = 0 then { v := nan, fl := { inv := true } } else { v := inf (s != t), fl := { dz := true } })
    else if m = 0 then { v := szero (s != t) }
    else
      let q := quotDy m n (e - f)
      round mode (.fin (s != t) q.1 q.2)

def div (a b : F32) : F32 := (divM .rne a b).v
def rcpM (mode : Rnd) (a : F32) : FR := divM mode one a

/-- Bit-by-bit integer square root below `2^(b+1)`. -/
def isqrtAux (n : Nat) : Nat → Nat → Nat
  | 0, r => if (r + 1) * (r + 1) ≤ n then r + 1 else r
  | b + 1, r =>
    let r' := r + 2 ^ (b + 1)
    if r' * r' ≤ n then isqrtAux n b r' else isqrtAux n b r

/-- Floor of the square root. -/
def isqrt (n : Nat) : Nat := isqrtAux n (Nat.log2 n / 2 + 1) 0

/-- Square root of a positive dyadic with a sticky last bit. -/
def sqrtDy (m : Nat) (e : Int) : Nat × Int :=
  let k : Nat := 128 + (if (e % 2 : Int) = 0 then 0 else 1)
  let n := m <<< k
  let q := isqrt n
  (2 * q + (if q * q = n then 0 else 1), (e - k) / 2 - 1)

/-- Reciprocal square root of a positive dyadic with a sticky last bit. -/
def rsqDy (m : Nat) (e : Int) : Nat × Int :=
  let odd := (e % 2 : Int) ≠ 0
  let m := if odd then 2 * m else m
  let e := if odd then e - 1 else e
  let k := Nat.log2 m + 130
  let q := isqrt (2 ^ (2 * k) / m)
  (2 * q + (if q * q * m = 2 ^ (2 * k) then 0 else 1), -(k : Int) - e / 2 - 1)

def sqrtM (mode : Rnd) (a : F32) : FR :=
  match val a with
  | .nan => { v := nan }
  | .inf s => if s then { v := nan, fl := { inv := true } } else { v := inf false }
  | .fin s m e =>
    if m = 0 then { v := szero s }
    else if s then { v := nan, fl := { inv := true } }
    else let q := sqrtDy m e; round mode (.fin false q.1 q.2)

def sqrt (a : F32) : F32 := (sqrtM .rne a).v

def rsqM (mode : Rnd) (a : F32) : FR :=
  match val a with
  | .nan => { v := nan }
  | .inf s => if s then { v := nan, fl := { inv := true } } else { v := zero }
  | .fin s m e =>
    if m = 0 then { v := inf s, fl := { dz := true } }
    else if s then { v := nan, fl := { inv := true } }
    else let q := rsqDy m e; round mode (.fin false q.1 q.2)

/-- Working precision of EXP2 and LOG2: far beyond the distance of any F32 argument's value from a rounding boundary. -/
def elemBits : Nat := 256

/-- Product of the roots `2^(2^-i)` for the set fraction bits, floored, in units of `2^-elemBits`. -/
def exp2Frac (frac fbits : Nat) : Nat → Nat → Nat → Nat
  | 0, _, acc => acc
  | n + 1, c, acc =>
    let c' := isqrt (c <<< elemBits)
    let i := fbits - n
    let acc' := if frac.testBit (fbits - i) then (acc * c') >>> elemBits else acc
    exp2Frac frac fbits n c' acc'

/-- `2^x` for a finite x, as a dyadic with a sticky last bit where it is irrational. -/
def exp2Dy (s : Bool) (m : Nat) (e : Int) : Nat × Int :=
  let x := (Val.fin s m e).dy
  let ip := shiftInt x.m x.e
  if m = 0 then (1, 0)
  else if ip ≥ 200 then (1, 200)
  else if ip < -400 then (1, -400)
  else if Dy.lt ⟨m, e⟩ ⟨1, -60⟩ then (if s then 2 ^ 200 - 1 else 2 ^ 200 + 1, -200)
  else
    let fbits := (-e).toNat
    let frac := (shiftInt x.m (x.e + fbits) - ip * 2 ^ fbits).toNat
    if frac = 0 then (1, ip)
    else
      let c := exp2Frac frac fbits fbits (2 ^ (elemBits + 1)) (2 ^ elemBits)
      (2 * c + 1, ip - elemBits - 1)

/-- EXP2, correctly rounded. -/
def exp2M (mode : Rnd) (a : F32) : FR :=
  match val a with
  | .nan => { v := nan }
  | .inf s => { v := if s then zero else inf false }
  | .fin s m e => let q := exp2Dy s m e; round mode (.fin false q.1 q.2)

/-- `n` fraction bits of log2 of a mantissa in [1, 2), by interval squaring in units of `2^-elemBits`. -/
def log2Frac : Nat → Nat → Nat → Nat → Nat
  | 0, _, _, acc => acc
  | n + 1, lo, hi, acc =>
    let lo2 := (lo * lo) >>> elemBits
    let hi2 := ceilDiv (hi * hi) (2 ^ elemBits)
    if lo2 ≥ 2 ^ (elemBits + 1) then log2Frac n (lo2 / 2) ((hi2 + 1) / 2) (2 * acc + 1)
    else if hi2 < 2 ^ (elemBits + 1) then log2Frac n lo2 hi2 (2 * acc)
    else (2 * acc + 1) <<< n

/-- LOG2, correctly rounded: exact for powers of two, otherwise 100 fraction bits and a sticky bit. -/
def log2M (mode : Rnd) (a : F32) : FR :=
  match val a with
  | .nan => { v := nan }
  | .inf s => if s then { v := nan, fl := { inv := true } } else { v := inf false }
  | .fin s m e =>
    if m = 0 then { v := inf true, fl := { dz := true } }
    else if s then { v := nan, fl := { inv := true } }
    else
      let k := Nat.log2 m
      if m = 2 ^ k then round mode (Val.ofDy ⟨(k : Int) + e, 0⟩)
      else
        let mant := m <<< (elemBits - k)
        let t := ((k : Int) + e) * 2 ^ 100 + log2Frac 100 mant mant 0
        round mode (Val.ofDy ⟨2 * t + 1, -101⟩)

/-- Comparison key of R200's MIN and MAX: −0 is below +0. -/
def ltOrd (a b : F32) : Bool :=
  match val a, val b with
  | .inf s, .inf t => s && !t
  | .inf s, _ => s
  | _, .inf t => !t
  | .fin s m e, .fin t n f =>
    if m = 0 ∧ n = 0 then s && !t else Dy.lt (Val.fin s m e).dy (Val.fin t n f).dy
  | _, _ => false

def min (a b : F32) : F32 := if isNan a || isNan b then nan else if ltOrd b a then b else a
def max (a b : F32) : F32 := if isNan a || isNan b then nan else if ltOrd a b then b else a

/-- `a < b` of IEEE 754: false for a NaN, and the zeros are equal. -/
def lt (a b : F32) : Bool :=
  !(isNan a) && !(isNan b) && !(isZero a && isZero b) && ltOrd a b

/-- `a ≤ b` of IEEE 754. -/
def le (a b : F32) : Bool := !(isNan a) && !(isNan b) && !(lt b a)

/-- CLT with its flag: a NaN operand raises INV. -/
def cltM (a b : F32) : FR :=
  { v := if lt a b then one else zero, fl := { inv := isNan a || isNan b } }

/-- A power of two as an F32. -/
def pow2 (k : Int) : F32 := ofDy .rne ⟨1, k⟩

end Fp

end Sys2Proof.Machine
end

