-- ==== Sys2Proof/Machine/Accum.lean ====
section
/-!
DEFINITION. Sums: A64 pairs (R64, R65, R204, R564), the 112-bit accumulator (R60), BX48 segments (R57 to R59), wide form
(R219, R220), and the group sums of the arrays (R62).
-/

namespace Sys2Proof.Machine

/-- An A64 pair (R64). -/
structure A64 where
  hi : F32
  lo : F32
  deriving DecidableEq, Repr

def A64.zero : A64 := ⟨0, 0⟩

/-- two_sum of R64. -/
def twoSum (a b : F32) : A64 :=
  let s := Fp.add a b
  let bb := Fp.sub s a
  let e := Fp.add (Fp.sub a (Fp.sub s bb)) (Fp.sub b bb)
  ⟨s, e⟩

/-- a64_add of R64 with the non-finite rule of R65. -/
def A64.add (p : A64) (x : F32) : A64 :=
  let t := twoSum p.hi x
  if Fp.isFin x && Fp.isFin p.hi && Fp.isFin t.hi then twoSum t.hi (Fp.add t.lo p.lo)
  else ⟨t.hi, 0⟩

/-- a64_combine of R204 with the same rule. -/
def A64.combine (l r : A64) : A64 :=
  let t := twoSum l.hi r.hi
  if Fp.isFin l.hi && Fp.isFin r.hi && Fp.isFin t.hi then
    twoSum t.hi (Fp.add (Fp.add t.lo l.lo) r.lo)
  else ⟨t.hi, 0⟩

/-- An exact value enters an A64 accumulation as two F32 terms (R564). -/
def A64.addExact (p : A64) (x : Val) : A64 :=
  let x1 := (Fp.round .rne x).v
  let q := p.add x1
  if Fp.isFin x1 then q.add (Fp.round .rne (x.add (Fp.val x1).neg)).v else q

/-- Combining with an absent pair gives the present pair unchanged (R204). -/
def optCombine (f : A64 → A64 → A64) : Option A64 → Option A64 → Option A64
  | none, b => b
  | a, none => a
  | some a, some b => some (f a b)

/-- One level of the pairwise tree of R205: neighbours combine, lower index on the left. -/
def pairUp {α : Type} (f : α → α → α) : List α → List α
  | a :: b :: l => f a b :: pairUp f l
  | l => l

/-- The fixed pairwise tree of R205; `n` levels suffice for `2^n` leaves. -/
def treeFold {α : Type} (f : α → α → α) : Nat → List α → Option α
  | _, [] => none
  | _, [a] => some a
  | 0, a :: _ => some a
  | n + 1, l => treeFold f n (pairUp f l)

/-- A 112-bit Topiary accumulator (R60), its cleared state, and the non-finite mark of R170. -/
inductive Acc where
  | cleared
  | nonfin
  | val (a : Int) (e : Int)
  deriving DecidableEq, Repr

/-- Right shift with RNE on the bits shifted out. -/
def shrRne (a : Int) (k : Nat) : Int :=
  let q := roundMag .rne a.natAbs 0 k
  if a < 0 then -(q : Int) else q

/-- acc_add of R60 of the product `p` with exponent `ep`, value `p × 2^(ep − 94)`. -/
def Acc.add (x : Acc) (p ep : Int) : Acc :=
  match x with
  | .nonfin => .nonfin
  | .cleared => if p = 0 then .cleared else .val p ep
  | .val a e =>
    if p = 0 then .val a e
    else
      let e' := max e ep
      let a' := if ep > e then shrRne a (ep - e).toNat else a
      let p' := if ep > e then p else shrRne p (e - ep).toNat
      let t := a' + p'
      if t ≥ 2 ^ 111 ∨ t < -(2 ^ 111) then .val (shrRne t 1) (e' + 1) else .val t e'

/-- The exact value of an accumulator. -/
def Acc.dy : Acc → Dy
  | .val a e => ⟨a, e - 94⟩
  | _ => Dy.zero

/-- An exact dyadic product as the P and E_P of R60: `P × 2^(E_P − 94)` with `|P| < 2^95`. The product of two 48-bit
significands keeps its own exponent. A value from elsewhere, a Gram product among them, has an exponent of its own (R60, R167), which the
spec does not name: the model takes the one that leaves a magnitude of 94 bits (DESIGN CHOICE, log 42). -/
def accTerm (x : Dy) : Int × Int :=
  if x.m = 0 then (0, 0)
  else
    let sh : Int := 94 - ((Nat.log2 x.m.natAbs : Int) + 1)
    (shiftInt x.m sh, x.e - sh + 94)

/-- Stored accumulator of 16 bytes (R223). -/
def Acc.toBytes : Acc → List Byte
  | .cleared => leBytes 14 0 ++ leBytes 2 0x8001
  | .nonfin => leBytes 14 0 ++ leBytes 2 0x8000
  | .val a e =>
    if e < -32766 ∨ e > 32767 then leBytes 14 0 ++ leBytes 2 0x8000
    else leBytes 14 (toCode 112 a) ++ leBytes 2 (toCode 16 e)

/-- An accumulator read from its 16 bytes. -/
def Acc.ofBytes (bs : List Byte) : Acc :=
  let e := ofLeBytes (bs.drop 14)
  if e = 0x8000 then .nonfin else if e = 0x8001 then .cleared
  else .val (signExt 112 (ofLeBytes (bs.take 14))) (signExt 16 e)

/-- A BX48 row segment: 64 significands and an exponent, or a non-finite block (R57). -/
inductive Seg where
  | nonfin
  | seg (e : Int) (s : List Int)
  deriving DecidableEq, Repr

/-- The value of element `j` of a segment. -/
def Seg.elem (g : Seg) (j : Nat) : Val :=
  match g with
  | .nonfin => .nan
  | .seg e s => Val.ofDy ⟨s.getD j 0, e - 47⟩

/-- Rounding of one element to a multiple of `2^(e − 47)`. -/
def bxRound (mode : Rnd) (e : Int) (x : Dy) : Int :=
  let q := roundMag mode x.m.natAbs x.e (e - 47)
  if x.m < 0 then -(q : Int) else q

/-- What the segment writer of R58 does: a segment, or the exponent-range event of R59 with the exponent that it chose. -/
inductive SegOut where
  | ok (g : Seg)
  | range (e : Int)
  deriving DecidableEq, Repr

/-- The writer of R58 over exact inputs, each with its own rounding mode (SR draws differ by element). -/
def bxWrite (xs : List (Rnd × Dy)) : SegOut :=
  let big := xs.foldl (fun (acc : Dy) (p : Rnd × Dy) => Dy.max acc p.2.abs) Dy.zero
  if big.m = 0 then .ok (.seg 0 (xs.map (fun _ => 0)))
  else
    let e0 := big.expo
    let q0 := xs.map (fun p => bxRound p.1 e0 p.2)
    let e := if q0.any (fun q => q.natAbs ≥ 2 ^ 47) then e0 + 1 else e0
    if e < -32767 ∨ e > 32767 then .range e
    else .ok (.seg e (if e = e0 then q0 else xs.map (fun p => bxRound p.1 e p.2)))

/-- The writer over values: any non-finite input makes the segment non-finite (R69). -/
def bxWriteVals (mode : Rnd) (vs : List Val) : SegOut :=
  if vs.any (fun v => !v.isFin) then .ok .nonfin else bxWrite (vs.map (fun v => (mode, v.dy)))

/-- The 392 bytes of a segment (R46). A non-finite one has the exponent code of R57 and R69, and significands of 0, on which the spec is
silent (DESIGN CHOICE, log 37). -/
def Seg.toBytes : Seg → List Byte
  | .nonfin => leBytes 384 0 ++ leBytes 8 0x8000
  | .seg e s => s.flatMap (fun x => leBytes 6 (toCode 48 x)) ++ leBytes 8 (toCode 16 e)

/-- A segment read from its 392 bytes. -/
def Seg.ofBytes (bs : List Byte) : Seg :=
  let e := ofLeBytes ((bs.drop 384).take 2)
  if e = 0x8000 then .nonfin
  else .seg (signExt 16 e) ((chunks 6 (bs.take 384)).map (fun c => signExt 48 (ofLeBytes c)))

/-- Wide form of R219: a 48-bit two's-complement significand and an exponent, value `s × 2^(e − 47)`. -/
structure Wide where
  s : Int
  e : Int
  deriving DecidableEq, Repr

/-- Rounded once with RNE to 47 magnitude bits. An exponent that its 18 bits do not hold is kept all the same (DESIGN CHOICE, log 68). -/
def Wide.ofDy (x : Dy) : Wide :=
  if x.m = 0 then ⟨0, 0⟩
  else
    let e := x.expo
    let q := bxRound .rne e x
    if q.natAbs ≥ 2 ^ 47 then ⟨bxRound .rne (e + 1) x, e + 1⟩ else ⟨q, e⟩

def Wide.dy (w : Wide) : Dy := ⟨w.s, w.e - 47⟩

/-- The pipelines of R219; `none` is the exception of R220. -/
def pipeRcp (x : Dy) : Option Dy :=
  if x.m = 0 then none
  else
    let q := Fp.quotDy 1 x.m.natAbs (-x.e)
    some (Wide.ofDy ⟨if x.m < 0 then -(q.1 : Int) else q.1, q.2⟩).dy

def pipeDiv (x y : Dy) : Option Dy :=
  if y.m = 0 then none
  else if x.m = 0 then some Dy.zero
  else
    let q := Fp.quotDy x.m.natAbs y.m.natAbs (x.e - y.e)
    some (Wide.ofDy ⟨if (x.m < 0) = (y.m < 0) then (q.1 : Int) else -(q.1 : Int), q.2⟩).dy

def pipeSqrt (x : Dy) : Option Dy :=
  if x.m < 0 then none
  else if x.m = 0 then some Dy.zero
  else let q := Fp.sqrtDy x.m.natAbs x.e; some (Wide.ofDy ⟨q.1, q.2⟩).dy

def pipeRsq (x : Dy) : Option Dy :=
  if x.m ≤ 0 then none
  else let q := Fp.rsqDy x.m.natAbs x.e; some (Wide.ofDy ⟨q.1, q.2⟩).dy

/-- Groups of 32 consecutive terms, each summed exactly (R62); the last is completed with zeros. -/
def groupSums (prods : List Val) : List Val := (chunks 32 prods).map Val.sum

/-- acc ← RNE(acc + G), groups in ascending order (R62). -/
def accumF32 (init : F32) (prods : List Val) : F32 :=
  (groupSums prods).foldl (fun acc g => (Fp.round .rne ((Fp.val acc).add g)).v) init

/-- The A64 accumulation of the group sums (R64, R564). -/
def accumA64 (init : F32) (prods : List Val) : A64 :=
  (groupSums prods).foldl (fun (p : A64) g => p.addExact g) ⟨init, 0⟩

end Sys2Proof.Machine
end

