-- ==== Sys2Proof/Machine/Draw.lean ====
section
/-!
DEFINITION. The lane generators (R78 to R81), the digest hash (R270), CRC-32C (R453) and SHAKE256.
-/

namespace Sys2Proof.Machine

/-- mix of R78. -/
def mix (z : Word) : Word :=
  let z := z ^^^ (z >>> 31)
  let z := z * 0xA24B1F6DC93E5C87
  let z := z ^^^ (z >>> 29)
  let z := z * 0x9C5B3E27A1D46F0B
  z ^^^ (z >>> 32)

/-- draw of R78 with the inputs of R79. -/
def draw (seed step : Word) (tensorId inst purpose index : Nat) : Word :=
  let k := mix (seed ^^^ 0x3C715A2E94D80B63)
  let k := mix (k ^^^ step)
  let k := mix (k ^^^ BitVec.ofNat 64 ((tensorId <<< 32) ||| inst))
  let k := mix (k ^^^ BitVec.ofNat 64 purpose)
  mix (k ^^^ mix (BitVec.ofNat 64 index ^^^ 0x5B8E27D1F0364CA9))

/-- chunk_hash of R270. -/
def chunkHash (tensorId key : Nat) (words : List Word) : Word :=
  let h := mix (BitVec.ofNat 64 tensorId ^^^ 0x6D2F91C4E05B3A87)
  let h := mix (h ^^^ BitVec.ofNat 64 key)
  words.foldl (fun h w => mix (h ^^^ w)) h

/-- Eight steps of the reflected CRC-32C polynomial 0x1EDC_6F41 (R453). -/
def crcSteps : Nat → BitVec 32 → BitVec 32
  | 0, c => c
  | n + 1, c => crcSteps n (if c.getLsbD 0 then (c >>> 1) ^^^ 0x82F63B78 else c >>> 1)

/-- CRC-32C of a byte string (R453). -/
def crc32c (bs : List Byte) : BitVec 32 :=
  (bs.foldl (fun c b => crcSteps 8 (c ^^^ b.zeroExtend 32)) 0xFFFFFFFF) ^^^ 0xFFFFFFFF

/-- Where the lane in column `q.1`, row `q.2` of the sponge's 5 by 5 state goes: transposed and skewed. -/
def spongeTurn (q : Nat × Nat) : Nat × Nat := (q.2, (2 * q.1 + 3 * q.2) % 5)

/-- The walk of 24 turns from (1, 0): lane number `x + 5y` and its rotation, the triangular numbers mod 64. -/
def spongeWalk : Nat → Nat × Nat → Nat → List (Nat × Nat)
  | 0, _, _ => []
  | n + 1, q, t => (q.1 + 5 * q.2, (t + 1) * (t + 2) / 2 % 64) :: spongeWalk n (spongeTurn q) (t + 1)

/-- The state after the rotations and the turn: source lane `l`, rotated, lands where its turn says. -/
def spongeMove (ls : List Word) : List Word :=
  (spongeWalk 24 (1, 0) 0).foldl (fun out m =>
    let p := spongeTurn (m.1 % 5, m.1 / 5)
    out.set (p.1 + 5 * p.2) ((wordAt ls m.1).rotateLeft m.2)) ls

/-- The parity of each column, spread to its two neighbours. -/
def spongeParity (ls : List Word) : List Word :=
  let col (x : Nat) : Word := (List.range 5).foldl (fun w y => w ^^^ wordAt ls (x % 5 + 5 * y)) 0
  ls.zipIdx.map (fun p => p.1 ^^^ col (p.2 + 4) ^^^ (col (p.2 + 1)).rotateLeft 1)

/-- The one non-linear map, along each row. -/
def spongeRow (ls : List Word) : List Word :=
  ls.zipIdx.map (fun p =>
    let nb (j : Nat) : Word := wordAt ls (p.2 / 5 * 5 + (p.2 + j) % 5)
    p.1 ^^^ (nb 2 &&& ~~~ nb 1))

/-- The eight-bit shift register that the round constants come from: seven of its bits for one round, at bits 2^j - 1. -/
def spongeConst : Nat → BitVec 8 → Word → Word × BitVec 8
  | 0, r, w => (w, r)
  | n + 1, r, w =>
    spongeConst n (if r.msb then (r <<< 1) ^^^ 0x71 else r <<< 1)
      (if r.getLsbD 0 then w ^^^ ((1 : Word) <<< (2 ^ (6 - n) - 1)) else w)

/-- Rounds of the permutation, with the shift register beside the state. -/
def spongeRounds : Nat → BitVec 8 → List Word → List Word
  | 0, _, ls => ls
  | n + 1, r, ls =>
    let c := spongeConst 7 r 0
    spongeRounds n c.2 (updAt (spongeRow (spongeMove (spongeParity ls))) 0 (fun w => w ^^^ c.1))

/-- Keccak-f[1600]: 24 rounds. -/
def spongePermute (ls : List Word) : List Word := spongeRounds 24 1 ls

/-- SHAKE256 of a byte string, `n` bytes of output, `n` at most 136 (one squeeze). The spec names the function
(R464, R476, R478); its definition is FIPS 202's (PRESUMED, log 14). -/
def shake256 (bs : List Byte) (n : Nat) : List Byte :=
  let padLen := 136 - bs.length % 136
  let pad : List Byte :=
    if padLen = 1 then [0x9F] else (0x1F : Byte) :: (List.replicate (padLen - 2) 0 ++ [0x80])
  let blocks := chunks 136 (bs ++ pad)
  let st := blocks.foldl (fun (st : List Word) blk =>
    let ws := wordsOfBytes blk
    spongePermute ((List.range 25).map (fun i => st.getD i 0 ^^^ wordAt ws i))) (List.replicate 25 0)
  (bytesOfWords st).take n

/-- The 256-bit digest of R464. -/
def digest256 (bs : List Byte) : List Byte := shake256 bs 32

end Sys2Proof.Machine
end

