-- ==== Sys2Proof/Machine/Memory.lean ====
section
/-!
DEFINITION. The module-local address space (R365 to R368), its bytes in one canonical form, poison (R387), pages and
frames (R369, R370, R374, R375), moves (R376, R377, R390) and the MEM words (R392).
-/

namespace Sys2Proof.Machine

/-! ## Bytes -/

/-- What a byte that nothing has written reads as (R368, R375; DESIGN CHOICE for the rest, log 3). -/
def unlisted : Byte := 0

/-- Bytes by local address: addresses strictly rising, no entry equal to `unlisted`. -/
abbrev Cells := List Host.Cell

/-- The byte at an address. -/
def Cells.byte : Cells → Nat → Byte
  | [], _ => unlisted
  | (k, v) :: l, a => if k = a then v else Cells.byte l a

/-- One byte written; the canonical form is kept. -/
def Cells.put (a : Nat) (b : Byte) : Cells → Cells
  | [] => if b = unlisted then [] else [(a, b)]
  | (k, v) :: l =>
    if a < k then (if b = unlisted then (k, v) :: l else (a, b) :: (k, v) :: l)
    else if a = k then (if b = unlisted then l else (a, b) :: l)
    else (k, v) :: Cells.put a b l

/-- Consecutive bytes written from address `a`. -/
def Cells.write : Cells → Nat → List Byte → Cells
  | m, _, [] => m
  | m, a, b :: bs => Cells.write (Cells.put a b m) (a + 1) bs

/-- Several writes, in order. -/
def Cells.writeAll (m : Cells) (ws : List (Nat × List Byte)) : Cells :=
  ws.foldl (fun m w => Cells.write m w.1 w.2) m

/-- `n` bytes from address `a` set to zero. -/
def Cells.zero (m : Cells) (a n : Nat) : Cells := m.filter (fun c => !(a ≤ c.1 && c.1 < a + n))

/-- `n` bytes from address `a`. -/
def Cells.read (m : Cells) (a : Nat) : Nat → List Byte
  | 0 => []
  | n + 1 => Cells.byte m a :: Cells.read m (a + 1) n

/-- The little-endian word at an address (R11). -/
def Cells.word (m : Cells) (a : Nat) : Word := BitVec.ofNat 64 (ofLeBytes (Cells.read m a 8))

/-- `n` consecutive words. -/
def Cells.words (m : Cells) (a n : Nat) : List Word := (List.range n).map (fun i => Cells.word m (a + 8 * i))

/-- Every address of the list is above `lo`, they rise strictly, and no byte is the unlisted one. -/
def Cells.wfFrom : Option Nat → Cells → Bool
  | _, [] => true
  | lo, (k, v) :: l => (match lo with | none => true | some x => decide (x < k)) && v != unlisted && Cells.wfFrom (some k) l

/-- The canonical form of memory. -/
def Cells.wf (m : Cells) : Bool := Cells.wfFrom none m

/-! ## The address map -/

def pageBytes : Nat := 0x200000
/-- Distance between the local ranges of two chiplets (R365). -/
def chipStride : Nat := 0x4000000000
/-- Bytes of a chiplet's local range: 188 GiB (R365). -/
def chipBytes : Nat := 0x2F00000000
/-- Bytes of the HDM window's part of each chiplet's range (R366). -/
def hdmPart : Nat := 0x200000000
/-- Bytes of the HDM window (R366). -/
def hdmBytes : Nat := 0x1000000000
def sysBase : Nat := 0x4000000000000
def sysBytes : Nat := 0x100000000
def storeBase : Nat := 0x8000000000000
def storeStride : Nat := 0x400000
def tileStoreBytes : Nat := 0x40000
def clusterStoreOff : Nat := 0x200000
def clusterStoreBytes : Nat := 0x200000

/-- What stands at a local address (R365). -/
inductive Place where
  | chip (c off : Nat)
  | sys (off : Nat)
  | store (l off : Nat)
  | unbacked
  deriving DecidableEq, Repr

/-- The place of a local address (R365). Tile stores 0 to 7 and the cluster store fill the whole 4 MiB of a cluster. -/
def placeOf (a : Nat) : Place :=
  if a < 8 * chipStride then
    (if a % chipStride < chipBytes then .chip (a / chipStride) (a % chipStride) else .unbacked)
  else if sysBase ≤ a ∧ a < sysBase + sysBytes then .sys (a - sysBase)
  else if storeBase ≤ a ∧ a < storeBase + 128 * storeStride then
    .store ((a - storeBase) / storeStride) ((a - storeBase) % storeStride)
  else .unbacked

/-- Local address of an HDM offset (R366). -/
def hdmLocal (o : Nat) : Nat := o / hdmPart * chipStride + o % hdmPart

/-- The address lies in the HDM window's part of a chiplet's range. -/
def inHdm (a : Nat) : Bool :=
  match placeOf a with
  | .chip _ off => off < hdmPart
  | _ => false

/-- HDM offset of a local address inside the window. -/
def hdmOffset (a : Nat) : Nat := a / chipStride * hdmPart + a % chipStride

def tileStore (l t : Nat) : Nat := storeBase + l * storeStride + t * tileStoreBytes
def clusterStore (l : Nat) : Nat := storeBase + l * storeStride + clusterStoreOff

/-- The address lies in the system area, whose Cassette regions no packet, host access or entry writes (R111). -/
def inSys (a : Nat) : Bool := sysBase ≤ a && a < sysBase + sysBytes

/-- What an offset of the ring area is. -/
inductive Window where
  | block (ring : Nat)
  | doorbell
  | reserved
  | plain
  deriving DecidableEq, Repr

/-- What stands at an HDM offset (R440). -/
def windowAt (off : Nat) : Window :=
  if off < 0x1000000 then .block (off / 64)
  else if off < 0x1200000 then .doorbell
  else if (0x1340000 ≤ off ∧ off < 0x2000000) ∨ (0xA000000 ≤ off ∧ off < 0x10000000) then .reserved
  else .plain

/-- A word of the ring area that only the hub writes: a control block or a reserved range (R440, R441). -/
def ringFixed (a : Nat) : Bool :=
  inHdm a && (match windowAt (hdmOffset a) with | .block _ | .reserved => true | _ => false)

/-- Start of the page that holds an address. -/
def pageOf (a : Nat) : Nat := a / pageBytes * pageBytes

/-- The pages that `n` bytes from `a` touch. -/
def pagesOf (a n : Nat) : List Nat :=
  if n = 0 then [] else
  (List.range ((a + n - 1) / pageBytes - a / pageBytes + 1)).map (fun i => pageOf a + i * pageBytes)

/-! ## Frames -/

/-- A 2 MiB frame (R369): near-tier frame `n` of a chiplet, HBM frame `n` of a stack, or frame `n` of a stack's remap pool
(R390). -/
inductive Frame where
  | near (chip n : Nat)
  | hbm (stack n : Nat)
  | pool (stack n : Nat)
  deriving DecidableEq, Repr

/-- The stack that a page of chiplet `c` takes HBM frames in (R369). -/
def stackOf (a : Nat) : Nat := 3 * (a / chipStride) + a % chipStride / pageBytes % 3

/-- The chiplet of a frame. -/
def Frame.chip : Frame → Nat
  | .near c _ => c
  | .hbm s _ => s / 3
  | .pool s _ => s / 3

def Frame.isNear : Frame → Bool
  | .near _ _ => true
  | _ => false

/-- A frame of the HDM window's pages, which are always backed by HBM (R366). -/
def hdmFrame (a : Nat) : Frame := .hbm (stackOf a) (a % chipStride / pageBytes / 3)

def nearFrames : Nat := 1024
/-- HBM frames of a stack (R369: 95,232 of a chiplet's three stacks). -/
def stackFrames : Nat := 31744
/-- HBM frames of a stack that the HDM window's pages hold: 4,096 of a chiplet, dealt to its stacks in turn (R366, R369). -/
def stackHdm (stack : Nat) : Nat := if stack % 3 = 0 then 1366 else 1365
/-- Frames of a stack's 2 GiB remap pool (R390). -/
def poolFrames : Nat := 1024
/-- Near frames of chiplet 0 that the module reserves at start (R370). -/
def reservedNear : Nat := 16

/-- Kinds of MEM_FAULT_SRC (R392). -/
inductive FaultKind where
  | unc | poisoned | range | remoteRange | scrub | edge
  deriving DecidableEq, Repr

def FaultKind.code : FaultKind → Nat
  | .unc => 1
  | .poisoned => 2
  | .range => 3
  | .remoteRange => 4
  | .scrub => 5
  | .edge => 6

/-- A page move in progress (R376, R377, R390). -/
structure Move where
  page : Nat
  dst : Frame
  commanded : Bool
  deriving DecidableEq, Repr

/-- Who writes: the host, which is answered with Cmp (R438); the hub itself; the hub for a packet; or a fabric request, whose requester,
context, tag and cluster the acknowledge goes to (R411). -/
inductive Writer where
  | host
  | hub
  | packet
  | fabric (port : Option Nat) (dst ctx tag scl : Nat)
  deriving DecidableEq, Repr

/-- A write that waits on a page move or on the edge of its stack (R105, R377): its bytes, whether the writer poisons its words (R438),
and the writer. -/
structure HeldWrite where
  addr : Nat
  bytes : List Byte
  poison : Bool
  who : Writer
  deriving DecidableEq, Repr

/-- Pages, moves, faults and the MEM words (R369 to R377, R387 to R392). `cmds` are page commands that wait for a commanded
move (CMD_BUSY of R392), each with its writer. -/
structure Pages where
  map : List (Nat × Frame)
  retired : List Frame
  poolUsed : List Nat
  ce : List (Frame × Nat)
  moves : List Move
  waiting : List HeldWrite
  cmds : List (Word × Nat)
  cfg : Word
  shadow : Word
  commitErr : Bool
  cmdErr : Bool
  faultMulti : Bool
  poolEmpty : Word
  movesDone : Nat
  faultAddr : Word
  faultSrc : Word
  deriving DecidableEq, Repr

/-- SCRUB_HOURS 24, CE_THRESH 16, MERGE_EN 1 (R392). -/
def memCfgDefault : Word := mkFld 47 40 24 ||| mkFld 31 16 16 ||| mkFld 0 0 1

def Pages.reset : Pages :=
  { map := [], retired := [], poolUsed := List.replicate 24 0, ce := [], moves := [], waiting := [], cmds := [],
    cfg := memCfgDefault, shadow := memCfgDefault, commitErr := false, cmdErr := false, faultMulti := false,
    poolEmpty := 0, movesDone := 0, faultAddr := 0, faultSrc := 0 }

/-- The frame of a page; HDM pages that never moved sit in their own frame. -/
def Pages.frameOf (p : Pages) (page : Nat) : Option Frame :=
  match assoc p.map page with
  | some f => some f
  | none => if inHdm page then some (hdmFrame page) else none

/-- A page of the module's local range or system area is backed. -/
def Pages.backed (p : Pages) (page : Nat) : Bool := (p.frameOf page).isSome

def Pages.frameUsed (p : Pages) (f : Frame) : Bool :=
  p.map.any (fun e => e.2 = f) || p.moves.any (fun m => m.dst = f) || p.retired.contains f

/-- The lowest-numbered free near frame of a chiplet; chiplet 0 keeps its reserved frames (R370). -/
def Pages.freeNear (p : Pages) (c : Nat) : Option Frame :=
  ((List.range nearFrames).map (Frame.near c)).find? (fun f =>
    !(p.frameUsed f) && !(match f with | .near 0 n => n < reservedNear | _ => false))

/-- The lowest-numbered free HBM frame of the stack that a page takes frames in. -/
def Pages.freeHbm (p : Pages) (page : Nat) : Option Frame :=
  ((List.range (stackFrames - stackHdm (stackOf page))).map (fun n => Frame.hbm (stackOf page) (n + stackHdm (stackOf page)))).find?
    (fun f => !(p.frameUsed f))

/-- Near-tier frames free in the module (NEAR_FREE, R392). -/
def Pages.nearFree (p : Pages) : Nat :=
  8 * nearFrames - reservedNear
    - (p.map.filter (fun e => e.2.isNear)).length - (p.moves.filter (fun m => m.dst.isNear)).length
    - (p.retired.filter Frame.isNear).length

def Pages.commandedMove (p : Pages) : Bool := p.moves.any (fun m => m.commanded)
def Pages.moving (p : Pages) (page : Nat) : Bool := p.moves.any (fun m => m.page = page)

/-- MEM_STATUS (R392). -/
def Pages.status (p : Pages) : Word :=
  mkFld 63 63 (b2n p.commitErr) ||| mkFld 62 62 (b2n p.cmdErr) ||| mkFld 61 61 (b2n p.commandedMove)
    ||| mkFld 60 60 (b2n p.faultMulti) ||| mkFld 59 36 p.poolEmpty.toNat ||| mkFld 29 16 p.nearFree
    ||| mkFld 15 0 p.movesDone

/-- The MEM group's check: SCRUB_HOURS and CE_THRESH at least 1 (R392). -/
def memCfgOk (w : Word) : Bool := fld w 47 40 ≥ 1 && fld w 31 16 ≥ 1

/-- Writable bits of MEM_CFG. -/
def memCfgMask : Word := mkFld 47 40 0xFF ||| mkFld 31 16 0xFFFF ||| mkFld 0 0 1

/-- MEM_CFG at start: SCRUB_HOURS and CE_THRESH as flash holds them, MERGE_EN 1 (R392). -/
def memCfgAtStart (flash : Word) : Word := (flash &&& (mkFld 47 40 0xFF ||| mkFld 31 16 0xFFFF)) ||| mkFld 0 0 1

/-- A fault latched, or FAULT_MULTI set while one is latched (R389). -/
def Pages.latch (p : Pages) (kind : FaultKind) (module addr ctx cluster entry : Nat) : Pages :=
  if bit p.faultSrc 63 then { p with faultMulti := true }
  else
    { p with
      faultAddr := mkFld 63 52 module ||| mkFld 51 0 (addr / 8 * 8)
      faultSrc := mkFld 63 63 1 ||| mkFld 62 60 kind.code ||| mkFld 59 48 ctx ||| mkFld 47 41 cluster
        ||| mkFld 40 25 entry }

/-! ## Poison -/

/-- Word addresses that hold the poison code (R387), each once. -/
abbrev Poison := List Nat

def Poison.add (p : Poison) (a : Nat) : Poison :=
  let w := a / 8 * 8
  if p.contains w then p else w :: p

/-- A write of `n` bytes from `a` clears the poison of every word it covers whole. -/
def Poison.clear (p : Poison) (a n : Nat) : Poison := p.filter (fun w => !(a ≤ w && w + 8 ≤ a + n))

/-- The first poisoned word that a read of `n` bytes from `a` meets. -/
def Poison.hit (p : Poison) (a n : Nat) : Option Nat := p.find? (fun w => w < a + n && a < w + 8)

/-- The first poisoned word that a write covers only in part. -/
def Poison.partHit (p : Poison) (a n : Nat) : Option Nat :=
  p.find? (fun w => w < a + n && a < w + 8 && !(a ≤ w && w + 8 ≤ a + n))

/-! ## Accesses -/

/-- One access of an entry or an agent: `n` bytes from a local address, read or written. -/
structure Access where
  addr : Nat
  n : Nat
  write : Bool
  deriving DecidableEq, Repr

/-- The first address of an access that is unbacked for logical cluster `l` (R365, R367): store addresses are valid only
for the cluster that they name. -/
def Pages.rangeFault (p : Pages) (l : Option Nat) (x : Access) : Option Nat :=
  if x.n = 0 then none else
  match placeOf x.addr, placeOf (x.addr + x.n - 1) with
  | .store k _, .store k' _ => if l = some k ∧ k = k' then none else some x.addr
  | .chip _ _, .chip _ _ => ((pagesOf x.addr x.n).find? (fun g => !(p.backed g))).map (fun g => max g x.addr)
  | .sys _, .sys _ => ((pagesOf x.addr x.n).find? (fun g => !(p.backed g))).map (fun g => max g x.addr)
  | _, _ => some x.addr

/-- What an access meets: an unbacked address, an uncorrectable word that the read finds (`bad`, the physical finding of
the command, log 8) or a poisoned word. -/
def accessFault (p : Pages) (q : Poison) (bad : List Nat) (l : Option Nat) (x : Access) : Option (FaultKind × Nat) :=
  match p.rangeFault l x with
  | some a => some (.range, a)
  | none =>
    if x.write then (q.partHit x.addr x.n).map (fun w => (.poisoned, w))
    else
      match bad.find? (fun w => w / 8 * 8 < x.addr + x.n && x.addr < w / 8 * 8 + 8) with
      | some w => some (if q.contains (w / 8 * 8) then .poisoned else .unc, w / 8 * 8)
      | none => (q.hit x.addr x.n).map (fun w => (.poisoned, w))

/-- The first fault of a list of accesses. -/
def firstFault (p : Pages) (q : Poison) (bad : List Nat) (l : Option Nat) : List Access → Option (FaultKind × Nat)
  | [] => none
  | x :: xs =>
    match accessFault p q bad l x with
    | some f => some f
    | none => firstFault p q bad l xs

/-- Every word that the reads of a list find uncorrectable or poisoned, each once, in the order in which they meet it (R387, R394). -/
def badWords (q : Poison) (bad : List Nat) (xs : List Access) : List (FaultKind × Nat) :=
  (xs.flatMap (fun x =>
    if x.write then []
    else ((bad.map (fun w => w / 8 * 8)) ++ q).filterMap (fun w =>
      if w < x.addr + x.n ∧ x.addr < w + 8 then some (if q.contains w then .poisoned else .unc, w) else none))).dedup

/-- A write of the list touches a page that moves: the write waits (R377). -/
def writesWait (p : Pages) (xs : List Access) : Bool :=
  xs.any (fun x => x.write && (pagesOf x.addr x.n).any p.moving)

end Sys2Proof.Machine
end

