-- ==== Sys2Proof/Machine/Entry.lean ====
section
/-!
DEFINITION. Cassette entries (R113 to R116), tensor, task and placement descriptors (R118 to R121, R372), stream and
transfer descriptors (R379, R380), as the loader reads them.
-/

namespace Sys2Proof.Machine

/-- Opcodes of R115. -/
inductive Opcode where
  | nop | signal | fence | ctlWrite | iterEnd | stepEnd | halt
  | mm | mmTa | mmTb | gramL | gramR
  | chain | reduce | topiary
  | stream | copy | release
  | send | collective | exchange
  | optimise | digest
  deriving DecidableEq, Repr

/-- Codes of R115; other codes are reserved. -/
def Opcode.ofCode : Nat → Option Opcode
  | 0x01 => some .nop
  | 0x02 => some .signal
  | 0x03 => some .fence
  | 0x04 => some .ctlWrite
  | 0x05 => some .iterEnd
  | 0x06 => some .stepEnd
  | 0x07 => some .halt
  | 0x10 => some .mm
  | 0x11 => some .mmTa
  | 0x12 => some .mmTb
  | 0x13 => some .gramL
  | 0x14 => some .gramR
  | 0x20 => some .chain
  | 0x21 => some .reduce
  | 0x30 => some .topiary
  | 0x40 => some .stream
  | 0x41 => some .copy
  | 0x42 => some .release
  | 0x50 => some .send
  | 0x51 => some .collective
  | 0x52 => some .exchange
  | 0x60 => some .optimise
  | 0x61 => some .digest
  | _ => none

/-- What a descriptor check answers: the value, or a refusal code. -/
inductive Chk (α : Type) where
  | ok (a : α)
  | bad (code : Nat)
  deriving DecidableEq, Repr

/-- Refusal codes of R150, R395, R85 and R468. -/
def refuseZero : Nat := 0x0101
def refuseEntry : Nat := 0x0102
def refuseLength : Nat := 0x0103
def refuseDescriptor : Nat := 0x0104
def refuseAlias : Nat := 0x0105
def refuseFlow : Nat := 0x0106
def refuseWait : Nat := 0x0107
def refuseSignal : Nat := 0x0108
def refuseWord : Nat := 0x0109
def refuseOperand : Nat := 0x010A
def refuseNoFit : Nat := 0x01A0
def refuseCycle : Nat := 0x01A1
def refuseStream : Nat := 0x01A2
def refuseRegion : Nat := 0x01A3
def refusePackage : Nat := 0x01D0
def refuseReserved : Nat := 0x0120
def refuseScale : Nat := 0x0121
def refuseConv : Nat := 0x0122

/-- Index "none" of R114. -/
def noIdx : Nat := 0xFFFF

/-- A Cassette entry (R113, R114). -/
structure Entry where
  op : Opcode
  reord : Bool
  mig : Bool
  fence : Nat
  sigOn : Bool
  rnd : Nat
  waitEn : Bool
  waitCtr : Nat
  sigCtr : Nat
  mask : Nat
  waitVal : Nat
  opa : Nat
  opb : Nat
  opd : Nat
  aux : Nat
  w2 : Word
  w3 : Word
  deriving DecidableEq, Repr

/-- Which of OPA, OPB, OPD and AUX an opcode names (R115), and the bits of words 2 and 3 that it names. -/
def Opcode.names : Opcode → (Bool × Bool × Bool × Bool) × Word × Word
  | .signal => ((false, false, false, false), mkFld 63 52 0xFFF ||| mkFld 44 32 0x1FFF, mkFld 23 0 0xFFFFFF)
  | .ctlWrite => ((false, false, false, false), mkFld 31 0 0xFFFFFFFF, ~~~ 0)
  | .iterEnd => ((false, false, false, true), ~~~ 0, ~~~ 0)
  | .mm | .mmTa | .mmTb => ((true, true, true, true), 3, 0)
  | .gramL | .gramR => ((true, false, false, false), mkFld 15 0 0xFFFF, 0)
  | .chain => ((true, true, true, true), 0, 0)
  | .reduce => ((true, false, true, true), 0, 0)
  | .topiary => ((false, false, false, true), 1, 0)
  | .stream => ((false, false, true, true), 0, 0)
  | .copy => ((true, false, true, false), 0, 0)
  | .release => ((false, false, false, true), 0, 0)
  | .send => ((true, false, false, true), 0, 0)
  | .collective | .exchange => ((true, false, true, true), 0, 0)
  | .optimise | .digest => ((false, false, false, true), 0, 0)
  | .nop | .fence | .stepEnd | .halt => ((false, false, false, false), 0, 0)

def Opcode.isMatrix : Opcode → Bool
  | .mm | .mmTa | .mmTb | .gramL | .gramR => true
  | _ => false

def Opcode.endsWindow : Opcode → Bool
  | .iterEnd | .stepEnd | .halt => true
  | _ => false

/-- The checks of R116 that one entry alone decides; the opcode's own zero checks are the loader's. -/
def Entry.parse (w : List Word) : Chk Entry :=
  let w0 := wordAt w 0
  let w1 := wordAt w 1
  match Opcode.ofCode (fld w0 63 56) with
  | none => .bad refuseEntry
  | some op =>
    let e : Entry :=
      { op, reord := bit w0 55, mig := bit w0 54, fence := fld w0 53 51, sigOn := bit w0 50, rnd := fld w0 49 48,
        waitEn := bit w0 47, waitCtr := fld w0 46 41, sigCtr := fld w0 40 35, mask := fld w0 31 24,
        waitVal := fld w0 23 0, opa := fld w1 63 48, opb := fld w1 47 32, opd := fld w1 31 16, aux := fld w1 15 0,
        w2 := wordAt w 2, w3 := wordAt w 3 }
    let n := op.names
    let unnamed (named : Bool) (v : Nat) : Bool := named || v == noIdx
    let auxOk : Bool := if op = .iterEnd then fld (BitVec.ofNat 64 e.aux) 14 6 == 0 else true
    let mayMask : Bool := op.isMatrix || op == .optimise
    let ok : Bool :=
      fld w0 34 32 == 0 && unnamed n.1.1 e.opa && unnamed n.1.2.1 e.opb && unnamed n.1.2.2.1 e.opd
        && unnamed n.1.2.2.2 e.aux && auxOk && (e.w2 &&& ~~~ n.2.1) == 0 && (e.w3 &&& ~~~ n.2.2) == 0
        && e.fence ≤ 4
        && !(e.reord && e.fence != 0) && !(e.reord && op.endsWindow)
        && (mayMask || e.mask == 0) && (mayMask || e.fence != 1)
        && (e.sigOn || e.sigCtr == 0) && (e.waitEn || (e.waitCtr == 0 && e.waitVal == 0))
        && !(op == .fence && e.fence == 0)
    if !ok then .bad refuseEntry else if e.rnd = 3 then .bad refuseReserved else .ok e

/-- A tensor descriptor (R118). -/
structure Tensor where
  fmt : Fmt
  base : Nat
  srecEn : Bool
  srec : Nat
  splane : Nat
  rows : Nat
  cols : Nat
  lrows : Nat
  lcols : Nat
  stride : Nat
  haz : Nat
  id : Nat
  fullCols : Nat
  indexBase : Nat
  deriving DecidableEq, Repr

/-- A tensor descriptor from its 8 words, with the bounds of R118 and R119. COLS of a BX48 tensor need not be a multiple of 64: the
last segment of its rows then holds fewer columns (R46, R207; DESIGN CHOICE, log 37). -/
def Tensor.parse (w : List Word) : Chk Tensor :=
  match Fmt.ofCode (fld (wordAt w 0) 63 60) with
  | none => .bad refuseReserved
  | some fmt =>
    let t : Tensor :=
      { fmt, base := fld (wordAt w 0) 51 0, srecEn := bit (wordAt w 1) 63, srec := fld (wordAt w 1) 51 0,
        splane := fld (wordAt w 2) 51 0, rows := fld (wordAt w 3) 63 32, cols := fld (wordAt w 3) 31 0,
        lrows := fld (wordAt w 4) 63 32, lcols := fld (wordAt w 4) 31 0, stride := fld (wordAt w 5) 63 32,
        haz := fld (wordAt w 5) 31 16, id := fld (wordAt w 6) 63 32, fullCols := fld (wordAt w 6) 31 0,
        indexBase := fld (wordAt w 7) 63 16 }
    if t.rows == 0 || t.cols == 0 || t.lrows == 0 || t.lcols == 0 || t.fullCols == 0 then .bad refuseZero
    else if fld (wordAt w 0) 59 52 == 0 && fld (wordAt w 1) 62 52 == 0 && fld (wordAt w 2) 63 52 == 0
        && fld (wordAt w 5) 15 0 == 0 && fld (wordAt w 7) 15 0 == 0
        && t.srec % 128 == 0 && (!fmt.scaled || t.srecEn)
        && (fmt == .s4 || t.splane == 0) && t.lrows ≤ t.rows && t.lcols ≤ t.cols && t.lcols ≤ t.fullCols
        && (fmt != .s4 || t.cols % 32 == 0) && (fmt != .mw40 || t.cols % 8 == 0)
        && t.stride ≥ fmt.rowBytes t.cols
    then .ok t else .bad refuseDescriptor

/-- Bytes of one held row. -/
def Tensor.rowBytes (t : Tensor) : Nat := t.fmt.rowBytes t.cols

/-- First byte and length of the rows' range (R120). -/
def Tensor.bytes (t : Tensor) : Nat := (t.rows - 1) * t.stride + t.rowBytes

/-- Bytes of the S4 scale plane (R118). -/
def Tensor.planeBytes (t : Tensor) : Nat := if t.fmt = .s4 then t.rows * t.cols / 32 else 0

/-- The byte ranges of R120: the rows at their stride, and the scale plane of S4. -/
def Tensor.ranges (t : Tensor) : List (Nat × Nat) :=
  (t.base, t.bytes) :: (if t.fmt = .s4 then [(t.splane, t.planeBytes)] else [])

/-- The logical index of a data element (R119). -/
def Tensor.index (t : Tensor) (r c : Nat) : Nat := t.indexBase + r * t.fullCols + c

/-- The accesses of reading or writing all held rows, the scale plane of S4 included. -/
def Tensor.accesses (t : Tensor) (write : Bool) : List Access :=
  (List.range t.rows).map (fun r => ⟨t.base + r * t.stride, t.rowBytes, write⟩)
    ++ (if t.fmt = .s4 then [⟨t.splane, t.planeBytes, write⟩] else [])
    ++ (if t.srecEn then [⟨t.srec, 128, write⟩] else [])

/-- A task descriptor (R121). -/
structure TaskDesc where
  stepBase : Nat
  steps : Nat
  dlEn : Bool
  deadlineUs : Nat
  saveArea : Nat
  entryWinUs : Nat
  suspendWinUs : Nat
  deriving DecidableEq, Repr

def TaskDesc.parse (w : List Word) : Chk TaskDesc :=
  let t : TaskDesc :=
    { stepBase := (wordAt w 0).toNat, steps := fld (wordAt w 1) 63 32, dlEn := bit (wordAt w 2) 63,
      deadlineUs := fld (wordAt w 2) 39 0, saveArea := fld (wordAt w 3) 51 0, entryWinUs := fld (wordAt w 4) 63 32,
      suspendWinUs := fld (wordAt w 4) 31 0 }
  if t.steps == 0 || t.entryWinUs == 0 || t.suspendWinUs == 0 || (t.dlEn && t.deadlineUs == 0) then .bad refuseZero
  else if fld (wordAt w 1) 31 0 == 0 && fld (wordAt w 2) 62 40 == 0 && fld (wordAt w 3) 63 52 == 0
      && wordAt w 5 == 0 && wordAt w 6 == 0 && wordAt w 7 == 0
      && t.saveArea % pageBytes == 0 && (t.dlEn || t.deadlineUs == 0)
  then .ok t else .bad refuseDescriptor

/-- Bytes of one slot of a save area (R121). -/
def saveSlotBytes : Nat := 0x800000

/-- Placement hints (R372). -/
inductive Hint where
  | near | prefer | hbm | saved | gather | window
  deriving DecidableEq, Repr

def Hint.ofCode : Nat → Option Hint
  | 1 => some .near
  | 2 => some .prefer
  | 3 => some .hbm
  | 4 => some .saved
  | 5 => some .gather
  | 6 => some .window
  | _ => none

/-- A region record (R372). -/
structure Region where
  hint : Hint
  layer : Nat
  nslot : Nat
  base : Nat
  bytes : Nat
  slotBytes : Nat
  deriving DecidableEq, Repr

/-- A region record from its 4 words, with the checks of R373 that it alone decides. -/
def Region.parse (w : List Word) : Chk Region :=
  match Hint.ofCode (fld (wordAt w 0) 63 60) with
  | none => .bad refuseRegion
  | some hint =>
    let r : Region :=
      { hint, layer := fld (wordAt w 0) 47 32, nslot := fld (wordAt w 0) 31 16, base := fld (wordAt w 1) 51 0,
        bytes := (wordAt w 2).toNat, slotBytes := fld (wordAt w 3) 63 32 }
    let win : Bool := hint == .window
    let lay : Bool := hint == .saved || hint == .gather
    if r.bytes == 0 || (win && (r.nslot == 0 || r.slotBytes == 0)) then .bad refuseZero
    else if fld (wordAt w 0) 59 48 == 0 && fld (wordAt w 0) 15 0 == 0 && fld (wordAt w 1) 63 52 == 0
        && fld (wordAt w 3) 31 0 == 0 && r.base % pageBytes == 0 && r.bytes % pageBytes == 0
        && (lay || r.layer == 0)
        && (if win then r.nslot ≤ 64 && r.slotBytes % 64 == 0 && r.nslot * r.slotBytes ≤ r.bytes
            else r.nslot == 0 && r.slotBytes == 0)
        && (match placeOf r.base with
            | .chip _ off => decide (off + r.bytes ≤ chipBytes)
            | _ => false)
        && !(r.base < 0x10000000) && (!(inHdm r.base) || hint == .hbm)
    then .ok r else .bad refuseRegion

/-- The range of `n` bytes from `a` lies in the region. -/
def Region.holds (r : Region) (a n : Nat) : Bool := r.base ≤ a && a + n ≤ r.base + r.bytes

/-- A range lies wholly within the union of the regions: walked page by page, since regions are whole pages. -/
def inRegions (rs : List Region) (a n : Nat) : Bool :=
  rs.any (fun r => r.holds a n) || (pagesOf a n).all (fun p => rs.any (fun r => r.base ≤ p && p < r.base + r.bytes))

/-- A block-list extent (R380). -/
structure Extent where
  src : Nat
  len : Nat
  dst : Nat
  deriving DecidableEq, Repr

/-- An entry of the stream and transfer table (R379). -/
inductive StreamDesc where
  | stream (window slot srcHaz next list view : Nat)
  | transfer (nrows dst stride : Nat)
  deriving DecidableEq, Repr

def StreamDesc.parse (w : List Word) : Chk StreamDesc :=
  match fld (wordAt w 0) 63 60 with
  | 1 =>
    if fld (wordAt w 0) 59 48 == 0 && fld (wordAt w 1) 31 0 == 0 && fld (wordAt w 2) 63 52 == 0
        && fld (wordAt w 3) 63 16 == 0 && fld (wordAt w 2) 51 0 % 16 == 0 then
      .ok (.stream (fld (wordAt w 0) 47 32) (fld (wordAt w 0) 31 16) (fld (wordAt w 0) 15 0) (fld (wordAt w 1) 63 32)
        (fld (wordAt w 2) 51 0) (fld (wordAt w 3) 15 0))
    else .bad refuseStream
  | 2 =>
    if fld (wordAt w 0) 59 32 == 0 && fld (wordAt w 2) 31 0 == 0 && wordAt w 3 == 0
        && (wordAt w 1).toNat % 64 == 0 then
      .ok (.transfer (fld (wordAt w 0) 31 0) (wordAt w 1).toNat (fld (wordAt w 2) 63 32))
    else .bad refuseStream
  | _ => .bad refuseStream

/-- The extents of a block list, read from memory; `none` where a field breaks R380. -/
def extents (m : Cells) (list n : Nat) : List (Option Extent) :=
  (List.range n).map (fun i =>
    let w0 := Cells.word m (list + 16 * i)
    let w1 := Cells.word m (list + 16 * i + 8)
    if fld w0 63 52 == 0 && fld w1 31 0 % 64 == 0 && fld w1 63 32 % 64 == 0 && fld w0 51 0 % 64 == 0 then
      some ⟨fld w0 51 0, fld w1 63 32, fld w1 31 0⟩
    else none)

end Sys2Proof.Machine
end

