-- ==== Sys2Proof/Machine/Tensor.lean ====
section
/-!
DEFINITION. Elements of tensors in memory (R46, R49, R52, R55, R57, R162), the writer of a tensor with its counts
(R50, R58, R67 to R70, R74), and the tensor scale record (R71 to R77).
-/

namespace Sys2Proof.Machine

/-! ## Reading -/

/-- The scale exponents that S8 elements were written with (R52), as ranges of bytes, newest first: first byte, bytes, T. -/
abbrev Tags := List (Nat × Nat × Int)

/-- A range of bytes takes one T; ranges that it covers whole go. -/
def Tags.put (g : Tags) (a n : Nat) (t : Int) : Tags :=
  (a, n, t) :: g.filter (fun x => !(a ≤ x.1 && x.1 + x.2.1 ≤ a + n))

/-- The T of a byte. -/
def Tags.at' (g : Tags) (a : Nat) : Option Int :=
  (g.find? (fun x => x.1 ≤ a && a < x.1 + x.2.1)).map (fun x => x.2.2)

/-- The tags of `n` bytes at `src` carried to `dst` with the bytes (streams, sends and gathers copy no format). -/
def Tags.copy (g : Tags) (src dst n : Nat) : Tags :=
  let cut := g.filterMap (fun x =>
    let lo := max x.1 src
    let hi := min (x.1 + x.2.1) (src + n)
    if lo < hi then some (dst + (lo - src), hi - lo, x.2.2) else none)
  cut ++ g.filter (fun x => !(dst ≤ x.1 && x.1 + x.2.1 ≤ dst + n))

/-- Memory as a reader of tensors sees it: bytes, and the T that S8 elements were written with. -/
structure Mv where
  cells : Cells
  tags : Tags
  deriving DecidableEq, Repr

/-- T_CUR of a scale record, a signed scale exponent (R77). -/
def tCur (m : Cells) (srec : Nat) : Int := signExt 8 (fld (Cells.word m srec) 47 40)

/-- The scale exponent that a conversion into the tensor uses: T_CUR of its record for S4, S8E and S8W (R71, R75), else 0. -/
def Tensor.scaleOf (t : Tensor) (m : Cells) : Int := if t.fmt.scaled then tCur m t.srec else 0

/-- Address of the bytes that hold element `(r, c)`. -/
def Tensor.addr (t : Tensor) (r c : Nat) : Nat :=
  t.base + r * t.stride +
    (match t.fmt with
     | .s4 => c / 2
     | .bx48 => c / 64 * 392 + c % 64 * 6
     | f => c * (f.bits / 8))

/-- The code of element `(r, c)`. -/
def Tensor.codeAt (t : Tensor) (m : Cells) (r c : Nat) : Nat :=
  match t.fmt with
  | .s4 => ((Cells.byte m (t.addr r c)).toNat >>> (if c % 2 = 0 then 0 else 4)) % 16
  | f => ofLeBytes (Cells.read m (t.addr r c) (f.bits / 8))

/-- Address of the scale byte of an S4 element (R46). -/
def Tensor.planeAddr (t : Tensor) (r c : Nat) : Nat := t.splane + r * (t.cols / 32) + c / 32

/-- Exponent code of the BX48 segment that holds element `(r, c)` (R57). -/
def Tensor.segCode (t : Tensor) (m : Cells) (r c : Nat) : Nat :=
  ofLeBytes (Cells.read m (t.base + r * t.stride + c / 64 * 392 + 384) 2)

/-- The exact value of a held element, its scale applied (R49, R52, R57). -/
def Tensor.held (t : Tensor) (m : Mv) (r c : Nat) : Val :=
  match t.fmt with
  | .s4 =>
    let b := (Cells.byte m.cells (t.planeAddr r c)).toNat
    if b = 255 then .nan else (Fmt.decode .s4 (t.codeAt m.cells r c)).scale ((b : Int) - 127)
  | .bx48 =>
    let e := t.segCode m.cells r c
    if e = 0x8000 then .nan else (Fmt.decode .bx48 (t.codeAt m.cells r c)).scale (signExt 16 e - 47)
  | f =>
    let v := f.decode (t.codeAt m.cells r c)
    if f.scaled then v.scale ((m.tags.at' (t.addr r c)).getD (t.scaleOf m.cells)) else v

/-- An operand's element: padding reads as +0 (R162). -/
def Tensor.value (t : Tensor) (m : Mv) (r c : Nat) : Val :=
  if r < t.lrows ∧ c < t.lcols then t.held m r c else .fin false 0 0

/-- The F32 code of an element of an F32 tensor; +0 in padding. -/
def Tensor.f32At (t : Tensor) (m : Mv) (r c : Nat) : F32 :=
  if r < t.lrows ∧ c < t.lcols then BitVec.ofNat 32 (t.codeAt m.cells r c) else 0

/-! ## Writing -/

/-- What one conversion into a tensor leaves in the private counts of its cluster (R70, R74). -/
structure ConvStat where
  ovf : Nat := 0
  flush : Nat := 0
  nonfin : Nat := 0
  amax : Nat := 0
  deriving DecidableEq, Repr

def ConvStat.add (a b : ConvStat) : ConvStat :=
  { ovf := satAdd 32 a.ovf b.ovf, flush := satAdd 32 a.flush b.flush, nonfin := satAdd 32 a.nonfin b.nonfin,
    amax := max a.amax b.amax }

def ConvStat.ofConv (c : Conv) : ConvStat :=
  { ovf := b2n c.ovf, flush := b2n c.flush, nonfin := b2n c.nonfin }

/-- The largest finite magnitude among values, as the F32 of R74. -/
def amaxOf (vs : List Val) : Nat :=
  vs.foldl (fun a v => match v with | .fin _ m e => if m = 0 then a else max a (f32Up m e) | _ => a) 0

/-- Bytes written and counts of one conversion. -/
structure Written where
  writes : List (Nat × List Byte) := []
  tags : List (Nat × Nat × Int) := []
  stat : ConvStat := {}
  range : Bool := false
  deriving DecidableEq, Repr

def Written.append (a b : Written) : Written :=
  { writes := a.writes ++ b.writes, tags := a.tags ++ b.tags, stat := a.stat.add b.stat, range := a.range || b.range }

/-- Block exponent of an S4 block of largest finite magnitude `M` under the tensor's scale `T` (R50). -/
def s4Exp (big : Dy) (t : Int) : Int :=
  if big.m = 0 then t
  else
    let k := big.expo
    let e := if Dy.le big ⟨6, k - 3⟩ then k - 3 else k - 2
    max (-127) (min e t)

/-- Packs S4 codes two a byte, the even element low (R46). -/
def packNibbles : List Nat → List Byte
  | a :: b :: l => BitVec.ofNat 8 (a % 16 + 16 * (b % 16)) :: packNibbles l
  | [a] => [BitVec.ofNat 8 (a % 16)]
  | [] => []

/-- One element with its rounding mode and value; `none` is padding. -/
abbrev Cell1 := Option (Rnd × Val)

/-- One S4 block (R50): scale byte, codes and counts. -/
def writeS4Block (t : Int) (cells : List Cell1) : Nat × List Nat × ConvStat :=
  let vals := cells.filterMap (fun c => c.map (·.2))
  let nf := (vals.filter (fun v => !v.isFin)).length
  let big := vals.foldl (fun a v => if v.isFin then Dy.max a v.dy.abs else a) Dy.zero
  if nf > 0 then (255, cells.map (fun _ => 0), { nonfin := nf, amax := amaxOf vals })
  else
    let e := s4Exp big t
    let cs := cells.map (fun c =>
      match c with
      | none => ({ code := 0 } : Conv)
      | some (r, v) => convFloat .s4 r (v.scale (-e)))
    let st := cs.foldl (fun a c => a.add (ConvStat.ofConv c)) { amax := amaxOf vals }
    ((e + 127).toNat, cs.map (·.code), st)

/-- One BX48 segment (R58, R69, R84); padding is zero. -/
def writeSeg (cells : List Cell1) : SegOut :=
  if cells.any (fun c => match c with | some (_, v) => !v.isFin | none => false) then .ok .nonfin
  else bxWrite (cells.map (fun c => match c with | some (r, v) => (r, v.dy) | none => (.rne, Dy.zero)))

/-- Finite non-zero inputs whose significand in the segment is 0 (R68). -/
def segFlush (cells : List Cell1) (g : SegOut) : Nat :=
  match g with
  | .ok (.seg _ s) =>
    ((cells.zip s).filter (fun p => match p.1 with | some (_, .fin _ m _) => m != 0 && p.2 == 0 | _ => false)).length
  | _ => 0

/-- One held row of a tensor; the places of a last BX48 segment that no column has are zero (log 37). -/
def writeRow (t : Tensor) (scale : Int) (r : Nat) (cells : List Cell1) : Written :=
  let at' := t.base + r * t.stride
  match t.fmt with
  | .s4 =>
    let blocks := (chunks 32 cells).map (writeS4Block scale)
    { writes :=
        [(at', packNibbles (blocks.flatMap (fun b => b.2.1))),
         (t.splane + r * (t.cols / 32), blocks.map (fun b => BitVec.ofNat 8 b.1))]
      stat := blocks.foldl (fun a b => a.add b.2.2) {} }
  | .bx48 =>
    let vals := cells.filterMap (fun c => c.map (·.2))
    let nf := (vals.filter (fun v => !v.isFin)).length
    let segs := (chunks 64 (cells ++ List.replicate ((64 - cells.length % 64) % 64) none)).map (fun c => (c, writeSeg c))
    { writes := (segs.zipIdx.filterMap (fun p =>
        match p.1.2 with
        | .ok g => some (at' + 392 * p.2, g.toBytes)
        | .range _ => none))
      stat := { nonfin := nf, amax := amaxOf vals, flush := sumNat (segs.map (fun p => segFlush p.1 p.2)) }
      range := segs.any (fun p => match p.2 with | .range _ => true | _ => false) }
  | f =>
    let cs := cells.map (fun c =>
      match c with
      | none => ({ code := 0 } : Conv)
      | some (rd, v) => convElem f rd (if f.scaled then v.scale (-scale) else v))
    let vals := cells.filterMap (fun c => c.map (·.2))
    { writes := [(at', cs.flatMap (fun c => leBytes (f.bits / 8) c.code))]
      tags := if f.scaled then [(at', t.rowBytes, scale)] else []
      stat := cs.foldl (fun a c => a.add (ConvStat.ofConv c)) { amax := amaxOf vals } }

/-- A whole tensor from the values of its data elements; padding is written as +0 (R119). `rnd r c` is the rounding mode
of an element, with its draw for SR. -/
def writeTensor (t : Tensor) (scale : Int) (rnd : Nat → Nat → Rnd) (val : Nat → Nat → Val) : Written :=
  (List.range t.rows).foldl (fun w r =>
    w.append (writeRow t scale r ((List.range t.cols).map (fun c =>
      if r < t.lrows ∧ c < t.lcols then some (rnd r c, val r c) else none)))) {}

/-- Rounding field of an entry (R66), with the draw of an element for SR (R67, R80: purpose of the stage). -/
def rndOf (code : Nat) (r : Word) : Rnd :=
  match code with
  | 1 => .sr (fld r 15 0)
  | 2 => .rtz
  | _ => .rne

/-- The mode of an element without a draw. -/
def rndPlain (code : Nat) : Rnd := if code = 2 then .rtz else .rne

/-! ## Scale records -/

/-- The smallest T from −127 to 127 with `A × 2^m ≤ Q × 2^T`, exactly (R72). -/
def deriveT (q : Nat) (a : Nat) (margin : Nat) : Int :=
  let x := ((Fmt.decode .f32 a).dy).scale margin
  let base := x.expo - ((Nat.log2 q : Int) + 1)
  let t := if Dy.le x ⟨q, base⟩ then base else base + 1
  max (-127) (min t 127)

/-- A history slot of a scale record (R77). -/
def histAt (m : Cells) (srec k : Nat) : Nat := ofLeBytes (Cells.read m (srec + 24 + 4 * k) 4)

/-- Bytes of word 0 with HFILL, HPTR and T_CUR replaced. -/
def srecWord0 (w : Word) (t : Int) (hfill hptr : Nat) : Word :=
  setFld (setFld (setFld w 47 40 (toCode 8 t)) 28 24 hfill) 23 20 hptr

/-- T_CUR by R72 of a record as it stands. -/
def recomputeT (w : Word) (hist : List Nat) : Int :=
  let hfill := fld w 28 24
  let q := match Fmt.ofCode (fld w 3 0) with | some f => f.maxQ | none => 0
  if q = 0 then 0
  else if hfill = 0 then signExt 8 (fld w 39 32)
  else
    let a := maxNat (hist.take hfill)
    if a = 0 then signExt 8 (fld w 47 40) else deriveT q a (fld w 10 8)

/-- The most recent `n` history values, oldest first. -/
def recentHist (hist : List Nat) (hlen hptr n : Nat) : List Nat :=
  (List.range n).map (fun i => hist.getD ((hptr + hlen * 2 - n + i) % hlen) 0)

/-- The fields that the package or software gives to word 0 of a record: T_INIT, HLEN, MARGIN, GLOBAL and FMT (R77). -/
def srecMask : Word := mkFld 39 32 0xFF ||| mkFld 15 7 0x1FF ||| mkFld 3 0 0xF

/-- Bits of word `k` of a record that software may write; the others are RO or reserved (R13, R77). -/
def srecRw (k : Nat) : Word := if k = 0 then srecMask else if k = 1 then mkFld 31 0 0xFFFFFFFF else if k = 2 then ~~~ 0 else 0

/-- A record at load: the package's fields stay, GLOBAL is set where the planner sets it (R76), T_CUR is T_INIT (R73), and every
other field holds its value at start, 0 (R77). A record of a format without a scale keeps T_CUR at 0 (R71). -/
def srecLoad (m : Cells) (srec : Nat) (global : Bool) : List (Nat × List Byte) :=
  let w := Cells.word m srec &&& srecMask
  let w := if global then setFld w 7 7 1 else w
  [(srec, leBytes 8 (srecWord0 w (recomputeT w []) 0 0).toNat ++ List.replicate 120 0)]

/-- The counters of a record after a step (R70): words 1 and 2. -/
def srecCounts (m : Cells) (srec : Nat) (stat : ConvStat) : Word × Word :=
  let w1 := Cells.word m (srec + 8)
  let w2 := Cells.word m (srec + 16)
  (setFld w1 31 0 (satAdd 32 (fld w1 31 0) stat.ovf),
   setFld (setFld w2 63 32 (satAdd 32 (fld w2 63 32) stat.nonfin)) 31 0 (satAdd 32 (fld w2 31 0) stat.flush))

/-- A scale record's GLOBAL (R74). -/
def srecGlobal (m : Cells) (srec : Nat) : Bool := bit (Cells.word m srec) 7

/-- What the end of a step does to one record (R70, R73, R77). `hlenOld` is the history length that was in force, `stat`
the step's merged counts, and `amax` the merged largest magnitude where the step wrote one and commits. A record of a format
without a scale keeps its counters only, and T_CUR at 0 (R71). -/
def srecStep (m : Cells) (srec hlenOld : Nat) (stat : ConvStat) (amax : Option Nat) : List (Nat × List Byte) :=
  let w := Cells.word m srec
  let cs := srecCounts m srec stat
  match Fmt.ofCode (fld w 3 0) with
  | none => [(srec + 8, leBytes 8 cs.1.toNat ++ leBytes 8 cs.2.toNat)]
  | some f =>
  if !f.scaled then [(srec, leBytes 8 (setFld w 47 40 0).toNat ++ leBytes 8 cs.1.toNat ++ leBytes 8 cs.2.toNat)]
  else
    let hist := (List.range 16).map (histAt m srec)
    let hlen := fld w 15 11
    let hfill := fld w 28 24
    let hptr := fld w 23 20
    let moved := hlen != hlenOld
    let n := min hfill hlen
    let hist := if moved then recentHist hist hlenOld hptr n ++ List.replicate (16 - n) 0 else hist
    let hfill := if moved then n else hfill
    let hptr := if moved then (if hlen = 0 then 0 else n % hlen) else hptr
    let w := srecWord0 w (signExt 8 (fld w 47 40)) hfill hptr
    let w := srecWord0 w (recomputeT w hist) hfill hptr
    let r : Word × Word × List Nat :=
      match amax with
      | none => (w, cs.1, hist)
      | some a =>
        let hist := hist.set hptr a
        let hfill := min (hfill + 1) hlen
        let hptr := if hlen = 0 then 0 else (hptr + 1) % hlen
        let w := srecWord0 w (signExt 8 (fld w 47 40)) hfill hptr
        (srecWord0 w (recomputeT w hist) hfill hptr, setFld cs.1 63 32 a, hist)
    [(srec, leBytes 8 r.1.toNat ++ leBytes 8 r.2.1.toNat ++ leBytes 8 cs.2.toNat ++ r.2.2.flatMap (leBytes 4))]

/-- The loader's checks of a scale record (R77, R85). -/
def srecRefusal (m : Cells) (srec : Nat) : Option Nat :=
  let w := Cells.word m srec
  if fld w 15 11 = 0 then some refuseZero
  else if fld w 15 11 > 16 ∨ signExt 8 (fld w 39 32) = -128 then some refuseScale
  else if (Fmt.ofCode (fld w 3 0)).isNone then some refuseReserved
  else none

end Sys2Proof.Machine
end

