-- ==== Sys2Proof/Machine/Tiles.lean ====
section
/-!
DEFINITION. What the tiles compute: operand orientation (R159, R162), output tiles (R165), sums (R62 to R65, R164), Gram
additions (R167 to R170), ABFT checks (R171 to R174) and the Pannier header (R179).
-/

namespace Sys2Proof.Machine

/-- A matrix of values with its held shape. -/
structure Mat where
  rows : Nat
  cols : Nat
  at' : List (List Val)
  deriving DecidableEq, Repr

def Mat.get (a : Mat) (r c : Nat) : Val := (a.at'.getD r []).getD c (.fin false 0 0)

/-- The held shape of a tensor with padding read as +0 (R162). -/
def Mat.ofTensor (m : Mv) (t : Tensor) : Mat :=
  { rows := t.rows, cols := t.cols,
    at' := (List.range t.rows).map (fun r => (List.range t.cols).map (fun c => t.value m r c)) }

def Mat.transpose (a : Mat) : Mat :=
  { rows := a.cols, cols := a.rows,
    at' := (List.range a.cols).map (fun c => (List.range a.rows).map (fun r => a.get r c)) }

/-- The streamed matrix (row i, index k) and the stationary matrix (index k, column n) of R159. -/
def orient (op : Opcode) (a b : Mat) : Mat × Mat :=
  match op with
  | .mmTa => (a.transpose, b)
  | .mmTb => (a, b.transpose)
  | .gramL => (a, a.transpose)
  | .gramR => (a.transpose, a)
  | _ => (a, b)

/-- The exact products of output element `(i, n)` in ascending k. -/
def prods (s t : Mat) (i n : Nat) : List Val :=
  (List.range s.cols).map (fun k => (s.get i k).mul (t.get k n))

/-- Output tiles of an output shape, row-major (R165): first row, first column, rows and columns. -/
def otiles (rows cols : Nat) : List (Nat × Nat × Nat × Nat) :=
  (List.range (ceilDiv rows 128)).flatMap (fun i => (List.range (ceilDiv cols 128)).map (fun j =>
    (128 * i, 128 * j, min 128 (rows - 128 * i), min 128 (cols - 128 * j))))

/-- Logical tile of output tile `q` under a TILE_MASK (R165). -/
def otileOwner (mask q : Nat) : Nat :=
  let set := (List.range 8).filter (fun t => mask.testBit t)
  set.getD (q % max 1 set.length) 0

/-- A computed output tile: rows × columns of `hi`, and of `lo` under A64. -/
abbrev Plane := List (List A64)

/-- One output tile from the start values `init` (R62, R64, R164). -/
def otilePlane (s t : Mat) (a64 : Bool) (init : Nat → Nat → F32) (o : Nat × Nat × Nat × Nat) : Plane :=
  (List.range o.2.2.1).map (fun i => (List.range o.2.2.2).map (fun j =>
    let ps := prods s t (o.1 + i) (o.2.1 + j)
    if a64 then accumA64 (init (o.1 + i) (o.2.1 + j)) ps
    else ⟨accumF32 (init (o.1 + i) (o.2.1 + j)) ps, 0⟩))

/-- A fault of a cell, the physical finding of a command: during attempt `attempt` (0 first, 1 retry) of output tile `q`
the element in row `row` and column `col` of the tile comes out as `v`; column 128 is the checksum column, row 128 the checksum row,
whose expected sum comes out as `v` (R171, R175; log 8). -/
structure CellFault where
  q : Nat
  attempt : Nat
  row : Nat
  col : Nat
  v : F32
  deriving DecidableEq, Repr

/-- The plane as the array delivers it under the findings. -/
def faultPlane (fs : List CellFault) (q attempt : Nat) (p : Plane) : Plane :=
  fs.foldl (fun p f => if f.q = q ∧ f.attempt = attempt then updAt p f.row (fun r => updAt r f.col (fun x => ⟨f.v, x.lo⟩))
    else p) p

/-- A checksum cell's expected sum under the findings of an attempt: the sum itself, or the value that a fault makes of it. -/
def faultSum (fs : List CellFault) (q attempt row col : Nat) (v : Val) : Val :=
  match fs.find? (fun f => f.q = q ∧ f.attempt = attempt ∧ f.row = row ∧ f.col = col) with
  | some f => Fp.val f.v
  | none => v

/-- Sum and magnitude sum in A64, ascending, rounded to F32 (R171). -/
def sumA64 (vs : List Val) : F32 := (vs.foldl (fun (p : A64) v => p.addExact v) A64.zero).hi
def magA64 (vs : List Val) : F32 := sumA64 (vs.map Val.abs)

/-- The exact value of an A64 pair, where it is finite. -/
def A64.val (p : A64) : Val := (Fp.val p.hi).add (Fp.val p.lo)

/-- Checksum vectors of a stationary block: c_k and a_k (R171). -/
def checkCol (t : Mat) (o : Nat × Nat × Nat × Nat) (k : Nat) : F32 × F32 :=
  let vs := (List.range o.2.2.2).map (fun j => t.get k (o.2.1 + j))
  (sumA64 vs, magA64 vs)

/-- Checksum vectors of a streamed block: r_k and b_k (R171). -/
def checkRow (s : Mat) (o : Nat × Nat × Nat × Nat) (k : Nat) : F32 × F32 :=
  let vs := (List.range o.2.2.1).map (fun i => s.get (o.1 + i) k)
  (sumA64 vs, magA64 vs)

def dotA64 (l : List (Val × Val)) : A64 := l.foldl (fun (p : A64) x => p.addExact (x.1.mul x.2)) A64.zero

/-- `|e + z − sum| > g × 2^−t × (u + w)`; a line whose sums include a non-finite value is not compared (R172). -/
def lineFails (g t : Nat) (e z sum u w : Val) : Bool :=
  if e.isFin && z.isFin && sum.isFin && u.isFin && w.isFin then
    Dy.lt (((u.add w).dy).mul ⟨g, -(t : Int)⟩) ((e.add z).add sum.neg).dy.abs
  else false

/-- Failing rows and columns of an output tile (R172), with start values included under ACC; `ck` gives an expected sum as its
checksum cell delivers it. -/
def abftFails (s t : Mat) (tol : Nat) (acc : Bool) (init : Nat → Nat → F32) (ck : Nat → Nat → Val → Val)
    (o : Nat × Nat × Nat × Nat) (p : Plane) : List Nat × List Nat :=
  let ks := List.range s.cols
  let g := ceilDiv s.cols 32
  let cols := ks.map (checkCol t o)
  let rows := ks.map (checkRow s o)
  let cell (i j : Nat) : A64 := (p.getD i []).getD j A64.zero
  let start (i j : Nat) : Val := if acc then Fp.val (init (o.1 + i) (o.2.1 + j)) else .fin false 0 0
  let rowFail (i : Nat) : Bool :=
    let js := List.range o.2.2.2
    let e := dotA64 (ks.map (fun k => (s.get (o.1 + i) k, Fp.val ((cols.getD k (0, 0)).1))))
    let u := dotA64 (ks.map (fun k => ((s.get (o.1 + i) k).abs, Fp.val ((cols.getD k (0, 0)).2))))
    let sum := js.foldl (fun (q : A64) j => q.addExact (cell i j).val) A64.zero
    let z := js.foldl (fun (q : A64) j => q.addExact (start i j)) A64.zero
    let w := js.foldl (fun (q : A64) j => q.addExact (start i j).abs) A64.zero
    lineFails g tol (ck i 128 e.val) z.val sum.val u.val w.val
  let colFail (j : Nat) : Bool :=
    let is := List.range o.2.2.1
    let f := dotA64 (ks.map (fun k => (Fp.val ((rows.getD k (0, 0)).1), t.get k (o.2.1 + j))))
    let v := dotA64 (ks.map (fun k => (Fp.val ((rows.getD k (0, 0)).2), (t.get k (o.2.1 + j)).abs)))
    let sum := is.foldl (fun (q : A64) i => q.addExact (cell i j).val) A64.zero
    let z := is.foldl (fun (q : A64) i => q.addExact (start i j)) A64.zero
    let w := is.foldl (fun (q : A64) i => q.addExact (start i j).abs) A64.zero
    lineFails g tol (ck 128 j f.val) z.val sum.val v.val w.val
  ((List.range o.2.2.1).filter rowFail, (List.range o.2.2.2).filter colFail)

/-- Verdict of an output tile (R174, R179). -/
inductive Abft where
  | pending | pass | passRetry | fail
  deriving DecidableEq, Repr

/-- An output tile as it leaves its tile: its verdict, its values, and the locations that failed. -/
structure OTile where
  q : Nat
  pos : Nat × Nat × Nat × Nat
  plane : Plane
  verdict : Abft
  rows : List Nat
  cols : List Nat
  deriving DecidableEq, Repr

/-- An output tile with its check and at most one retry (R172, R174). -/
def runOtile (s t : Mat) (a64 : Bool) (tol : Nat) (acc : Bool) (init : Nat → Nat → F32) (fs : List CellFault) (q : Nat)
    (o : Nat × Nat × Nat × Nat) : OTile :=
  let good := otilePlane s t a64 init o
  let p0 := faultPlane fs q 0 good
  let f0 := abftFails s t tol acc init (faultSum fs q 0) o p0
  if f0.1.isEmpty && f0.2.isEmpty then ⟨q, o, p0, .pass, [], []⟩
  else
    let p1 := faultPlane fs q 1 good
    let f1 := abftFails s t tol acc init (faultSum fs q 1) o p1
    if f1.1.isEmpty && f1.2.isEmpty then ⟨q, o, p1, .passRetry, f0.1, f0.2⟩
    else ⟨q, o, p1, .fail, f0.1 ++ f1.1, f0.2 ++ f1.2⟩

/-- The output tile waits for its retry (R174). -/
def OTile.await (t : OTile) : OTile := if t.verdict = .pass then t else { t with verdict := .pending }

/-- All output tiles of a product, in release order (R178). -/
def product (op : Opcode) (a b : Mat) (a64 : Bool) (tol : Nat) (acc : Bool) (init : Nat → Nat → F32)
    (fs : List CellFault) : List OTile :=
  let st := orient op a b
  (otiles st.1.rows st.2.cols).zipIdx.map (fun p => runOtile st.1 st.2 a64 tol acc init fs p.2 p.1)

/-- An output element of a product. -/
def productAt (ts : List OTile) (cols r c : Nat) : A64 :=
  let q := r / 128 * ceilDiv cols 128 + c / 128
  match ts.find? (fun t => t.q = q) with
  | some t => (t.plane.getD (r % 128) []).getD (c % 128) A64.zero
  | none => A64.zero

/-- An output element of a product whose output tiles may be numbered on from others'. -/
def planeAt (ts : List OTile) (r c : Nat) : A64 :=
  match ts.find? (fun t => t.pos.1 = r / 128 * 128 ∧ t.pos.2.1 = c / 128 * 128) with
  | some t => (t.plane.getD (r % 128) []).getD (c % 128) A64.zero
  | none => A64.zero

def abftPassed (ts : List OTile) : Nat := (ts.filter (fun t => t.verdict = .passRetry)).length
def abftFailed (ts : List OTile) : Nat := (ts.filter (fun t => t.verdict = .fail)).length

/-! ## Gram mode -/

/-- The additions into one accumulator in ascending k (R167); a non-finite operand marks it (R170). -/
def gramAcc (a : Acc) (s t : Mat) (i n : Nat) : Acc :=
  (prods s t i n).foldl (fun a v =>
    match v with
    | .fin _ _ _ => let x := accTerm v.dy; a.add x.1 x.2
    | _ => .nonfin) a

/-- The observed and expected row sums of Gram mode in accumulator arithmetic (R173). The expected sum starts from the slot's
loaded accumulators, which the plane holds before the additions, and A_ik times a checksum value enters as `accTerm` gives it
(DESIGN CHOICE, log 42). `ck` gives the expected sum as its checksum cell delivers it. -/
def gramRowFails (tol : Nat) (s t : Mat) (ck : Acc → Acc) (old new : List Acc) (i j0 n : Nat) : Bool :=
  let ks := List.range s.cols
  let js := List.range n
  let addV (a : Acc) (v : Val) : Acc :=
    match v with
    | .fin _ _ _ => let x := accTerm v.dy; a.add x.1 x.2
    | _ => .nonfin
  let addA (a b : Acc) : Acc :=
    match b with
    | .cleared => a
    | .nonfin => .nonfin
    | .val p e => a.add p e
  let col (k : Nat) : Acc := js.foldl (fun a j => addV a (t.get k (j0 + j))) .cleared
  let mag (k : Nat) : Acc := js.foldl (fun a j => addV a (t.get k (j0 + j)).abs) .cleared
  let e : Acc := ks.foldl (fun a k => match col k with
    | .nonfin => Acc.nonfin
    | c => addV a ((s.get i k).mul (Val.ofDy c.dy))) (old.foldl addA .cleared)
  let e := ck e
  let u : Acc := ks.foldl (fun a k => match mag k with
    | .nonfin => Acc.nonfin
    | c => addV a ((s.get i k).abs.mul (Val.ofDy c.dy))) .cleared
  let sum := new.foldl addA .cleared
  if e = Acc.nonfin ∨ u = Acc.nonfin ∨ sum = Acc.nonfin then false
  else Dy.lt (u.dy.scale (-(tol : Int))) (e.dy.sub sum.dy).abs

/-! ## The Pannier header -/

/-- The header word of a Pannier slot (R179). -/
def pannierHeader (entry q ltile : Nat) (a64 nonfin : Bool) (v : Abft) (mode rows cols : Nat) : Word :=
  mkFld 63 48 entry ||| mkFld 47 32 q ||| mkFld 27 25 ltile ||| mkFld 24 24 (b2n a64) ||| mkFld 23 23 (b2n nonfin)
    ||| mkFld 22 21 (match v with | .pending => 0 | .pass => 1 | .passRetry => 2 | .fail => 3) ||| mkFld 17 16 mode
    ||| mkFld 15 8 rows ||| mkFld 7 0 cols

/-! ## The Pannier (R176 to R180) -/

/-- A slot: its header word, the logical tile that has reserved or filled it, and its values. -/
structure PSlot where
  head : Word
  tile : Option Nat
  vals : List (List F32)
  deriving DecidableEq, Repr

def PSlot.free : PSlot := ⟨0, none, []⟩

/-- The 32 slots of a cluster. -/
abbrev Pannier := List PSlot

def Pannier.reset : Pannier := List.replicate 32 PSlot.free

/-- Slots that a tile holds, reserved or filled and not yet read. -/
def Pannier.heldBy (p : Pannier) (t : Nat) : Nat := (p.filter (fun x => x.tile = some t)).length

/-- The first free slot reserved with a header word. -/
def Pannier.put1 : Pannier → Nat → Word → Pannier
  | [], _, _ => []
  | x :: xs, t, h => if x.tile = none then ⟨h, some t, []⟩ :: xs else x :: Pannier.put1 xs t h

/-- Slots reserved for an output tile, one for each header word: none while the tile would hold more than four, or too few are
free (R177). -/
def Pannier.reserve (p : Pannier) (t : Nat) (hs : List Word) : Option Pannier :=
  if p.heldBy t + hs.length ≤ 4 ∧ hs.length ≤ (p.filter (fun x => x.tile = none)).length then
    some (hs.foldl (fun p h => p.put1 t h) p)
  else none

/-- A slot of the output tile that a header word names: its ENTRY and OTILE (R179). -/
def PSlot.of (x : PSlot) (h : Word) : Bool := x.tile.isSome && fld x.head 63 32 == fld h 63 32

/-- The slots of an output tile filled: hi in the first, which under A64 reads A64 1, and lo in the second (R176). -/
def Pannier.fill (p : Pannier) (h : Word) (a64 : Bool) (v : Plane) : Pannier :=
  p.map (fun x =>
    if !(x.of h) then x
    else if !a64 || bit x.head 24 then { x with head := h, vals := v.map (fun r => r.map (·.hi)) }
    else { x with head := setFld h 24 24 0, vals := v.map (fun r => r.map (·.lo)) })

/-- The Chainline has read an output tile's last element: its slots are free again (R177). -/
def Pannier.release (p : Pannier) (h : Word) : Pannier := p.map (fun x => if x.of h then PSlot.free else x)

/-- Output tiles pass through the Pannier in release order (R177, R178): each reserves its slots before its first row, is filled
with its verdict, and is read. One that waits for its retry keeps its reserved slots, one that fails its retry stays filled, and each holds
up everything behind it. -/
def Pannier.run (owner : Nat → Nat) (a64 : Bool) (head : OTile → Abft → Word) : List OTile → Pannier → Option Pannier
  | [], p => some p
  | t :: ts, p =>
    let h := head t .pending
    match p.reserve (owner t.q) (h :: (if a64 then [setFld h 24 24 0] else [])) with
    | none => none
    | some p =>
      if t.verdict = .pending then some p else
      let h := head t t.verdict
      let p := p.fill h a64 t.plane
      if t.verdict = .fail then some p else Pannier.run owner a64 head ts (p.release h)

/-! ## The arrays' registers (R155, R158) -/

/-- The live and shadow registers of a tile's cells, by k and n; a register that no block has been loaded into since reset is not
listed, and holds +0 (DESIGN CHOICE, log 2). -/
structure TileArr where
  live : List (List Val)
  shadow : List (List Val)
  deriving DecidableEq, Repr

def TileArr.reset : TileArr := ⟨[], []⟩

/-- The live register of cell `(k, n)`, and its shadow register (R155). -/
def TileArr.liveAt (a : TileArr) (k n : Nat) : Val := (a.live.getD k []).getD n (.fin false 0 0)
def TileArr.shadowAt (a : TileArr) (k n : Nat) : Val := (a.shadow.getD k []).getD n (.fin false 0 0)

/-- The stationary block of an output tile for a k-block, as the cells take it. -/
def stationary (t : Mat) (o : Nat × Nat × Nat × Nat) (kb : Nat) : List (List Val) :=
  (List.range 128).map (fun k => (List.range 128).map (fun n => t.get (128 * kb + k) (o.2.1 + n)))

/-- The registers after an output tile: the last block was loaded into the shadow registers and swapped to the live ones. -/
def TileArr.after (t : Mat) (o : Nat × Nat × Nat × Nat) : TileArr :=
  let b := stationary t o (ceilDiv t.rows 128 - 1)
  ⟨b, b⟩

/-- Array strokes per row of a product (R157). -/
def strokesPerRow : Fmt → Nat
  | .s4 => 1
  | .h16 => 4
  | _ => 2

/-- Array strokes per row of a Gram entry (R157). -/
def gramStrokes : Nat := 16

/-- S_tile of R166. -/
def tileStrokes (k rows s : Nat) : Nat := ceilDiv k 128 * max ((rows + 1) * s) 128 + 256

/-- The operand pairs of R63. -/
def pairOk (a b : Fmt) : Bool :=
  match a, b with
  | .s4, .s4 | .h16, .h16 => true
  | .s8e, .s8e | .s8e, .s8w | .s8w, .s8e | .s8w, .s8w => true
  | _, _ => false

/-- Formats that Gram mode takes (R157). -/
def gramFmtOk : Fmt → Bool
  | .s4 | .s8e | .s8w | .h16 => true
  | _ => false

/-- Held output shape and reduction lengths of R159. -/
def productShape (op : Opcode) (a b : Tensor) : Nat × Nat × Nat × Nat :=
  match op with
  | .mmTa => (a.cols, b.cols, a.rows, b.rows)
  | .mmTb => (a.rows, b.rows, a.cols, b.cols)
  | .gramL => (a.rows, a.rows, a.cols, a.cols)
  | .gramR => (a.cols, a.cols, a.rows, a.rows)
  | _ => (a.rows, b.cols, a.cols, b.rows)

/-! ## TIL words -/

/-- GRAM_TOL 56 and ABFT_TOL 22 (R181). -/
def tilCfgDefault : Word := mkFld 14 8 56 ||| mkFld 4 0 22
def tilCfgMask : Word := mkFld 14 8 0x7F ||| mkFld 4 0 0x1F

/-- The bounds of R181. -/
def tilCfgOk (w : Word) : Bool :=
  48 ≤ fld w 14 8 && fld w 14 8 ≤ 80 && 16 ≤ fld w 4 0 && fld w 4 0 ≤ 30

/-- Tile state of a logical cluster (R181 to R184). -/
structure Til where
  cfg : Word
  shadow : Word
  commitErr : Bool
  spareFree : Bool
  spareLtile : Nat
  abftFail : Nat
  abftPass : Nat
  substWaiting : Option Nat
  /-- the registers of the arrays by logical tile (R155) -/
  arrays : List TileArr
  deriving DecidableEq, Repr

def Til.reset : Til :=
  { cfg := tilCfgDefault, shadow := tilCfgDefault, commitErr := false, spareFree := true, spareLtile := 0, abftFail := 0,
    abftPass := 0, substWaiting := none, arrays := List.replicate 8 TileArr.reset }

/-- TIL_STATUS (R181). -/
def Til.status (t : Til) : Word :=
  mkFld 63 63 (b2n t.commitErr) ||| mkFld 59 59 (b2n t.spareFree) ||| mkFld 58 56 t.spareLtile
    ||| mkFld 55 32 t.abftFail ||| mkFld 31 0 t.abftPass

/-- The arrays after an entry: each tile holds the last block of its last output tile. -/
def Til.load (t : Til) (owner : Nat → Nat) (st : Mat) (ts : List OTile) : Til :=
  { t with arrays := ts.foldl (fun a o => a.set (owner o.q) (TileArr.after st o.pos)) t.arrays }

/-- The retries of an entry counted (R174). -/
def Til.count (t : Til) (ts : List OTile) : Til :=
  { t with abftPass := satAdd 32 t.abftPass (abftPassed ts), abftFail := satAdd 24 t.abftFail (abftFailed ts) }

end Sys2Proof.Machine
end

