-- ==== Sys2Proof/Machine/Chainline.lean ====
section
/-!
DEFINITION. The Chainline: chain descriptors and stages (R191 to R195), element programs (R198 to R200), draws (R202),
accumulators on their fixed trees (R204 to R206), local reductions (R207), flags (R208 to R211) and the CHN words (R212).
-/

namespace Sys2Proof.Machine

/-! ## Programs -/

/-- Operations of R200. -/
inductive POp where
  | mov | add | sub | mul | fma | fnma | min | max | abs | neg | clt | sel | ldc | ldv | lds | idx | rand | racc | cacc
  | rcp | rsq | sqrt | div | exp2 | log2
  deriving DecidableEq, Repr

def POp.ofCode : Nat → Option POp
  | 0x01 => some .mov
  | 0x02 => some .add
  | 0x03 => some .sub
  | 0x04 => some .mul
  | 0x05 => some .fma
  | 0x06 => some .fnma
  | 0x07 => some .min
  | 0x08 => some .max
  | 0x09 => some .abs
  | 0x0A => some .neg
  | 0x0B => some .clt
  | 0x0C => some .sel
  | 0x0D => some .ldc
  | 0x0E => some .ldv
  | 0x0F => some .lds
  | 0x10 => some .idx
  | 0x11 => some .rand
  | 0x12 => some .racc
  | 0x13 => some .cacc
  | 0x14 => some .rcp
  | 0x15 => some .rsq
  | 0x16 => some .sqrt
  | 0x17 => some .div
  | 0x18 => some .exp2
  | 0x19 => some .log2
  | _ => none

/-- An instruction of R199. -/
structure PIns where
  op : POp
  d : Nat
  a : Nat
  b : Nat
  c : Nat
  rtz : Bool
  imm : Nat
  deriving DecidableEq, Repr

/-- Fields that an operation uses: D, A, B, C, whether it rounds, and the bits of IMM (R199, R200). -/
def POp.uses : POp → (Bool × Bool × Bool × Bool) × Bool × Nat
  | .mov | .abs | .neg => ((true, true, false, false), false, 0)
  | .add | .sub | .mul | .div => ((true, true, true, false), true, 0)
  | .fma | .fnma => ((true, true, true, true), true, 0)
  | .min | .max | .clt => ((true, true, true, false), false, 0)
  | .sel => ((true, true, true, true), false, 0)
  | .ldc => ((true, false, false, false), false, 7)
  | .ldv => ((true, false, false, false), false, 7)
  | .lds => ((true, false, false, false), false, 1)
  | .idx => ((true, false, false, false), true, 1)
  | .rand => ((true, false, false, false), false, 15)
  | .racc => ((false, true, false, false), false, 3)
  | .cacc => ((false, true, false, false), false, 1)
  | .rcp | .rsq | .sqrt | .exp2 | .log2 => ((true, true, false, false), true, 0)

/-- Lane strokes of an operation (R200). -/
def POp.cost : POp → Nat
  | .rcp | .rsq | .sqrt => 4
  | .div | .exp2 | .log2 => 6
  | _ => 1

/-- An instruction from its 32 bits; `none` breaks R199 or R200. -/
def PIns.parse (w : Nat) : Option PIns :=
  let f (hi lo : Nat) : Nat := (w >>> lo) % 2 ^ (hi - lo + 1)
  match POp.ofCode (f 31 26) with
  | none => none
  | some op =>
    let u := op.uses
    let ok : Bool := (u.1.1 || f 25 22 == 0) && (u.1.2.1 || f 21 18 == 0) && (u.1.2.2.1 || f 17 14 == 0)
      && (u.1.2.2.2 || f 13 10 == 0) && (if u.2.1 then f 9 8 ≤ 1 else f 9 8 == 0) && f 7 0 ≤ u.2.2
    if ok then some ⟨op, f 25 22, f 21 18, f 17 14, f 13 10, f 9 8 == 1, f 7 0⟩ else none

/-! ## Chain descriptors -/

/-- Stage kinds of R194. -/
inductive StageKind where
  | prog | bias | scale | resid | clamp | drop | mask | tap
  deriving DecidableEq, Repr

def StageKind.ofCode : Nat → Option StageKind
  | 1 => some .prog
  | 2 => some .bias
  | 3 => some .scale
  | 4 => some .resid
  | 5 => some .clamp
  | 6 => some .drop
  | 7 => some .mask
  | 8 => some .tap
  | _ => none

/-- A stage word (R193). -/
structure Stage where
  kind : StageKind
  byRow : Bool
  scalar : Bool
  cslot : Nat
  slot : Nat
  ref : Nat
  arg : Nat
  deriving DecidableEq, Repr

/-- A stage from its word, unused fields checked (R195); `none` is REFUSE.CHAIN_CONFIG. -/
def Stage.parse (w : Word) : Option Stage :=
  match StageKind.ofCode (fld w 63 60) with
  | none => none
  | some kind =>
    let s : Stage := ⟨kind, bit w 59, bit w 58, fld w 57 55, fld w 51 48, fld w 47 32, fld w 31 0⟩
    let vec : Bool := kind == .bias || kind == .scale
    let usesC : Bool := (vec && s.scalar) || kind == .clamp || kind == .drop || kind == .mask
    let usesRef : Bool := kind == .prog || kind == .resid || kind == .tap || (vec && !s.scalar)
    let ok : Bool := fld w 54 52 == 0 && (vec || (!s.byRow && !s.scalar)) && !(vec && s.scalar && s.byRow)
      && (usesC || s.cslot == 0) && (kind == .drop || s.slot == 0)
      && (usesRef || s.ref == (if vec then noIdx else 0))
      && (kind == .drop || kind == .mask || kind == .prog || s.arg == 0)
      && !((kind == .clamp || kind == .drop) && s.cslot == 7)
      && !(kind == .prog && (s.arg == 0 || s.arg > 64))
    if ok then some s else none

/-- A chain descriptor (R192). -/
structure Chain where
  flags : Bool
  nfStep : Bool
  dtidEn : Bool
  drawTid : Nat
  stages : List Stage
  consts : List F32
  rowout : List Nat
  colout : List Nat
  vec : List Nat
  side : List Nat
  inst : Nat
  deriving DecidableEq, Repr

/-- The four 16-bit indices of a word, from [63:48] down. -/
def quads (w : Word) : List Nat := [fld w 63 48, fld w 47 32, fld w 31 16, fld w 15 0]

/-- A chain descriptor from its 32 words, with the checks of R192, R193 and R195 that it alone decides. -/
def Chain.parse (w : List Word) : Chk Chain :=
  let w0 := wordAt w 0
  let n := fld w0 59 56
  if n = 0 then .bad refuseZero
  else
    let sw := (List.range n).map (fun i => wordAt w (1 + i))
    let stages := sw.filterMap Stage.parse
    let c : Chain :=
      { flags := bit w0 55, nfStep := bit w0 54, dtidEn := bit w0 53, drawTid := fld w0 31 0, stages,
        consts := (List.range 4).flatMap (fun j =>
          [BitVec.ofNat 32 (fld (wordAt w (13 + j)) 31 0), BitVec.ofNat 32 (fld (wordAt w (13 + j)) 63 32)])
        rowout := quads (wordAt w 17), colout := (quads (wordAt w 18)).take 2, vec := quads (wordAt w 19),
        side := (quads (wordAt w 20)).take 2, inst := fld (wordAt w 21) 31 0 }
    let ok : Bool := n ≤ 12 && stages.length == n && fld w0 63 60 == 0 && fld w0 52 32 == 0
      && ((List.range (12 - n)).all (fun i => wordAt w (1 + n + i) == 0))
      && fld (wordAt w 18) 31 0 == 0 && fld (wordAt w 20) 31 0 == 0 && fld (wordAt w 21) 63 32 == 0
      && ((List.range 10).all (fun i => wordAt w (22 + i) == 0))
      && (stages.filter (fun s => s.kind == .prog)).length ≤ 2
      && !(match stages.getLast? with | some s => s.kind == .tap | none => true)
      && (!c.nfStep || c.flags)
    if ok then .ok c else .bad 0x0140

/-- A program's instructions, from its table entry and the stage's LEN (R199); `none` is REFUSE.CHAIN_CONFIG. -/
def parseProg (w : List Word) (len : Nat) : Option (List PIns) :=
  let codes := (List.range 64).map (fun j => fld (wordAt w (j / 2)) (if j % 2 = 0 then 31 else 63) (if j % 2 = 0 then 0 else 32))
  let ins := (codes.take len).filterMap PIns.parse
  if ins.length = len ∧ len ≤ 64 ∧ (codes.drop len).all (· == 0) then some ins else none

/-! ## Running a chain on one element -/

/-- What an element's chain reads besides `v`: the element's place and the tensors that the chain names, as F32. -/
structure ChainEnv where
  lrow : Nat
  lcol : Nat
  consts : List F32
  vecs : List (F32 × F32)
  sides : List F32
  opb : Option F32
  uni : Nat → Nat → F32
  tid : Nat

/-- Flags of R208 with NF. -/
structure Flags where
  inv : Bool := false
  dz : Bool := false
  ovf : Bool := false
  nf : Bool := false
  deriving DecidableEq, Repr

def Flags.or (a b : Flags) : Flags := ⟨a.inv || b.inv, a.dz || b.dz, a.ovf || b.ovf, a.nf || b.nf⟩
def Flags.ofFl (f : Fl) : Flags := ⟨f.inv, f.dz, f.ovf, false⟩
def Flags.ofNf (x : F32) : Flags := { nf := !(Fp.isFin x) }
def Flags.any (a : Flags) : Bool := a.inv || a.dz || a.ovf || a.nf

/-- An element in flight: registers, flags, contributions to accumulators and values tapped. -/
structure Elem where
  v : F32
  x : List F32 := []
  fl : Flags := {}
  racc : List (Nat × F32) := []
  cacc : List (Nat × F32) := []
  taps : List F32 := []
  deriving DecidableEq, Repr

/-- One instruction of a program (R200). -/
def stepIns (env : ChainEnv) (e : Elem) (i : PIns) : Elem :=
  let r (k : Nat) : F32 := e.x.getD k 0
  let rm : Rnd := if i.rtz then .rtz else .rne
  let setR (v : F32) : Elem := { e with x := e.x.set i.d v }
  let setF (f : FR) : Elem := { e with x := e.x.set i.d f.v, fl := e.fl.or (Flags.ofFl f.fl) }
  match i.op with
  | .mov => setR (r i.a)
  | .add => setF (Fp.addM rm (r i.a) (r i.b))
  | .sub => setF (Fp.subM rm (r i.a) (r i.b))
  | .mul => setF (Fp.mulM rm (r i.a) (r i.b))
  | .fma => setF (Fp.fmaM rm false (r i.a) (r i.b) (r i.c))
  | .fnma => setF (Fp.fmaM rm true (r i.a) (r i.b) (r i.c))
  | .min => setR (Fp.min (r i.a) (r i.b))
  | .max => setR (Fp.max (r i.a) (r i.b))
  | .abs => setR (Fp.abs (r i.a))
  | .neg => setR (Fp.neg (r i.a))
  | .clt => setF (Fp.cltM (r i.a) (r i.b))
  | .sel => setR (if Fp.isZero (r i.a) then r i.c else r i.b)
  | .ldc => setR (env.consts.getD i.imm 0)
  | .ldv => let p := env.vecs.getD (i.imm % 4) (0, 0); setR (if i.imm ≥ 4 then p.2 else p.1)
  | .lds => setR (env.sides.getD i.imm 0)
  | .idx => setR (Fp.ofDy rm ⟨if i.imm = 0 then env.lrow else env.lcol, 0⟩)
  | .rand => setR (env.uni env.tid i.imm)
  | .racc => { e with racc := e.racc ++ [(i.imm, r i.a)], fl := e.fl.or (Flags.ofNf (r i.a)) }
  | .cacc => { e with cacc := e.cacc ++ [(i.imm, r i.a)], fl := e.fl.or (Flags.ofNf (r i.a)) }
  | .rcp => setF (Fp.rcpM rm (r i.a))
  | .rsq => setF (Fp.rsqM rm (r i.a))
  | .sqrt => setF (Fp.sqrtM rm (r i.a))
  | .div => setF (Fp.divM rm (r i.a) (r i.b))
  | .exp2 => setF (Fp.exp2M rm (r i.a))
  | .log2 => setF (Fp.log2M rm (r i.a))

/-- A PROG stage (R198). -/
def runProg (env : ChainEnv) (e : Elem) (p : List PIns) : Elem :=
  let e' := p.foldl (stepIns env) { e with x := e.v :: env.opb.getD 0 :: List.replicate 14 0 }
  { e' with v := e'.x.getD 0 0, x := [] }

/-- The vector element or constant of BIAS and SCALE, the side element of RESID, and the program of PROG, resolved for
the element. -/
structure StageIn where
  stage : Stage
  val : F32
  prog : List PIns

/-- One stage (R194, R202). -/
def runStage (env : ChainEnv) (e : Elem) (s : StageIn) : Elem :=
  let c (k : Nat) : F32 := env.consts.getD k 0
  match s.stage.kind with
  | .prog => runProg env e s.prog
  | .bias => let f := Fp.addM .rne e.v s.val; { e with v := f.v, fl := e.fl.or (Flags.ofFl f.fl) }
  | .scale => let f := Fp.mulM .rne e.v s.val; { e with v := f.v, fl := e.fl.or (Flags.ofFl f.fl) }
  | .resid => let f := Fp.addM .rne e.v s.val; { e with v := f.v, fl := e.fl.or (Flags.ofFl f.fl) }
  | .clamp => { e with v := Fp.min (Fp.max e.v (c s.stage.cslot)) (c (s.stage.cslot + 1)) }
  | .drop =>
    if Fp.le (c s.stage.cslot) (env.uni s.stage.arg s.stage.slot) then { e with v := Fp.mul e.v (c (s.stage.cslot + 1)) }
    else { e with v := 0 }
  | .mask =>
    if (env.lcol : Int) - env.lrow > signExt 32 s.stage.arg then { e with v := c s.stage.cslot } else e
  | .tap => { e with taps := e.taps ++ [e.v], fl := e.fl.or (Flags.ofNf e.v) }

/-- The chain on one element, the sink's NF included (R208). -/
def runChain (env : ChainEnv) (stages : List StageIn) (v : F32) : Elem :=
  let e := stages.foldl (runStage env) { v }
  { e with fl := e.fl.or (Flags.ofNf e.v) }

/-! ## Accumulators -/

/-- Adding to a pair that may be absent (R204). -/
def addOpt (p : Option A64) (x : F32) : Option A64 :=
  match p with
  | none => some ⟨x, 0⟩
  | some q => some (q.add x)

/-- The fixed tree over one line of a block, padding absent (R205). -/
def lineTree {α : Type} (f : α → α → α) (l : List (Option α)) : Option α :=
  (treeFold (fun a b => match a, b with | none, y => y | x, none => x | some x, some y => some (f x y)) 7 l).getD none

/-- A whole line: blocks of 128 in ascending order, each the right operand (R205). -/
def lineSum {α : Type} (f : α → α → α) (l : List (Option α)) : Option α :=
  (chunks 128 l).foldl (fun acc b => match acc, lineTree f b with
    | none, y => y
    | x, none => x
    | some x, some y => some (f x y)) none

/-- The pair that one element contributes to accumulator `k`. -/
def contrib (l : List (Nat × F32)) (k : Nat) : Option A64 :=
  l.foldl (fun p x => if x.1 = k then addOpt p x.2 else p) none

/-- Written value of an accumulator: hi, or +0 without a contribution (R206). -/
def accOut (p : Option A64) : F32 := match p with | some q => q.hi | none => 0

/-! ## Reading as F32 -/

/-- A value converted to F32 as it is read (R201): exactly, or with RNE. -/
def toF32 (v : Val) : F32 := BitVec.ofNat 32 (convElem .f32 .rne v).code

/-! ## REDUCE -/

/-- Reduction operations that act on values (R207, R412). -/
inductive RedOp where
  | sum | sumsq | max | min
  deriving DecidableEq, Repr

/-- An F32 accumulation that carries exact squares until a combine rounds them (R207). -/
def combF32 (a b : Val) : Val := Fp.val (Fp.round .rne (a.add b)).v

/-- Reductions of a list of lines: each line, then the line results as one line when both axes reduce (R207). The result is one
value per line, or one value. With A64 the line results stay pairs until the last one is formed (DESIGN CHOICE, log 24). -/
def reduceLines {α : Type} (f : α → α → α) (both : Bool) (ls : List (List (Option α))) : List (Option α) :=
  let rs := ls.map (lineSum f)
  if both then [lineSum f rs] else rs

/-- The leaf of an A64 sum: `(x, +0)`, or an exact square by R564. -/
def a64Leaf (sq : Bool) (v : Val) : A64 :=
  if sq then
    let p := v.mul v
    let x1 := (Fp.round .rne p).v
    if Fp.isFin x1 then (⟨x1, 0⟩ : A64).add (Fp.round .rne (p.add (Fp.val x1).neg)).v else ⟨x1, 0⟩
  else ⟨toF32 v, 0⟩

/-- F32 result values of a local reduction (R207). -/
def reduceF32 (op : RedOp) (a64 both : Bool) (ls : List (List (Option Val))) : List F32 :=
  match op with
  | .sum =>
    if a64 then (reduceLines A64.combine both (ls.map (fun l => l.map (fun o => o.map (a64Leaf false))))).map accOut
    else (reduceLines combF32 both ls).map (fun o => match o with | some v => (Fp.round .rne v).v | none => 0)
  | .sumsq =>
    if a64 then (reduceLines A64.combine both (ls.map (fun l => l.map (fun o => o.map (a64Leaf true))))).map accOut
    else (reduceLines combF32 both (ls.map (fun l => l.map (fun o => o.map (fun v => v.mul v))))).map
      (fun o => match o with | some v => (Fp.round .rne v).v | none => 0)
  | .max => (reduceLines Fp.max both (ls.map (fun l => l.map (fun o => o.map toF32)))).map (fun o => o.getD 0)
  | .min => (reduceLines Fp.min both (ls.map (fun l => l.map (fun o => o.map toF32)))).map (fun o => o.getD 0)

/-- Exact sums of BX48 lines (R207). -/
def reduceBx (both : Bool) (ls : List (List (Option Val))) : List Val :=
  (reduceLines Val.add both ls).map (fun o => o.getD (.fin false 0 0))

/-! ## CHN words -/

/-- Chainline state of a logical cluster (R209 to R212). -/
structure Chn where
  cfg : Word
  shadow : Word
  commitErr : Bool
  stepNf : Bool
  sticky : Flags
  flagEntry : Nat
  deriving DecidableEq, Repr

def Chn.reset : Chn := { cfg := 0, shadow := 0, commitErr := false, stepNf := false, sticky := {}, flagEntry := 0 }

/-- CHN_STATUS with the entries in progress on the Chainline (R212). -/
def Chn.status (c : Chn) (active : Nat) : Word :=
  mkFld 63 63 (b2n c.commitErr) ||| mkFld 62 62 (b2n c.stepNf) ||| mkFld 59 59 (b2n c.sticky.inv)
    ||| mkFld 58 58 (b2n c.sticky.dz) ||| mkFld 57 57 (b2n c.sticky.ovf) ||| mkFld 56 56 (b2n c.sticky.nf)
    ||| mkFld 47 32 c.flagEntry ||| mkFld 2 0 active

/-- An entry's flag set at its completion (R209). -/
def Chn.addFlags (c : Chn) (chain : Chain) (fl : Flags) (entry : Nat) : Chn :=
  if !chain.flags then c
  else
    { c with
      sticky := c.sticky.or fl
      flagEntry := if fl.any then entry % 2 ^ 16 else c.flagEntry
      stepNf := c.stepNf || (chain.nfStep && fl.nf) }

/-- Strokes per beat of a chain (R189). -/
def chainCost (progs : List (List PIns)) : Nat :=
  if progs.isEmpty then 1 else sumNat (progs.map (fun p => sumNat (p.map (fun i => i.op.cost))))

end Sys2Proof.Machine
end

