-- ==== Sys2Proof/Machine/Topiary.lean ====
section
/-!
DEFINITION. Topiary: slot and operation descriptors (R221, R224, R251), slot regions and stored accumulators (R222, R223),
matrix operations (R217, R218), FOLD and EXPORT (R227 to R229), the refresh of a block (R233 to R241), FACTOR and SOLVE
(R248, R249), and the slot state record (R252).
-/

namespace Sys2Proof.Machine

/-! ## Descriptors -/

/-- A statistic-slot descriptor (R221). -/
structure Slot where
  owner : Nat
  side : Nat
  rootLog : Nat
  avg : Nat
  betaShift : Nat
  repl : Bool
  init : Bool
  applyFmt : Nat
  block : Nat
  dim : Nat
  ldim : Nat
  statEvery : Nat
  refreshEvery : Nat
  refreshPhase : Nat
  maxNewton : Nat
  warmIter : Nat
  epsRel : F32
  epsAbs : F32
  tau : F32
  convTol : Nat
  resTol : Nat
  npos : Nat
  stat : Nat
  plane : Nat
  roots : List Nat
  applies : List Nat
  state : Nat
  deriving DecidableEq, Repr

def refuseTopiary : Nat := 0x0150

def Slot.isFactor (s : Slot) : Bool := s.side == 2
def Slot.nblk (s : Slot) : Nat := s.dim / max 1 s.block
/-- Bytes of STAT or of one root buffer (R222). -/
def Slot.rootBytes (s : Slot) : Nat := s.nblk * s.block * s.block * 49 / 8
def Slot.tilesEdge (s : Slot) : Nat := s.block / 128
/-- Output tiles of one block's plane (R222). -/
def Slot.tilesBlk (s : Slot) : Nat := s.tilesEdge * (s.tilesEdge + 1) / 2
def Slot.planeBytes (s : Slot) : Nat := s.nblk * s.tilesBlk * 0x40000
def Slot.applyBytes (s : Slot) : Nat := s.nblk * s.block * s.block * (if s.applyFmt = 4 then 2 else 4)
def Slot.stateBytes (s : Slot) : Nat := 64 + 16 * s.nblk

/-- The regions of R222, with their bytes. -/
def Slot.regions (s : Slot) : List (Nat × Nat) :=
  (if s.isFactor then [] else
    [(s.stat, s.rootBytes), (s.plane, s.planeBytes)] ++ s.applies.map (fun a => (a, s.applyBytes)))
  ++ s.roots.map (fun a => (a, s.rootBytes)) ++ [(s.state, s.stateBytes)]

def f32Pos (x : F32) : Bool := Fp.isFin x && !(Fp.sign x) && !(Fp.isZero x)
def f32NonNeg (x : F32) : Bool := Fp.isFin x && (!(Fp.sign x) || Fp.isZero x)

/-- An F32 above 0, +∞ among them. -/
def f32Above0 (x : F32) : Bool := !(Fp.isNan x) && !(Fp.sign x) && !(Fp.isZero x)

/-- A slot descriptor from its 16 words, with the bounds of R221, R222 and R225. That BLOCK is a multiple of 128 is
judged with the entries that name the slot (`Job.slotsOk`, `Job.operandsOk`). A reserved code in APPLY_FMT takes
REFUSE.RESERVED_ENCODING of R45 before the plan's own code (log 45). -/
def Slot.parse (w : List Word) : Chk Slot :=
  let w0 := wordAt w 0
  let b (i : Nat) : Nat := fld (wordAt w i) 51 0
  let s : Slot :=
    { owner := fld w0 63 57, side := fld w0 56 55, rootLog := fld w0 54 53, avg := fld w0 52 51, betaShift := fld w0 50 46,
      repl := bit w0 45, init := bit w0 44, applyFmt := fld w0 43 40, block := fld w0 31 16,
      dim := fld (wordAt w 1) 63 32, ldim := fld (wordAt w 1) 31 0, statEvery := fld (wordAt w 2) 63 48,
      refreshEvery := fld (wordAt w 2) 47 32, refreshPhase := fld (wordAt w 2) 31 16, maxNewton := fld (wordAt w 2) 15 10,
      warmIter := fld (wordAt w 2) 9 6, epsRel := BitVec.ofNat 32 (fld (wordAt w 3) 63 32),
      epsAbs := BitVec.ofNat 32 (fld (wordAt w 3) 31 0), tau := BitVec.ofNat 32 (fld (wordAt w 4) 63 32),
      convTol := fld (wordAt w 4) 31 0, resTol := fld (wordAt w 5) 63 32, npos := fld (wordAt w 5) 31 16,
      stat := b 6, plane := b 7, roots := [b 8, b 9], applies := [b 10, b 11], state := b 12 }
  let fac := s.isFactor
  let reserved : Bool := fld w0 39 32 == 0 && fld w0 15 0 == 0 && fld (wordAt w 2) 5 0 == 0 && fld (wordAt w 5) 15 0 == 0
    && ((List.range 7).all (fun i => fld (wordAt w (6 + i)) 63 52 == 0)) && wordAt w 13 == 0 && wordAt w 14 == 0
    && wordAt w 15 == 0
  let common : Bool := reserved && s.side ≤ 2 && 128 ≤ s.block && s.block ≤ 2048
    && s.dim % s.block == 0 && 1 ≤ s.nblk && s.nblk ≤ 65536 && 1 ≤ s.ldim && s.ldim ≤ s.dim
    && f32NonNeg s.epsRel && f32NonNeg s.epsAbs && f32Pos s.tau && Fp.lt s.tau Fp.one
    && (s.regions.all (fun r => r.1 % 4096 == 0))
  if !fac && (s.dim == 0 || s.ldim == 0 || s.block == 0 || s.statEvery == 0 || s.refreshEvery == 0 || s.maxNewton == 0)
    then .bad refuseZero
  else if !fac && (Fmt.ofCode s.applyFmt).isNone then .bad refuseReserved
  else if fac then
    (if common && s.avg == 0 && s.betaShift == 0 && !s.repl && !s.init && s.applyFmt == 0 && s.statEvery == 0
        && s.refreshEvery == 0 && s.refreshPhase == 0 && s.maxNewton == 0 && s.warmIter == 0 && s.convTol == 0
        && s.resTol == 0 && s.ldim == s.dim && s.npos ≤ s.block && s.stat == 0 && s.plane == 0
        && s.applies == [0, 0] then .ok s else .bad refuseTopiary)
  else if common && s.avg ≤ 2 && (if s.avg = 0 then 1 ≤ s.betaShift && s.betaShift ≤ 16 else s.betaShift == 0)
      && (s.applyFmt == 4 || s.applyFmt == 5) && s.refreshPhase < s.refreshEvery && s.npos == 0
      && f32Above0 (BitVec.ofNat 32 s.convTol) && f32Above0 (BitVec.ofNat 32 s.resTol) then .ok s
  else .bad refuseTopiary

/-- Topiary operations (R251). -/
inductive TopOp where
  | fold | export_ | refresh | factor | solve
  deriving DecidableEq, Repr

/-- A Topiary operation descriptor (R251). -/
structure TopDesc where
  op : TopOp
  slot : Nat
  tenA : Nat
  tenB : Nat
  deriving DecidableEq, Repr

def TopDesc.parse (w : List Word) : Chk TopDesc :=
  let w0 := wordAt w 0
  let mk (op : TopOp) : Chk TopDesc :=
    let t : TopDesc := ⟨op, fld w0 47 32, fld w0 31 16, fld w0 15 0⟩
    let needB : Bool := op == .factor || op == .solve
    if fld w0 59 48 == 0 && wordAt w 1 == 0 && wordAt w 2 == 0 && wordAt w 3 == 0
        && (op != .refresh || t.tenA == noIdx) && (needB || t.tenB == noIdx)
        && (!(op == .export_ || op == .factor || op == .solve) || t.tenA != noIdx)
        && (op != .solve || t.tenB != noIdx)
    then .ok t else .bad refuseTopiary
  match fld w0 63 60 with
  | 1 => mk .fold
  | 2 => mk .export_
  | 3 => mk .refresh
  | 4 => mk .factor
  | 5 => mk .solve
  | _ => .bad refuseTopiary

/-! ## Matrices of BX48 -/

/-- One row of BX48 segments. -/
abbrev BRow := List Seg
/-- A BX48 matrix, row by row. -/
abbrev BMat := List BRow

/-- A segment by R58 with any exponent; R59 is judged by `Area.write`. -/
def segOf (xs : List Dy) : Seg :=
  let big := xs.foldl (fun (acc : Dy) x => Dy.max acc x.abs) Dy.zero
  if big.m = 0 then .seg 0 (xs.map (fun _ => 0))
  else
    let e0 := big.expo
    let q0 := xs.map (bxRound .rne e0)
    if q0.any (fun q => q.natAbs ≥ 2 ^ 47) then .seg (e0 + 1) (xs.map (bxRound .rne (e0 + 1))) else .seg e0 q0

def bRow (xs : List Dy) : BRow := (chunks 64 xs).map segOf

/-- A matrix from the exact values of its elements, each row segment rounded once (R217). -/
def bMat (n : Nat) (f : Nat → Nat → Dy) : BMat := (List.range n).map (fun i => bRow ((List.range n).map (f i)))

/-- Element `(i, j)`: significand and segment exponent; `none` in a non-finite segment. -/
def BMat.el (a : BMat) (i j : Nat) : Option Wide :=
  match (a.getD i []).getD (j / 64) (.seg 0 []) with
  | .nonfin => none
  | .seg e s => some ⟨s.getD (j % 64) 0, e⟩

def BMat.dy (a : BMat) (i j : Nat) : Dy := match a.el i j with | some w => w.dy | none => Dy.zero

/-- Element of a symmetric operand, its lower triangle taken from the upper (R218). -/
def BMat.symDy (a : BMat) (i j : Nat) : Dy := if j < i then a.dy j i else a.dy i j

/-- Every segment is finite. -/
def BMat.finite (a : BMat) : Bool := a.all (fun r => r.all (fun s => match s with | .nonfin => false | _ => true))

/-- Exponents of the segments that hold a non-zero element. -/
def BMat.exps (a : BMat) : List Int :=
  a.flatMap (fun r => r.filterMap (fun s => match s with
    | .seg e xs => if xs.all (· == 0) then none else some e
    | .nonfin => none))

/-- All exponents fit R57 as they are. -/
def BMat.inRange (a : BMat) : Bool := a.exps.all (fun e => -32767 ≤ e && e ≤ 32767)

/-- The smallest multiple of 4,096 that brings an exponent into the range of R57 (R239). -/
def shiftFor (e : Int) : Int :=
  if e > 32767 then -((e - 32767 + 4095) / 4096 * 4096)
  else if e < -32767 then (-32767 - e + 4095) / 4096 * 4096
  else 0

/-- One segment's exponent written under the shift `r`, `held` being the other exponents of the work area: the shift
afterwards, or `none` where the shift takes another segment out of range (R239). -/
def shiftOne (r : Int) (held : List Int) (e : Int) : Option Int :=
  let d := shiftFor (e + r)
  if held.all (fun x => shiftFor (x + r + d) = 0) then some (r + d) else none

/-- A matrix written to the work area beside the matrices `held`, segment by segment: the block's common shift afterwards
(R239). Matrices keep their unshifted exponents here; the area holds each at `e + r`. The area's bytes in memory stay as they were: no
rule says what they hold after a refresh (DESIGN CHOICE, log 68). -/
def Area.write (r : Int) (held : List BMat) (a : BMat) : Option Int :=
  let base := held.flatMap BMat.exps
  (a.exps.foldl (fun (acc : Option Int × List Int) e =>
    (acc.1.bind (fun r => shiftOne r acc.2 e), e :: acc.2)) (some r, base)).1

/-- One term of an accumulator: the product of two elements (R60). -/
def accMul (a : Acc) (x y : Wide) : Acc := a.add (x.s * y.s) (x.e + y.e)

/-- One element value added to an accumulator. -/
def accAddDy (a : Acc) (x : Dy) : Acc := let t := accTerm x; a.add t.1 t.2

/-- A Topiary matrix product of full matrices (R217). -/
def BMat.mul (n : Nat) (a b : BMat) : BMat :=
  bMat n (fun i j => ((List.range n).foldl (fun acc k =>
    match a.el i k, b.el k j with
    | some x, some y => accMul acc x y
    | _, _ => acc) Acc.cleared).dy)

/-- `power(T, 2^n)`: n squarings, each written to the work area beside `held`; with the shift afterwards. -/
def BMat.powLog (n : Nat) (held : List BMat) : Nat → Int → BMat → Option (Int × BMat)
  | 0, r, a => some (r, a)
  | k + 1, r, a =>
    let b := BMat.mul n a a
    (Area.write r (a :: held) b).bind (fun r => BMat.powLog n held k r b)

def bIdent (n : Nat) (e : Int) : BMat := bMat n (fun i j => if i = j then ⟨1, e⟩ else Dy.zero)

/-- `max_row_abs_sum`: each row's magnitudes in an accumulator, the largest sum rounded upwards to F32. -/
def maxRowAbsSum (n : Nat) (f : Nat → Nat → Dy) : Nat :=
  maxNat ((List.range n).map (fun i =>
    let s := ((List.range n).foldl (fun acc j => accAddDy acc (f i j).abs) Acc.cleared).dy
    f32Up s.m.natAbs s.e))

def minusI (a : BMat) (i j : Nat) : Dy := if i = j then (a.dy i j).sub ⟨1, 0⟩ else a.dy i j

/-- `((p + 1) I − M) / p` for `p = 2^n` (R235). -/
def newtonT (n lg : Nat) (m : BMat) : BMat :=
  bMat n (fun i j =>
    ((if i = j then (⟨2 ^ lg + 1, 0⟩ : Dy).sub (m.dy i j) else (m.dy i j).neg)).scale (-(lg : Int)))

/-- What an attempt at a root takes: iterations, whether it ended warm, warm updates before it was handed over to cold, and operations
of the pipelines (R252, R254, R526). -/
structure TryCost where
  iter : Nat
  warm : Bool := false
  handed : Option Nat := none
  ops : Nat := 0
  deriving DecidableEq, Repr

/-- What one attempt at a root gives: the root with the block's shift, a failed attempt, or a block that cannot be rescaled (R239). -/
inductive Try where
  | ok (x : BMat) (r : Int) (cost : TryCost)
  | fail (cost : TryCost)
  | lost
  deriving DecidableEq, Repr

/-- The cold attempt that a warm start of `w` updates was handed over to (R236). -/
def Try.after (w : Nat) : Try → Try
  | .ok x r c => .ok x r { c with handed := some w }
  | .fail c => .fail { c with handed := some w }
  | .lost => .lost

/-- One iteration of R235: T, then X and M, each written to the work area, with the shift afterwards. -/
def coldStep (n lg : Nat) (ad x m : BMat) (r : Int) : Option (Int × BMat × BMat) := do
  let t := newtonT n lg m
  let r ← Area.write r [ad, x, m] t
  let x' := BMat.mul n x t
  let r ← Area.write r [ad, x, m, t] x'
  let (r, z) ← BMat.powLog n [ad, x', m] lg r t
  let m' := BMat.mul n z m
  let r ← Area.write r [ad, x', m, z] m'
  return (r, x', m')

/-- The cold loop of R235 from iteration `k`. -/
def coldLoop (n lg tol : Nat) (ad : BMat) : Nat → Nat → BMat → BMat → Nat → Int → Try
  | 0, k, _, _, _, _ => .fail { iter := k - 1 }
  | fuel + 1, k, x, m, dPrev, r =>
    match coldStep n lg ad x m r with
    | none => .lost
    | some (r, x', m') =>
      let d := maxRowAbsSum n (minusI m')
      if d ≤ tol then .ok x' r { iter := k }
      else if k ≥ 4 ∧ d ≥ dPrev then .fail { iter := k }
      else coldLoop n lg tol ad fuel (k + 1) x' m' d r

/-- Smallest integer `e` with `2^e ≥ g`. -/
def ceilLog2 (g : Dy) : Int := if Dy.le g ⟨1, g.expo - 1⟩ then g.expo - 1 else g.expo

/-- Smallest multiple of `p` at or above `e`. -/
def ceilMul (e : Int) (p : Nat) : Int := -((-e) / p) * p

/-- root_cold of R235, under the shift that the work area has. A row sum above the largest finite F32 gives no g and no e, and fails the
attempt (DESIGN CHOICE, log 68). -/
def rootCold (n lg tol maxNewton : Nat) (ad : BMat) (r : Int) : Try :=
  let top := maxRowAbsSum n ad.dy
  if 0x7F800000 ≤ top then .fail { iter := 0 } else
  let g := (Fmt.decode .f32 top).dy
  let e := ceilMul (ceilLog2 g) (2 ^ lg)
  let x := bIdent n (-(e / (2 ^ lg : Int)))
  let m := bMat n (fun i j => (ad.dy i j).scale (-e))
  match (Area.write r [ad] x).bind (fun r => Area.write r [ad, x] m) with
  | none => .lost
  | some r => coldLoop n lg tol ad maxNewton 1 x m 0 r

/-- A warm update: X times `((p + 1) I − Z) / p`, with the shift afterwards. -/
def warmStep (n lg : Nat) (ad x z : BMat) (r : Int) : Option (Int × BMat) := do
  let t := newtonT n lg z
  let r ← Area.write r [ad, x, z] t
  let x' := BMat.mul n x t
  let r ← Area.write r [ad, x, z, t] x'
  return (r, x')

/-- `Z = power(X, p) @ Ad`, with the shift afterwards. -/
def warmZ (n lg : Nat) (ad x : BMat) (r : Int) : Option (Int × BMat) := do
  let (r, y) ← BMat.powLog n [ad, x] lg r x
  let z := BMat.mul n y ad
  let r ← Area.write r [ad, x, y] z
  return (r, z)

/-- The warm loop of R236 from update `w`; it hands over to `cold` when it does not converge. -/
def warmLoop (n lg tol warmIter : Nat) (ad : BMat) (cold : Int → Try) : Nat → Nat → BMat → Nat → Int → Try
  | 0, _, _, _, r => cold r
  | fuel + 1, w, x, dPrev, r =>
    match warmZ n lg ad x r with
    | none => .lost
    | some (r, z) =>
      let d := maxRowAbsSum n (minusI z)
      if d ≤ tol then .ok x r { iter := w, warm := true }
      else if w = warmIter ∨ d > 0x3F000000 ∨ (w > 0 ∧ d ≥ dPrev) then (cold r).after w
      else match warmStep n lg ad x z r with
        | none => .lost
        | some (r, x') => warmLoop n lg tol warmIter ad cold fuel (w + 1) x' d r

/-- A symmetric operand in full: element `(i, j)` with `j < i` from `(j, i)` (R218). -/
def BMat.mirror (n : Nat) (a : BMat) : BMat := bMat n a.symDy

/-- Warm where the slot allows it, from the installed root, then cold (R236). -/
def rootNewton (n lg tol maxNewton warmIter : Nat) (ad installed : BMat) (r : Int) : Try :=
  let cold := rootCold n lg tol maxNewton ad
  if warmIter = 0 then cold r
  else
    let x := BMat.mirror n installed
    match Area.write r [ad] x with
    | none => .lost
    | some r => warmLoop n lg tol warmIter ad cold (warmIter + 1) 0 x 0 r

/-! ## Cholesky -/

/-- A wide-form matrix, column by column while it is built. -/
abbrev WCols := List (List Wide)

/-- Column `j` of the factor so far, element `i`. -/
def wAt (l : WCols) (i j : Nat) : Wide := (l.getD j []).getD i ⟨0, 0⟩

/-- The updated value `(i, j)`: the element less the products of the columns before, in one accumulator (R237, log 22). -/
def cholUpd (a : Nat → Nat → Dy) (u l : WCols) (i j : Nat) : Dy :=
  ((List.range j).foldl (fun acc k => let x := wAt u i k; acc.add (-(x.s * (wAt l j k).s)) (x.e + (wAt l j k).e))
    (accAddDy Acc.cleared (a i j))).dy

/-- `L Lᵀ` by columns (R237), and whether it ends: a pivot at or below `lim`, or a pipeline exception, fails. Columns stay in wide form
while the factorisation runs (DESIGN CHOICE, log 68). -/
def cholLoop (n : Nat) (a : Nat → Nat → Dy) (lim : Dy) : Nat → WCols → WCols × Bool
  | 0, l => (l, true)
  | fuel + 1, l =>
    let j := l.length
    let d := cholUpd a l l j j
    if Dy.le d lim then (l, false)
    else match pipeRsq (Wide.ofDy d).dy with
      | none => (l, false)
      | some r =>
        let col := (List.range n).map (fun i =>
          if i < j then ⟨0, 0⟩ else Wide.ofDy ((Wide.ofDy (cholUpd a l l i j)).dy.mul r))
        cholLoop n a lim fuel (l ++ [col])

/-- Column `c` of `L⁻¹` by forward substitution. -/
def invCol (l : WCols) (c : Nat) : Nat → List Wide → Option (List Wide)
  | 0, xs => some xs
  | fuel + 1, xs =>
    let i := xs.length
    if i < c then invCol l c fuel (xs ++ [⟨0, 0⟩])
    else
      let num := ((List.range i).foldl (fun acc k => let x := wAt l i k; let y := xs.getD k ⟨0, 0⟩; acc.add (-(x.s * y.s)) (x.e + y.e))
        (if i = c then accAddDy Acc.cleared ⟨1, 0⟩ else Acc.cleared)).dy
      match pipeDiv (Wide.ofDy num).dy (wAt l i i).dy with
      | none => none
      | some v => invCol l c fuel (xs ++ [Wide.ofDy v])

/-- The inverse by Cholesky (R237): X = L⁻ᵀ L⁻¹ in its upper triangle. -/
def rootChol (n : Nat) (ad : BMat) (lim : Dy) (r : Int) : Try :=
  match cholLoop n ad.dy lim n [] with
  | (l, false) => .fail { iter := 0, ops := l.length }
  | (l, true) =>
    match (List.range n).mapM (fun c => invCol l c n []) with
    | none => .fail { iter := 0, ops := n }
    | some inv =>
      let x := bMat n (fun i j =>
        let (i, j) := if j < i then (j, i) else (i, j)
        ((List.range n).foldl (fun acc k => accMul acc (wAt inv k i) (wAt inv k j)) Acc.cleared).dy)
      match Area.write r [ad] x with
      | none => .lost
      | some r => .ok x r { iter := 0, ops := n + n * (n + 1) / 2 }

/-! ## Refresh of one block -/

/-- The root of `Ad` for `p = 2^lg` (R233), `Ad` written to an area without a shift. -/
def rootOf (s : Slot) (ad installed : BMat) (dmax : Dy) : Try :=
  match Area.write 0 [] ad with
  | none => .lost
  | some r =>
    if s.rootLog = 0 then rootChol s.block ad ((Fp.val s.tau).dy.mul dmax) r
    else rootNewton s.block s.rootLog s.convTol s.maxNewton s.warmIter ad installed r

/-- E of R240 from the symmetric part, each matrix written to the work area. -/
def verifyE (s : Slot) (xs ad : BMat) (r : Int) : Option BMat :=
  let n := s.block
  if s.rootLog = 0 then
    let e := BMat.mul n xs ad
    (Area.write r [ad, xs] e).map (fun _ => e)
  else do
    let (r, y) ← BMat.powLog n [ad, xs] (s.rootLog - 1) r xs
    let ya := BMat.mul n y ad
    let r ← Area.write r [ad, xs, y] ya
    let e := BMat.mul n ya y
    let _ ← Area.write r [ad, xs, y, ya] e
    return e

/-- Verification (R240): the symmetric part, its residual and whether it passes; `none` where the block cannot be rescaled. -/
def verifyRoot (s : Slot) (x ad : BMat) (r : Int) : Option (BMat × Nat × Bool) :=
  let n := s.block
  let xs := bMat n (fun i j => ((x.dy i j).add (x.dy j i)).scale (-1))
  match (Area.write r [ad, x] xs).bind (fun r => verifyE s xs ad r) with
  | none => none
  | some e =>
    let d := maxRowAbsSum n (minusI e)
    some (xs, d, e.finite && decide (d ≤ s.resTol))

/-- What the refresh of a block leaves (R233, R240, R241): the new root, or none where the installed root is copied. `iter`,
`warm`, `restarts` and `eps` are those of the last attempt, and `resid` is that of the last verification, none where none
took place (R252). `strokes` and `ops` are the Topiary strokes and pipeline operations of all attempts (R254, R526). -/
structure BlockOut where
  root : Option BMat
  code : Nat
  iter : Nat := 0
  restarts : Nat := 0
  warm : Bool := false
  resid : Option Nat := none
  eps : Dy := Dy.zero
  strokes : Nat := 0
  ops : Nat := 0
  deriving DecidableEq, Repr

/-- Topiary strokes of a product of two blocks, and of one pass over a block's elements (R254). -/
def Slot.mmStrokes (s : Slot) : Nat := s.block ^ 3 / 1024
def Slot.ewStrokes (s : Slot) : Nat := s.block ^ 2 / 512

/-- Topiary strokes of one attempt at a root, its verification included (R254); an attempt that fails counts the iterations that it has
made (DESIGN CHOICE, log 26). -/
def Slot.rootStrokes (s : Slot) (c : TryCost) : Nat :=
  let n := s.rootLog
  if n = 0 then 3 * s.mmStrokes / 2 + 48 * s.block + 3 * s.ewStrokes
  else if c.warm then (c.iter * (n + 2) + 2 * (n + 1)) * s.mmStrokes + (c.iter + 4) * s.ewStrokes
  else (c.iter * (n + 2) + n + 1) * s.mmStrokes + (c.iter + 3) * s.ewStrokes
    + (match c.handed with | some w => (w * (n + 2) + n + 1) * s.mmStrokes + (w + 1) * s.ewStrokes | none => 0)

/-- Topiary strokes of the diagonal fallback: a free value within the bound of R254 (log 9). -/
def Slot.fallbackStrokes (s : Slot) : Nat := min (2 * s.block + 200) (Config.fallbackStrokes s.block)

/-- Topiary strokes of one attempt of FACTOR, and of a group of blocks in SOLVE (R254); a fraction of a stroke is dropped (DESIGN CHOICE,
log 68). -/
def Slot.factorStrokes (s : Slot) : Nat := s.mmStrokes / 6 + 48 * s.block + s.ewStrokes
def solveStrokes (block nrhs blocks : Nat) : Nat :=
  ceilDiv blocks (max 1 (32 / max 1 nrhs)) * (block ^ 2 / 32 + 2 * block)

/-- What an attempt has cost, added to what the attempts before it have. -/
def BlockOut.took (o : BlockOut) (s : Slot) (c : TryCost) : BlockOut :=
  { o with iter := c.iter, warm := c.warm, strokes := o.strokes + s.rootStrokes c, ops := o.ops + c.ops }

def codeVerified : Nat := 0x0210
def codeNumeric : Nat := 0x0211
def codeDiag : Nat := 0x0212
def codeAbandoned : Nat := 0x0213
def codeDiscarded : Nat := 0x0214

/-- Data rows of block `b` (R234). -/
def Slot.dataRows (s : Slot) (b : Nat) : Nat := min s.block (s.ldim - min s.ldim (b * s.block))

/-- A diagonal element of the fallback by the pipelines of R241; `none` where a pipeline gives no result (R220). -/
def fallbackEl (lg : Nat) (x : Dy) : Option Dy :=
  match lg with
  | 0 => pipeRcp x
  | 1 => pipeRsq x
  | 2 => (pipeSqrt x).bind pipeRsq
  | _ => ((pipeSqrt x).bind pipeSqrt).bind pipeRsq

/-- The diagonal fallback (R241); `none` where a pipeline exception fails it too, or an exponent cannot be written. -/
def diagFallback (s : Slot) (b : Nat) (snap : BMat) (add : Dy) : Option BMat :=
  match (List.range (s.dataRows b)).mapM (fun i => fallbackEl s.rootLog (Wide.ofDy ((snap.symDy i i).add add)).dy) with
  | none => none
  | some ds =>
    let x := bMat s.block (fun i j => if i = j then ds.getD i Dy.zero else Dy.zero)
    if x.inRange then some x else none

/-- The damped statistic, padding taken as the identity (R234). -/
def damped (s : Slot) (b : Nat) (snap : BMat) (eps : Dy) : BMat :=
  let rows := s.dataRows b
  bMat s.block (fun i j =>
    if i < rows ∧ j < rows then (if i = j then (snap.symDy i i).add eps else snap.symDy i j)
    else if i = j then ⟨1, 0⟩ else Dy.zero)

/-- The written root: upper triangle over data rows, zero elsewhere (R218, R234). -/
def rootUpper (s : Slot) (b : Nat) (x : BMat) : BMat :=
  let rows := s.dataRows b
  bMat s.block (fun i j => if i ≤ j ∧ i < rows ∧ j < rows then x.dy i j else Dy.zero)

/-- Damping of the attempt after one that failed (R233), kept exact: EPS_USED alone is rounded, to F32 by RNE (DESIGN CHOICE, log 68). -/
def nextEps (s : Slot) (dmax eps : Dy) : Dy := if eps.m > 0 then eps.mul ⟨10, 0⟩ else (Fp.val s.tau).dy.mul dmax

/-- One attempt of R233, with what the record keeps of it; `lost` where the block cannot be rescaled. -/
structure Attempt where
  out : BlockOut
  lost : Bool
  deriving DecidableEq, Repr

def attempt (s : Slot) (b : Nat) (snap installed : BMat) (dmax : Dy) (k : Nat) (eps : Dy) (before : BlockOut) : Attempt :=
  let ad := damped s b snap eps
  let o : BlockOut := { root := none, code := codeNumeric, restarts := k, resid := before.resid, eps,
                        strokes := before.strokes, ops := before.ops }
  match (if snap.finite then rootOf s ad installed dmax else .fail { iter := 0 }) with
  | .lost => ⟨o, true⟩
  | .fail c => ⟨o.took s c, false⟩
  | .ok x r c =>
    let o := o.took s c
    match verifyRoot s x ad r with
    | none => ⟨o, true⟩
    | some (xs, d, pass) =>
      let o := { o with resid := some d }
      if !pass then ⟨o, false⟩
      else
        let u := rootUpper s b xs
        if u.inRange then ⟨{ o with root := some u, code := codeVerified }, false⟩ else ⟨o, true⟩

/-- The attempts of R233 from attempt `k`: the last one made, with what all have cost. -/
def attempts (s : Slot) (b : Nat) (snap installed : BMat) (dmax : Dy) : Nat → Nat → Dy → BlockOut → BlockOut
  | 0, k, eps, o => (attempt s b snap installed dmax k eps o).out
  | fuel + 1, k, eps, o =>
    let a := attempt s b snap installed dmax k eps o
    if a.lost || a.out.code == codeVerified then a.out
    else attempts s b snap installed dmax fuel (k + 1) (nextEps s dmax eps) a.out

/-- The largest diagonal element over data rows, 0 where there are none. -/
def dmaxOf (s : Slot) (b : Nat) (snap : BMat) : Dy :=
  (List.range (s.dataRows b)).foldl (fun a i => if i = 0 then snap.symDy 0 0 else Dy.max a (snap.symDy i i)) Dy.zero

/-- refresh_block of R233: `snap` is the snapshot, `installed` the installed root, `damp10` and `fails` as recorded at
launch. Code 0 keeps LAST_CODE 0. A block that cannot be rescaled makes no restart and then takes the last lines of the
listing (R233, R239); a fallback whose pipelines give no result is one more failed attempt, STATUS.NUMERIC (R220; log 45). -/
def refreshBlock (s : Slot) (b : Nat) (snap installed : BMat) (damp10 : Bool) (fails : Nat) : BlockOut :=
  let dmax := dmaxOf s b snap
  if s.dataRows b = 0 then { root := some (bMat s.block (fun _ _ => Dy.zero)), code := 0 }
  else if dmax.m = 0 then { root := none, code := 0 }
  else
    let eps0 := Dy.max (Fp.val s.epsAbs).dy ((Fp.val s.epsRel).dy.mul dmax)
    let out := attempts s b snap installed dmax 3 0 (if damp10 then eps0.mul ⟨10, 0⟩ else eps0)
      { root := none, code := codeNumeric }
    if out.code = codeVerified ∨ fails ≠ 2 then out
    else
    let out := { out with strokes := out.strokes + s.fallbackStrokes, ops := out.ops + s.dataRows b * (if s.rootLog = 0 then 1 else s.rootLog) }
    match diagFallback s b snap (Dy.mul ⟨10, 0⟩ (Dy.max eps0 ((Fp.val s.tau).dy.mul dmax))) with
      | some x => { out with root := some x, code := codeDiag }
      | none => out

/-! ## Regions in memory -/

/-- Bytes of one block of STAT or of a root buffer. -/
def Slot.blockBytes (t : Slot) : Nat := t.block * (t.block / 64 * 392)

/-- Bytes of one block of an application copy. -/
def Slot.blockApply (t : Slot) : Nat := t.block * t.block * (if t.applyFmt = 4 then 2 else 4)

/-- Address of row `r` of block `b` in STAT or a root buffer (R222). -/
def Slot.rowAddr (s : Slot) (base b r : Nat) : Nat := base + (b * s.block + r) * (s.block / 64 * 392)

/-- A block read from STAT or a root buffer. -/
def readBlock (m : Cells) (s : Slot) (base b : Nat) : BMat :=
  (List.range s.block).map (fun r => (List.range (s.block / 64)).map (fun g =>
    Seg.ofBytes (Cells.read m (s.rowAddr base b r + 392 * g) 392)))

/-- The writes of a block. -/
def writeBlock (s : Slot) (base b : Nat) (a : BMat) : List (Nat × List Byte) :=
  a.zipIdx.map (fun p => (s.rowAddr base b p.2, p.1.flatMap Seg.toBytes))

/-- The application copy of a root: the full symmetric matrix in APPLY_FMT with RNE (R240). -/
def writeApply (s : Slot) (base b : Nat) (a : BMat) : List (Nat × List Byte) :=
  let f : Fmt := if s.applyFmt = 4 then .h16 else .f32
  let w := f.bits / 8
  (List.range s.block).map (fun i => (base + (b * s.block + i) * s.block * w,
    (List.range s.block).flatMap (fun j => leBytes w (convElem f .rne (Val.ofDy (a.symDy i j))).code)))

/-- Address of an accumulator of the plane: block, output tile `(i, j)` with `i ≤ j`, row and column in the tile. -/
def Slot.accAddr (s : Slot) (b i j r c : Nat) : Nat :=
  let t := s.tilesEdge
  let k := i * t - i * (i - 1) / 2 + (j - i)
  s.plane + (b * s.tilesBlk + k) * 0x40000 + (r * 128 + c) * 16

/-- The stored accumulator that gathers element `(r, c)` of block `b`, `r ≤ c`. -/
def Slot.accOf (s : Slot) (m : Cells) (b r c : Nat) : Acc :=
  Acc.ofBytes (Cells.read m (s.accAddr b (r / 128) (c / 128) (r % 128) (c % 128)) 16)

/-- New statistic value of R227. -/
def foldValue (s : Slot) (old g : Dy) : Dy :=
  match s.avg with
  | 0 => old.add ((g.sub old).scale (-(s.betaShift : Int)))
  | 1 => old.add g
  | _ => g

/-- A row segment of the new statistic; an old segment that is non-finite makes the new one non-finite (R69, R227). -/
def foldSeg (xs : List (Option Dy)) : Seg := if xs.any Option.isNone then .nonfin else segOf (xs.map (fun o => o.getD Dy.zero))

/-- FOLD of every block (R227, R228): the writes of the statistic, or `none` where a non-finite step sum or an exponent out
of range refuses the fold. `g b r c` is the step sum, `none` where it is non-finite. -/
def foldSlot (m : Cells) (s : Slot) (g : Nat → Nat → Nat → Option Dy) : Option (List (Nat × List Byte)) :=
  let blocks := (List.range s.nblk).map (fun b =>
    let old := readBlock m s s.stat b
    let ok := (List.range s.block).all (fun i => (List.range s.block).all (fun j => j < i || (g b i j).isSome))
    let cell (i j : Nat) : Option Dy :=
      if j < i then some Dy.zero
      else if s.avg ≤ 1 ∧ (old.el i j).isNone then none
      else some (foldValue s (old.dy i j) ((g b i j).getD Dy.zero))
    if !ok then none
    else some (b, (List.range s.block).map (fun i => (chunks 64 ((List.range s.block).map (cell i))).map foldSeg)))
  if blocks.any (fun o => match o with | none => true | some (_, a) => !(BMat.inRange a)) then none
  else some (blocks.flatMap (fun o => match o with | none => [] | some (b, a) => writeBlock s s.stat b a))

/-! ## Factor sets -/

/-- `L D Lᵀ` by columns (R248): columns of U and L and the reciprocal pivots so far, and whether it ends. -/
def ldlLoop (n : Nat) (a : Nat → Nat → Dy) (sgn : Nat → Int) (lim : Dy) : Nat → WCols → WCols → List Wide → WCols × List Wide × Bool
  | 0, _, l, rs => (l, rs, true)
  | fuel + 1, u, l, rs =>
    let j := l.length
    let d := cholUpd a u l j j
    if Dy.le ⟨d.m * sgn j, d.e⟩ lim then (l, rs, false)
    else match pipeRcp (Wide.ofDy d).dy with
      | none => (l, rs, false)
      | some r =>
        let ucol := (List.range n).map (fun i => if i < j then ⟨0, 0⟩ else Wide.ofDy (cholUpd a u l i j))
        let lcol := ucol.zipIdx.map (fun p =>
          if p.2 < j then (⟨0, 0⟩ : Wide) else if p.2 = j then Wide.ofDy ⟨1, 0⟩ else Wide.ofDy (p.1.dy.mul r))
        ldlLoop n a sgn lim fuel (u ++ [ucol]) (l ++ [lcol]) (rs ++ [Wide.ofDy r])

/-- What FACTOR of a block gives: the stored factor (L below the diagonal, `1/d` on it), or none where it fails; whether the block
cannot be rescaled (R239, R248); restarts used, damping of the last attempt, Topiary strokes and pipeline operations of all. -/
structure FactorOut where
  factor : Option BMat
  lost : Bool := false
  restarts : Nat := 0
  eps : Dy
  strokes : Nat := 0
  ops : Nat := 0
  deriving DecidableEq, Repr

def FactorOut.code (o : FactorOut) : Nat := if o.factor.isSome then codeVerified else codeNumeric

/-- One attempt of FACTOR (R248). -/
def factorTry (s : Slot) (a : BMat) (dmax eps : Dy) : FactorOut :=
  let sgn (i : Nat) : Int := if i < s.npos then 1 else -1
  let el (i j : Nat) : Dy :=
    let v := a.symDy i j
    if i = j then v.add ⟨eps.m * sgn i, eps.e⟩ else v
  let o : FactorOut := { factor := none, eps, strokes := s.factorStrokes }
  match (if a.finite then ldlLoop s.block el sgn ((Fp.val s.tau).dy.mul dmax) s.block [] [] [] else ([], [], false)) with
  | (_, rs, false) => { o with ops := rs.length }
  | (l, rs, true) =>
    let f := bMat s.block (fun i j => if i = j then (rs.getD i ⟨0, 0⟩).dy else if j < i then (wAt l i j).dy else Dy.zero)
    let o := { o with ops := rs.length }
    if f.inRange then { o with factor := some f } else { o with lost := true }

/-- Attempts of FACTOR from attempt `k`: the last one made. -/
def factorAttempts (s : Slot) (a : BMat) (dmax : Dy) : Nat → Nat → Dy → Nat → Nat → FactorOut
  | 0, k, eps, strokes, ops =>
    let o := factorTry s a dmax eps
    { o with restarts := k, strokes := strokes + o.strokes, ops := ops + o.ops }
  | fuel + 1, k, eps, strokes, ops =>
    let o := factorTry s a dmax eps
    if o.factor.isNone && !o.lost then factorAttempts s a dmax fuel (k + 1) (nextEps s dmax eps) (strokes + o.strokes) (ops + o.ops)
    else { o with restarts := k, strokes := strokes + o.strokes, ops := ops + o.ops }

/-- FACTOR of one block (R248). -/
def factorBlock (s : Slot) (a : BMat) : FactorOut :=
  let dmax := (List.range s.block).foldl (fun acc i => Dy.max acc (a.dy i i).abs) Dy.zero
  factorAttempts s a dmax 3 0 (Dy.max (Fp.val s.epsAbs).dy ((Fp.val s.epsRel).dy.mul dmax)) 0 0

/-- Forward substitution with a unit lower triangle. -/
def fwdSub (f : BMat) (b : List Dy) : Nat → List Wide → List Wide
  | 0, xs => xs
  | fuel + 1, xs =>
    let i := xs.length
    let v := ((List.range i).foldl (fun acc k =>
      match f.el i k with
      | some l => let y := xs.getD k ⟨0, 0⟩; acc.add (-(l.s * y.s)) (l.e + y.e)
      | none => acc) (accAddDy Acc.cleared (b.getD i Dy.zero))).dy
    fwdSub f b fuel (xs ++ [Wide.ofDy v])

/-- Backward substitution with its transpose; `xs` holds the results from row `i + 1` up. -/
def bwdSub (n : Nat) (f : BMat) (b : List Wide) : Nat → List Wide → List Wide
  | 0, xs => xs
  | fuel + 1, xs =>
    let i := n - 1 - xs.length
    let v := ((List.range (n - 1 - i)).foldl (fun acc t =>
      let k := i + 1 + t
      match f.el k i with
      | some l => let y := xs.getD t ⟨0, 0⟩; acc.add (-(l.s * y.s)) (l.e + y.e)
      | none => acc) (accAddDy Acc.cleared (b.getD i ⟨0, 0⟩).dy)).dy
    bwdSub n f b fuel (Wide.ofDy v :: xs)

/-- `L D Lᵀ x = b` for one right-hand side, results in F32 (R249). -/
def solveCol (n : Nat) (f : BMat) (b : List Dy) : List F32 :=
  let y := fwdSub f b n []
  let z := y.zipIdx.map (fun p => Wide.ofDy (p.1.dy.mul (f.dy p.2 p.2)))
  (bwdSub n f z n []).map (fun w => Fp.ofDy .rne w.dy)

/-! ## The slot state record -/

def Slot.word (s : Slot) (m : Cells) (k : Nat) : Word := Cells.word m (s.state + 8 * k)
def Slot.blockWord (s : Slot) (m : Cells) (b : Nat) : Word := s.word m (8 + 2 * b)
def Slot.setWord (s : Slot) (k : Nat) (w : Word) : Nat × List Byte := (s.state + 8 * k, leBytes 8 w.toNat)

def Slot.planeState (s : Slot) (m : Cells) : Nat := fld (s.word m 0) 63 60
def Slot.candState (s : Slot) (m : Cells) : Nat := fld (s.word m 0) 59 56
def Slot.sel (s : Slot) (m : Cells) (b : Nat) : Nat := fld (s.blockWord m b) 36 36
def Slot.candTag (s : Slot) (m : Cells) : Nat := (s.word m 3).toNat

/-- A block of the root buffer, and of the application copy, that is in force or not. -/
def Slot.rootAt (s : Slot) (i b : Nat) : Nat := s.roots.getD i 0 + b * s.blockBytes
def Slot.applyAt (s : Slot) (i b : Nat) : Nat := s.applies.getD i 0 + b * s.blockApply

/-- Block words as a refresh or a factorisation leaves them; the agreed fields stay, and RESID where no verification took
place (R252). -/
def blockOutWords (s : Slot) (m : Cells) (b : Nat) (o : BlockOut) : List (Nat × List Byte) :=
  let w := s.blockWord m b
  let w := setFld (setFld (setFld (setFld w 63 48 o.code) 47 40 o.iter) 39 38 o.restarts) 37 37 (b2n o.warm)
  let w := match o.resid with | some d => setFld w 31 0 d | none => w
  [s.setWord (8 + 2 * b) w, s.setWord (9 + 2 * b) (mkFld 63 32 (Fp.ofDy .rne o.eps).toNat)]

/-- Agreed fields of a block at an install (R244). -/
def installWord (w : Word) : Word :=
  let w := setFld w 36 36 (1 - fld w 36 36)
  let code := fld w 63 48
  if code = codeVerified then setFld (setFld w 34 33 0) 35 35 0
  else if code = codeNumeric then setFld w 34 33 (min 2 (fld w 34 33 + 1))
  else if code = codeDiag then setFld (setFld w 34 33 0) 35 35 1
  else w

/-- The writes of an install (R244). -/
def installSlot (m : Cells) (s : Slot) : List (Nat × List Byte) :=
  let w0 := setFld (setFld (setFld (s.word m 0) 59 56 0) 47 32 0) 31 0 0
  [s.setWord 0 w0, s.setWord 2 (s.word m 3), s.setWord 5 (setFld (s.word m 5) 63 32 (fld (s.word m 5) 63 32 + 1))]
    ++ (List.range s.nblk).map (fun b => s.setWord (8 + 2 * b) (installWord (s.blockWord m b)))

/-- The writes of a candidate's discard (R231, R246); none where there is no candidate. -/
def discardSlot (m : Cells) (s : Slot) : List (Nat × List Byte) :=
  if s.candState m = 0 then []
  else
    [s.setWord 0 (setFld (setFld (s.word m 0) 59 56 0) 47 32 codeDiscarded),
     s.setWord 5 (setFld (s.word m 5) 31 0 (fld (s.word m 5) 31 0 + 1))]

/-- The record at load, and with INIT 0 the statistic, root and application copy (R247, R252). -/
def initSlot (s : Slot) : List (Nat × List Byte) :=
  [(s.state, leBytes 8 0 ++ leBytes 8 0 ++ leBytes 8 (2 ^ 64 - 1) ++ leBytes 8 0 ++ leBytes 32 0)]
    ++ (List.range s.nblk).map (fun b => (s.state + 64 + 16 * b, leBytes 16 0))
    ++ (if s.isFactor || s.init then []
        else (List.range s.nblk).flatMap (fun b =>
          let rows := s.dataRows b
          let root := bMat s.block (fun i j => if i = j ∧ i < rows then ⟨1, 0⟩ else Dy.zero)
          writeBlock s s.stat b (bMat s.block (fun _ _ => Dy.zero))
            ++ writeBlock s (s.roots.getD 0 0) b root ++ writeApply s (s.applies.getD 0 0) b root))

/-! ## The refresh queue -/

/-- A refresh queued or running on a cluster (R231, R232): slot, launch step, and per block the SEL, FAILS and DAMP10 that
stood at launch; `done` counts its finished blocks, and `started` says that it has begun to run (R252: RUNNING). -/
structure Refresh where
  slot : Nat
  tag : Nat
  sel : List Nat
  fails : List Nat
  damp10 : List Bool
  done : Nat
  started : Bool
  deriving DecidableEq, Repr

/-- Topiary state of a logical cluster (R231, R232, R253). -/
structure Top where
  queue : List Refresh
  lastCode : Nat
  deriving DecidableEq, Repr

def Top.reset : Top := { queue := [], lastCode := 0 }

/-- The refresh that runs: the head of the queue, once begun. -/
def Top.running (t : Top) : Option Refresh := t.queue.head?.bind (fun r => if r.started then some r else none)

/-- TOP_STATUS (R253); `fg` says that a foreground entry is held. -/
def Top.status (t : Top) (fg : Bool) : Word :=
  mkFld 63 60 (if fg then 1 else if t.queue.isEmpty then 0 else 2) ||| mkFld 59 55 t.queue.length
    ||| mkFld 47 32 (match t.running with | some q => q.slot | none => 0xFFFF)
    ||| mkFld 31 16 (match t.running with | some q => q.done | none => 0) ||| mkFld 15 0 t.lastCode

end Sys2Proof.Machine
end

