-- ==== Sys2Proof/Machine/Plans.lean ====
section
/-!
DEFINITION. Descriptors and plan headers of the parameter plan (R264, R266, R281), the shard plan (R306, R308, R310,
R312, R316), reductions (R412) and exchanges (R319), with the member groups of R325.
-/

namespace Sys2Proof.Machine

def refuseParam : Nat := 0x0160
def refuseShard : Nat := 0x0180
def refuseSlice : Nat := 0x0181
def refuseExchange : Nat := 0x0182
def refuseReduction : Nat := 0x01B0
def refuseUnreachable : Nat := 0x01B1
def refuseChain : Nat := 0x0140

/-! ## Optimiser layers and the parameter plan -/

/-- An optimiser layer descriptor (R264); MODE 1 two-sided, 2 left, 3 right, 4 diagonal, 5 plain. -/
structure OptLayer where
  mode : Nat
  m1En : Bool
  wdEn : Bool
  lslot : Nat
  rslot : Nat
  layer : Nat
  masterC : Nat
  masterU : Nat
  grad : Nat
  scr : Nat
  m1C : Nat
  m1U : Nat
  m2C : Nat
  m2U : Nat
  hyper : Nat
  deriving DecidableEq, Repr

def OptLayer.parse (w : List Word) : Chk OptLayer :=
  let w0 := wordAt w 0
  let a := quads (wordAt w 1)
  let b := quads (wordAt w 2)
  let l : OptLayer :=
    { mode := fld w0 63 60, m1En := bit w0 59, wdEn := bit w0 58, lslot := fld w0 47 32, rslot := fld w0 31 16,
      layer := fld w0 15 0, masterC := a.getD 0 0, masterU := a.getD 1 0, grad := a.getD 2 0, scr := a.getD 3 0,
      m1C := b.getD 0 0, m1U := b.getD 1 0, m2C := b.getD 2 0, m2U := b.getD 3 0, hyper := fld (wordAt w 3) 51 0 }
  let pre : Bool := l.mode == 1 || l.mode == 2 || l.mode == 3
  let ok : Bool := 1 ≤ l.mode && l.mode ≤ 5 && fld w0 57 48 == 0 && fld (wordAt w 3) 63 52 == 0 && l.hyper % 32 == 0
    && ((l.lslot != noIdx) == (l.mode == 1 || l.mode == 2)) && ((l.rslot != noIdx) == (l.mode == 1 || l.mode == 3))
    && ((l.scr != noIdx) == pre) && (l.m1En == (l.m1C != noIdx)) && (l.m1En == (l.m1U != noIdx))
    && ((l.m2C != noIdx) == (l.mode == 4)) && ((l.m2U != noIdx) == (l.mode == 4))
  if ok then .ok l else .bad refuseParam

/-- The pairs that a layer writes: C and U tensor indices. -/
def OptLayer.pairs (l : OptLayer) : List (Nat × Nat) :=
  (l.masterC, l.masterU) :: ((if l.m1En then [(l.m1C, l.m1U)] else []) ++ (if l.mode = 4 then [(l.m2C, l.m2U)] else []))

/-- The hyperparameters of R266. -/
structure Hyper where
  lr : F32
  beta1 : F32
  omb1 : F32
  beta2 : F32
  omb2 : F32
  eps : F32
  wd : F32
  clip : F32
  deriving DecidableEq, Repr

def Hyper.read (m : Cells) (a : Nat) : Hyper :=
  let f (k : Nat) : F32 := BitVec.ofNat 32 (ofLeBytes (Cells.read m (a + 4 * k) 4))
  ⟨f 0, f 1, f 2, f 3, f 4, f 5, f 6, f 7⟩

/-- The parameter plan header (R281), with the pairs of PAIR_TABLE. -/
structure ParamPlan where
  coppiceEn : Bool
  lsEn : Bool
  lsInit : Int
  lsMin : Int
  lsMax : Int
  lsGrow : Nat
  lsVec : Nat
  copModule : Nat
  copBase : Nat
  copBytes : Nat
  stepRec : Nat
  npairs : Nat
  pairTable : Nat
  deriving DecidableEq, Repr

def ParamPlan.parse (w : List Word) : Chk ParamPlan :=
  let w0 := wordAt w 0
  let p : ParamPlan :=
    { coppiceEn := bit w0 63, lsEn := bit w0 62, lsInit := signExt 8 (fld w0 55 48), lsMin := signExt 8 (fld w0 47 40),
      lsMax := signExt 8 (fld w0 39 32), lsGrow := fld w0 31 16, lsVec := fld w0 15 0, copModule := fld (wordAt w 1) 63 52,
      copBase := fld (wordAt w 1) 51 0, copBytes := (wordAt w 2).toNat, stepRec := fld (wordAt w 3) 51 0,
      npairs := fld (wordAt w 4) 63 32, pairTable := fld (wordAt w 5) 51 0 }
  if (p.lsEn && p.lsGrow == 0) || (p.coppiceEn && p.copBytes == 0) then .bad refuseZero
  else if fld w0 61 56 == 0 && fld (wordAt w 3) 63 52 == 0 && fld (wordAt w 4) 31 0 == 0 && fld (wordAt w 5) 63 52 == 0
      && wordAt w 6 == 0 && wordAt w 7 == 0 && p.npairs ≤ 65535 && p.stepRec % 4096 == 0 && p.copBase % pageBytes == 0
      && -126 ≤ p.lsMin && p.lsMin ≤ p.lsInit && p.lsInit ≤ p.lsMax && -126 ≤ p.lsInit
  then .ok p else .bad refuseParam

/-- The pairs of PAIR_TABLE, read from memory (R281): C index in [31:16] and U index in [15:0]. -/
def readPairs (m : Cells) (a n : Nat) : List (Nat × Nat) :=
  (List.range n).map (fun k => let v := ofLeBytes (Cells.read m (a + 4 * k) 4); (v / 65536, v % 65536))

/-! ## Reductions -/

/-- A reduction descriptor (R412); OP 1 SUM, 2 SUMSQ, 3 MAX, 4 MIN, 5 GATHER, 6 SCATTER_SUM. -/
structure RedDesc where
  op : Nat
  axis : Nat
  a64 : Bool
  nfc : Bool
  group : Nat
  expert : Nat
  stage : Nat
  amaxList : Nat
  deriving DecidableEq, Repr

def RedDesc.parse (w : List Word) : Chk RedDesc :=
  let w0 := wordAt w 0
  let r : RedDesc := ⟨fld w0 63 60, fld w0 59 58, bit w0 57, bit w0 56, fld w0 55 52, fld w0 47 32, fld w0 31 16, fld w0 15 0⟩
  if 1 ≤ r.op && r.op ≤ 6 && r.axis ≤ 2 && r.group ≤ 6 && fld w0 51 48 == 0 && (r.group == 6 || r.expert == 0)
      && wordAt w 1 == 0 && wordAt w 2 == 0 && wordAt w 3 == 0 then .ok r else .bad refuseReduction

/-- A cut of `total` items into `n` parts by the rule of R310 and R312: start of part `i`. -/
def cutStart (total n i : Nat) : Nat := i * (total / max 1 n) + min i (total % max 1 n)

/-- Rows of chunk `c` of a collective over `n` members (R414). -/
def chunkRows (rows n c : Nat) : Nat × Nat := (cutStart rows n c, cutStart rows n (c + 1) - cutStart rows n c)

/-- Child of a tree node (R415): the lower rank's node and, unless it passes up unchanged, the higher one. -/
def treeChildren (n lo level : Nat) : List (Nat × Nat) :=
  let mid := lo + 2 ^ (level - 1)
  if mid ≥ n then [(lo, level - 1)] else [(lo, level - 1), (mid, level - 1)]

/-- The rank that hosts a node of chunk `c` (R415). -/
def treeHost (n c lo : Nat) : Nat := (lo + c) % max 1 n

/-- The parent node of `(lo, level)`. -/
def treeParent (lo level : Nat) : Nat × Nat := (lo / 2 ^ (level + 1) * 2 ^ (level + 1), level + 1)

/-- The value of a node from its children by R415, on an abstract combine: lower ranks on the left. -/
def treeValue {α : Type} (f : α → α → α) (leaf : Nat → α) (n : Nat) : Nat → Nat → α
  | lo, 0 => leaf lo
  | lo, level + 1 =>
    if lo + 2 ^ level ≥ n then treeValue f leaf n lo level
    else f (treeValue f leaf n lo level) (treeValue f leaf n (lo + 2 ^ level) level)

/-! ## The shard plan -/

/-- A layer record (R308); KIND 0 whole, 1 rows, 2 columns, 3 experts. -/
structure LayerRec where
  layer : Nat
  kind : Nat
  heads : Bool
  full : Nat
  unit_ : Nat
  headW : Nat
  deriving DecidableEq, Repr

def LayerRec.read (m : Cells) (a : Nat) : Chk LayerRec :=
  let w0 := Cells.word m a
  let w1 := Cells.word m (a + 8)
  let r : LayerRec := ⟨fld w0 63 48, fld w0 47 46, bit w0 45, fld w0 31 0, fld w1 63 32, fld w1 31 16⟩
  if r.full == 0 || r.unit_ == 0 || (r.heads && r.headW == 0) then .bad refuseZero
  else if r.heads && r.unit_ % r.headW != 0 then .bad refuseSlice
  else if fld w0 44 32 == 0 && fld w1 15 0 == 0 && r.unit_ % 128 == 0 && (r.heads || r.headW == 0)
      && (r.kind == 1 || r.kind == 2 || !r.heads)
      && (!(r.kind == 0 || r.kind == 3) || r.unit_ == 128) && (r.kind != 0 || r.full == 1)
  then .ok r else .bad refuseShard

/-- The shard plan: header of R306 with its module map and layer map. -/
structure ShardPlan where
  d : Nat
  s : Nat
  q : Nat
  sliceMode : Nat
  seqFold : Bool
  nmb : Nat
  modules : List Nat
  layers : List LayerRec
  deriving DecidableEq, Repr

/-- Grid index of a position (R305). -/
def ShardPlan.grid (p : ShardPlan) (d s q : Nat) : Nat := s + p.s * (q + p.q * d)

/-- Position `(d, s, q)` of a grid index. -/
def ShardPlan.pos (p : ShardPlan) (i : Nat) : Nat × Nat × Nat :=
  (i / (max 1 (p.s * p.q)), i % max 1 p.s, i / max 1 p.s % max 1 p.q)

def ShardPlan.indexOf (p : ShardPlan) (module : Nat) : Option Nat := p.modules.findIdx? (· = module)

/-- The experts' group of a sequence index: grid indices, ascending (R316). -/
def ShardPlan.expertGroup (p : ShardPlan) (q : Nat) : List Nat :=
  (List.range p.modules.length).filter (fun i => (p.pos i).2.2 = q)

/-- Experts that member `j` of `G` holds (R316). -/
def expertsOf (x g j : Nat) : List Nat :=
  if x ≥ g then (List.range (cutStart x g (j + 1) - cutStart x g j)).map (· + cutStart x g j) else [j % max 1 x]

/-- Members that hold expert `e`, ascending (R316). -/
def expertHolders (x g e : Nat) : List Nat := (List.range g).filter (fun j => (expertsOf x g j).contains e)

/-- Grid indices of the members of a group for a position, ascending (R325). -/
def ShardPlan.group (p : ShardPlan) (code expert layerX : Nat) (me : Nat) : List Nat :=
  let x := p.pos me
  let all := List.range p.modules.length
  match code with
  | 1 => all.filter (fun i => (p.pos i).2 = x.2)
  | 2 => all.filter (fun i => (p.pos i).1 = x.1 ∧ (p.pos i).2.2 = x.2.2)
  | 3 => all.filter (fun i => (p.pos i).1 = x.1 ∧ (p.pos i).2.1 = x.2.1)
  | 4 => all.filter (fun i => (p.pos i).2.1 = x.2.1)
  | 5 => all
  | 6 => all.filter (fun i =>
      match (p.expertGroup (p.pos i).2.2).findIdx? (· = i) with
      | some j => (expertsOf layerX (p.d * p.s) j).contains expert
      | none => false)
  | _ => []

/-- The shard plan's header (R306): extents, modes, NMB, NLAYERS, MODULE_MAP and LAYER_MAP. -/
structure ShardHdr where
  d : Nat
  s : Nat
  q : Nat
  sliceMode : Nat
  seqFold : Bool
  nmb : Nat
  nlayers : Nat
  moduleMap : Nat
  layerMap : Nat
  deriving DecidableEq, Repr

def ShardHdr.parse (w : List Word) : Chk ShardHdr :=
  let w0 := wordAt w 0
  let h : ShardHdr :=
    { d := fld w0 63 51, s := fld w0 50 44, q := fld w0 43 37, sliceMode := fld w0 36 35, seqFold := bit w0 34,
      nmb := fld w0 31 0, nlayers := fld (wordAt w 1) 63 48, moduleMap := fld (wordAt w 2) 51 0,
      layerMap := fld (wordAt w 3) 51 0 }
  if h.d == 0 || h.s == 0 || h.q == 0 || h.nmb == 0 || h.nlayers == 0 then .bad refuseZero
  else if fld w0 33 32 == 0 && fld (wordAt w 1) 47 0 == 0 && fld (wordAt w 2) 63 52 == 0 && fld (wordAt w 3) 63 52 == 0
      && wordAt w 4 == 0 && wordAt w 5 == 0 && wordAt w 6 == 0 && wordAt w 7 == 0
      && h.d ≤ 4096 && h.s ≤ 64 && h.q ≤ 64 && h.d * h.s * h.q ≤ 4096 && h.sliceMode ≤ 2
      && (h.sliceMode == 0) == (h.s == 1) && !(h.seqFold && h.q == 1)
  then .ok h else .bad refuseShard

/-- Module numbers of MODULE_MAP. -/
def readModules (m : Cells) (a n : Nat) : List Nat := (List.range n).map (fun k => ofLeBytes (Cells.read m (a + 2 * k) 2))

/-! ## Exchanges -/

/-- An exchange descriptor (R319); DIR 1 DISPATCH, 2 COMBINE, 3 REDISPATCH. -/
structure ExchDesc where
  dir : Nat
  topk : Nat
  oflow : Bool
  route : Nat
  place : Nat
  stats : Nat
  cap : Nat
  ocap : Nat
  layer : Nat
  deriving DecidableEq, Repr

def ExchDesc.parse (w : List Word) : Chk ExchDesc :=
  let w0 := wordAt w 0
  let x : ExchDesc :=
    ⟨fld w0 63 60, fld w0 59 56, bit w0 55, fld w0 47 32, fld w0 31 16, fld w0 15 0, fld (wordAt w 1) 63 32,
      fld (wordAt w 1) 31 0, fld (wordAt w 2) 63 48⟩
  if 1 ≤ x.dir && x.dir ≤ 3 && 1 ≤ x.topk && x.topk ≤ 8 && fld w0 54 48 == 0 && fld (wordAt w 2) 47 0 == 0
      && wordAt w 3 == 0 && (x.dir == 1) == (x.route != noIdx) && (x.dir == 1) == (x.stats != noIdx)
      && 1 ≤ x.cap && x.cap < 2 ^ 20 && (if x.oflow then 1 ≤ x.ocap && x.ocap < 2 ^ 20 else x.ocap == 0)
  then .ok x else .bad refuseExchange

/-- The replica of expert `e` that source `i` routes to, by rank `i mod r_e` (R320). -/
def exchTarget (x g e i : Nat) : Nat := let h := expertHolders x g e; h.getD (i % max 1 h.length) 0

/-- Sources that route to the replica of `e` on member `j`, ascending (R320). -/
def exchSources (x g e j : Nat) : List Nat := (List.range g).filter (fun i => exchTarget x g e i = j)

/-- Rows of the region of expert `e` on member `j` (R320). -/
def regionRows (d : ExchDesc) (x g e j : Nat) : Nat := (exchSources x g e j).length * d.cap + d.ocap

/-- First row of the region of expert `e` in member `j`'s receive buffer (R320). -/
def regionBase (d : ExchDesc) (x g e j : Nat) : Nat :=
  sumNat (((expertsOf x g j).filter (· < e)).map (fun k => regionRows d x g k j))

/-- Rows of member `j`'s receive buffer. -/
def recvRows (d : ExchDesc) (x g j : Nat) : Nat := sumNat ((expertsOf x g j).map (fun k => regionRows d x g k j))

/-- First pool row of the region. -/
def poolBase (d : ExchDesc) (x g e j : Nat) : Nat := regionBase d x g e j + (exchSources x g e j).length * d.cap

/-- What DISPATCH decides before its count phase (R322): placements by `(t, k)`, pending choices by expert in list order,
and the statistics' counts. -/
structure Dispatch where
  place : List ((Nat × Nat) × (Int × Int))
  pending : List (Nat × List (Nat × Nat))
  placed : List (Nat × Nat)
  invalid : Nat
  deriving DecidableEq, Repr

def dispatchChoice (d : ExchDesc) (x g i : Nat) (st : Dispatch) (t k : Nat) (e : Int) : Dispatch :=
  if e < 0 ∨ e ≥ x then { st with place := st.place ++ [((t, k), (-2, 0))], invalid := st.invalid + 1 }
  else
    let en := e.toNat
    let j := exchTarget x g en i
    let n := (assoc st.placed en).getD 0
    if n < d.cap then
      let rank := ((exchSources x g en j).findIdx? (· = i)).getD 0
      { st with
        place := st.place ++ [((t, k), ((j : Int), ((regionBase d x g en j + rank * d.cap + n : Nat) : Int)))]
        placed := assocSet st.placed en (n + 1) }
    else { st with pending := assocSet st.pending en ((assoc st.pending en).getD [] ++ [(t, k)]) }

/-- The loop of R322 over the rows that the module dispatches; `route t k` is the routing tensor's value. -/
def dispatchRows (d : ExchDesc) (x g i : Nat) (rows : List Nat) (route : Nat → Nat → Int) : Dispatch :=
  rows.foldl (fun st t => (List.range d.topk).foldl (fun st k => dispatchChoice d x g i st t k (route t k)) st)
    { place := [], pending := [], placed := [], invalid := 0 }

/-- Pool grants of one replica: per source in ascending member index, its granted rows and offset (R322). -/
def poolGrants (ocap : Nat) (counts : List (Nat × Nat)) : List (Nat × Nat × Nat) :=
  (counts.foldl (fun (acc : List (Nat × Nat × Nat) × Nat) c =>
    let n := min c.2 (ocap - acc.2)
    (acc.1 ++ [(c.1, n, acc.2)], acc.2 + n)) ([], 0)).1

/-- Placements of pending choices under a grant (R322). -/
def grantPending (d : ExchDesc) (x g e j granted offset : Nat) (l : List (Nat × Nat)) : List ((Nat × Nat) × (Int × Int)) :=
  l.zipIdx.map (fun p =>
    if p.2 < granted then (p.1, ((j : Int), ((poolBase d x g e j + offset + p.2 : Nat) : Int))) else (p.1, (-1, 0)))

end Sys2Proof.Machine
end

