-- ==== Sys2Proof/Machine/Fabric.lean ====
section
/-!
DEFINITION. Messages (R401, R404), ports, lanes, flits and credits (R396 to R407, R421, R422, R428, R431), the live graph,
routes and route changes (R408, R409), the expected map and topology reports (R423 to R425), the firmware broadcast tree
(R430).
-/

namespace Sys2Proof.Machine

/-! ## Messages -/

/-- A task's name on every module of its domain: context, job handle and task-table index. -/
structure TaskKey where
  ctx : Nat
  job : Nat
  task : Nat
  deriving DecidableEq, Repr

/-- A refresh report of R243: slot, CAND_TAG and READY. -/
structure Report where
  slot : Nat
  tag : Nat
  ready : Bool
  deriving DecidableEq, Repr

/-- A cluster's vote (R272). -/
structure Vote where
  module : Nat
  cluster : Nat
  dc : Word
  nf : Bool
  mismatch : Bool
  reports : List Report
  deriving DecidableEq, Repr

/-- A module's Coppice as the commit condition of R273 reads it: COPPICE_EN, COPPICE_LOST and COPPICE_STEP. -/
structure CopInfo where
  module : Nat
  en : Bool
  lost : Bool
  step : Nat
  deriving DecidableEq, Repr

/-- Step outcomes of R273. -/
inductive Outcome where
  | skip | recompute | restore | abort | commit
  deriving DecidableEq, Repr

/-- One port's state in JOIN, TOPO_REPORT and LINK_STATE: port, state code of R431, far module and far port, whether it is part of a link
that both directions carry (R396), and whether it agrees with the map (R424, R425). -/
structure PortRep where
  port : Nat
  state : Nat
  farModule : Nat
  farPort : Nat
  linked : Bool
  agrees : Bool
  deriving DecidableEq, Repr

/-- A part of the values of a collective message (R401): OFFSET, and the bytes from there on. -/
structure Piece where
  off : Nat
  bytes : List Byte
  deriving DecidableEq, Repr

/-- What a destination hub tells the entry hub of a forwarded packet (R458, R459, R454; log 27): its number at the entry hub,
whether a completion entry is due and whether the slot is released, status and value. -/
structure PktEnd where
  pid : Nat
  completes : Bool
  releases : Bool
  status : Nat
  value : Word
  deriving DecidableEq, Repr

/-- Message types of R404 with what they carry. -/
inductive Body where
  | write (addr : Nat) (bytes : List Byte)
  | read (addr n : Nat)
  | signal (cluster ctr : Nat) (gen : Bool) (inc : Nat)
  | packet (pid : Nat) (words : List Word) (pay : List Byte)
  | ack (addr : Nat) (e : Option PktEnd)
  | readData (addr : Nat) (bytes : List Byte)
  | nack (addr : Nat) (reason : Nat)
  | part (desc occ chunk lo level : Nat) (vals : Piece)
  | result (desc occ chunk rank : Nat) (vals : Piece)
  | carry (desc occ lo level : Nat) (nf : Bool) (amax : List Nat) (final : Bool)
  | count (desc occ : Nat) (phase : Nat) (counts : List (Nat × Nat × Nat))
  | vote (key : TaskKey) (step : Nat) (votes : List Vote) (cops : List CopInfo)
  | outcome (key : TaskKey) (step : Nat) (o : Outcome) (suspects : List (Nat × Nat)) (votes : List Vote)
  | abort (key : TaskKey) (status : Nat)
  | ident (module port variant stepping : Nat) (mapId : Word)
  | topoReport (module : Nat) (ports : List PortRep)
  | join (module : Nat) (ports : List PortRep)
  | leave (module : Nat)
  | linkState (module : Nat) (rep : PortRep)
  | drained (module change : Nat)
  | switch (change : Nat)
  | fwChunk (seq idx : Nat) (bytes : List Byte)
  | fwAck (seq idx : Nat)
  | link (ack replay : Nat) (req : Bool) (credits : List Nat)
  deriving DecidableEq, Repr

/-- A message: destination, source, context, tag and source logical cluster of R401, and what it carries. -/
structure Msg where
  dst : Nat
  src : Nat
  ctx : Nat
  tag : Nat
  scl : Nat
  body : Body
  deriving DecidableEq, Repr

/-- Virtual channel and type code of a message (R404): channel 0 request, 1 response, 2 collective, 3 management. -/
def Body.code : Body → Nat × Nat
  | .write _ _ => (0, 1)
  | .read _ _ => (0, 2)
  | .signal _ _ _ _ => (0, 3)
  | .packet _ _ _ => (0, 4)
  | .ack _ _ => (1, 1)
  | .readData _ _ => (1, 2)
  | .nack _ _ => (1, 3)
  | .part _ _ _ _ _ _ => (2, 1)
  | .result _ _ _ _ _ => (2, 2)
  | .carry _ _ _ _ _ _ _ => (2, 3)
  | .count _ _ _ _ => (2, 4)
  | .vote _ _ _ _ => (3, 1)
  | .outcome _ _ _ _ _ => (3, 2)
  | .abort _ _ => (3, 3)
  | .ident _ _ _ _ _ => (3, 4)
  | .topoReport _ _ => (3, 5)
  | .join _ _ => (3, 6)
  | .leave _ => (3, 7)
  | .linkState _ _ => (3, 8)
  | .drained _ _ => (3, 9)
  | .switch _ => (3, 10)
  | .fwChunk _ _ _ => (3, 11)
  | .fwAck _ _ => (3, 12)
  | .link _ _ _ _ => (3, 0x3F)

/-- Virtual channel of a message. -/
def Body.vc (b : Body) : Nat := b.code.1

/-- A LINK message (R404). -/
def Body.isLink (b : Body) : Bool := b.code == (3, 0x3F)

/-- ADDR of H1: a request's address, and a response's that it carries back (R401, R404); PACKET carries its number there (log 27). -/
def Body.addr : Body → Nat
  | .write a _ | .read a _ | .ack a _ | .readData a _ | .nack a _ => a
  | .packet pid _ _ => pid
  | _ => 0

/-! ### Payloads

R404 gives the payloads of WRITE, READ_DATA, SIGNAL, NACK, PART, RESULT, CARRY, FW_CHUNK and LINK; the words of the others are a DESIGN
CHOICE (log 23). -/

def Outcome.code : Outcome → Nat
  | .skip => 0
  | .recompute => 1
  | .restore => 2
  | .abort => 3
  | .commit => 4

/-- The words of a port's state. -/
def PortRep.word (r : PortRep) : Word :=
  mkFld 63 60 r.state ||| mkFld 59 48 r.farModule ||| mkFld 47 42 r.farPort ||| mkFld 41 41 (b2n r.linked)
    ||| mkFld 40 40 (b2n r.agrees) ||| mkFld 5 0 r.port

def TaskKey.word (k : TaskKey) : Word := mkFld 63 48 k.job ||| mkFld 47 32 k.task ||| mkFld 11 0 k.ctx

/-- The words of a vote (R272). -/
def Vote.words (v : Vote) : List Word :=
  [mkFld 63 52 v.module ||| mkFld 51 45 v.cluster ||| mkFld 44 44 (b2n v.nf) ||| mkFld 43 43 (b2n v.mismatch) ||| mkFld 15 0 v.reports.length,
    v.dc] ++ v.reports.map (fun r => mkFld 63 48 r.slot ||| mkFld 47 47 (b2n r.ready) ||| mkFld 31 0 r.tag)

def CopInfo.words (c : CopInfo) : List Word :=
  [mkFld 63 52 c.module ||| mkFld 51 51 (b2n c.en) ||| mkFld 50 50 (b2n c.lost), BitVec.ofNat 64 c.step]

/-- The payload of a message. -/
def Body.payload : Body → List Byte
  | .write _ b => b
  | .readData _ b => b
  | .signal l c g n => leBytes 8 (mkFld 63 57 l ||| mkFld 56 51 c ||| mkFld 50 50 (b2n g) ||| mkFld 23 0 n).toNat
  | .packet _ ws p => bytesOfWords ((List.range 8).map (wordAt ws)) ++ p
  | .read _ _ => []
  | .ack _ none => []
  | .ack _ (some e) => bytesOfWords
      [mkFld 63 48 e.status ||| mkFld 47 47 (b2n e.completes) ||| mkFld 46 46 (b2n e.releases), BitVec.ofNat 64 e.pid, e.value]
  | .nack _ r => leBytes 8 (r % 256)
  | .part _ _ _ _ _ v => v.bytes
  | .result _ _ _ _ v => v.bytes
  | .carry _ _ _ _ nf a _ => leBytes 8 (b2n nf) ++ a.flatMap (leBytes 4)
  | .count _ _ _ c => c.flatMap (fun q => leBytes 4 q.1 ++ leBytes 4 q.2.1 ++ leBytes 8 q.2.2)
  | .vote k n vs cs => bytesOfWords ([k.word, BitVec.ofNat 64 n, mkFld 63 32 vs.length ||| mkFld 31 0 cs.length]
      ++ vs.flatMap Vote.words ++ cs.flatMap CopInfo.words)
  | .outcome k n o sus vs => bytesOfWords ([k.word, BitVec.ofNat 64 n, mkFld 63 60 o.code ||| mkFld 59 32 sus.length ||| mkFld 31 0 vs.length]
      ++ sus.map (fun q => mkFld 63 32 q.1 ||| mkFld 31 0 q.2) ++ vs.flatMap Vote.words)
  | .abort k st => bytesOfWords [k.word, BitVec.ofNat 64 st]
  | .ident m p v st id => bytesOfWords [mkFld 63 52 m ||| mkFld 51 46 p ||| mkFld 45 30 v ||| mkFld 29 14 st, id]
  | .topoReport m rs => bytesOfWords (BitVec.ofNat 64 m :: rs.map PortRep.word)
  | .join m rs => bytesOfWords (BitVec.ofNat 64 m :: rs.map PortRep.word)
  | .leave m => leBytes 8 m
  | .linkState m r => bytesOfWords [BitVec.ofNat 64 m, r.word]
  | .drained m c => bytesOfWords [BitVec.ofNat 64 m, BitVec.ofNat 64 c]
  | .switch c => leBytes 8 c
  | .fwChunk _ _ b => b
  | .fwAck _ _ => []
  | .link _ _ _ cs => leBytes 8 (mkFld 63 48 (cs.getD 0 0) ||| mkFld 47 32 (cs.getD 1 0) ||| mkFld 31 16 (cs.getD 2 0)
      ||| mkFld 15 0 (cs.getD 3 0)).toNat

/-- Payload bytes that a message carries. -/
def Body.payBytes (b : Body) : Nat := b.payload.length

/-! ### Words and flits -/

/-- NBYTES of H0 (R401, R404): the payload bytes, and for a READ the length read. -/
def Body.nbytes : Body → Nat
  | .read _ n => n
  | b => b.payBytes

/-- H0 (R401). -/
def Msg.h0 (m : Msg) : Word :=
  mkFld 63 62 m.body.vc ||| mkFld 61 56 m.body.code.2 ||| mkFld 55 44 m.dst ||| mkFld 43 32 m.src ||| mkFld 31 20 m.ctx
    ||| mkFld 19 7 m.body.nbytes ||| mkFld 6 0 m.tag

/-- Header words after H0: H1 of requests and responses, H1 and H2 of collective messages (R401), and H1 of management messages, where
FW_CHUNK, FW_ACK and LINK have fields (R404, R430). -/
def Msg.heads (m : Msg) : List Word :=
  let coll (d o c l off : Nat) : List Word :=
    [mkFld 63 57 m.scl ||| mkFld 56 41 d ||| mkFld 40 25 o ||| mkFld 24 13 c ||| mkFld 12 9 l, mkFld 51 0 off]
  match m.body with
  | .part d o c _ l v => coll d o c l v.off
  | .result d o c _ v => coll d o c 0 v.off
  | .carry d o _ l _ _ _ => coll d o 0 l 0
  | .count d o ph _ => coll d o ph 0 0
  | .fwChunk q i _ => [mkFld 63 32 q ||| mkFld 31 0 i]
  | .fwAck q i => [mkFld 63 32 q ||| mkFld 31 0 i]
  | .link a r q _ => [mkFld 63 48 a ||| mkFld 47 32 r ||| mkFld 31 31 (b2n q)]
  | b => [mkFld 63 57 m.scl ||| mkFld 51 0 b.addr]

/-- The words of a message: header, then the payload padded with zeros to whole words (R401). -/
def Msg.words (m : Msg) : List Word := m.h0 :: m.heads ++ wordsOfBytes m.body.payload

/-- Flits of a message (R401). A payload above 4,096 bytes, which only packets and management lists can have, stands for messages that
follow one another, of which one is on its way at a time (log 23). -/
def Msg.flits (m : Msg) : Nat := ceilDiv (1 + m.heads.length + ceilDiv (min 4096 m.body.payBytes) 8) 8

/-- A flit of eight data words and the word of their check bits, byte k for word k (R399). -/
def flitOf (ws : List Word) : List Word :=
  let ds := (List.range 8).map (wordAt ws)
  ds ++ [BitVec.ofNat 64 (ofLeBytes (ds.map Config.checkBits))]

/-- The flits of a message as a port sends them; the unused words of the last are 0 (R399, R401). -/
def Msg.stream (m : Msg) : List (List Word) := (chunks 8 m.words).map flitOf

/-- A collective message cut into messages of at most 4,096 payload bytes, each with its OFFSET (R401). -/
def Body.pieces : Body → List Body
  | .part d o c lo l v => (chunks 4096 v.bytes).zipIdx.map (fun p => .part d o c lo l ⟨v.off + 4096 * p.2, p.1⟩)
  | .result d o c r v => (chunks 4096 v.bytes).zipIdx.map (fun p => .result d o c r ⟨v.off + 4096 * p.2, p.1⟩)
  | b => [b]

/-! ## Ports -/

/-- Port states of R431. -/
inductive PortState where
  | down | training | up | mismatch | failed
  deriving DecidableEq, Repr

def PortState.code : PortState → Nat
  | .down => 0
  | .training => 1
  | .up => 2
  | .mismatch => 3
  | .failed => 4

/-- How far a training port is (R421). -/
inductive Train where
  | none | wordLock | screen
  deriving DecidableEq, Repr

/-- A port's transmit direction, which trains, spares and fails on its own (R396): the far end's lane screen has passed on eight lanes, and
the lane out of service, or 0xF. -/
structure TxDir where
  up : Bool
  outLane : Nat
  deriving DecidableEq, Repr

def TxDir.reset : TxDir := ⟨false, 0xF⟩

/-- One port (R396 to R400, R405, R421, R422, R431); the fields up to `corr` are those of its receive direction. -/
structure Port where
  st : PortState
  train : Train
  farModule : Nat
  farPort : Nat
  /-- the far end agrees with the map (R424) -/
  agreed : Bool
  spareUsed : Bool
  laneWorn : Bool
  outLane : Nat
  worstLane : Nat
  worstCorr : Nat
  replays : Nat
  corr : List Nat
  tx : TxDir
  /-- the worn lane of a swap in progress (R422) -/
  swap : Option Nat
  txSeq : Nat
  ackSeq : Nat
  rxSeq : Nat
  failSeq : Nat
  failRow : Nat
  credits : List Nat
  /-- messages sent and not acknowledged, each with the number of its first flit (R400) -/
  buffer : List (Nat × Msg)
  /-- credits of consumed flits that no LINK has returned yet, by channel (R404, R405) -/
  owed : List Nat
  /-- flits sent since the last LINK (R404) -/
  sinceLink : Nat
  /-- messages sent since the last management message, and the channel of the last other one (R407) -/
  sinceMgmt : Nat
  lastVc : Nat
  deriving DecidableEq, Repr

def Port.reset : Port :=
  { st := .down, train := .none, farModule := 0, farPort := 0, agreed := false, spareUsed := false, laneWorn := false, outLane := 0xF,
    worstLane := 0, worstCorr := 0, replays := 0, corr := List.replicate 9 0, tx := TxDir.reset, swap := none, txSeq := 0, ackSeq := 0, rxSeq := 0,
    failSeq := 0, failRow := 0, credits := [0, 0, 0, 0], buffer := [], owed := [0, 0, 0, 0], sinceLink := 0, sinceMgmt := 15, lastVc := 2 }

/-- Both directions carry words: the port is part of a link (R396, R408). -/
def Port.linked (p : Port) : Bool := p.st == .up && p.tx.up

/-- Buffer flits of the four channels (R405). -/
def vcBuffers : List Nat := [384, 256, 384, 64]

/-- Flits of the replay buffer (R400). -/
def replayFlits : Nat := 512

/-- Flits sent after number `n`, modulo 2^16. -/
def Port.flitsFrom (p : Port) (n : Nat) : Nat := (p.txSeq + 65536 - n % 65536) % 65536

/-- Flits sent and not acknowledged. -/
def Port.unacked (p : Port) : Nat := p.flitsFrom p.ackSeq

/-- Physical lanes of the eight logical lanes (R397): the lowest-numbered in service. -/
def lanesOf (outLane : Nat) : List Nat := ((List.range 9).filter (· != (if outLane = 0xF then 8 else outLane))).take 8
def Port.lanes (p : Port) : List Nat := lanesOf p.outLane

/-- The physical lanes that word `j` of the port's word stream travels on (R397), as it is received and as it is sent. -/
def Port.rxLane (p : Port) (j : Nat) : Nat := p.lanes.getD (j % 8) 0
def Port.txLane (p : Port) (j : Nat) : Nat := (lanesOf p.tx.outLane).getD (j % 8) 0

/-- HDG_PORT_STATUS (R431). -/
def Port.status (p : Port) : Word :=
  mkFld 63 60 p.st.code ||| mkFld 59 48 p.farModule ||| mkFld 47 42 p.farPort ||| mkFld 41 41 (b2n p.spareUsed)
    ||| mkFld 40 40 (b2n p.laneWorn) ||| mkFld 39 36 p.outLane ||| mkFld 35 32 p.worstLane ||| mkFld 31 16 (min p.worstCorr 0xFFFF)
    ||| mkFld 15 0 p.replays

/-- A port that starts to train (R421). -/
def Port.startTraining (_ : Port) : Port := { Port.reset with st := .training, train := .wordLock }

/-- Lanes of a direction that failed their screen. -/
def badLanes (passed : List Bool) (from' : Nat) (dflt : Bool) : List Nat := (List.range 9).filter (fun i => !(passed.getD (from' + i) dflt))

/-- A port whose screen is over (R396, R397, R421): its directions come up on the lanes that passed, or fail, each on its own; flit numbers
and credits start anew. `passed` tells of the nine lanes received, then of the nine lanes sent as the far end found them; a lane sent
that it does not mention has passed. -/
def Port.bringUp (p : Port) (passed : List Bool) : Port :=
  let bad := badLanes passed 0 false
  let badTx := badLanes passed 9 true
  { Port.reset with
    farModule := p.farModule, farPort := p.farPort, agreed := p.agreed
    st := if bad.length > 1 then .failed else .up
    spareUsed := bad.length ≤ 1 && bad.any (· < 8)
    outLane := if bad.length > 1 then 0xF else bad.getD 0 0xF
    tx := if badTx.length > 1 then TxDir.reset else ⟨true, badTx.getD 0 0xF⟩
    credits := if badTx.length > 1 then [0, 0, 0, 0] else vcBuffers }

/-- A port that goes down discards its replay buffer (R428). -/
def Port.goDown (_ : Port) : Port := Port.reset

/-- A port whose lanes have no engine left is FAILED (R502). -/
def Port.goFailed (_ : Port) : Port := { Port.reset with st := .failed }

/-- A swap ends once the replay buffer is empty: the spare carries the worn lane's words (R422). -/
def Port.settleSwap (p : Port) : Port :=
  match p.swap with
  | some w => if p.unacked = 0 then { p with swap := none, spareUsed := true, outLane := w } else p
  | none => p

/-- The end of a BER window with the counts of the nine lanes (R422): worn lanes, and the port with a swap begun or LANE_WORN set; a lane
found worn during another's swap sets LANE_WORN (R433). -/
def Port.berWindow (p : Port) (limit : Nat) : Port × List Nat :=
  let counts := p.corr
  let worst := (List.range 9).foldl (fun w i => if counts.getD i 0 > counts.getD w 0 then i else w) 0
  let worn := p.lanes.filter (fun i => counts.getD i 0 > limit)
  let p := { p with worstLane := worst, worstCorr := min (counts.getD worst 0) 0xFFFF, corr := List.replicate 9 0 }
  match worn with
  | [] => (p, [])
  | w :: ws => if p.spareUsed ∨ p.outLane != 0xF ∨ p.swap.isSome then ({ p with laneWorn := true }, w :: ws)
    else ((({ p with swap := some w, laneWorn := p.laneWorn || !ws.isEmpty } : Port).settleSwap), w :: ws)

/-- Messages that a LINK with acknowledge number `a` acknowledges leave the replay buffer (R400). -/
def Port.acked (p : Port) (a : Nat) : Port :=
  if p.unacked < p.flitsFrom a then p
  else ({ p with ackSeq := a % 65536, buffer := p.buffer.filter (fun e => decide (p.flitsFrom (e.1 + e.2.flits) < p.flitsFrom a)) } : Port).settleSwap

/-- Messages of the replay buffer that hold flit `n` or a later one: those that a replay from it sends again (R400). -/
def Port.replayed (p : Port) (n : Nat) : List Msg :=
  (p.buffer.filter (fun e => decide (p.flitsFrom (e.1 + e.2.flits) < p.flitsFrom n))).map (·.2)

/-! ## The live graph and routes -/

/-- A link of the live graph: two ends, each a module and a port. -/
structure Link where
  a : Nat
  pa : Nat
  b : Nat
  pb : Nat
  deriving DecidableEq, Repr

/-- Ends in a fixed order. -/
def Link.norm (l : Link) : Link := if l.b < l.a ∨ (l.a = l.b ∧ l.pb < l.pa) then ⟨l.b, l.pb, l.a, l.pa⟩ else l

abbrev Graph := List Link

def Graph.add (g : Graph) (l : Link) : Graph := if g.contains l.norm then g else g ++ [l.norm]
def Graph.del (g : Graph) (m p : Nat) : Graph := g.filter (fun l => !((l.a = m ∧ l.pa = p) ∨ (l.b = m ∧ l.pb = p)))
def Graph.delModule (g : Graph) (m : Nat) : Graph := g.filter (fun l => !(l.a = m ∨ l.b = m))

/-- Neighbours of a module, ascending, each once. -/
def Graph.nbrs (g : Graph) (x : Nat) : List Nat :=
  (sortBy (· ≤ ·) (g.filterMap (fun l => if l.a = x then some l.b else if l.b = x then some l.a else none))).dedup

/-- One more hop around a set of modules. -/
def Graph.grow (g : Graph) (s : List Nat) : List Nat := (sortBy (· ≤ ·) (s ++ s.flatMap g.nbrs)).dedup

/-- The connected part that holds a module. -/
def Graph.part (g : Graph) (x : Nat) : List Nat := (List.range (g.length + 1)).foldl (fun s _ => g.grow s) [x]

/-- The root of a module's part: its lowest number (R408). -/
def Graph.root (g : Graph) (x : Nat) : Nat := (g.part x).foldl min x

/-- Hop distance from `x` to `y`, searched up to `fuel` hops. -/
def Graph.dist (g : Graph) (y : Nat) : Nat → List Nat → Nat → Nat
  | 0, _, k => k
  | fuel + 1, s, k => if s.contains y then k else Graph.dist g y fuel (g.grow s) (k + 1)

/-- A module's level (R408). -/
def Graph.level (g : Graph) (x : Nat) : Nat := g.dist x (g.length + 1) [g.root x] 0

/-- The link from `x` to `y` is an up step (R408). -/
def Graph.upStep (g : Graph) (x y : Nat) : Bool :=
  g.level y < g.level x || (g.level y == g.level x && y < x)

/-- A module's links as its own report gives them. -/
def Graph.reps (g : Graph) (m : Nat) : List PortRep :=
  g.filterMap (fun l => if l.a = m then some ⟨l.pa, 2, l.b, l.pb, true, true⟩ else if l.b = m then some ⟨l.pb, 2, l.a, l.pa, true, true⟩ else none)

/-- Modules from which the destination is reached in exactly the layers counted: first by any up-then-down path, second by
down steps only. -/
def Graph.back (g : Graph) (l : List Nat × List Nat) : List Nat × List Nat :=
  let dn := (l.2.flatMap (fun y => (g.nbrs y).filter (fun x => !(g.upStep x y)))).dedup
  let up := ((l.1.flatMap (fun y => (g.nbrs y).filter (fun x => g.upStep x y))) ++ dn).dedup
  (up, dn)

/-- The layers of paths towards a destination, nearest first. -/
def Graph.layers (g : Graph) (dst : Nat) : Nat → List Nat × List Nat → List (List Nat × List Nat)
  | 0, _ => []
  | fuel + 1, l => l :: Graph.layers g dst fuel (g.back l)

/-- Next hop of the shortest up-then-down path; ties go to the lowest module number (R408). -/
def Graph.nextHop (g : Graph) (x dst : Nat) : Option Nat :=
  if x = dst then none else
  let ls := g.layers dst (g.length + 2) ([dst], [dst])
  match ls.findIdx? (fun l => l.1.contains x) with
  | none => none
  | some 0 => none
  | some (k + 1) =>
    let l := ls.getD k ([], [])
    (g.nbrs x).find? (fun y => if g.upStep x y then l.1.contains y else l.2.contains y)

def Graph.reaches (g : Graph) (x dst : Nat) : Bool := x == dst || (g.nextHop x dst).isSome

/-- A number that stands for a graph in DRAINED and SWITCH (R409; log 29): the CRC of its links in a fixed order. -/
def Graph.id (g : Graph) : Nat :=
  let code (l : Link) : Nat := ((l.a * 64 + l.pa) * 4096 + l.b) * 64 + l.pb
  (crc32c ((sortBy (· ≤ ·) (g.map code)).flatMap (leBytes 5))).toNat

/-! ## Fabric state -/

/-- Module states of HDG_STATUS (R431). -/
inductive FabState where
  | alone | joining | joined | leaving | removable
  deriving DecidableEq, Repr

def FabState.code : FabState → Nat
  | .alone => 0
  | .joining => 1
  | .joined => 2
  | .leaving => 3
  | .removable => 4

/-- An entry of the expected map (R423): module and port, far module and far port. -/
structure MapEnt where
  module : Nat
  port : Nat
  farModule : Nat
  farPort : Nat
  deriving DecidableEq, Repr

/-- The firmware broadcast in progress (R430): image sequence, targets by rank, chunks held in STAGE, and per chunk the
children that have not acknowledged. -/
structure Broadcast where
  seq : Nat
  /-- its targets are those of the hall -/
  hall : Bool
  targets : List Nat
  held : List Nat
  waiting : List (Nat × List Nat)
  acked : List Nat
  deriving DecidableEq, Repr

/-- A message that waits to leave: the port that it waits at, none while it has no route or may not be injected; whether it may leave by
that port only, as a flooded one; and the port that it arrived by, where it is being forwarded (R405, R407 to R409). -/
structure Wait where
  msg : Msg
  exit : Option Nat
  fixed : Bool
  came : Option Nat
  deriving DecidableEq, Repr

/-- The module's part in the fabric. -/
structure Fab where
  cfg : Word
  shadow : Word
  commitErr : Bool
  cmdErr : Bool
  state : FabState
  routeChanges : Nat
  badMsg : Nat
  ports : List Port
  engineFailed : List Bool
  /-- for each engine group, the engine whose lanes its spare has taken over (R398) -/
  engineSpare : List (Option Nat)
  /-- the newest graph known, and the graph whose routes are installed -/
  graph : Graph
  routes : Graph
  changing : Bool
  drained : List Nat
  /-- for each next hop, the port that took its last message (R408) -/
  turns : List (Nat × Nat)
  reports : List (Nat × List PortRep)
  bcast : Option Broadcast
  /-- messages that wait for their turn at a port, credits, replay space, a route or the end of a route change -/
  waiting : List Wait
  /-- ports at which a LINK message is due (R404) -/
  due : List Nat
  /-- messages sent, oldest first: the port, or none for the module itself (log 13) -/
  sent : List (Option Nat × Msg)
  deriving DecidableEq, Repr

/-- COLL_MS 2,000, BER_EXP 40, BER_WIN_S 60, REPLAY_MAX 8 (R431). -/
def hdgCfgDefault : Word := mkFld 63 43 2000 ||| mkFld 39 32 40 ||| mkFld 31 24 60 ||| mkFld 23 16 8
def hdgCfgMask : Word := mkFld 63 43 0x1FFFFF ||| mkFld 39 16 0xFFFFFF

/-- The bounds of R431. -/
def hdgCfgOk (w : Word) : Bool :=
  1 ≤ fld w 63 43 && fld w 63 43 ≤ 2000000 && 30 ≤ fld w 39 32 && fld w 39 32 ≤ 50 && 1 ≤ fld w 31 24
    && 1 ≤ fld w 23 16 && fld w 23 16 ≤ 64

def Fab.reset : Fab :=
  { cfg := hdgCfgDefault, shadow := hdgCfgDefault, commitErr := false, cmdErr := false, state := .alone, routeChanges := 0,
    badMsg := 0, ports := List.replicate 48 Port.reset, engineFailed := List.replicate 24 false,
    engineSpare := [none, none], graph := [], routes := [], changing := false, drained := [], turns := [],
    reports := [], bcast := none, waiting := [], due := [], sent := [] }

def Fab.port (f : Fab) (p : Nat) : Port := f.ports.getD p Port.reset
def Fab.portsUp (f : Fab) : Nat := (f.ports.filter (fun p => p.st = .up)).length

/-- HDG_STATUS (R431). -/
def Fab.status (f : Fab) (module : Nat) : Word :=
  mkFld 63 63 (b2n f.commitErr) ||| mkFld 62 62 (b2n f.cmdErr) ||| mkFld 61 59 f.state.code ||| mkFld 51 40 module
    ||| mkFld 39 32 f.portsUp ||| mkFld 31 16 f.routeChanges ||| mkFld 15 0 f.badMsg

/-- Ports that lead to a neighbour, ascending. -/
def Fab.portsTo (f : Fab) (y : Nat) : List Nat :=
  (List.range 48).filter (fun p => (f.port p).linked ∧ (f.port p).farModule = y)

/-- The port takes a message: its flits are numbered and kept for a replay, and their credits are used (R399, R400, R405). LINK needs no
credit, and has no part in the turns. -/
def Port.take (p : Port) (m : Msg) : Port :=
  let n := m.flits
  let q := { p with txSeq := (p.txSeq + n) % 65536, buffer := p.buffer ++ [(p.txSeq, m)] }
  if m.body.isLink then { q with owed := [0, 0, 0, 0], sinceLink := 0 }
  else { q with
    sinceLink := p.sinceLink + n, credits := p.credits.set m.body.vc (p.credits.getD m.body.vc 0 - n)
    sinceMgmt := if m.body.vc = 3 then 0 else min 15 (p.sinceMgmt + 1), lastVc := if m.body.vc = 3 then p.lastVc else m.body.vc }

/-- The port has credits and replay space for a message, and no swap withholds it (R400, R405, R422). -/
def Port.canTake (p : Port) (m : Msg) : Bool :=
  p.linked && p.swap.isNone && p.credits.getD m.body.vc 0 ≥ m.flits && p.unacked + m.flits ≤ replayFlits

/-- A LINK message leaves by a port: what it has received, and the credits that it owes (R404); a full replay buffer makes it wait. -/
def Fab.link (f : Fab) (me p : Nat) (req : Bool) : Fab :=
  let q := f.port p
  if !q.linked then { f with due := f.due.filter (· ≠ p) }
  else if q.unacked + 1 > replayFlits then { f with due := p :: f.due.filter (· ≠ p) }
  else
    let m : Msg := ⟨q.farModule, me, 0, 0, 0, .link q.rxSeq q.rxSeq req q.owed⟩
    { f with ports := updAt f.ports p (fun q => q.take m), due := f.due.filter (· ≠ p), sent := f.sent ++ [(some p, m)] }

/-- A message leaves by a port; a LINK goes before it where 128 flits would else leave without one (R404). -/
def Fab.sendPort (f : Fab) (me p : Nat) (m : Msg) : Fab :=
  let f := if (f.port p).sinceLink + m.flits > 127 then f.link me p false else f
  { f with ports := updAt f.ports p (fun q => q.take m), sent := f.sent ++ [(some p, m)] }

/-- A port owes the credits of a message that has been consumed, and a LINK that returns them (R404, R405). -/
def Fab.owe (f : Fab) (p : Nat) (m : Msg) : Fab :=
  if m.body.isLink then f
  else { f with
    ports := updAt f.ports p (fun q => { q with owed := q.owed.set m.body.vc (q.owed.getD m.body.vc 0 + m.flits) })
    due := p :: f.due.filter (· ≠ p) }

/-- The next hop of a message (R408, R409). During a route change requests and collectives of this module are not injected, and management
messages go by the newest graph (log 29). -/
def Fab.hop (f : Fab) (me : Nat) (m : Msg) : Option Nat :=
  if f.changing ∧ m.src = me ∧ (m.body.vc = 0 ∨ m.body.vc = 2) then none
  else (if f.changing ∧ m.body.vc = 3 then f.graph else f.routes).nextHop me m.dst

/-- A port towards a module has a credit of the channel; where no route leads there, no port holds the entry back (R123; log 43). -/
def Fab.hasCredit (f : Fab) (me dst vc : Nat) : Bool :=
  match f.routes.nextHop me dst with
  | some y => (f.portsTo y).any (fun p => 0 < (f.port p).credits.getD vc 0)
  | none => true

/-- The port for the next message to a neighbour: the ports to it take turns (R408). -/
def Fab.nextPort (f : Fab) (y : Nat) : Option Nat :=
  let ps := f.portsTo y
  match assoc f.turns y with
  | some t => (ps.find? (fun p => t < p)).or ps.head?
  | none => ps.head?

/-- A waiting message takes its place at a port: it keeps one that still leads to its next hop, and else the next in turn takes it. A
flooded message whose port is gone is dropped (R428). -/
def Fab.place (me : Nat) (f : Fab) (w : Wait) : Fab :=
  if w.fixed then (if w.exit.any (fun p => (f.port p).linked) then { f with waiting := f.waiting ++ [w] } else f)
  else
    match f.hop me w.msg with
    | none => { f with waiting := f.waiting ++ [{ w with exit := none }] }
    | some y =>
      if w.exit.any (fun p => (f.port p).linked && (f.port p).farModule == y) then { f with waiting := f.waiting ++ [w] }
      else
        match f.nextPort y with
        | none => { f with waiting := f.waiting ++ [{ w with exit := none }] }
        | some p => { f with waiting := f.waiting ++ [{ w with exit := some p }], turns := assocSet f.turns y p }

/-- The waiting message that a port sends at a message boundary (R407): a management message first, but one in 16 at most while another
channel has a message waiting; request, response and collective in turn; oldest first within a channel. -/
def Port.choose (q : Port) (ms : List Wait) : Option Wait :=
  let oldest (v : Nat) : Option Wait := ms.find? (fun w => w.msg.body.vc = v)
  let ready (v : Nat) : Option Wait := (oldest v).filter (fun w => q.canTake w.msg)
  let data := ([1, 2, 3].map (fun k => (q.lastVc + k) % 3)).findSome? ready
  if 15 ≤ q.sinceMgmt || ms.all (fun w => w.msg.body.vc = 3) then (ready 3).or data else data

/-- One waiting message sent, and the credits of its flits owed to the port that it came by: the lowest-numbered port that can send one. -/
def Fab.retryOne (f : Fab) (me : Nat) : Option Fab :=
  match ((sortBy (· ≤ ·) (f.waiting.filterMap (·.exit))).dedup).findSome? (fun p =>
      ((f.port p).choose (f.waiting.filter (fun w => w.exit = some p))).map (fun w => (p, w))) with
  | none => none
  | some x =>
    let g := ({ f with waiting := f.waiting.erase x.2 } : Fab).sendPort me x.1 x.2.msg
    some (match x.2.came with | some q => g.owe q x.2.msg | none => g)

/-- Messages that wait are sent while ports have room for them. -/
def Fab.retryAll (me : Nat) : Nat → Fab → Fab
  | 0, f => f
  | n + 1, f => match f.retryOne me with | some g => Fab.retryAll me n g | none => f

/-- Waiting messages take their places, ports send what they can, and LINK messages that are due go out. -/
def Fab.retry (f : Fab) (me : Nat) : Fab :=
  let f := f.waiting.foldl (Fab.place me) { f with waiting := [] }
  let f := Fab.retryAll me f.waiting.length f
  f.due.foldl (fun f p => f.link me p false) f

/-- A message injected or forwarded, `came` by a port: to the module itself over the carrier links, else through its port's turns. -/
def Fab.inject (f : Fab) (me : Nat) (m : Msg) (came : Option Nat) : Fab :=
  if m.dst = me then { f with sent := f.sent ++ [(none, m)] }
  else ({ f with waiting := f.waiting ++ [⟨m, none, false, came⟩] } : Fab).retry me

def Fab.send (f : Fab) (me : Nat) (m : Msg) : Fab := f.inject me m none

/-- A message flooded to every neighbour over one port each, but for the neighbour it came from (R409). -/
def Fab.flood (f : Fab) (me : Nat) (except : Option Nat) (b : Body) : Fab :=
  let ns := (sortBy (· ≤ ·) ((List.range 48).filterMap (fun p => let q := f.port p; if q.linked then some q.farModule else none))).dedup
  let ws := (ns.filter (fun y => some y ≠ except)).filterMap (fun y =>
    (f.portsTo y)[0]?.map (fun p => (⟨⟨y, me, 0, 0, 0, b⟩, some p, true, none⟩ : Wait)))
  ({ f with waiting := f.waiting ++ ws } : Fab).retry me

/-- The module's own port states, for JOIN and TOPO_REPORT. -/
def Fab.portReps (f : Fab) : List PortRep :=
  f.ports.zipIdx.map (fun p => ⟨p.2, p.1.st.code, p.1.farModule, p.1.farPort, p.1.linked, p.1.agreed⟩)

/-- Links that a list of port states gives for a module. -/
def repLinks (module : Nat) (reps : List PortRep) : List Link :=
  (reps.filter (fun r => r.linked)).map (fun r => ⟨module, r.port, r.farModule, r.farPort⟩)

/-- A route change begins, or a change joins the one in progress (R409). -/
def Fab.startChange (f : Fab) (g : Graph) : Fab :=
  { f with graph := g, changing := true, drained := [],
           routeChanges := satAdd 16 f.routeChanges (b2n (!f.changing)) }

/-- SWITCH: the new routes, and injection resumes (R409); a leaving module that the new graph excludes is REMOVABLE (R427). -/
def Fab.switch (f : Fab) (me : Nat) : Fab :=
  let f := { f with routes := f.graph, changing := false, drained := [] }
  let f := match f.state with
    | .joining | .alone => { f with state := .joined }
    | .leaving => if (f.routes.nbrs me).isEmpty then { f with state := .removable } else f
    | _ => f
  f.retry me

/-- Children of a rank in the firmware tree of `n` targets (R430). -/
def fwChildren (n r : Nat) : List Nat :=
  ((List.range 13).map (fun k => 2 ^ k)).filterMap (fun k => if k > r ∧ r + k < n then some (r + k) else none)

/-- The rank that a rank receives from: its highest set bit cleared. -/
def fwParent (r : Nat) : Nat := if r = 0 then 0 else r - 2 ^ Nat.log2 r

/-- HDG_TOPO at the entry module (R425, R431): `expected` modules of the domain, `links` expected among them. No link is missing
before the first report. -/
def Fab.topo (f : Fab) (expected links : Nat) : Word :=
  let mods := f.reports.map (·.1)
  let ups := ((f.reports.flatMap (fun r => repLinks r.1 r.2)).map Link.norm).dedup.length
  let mism := sumNat (f.reports.map (fun r => (r.2.filter (fun p => p.state = 3)).length))
  let present := (f.reports.filter (fun r => r.2.any (fun p => p.agrees))).length
  mkFld 63 57 expected ||| mkFld 56 50 present ||| mkFld 49 49 (b2n (mods.length != mods.dedup.length))
    ||| mkFld 35 24 (if f.reports.isEmpty then 0 else links - ups) ||| mkFld 23 12 mism

end Sys2Proof.Machine
end

