-- ==== Sys2Proof/Machine/Counters.lean ====
section
/-!
DEFINITION. Performance counters: blocks and words (R523 to R527), threshold words (R528, R529), dump records (R532, R533)
and trace records (R534 to R536). The Derailleur's pace strokes are its issue decisions; pace strokes of other units come with the
findings of the commands (log 26).
-/

namespace Sys2Proof.Machine

/-- A count raised modulo 2^56 (R523). -/
def addCount (l : List Nat) (w n : Nat) : List Nat := updAt l w (fun c => (c + n) % 2 ^ 56)

/-- Several counts of a block raised. -/
def addCounts (l : List Nat) (ws : List (Nat × Nat)) : List Nat := ws.foldl (fun l p => addCount l p.1 p.2) l

/-! ## Words of a cluster block (R526) -/

def ctTile (t w : Nat) : Nat := 8 * t + w
def ctIssued : Nat := 65
def ctCompleted : Nat := 66
def ctReordered : Nat := 73
def ctOutcomes : Nat := 74
def ctBlocks : Nat := 80
def ctBeats : Nat := 81
def ctFlagged : Nat := 82
def ctTopFore : Nat := 85
def ctTopBack : Nat := 86
def ctPipe : Nat := 88
def ctCoded : Nat := 89
def ctRestarts : Nat := 90
def ctFetchRead : Nat := 94
def ctFetchWritten : Nat := 95
def ctFetchReq : Nat := 96
def ctChecker : Nat := 97
def ctMsgSent : Nat := 101
def ctBytesSent : Nat := 102
def ctMsgRecv : Nat := 103
def ctBytesRecv : Nat := 104
def ctCollectives : Nat := 106
def ctExchanges : Nat := 107
def ctSignals : Nat := 108
def ctHeldSignals : Nat := 109
def ctTagged : Nat := 120
def ctTraceWritten : Nat := 121

/-- Words of a cluster block that count pace strokes of units other than the Derailleur, in a class of their own or over a
threshold (R522, R526, R528): the model takes them as findings (log 26). -/
def isPaceWord (w : Nat) : Bool :=
  (w < 64 && [0, 3, 4].contains (w % 8)) || [76, 78, 79, 84, 87, 92, 93, 100, 105].contains w || (112 ≤ w && w < 120)

/-- Words of a chiplet block that count pace strokes of its arbiters, carrier links and ports, or strokes over a threshold (R527, R528):
findings likewise. -/
def isChipPace (w : Nat) : Bool :=
  (w < 12 && w % 4 == 3) || w == 18 || w == 19 || (24 ≤ w && w < 96 && 4 ≤ (w - 24) % 12 && (w - 24) % 12 < 8) || (96 ≤ w && w < 112)

/-! ## Words of the hub block and of a chiplet block (R527) -/

def chPackets : Nat := 1
def chPayload : Nat := 2
def chCompletions : Nat := 3
def chCrcFails : Nat := 4
def chDbErrs : Nat := 8
def chBarReads : Nat := 9
def chBarWrites : Nat := 10
def chMgmt : Nat := 11
def chFwChunks : Nat := 12
def cpCorrected (s : Nat) : Nat := 4 * s + 2
def cpPort (j w : Nat) : Nat := 24 + 12 * j + w

/-! ## Threshold words (R528, R529) -/

/-- Depth of the queue that a threshold word names, where its kind of unit takes the code and SEL is in range. -/
def thrDepth (kind : Nat) (queue sel : Nat) : Option Nat :=
  match kind, queue with
  | 0, 0x01 => if sel = 0 then some 32 else none
  | 0, 0x02 => if sel = 0 then some 4 else none
  | 0, 0x03 => if sel = 0 then some 16 else none
  | 0, 0x04 => if sel = 0 then some 2 else none
  | 0, 0x05 => if sel = 0 then some 16 else none
  | 0, 0x06 => if sel = 0 then some 64 else none
  | 0, 0x07 => if sel = 0 then some 64 else none
  | 0, 0x08 => if sel = 0 then some 16 else none
  | 1, 0x10 => if sel < 24 then vcBuffers[sel % 4]? else none
  | 1, 0x11 => if sel < 3 then some 18 else none
  | 1, 0x12 => if sel = 0 then some 64 else none
  | 2, 0x20 => if sel = 0 then some 4096 else none
  | 2, 0x21 => if sel = 0 then some 64 else none
  | _, _ => none

/-- A threshold word that a commit takes; kind 0 cluster, 1 chiplet, 2 hub. The word at start, all 0, passes. -/
def thrOk (kind : Nat) (w : Word) : Bool :=
  w == 0 || (match thrDepth kind (fld w 47 40) (fld w 39 32) with
    | some d => fld w 15 0 < d
    | none => false)

def thrMask : Word := mkFld 63 63 1 ||| mkFld 47 32 0xFFFF ||| mkFld 15 0 0xFFFF
def tagMask : Word := mkFld 63 63 1 ||| mkFld 62 53 0x3FF ||| mkFld 31 0 0xFFFFFFFF
def traceMask : Word := mkFld 51 0 0xFFFFFFFFFFFFF

/-- CTR_TAG at start: TAG_SHIFT 8, TRACE_LOG2 12 (R534). -/
def tagDefault : Word := mkFld 62 58 8 ||| mkFld 57 53 12

/-- Bounds of CTR_TAG. -/
def tagOk (w : Word) : Bool := fld w 62 58 ≤ 24 && 8 ≤ fld w 57 53 && fld w 57 53 ≤ 20

/-- The words of group CTRC of a cluster. -/
structure Ctrc where
  thr : List Word
  tag : Word
  base : Word
  deriving DecidableEq, Repr

def Ctrc.reset : Ctrc := { thr := List.replicate 4 0, tag := tagDefault, base := 0 }

/-- The trace ring lies within one of the regions given (R534). A ring that is off needs none. -/
def Ctrc.ok (c : Ctrc) (regions : List Region) : Bool :=
  c.thr.all (thrOk 0) && tagOk c.tag && fld c.base 11 0 == 0
    && (!(bit c.tag 63) || regions.any (fun r => r.holds c.base.toNat (32 * 2 ^ fld c.tag 57 53)))

/-- Word `k` of group CTRC, in the order of R525. -/
def Ctrc.get (c : Ctrc) (k : Nat) : Word :=
  if k < 4 then c.thr.getD k 0 else if k = 4 then c.tag else if k = 5 then c.base else 0

def Ctrc.set (c : Ctrc) (k : Nat) (v : Word) : Ctrc :=
  if k < 4 then { c with thr := c.thr.set k (v &&& thrMask) }
  else if k = 4 then { c with tag := v &&& tagMask }
  else if k = 5 then { c with base := v &&& traceMask }
  else c

/-! ## Tagging and traces -/

/-- The `n`-th entry issued after RUN is tagged (R534). -/
def tagged (tag : Word) (l n : Nat) : Bool :=
  let sh := fld tag 62 58
  bit tag 63 && (sh == 0 ||
    fld (mix (BitVec.ofNat 64 (fld tag 31 0) ^^^ BitVec.ofNat 64 (l * 2 ^ 56) ^^^ BitVec.ofNat 64 n)) 63 (64 - sh) == 0)

/-- A trace record (R535). TALLY reads the PACE count of the block. -/
def traceRecord (entry opcode event unit ltile seq : Nat) (tally : Nat) (detail step : Word) : List Byte :=
  leBytes 8 (mkFld 63 48 entry ||| mkFld 47 40 opcode ||| mkFld 39 36 event ||| mkFld 35 32 unit ||| mkFld 31 29 ltile
      ||| mkFld 15 0 seq).toNat
    ++ leBytes 8 (tally % 2 ^ 56) ++ leBytes 8 detail.toNat ++ leBytes 8 step.toNat

/-- Address of trace record `n` (R534). -/
def traceAddr (c : Ctrc) (n : Nat) : Nat := c.base.toNat + 32 * (n % 2 ^ fld c.tag 57 53)

/-! ## Module words -/

/-- Counters and counter words of the module (R525 to R532). -/
structure Ctr where
  chip : List (List Nat)
  hub : List Nat
  cfg : Word
  shadow : Word
  dumpBase : Word
  dumpShadow : Word
  thrChip : List (List Word)
  thrChipSh : List (List Word)
  thrHub : List Word
  thrHubSh : List Word
  commitErr : Bool
  cmdErr : Bool
  dumpMissed : Nat
  dumps : Nat
  clear : Bool
  /-- for each threshold unit of the hub, occupancy was above N at the last pace stroke (R528) -/
  above : List Bool
  deriving DecidableEq, Repr

/-- CTR_CFG: DUMP_EN 0, DUMP_SLOTS 16, DUMP_MS 1,000. -/
def ctrCfgDefault : Word := mkFld 55 48 16 ||| mkFld 31 0 1000
def ctrCfgMask : Word := mkFld 63 63 1 ||| mkFld 55 48 0xFF ||| mkFld 31 0 0xFFFFFFFF
def ctrCfgOk (w : Word) : Bool := 1 ≤ fld w 55 48 && 1 ≤ fld w 31 0

/-- A flash value of CTR_DUMP_BASE: 0x40 in the module field, HDM offset 0xF_0000_0000 (log 2). -/
def dumpBaseDefault : Word := mkFld 63 52 0x040 ||| BitVec.ofNat 64 (hdmLocal 0xF00000000)

def Ctr.reset : Ctr :=
  { chip := List.replicate 8 (List.replicate 128 0), hub := List.replicate 64 0, cfg := ctrCfgDefault,
    shadow := ctrCfgDefault, dumpBase := dumpBaseDefault, dumpShadow := dumpBaseDefault,
    thrChip := List.replicate 8 (List.replicate 8 0), thrChipSh := List.replicate 8 (List.replicate 8 0),
    thrHub := List.replicate 8 0, thrHubSh := List.replicate 8 0, commitErr := false, cmdErr := false, 
    dumpMissed := 0, dumps := 0, clear := false, above := List.replicate 8 false }

/-- CTR_STATUS (R532). -/
def Ctr.status (c : Ctr) (busy : Bool) : Word :=
  mkFld 63 63 (b2n c.commitErr) ||| mkFld 62 62 (b2n c.cmdErr) ||| mkFld 61 61 (b2n busy)
    ||| mkFld 47 32 c.dumpMissed ||| mkFld 31 0 c.dumps

/-- Check of the dump ring's place: aligned to 256 KiB, and within the HDM host area of the entry module (R532). -/
def dumpBaseOk (entry : Nat) (slots : Nat) (w : Word) : Bool :=
  let a := fld w 51 0
  fld w 17 0 == 0 && fld w 63 52 == entry && inHdm a && 0x10000000 ≤ hdmOffset a
    && hdmOffset a + slots * 0x40000 ≤ hdmBytes && a / chipStride == (a + slots * 0x40000 - 1) / chipStride

/-- The CTR group's check (R529, R532); the regions are those of the jobs loaded. -/
def Ctr.ok (c : Ctr) (entry : Nat) (regions : List Region) : Bool :=
  let slots := fld c.shadow 55 48
  let a := fld c.dumpShadow 51 0
  ctrCfgOk c.shadow && dumpBaseOk entry slots c.dumpShadow
    && !(regions.any (fun r => r.base < a + slots * 0x40000 && a < r.base + r.bytes))
    && c.thrChipSh.all (fun l => l.all (thrOk 1)) && c.thrHubSh.all (thrOk 2)

/-- A commit of group CTR (R140). -/
def Ctr.commit (c : Ctr) (entry : Nat) (regions : List Region) : Ctr :=
  if c.ok entry regions then
    { c with cfg := c.shadow, dumpBase := c.dumpShadow, thrChip := c.thrChipSh, thrHub := c.thrHubSh }
  else { c with commitErr := true }

/-- A port's count raised in its chiplet's block. -/
def Ctr.port (c : Ctr) (p w n : Nat) : Ctr := { c with chip := updAt c.chip (p / 6) (fun b => addCount b (cpPort (p % 6) w) n) }

/-- A word of a chiplet's block raised. -/
def Ctr.chipAdd (c : Ctr) (k w n : Nat) : Ctr := { c with chip := updAt c.chip k (fun b => addCount b w n) }

def Ctr.hubAdd (c : Ctr) (w n : Nat) : Ctr := { c with hub := addCount c.hub w n }

/-- The words of a dump record (R533). -/
def dumpRecord (snapId module : Nat) (domain cleared : Bool) (busy : List Bool) (cl chip : List (List Nat))
    (hub : List Nat) : List Byte :=
  let b (k : Nat) : Nat := sumNat ((List.range 64).map (fun i => if busy.getD (64 * k + i) false then 2 ^ i else 0))
  leBytes 8 (mkFld 63 32 snapId ||| mkFld 31 20 module ||| mkFld 19 19 (b2n domain) ||| mkFld 18 18 (b2n cleared)).toNat
    ++ leBytes 8 (b 0) ++ leBytes 8 (b 1) ++ leBytes 40 0
    ++ cl.flatMap (fun l => l.flatMap (leBytes 8)) ++ chip.flatMap (fun l => l.flatMap (leBytes 8)) ++ hub.flatMap (leBytes 8)

end Sys2Proof.Machine
end

