-- ==== Sys2Proof/Machine/Collective.lean ====
section
/-!
DEFINITION. A collective on one member (R414 to R419): leaves, nodes of the fixed tree, partial values, results and the
carry, as pure steps that say what is sent.
-/

namespace Sys2Proof.Machine

/-- A segment of a sum; none where its exponent left the range, so that it is not written (R59; log 38). -/
abbrev OSeg := Option Seg

/-- Values of a chunk: F32, A64 pairs, or BX48 rows of segments (R416). -/
inductive CVals where
  | f32 (l : List F32)
  | a64 (l : List A64)
  | bx (l : List (List OSeg))
  deriving DecidableEq, Repr

def zipW {α : Type} (f : α → α → α) (a b : List α) : List α := List.zipWith f a b

/-- Exact sum of two BX48 rows, each segment written by R58 with RNE (R416), or not written by R59. -/
def bxAddRow (a b : List OSeg) : List OSeg :=
  List.zipWith (fun x y =>
    match x, y with
    | some x, some y =>
      (match bxWriteVals .rne ((List.range 64).map (fun j => (x.elem j).add (y.elem j))) with
      | .ok g => some g
      | .range _ => none)
    | _, _ => none) a b

/-- A segment as messages carry it: one that is not written is marked in its reserved bits (DESIGN CHOICE, log 38). -/
def OSeg.toBytes : OSeg → List Byte
  | some g => g.toBytes
  | none => leBytes 384 0 ++ leBytes 8 0x18000

def OSeg.ofBytes (bs : List Byte) : OSeg := if ofLeBytes (bs.drop 384) = 0x18000 then none else some (Seg.ofBytes bs)

/-- combine of R416 for SUM and SCATTER_SUM (1, 6), MAX (3) and MIN (4). -/
def CVals.combine (op : Nat) (a b : CVals) : CVals :=
  match a, b with
  | .f32 x, .f32 y => .f32 (zipW (if op = 3 then Fp.max else if op = 4 then Fp.min else Fp.add) x y)
  | .a64 x, .a64 y => .a64 (zipW A64.combine x y)
  | .bx x, .bx y => .bx (List.zipWith bxAddRow x y)
  | x, _ => x

/-- The bytes of a chunk's values as a PART carries them: pairs travel as hi then lo. -/
def CVals.toBytes : CVals → List Byte
  | .f32 l => l.flatMap (fun x => leBytes 4 x.toNat)
  | .a64 l => l.flatMap (fun p => leBytes 4 p.hi.toNat ++ leBytes 4 p.lo.toNat)
  | .bx l => l.flatMap (fun r => r.flatMap OSeg.toBytes)

def f32sOfBytes (bs : List Byte) : List F32 := (chunks 4 bs).map (fun c => BitVec.ofNat 32 (ofLeBytes c))

/-- Values read back, of the kind that the leaf has. -/
def CVals.ofBytes (like : CVals) (bs : List Byte) : CVals :=
  match like with
  | .f32 _ => .f32 (f32sOfBytes bs)
  | .a64 _ => .a64 ((chunks 8 bs).map (fun c =>
      ⟨BitVec.ofNat 32 (ofLeBytes (c.take 4)), BitVec.ofNat 32 (ofLeBytes (c.drop 4))⟩))
  | .bx rows =>
    let per := (rows.headD []).length
    .bx ((chunks (max 1 per) (chunks 392 bs)).map (fun r => r.map OSeg.ofBytes))

/-- The result values that OPD takes: hi of pairs (R416). -/
def CVals.final : CVals → CVals
  | .a64 l => .f32 (l.map (·.hi))
  | v => v

/-- The carry of R418: non-finite bit and largest magnitudes. -/
structure Carry where
  nf : Bool
  amax : List Nat
  deriving DecidableEq, Repr

def Carry.combine (a b : Carry) : Carry := ⟨a.nf || b.nf, List.zipWith max a.amax b.amax⟩

/-- A collective in progress on a cluster (R414 to R419). -/
structure Coll where
  entry : Nat
  desc : Nat
  occ : Nat
  op : Nat
  rank : Nat
  members : List Nat
  /-- chunks that hold rows -/
  live : List Nat
  leaves : List (Nat × CVals)
  nodes : List ((Nat × Nat × Nat) × CVals)
  results : List (Nat × List Byte)
  carries : List ((Nat × Nat) × Carry)
  /-- parts of values that have not come whole (R401): whether of a result, chunk, first rank and level -/
  parts : List ((Bool × Nat × Nat × Nat) × List Piece)
  needCarry : Bool
  carryDone : Option Carry
  deriving DecidableEq, Repr

def Coll.n (c : Coll) : Nat := c.members.length
def Coll.top (c : Coll) : Nat := clog2 c.n

/-- The value of a node that this member holds: its own leaf, a node that it computed, or a partial value received. -/
def Coll.node (c : Coll) (chunk lo level : Nat) : Option CVals := assoc c.nodes (chunk, lo, level)

/-- The rank at which a node's value stands: a leaf at its member, a node that passes up at its child's rank, another at
its host (R415). -/
def nodeRank (n chunk : Nat) : Nat → Nat → Nat
  | lo, 0 => lo
  | lo, level + 1 => if lo + 2 ^ level ≥ n then nodeRank n chunk lo level else treeHost n chunk lo

/-- Nodes of level `l` of the tree. -/
def nodesAt (n l : Nat) : List Nat := ((List.range (ceilDiv n (2 ^ l))).map (fun k => k * 2 ^ l))

/-- One node tried: combined where this member hosts it and holds both operands, or passed up. -/
def Coll.tryNode (c : Coll) (chunk level lo : Nat) : Coll :=
  if (c.node chunk lo (level + 1)).isSome then c
  else
    let mid := lo + 2 ^ level
    if mid ≥ c.n then
      match c.node chunk lo level with
      | some v => { c with nodes := ((chunk, lo, level + 1), v) :: c.nodes }
      | none => c
    else if treeHost c.n chunk lo = c.rank then
      match c.node chunk lo level, c.node chunk mid level with
      | some a, some b => { c with nodes := ((chunk, lo, level + 1), CVals.combine c.op a b) :: c.nodes }
      | _, _ => c
    else c

/-- All nodes tried, level by level. -/
def Coll.advance (c : Coll) : Coll :=
  c.live.foldl (fun c chunk => (List.range c.top).foldl (fun c l =>
    (nodesAt c.n (l + 1)).foldl (fun c lo => c.tryNode chunk l lo) c) c) c

/-- Carry nodes on chunk 0's tree. -/
def Coll.tryCarry (c : Coll) (level lo : Nat) : Coll :=
  if (assoc c.carries (lo, level + 1)).isSome then c
  else
    let mid := lo + 2 ^ level
    if mid ≥ c.n then
      match assoc c.carries (lo, level) with
      | some v => { c with carries := ((lo, level + 1), v) :: c.carries }
      | none => c
    else if treeHost c.n 0 lo = c.rank then
      match assoc c.carries (lo, level), assoc c.carries (mid, level) with
      | some a, some b => { c with carries := ((lo, level + 1), a.combine b) :: c.carries }
      | _, _ => c
    else c

def Coll.advanceCarry (c : Coll) : Coll :=
  if !c.needCarry then c else
  (List.range c.top).foldl (fun c l => (nodesAt c.n (l + 1)).foldl (fun c lo => c.tryCarry l lo) c) c

/-- The rank that a node's value travels to: the host of the parent that combines it; the node's own rank where nothing
combines it above. -/
def Coll.goesTo (c : Coll) (chunk : Nat) : Nat → Nat → Nat → Nat
  | 0, lo, level => nodeRank c.n chunk lo level
  | fuel + 1, lo, level =>
    let p := treeParent lo level
    if level ≥ c.top then nodeRank c.n chunk lo level
    else if p.1 + 2 ^ level ≥ c.n then c.goesTo chunk fuel p.1 p.2
    else treeHost c.n chunk p.1

/-- The level at which a value that passes up enters its combining parent. -/
def Coll.sendLevel (c : Coll) : Nat → Nat → Nat → Nat
  | 0, _, level => level
  | fuel + 1, lo, level =>
    let p := treeParent lo level
    if level ≥ c.top then level
    else if p.1 + 2 ^ level ≥ c.n then c.sendLevel fuel p.1 p.2
    else level

/-- Partial values that a new node sends: to the host of its parent, where that is another member. -/
def Coll.partsOf (c : Coll) (key : Nat × Nat × Nat) (v : CVals) : List (Nat × Body) :=
  let lo := key.2.1
  let lev := c.sendLevel 13 lo key.2.2
  let host := c.goesTo key.1 13 lo key.2.2
  if nodeRank c.n key.1 lo key.2.2 ≠ c.rank ∨ host = c.rank ∨ key.2.2 ≠ lev ∨ key.2.2 ≥ c.top then []
  else [(host, .part c.desc c.occ key.1 lo lev ⟨0, v.toBytes⟩)]

/-- Carries that a new node sends. -/
def Coll.carryOf (c : Coll) (key : Nat × Nat) (v : Carry) : List (Nat × Body) :=
  let lev := c.sendLevel 13 key.1 key.2
  let host := c.goesTo 0 13 key.1 key.2
  if nodeRank c.n 0 key.1 key.2 ≠ c.rank ∨ host = c.rank ∨ key.2 ≠ lev ∨ key.2 ≥ c.top then []
  else [(host, .carry c.desc c.occ key.1 lev v.nf v.amax false)]

/-- Results of chunks whose root this member has just formed: to every other member in ascending rank (R415); none for
SCATTER_SUM (R417). -/
def Coll.resultsOf (c : Coll) (key : Nat × Nat × Nat) (v : CVals) : List (Nat × Body) :=
  if key.2 = (0, c.top) ∧ c.op ≠ 6 ∧ nodeRank c.n key.1 0 c.top = c.rank then
    ((List.range c.n).filter (· ≠ c.rank)).map (fun r => (r, .result c.desc c.occ key.1 c.rank ⟨0, v.final.toBytes⟩))
  else []

/-- One round: nodes formed from what is held, and every message that the new values send. -/
def Coll.round (c : Coll) : Coll × List (Nat × Body) :=
  let c' := c.advance.advanceCarry
  let new := c'.nodes.take (c'.nodes.length - c.nodes.length)
  let newC := c'.carries.take (c'.carries.length - c.carries.length)
  let roots := new.filter (fun k => k.1.2 = (0, c'.top) ∧ nodeRank c'.n k.1.1 0 c'.top = c'.rank)
  let rootC := newC.filter (fun k => k.1 = (0, c'.top) ∧ nodeRank c'.n 0 0 c'.top = c'.rank)
  let c'' :=
    { c' with
      results := roots.map (fun k => (k.1.1, k.2.final.toBytes)) ++ c'.results
      carryDone := match rootC with | k :: _ => some k.2 | [] => c'.carryDone }
  (c'', new.reverse.flatMap (fun k => c'.partsOf k.1 k.2 ++ c'.resultsOf k.1 k.2)
    ++ newC.reverse.flatMap (fun k => c'.carryOf k.1 k.2)
    ++ rootC.flatMap (fun k => ((List.range c'.n).filter (· ≠ c'.rank)).map (fun r =>
        (r, Body.carry c'.desc c'.occ 0 c'.top k.2.nf k.2.amax true))))

/-- The start on one member: leaves, own parts, own blocks of a GATHER, own carry. A group of one member is its own root. -/
def Coll.start (c : Coll) (carry : Carry) (block : List Byte) : Coll × List (Nat × Body) :=
  let c1 : Coll :=
    { c with
      nodes := c.leaves.map (fun p => ((p.1, c.rank, 0), p.2))
      results := if c.op = 5 then [(c.rank, block)] else []
      carries := if c.needCarry then [((c.rank, 0), carry)] else [] }
  let own : List (Nat × Body) := if c.op = 5 then ((List.range c.n).filter (· ≠ c.rank)).map (fun r => (r, .result c.desc c.occ c.rank c.rank ⟨0, block⟩))
    else c1.nodes.flatMap (fun k => c1.partsOf k.1 k.2)
  let ownC := if c1.needCarry then c1.carryOf (c1.rank, 0) carry else []
  let r := if c1.n = 1 then
      ({ c1 with
        results := c1.results ++ c1.leaves.map (fun p => (p.1, p.2.final.toBytes))
        carryDone := if c1.needCarry then some carry else none }, [])
    else c1.round
  (r.1, own ++ ownC ++ r.2)

/-- A part of values of `need` bytes arrives (R401): the values, once every byte has come. -/
def Coll.join (c : Coll) (key : Bool × Nat × Nat × Nat) (need : Nat) (p : Piece) : Coll × Option (List Byte) :=
  let ps := p :: ((assoc c.parts key).getD []).filter (fun q => q.off ≠ p.off)
  if need ≤ sumNat (ps.map (fun q => q.bytes.length)) then
    ({ c with parts := assocDel c.parts key }, some ((sortBy (fun a b => a.off ≤ b.off) ps).flatMap (·.bytes)))
  else ({ c with parts := assocSet c.parts key ps }, none)

/-- Bytes of a chunk's partial values; every member cuts the tensor alike, so that its own leaf tells (R414). -/
def Coll.partBytes (c : Coll) (chunk : Nat) : Nat := match assoc c.leaves chunk with | some v => v.toBytes.length | none => 0

/-- Bytes of a chunk's result, or of a block of a GATHER. -/
def Coll.resultBytes (c : Coll) (chunk : Nat) : Nat :=
  if c.op = 5 then ((assoc c.results c.rank).getD []).length
  else match assoc c.leaves chunk with | some v => v.final.toBytes.length | none => 0

/-- A partial value of another member arrives. -/
def Coll.takePart (c : Coll) (chunk lo level : Nat) (p : Piece) : Coll × List (Nat × Body) :=
  if (c.node chunk lo level).isSome then (c, [])
  else
    match c.join (false, chunk, lo, level) (c.partBytes chunk) p with
    | (c, none) => (c, [])
    | (c, some bytes) =>
      let like := ((c.leaves.head?).map (·.2)).getD (.f32 [])
      ({ c with nodes := ((chunk, lo, level), CVals.ofBytes like bytes) :: c.nodes } : Coll).round

/-- A result of another member arrives. -/
def Coll.takeResult (c : Coll) (chunk : Nat) (p : Piece) : Coll :=
  if (assoc c.results chunk).isSome then c
  else
    match c.join (true, chunk, 0, 0) (c.resultBytes chunk) p with
    | (c, none) => c
    | (c, some bytes) => { c with results := (chunk, bytes) :: c.results }

/-- Operands of a chunk's nodes that other members send to this one (R415): first rank and level. -/
def Coll.operands (c : Coll) (chunk : Nat) : List (Nat × Nat) :=
  (List.range c.top).flatMap (fun l => (nodesAt c.n (l + 1)).flatMap (fun lo =>
    if lo + 2 ^ l < c.n ∧ treeHost c.n chunk lo = c.rank then
      [(lo, l), (lo + 2 ^ l, l)].filter (fun q => nodeRank c.n chunk q.1 q.2 ≠ c.rank)
    else []))

/-- Where a partial value lands in its half of STAGE (R419): behind those of the chunks and operands before it (DESIGN CHOICE, log 35). -/
def Coll.stageOff (c : Coll) (chunk lo level : Nat) : Nat :=
  sumNat ((c.live.filter (· < chunk)).map (fun k => c.partBytes k * (c.operands k).length))
    + c.partBytes chunk * ((c.operands chunk).takeWhile (· ≠ (lo, level))).length

/-- A carry arrives: a partial one, or the final one. -/
def Coll.takeCarry (c : Coll) (lo level : Nat) (v : Carry) (final : Bool) : Coll × List (Nat × Body) :=
  if final then ({ c with carryDone := some v }, [])
  else if (assoc c.carries (lo, level)).isSome then (c, [])
  else ({ c with carries := ((lo, level), v) :: c.carries } : Coll).round

/-- Everything that this member's OPD needs has arrived, and any carry has returned (R419). -/
def Coll.complete (c : Coll) : Bool :=
  (if c.op = 5 then (List.range c.n).all (fun r => (assoc c.results r).isSome)
    else if c.op = 6 then !(c.live.contains c.rank) || (assoc c.results c.rank).isSome
    else c.live.all (fun k => (assoc c.results k).isSome))
  && (!c.needCarry || c.carryDone.isSome)

end Sys2Proof.Machine
end

