-- ==== Sys2Proof/Machine/Optimiser.lean ====
section
/-!
DEFINITION. The optimiser pass (R267, R268), the replica digest (R270), the difference stream (R284) and the OPT words
(R280).
-/

namespace Sys2Proof.Machine

/-- mw40_add of R54: the exact sum of an MW40 and an F32 value, rounded once; a sum beyond the range saturates by R68. -/
def mw40Add (a : Val) (d : F32) : Nat := (convFloat .mw40 .rne (a.add (Fp.val d))).code

/-- What the pass reads for one data element. -/
structure OptIn where
  grad : F32
  pre : Option F32
  m1 : F32
  m2 : F32
  master : Val

/-- New values of one element: MW40 code of the master, and the moments. -/
structure OptOut where
  master : Nat
  m1 : F32
  m2 : F32
  deriving DecidableEq, Repr

/-- `g` of R267: the gradient with the loss scale removed, times CLIP. -/
def optGrad (h : Hyper) (lsEn : Bool) (lsExp : Int) (grad : F32) : F32 :=
  let g := if lsEn then (Fp.round .rne ((Fp.val grad).scale (-lsExp))).v else grad
  Fp.mul g h.clip

/-- The update of one element (R267); `pre` is the preconditioned gradient of MODE 1 to 3. -/
def optElem (l : OptLayer) (h : Hyper) (lsEn : Bool) (lsExp : Int) (x : OptIn) : OptOut :=
  let g := optGrad h lsEn lsExp x.grad
  let m2 := Fp.fma h.beta2 x.m2 (Fp.mul h.omb2 (Fp.mul g g))
  let p :=
    match x.pre with
    | some p => p
    | none => if l.mode = 4 then Fp.div g (Fp.add (Fp.sqrt m2) h.eps) else g
  let m1 := Fp.fma h.beta1 x.m1 (Fp.mul h.omb1 p)
  let u := if l.m1En then m1 else p
  let u := if l.wdEn then Fp.fma h.wd (toF32 x.master) u else u
  let delta := Fp.neg (Fp.mul h.lr u)
  { master := mw40Add x.master delta, m1, m2 }

/-! ## Preconditioning (R268) -/

/-- Element `(i, j)` of block `b` of the application copy that SEL names, as read from memory. -/
def applyEl (m : Cells) (s : Slot) (b i j : Nat) : Val :=
  let f : Fmt := if s.applyFmt = 4 then .h16 else .f32
  let w := f.bits / 8
  f.decode (ofLeBytes (Cells.read m (s.applies.getD (s.sel m b) 0 + ((b * s.block + i) * s.block + j) * w) w))

/-- A matrix from values by place. -/
def Mat.make (r c : Nat) (f : Nat → Nat → Val) : Mat :=
  { rows := r, cols := c, at' := (List.range r).map (fun i => (List.range c).map (f i)) }

/-- The blocks of a slot's application copy, in ascending number (R268). -/
def applyBlocks (m : Cells) (s : Slot) : List Mat := (List.range s.nblk).map (fun b => Mat.make s.block s.block (applyEl m s b))

/-- The factors of `L · g` and of `g · R`, block by block. -/
def leftPairs (ls : List Mat) (g : Mat) : List (Mat × Mat) :=
  ls.zipIdx.map (fun p => (p.1, Mat.make p.1.cols g.cols (fun i j => g.get (p.2 * p.1.cols + i) j)))
def rightPairs (g : Mat) (rs : List Mat) : List (Mat × Mat) :=
  rs.zipIdx.map (fun p => (Mat.make g.rows p.1.rows (fun i j => g.get i (p.2 * p.1.rows + j)), p.1))

/-- The product of the whole from its blocks', which lie one under another or side by side. -/
def joinRows (r c : Nat) (ps : List Mat) : Mat :=
  Mat.make r c (fun i j => let n := max 1 (match ps.head? with | some p => p.rows | none => 1); match ps[i / n]? with
    | some p => p.get (i % n) j
    | none => .fin false 0 0)
def joinCols (r c : Nat) (ps : List Mat) : Mat :=
  Mat.make r c (fun i j => let n := max 1 (match ps.head? with | some p => p.cols | none => 1); match ps[j / n]? with
    | some p => p.get i (j % n)
    | none => .fin false 0 0)

/-- Rounded to H16 with RNE. -/
def toH16 (v : Val) : Val := Fmt.decode .h16 (convFloat .h16 .rne v).code

def Mat.map (f : Val → Val) (a : Mat) : Mat := { a with at' := a.at'.map (fun r => r.map f) }

/-- One block's product on the tiles: its streamed and its stationary matrix, and its output tiles. -/
structure TileMul where
  a : Mat
  st : Mat
  ts : List OTile
  deriving DecidableEq, Repr

/-- The tiles compute one block's product as they compute an MM's, its output tiles numbered from `q0` (R165, R268; log 44). -/
def tileMul (a b : Mat) (tol : Nat) (fs : List CellFault) (q0 : Nat) : TileMul :=
  let own := fs.filterMap (fun f => if q0 ≤ f.q then some { f with q := f.q - q0 } else none)
  ⟨a, b, (product .mm a b false tol false (fun _ _ => 0) own).map (fun t => { t with q := q0 + t.q })⟩

/-- The matrix of a product's F32 outputs. -/
def TileMul.mat (p : TileMul) : Mat := Mat.make p.a.rows p.st.cols (fun i j => Fp.val (planeAt p.ts i j).hi)

/-- Blocks' products, their output tiles numbered on through all of them. -/
def tileBlocks (tol : Nat) (fs : List CellFault) : Nat → List (Mat × Mat) → List TileMul
  | _, [] => []
  | q0, p :: ps =>
    let m := tileMul p.1 p.2 tol fs q0
    m :: tileBlocks tol fs (q0 + m.ts.length) ps

/-- A wide product rounded to F32 with RNE (F32 application copies, R217, R268). -/
def wideMul (a b : Mat) : Mat :=
  Mat.make a.rows b.cols (fun i j =>
    let vs := (List.range a.cols).map (fun k => (a.get i k).mul (b.get k j))
    if vs.any (fun v => !v.isFin) then .nan
    else Fp.val (Fp.ofDy .rne ((vs.foldl (fun acc v => accAddDy acc v.dy) Acc.cleared).dy)))

/-- The two products of R268, block by block: the preconditioned gradient, the last contents of SCR, and the tiles' products. -/
def precondition (h16 : Bool) (left right : Option (List Mat)) (g : Mat) (tol : Nat) (fs : List CellFault) :
    Mat × Mat × List TileMul :=
  if h16 then
    let g1 := g.map toH16
    let l := match left with | some l => tileBlocks tol fs 0 (leftPairs l g1) | none => []
    let t := match left with | some _ => joinRows g.rows g.cols (l.map TileMul.mat) | none => g1
    match right with
    | some r =>
      let th := t.map toH16
      let q := tileBlocks tol fs (sumNat (l.map (fun p => p.ts.length))) (rightPairs th r)
      (joinCols g.rows g.cols (q.map TileMul.mat), th, l ++ q)
    | none => (t, g1, l)
  else
    let t := match left with | some l => joinRows g.rows g.cols ((leftPairs l g).map (fun p => wideMul p.1 p.2)) | none => g
    match right with
    | some r => (joinCols g.rows g.cols ((rightPairs t r).map (fun p => wideMul p.1 p.2)), t, [])
    | none => (t, g, [])

/-! ## Digest (R270) -/

/-- Values of one digest chunk: an MW40 octet or eight F32 values of one row. -/
def chunkWords (m : Cells) (t : Tensor) (r k : Nat) : List Word :=
  let n := 8 * t.fmt.bits / 8
  wordsOfBytes (Cells.read m (t.addr r (8 * k)) n)

/-- The sum of the chunk hashes of one tensor: chunks that hold no data value are skipped. -/
def digestTensor (m : Cells) (t : Tensor) : Word :=
  (List.range t.lrows).foldl (fun acc r =>
    (List.range (ceilDiv t.lcols 8)).foldl (fun acc k =>
      acc + chunkHash t.id (t.index r (8 * k)) (chunkWords m t r k)) acc) 0

/-- D_c of R270. -/
def digestFinal (sum : Word) (step : Nat) : Word := mix (sum ^^^ BitVec.ofNat 64 step)

/-! ## The difference stream (R284) -/

/-- Bytes that a difference needs. -/
def lenClass (d : Nat) : Nat := if d = 0 then 0 else Nat.log2 d / 8 + 1

/-- One group of eight differences: code word, then the low bytes of each. -/
def groupBytes (ds : List Nat) : List Byte :=
  let code := (ds.zipIdx.map (fun p => lenClass p.1 * 8 ^ p.2)).foldl (· + ·) 0
  leBytes 4 code ++ ds.flatMap (fun d => leBytes (lenClass d) d)

/-- Padded with zeros to a multiple of 8 bytes. -/
def pad8 (bs : List Byte) : List Byte := bs ++ List.replicate ((8 - bs.length % 8) % 8) 0

/-- One record over consecutive groups of a tensor's storage. -/
def diffRecord (f40 : Bool) (tid cluster offset : Nat) (groups : List (List Nat)) : List Byte :=
  pad8 (leBytes 8 (mkFld 63 60 (if f40 then 1 else 2) ||| mkFld 47 32 groups.length ||| mkFld 31 0 tid).toNat
    ++ leBytes 8 (mkFld 63 56 cluster ||| mkFld 47 0 offset).toNat ++ groups.flatMap groupBytes)

/-- The step-end record. -/
def stepEndRecord (cluster : Nat) (step : Nat) (dc : Word) : List Byte :=
  leBytes 8 (mkFld 63 60 3).toNat ++ leBytes 8 (mkFld 63 56 cluster).toNat ++ leBytes 8 step ++ leBytes 8 dc.toNat

/-- Storage bytes of a pair's tensor: every held row at its stride (R282: a byte copy of its storage). -/
def Tensor.storage (t : Tensor) : Nat := t.bytes

/-- The records of one pair at offset `off` of its cluster's section: differences of C (new) and U (old) in storage order, row by row
at the rows' stride, at most 4,096 groups a record. -/
def pairRecords (m : Cells) (c u : Tensor) (cluster off : Nat) : List (List Byte) :=
  let f40 : Bool := c.fmt == .mw40
  let w := if f40 then 5 else 4
  let diff (a : Nat) : List Nat := (List.range 8).map (fun j =>
    let k := a + j * w
    (BitVec.ofNat 40 (ofLeBytes (Cells.read m (c.base + k) w)) ^^^ BitVec.ofNat 40 (ofLeBytes (Cells.read m (u.base + k) w))).toNat)
  (List.range c.rows).flatMap (fun r =>
    (chunks 4096 ((List.range (c.cols / 8)).map (fun g => r * c.stride + g * 8 * w))).map (fun gs =>
      diffRecord f40 c.id cluster (off + gs.headD 0) (gs.map diff)))

/-- The writes that one record makes on a base image by XOR (R285): walked group by group. -/
def foldGroups (w : Nat) : Nat → List Byte → Nat → List (Nat × Nat)
  | 0, _, _ => []
  | n + 1, bs, off =>
    let code := ofLeBytes (bs.take 4)
    let lens := (List.range 8).map (fun j => (code / 8 ^ j) % 8)
    let go := lens.zipIdx.foldl (fun (acc : List (Nat × Nat) × Nat) p =>
      (acc.1 ++ [(off + p.2 * w, ofLeBytes ((bs.drop (4 + acc.2)).take p.1))], acc.2 + p.1)) ([], 0)
    go.1 ++ foldGroups w n (bs.drop (4 + go.2)) (off + 8 * w)

/-- A record of a log slot, decoded: section cluster, value width, differences by section offset; or a step end. -/
inductive LogRec where
  | diffs (cluster w : Nat) (ds : List (Nat × Nat))
  | stepEnd (cluster step : Nat) (dc : Word)
  deriving DecidableEq, Repr

/-- Bytes of the body of `n` groups. -/
def groupsLen : Nat → List Byte → Nat
  | 0, _ => 0
  | n + 1, bs =>
    let code := ofLeBytes (bs.take 4)
    let k := 4 + sumNat ((List.range 8).map (fun j => (code / 8 ^ j) % 8))
    k + groupsLen n (bs.drop k)

/-- One record at the front of a log. -/
def logRecord (bs : List Byte) : Option (LogRec × List Byte) :=
  let w0 := BitVec.ofNat 64 (ofLeBytes (bs.take 8))
  let w1 := BitVec.ofNat 64 (ofLeBytes ((bs.drop 8).take 8))
  let body := bs.drop 16
  match fld w0 63 60 with
  | 1 | 2 =>
    let w := if fld w0 63 60 = 1 then 5 else 4
    let n := fld w0 47 32
    let len := groupsLen n body
    some (.diffs (fld w1 63 56) w (foldGroups w n body (fld w1 47 0)), body.drop (len + (8 - len % 8) % 8))
  | 3 => some (.stepEnd (fld w1 63 56) (ofLeBytes (body.take 8)) (BitVec.ofNat 64 (ofLeBytes ((body.drop 8).take 8))), body.drop 16)
  | _ => none

/-- The records of a log slot up to the first word that starts none. -/
def logRecords : Nat → List Byte → List LogRec
  | 0, _ => []
  | fuel + 1, bs =>
    match logRecord bs with
    | some (r, rest) => r :: logRecords fuel rest
    | none => []

/-- LOG_BYTES of R283. -/
def logBytes (base : Nat) : Nat := roundUp (base + base / 8 + (if base % 8 = 0 then 0 else 1) + 0x100000) 0x200000

def copHeader : Nat := 0x10000

/-! ## OPT words -/

/-- OPT_CFG: COPPICE_WAIT_MS 30,000, WCC_SHARE 2 (R280). -/
def optCfgDefault : Word := mkFld 63 32 30000 ||| mkFld 2 0 2
def optCfgMask : Word := mkFld 63 32 0xFFFFFFFF ||| mkFld 2 0 7
def optCfgOk (w : Word) : Bool := fld w 63 32 ≥ 1

end Sys2Proof.Machine
end

