-- ==== Sys2Proof/Machine/Solver.lean ====
section
/-!
DEFINITION. Solver mode: plan, classes and large problems (R336 to R341, R352), delta entries (R342, R343), warm start
(R345), KKT assembly (R346), ADMM iterations and checks (R347, R348, R353), outcomes, ρ and records (R350, R351, R358,
R359) and the SOL words (R360).
-/

namespace Sys2Proof.Machine

def refuseSolver : Nat := 0x0190
def refuseDeadline : Nat := 0x0191
def refuseSuspend : Nat := 0x0192
def statusSolved : Nat := 0x0220
def statusAccepted : Nat := 0x0221
def statusDeadlineShifted : Nat := 0x0222
def statusLimitShifted : Nat := 0x0223
def statusNonfiniteShifted : Nat := 0x0224
def statusNoFactor : Nat := 0x0225
def statusDeltaInvalid : Nat := 0x0226

/-! ## Plan -/

/-- A class descriptor (R337). -/
structure SolClass where
  n : Nat
  m : Nat
  block : Nat
  slot0 : Nat
  t : Nat
  pvar : Nat
  pcon : Nat
  np : Nat
  rho0 : F32
  sigma : F32
  alpha : F32
  epsAbs : F32
  epsRel : F32
  accept : F32
  checkEvery : Nat
  maxChecks : Nat
  rhoTrig : Nat
  rhoRange : Nat
  eqShift : Nat
  clusters : List Nat
  data : Nat
  state : Nat
  result : Nat
  deriving DecidableEq, Repr

def SolClass.parse (w : List Word) : Chk SolClass :=
  let g (i hi lo : Nat) : Nat := fld (wordAt w i) hi lo
  let f (i hi lo : Nat) : F32 := BitVec.ofNat 32 (g i hi lo)
  let c : SolClass :=
    { n := g 0 63 48, m := g 0 47 32, block := g 0 31 16, slot0 := g 0 15 0, t := g 1 63 56, pvar := g 1 55 48,
      pcon := g 1 47 40, np := g 1 31 0, rho0 := f 2 63 32, sigma := f 2 31 0, alpha := f 3 63 32, epsAbs := f 3 31 0,
      epsRel := f 4 63 32, accept := f 4 31 0, checkEvery := g 5 63 48, maxChecks := g 5 47 32, rhoTrig := g 5 31 28,
      rhoRange := g 5 27 24, eqShift := g 5 23 19,
      clusters := ((List.range 64).filter (fun k => bit (wordAt w 7) k)) ++ ((List.range 64).filter (fun k => bit (wordAt w 6) k)).map (· + 64)
      data := g 8 51 0, state := g 9 51 0, result := (wordAt w 10).toNat }
  if c.n == 0 || c.m == 0 || c.block == 0 || c.t == 0 || c.checkEvery == 0 || c.maxChecks == 0 then .bad refuseZero
  else if c.n ≤ 256 && c.m ≤ 512 && c.block % 128 == 0 && 128 ≤ c.block && c.block ≤ 768 && c.n + c.m ≤ c.block
      && g 1 39 32 == 0 && c.t * c.pvar ≤ c.n && c.t * c.pcon ≤ c.m && c.np ≤ 65536 && f32Pos c.rho0 && f32Pos c.sigma
      && f32Pos c.alpha && Fp.lt c.alpha 0x40000000 && f32NonNeg c.epsAbs && f32NonNeg c.epsRel
      && !(Fp.isZero c.epsAbs && Fp.isZero c.epsRel) && Fp.le Fp.one c.accept && c.checkEvery ≤ 1000
      && c.rhoRange ≤ 10 && c.eqShift ≤ 16 && g 5 18 0 == 0 && g 8 63 52 == 0 && g 9 63 52 == 0 && c.data % 4096 == 0
      && c.state % 4096 == 0 && c.result % 64 == 0 && ((List.range 5).all (fun i => wordAt w (11 + i) == 0))
      && (c.np == 0 || (c.clusters.length ≥ 1 && c.clusters.length ≤ c.np))
  then .ok c else .bad refuseSolver

/-- Problems of a class that the cluster of rank `r` holds: first and count (R338). -/
def SolClass.share (c : SolClass) (r : Nat) : Nat × Nat :=
  (cutStart c.np c.clusters.length r, cutStart c.np c.clusters.length (r + 1) - cutStart c.np c.clusters.length r)

/-- Rank of a cluster in the class. -/
def SolClass.rank (c : SolClass) (l : Nat) : Option Nat := c.clusters.findIdx? (· = l)

/-- A large-problem descriptor (R352) with the parts of PART_TABLE. -/
structure SolLarge where
  chiplet : Nat
  ml : Nat
  block : Nat
  slot0 : Nat
  cls : Nat
  parts : List (Nat × Nat)
  data : Nat
  state : Nat
  result : Nat
  deriving DecidableEq, Repr

def SolLarge.parse (m : Cells) (w : List Word) : Chk SolLarge :=
  let g (i hi lo : Nat) : Nat := fld (wordAt w i) hi lo
  let np := g 0 63 56
  let pt := (List.range np).map (fun k => Cells.word m (g 2 51 0 + 8 * k))
  let l : SolLarge :=
    { chiplet := g 0 55 53, ml := g 0 47 32, block := g 0 31 16, slot0 := g 0 15 0, cls := g 1 63 58,
      parts := pt.map (fun x => (fld x 63 48, fld x 47 32)), data := g 3 51 0, state := g 4 51 0, result := (wordAt w 5).toNat }
  if l.ml == 0 || l.block == 0 then .bad refuseZero
  else if 2 ≤ np && np ≤ 16 && g 0 52 48 == 0 && l.ml ≤ 1024 && l.block % 128 == 0 && 128 ≤ l.block && l.block ≤ 2048
      && g 1 57 0 == 0 && g 2 63 52 == 0 && g 3 63 52 == 0 && g 4 63 52 == 0 && wordAt w 6 == 0 && wordAt w 7 == 0
      && pt.all (fun x => fld x 31 0 == 0)
      && l.parts.all (fun p => 1 ≤ p.1 && p.1 ≤ 1024 && p.1 + p.2 ≤ l.block)
      && sumNat (l.parts.map (·.1)) ≤ 8192
  then .ok l else .bad refuseSolver

/-- The solver plan (R336) with its tables. -/
structure SolPlan where
  deadlineUs : Nat
  classes : List SolClass
  larges : List SolLarge
  cycleRec : Nat
  entryWinUs : Nat
  pendKib : Nat
  pendBase : Nat
  deriving DecidableEq, Repr

/-- Header of R336: NCLASS, NLARGE, NPROB, deadline, tables, cycle record, entry window, pending area. -/
structure SolHdr where
  nclass : Nat
  nlarge : Nat
  nprob : Nat
  deadlineUs : Nat
  classTable : Nat
  largeTable : Nat
  cycleRec : Nat
  entryWinUs : Nat
  pendKib : Nat
  pendBase : Nat
  deriving DecidableEq, Repr

def SolHdr.parse (w : List Word) : Chk SolHdr :=
  let g (i hi lo : Nat) : Nat := fld (wordAt w i) hi lo
  let h : SolHdr :=
    ⟨g 0 63 48, g 0 47 44, g 0 31 0, g 1 39 0, g 2 51 0, g 3 51 0, (wordAt w 4).toNat, g 5 63 32, g 5 31 0, g 6 51 0⟩
  if h.entryWinUs == 0 || h.deadlineUs == 0 || (h.nprob == 0 && h.nlarge == 0) then .bad refuseZero
  else if 1 ≤ h.nclass && h.nclass ≤ 64 && h.nlarge ≤ 8 && g 0 43 32 == 0 && h.nprob ≤ 65536 && g 1 63 40 == 0
      && g 2 63 52 == 0 && g 3 63 52 == 0 && h.cycleRec % 64 == 0 && 64 ≤ h.pendKib && h.pendKib ≤ 65536
      && g 6 63 52 == 0 && h.pendBase % 4096 == 0 && wordAt w 7 == 0 then .ok h
  else .bad refuseSolver

/-! ## Where a problem's data stand -/

def pad64 (n : Nat) : Nat := roundUp n 64

/-- Byte offsets of one block of variables and rows: P, A, the linking columns, q, l, u, and the size (R341, R352). -/
structure Lay where
  p : Nat
  a : Nat
  al : Nat
  q : Nat
  l : Nat
  u : Nat
  size : Nat
  deriving DecidableEq, Repr

def layOf (base n m ml : Nat) : Lay :=
  let a := base + pad64 (4 * n * n)
  let al := a + pad64 (4 * m * n)
  let q := al + pad64 (4 * ml * n)
  let l := q + pad64 (4 * n)
  let u := l + pad64 (4 * m)
  ⟨base, a, al, q, l, u, u + pad64 (4 * m) - base⟩

/-- One block of a problem: a small problem, or a part of a large one. -/
structure Blk where
  n : Nat
  m : Nat
  lay : Lay
  prev : Nat
  ws : Nat
  work : Nat
  cluster : Nat
  slot : Nat
  blockNo : Nat
  deriving DecidableEq, Repr

def vecBytes (n m : Nat) : Nat := pad64 (4 * (n + 2 * m))

/-- S_SIZE of R341. -/
def stateSize (n m : Nat) : Nat := 3 * vecBytes n m + 64

/-- Block `j` of a class. -/
def SolClass.blk (c : SolClass) (j : Nat) : Blk :=
  let d := (layOf 0 c.n c.m 0).size
  let s := c.state + j * stateSize c.n c.m
  let r := ((List.range c.clusters.length).find? (fun r => (c.share r).1 ≤ j && j < (c.share r).1 + (c.share r).2)).getD 0
  { n := c.n, m := c.m, lay := layOf (c.data + j * d) c.n c.m 0, prev := s, ws := s + vecBytes c.n c.m,
    work := s + 2 * vecBytes c.n c.m, cluster := c.clusters.getD r 0, slot := c.slot0 + r, blockNo := j - (c.share r).1 }

/-- The parts of a large problem, in order. -/
def SolLarge.blks (g : SolLarge) : List Blk :=
  (g.parts.foldl (fun (acc : List Blk × Nat × Nat × Nat) p =>
    let l := layOf acc.2.1 p.1 p.2 g.ml
    let v := vecBytes p.1 p.2
    let s := acc.2.2.1
    (acc.1 ++ [{ n := p.1, m := p.2, lay := l, prev := s, ws := s + v, work := s + 2 * v,
                 cluster := 16 * g.chiplet + acc.2.2.2, slot := g.slot0 + acc.2.2.2, blockNo := 0 }],
      acc.2.1 + l.size, s + stateSize p.1 p.2, acc.2.2.2 + 1)) ([], g.data, g.state, 0)).1

/-- Bounds of the linking rows, l then u, after the parts' data. -/
def SolLarge.linkBounds (g : SolLarge) : Nat × Nat :=
  let e := g.blks.foldl (fun e b => max e (b.lay.p + b.lay.size)) g.data
  (e, e + pad64 (4 * g.ml))

/-- State of the linking rows: z then y in PREV, WS and WORK order. -/
def SolLarge.linkState (g : SolLarge) : Nat × Nat × Nat :=
  let e := g.blks.foldl (fun e b => max e (b.work + vecBytes b.n b.m + 64)) g.state
  let v := pad64 (8 * g.ml)
  (e, e + v, e + 2 * v)

/-- RECORD of a block, and those of a large problem's parts and linking rows (R341, R352). -/
def Blk.recAddr (b : Blk) : Nat := b.work + vecBytes b.n b.m
def SolLarge.linkRec (g : SolLarge) : Nat := g.linkState.2.2 + pad64 (8 * g.ml)
def SolLarge.recAddrs (g : SolLarge) : List Nat := g.blks.map Blk.recAddr ++ [g.linkRec]

/-! ## Classes by number (R338) -/

def SolPlan.cls (p : SolPlan) (k : Nat) : Option SolClass := p.classes[k]?

/-- Number of a class's first problem (R338). -/
def SolPlan.first (p : SolPlan) (k : Nat) : Nat := sumNat ((p.classes.take k).map (·.np))

/-- Problems of class `k` on cluster `l`, by their index in the class. -/
def SolPlan.onCluster (p : SolPlan) (k l : Nat) : List Nat :=
  match p.cls k with
  | some c => (match c.rank l with | some r => (List.range (c.share r).2).map (· + (c.share r).1) | none => [])
  | none => []

/-! ## Vectors -/

def readVec (m : Cells) (a n : Nat) : List F32 :=
  (List.range n).map (fun k => BitVec.ofNat 32 (ofLeBytes (Cells.read m (a + 4 * k) 4)))
def vecOut (v : List F32) : List Byte := v.flatMap (fun x => leBytes 4 x.toNat)
def vAt (v : List F32) (i : Nat) : F32 := v.getD i 0

/-- The iterate of a block: x, z and y. -/
structure Iter where
  x : List F32
  z : List F32
  y : List F32
  deriving DecidableEq, Repr

def Iter.read (m : Cells) (a n k : Nat) : Iter :=
  ⟨readVec m a n, readVec m (a + 4 * n) k, readVec m (a + 4 * (n + k)) k⟩
def Iter.bytes (i : Iter) : List Byte := vecOut i.x ++ vecOut i.z ++ vecOut i.y

/-- shift of R345. -/
def shiftVec (v : List F32) (width t s : Nat) : List F32 :=
  v.zipIdx.map (fun p =>
    let i := p.2
    if i ≥ t * width then p.1
    else
      let src := i + s * width
      let src := if src ≥ t * width then (t - 1) * width + i % max 1 width else src
      vAt v src)

/-- The warm start of a block (R345). -/
def Iter.shift (i : Iter) (c : SolClass) (s : Nat) : Iter :=
  ⟨shiftVec i.x c.pvar c.t s, shiftVec i.z c.pcon c.t s, shiftVec i.y c.pcon c.t s⟩

/-- The data of a block as values. -/
structure BData where
  p : List (List F32)
  a : List (List F32)
  al : List (List F32)
  q : List F32
  l : List F32
  u : List F32
  deriving DecidableEq, Repr

def readRows (m : Cells) (a r c : Nat) : List (List F32) := (List.range r).map (fun i => readVec m (a + 4 * c * i) c)

def BData.read (m : Cells) (b : Blk) (ml : Nat) : BData :=
  { p := readRows m b.lay.p b.n b.n, a := readRows m b.lay.a b.m b.n, al := readRows m b.lay.al ml b.n,
    q := readVec m b.lay.q b.n, l := readVec m b.lay.l b.m, u := readVec m b.lay.u b.m }

/-- `r_i` of R346: equality rows take ρ × 2^EQ_SHIFT; padding rows are equality rows (l = u = 0). -/
def rowRho (c : SolClass) (rho : F32) (d : BData) (i : Nat) : F32 :=
  if Fp.le (vAt d.l i) (vAt d.u i) && Fp.le (vAt d.u i) (vAt d.l i) then (Fp.round .rne ((Fp.val rho).scale c.eqShift)).v else rho

/-- The KKT matrix of a block (R346); `sig` is σ, or σ + τ of R353 as an exact value. -/
def kkt (edge : Nat) (c : SolClass) (rho : F32) (sig : Dy) (b : Blk) (d : BData) : BMat :=
  let dg (i : Nat) : Dy := (Fp.val (Fp.neg (Fp.div Fp.one (rowRho c rho d i)))).dy
  let p (i j : Nat) : Dy := (Fp.val ((d.p.getD i []).getD j 0)).dy
  let a (i j : Nat) : Dy := (Fp.val ((d.a.getD i []).getD j 0)).dy
  bMat edge (fun i j =>
    if i < b.n ∧ j < b.n then (if i = j then (p i j).add sig else p i j)
    else if i = j then dg (i - b.n)
    else if i ≥ b.n ∧ j < b.n then a (i - b.n) j
    else if j ≥ b.n ∧ i < b.n then a (j - b.n) i
    else Dy.zero)

/-- A sum of products in A64 in the order of R205, rounded to F32 (R348; each product rounded once, log 25). -/
def dotF32 (a x : List F32) : F32 :=
  accOut (lineSum A64.combine ((List.zipWith (fun p q => some (⟨Fp.mul p q, 0⟩ : A64)) a x)))

def matVec (a : List (List F32)) (x : List F32) : List F32 := a.map (fun r => dotF32 r x)
def matTVec (a : List (List F32)) (n : Nat) (y : List F32) : List F32 :=
  (List.range n).map (fun j => dotF32 (a.map (fun r => vAt r j)) y)

def vmax (l : List F32) : F32 := l.foldl (fun a x => Fp.max a (Fp.abs x)) 0

/-- The last four lines of R347 after SOLVE: `xt` and `v` give the new iterate. -/
def admmTail (c : SolClass) (rho : F32) (d : BData) (it : Iter) (xt v : List F32) : Iter :=
  let oma := Fp.sub Fp.one c.alpha
  let x := it.x.zipIdx.map (fun p => Fp.add (Fp.mul c.alpha (vAt xt p.2)) (Fp.mul oma p.1))
  let row (i : Nat) : F32 × F32 :=
    let r := rowRho c rho d i
    let rinv := Fp.div Fp.one r
    let z := vAt it.z i
    let y := vAt it.y i
    let zt := Fp.add z (Fp.mul (Fp.sub (vAt v i) y) rinv)
    let zh := Fp.add (Fp.mul c.alpha zt) (Fp.mul oma z)
    let z' := Fp.min (Fp.max (Fp.add zh (Fp.mul y rinv)) (vAt d.l i)) (vAt d.u i)
    (z', Fp.add y (Fp.mul r (Fp.sub zh z')))
  let rows := (List.range it.z.length).map row
  ⟨x, rows.map (·.1), rows.map (·.2)⟩

/-- SOLVE of one block; without a verified factor its rows are NaN (R249). -/
def solveBlk (edge : Nat) (factor : Option BMat) (rhs : List Dy) (finite : Bool) : List F32 :=
  match factor with
  | none => List.replicate edge Fp.nan
  | some f => if finite then solveCol edge f rhs else List.replicate edge Fp.nan

/-- The right-hand side of SOLVE (R347): b_x and b_v; rows past it are padding and zero. -/
def admmRhs (c : SolClass) (rho : F32) (b : Blk) (d : BData) (it : Iter) (bx : List F32) : List F32 :=
  bx ++ (List.range b.m).map (fun i =>
    Fp.sub (vAt it.z i) (Fp.mul (vAt it.y i) (Fp.div Fp.one (rowRho c rho d i))))

/-- The right-hand side as SOLVE takes it, and whether every element is finite (R249, R347). -/
def admmSolve (edge : Nat) (c : SolClass) (rho : F32) (b : Blk) (d : BData) (factor : Option BMat) (it : Iter) (bx : List F32) : List F32 :=
  let l := admmRhs c rho b d it bx
  let fin := it.x.all Fp.isFin && it.z.all Fp.isFin && it.y.all Fp.isFin && l.all Fp.isFin
  solveBlk edge factor ((List.range edge).map (fun i => (Fp.val (vAt l i)).dy)) fin

/-- One ADMM iteration of a small problem (R347). -/
def admmStep (edge : Nat) (c : SolClass) (rho : F32) (b : Blk) (d : BData) (factor : Option BMat) (it : Iter) : Iter :=
  let bx := (List.range b.n).map (fun i => Fp.sub (Fp.mul c.sigma (vAt it.x i)) (vAt d.q i))
  let s := admmSolve edge c rho b d factor it bx
  admmTail c rho d it (s.take b.n) (s.drop b.n)

/-- The check of R348 over blocks and linking rows. -/
structure ChkOut where
  rp : F32
  rd : F32
  ep : F32
  ed : F32
  finite : Bool
  deriving DecidableEq, Repr

def ChkOut.solved (k : ChkOut) : Bool := Fp.le k.rp k.ep && Fp.le k.rd k.ed
def ChkOut.accepted (k : ChkOut) (c : SolClass) : Bool :=
  Fp.le k.rp (Fp.mul c.accept k.ep) && Fp.le k.rd (Fp.mul c.accept k.ed)

/-- Residuals over all blocks; `link` gives the linking rows' `w`, `z_L`, and per block `A_Lᵀ y_L`. -/
def checkOf (c : SolClass) (blks : List (BData × Iter)) (w zl : List F32) (alty : List (List F32)) : ChkOut :=
  let per := blks.zipIdx.map (fun p =>
    let d := p.1.1
    let it := p.1.2
    let ax := matVec d.a it.x
    let px := matVec d.p it.x
    let at1 := matTVec d.a it.x.length it.y
    let aty := match alty[p.2]? with
      | some v => List.zipWith Fp.add at1 v
      | none => at1
    let rp := vmax (List.zipWith Fp.sub ax it.z)
    let rd := vmax ((List.range it.x.length).map (fun i => Fp.add (Fp.add (vAt px i) (vAt d.q i)) (vAt aty i)))
    (rp, rd, Fp.max (vmax ax) (vmax it.z), Fp.max (Fp.max (vmax px) (vmax aty)) (vmax d.q),
      it.x.all Fp.isFin && it.z.all Fp.isFin && it.y.all Fp.isFin))
  let m (f : F32 × F32 × F32 × F32 × Bool → F32) : F32 := per.foldl (fun a x => Fp.max a (f x)) 0
  let rp := Fp.max (m (·.1)) (vmax (List.zipWith Fp.sub w zl))
  let rd := m (·.2.1)
  { rp, rd, ep := Fp.add c.epsAbs (Fp.mul c.epsRel (Fp.max (m (·.2.2.1)) (Fp.max (vmax w) (vmax zl)))),
    ed := Fp.add c.epsAbs (Fp.mul c.epsRel (m (·.2.2.2.1))),
    finite := per.all (·.2.2.2.2) && zl.all Fp.isFin && Fp.isFin rp && Fp.isFin rd }

/-! ## Resident state -/

/-- What the module keeps of one problem (R341). -/
structure SolProb where
  rho : F32
  dirty : Bool
  frozen : Option Nat
  accept : Bool
  iters : Nat
  rp : F32
  rd : F32
  ep : F32
  ed : F32
  fnum : Bool
  fabn : Bool
  verified : Bool
  /-- STATUS, STOP and STALE of the cycle's result record once it is written, and CYCLE (R358) -/
  status : Nat
  stopped : Nat
  stale : Bool
  cycle : Nat
  deriving DecidableEq, Repr

def SolProb.load (rho0 : F32) : SolProb :=
  { rho := rho0, dirty := true, frozen := none, accept := false, iters := 0, rp := 0, rd := 0, ep := 0, ed := 0, fnum := false,
    fabn := false, verified := false, status := 0, stopped := 0, stale := false, cycle := 0 }

/-- RECORD (R341): ρ of the next cycle and DIRTY, then the fields of R358 in progress as a result record places them. The spec names the
contents and no places (DESIGN CHOICE, log 16). -/
def SolProb.record (p : SolProb) : List Byte :=
  bytesOfWords [mkFld 63 63 (b2n p.dirty) ||| mkFld 31 0 p.rho.toNat,
    mkFld 63 48 (p.frozen.getD p.status) ||| mkFld 47 46 p.stopped ||| mkFld 45 45 (b2n p.stale) ||| mkFld 44 44 (b2n p.fnum)
      ||| mkFld 43 43 (b2n p.fabn) ||| mkFld 31 0 p.iters,
    mkFld 63 32 p.rp.toNat ||| mkFld 31 0 p.rd.toNat, mkFld 63 32 p.ep.toNat ||| mkFld 31 0 p.ed.toNat, BitVec.ofNat 64 p.cycle, 0, 0, 0]

/-- The fields of a cycle at its start. -/
def SolProb.begin (p : SolProb) (cycle : Nat) : SolProb :=
  { p with frozen := none, accept := false, iters := 0, rp := 0, rd := 0, ep := 0, ed := 0, fnum := false, fabn := false,
           verified := false, status := 0, stopped := 0, stale := false, cycle }

/-- ρ of the next cycle and DIRTY as the problem's RECORDs hold them in memory (R341, R346): ρ of the first, DIRTY of any. -/
def SolProb.recall (p : SolProb) (m : Cells) (recs : List Nat) : SolProb :=
  { p with rho := (match recs with | a :: _ => BitVec.ofNat 32 (fld (Cells.word m a) 31 0) | [] => p.rho)
           dirty := recs.any (fun a => bit (Cells.word m a) 63) }

/-- A check's effect on one problem that is not frozen (R348); `has` says that its blocks have a factor. -/
def SolProb.check (p : SolProb) (c : SolClass) (has : Bool) (k : ChkOut) : SolProb :=
  if p.frozen.isSome then p
  else if !has then
    { p with frozen := some statusNoFactor, rp := 0, rd := 0, ep := 0, ed := 0, iters := p.iters + c.checkEvery }
  else
    let p := { p with rp := k.rp, rd := k.rd, ep := k.ep, ed := k.ed, iters := p.iters + c.checkEvery, accept := k.accepted c }
    if !k.finite then { p with frozen := some statusNonfiniteShifted }
    else if k.solved then { p with frozen := some statusSolved }
    else p

/-- The outcome of R350 and whether WORK is published. -/
def SolProb.outcome (p : SolProb) (deadline : Bool) : Nat × Bool :=
  match p.frozen with
  | some s => (s, s == statusSolved)
  | none =>
    if p.accept then (statusAccepted, true)
    else if deadline then (statusDeadlineShifted, false) else (statusLimitShifted, false)

/-- ρ of the next cycle (R351). -/
def SolProb.nextRho (p : SolProb) (c : SolClass) (status : Nat) : F32 :=
  if c.rhoTrig = 0 ∨ status = statusSolved ∨ status = statusNonfiniteShifted ∨ status = statusNoFactor then p.rho
  else
    let t := Fp.pow2 c.rhoTrig
    let a := Fp.mul p.rp p.ed
    let b := Fp.mul p.rd p.ep
    let r := if Fp.lt (Fp.mul t b) a then Fp.mul 0x40800000 p.rho
      else if Fp.lt (Fp.mul t a) b then Fp.mul 0x3E800000 p.rho else p.rho
    let lo := (Fp.round .rne ((Fp.val c.rho0).scale (-2 * (c.rhoRange : Int)))).v
    let hi := (Fp.round .rne ((Fp.val c.rho0).scale (2 * (c.rhoRange : Int)))).v
    Fp.min (Fp.max r lo) hi

/-- A result record (R358): words 0 to 3, then x and y. -/
def resultRecord (p : SolProb) (status stop cycle : Nat) (stale : Bool) (x y : List F32) : List Byte :=
  leBytes 8 (mkFld 63 48 status ||| mkFld 47 46 stop ||| mkFld 45 45 (b2n stale) ||| mkFld 44 44 (b2n p.fnum)
      ||| mkFld 43 43 (b2n p.fabn) ||| mkFld 31 0 p.iters).toNat
    ++ leBytes 8 (mkFld 63 32 p.rp.toNat ||| mkFld 31 0 p.rd.toNat).toNat
    ++ leBytes 8 (mkFld 63 32 p.ep.toNat ||| mkFld 31 0 p.ed.toNat).toNat
    ++ leBytes 8 cycle ++ vecOut x ++ vecOut y

/-- Bytes of a result record of `n` variables and `m` rows. -/
def resultSize (n m : Nat) : Nat := 64 * ceilDiv (32 + 4 * (n + m)) 64

/-- The solver of the module (R336 to R360): the task that runs its cycles, its problems, and the pending deltas. -/
structure Sol where
  cfg : Word
  shadow : Word
  commitErr : Bool
  cycleOn : Bool
  shift : Nat
  cycle : Nat
  smalls : List SolProb
  larges : List SolProb
  /-- the clusters of a cycle have halted, and its cycle record waits for its result records, or the task for the cycle record (R359) -/
  closing : Bool
  /-- the cycle record is written, or on its way to the entry module -/
  recorded : Bool
  /-- per large problem, the rounds that part 0's ITER_END has decided: round and exit (R349) -/
  decided : List (Nat × Nat × Bool)
  /-- clusters that left their loop by the deadline (R350) -/
  deadlineStop : List Nat
  rounds : List (Nat × Nat)
  counts : List Nat
  factNumeric : Nat
  factAbandoned : Nat
  deltaEntries : Nat
  deltaRejects : Nat
  /-- packets in the pending-delta area (R344): packet, bytes -/
  pend : List (Nat × Nat)
  deriving DecidableEq, Repr

def Sol.reset : Sol :=
  { cfg := 1, shadow := 1, commitErr := false, cycleOn := false, shift := 1, cycle := 0, smalls := [], larges := [],
    closing := false, recorded := false, decided := [], deadlineStop := [], rounds := [], counts := List.replicate 6 0, factNumeric := 0,
    factAbandoned := 0, deltaEntries := 0, deltaRejects := 0, pend := [] }

def Sol.pendBytes (s : Sol) : Nat := sumNat (s.pend.map (fun p => p.2))

/-- Problem `n` of the module, and one changed. -/
def Sol.upd (x : Sol) (n : Nat) (f : SolProb → SolProb) : Sol := { x with smalls := updAt x.smalls n f }
def Sol.updL (x : Sol) (g : Nat) (f : SolProb → SolProb) : Sol := { x with larges := updAt x.larges g f }
def Sol.prob (x : Sol) (n : Nat) : SolProb := x.smalls.getD n (SolProb.load 0)
def Sol.probL (x : Sol) (g : Nat) : SolProb := x.larges.getD g (SolProb.load 0)

/-- SOL_STATUS (R360). -/
def Sol.status (s : Sol) : Word :=
  mkFld 63 63 (b2n s.commitErr) ||| mkFld 62 60 (if s.cycleOn then 1 else if s.pend.isEmpty then 0 else 2)
    ||| mkFld 31 0 s.pendBytes

/-- RECORD of every problem of the module as it stands. -/
def SolPlan.records (p : SolPlan) (x : Sol) : List (Nat × List Byte) :=
  p.classes.zipIdx.flatMap (fun c => (List.range c.1.np).map (fun j => ((c.1.blk j).recAddr, (x.prob (p.first c.2 + j)).record)))
    ++ p.larges.zipIdx.flatMap (fun g => g.1.recAddrs.map (fun a => (a, (x.probL g.2).record)))

/-- Every problem takes ρ and DIRTY from its RECORD as a cycle begins. -/
def Sol.recall (x : Sol) (p : SolPlan) (m : Cells) : Sol :=
  let smalls := p.classes.zipIdx.flatMap (fun c =>
    (List.range c.1.np).map (fun j => (x.prob (p.first c.2 + j)).recall m [(c.1.blk j).recAddr]))
  { x with smalls, larges := p.larges.zipIdx.map (fun g => (x.probL g.2).recall m g.1.recAddrs) }

/-! ## Delta entries -/

/-- A delta entry (R342). -/
structure Delta where
  large : Bool
  kind : Nat
  prob : Nat
  row : Nat
  col : Nat
  value : F32
  deriving DecidableEq, Repr

/-- An entry from its 16 bytes; `none` where a reserved field is not 0 or KIND is another code. -/
def Delta.parse (bs : List Byte) : Option Delta :=
  let w0 := BitVec.ofNat 64 (ofLeBytes (bs.take 8))
  let w1 := BitVec.ofNat 64 (ofLeBytes (bs.drop 8))
  let d : Delta := ⟨bit w0 63, fld w0 62 59, fld w0 55 40, fld w0 39 24, fld w0 23 10, BitVec.ofNat 32 (fld w1 31 0)⟩
  if 1 ≤ d.kind ∧ d.kind ≤ 5 ∧ fld w0 58 56 = 0 ∧ fld w0 9 0 = 0 ∧ fld w1 63 32 = 0 ∧ (d.kind ≥ 4 ∨ d.col = 0) then some d
  else none

/-- Class and index in the class of a small problem number (R338). -/
def SolPlan.find (p : SolPlan) (n : Nat) : Option (SolClass × Nat) :=
  (p.classes.foldl (fun (acc : Option (SolClass × Nat) × Nat) c =>
    match acc.1 with
    | some _ => acc
    | none => if n < acc.2 + c.np then (some (c, n - acc.2), acc.2) else (none, acc.2 + c.np)) (none, 0)).1

/-- Where a part's variable or row number falls: part and offset within it. -/
def locate (sizes : List Nat) (i : Nat) : Option (Nat × Nat) :=
  (sizes.zipIdx.foldl (fun (acc : Option (Nat × Nat) × Nat) p =>
    match acc.1 with
    | some _ => acc
    | none => if i < acc.2 + p.1 then (some (p.2, i - acc.2), acc.2) else (none, acc.2 + p.1)) (none, 0)).1

/-- The addresses that an entry writes; `none` where its problem, row or column is out of range, or breaks the structure of
R352. -/
def Delta.addrs (p : SolPlan) (d : Delta) : Option (List Nat) :=
  if !d.large then
    match p.find d.prob with
    | none => none
    | some (c, j) =>
      let l := (c.blk j).lay
      match d.kind with
      | 1 => if d.row < c.n then some [l.q + 4 * d.row] else none
      | 2 => if d.row < c.m then some [l.l + 4 * d.row] else none
      | 3 => if d.row < c.m then some [l.u + 4 * d.row] else none
      | 4 => if d.row ≤ d.col ∧ d.col < c.n then
          some (([l.p + 4 * (d.row * c.n + d.col), l.p + 4 * (d.col * c.n + d.row)] : List Nat).dedup) else none
      | _ => if d.row < c.m ∧ d.col < c.n then some [l.a + 4 * (d.row * c.n + d.col)] else none
  else
    match p.larges[d.prob]? with
    | none => none
    | some g =>
      let bs := g.blks
      let ns := g.parts.map (·.1)
      let ms := g.parts.map (·.2)
      let lay (k : Nat) : Lay := (bs.getD k ((SolClass.blk ⟨0, 0, 0, 0, 0, 0, 0, 0, 0, 0, 0, 0, 0, 0, 0, 0, 0, 0, 0, [], 0, 0, 0⟩) 0)).lay
      let mt := sumNat ms
      match d.kind with
      | 1 => (locate ns d.row).map (fun x => [(lay x.1).q + 4 * x.2])
      | 2 =>
        if d.row ≥ mt then (if d.row < mt + g.ml then some [g.linkBounds.1 + 4 * (d.row - mt)] else none)
        else (locate ms d.row).map (fun x => [(lay x.1).l + 4 * x.2])
      | 3 =>
        if d.row ≥ mt then (if d.row < mt + g.ml then some [g.linkBounds.2 + 4 * (d.row - mt)] else none)
        else (locate ms d.row).map (fun x => [(lay x.1).u + 4 * x.2])
      | 4 =>
        match locate ns d.row, locate ns d.col with
        | some r, some c =>
          let n := ns.getD r.1 0
          if r.1 = c.1 ∧ d.row ≤ d.col then
            some (([(lay r.1).p + 4 * (r.2 * n + c.2), (lay r.1).p + 4 * (c.2 * n + r.2)] : List Nat).dedup) else none
        | _, _ => none
      | _ =>
        match locate ns d.col with
        | none => none
        | some c =>
          let n := ns.getD c.1 0
          if d.row ≥ mt then
            (if d.row < mt + g.ml then some [(lay c.1).al + 4 * ((d.row - mt) * n + c.2)] else none)
          else
            match locate ms d.row with
            | some r => if r.1 = c.1 then some [(lay c.1).a + 4 * (r.2 * n + c.2)] else none
            | none => none

/-- The value bound of R343 that one entry alone breaks. -/
def Delta.valueOk (d : Delta) : Bool :=
  match d.kind with
  | 2 => !(Fp.isNan d.value) && d.value != Fp.inf false
  | 3 => !(Fp.isNan d.value) && d.value != Fp.inf true
  | _ => Fp.isFin d.value

/-- l ≤ u at a row's addresses. -/
def boundOk (m : Cells) (al au : Nat) : Bool :=
  let f (a : Nat) : F32 := BitVec.ofNat 32 (ofLeBytes (Cells.read m a 4))
  Fp.le (f al) (f au)

/-- The pair of bound addresses that an l or u entry touches. -/
def Delta.bounds (p : SolPlan) (d : Delta) : Option (Nat × Nat) :=
  if d.kind = 2 ∨ d.kind = 3 then
    match Delta.addrs p { d with kind := 2 }, Delta.addrs p { d with kind := 3 } with
    | some (a :: _), some (b :: _) => some (a, b)
    | _, _ => none
  else none

/-- A packet's entries checked whole against the data as they would stand (R343): the writes, or `none`. -/
def deltaWrites (m : Cells) (p : SolPlan) (pay : List Byte) : Option (List Delta × List (Nat × List Byte)) :=
  if pay.length % 16 ≠ 0 then none
  else
    match (chunks 16 pay).mapM Delta.parse with
    | none => none
    | some ds =>
      match ds.mapM (fun d => d.addrs p) with
      | none => none
      | some ads =>
        let ws := (ds.zip ads).flatMap (fun x => x.2.map (fun a => (a, leBytes 4 x.1.value.toNat)))
        let after := Cells.writeAll m ws
        if ds.all Delta.valueOk && ds.all (fun d => match d.bounds p with | some b => boundOk after b.1 b.2 | none => true)
        then some (ds, ws) else none

/-- P and A entries set DIRTY in the RECORDs of their problems (R343). -/
def dirtyRecords (p : SolPlan) (m : Cells) (ds : List Delta) : List (Nat × List Byte) :=
  ((ds.filter (fun d => 4 ≤ d.kind)).flatMap (fun d =>
    if d.large then (match p.larges[d.prob]? with | some g => g.recAddrs | none => [])
    else (match p.find d.prob with | some (c, j) => [(c.blk j).recAddr] | none => []))).map (fun a =>
      (a, bytesOfWords [setFld (Cells.word m a) 63 63 1]))

/-! ## Large problems -/

/-- `g` and τ of R353, each rounded upwards. -/
def linkTau (rhoL : F32) (als : List (List (List F32))) (ml : Nat) : F32 :=
  let mag (x : F32) : Dy := (Fp.val (Fp.abs x)).dy
  let rowSum (i : Nat) : Dy := Dy.sum (als.flatMap (fun a => (a.getD i []).map mag))
  let sums := (List.range ml).map rowSum
  let cols := als.flatMap (fun a =>
    (List.range ((a.headD []).length)).map (fun j =>
      Dy.sum ((List.range ml).map (fun i => (mag ((a.getD i []).getD j 0)).mul (sums.getD i Dy.zero)))))
  let g := cols.foldl Dy.max Dy.zero
  let gf : F32 := BitVec.ofNat 32 (f32Up g.m.natAbs g.e)
  let t := (Fp.val gf).dy.mul (Fp.val rhoL).dy
  BitVec.ofNat 32 (f32Up t.m.natAbs t.e)

/-- `w = Σ_k A_Lk x_k`, parts in ascending k, in A64, then F32 (R353). -/
def linkSum (als : List (List (List F32))) (xs : List (List F32)) (ml : Nat) : List F32 :=
  (List.range ml).map (fun i =>
    accOut ((als.zip xs).foldl (fun acc p =>
      optCombine A64.combine acc (lineSum A64.combine (List.zipWith (fun a b => some (⟨Fp.mul a b, 0⟩ : A64)) (p.1.getD i []) p.2))) none))

/-- One iteration of a large problem (R353): the parts' iterates, then z_L and y_L. -/
def largeStep (edge : Nat) (c : SolClass) (rho rhoL tau : F32) (bs : List Blk) (ds : List BData)
    (fs : List (Option BMat)) (its : List Iter) (lL uL zL yL w : List F32) : List Iter × List F32 × List F32 × List F32 :=
  let sv := (List.range w.length).map (fun i => Fp.add (Fp.mul rhoL (Fp.sub (vAt w i) (vAt zL i))) (vAt yL i))
  let st := Fp.add c.sigma tau
  let its' := (List.range bs.length).map (fun k =>
    let b := bs.getD k ⟨0, 0, ⟨0, 0, 0, 0, 0, 0, 0⟩, 0, 0, 0, 0, 0, 0⟩
    let d := ds.getD k ⟨[], [], [], [], [], []⟩
    let it := its.getD k ⟨[], [], []⟩
    let at' := matTVec d.al b.n sv
    let bx := (List.range b.n).map (fun i => Fp.sub (Fp.sub (Fp.mul st (vAt it.x i)) (vAt d.q i)) (vAt at' i))
    let s := admmSolve edge c rho b d (fs.getD k none) it bx
    admmTail c rho d it (s.take b.n) (s.drop b.n))
  let w' := linkSum (ds.map (·.al)) (its'.map (·.x)) w.length
  let z' := (List.range w.length).map (fun i =>
    Fp.min (Fp.max (Fp.add (vAt w' i) (Fp.div (vAt yL i) rhoL)) (vAt lL i)) (vAt uL i))
  let y' := (List.range w.length).map (fun i =>
    Fp.add (vAt yL i) (Fp.mul rhoL (Fp.sub (vAt w' i) (vAt z' i))))
  (its', z', y', w')

/-! ## The deadline (R355, R361) -/

/-- Lane strokes and beats of the entries of `k` problems of `n` variables and `m` rows on one cluster (R361): warm start, assembly,
iteration and check. -/
def solBeats (k n m : Nat) : Nat := ceilDiv (k * (n + 2 * m)) 1024
def solCheckStrokes (k n m : Nat) : Nat := k * (6 * ceilDiv (m * n) 1024 + 3 * ceilDiv (n * n) 1024) + 40 * solBeats k n m

/-- T_round at NP without its ITER_END, in ninths of a nanosecond, for `k` problems of a class on one cluster (R361: Topiary strokes
take 2 ns, lane strokes 20/9 ns, each entry 1 µs). -/
def round9 (c : SolClass) (k : Nat) : Nat :=
  let v := solBeats k c.n c.m
  let iter := 18 * (ceilDiv k 32 * (c.block * c.block / 32 + 2 * c.block)) + 24 * v * 20 + 18000
  c.checkEvery * iter + solCheckStrokes k c.n c.m * 20 + (k + 2) * 9000

/-- T_fin in ninths of a nanosecond. -/
def fin9 (k : Nat) : Nat := (50000 + 1000 * k) * 9

/-- RESERVE_US of R355 for a time in ninths of a nanosecond. -/
def reserveUs (t9 : Nat) : Nat := ceilDiv (11 * t9) (5310 * 9) + 1000

end Sys2Proof.Machine
end

