-- ==== Sys2Proof/Machine/Job.lean ====
section
/-!
DEFINITION. A loaded job as the module holds it: its tables, Cassettes and plans (R110, R117, R149, R565), and what an entry
reads and writes for hazards (R123, R196, R230, R251, R264, R379, R381).
-/

namespace Sys2Proof.Machine

/-- What an entry of a generated solver Cassette does (R336, log 16). -/
inductive SolOp where
  | plain
  | warm (cls : Nat)
  | assemble (cls : Nat)
  | factor (cls : Nat)
  | solve (cls : Nat)
  | iter (cls : Nat)
  | check (cls : Nat)
  | warmL (g : Nat)
  | assembleL (g : Nat)
  | factorL (g : Nat)
  | solveL (g : Nat)
  | iterL (g : Nat)
  | checkL (g : Nat)
  | decide
  | finish
  deriving DecidableEq, Repr

/-- One Cassette: the task that runs it, its logical cluster and its entries (R110, R565). `sol` says what each entry of a
generated solver Cassette does; it is empty for a package's own Cassette. -/
structure Cassette where
  task : Nat
  cluster : Nat
  entries : List Entry
  sol : List SolOp
  deriving DecidableEq, Repr

/-- The curvature plan header (R224). -/
structure CurvPlan where
  base : Nat
  stride : Nat
  deriving DecidableEq, Repr

/-- A job of a context (R110 to R121, R565). BASE fields of swap pairs move with each commit (R260). -/
structure Job where
  ctx : Nat
  handle : Nat
  seed : Word
  drl : Option (Nat × Nat)
  regions : List Region
  pages : List Nat
  tasks : List TaskDesc
  tensors : List Tensor
  chains : List (List Word)
  reds : List RedDesc
  streams : List StreamDesc
  exchs : List ExchDesc
  opts : List OptLayer
  slots : List Slot
  tops : List TopDesc
  cassettes : List Cassette
  shard : Option ShardPlan
  param : Option ParamPlan
  pairs : List (Nat × Nat)
  curv : Option CurvPlan
  sol : Option SolPlan
  /-- history lengths in force, by scale record (R77) -/
  hlens : List (Nat × Nat)
  /-- blocks of factor sets that have had STATUS.VERIFIED since load, by slot and block (R249, R348) -/
  factored : List (Nat × Nat)
  deriving DecidableEq, Repr

def Job.tensor? (j : Job) (i : Nat) : Option Tensor := j.tensors[i]?
def Job.cassette (j : Job) (task l : Nat) : Option Cassette := j.cassettes.find? (fun c => c.task = task ∧ c.cluster = l)

/-- Logical clusters of a task (R110). -/
def Job.clusters (j : Job) (task : Nat) : List Nat := (j.cassettes.filter (fun c => c.task = task)).map (·.cluster)

/-- The task's Cassettes end in STEP_END (R136). -/
def Job.stepped (j : Job) (task : Nat) : Bool :=
  j.cassettes.any (fun c => c.task = task && (match c.entries.getLast? with | some e => e.op == .stepEnd | none => false))

/-- The task that the Cassette microcode generated from the solver plan (R340). -/
def Job.isSolver (j : Job) (task : Nat) : Bool := j.cassettes.any (fun c => c.task = task && !c.sol.isEmpty)

/-- The task holds an entry with one of the opcodes. -/
def Job.has (j : Job) (task : Nat) (ops : List Opcode) : Bool :=
  j.cassettes.any (fun c => c.task = task && c.entries.any (fun e => ops.contains e.op))

/-- The chain of a matrix or CHAIN entry; none where AUX is 0xFFFF (R191). -/
def Job.chain (j : Job) (e : Entry) : Option Chain :=
  match j.chains[e.aux]? with
  | some w => (match Chain.parse w with | .ok c => some c | .bad _ => none)
  | none => none

/-- The program of a PROG stage (R199). -/
def Job.prog (j : Job) (s : Stage) : List PIns :=
  match j.chains[s.ref]? with
  | some w => (parseProg w (s.arg % 128)).getD []
  | none => []

/-- Modules of the job: its shard plan's, or none named. -/
def Job.modules (j : Job) : List Nat := match j.shard with | some p => p.modules | none => []

/-- Modules of a job on the module `me`, ascending; the module alone without a shard plan. -/
def Job.mods (j : Job) (me : Nat) : List Nat :=
  match j.shard with
  | some p => (sortBy (· ≤ ·) p.modules).dedup
  | none => [me]

/-! ## Hazards -/

/-- A key that orders entries (R123): a HAZ_ID or a statistic slot. -/
inductive HazKey where
  | haz (id : Nat)
  | slot (k : Nat)
  deriving DecidableEq, Repr

/-- Keys of tensor indices; 0xFFFF names none. -/
def Job.hazOf (j : Job) (ts : List Nat) : List HazKey :=
  ts.filterMap (fun t => if t = noIdx then none else (j.tensor? t).map (fun x => HazKey.haz x.haz))

/-- Tensors that a chain reads and writes (R196). -/
def Chain.uses (c : Chain) : List Nat × List Nat :=
  let reads := c.stages.filterMap (fun s =>
    match s.kind with
    | .resid => some s.ref
    | .bias | .scale => if s.scalar then none else some s.ref
    | _ => none)
  let taps := c.stages.filterMap (fun s => if s.kind = .tap then some s.ref else none)
  (reads ++ c.vec ++ c.side, taps ++ c.rowout ++ c.colout)

/-- Views of a hyperparameter record (R295): their keys order the OPTIMISE entries that name the record. -/
def Job.hyperHaz (j : Job) (hyper : Nat) : List HazKey :=
  (j.tensors.filter (fun t => t.base < hyper + 32 && hyper < t.base + t.bytes)).map (fun t => HazKey.haz t.haz)

/-- Tensors that an entry reads, and those that it writes (R123); 0xFFFF stands among them where a field names none. -/
def Job.uses (j : Job) (e : Entry) : List Nat × List Nat :=
  let ch := match j.chain e with | some c => c.uses | none => ([], [])
  match e.op with
  | .mm | .mmTa | .mmTb | .chain => ([e.opa, e.opb] ++ ch.1, e.opd :: ch.2)
  | .gramL | .gramR | .send => ([e.opa], [])
  | .reduce | .copy => ([e.opa], [e.opd])
  | .topiary =>
    match j.tops[e.aux]? with
    | none => ([], [])
    | some t =>
      match t.op with
      | .export_ => ([], [t.tenA])
      | .solve => ([t.tenA], [t.tenB])
      | _ => ([t.tenA, t.tenB], [])
  | .stream =>
    match j.streams[e.aux]? with
    | some (.stream _ _ _ _ _ view) => ([], [view])
    | _ => ([], [e.opd])
  | .collective =>
    match j.reds[e.aux]? with
    | some r => ([e.opa, r.amaxList], [e.opd, r.stage])
    | none => ([e.opa], [e.opd])
  | .exchange =>
    match j.exchs[e.aux]? with
    | some x => if x.dir = 1 then ([e.opa, x.route], [e.opd, x.place, x.stats]) else ([e.opa, x.place], [e.opd])
    | none => ([e.opa], [e.opd])
  | .optimise =>
    match j.opts[e.aux]? with
    | some l => ([l.masterC, l.grad, l.m1C, l.m2C], [l.masterU, l.m1U, l.m2U, l.scr])
    | none => ([], [])
  | .digest =>
    match j.opts[e.aux]? with
    | some l => ([l.masterU, l.m1U, l.m2U], [])
    | none => ([], [])
  | .release | .nop | .signal | .fence | .ctlWrite | .iterEnd | .stepEnd | .halt => ([], [])

/-- Tensor indices that an entry names or uses. -/
def Job.named (j : Job) (e : Entry) : List Nat :=
  let chain : List Nat :=
    match e.op with
    | .mm | .mmTa | .mmTb | .chain =>
      (match j.chain e with
       | some c => c.stages.filterMap (fun s => match s.kind with
           | .resid | .tap => some s.ref
           | .bias | .scale => if s.scalar then none else some s.ref
           | _ => none) ++ c.vec ++ c.side ++ c.rowout ++ c.colout
       | none => [])
    | _ => []
  let desc : List Nat :=
    match e.op with
    | .reduce | .collective => (match j.reds[e.aux]? with | some r => [r.stage, r.amaxList] | none => [])
    | .topiary => (match j.tops[e.aux]? with | some t => [t.tenA, t.tenB] | none => [])
    | .stream | .release => (match j.streams[e.aux]? with | some (.stream _ _ _ _ _ v) => [v] | _ => [])
    | .exchange => (match j.exchs[e.aux]? with | some x => [x.route, x.place, x.stats] | none => [])
    | .optimise | .digest =>
      (match j.opts[e.aux]? with | some l => [l.masterC, l.masterU, l.grad, l.scr, l.m1C, l.m1U, l.m2C, l.m2U] | none => [])
    | _ => []
  ([e.opa, e.opb, e.opd] ++ chain ++ desc).filter (· ≠ noIdx)

/-- Keys beside the tensors' own: statistic slots, a stream's source, views of a hyperparameter record, and the view that a RELEASE
counts as writing (R123, R251, R269, R295, R381). -/
def Job.otherKeys (j : Job) (e : Entry) : List HazKey × List HazKey :=
  match e.op with
  | .gramL | .gramR => ([], [HazKey.slot (fld e.w2 15 0)])
  | .topiary => (match j.tops[e.aux]? with | some t => ([], [HazKey.slot t.slot]) | none => ([], []))
  | .stream => (match j.streams[e.aux]? with | some (.stream _ _ src _ _ _) => ([HazKey.haz src], []) | _ => ([], []))
  | .release => (match j.streams[e.aux]? with | some (.stream _ _ _ _ _ view) => ([], j.hazOf [view]) | _ => ([], []))
  | .optimise =>
    (match j.opts[e.aux]? with
    | some l => (j.hyperHaz l.hyper ++ ([l.lslot, l.rslot].filter (· ≠ noIdx)).map HazKey.slot, [])
    | none => ([], []))
  | _ => ([], [])

/-- Keys that an entry reads, and keys that it writes (R123). -/
def Job.hazards (j : Job) (e : Entry) : List HazKey × List HazKey :=
  let u := j.uses e
  let o := j.otherKeys e
  (j.hazOf u.1 ++ o.1, o.2 ++ j.hazOf u.2)

/-- Bytes of the module that an entry writes: its destination tensors, and a SEND's rows where they stay on the module. -/
def Job.writeRanges (j : Job) (me : Nat) (e : Entry) : List (Nat × Nat) :=
  ((j.uses e).2.filterMap j.tensor?).flatMap Tensor.ranges
    ++ (match e.op, j.streams[e.aux]?, j.tensor? e.opa with
      | .send, some (.transfer n dst st), some a =>
        if dst / 2 ^ 52 = me then (List.range n).map (fun k => (dst % 2 ^ 52 + k * st, a.rowBytes)) else []
      | _, _, _ => [])

/-- Bytes of the module that an entry reads through tensors; a STREAM reads the extents of its list. -/
def Job.readRanges (j : Job) (m : Cells) (e : Entry) : List (Nat × Nat) :=
  ((j.uses e).1.filterMap j.tensor?).flatMap Tensor.ranges
    ++ (match e.op, j.streams[e.aux]? with
      | .stream, some (.stream _ _ _ next list _) => ((extents m list next).filterMap id).map (fun x => (x.src, x.len))
      | _, _ => [])

/-- An earlier entry that has not completed holds this one back (R123, condition 4). -/
def hazardsMeet (earlier later : List HazKey × List HazKey) : Bool :=
  earlier.2.any (fun k => later.1.contains k || later.2.contains k) || earlier.1.any (fun k => later.2.contains k)

/-- Tile mask overlap of FENCE.TILE (R127). -/
def masksMeet (a b : Nat) : Bool := (List.range 8).any (fun t => a.testBit t && b.testBit t)

/-- Units whose places are limited (R190, R232, R383). -/
def Opcode.onChainline : Opcode → Bool
  | .mm | .mmTa | .mmTb | .chain | .reduce | .collective | .optimise | .digest => true
  | _ => false

def Opcode.isProduct : Opcode → Bool
  | .mm | .mmTa | .mmTb => true
  | _ => false

/-- Opcodes that run on the tiles that TILE_MASK names (R165, R268). -/
def Opcode.onTiles : Opcode → Bool
  | .mm | .mmTa | .mmTb | .gramL | .gramR | .optimise => true
  | _ => false

/-- The OPTIMISE entry's layer applies H16 application copies (R116, R268). -/
def Job.h16Copies (j : Job) (e : Entry) : Bool :=
  e.op == .optimise && (match j.opts[e.aux]? with
    | some l => 1 ≤ l.mode && l.mode ≤ 3 && (match j.tensor? l.scr with | some t => t.fmt == .h16 | none => false)
    | none => false)

def Opcode.onTopiary : Opcode → Bool
  | .topiary => true
  | _ => false

def Opcode.onFetch : Opcode → Bool
  | .stream | .copy | .release => true
  | _ => false

def Opcode.onFabric : Opcode → Bool
  | .signal | .send | .collective | .exchange => true
  | _ => false

/-- The code of an opcode (R115). -/
def Opcode.code : Opcode → Nat
  | .nop => 0x01 | .signal => 0x02 | .fence => 0x03 | .ctlWrite => 0x04 | .iterEnd => 0x05 | .stepEnd => 0x06
  | .halt => 0x07 | .mm => 0x10 | .mmTa => 0x11 | .mmTb => 0x12 | .gramL => 0x13 | .gramR => 0x14 | .chain => 0x20
  | .reduce => 0x21 | .topiary => 0x30 | .stream => 0x40 | .copy => 0x41 | .release => 0x42 | .send => 0x50
  | .collective => 0x51 | .exchange => 0x52 | .optimise => 0x60 | .digest => 0x61

end Sys2Proof.Machine
end

