-- ==== Sys2Proof/Machine/Cluster.lean ====
section
/-!
DEFINITION. State of a logical cluster: its Derailleur (R122 to R147), entries in flight, requests on the fabric (R131,
R401, R410), exchanges in progress (R322, R324), and its tiles, Chainline, Topiary and counters.
-/

namespace Sys2Proof.Machine

/-- States of DRL_STATUS (R143). After an abort a cluster reads ABORTING until its units have confirmed the entries that they cut off
(R152, R509; log 10). -/
inductive DrlState where
  | idle | running | stepWait | paused | migrating | saving | aborting
  deriving DecidableEq, Repr

def DrlState.code : DrlState → Nat
  | .idle => 0
  | .running => 1
  | .stepWait => 2
  | .paused => 3
  | .migrating => 4
  | .saving => 5
  | .aborting => 6

/-- An exchange in progress on one member (R318 to R324): the experts of the layer, the member's own index, the modules of the
group by member index, the choices with their placements, what the count phase has told (log 35), and the rows still to send. -/
structure Exch where
  desc : Nat
  occ : Nat
  d : ExchDesc
  x : Nat
  me : Nat
  group : List Nat
  disp : Dispatch
  /-- counts that the members have sent, by member index -/
  heard : List (Nat × List (Nat × Nat × Nat))
  /-- the members have been answered -/
  answered : Bool
  /-- members that have answered this one -/
  granted : List Nat
  /-- bytes that the count phase announced, and bytes that have arrived -/
  announced : Nat
  arrived : Nat
  /-- rows to send: module, address there, address here, bytes -/
  queue : List (Nat × Nat × Nat × Nat)
  /-- byte ranges of the destination here -/
  into : List (Nat × Nat)
  wrote : Bool
  deriving DecidableEq, Repr

/-- An address lies in the destination. -/
def Exch.takes (x : Exch) (a : Nat) : Bool := x.into.any (fun r => r.1 ≤ a && a < r.1 + r.2)

/-- Work that an issued entry still waits for. `retry` is that of a tile entry some of whose output tiles have failed their first check
(R174): what the first computation found, and by failing output tile its logical tile with the rows and columns that failed. -/
inductive Work where
  | todo
  | retry (cells : List CellFault) (fails : List (Nat × List Nat × List Nat))
  | requests
  | coll (c : Coll)
  | exch (x : Exch)
  | done
  deriving DecidableEq, Repr

/-- An entry issued and not complete (R122), with the values taken at issue (R140). -/
structure Flight where
  idx : Nat
  work : Work
  til : Word
  chn : Word
  /-- tag number of R535 where the entry is tagged -/
  tag : Option Nat
  /-- flags of R208 that the entry has raised, and its chain's settings are read from the job -/
  flags : Flags
  /-- the hyperparameter record as it stood at issue (R289) -/
  hyper : List Byte
  /-- rows or bytes sent so far -/
  sent : Nat
  deriving DecidableEq, Repr

/-- Odometers of R508 whose completions a cluster may see late (R99). -/
inductive Odo where
  | entry | coll | rung | deadline
  deriving DecidableEq, Repr

/-- The entry's unit has still to begin it, or to begin it again (R174). -/
def Work.open' : Work → Bool
  | .todo | .retry _ _ => true
  | _ => false

/-- What the cells of the tiles do wrong at a command: of the first computation what its command finds, with its retry what both find. -/
def Work.cells (w : Work) (found : List CellFault) : List CellFault :=
  match w with
  | .retry cs _ => cs ++ found.filter (fun f => f.attempt = 1)
  | _ => found.filter (fun f => f.attempt = 0)

/-- A fabric request of the cluster that is not yet answered (R401, R410): its tag, its entry, or none for a stream of
differences, the message, kept for a resend (R131), and the later SEND entries whose rows it carries too (R384). -/
structure Req where
  tag : Nat
  idx : Option Nat
  msg : Msg
  busy : Bool
  also : List Nat
  deriving DecidableEq, Repr

/-- The Derailleur's state for one task on one cluster; a lender's stays beneath a borrower's (R299). -/
structure Drl where
  st : DrlState
  holder : Option TaskKey
  gen : Bool
  head : Nat
  ahead : List Nat
  flights : List Flight
  ctrs : List Nat
  pend : List (Nat × Nat)
  iter : Nat
  pauseReq : Bool
  suspendReq : Bool
  suspendForce : Bool
  /-- whether the boundary that the Derailleur stands at is migratable, where no entry before HEAD says it: after a RUN or a
  rewind, and after an ITER_END by its own MIG (R145, R146) -/
  bound : Option Bool
  /-- nothing has issued since a rewind of R137 (R297) -/
  rewound : Bool
  /-- the state that MIGRATING or SAVING was entered from, with nothing lost at it (R143) -/
  back : DrlState
  halted : Bool
  issues : Nat
  tags : Nat
  digest : Word
  mismatch : Bool
  /-- conversion counts and largest magnitudes of the step by scale record (R70, R74) -/
  convs : List (Nat × ConvStat)
  /-- largest magnitudes that a COLLECTIVE returned, by scale record (R418) -/
  amaxs : List (Nat × Nat)
  occs : List (Nat × Nat)
  held : List (Nat × Nat)
  reqs : List Req
  /-- collective messages that came before the entry issued -/
  early : List Msg
  /-- working copies written in the step: COPY entries complete (R263) -/
  copied : List Nat
  deriving DecidableEq, Repr

def Drl.idle : Drl :=
  { st := .idle, holder := none, gen := false, head := 0, ahead := [], flights := [], ctrs := List.replicate 64 0, pend := [],
    iter := 1, pauseReq := false, suspendReq := false, suspendForce := false, bound := none, rewound := false, back := .running, halted := false, issues := 0,
    tags := 0, digest := 0, mismatch := false, convs := [], amaxs := [], occs := [], held := [], reqs := [], early := [],
    copied := [] }

/-- A cluster at entry 0 of a task's first step on it (R112, R128, R131, R137, R419). -/
def Drl.start (key : TaskKey) : Drl := { Drl.idle with st := .running, holder := some key, bound := some true }

/-- DRL_CFG: MAX_INFLIGHT 64, WINDOW 64 (R143). -/
def drlCfgDefault : Word := mkFld 14 8 64 ||| mkFld 6 0 64
def drlCfgMask : Word := mkFld 14 8 0x7F ||| mkFld 6 0 0x7F
def drlCfgOk (w : Word) : Bool := 1 ≤ fld w 14 8 && fld w 14 8 ≤ 64 && 1 ≤ fld w 6 0 && fld w 6 0 ≤ 64

/-- One logical cluster. -/
structure Cluster where
  cfg : Word
  shadow : Word
  commitErr : Bool
  lastCode : Nat
  drl : Drl
  /-- the lender's Derailleur, while the cluster is lent -/
  under : Option Drl
  /-- the lender's DRL_CFG and its shadow, while the cluster is lent (R299) -/
  lentCfg : Word
  lentShadow : Word
  migDue : Bool
  migForce : Bool
  til : Til
  pan : Pannier
  chn : Chn
  top : Top
  ctrc : Ctrc
  ctrcSh : Ctrc
  ctr : List Nat
  /-- for each threshold unit, occupancy was above N at the last pace stroke (R528) -/
  above : List Bool
  /-- pace strokes of the Derailleur since the one on which it last issued (R556) -/
  strokes : Nat
  /-- completions that an expired Odometer guarded and that are still to come, by entry, or none for a step outcome (R99) -/
  gone : List (Odo × Option Nat)
  /-- late-completion counters by Odometer (R99; log 26) -/
  late : List (Odo × Nat)
  deriving DecidableEq, Repr

/-- Completions of entries that an Odometer's expiry has overtaken (R99). -/
def Cluster.overtake (c : Cluster) (o : Odo) (is : List (Option Nat)) : Cluster := { c with gone := c.gone ++ is.map (fun i => (o, i)) }

/-- A completion that comes after its Odometer's expiry is discarded and counted (R99). -/
def Cluster.lateDone (c : Cluster) (idx : Option Nat) : Cluster :=
  match c.gone.find? (fun g => g.2 = idx) with
  | some g => { c with gone := c.gone.erase g, late := assocSet c.late g.1 ((assoc c.late g.1).getD 0 + 1) }
  | none => c

def Cluster.reset : Cluster :=
  { cfg := drlCfgDefault, shadow := drlCfgDefault, commitErr := false, lastCode := 0, drl := Drl.idle, under := none,
    lentCfg := drlCfgDefault, lentShadow := drlCfgDefault, migDue := false, migForce := false, til := Til.reset, pan := Pannier.reset, chn := Chn.reset, top := Top.reset, ctrc := Ctrc.reset,
    ctrcSh := Ctrc.reset, ctr := List.replicate 128 0, above := List.replicate 4 false, strokes := 63, gone := [],
    late := [] }

def Cluster.maxInflight (c : Cluster) : Nat := fld c.cfg 14 8
def Cluster.window (c : Cluster) : Nat := fld c.cfg 6 0
def Cluster.inflight (c : Cluster) : Nat := c.drl.flights.length

/-- DRL_STATUS (R143). -/
def Cluster.status (c : Cluster) : Word :=
  mkFld 63 60 c.drl.st.code ||| mkFld 59 59 (b2n c.commitErr) ||| mkFld 58 58 (b2n c.drl.gen) ||| mkFld 47 32 c.drl.head
    ||| mkFld 31 24 c.inflight ||| mkFld 15 0 c.lastCode

/-- The task that a cluster holds, or that lies beneath the borrower. -/
def Cluster.holds (c : Cluster) (key : TaskKey) : Bool :=
  c.drl.holder = some key || (match c.under with | some d => d.holder = some key | none => false)

/-- Free for a RUN or RESUME: held by no task, and not migrating (R147). -/
def Cluster.free (c : Cluster) : Bool := c.drl.st == .idle && c.drl.holder == none && c.under == none && !c.migDue

/-- The Derailleur of a task on the cluster changed, wherever it lies. -/
def Cluster.updDrl (c : Cluster) (key : TaskKey) (f : Drl → Drl) : Cluster :=
  if c.drl.holder = some key then { c with drl := f c.drl }
  else
    match c.under with
    | some d => if d.holder = some key then { c with under := some (f d) } else c
    | none => c

/-- Counts of the cluster's block raised. -/
def Cluster.count (c : Cluster) (ws : List (Nat × Nat)) : Cluster := { c with ctr := addCounts c.ctr ws }

/-! ## Flights -/

def Drl.flight (d : Drl) (idx : Nat) : Option Flight := d.flights.find? (fun f => f.idx = idx)

def Drl.setFlight (d : Drl) (idx : Nat) (f : Flight → Flight) : Drl :=
  { d with flights := d.flights.map (fun x => if x.idx = idx then f x else x) }

def Drl.dropFlight (d : Drl) (idx : Nat) : Drl := { d with flights := d.flights.filter (fun f => f.idx ≠ idx) }

/-- The entry has issued and is not complete, and its work is not yet done. -/
def Drl.working (d : Drl) (idx : Nat) : Bool :=
  match d.flight idx with
  | some f => f.work != .done
  | none => false

/-- Entries that have issued: below HEAD, or ahead of it. -/
def Drl.issued (d : Drl) (i : Nat) : Bool := i < d.head || d.ahead.contains i

/-- Entry `i` marked as issued: HEAD moves to the lowest that has not (R122). -/
def advanceHead : Nat → Nat → List Nat → Nat × List Nat
  | 0, h, l => (h, l)
  | fuel + 1, h, l => if l.contains h then advanceHead fuel (h + 1) (l.filter (· ≠ h)) else (h, l)

def Drl.issue (d : Drl) (f : Flight) : Drl :=
  let r := advanceHead (d.ahead.length + 1) d.head (f.idx :: d.ahead)
  { d with head := r.1, ahead := r.2, flights := d.flights ++ [f], issues := d.issues + 1, bound := none,
           rewound := false }

/-- A Derailleur whose task aborts: ABORTING while entries that its units have to cut off are in flight, else IDLE (R143, R152,
R509). -/
def Drl.cut (d : Drl) : Drl := if d.flights.isEmpty then Drl.idle else { Drl.idle with st := .aborting, flights := d.flights }

/-- A unit confirms that it has cut an entry off; the last one leaves the cluster IDLE. -/
def Drl.confirm (d : Drl) (idx : Nat) : Drl := if d.st = .aborting then (d.dropFlight idx).cut else d

/-- A counter raised by R128 to R130; `none` where it would carry above 2^24 − 1. -/
def Drl.addCtr (d : Drl) (k n : Nat) : Option Drl :=
  let v := d.ctrs.getD k 0 + n
  if v < 2 ^ 24 then some { d with ctrs := d.ctrs.set k v } else none

/-- Counters named by a mask set to 0 (R133). -/
def Drl.clearCtrs (d : Drl) (mask : Word) : Drl :=
  { d with ctrs := d.ctrs.zipIdx.map (fun p => if bit mask p.2 then 0 else p.1) }

/-- The rewind of R137: counters clear, the generation toggles, pending signals apply, entry 0 is next. A pending sum that
passes a counter's range is answered as `none`. -/
def Drl.rewind (d : Drl) : Option Drl :=
  let d0 : Drl :=
    { d with
      st := .running, ctrs := List.replicate 64 0, gen := !d.gen, pend := [], head := 0, ahead := [], iter := 1,
      bound := some true, rewound := true, digest := 0, mismatch := false, convs := [], amaxs := [], copied := [] }
  d.pend.foldl (fun o p => match o with | some x => x.addCtr p.1 p.2 | none => none) (some d0)

/-- Where a stop is asked for, entries below the answer may still issue (R145 to R147): up to the first migratable boundary
at or after everything issued, or with force up to everything issued; without an answer there is no limit. -/
def stopLimit (es : List Entry) (d : Drl) (force : Bool) : Option Nat :=
  let lo := d.ahead.foldl (fun a i => max a (i + 1)) d.head
  if force ∨ d.bound = some true then some lo
  else
    let lo := if d.bound = some false then lo + 1 else lo
    ((List.range (es.length + 1 - lo)).map (· + lo)).find? (fun b => 0 < b && (match es[b - 1]? with | some e => e.mig | none => false))

/-- HEAD stands at a boundary where the cluster may stop: a migratable one (R145, R146), or any with force. -/
def Drl.atBoundary (d : Drl) (es : List Entry) (force : Bool) : Bool :=
  d.flights.isEmpty && d.ahead.isEmpty
    && (force || (match d.bound with
      | some b => b
      | none => 0 < d.head && (match es[d.head - 1]? with | some e => e.mig | none => false)))

/-- Requests of an entry outstanding. -/
def Drl.waits (d : Drl) (idx : Nat) : Bool := d.reqs.any (fun r => r.idx = some idx ∨ r.also.contains idx)

/-- Conversion counts of the step merged into one record's (R70, R74). -/
def Drl.addConv (d : Drl) (srec : Nat) (s : ConvStat) : Drl :=
  { d with convs := assocSet d.convs srec (((assoc d.convs srec).getD {}).add s) }

/-- Occurrences of a descriptor so far (R419). -/
def Drl.occ (d : Drl) (desc : Nat) : Nat := (assoc d.occs desc).getD 0
def Drl.bumpOcc (d : Drl) (desc : Nat) : Drl := { d with occs := assocSet d.occs desc ((d.occ desc + 1) % 65536) }

end Sys2Proof.Machine
end

