-- ==== Sys2Proof/Machine/Start.lean ====
section
/-!
DEFINITION. The module's own parts: oscillator calibration (R92 to R97), edges (R100, R105, R106), configuration flash and
images (R472 to R479), life cycle (R480), physical clusters and self-test results (R482 to R488, R491), and the stage of
the start (R469).
-/

namespace Sys2Proof.Machine

/-! ## Stages and life cycle -/

/-- STAGE of R491, with HALTED of R550. -/
inductive Stage' where
  | calibrate | verify | rails | test | admission | ready | minimal | halted
  deriving DecidableEq, Repr

def Stage'.code : Stage' → Nat
  | .calibrate => 1
  | .verify => 2
  | .rails => 3
  | .test => 4
  | .admission => 5
  | .ready => 6
  | .minimal => 7
  | .halted => 8

/-- Life-cycle states of R480. -/
inductive LifeCycle where
  | manufacture | deployed | service | drain
  deriving DecidableEq, Repr

def LifeCycle.code : LifeCycle → Nat
  | .manufacture => 1
  | .deployed => 2
  | .service => 3
  | .drain => 4

/-- HALT_CAUSE codes of R550. -/
def haltRef : Nat := 1
def haltOsc : Nat := 2
def haltFlash : Nat := 3
def haltStage6 : Nat := 4
def haltReset : Nat := 5
def haltParity : Nat := 6
def haltJunction : Nat := 7
def haltFlow : Nat := 8

/-! ## Oscillators -/

/-- The range of an OSC_COUNT that is accepted (R94). -/
def oscOk (n : Nat) : Bool := 3145728 ≤ n && n ≤ 5242880

/-- CTR_OSC_CAL (R96). -/
def oscWord (ok : Bool) (tj n : Nat) : Word :=
  mkFld 63 63 (b2n ok) ||| mkFld 62 62 (b2n (!ok)) ||| mkFld 39 32 tj ||| mkFld 23 0 n

/-- Oscillator periods of a window of `us` microseconds (R97). -/
def windowCount (osc us : Nat) : Nat := ceilDiv (us * 100 * osc) 1048576

/-- The count fits its 40 bits (R97). -/
def windowOk (osc us : Nat) : Bool := windowCount osc us ≤ 2 ^ 40 - 1

/-! ## Edges -/

/-- The four clocked edges of R100. -/
inductive Edge where
  | host | hbm (stack : Nat) | serdes (port : Nat) | flash
  deriving DecidableEq, Repr

/-- How an edge is lost: its window expires, or with `fault` its samples have disagreed (R102, R105). -/
structure EdgeLoss where
  edge : Edge
  fault : Bool
  deriving DecidableEq, Repr

/-- CTR_EDGE_WIN at start (R106). -/
def edgeWinDefault : Word := mkFld 63 48 20000 ||| mkFld 47 32 200 ||| mkFld 31 16 50 ||| mkFld 15 0 100
def edgeWinOk (w : Word) : Bool := fld w 63 48 ≥ 1 && fld w 47 32 ≥ 1 && fld w 31 16 ≥ 1 && fld w 15 0 ≥ 1

/-- CTR_LADDER_WIN at start (R513). -/
def ladderDefault : Word := mkFld 63 48 100 ||| mkFld 47 32 1000 ||| mkFld 31 24 20 ||| mkFld 23 12 500 ||| mkFld 11 4 10

/-- Zero windows, and windows below the smallest of R513. -/
def ladderZero (w : Word) : Bool :=
  fld w 63 48 == 0 || fld w 47 32 == 0 || fld w 31 24 == 0 || fld w 23 12 == 0 || fld w 11 4 == 0
def ladderOk (w : Word) : Bool :=
  20 ≤ fld w 63 48 && 200 ≤ fld w 47 32 && 5 ≤ fld w 31 24 && 300 ≤ fld w 23 12 && 8 ≤ fld w 11 4

/-! ## Images -/

def refuseImageFormat : Nat := 0x01C0
def refuseImageSig : Nat := 0x01C1
def refuseRollback : Nat := 0x01C2
def refuseVariant : Nat := 0x01C3
def refuseLifeCycle : Nat := 0x01C4

/-- Variant limits (R479): code, POWER_CAP in W, VCORE_MAX in mV, FLOW_MIN in 0.1 L/min. -/
structure Limits where
  variant : Nat
  powerCap : Nat
  vcoreMax : Nat
  flowMin : Nat
  deriving DecidableEq, Repr

def limitsA : Limits := ⟨0x41, 4800, 850, 60⟩
def limitsS : Limits := ⟨0x53, 3800, 780, 48⟩
def limitsE : Limits := ⟨0x45, 2800, 700, 36⟩

/-- The image's limits respect the fused ones (R479). -/
def Limits.within (img fused : Limits) : Bool :=
  img.variant == fused.variant && img.powerCap ≤ fused.powerCap && img.vcoreMax ≤ fused.vcoreMax && fused.flowMin ≤ img.flowMin

/-- TST_CFG 10, 32, 4, 1 (R491). -/
def tstCfgDefault : Word := mkFld 63 56 10 ||| mkFld 55 48 32 ||| mkFld 47 36 4 ||| mkFld 35 35 1
def tstCfgMask : Word := mkFld 63 35 0x1FFFFFFF
def tstCfgOk (w : Word) : Bool := 1 ≤ fld w 63 56 && fld w 55 48 ≤ 64

/-- TST_TUNE_CFG (R518). -/
def tuneCfgDefault : Word :=
  mkFld 63 52 24 ||| mkFld 51 40 600 ||| mkFld 39 28 168 ||| mkFld 27 24 8 ||| mkFld 23 20 2 ||| mkFld 19 16 3
    ||| mkFld 15 12 4 ||| mkFld 11 4 50 ||| mkFld 0 0 1
def tuneCfgMask : Word := mkFld 63 4 0xFFFFFFFFFFFFFFF ||| mkFld 0 0 1
def tuneCfgOk (w : Word) : Bool :=
  1 ≤ fld w 63 52 && 1 ≤ fld w 51 40 && 1 ≤ fld w 39 28 && 1 ≤ fld w 27 24 && 1 ≤ fld w 23 20 && 1 ≤ fld w 19 16
    && fld w 15 12 ≤ 8 && 1 ≤ fld w 11 4

/-- PWR_CFG with the limits in force: CAP_W, VCORE_TARGET_MV, TJ_LIMIT 95, AVG_MS 10 (R558). -/
def pwrCfgOf (l : Limits) : Word := mkFld 63 48 l.powerCap ||| mkFld 47 36 l.vcoreMax ||| mkFld 35 28 95 ||| mkFld 27 16 10
def pwrCfgMask : Word := mkFld 63 16 0xFFFFFFFFFFFF
def pwrCfgOk (l : Limits) (w : Word) : Bool :=
  500 ≤ fld w 63 48 && fld w 63 48 ≤ l.powerCap && 600 ≤ fld w 47 36 && fld w 47 36 ≤ l.vcoreMax && 70 ≤ fld w 35 28
    && fld w 35 28 ≤ 100 && 1 ≤ fld w 27 16 && fld w 27 16 ≤ 1000

/-- HUB_CFG: ATT_MIN_S 10 (R445). -/
def hubCfgDefault : Word := mkFld 15 0 10
def hubCfgMask : Word := mkFld 15 0 0xFFFF
def hubCfgOk (w : Word) : Bool := 1 ≤ fld w 15 0

/-- What the configuration image carries (R473): limits, the expected map with MAP_ID and entry modules, the modules of
each domain, and the default of every field that reads flash. -/
structure ConfImg where
  limits : Limits
  mapId : Word
  map : List MapEnt
  entries : List Nat
  modules : List Nat
  edgeWin : Word
  ladder : Word
  tilCfg : Word
  optCfg : Word
  memCfg : Word
  hdgCfg : Word
  hubCfg : Word
  tstCfg : Word
  tuneCfg : Word
  ctrCfg : Word
  dumpBase : Word
  pwrCfg : Word
  deriving DecidableEq, Repr

/-- Domain of a module number: bits [11:6] (R402). -/
def domainOf (m : Nat) : Nat := m / 64

/-- The expected map that the model's flash holds (log 2): a ring of 16 modules 0x040 to 0x04F, ports 0 to 23 of each joined
to ports 24 to 47 of the next. -/
def mapDefault : List MapEnt :=
  (List.range 16).flatMap (fun i => (List.range 48).map (fun p =>
    if p < 24 then ⟨0x40 + i, p, 0x40 + (i + 1) % 16, p + 24⟩ else ⟨0x40 + i, p, 0x40 + (i + 15) % 16, p - 24⟩))

def confDefault : ConfImg :=
  { limits := limitsA, mapId := 1, map := mapDefault, entries := [0x40], modules := (List.range 16).map (· + 0x40),
    edgeWin := edgeWinDefault, ladder := ladderDefault, tilCfg := tilCfgDefault, optCfg := optCfgDefault,
    memCfg := memCfgDefault, hdgCfg := hdgCfgDefault, hubCfg := hubCfgDefault, tstCfg := tstCfgDefault,
    tuneCfg := tuneCfgDefault, ctrCfg := ctrCfgDefault, dumpBase := dumpBaseDefault, pwrCfg := pwrCfgOf limitsA }

/-- Some field reads zero whose map forbids zero (R97, R106, R476): its least value is 1 or more. -/
def ConfImg.zeroFields (c : ConfImg) : Bool :=
  !(edgeWinOk c.edgeWin) || ladderZero c.ladder || fld c.tilCfg 14 8 == 0 || fld c.tilCfg 4 0 == 0 || fld c.optCfg 63 32 == 0
    || fld c.memCfg 47 40 == 0 || fld c.memCfg 31 16 == 0 || fld c.hdgCfg 63 43 == 0 || fld c.hdgCfg 39 32 == 0
    || fld c.hdgCfg 31 24 == 0 || fld c.hdgCfg 23 16 == 0 || fld c.hubCfg 15 0 == 0 || fld c.tstCfg 63 56 == 0
    || fld c.tuneCfg 63 52 == 0 || fld c.tuneCfg 51 40 == 0 || fld c.tuneCfg 39 28 == 0 || fld c.tuneCfg 27 24 == 0
    || fld c.tuneCfg 23 20 == 0 || fld c.tuneCfg 19 16 == 0 || fld c.tuneCfg 11 4 == 0 || fld c.ctrCfg 55 48 == 0
    || fld c.ctrCfg 31 0 == 0 || fld c.pwrCfg 63 48 == 0 || fld c.pwrCfg 47 36 == 0 || fld c.pwrCfg 35 28 == 0
    || fld c.pwrCfg 27 16 == 0

/-- The expected map, the entry modules and the modules of the hall name modules and ports that exist (R30, R397, R423). -/
def ConfImg.mapOk (c : ConfImg) : Bool :=
  c.map.all (fun e => e.module < 4096 && e.port < 48 && e.farModule < 4096 && e.farPort < 48)
    && c.entries.all (· < 4096) && c.modules.all (· < 4096)

/-- The dump ring lies in the host area of an entry module's window (R532). -/
def ConfImg.dumpOk (c : ConfImg) : Bool :=
  c.entries.contains (fld c.dumpBase 63 52) && dumpBaseOk (fld c.dumpBase 63 52) (fld c.ctrCfg 55 48) c.dumpBase

/-- The bounds of a configuration image's fields (R476): a zero that a map forbids, or another bound. -/
def ConfImg.refusal (c : ConfImg) (fused : Limits) : Option Nat :=
  if !(c.limits.within fused) then some refuseVariant
  else if c.zeroFields then some refuseZero
  else if !(ladderOk c.ladder && tilCfgOk c.tilCfg && optCfgOk c.optCfg && memCfgOk c.memCfg && hdgCfgOk c.hdgCfg
      && hubCfgOk c.hubCfg && tstCfgOk c.tstCfg && tuneCfgOk c.tuneCfg && ctrCfgOk c.ctrCfg && pwrCfgOk c.limits c.pwrCfg
      && c.mapOk && c.dumpOk)
  then some refuseImageFormat
  else none

/-! ## Test pattern packs -/

/-- One pass of a scan set (R482): the generator's seed, the pattern count, and by stepping the signature expected of each of the 13
registers. -/
structure ScanPass where
  seed : Word
  count : Nat
  expect : List (Nat × List Word)
  deriving DecidableEq, Repr

/-- A set of the TUNE section (R507): seed, pattern count, its two rail points in mV, the mask of the registers that it tests, and by
stepping the signatures expected at each point. -/
structure TuneSet where
  seed : Word
  count : Nat
  points : List Nat
  mask : Nat
  expect : List (Nat × List (List Word))
  deriving DecidableEq, Repr

/-- What a test pattern pack carries (R482, R507): the two passes of FULL and of QUICK, BASE, and the fleet sets in order. -/
structure Pack where
  full : List ScanPass
  quick : List ScanPass
  base : TuneSet
  fleet : List TuneSet
  deriving DecidableEq, Repr

/-- Registers of a cluster that compact its captures (R482): tiles 0 to 8, then the Derailleur with the fetch engine, the Chainline,
Topiary, and the Pannier with the fabric interface. -/
def scanRegs : Nat := 13

/-- One shift of a cluster's pattern generator (R482): a Fibonacci register with taps 64, 63, 61 and 60. -/
def lfsr (g : Word) : Word := (g <<< 1) ||| BitVec.ofNat 64 (b2n (bit g 63 ^^ bit g 62 ^^ bit g 60 ^^ bit g 59))

/-- `n` shifts of the generator. -/
def lfsrRun : Nat → Word → Word
  | 0, g => g
  | n + 1, g => lfsrRun n (lfsr g)

/-- Registers, of those that `mask` names, whose signatures are not those expected. -/
def sigsDiffer (expect sigs : List Word) (mask : Nat) : List Nat :=
  (List.range scanRegs).filter (fun k => mask.testBit k && wordAt sigs k != wordAt expect k)

/-- The pass that a set names, with what it expects of a stepping. -/
def ScanPass.differ (p : ScanPass) (stepping : Nat) (sigs : List Word) : List Nat :=
  sigsDiffer ((assoc p.expect stepping).getD []) sigs (2 ^ scanRegs - 1)

/-- A rail reading, in 0.1 mV, within 5 mV of its point (R483). -/
def railHeld (point reading : Nat) : Bool := point ≤ reading + 50 && reading ≤ point + 50

/-- The pack of the model's flash (log 2): no seed, one pattern, and signatures of zeros for stepping C0. -/
def packDefault : Pack :=
  let pass : ScanPass := ⟨1, 1, [(0xC0, List.replicate scanRegs 0)]⟩
  ⟨[pass, pass], [pass, pass], ⟨1, 1, [600, 850], 2 ^ scanRegs - 1, [(0xC0, List.replicate 2 (List.replicate scanRegs 0))]⟩, []⟩

/-! ## Images and the flash -/

/-- An image (R475): its bytes, and what they carry that no rule gives a layout of: whether the signature over header and body is valid
under the key, and the body of a configuration image or of a test pattern pack (log 20). -/
structure Image where
  bytes : List Byte
  sigOk : Bool
  conf : Option ConfImg
  pack : Option Pack
  deriving DecidableEq, Repr

/-- Bytes of an image beside its body: header, key and signature (R475). -/
def imageExtra : Nat := 64 + 68 + 2820

def Image.header (i : Image) : List Word := wordsOfBytes (i.bytes.take 64)
def Image.svn (i : Image) : Nat := fld (wordAt i.header 0) 5 0
def Image.kind (i : Image) : Nat := fld (wordAt i.header 0) 31 28
def Image.version (i : Image) : Nat := fld (wordAt i.header 2) 63 32
def Image.length (i : Image) : Nat := (wordAt i.header 1).toNat
def Image.seq (i : Image) : Nat := fld (wordAt i.header 3) 63 32
/-- The vendor public key behind the body. -/
def Image.key (i : Image) : List Byte := (i.bytes.drop (64 + i.length)).take 68

/-- The partitions of the flash die (R472). -/
inductive FlashPart where
  | dir | xidx | hist | config | mcode | fw | tpack | stage | reserved
  deriving DecidableEq, Repr

def FlashPart.all : List FlashPart := [.dir, .xidx, .hist, .config, .mcode, .fw, .tpack, .stage, .reserved]

def FlashPart.offset : FlashPart → Nat
  | .dir => 0x00000000
  | .xidx => 0x00100000
  | .hist => 0x00200000
  | .config => 0x04000000
  | .mcode => 0x08000000
  | .fw => 0x10000000
  | .tpack => 0x20000000
  | .stage => 0x60000000
  | .reserved => 0xA0000000

def FlashPart.size : FlashPart → Nat
  | .dir => 0x00100000
  | .xidx => 0x00100000
  | .hist => 0x03E00000
  | .config => 0x04000000
  | .mcode => 0x08000000
  | .fw => 0x10000000
  | .tpack => 0x40000000
  | .stage => 0x40000000
  | .reserved => 0x60000000

/-- The partition of an image's kind (R472, R475). -/
def FlashPart.ofKind : Nat → FlashPart
  | 1 => .fw
  | 2 => .mcode
  | 3 => .tpack
  | _ => .config

/-- Bytes of the partition of a kind (R472). -/
def partBytes (kind : Nat) : Nat := (FlashPart.ofKind kind).size

/-- A well-formed header that the partition of `kind` takes, before an image of its length (R475, R476). -/
def Image.formOk (i : Image) (kind stepping : Nat) : Bool :=
  fld (wordAt i.header 0) 63 32 == 0x47574349 && fld (wordAt i.header 0) 27 6 == 0 && i.kind == kind && 1 ≤ kind && kind ≤ 4
    && 1 ≤ i.length && i.length ≤ partBytes kind - imageExtra && i.bytes.length == i.length + imageExtra && fld (wordAt i.header 2) 15 0 == 0
    && fld (wordAt i.header 3) 31 0 == 0 && ((List.range 4).all (fun k => wordAt i.header (4 + k) == 0))
    && fld (wordAt i.header 2) 31 24 ≤ stepping && stepping ≤ fld (wordAt i.header 2) 23 16

/-- An image of the model's flash (log 2): its header, a body of one zero byte, a key and a signature of zeros. -/
def imageDefault (kind : Nat) : Image :=
  { bytes := bytesOfWords [mkFld 63 32 0x47574349 ||| mkFld 31 28 kind, 1, mkFld 63 32 1 ||| mkFld 31 24 0xA0 ||| mkFld 23 16 0xFF, mkFld 63 32 1,
      0, 0, 0, 0] ++ List.replicate (imageExtra - 64 + 1) 0
    sigOk := true, conf := if kind = 4 then some confDefault else none, pack := if kind = 3 then some packDefault else none }

/-- What DIR says of an image partition, VALID and the image's length, and the image in it (R472). -/
structure Part where
  valid : Bool
  len : Nat
  image : Image
  deriving DecidableEq, Repr

/-- The image that a start reads from a partition (R472): as many bytes as DIR gives. -/
def Part.read (p : Part) : Image := { p.image with bytes := p.image.bytes.take p.len }

/-- The configuration flash and the fuses (R472, R476, R479, R488): image partitions by kind, the configuration image and the pack in
use, STAGE, and XIDX; the journal of HIST stands in the history. -/
structure Flash where
  fused : Limits
  stepping : Nat
  endFace : Nat
  serial : Word
  rootHash : List Byte
  floors : List Nat
  parts : List Part
  conf : ConfImg
  pack : Pack
  staged : List Byte
  xidx : Nat
  deriving DecidableEq, Repr

/-- Fused and flash values that the spec leaves open (DESIGN CHOICE, log 2): a CT64-A of stepping C0 with end face 1, serial
number 0, and one valid image of each kind under a root key of zeros. -/
def Flash.reset : Flash :=
  { fused := limitsA, stepping := 0xC0, endFace := 1, serial := 0, rootHash := digest256 (List.replicate 68 0), floors := [0, 0, 0, 0],
    parts := (List.range 4).map (fun k => ⟨true, imageExtra + 1, imageDefault (k + 1)⟩)
    conf := confDefault, pack := packDefault, staged := [], xidx := 0 }

/-- Verification of an image against the partition of its kind (R476): the first failing check's code. -/
def Flash.verify (f : Flash) (kind : Nat) (i : Image) : Option Nat :=
  if !(i.formOk kind f.stepping) then some refuseImageFormat
  else if digest256 i.key != f.rootHash || !i.sigOk then some refuseImageSig
  else if i.svn < f.floors.getD (kind - 1) 0 then some refuseRollback
  else if kind = 4 then (match i.conf with | some c => c.refusal f.fused | none => some refuseImageFormat)
  else none

/-- IMG_FAIL of R477: kinds whose image is not VALID or fails its checks. -/
def Flash.failing (f : Flash) : List Nat :=
  (List.range 4).filter (fun k =>
    match f.parts[k]? with
    | some p => !p.valid || (f.verify (k + 1) p.read).isSome
    | none => true)

/-- What a start took from flash and fuses, for the words and digests that keep it until the next start (R13, R464): the
images, the SVN floors, the words of the fuse map, and the bytes of the repair history. -/
structure Taken where
  images : List Image
  floors : List Nat
  fuses : List Word
  history : List Byte
  deriving DecidableEq, Repr

def Flash.taken (f : Flash) (fuses : List Word) (history : List Byte) : Taken := ⟨f.parts.map Part.read, f.floors, fuses, history⟩

/-- TST_IMAGE of kind `k + 1` (R491): VERSION, SVN and FLOOR as the start took them (R13), VALID as it stands. -/
def Flash.imageWord (f : Flash) (t : Taken) (k : Nat) : Word :=
  match t.images[k]?, f.parts[k]? with
  | some i, some p => mkFld 63 32 i.version ||| mkFld 29 24 i.svn ||| mkFld 21 16 (t.floors.getD k 0) ||| mkFld 0 0 (b2n p.valid)
  | _, _ => 0

/-- VALID of a partition cleared: step 1 of an install (R478). -/
def Flash.clearValid (f : Flash) (kind : Nat) : Flash := { f with parts := updAt f.parts (kind - 1) (fun p => { p with valid := false }) }

/-- An image programmed into the partition of its kind (step 2 of R478): DIR takes its length at the install, and bytes at `wrong` read
back inverted. -/
def Flash.program (f : Flash) (kind : Nat) (i : Image) (wrong : List Nat) : Flash :=
  let bs := i.bytes.zipIdx.map (fun b => if wrong.contains b.2 then ~~~ b.1 else b.1)
  { f with parts := updAt f.parts (kind - 1) (fun p => { p with len := i.bytes.length, image := { i with bytes := bs } }) }

/-- Steps 3 and 4 of R478: VALID is set where the copy's digest is that of STAGE. -/
def Flash.confirm (f : Flash) (kind : Nat) : Flash :=
  { f with parts := updAt f.parts (kind - 1) (fun p => { p with valid := digest256 p.read.bytes == digest256 f.staged }) }

/-- The partition's image is VALID. -/
def Flash.valid (f : Flash) (kind : Nat) : Bool := match f.parts[kind - 1]? with | some p => p.valid | none => false

/-! ## Physical clusters -/

/-- A physical cluster (R491, R496, R501, R556 to R558); masks have one bit for each of the nine physical tiles. -/
structure PCl where
  fused : Bool
  soft : Bool
  propose : Bool
  logical : Option Nat
  spare : Bool
  failStarts : List Nat
  tileFused : Nat
  tileSoft : Nat
  tilePropose : Nat
  tileMap : List Nat
  tileFailStarts : List (List Nat)
  scanFail : Bool
  scanTiles : Nat
  osc : Nat
  calTj : Nat
  offset : Nat
  down : Nat
  therm : Bool
  tj : Nat
  railOn : Bool
  out : Bool
  lastTest : Nat
  lastPass : Bool
  due : Bool
  tuning : Bool
  was : Option Nat
  /-- fleet sets of the pack that its Tune-ups have run (R505) -/
  fleet : Nat
  /-- the pattern generator and the 13 signature registers (R482) -/
  gen : Word
  sigs : List Word
  deriving DecidableEq, Repr

/-- Physical cluster `p` as shipped (R491): clusters 0 to 15 of a chiplet run its logical clusters, cluster 16 is the spare,
tiles 0 to 7 run logical tiles and tile 8 is the spare. Measured values: log 4 and 5. -/
def PCl.ship (p : Nat) : PCl :=
  { fused := false, soft := false, propose := false, logical := if p % 17 < 16 then some (p / 17 * 16 + p % 17) else none,
    spare := p % 17 = 16, failStarts := [], tileFused := 0, tileSoft := 0, tilePropose := 0, tileMap := List.range 8,
    tileFailStarts := List.replicate 9 [], scanFail := false, scanTiles := 0, osc := 4194304, calTj := 40, offset := 0, down := 0,
    therm := false, tj := 40, railOn := true, out := false, lastTest := 0, lastPass := true, due := false, tuning := false,
    was := none, fleet := 0, gen := 0, sigs := List.replicate scanRegs 0 }

def PCl.chip (p : Nat) : Nat := p / 17

/-- A tile that may serve: not fused and not soft-excluded. -/
def PCl.tileOk (c : PCl) (t : Nat) : Bool := !(c.tileFused.testBit t) && !(c.tileSoft.testBit t)

/-- Tiles that may serve. -/
def PCl.goodTiles (c : PCl) : List Nat := (List.range 9).filter c.tileOk

/-- The admitted tile that runs no logical tile, or none (SPARE_PTILE). -/
def PCl.spareTile (c : PCl) : Option Nat := c.goodTiles.find? (fun t => !(c.tileMap.contains t))

/-- The cluster is admitted: neither fused, soft-excluded nor out, and eight of its tiles are. -/
def PCl.usable (c : PCl) : Bool := !c.fused && !c.soft && !c.out && 8 ≤ c.goodTiles.length

/-- Failures among the last 16 starts, of a list of start numbers. -/
def failsIn (starts : Nat) (l : List Nat) : Nat := (l.filter (fun s => s + 16 > starts)).length

/-- TST_CLUSTER (R491). -/
def PCl.word (c : PCl) (starts : Nat) : Word :=
  mkFld 63 63 (b2n c.fused) ||| mkFld 62 62 (b2n c.soft) ||| mkFld 61 61 (b2n c.propose) ||| mkFld 60 60 (b2n c.spare)
    ||| mkFld 59 53 (c.logical.getD 0) ||| mkFld 52 49 (min 15 (failsIn starts c.failStarts)) ||| mkFld 48 40 c.tileFused
    ||| mkFld 39 31 c.tileSoft ||| mkFld 30 22 c.tilePropose ||| mkFld 21 18 (c.spareTile.getD 0xF)
    ||| mkFld 17 0 (sumNat ((List.range 9).map (fun t => min 3 (failsIn starts (c.tileFailStarts.getD t [])) * 4 ^ t)))

/-- Floor of the rail in units of 0.1 mV (R87, R501): 0.600 V and the offset. -/
def PCl.floorMv (c : PCl) : Nat := 6000 + 125 * c.offset

/-- Set point in 0.1 mV: min(VCORE_MAX, VCORE_TARGET + 12.5 mV × (offset − DOWN_STEPS)), never below the floor (R87, R556); the
last step to the floor is shorter where the target is no whole number of steps above it (log 40). -/
def PCl.railMv (c : PCl) (vmax target : Nat) : Nat :=
  max c.floorMv (min (10 * vmax) (10 * target + 125 * c.offset - 125 * c.down))

/-- The logical tile that a physical tile runs. -/
def PCl.ltileOf (c : PCl) (t : Nat) : Option Nat := c.tileMap.findIdx? (· = t)

/-- SPARE_FREE and SPARE_LTILE of a physical cluster that takes a logical number (R181). -/
def PCl.spareSide (c : PCl) : Bool × Nat := if c.spareTile.isSome then (true, 0) else (false, (c.ltileOf 8).getD 0)

/-! ## The history journal (R474) -/

/-- A unit's history: charges of the window with the start and the hour at which each came. -/
structure Unit' where
  kind : Nat
  index : Nat
  charges : List (Nat × Nat)
  total : Nat
  perm : Bool
  last : Nat
  /-- rows and columns of the output tile that the latest report located (R174) -/
  rows : List Nat
  cols : List Nat
  deriving DecidableEq, Repr

/-- What the history keeps of a physical cluster over a start: results of its latest start test, exclusions, proposals, failures, the
numbers that it and its tiles run, and its rail offset (R474, R487, R501). -/
structure Trace where
  fail : Bool
  tiles : Nat
  soft : Bool
  propose : Bool
  logical : Option Nat
  spare : Bool
  out : Bool
  failStarts : List Nat
  tileSoft : Nat
  tilePropose : Nat
  tileMap : List Nat
  tileFailStarts : List (List Nat)
  offset : Nat
  deriving DecidableEq, Repr

def PCl.trace (c : PCl) : Trace :=
  { fail := c.scanFail, tiles := c.scanTiles, soft := c.soft, propose := c.propose, logical := c.logical, spare := c.spare, out := c.out,
    failStarts := c.failStarts, tileSoft := c.tileSoft, tilePropose := c.tilePropose, tileMap := c.tileMap,
    tileFailStarts := c.tileFailStarts, offset := c.offset }

/-- A physical cluster with what the history keeps of it. -/
def PCl.recall (c : PCl) (t : Trace) : PCl :=
  { c with scanFail := t.fail, scanTiles := t.tiles, soft := t.soft, propose := t.propose, logical := t.logical, spare := t.spare, out := t.out,
           failStarts := t.failStarts, tileSoft := t.tileSoft, tilePropose := t.tilePropose, tileMap := t.tileMap,
           tileFailStarts := t.tileFailStarts, offset := t.offset }

/-- Digits of four bits as one word. -/
def nibbles (l : List Nat) : Word := BitVec.ofNat 64 (l.foldr (fun d n => d % 16 + 16 * n) 0)

/-- The words of a trace (DESIGN CHOICE, log 67: no rule gives the layout of a record). -/
def Trace.words (t : Trace) : List Word :=
  [mkFld 63 63 (b2n t.fail) ||| mkFld 62 62 (b2n t.soft) ||| mkFld 61 61 (b2n t.propose) ||| mkFld 60 60 (b2n t.spare) ||| mkFld 59 59 (b2n t.out)
      ||| mkFld 58 58 (b2n t.logical.isSome) ||| mkFld 57 51 (t.logical.getD 0) ||| mkFld 50 47 t.offset ||| mkFld 26 18 t.tiles
      ||| mkFld 17 9 t.tileSoft ||| mkFld 8 0 t.tilePropose,
    nibbles t.tileMap, nibbles (t.failStarts.length :: t.tileFailStarts.map (·.length))]
    ++ (t.failStarts ++ t.tileFailStarts.flatten).map (BitVec.ofNat 64)

/-- A record of the journal (R474, R496): a start with its number, every cluster's trace, pool use and life-cycle state; the state
of a cluster after a repair at run time; of a unit after a charge or a report; a frame moved; a spare regulator phase put in service (R558);
a change of the life-cycle state; and a module reset (R514). -/
inductive JItem where
  | start (n : Nat) (traces : List Trace) (pools : List Nat) (lc : LifeCycle) (cause : Nat)
  | cluster (p : Nat) (t : Trace)
  | unit (u : Unit')
  | moved (f : Frame)
  | phase (rail : Nat)
  | life (lc : LifeCycle) (cause : Nat)
  | moduleReset
  deriving DecidableEq, Repr

/-- A frame as a word. -/
def Frame.word : Frame → Word
  | .near c n => mkFld 63 60 1 ||| mkFld 59 48 c ||| mkFld 31 0 n
  | .hbm k n => mkFld 63 60 2 ||| mkFld 59 48 k ||| mkFld 31 0 n
  | .pool k n => mkFld 63 60 3 ||| mkFld 59 48 k ||| mkFld 31 0 n

/-- The words of a record (DESIGN CHOICE, log 67). -/
def JItem.words : JItem → List Word
  | .start n ts ps lc cause =>
    [mkFld 63 60 1 ||| mkFld 59 56 lc.code ||| mkFld 55 52 cause, BitVec.ofNat 64 n] ++ ts.flatMap Trace.words ++ ps.map (BitVec.ofNat 64)
  | .cluster p t => (mkFld 63 60 2 ||| mkFld 7 0 p) :: t.words
  | .unit u =>
    [mkFld 63 60 3 ||| mkFld 59 56 u.kind ||| mkFld 55 44 u.index ||| mkFld 43 43 (b2n u.perm) ||| mkFld 42 37 u.last ||| mkFld 36 21 u.total,
      mkFld 63 32 u.charges.length ||| mkFld 31 16 u.rows.length ||| mkFld 15 0 u.cols.length]
      ++ u.charges.flatMap (fun c => [BitVec.ofNat 64 c.1, BitVec.ofNat 64 c.2]) ++ (u.rows ++ u.cols).map (BitVec.ofNat 64)
  | .moved f => [mkFld 63 60 4, f.word]
  | .life lc cause => [mkFld 63 60 5 ||| mkFld 59 56 lc.code ||| mkFld 55 52 cause]
  | .moduleReset => [mkFld 63 60 6]
  | .phase rail => [mkFld 63 60 7 ||| mkFld 7 0 rail]

/-- A record as it stands in the journal, ended by its CRC-32C (R453, R474). -/
structure JRec where
  item : JItem
  crc : BitVec 32
  deriving DecidableEq, Repr

def JRec.of (i : JItem) : JRec := ⟨i, crc32c (bytesOfWords i.words)⟩
/-- The record's CRC fits it; one that does not is ignored at read. -/
def JRec.ok (r : JRec) : Bool := r.crc == crc32c (bytesOfWords r.item.words)
def JRec.size (r : JRec) : Nat := 8 * r.item.words.length + 4
def JRec.bytes (r : JRec) : List Byte := bytesOfWords r.item.words ++ leBytes 4 r.crc.toNat

def JItem.isStart : JItem → Bool
  | .start _ _ _ _ _ => true
  | _ => false

/-- A later record of the journal makes an earlier one superfluous: the same cluster's or unit's state is in it, or the life-cycle
state. -/
def JItem.covers (later earlier : JItem) : Bool :=
  match later, earlier with
  | .start _ _ _ _ _, .cluster _ _ => true
  | .start _ _ _ _ _, .life _ _ => true
  | .cluster p _, .cluster q _ => p == q
  | .unit u, .unit v => u.kind == v.kind && u.index == v.index
  | .life _ _, .life _ _ => true
  | _, _ => false

/-- The journal compacted (R474): the last 16 start records, and the latest state of every unit. -/
def compactJournal (l : List JRec) : List JRec :=
  (l.foldr (fun r (kept : List JRec) =>
    if !r.ok then kept
    else if r.item.isStart then (if (kept.filter (fun k => k.item.isStart)).length < 16 then r :: kept else kept)
    else if kept.any (fun k => k.item.covers r.item) then kept
    else r :: kept) [])

/-- A record appended; a journal that is full is compacted first (R474). -/
def appendJournal (l : List JRec) (i : JItem) : List JRec :=
  let r := JRec.of i
  (if FlashPart.hist.size < sumNat (l.map JRec.size) + r.size then compactJournal l else l) ++ [r]

/-- What stage 3 reads out of the journal (R469, R474): the last start's number, the life-cycle state with the cause of DRAIN, each
cluster's trace, the units with charges, the frames moved, and the rails on their spare phase. -/
structure Replay where
  starts : Nat
  lc : LifeCycle
  cause : Nat
  traces : List Trace
  units : List Unit'
  moved : List Frame
  phases : List Nat
  deriving DecidableEq, Repr

def Replay.step (r : Replay) : JItem → Replay
  | .start n ts _ lc cause => { r with starts := n, lc, cause, traces := ts }
  | .cluster p t => { r with traces := updAt r.traces p (fun _ => t) }
  | .unit u => { r with units := u :: r.units.filter (fun v => !(v.kind = u.kind ∧ v.index = u.index)) }
  | .moved f => { r with moved := r.moved ++ [f] }
  | .phase rail => { r with phases := rail :: r.phases.filter (· ≠ rail) }
  | .life lc cause => { r with lc, cause }
  | .moduleReset => r

/-- The journal read from its first record, from the module as it leaves its factory in life-cycle state `lc` (R474, R480, R491). -/
def replayJournal (l : List JRec) (lc : LifeCycle) : Replay :=
  ((l.filter JRec.ok).map (·.item)).foldl Replay.step
    { starts := 0, lc, cause := 0, traces := (List.range 136).map (fun p => (PCl.ship p).trace), units := [], moved := [], phases := [] }

/-- The journal of the module as shipped: the record of its one start (log 2). -/
def journalDefault : List JRec :=
  [JRec.of (.start 1 ((List.range 136).map (fun p => (PCl.ship p).trace)) (List.replicate 24 0) .deployed 0)]

/-! ## The start -/

/-- The words of a fuse map (R464, R479, R488): each cluster's entry and those of its tiles, spare rows fused into each near tier, the
limits, and the SVN floors (DESIGN CHOICE, log 14: no rule gives the order). -/
def fuseWords (pcl : List PCl) (near : List Nat) (l : Limits) (floors : List Nat) : List Word :=
  pcl.map (fun c => mkFld 63 63 (b2n c.fused) ||| mkFld 48 40 c.tileFused) ++ near.map (BitVec.ofNat 64)
    ++ [mkFld 63 56 l.variant ||| mkFld 47 32 l.powerCap ||| mkFld 31 16 l.vcoreMax ||| mkFld 15 0 l.flowMin] ++ floors.map (BitVec.ofNat 64)

/-- The start, its results and the TST words (R469 to R471, R489 to R491). -/
structure Start where
  stage : Stage'
  quick : Bool
  scanDone : Bool
  memDone : Bool
  halt : Nat
  lc : LifeCycle
  /-- the start in progress follows LEAVE_SERVICE (R480) -/
  leaving : Bool
  starts : Nat
  imgFail : Nat
  lastCode : Nat
  cfg : Word
  shadow : Word
  commitErr : Bool
  cmdErr : Bool
  domainReady : Bool
  berChecked : Bool
  /-- the readiness window is running -/
  winOn : Bool
  hubOsc : Nat
  /-- the hub's junction, and its junction at calibration (R96) -/
  hubTj : Nat
  hubCalTj : Nat
  pcl : List PCl
  nearSoft : List Nat
  nearFused : List Nat
  /-- edges whose clock has stopped, and edges out of service until their engine's reset (R105, R107) -/
  stopped : List Edge
  outEdges : List Edge
  /-- late completions by edge Odometer, and of the module-reset Odometer (R99; log 26) -/
  lateEdges : List (Edge × Nat)
  lateReset : Nat
  flash : Flash
  taken : Taken
  deriving DecidableEq, Repr

/-- The module once STAGE reads READY, as shipped (log 1, log 2). -/
def Start.reset : Start :=
  { stage := .ready, quick := false, scanDone := true, memDone := true, halt := 0, lc := .deployed, leaving := false, starts := 1,
    imgFail := 0, lastCode := 0, cfg := tstCfgDefault, shadow := tstCfgDefault, commitErr := false, cmdErr := false,
    domainReady := false, berChecked := false, winOn := false, hubOsc := 4194304, hubTj := 40, hubCalTj := 40,
    pcl := (List.range 136).map PCl.ship, nearSoft := List.replicate 8 0, nearFused := List.replicate 8 0, stopped := [],
    outEdges := [], lateEdges := [], lateReset := 0, flash := Flash.reset,
    taken := Flash.reset.taken (fuseWords ((List.range 136).map PCl.ship) (List.replicate 8 0) limitsA [0, 0, 0, 0]) [] }

/-- The fuse map's words as they stand. -/
def Start.fuseMap (s : Start) : List Word := fuseWords s.pcl s.nearFused s.flash.fused s.flash.floors

/-- The edge's clock runs and the edge is in service (R105, R107). -/
def Start.edgeUp (s : Start) (e : Edge) : Bool := !(s.stopped.contains e) && !(s.outEdges.contains e)

def Start.cluster (s : Start) (p : Nat) : PCl := s.pcl.getD p (PCl.ship 0)

/-- Physical cluster of a logical one. -/
def Start.phys (s : Start) (l : Nat) : Option Nat := s.pcl.findIdx? (fun c => c.logical = some l)

def Start.upd (s : Start) (p : Nat) (f : PCl → PCl) : Start := { s with pcl := updAt s.pcl p f }

/-- Units proposed for fusing, and units soft-excluded, saturating at 255 (R491). -/
def popMask (m : Nat) : Nat := ((List.range 9).filter (fun t => m.testBit t)).length
def Start.proposed (s : Start) : Nat := min 255 (sumNat (s.pcl.map (fun c => b2n c.propose + popMask c.tilePropose)))
def Start.softs (s : Start) : Nat := min 255 (sumNat (s.pcl.map (fun c => b2n c.soft + popMask c.tileSoft)))

/-- TST_STATUS (R491). -/
def Start.status (s : Start) : Word :=
  mkFld 63 63 (b2n s.commitErr) ||| mkFld 62 62 (b2n s.cmdErr) ||| mkFld 61 58 s.stage.code ||| mkFld 57 54 s.lc.code
    ||| mkFld 53 53 (b2n s.domainReady) ||| mkFld 52 52 (b2n s.berChecked) ||| mkFld 51 48 s.imgFail
    ||| mkFld 47 40 s.proposed ||| mkFld 39 32 s.softs ||| mkFld 31 16 (s.starts % 65536) ||| mkFld 15 0 s.lastCode

/-- The usable spare cluster of a chiplet (R500): eight admitted tiles, last test passed. -/
def Start.spareOf (s : Start) (c : Nat) : Option Nat :=
  ((List.range 17).map (· + 17 * c)).find? (fun p =>
    let q := s.cluster p
    q.spare && q.logical.isNone && q.usable && q.lastPass && !q.tuning)

/-- Every chiplet presents 16 clusters of 8 admitted tiles (R27, R480). -/
def Start.whole (s : Start) : Bool :=
  (List.range 8).all (fun c => 16 ≤ (((List.range 17).map (· + 17 * c)).filter (fun p =>
    let q := s.cluster p
    q.logical.isSome && !q.fused && !q.soft && 8 ≤ q.goodTiles.length)).length)

/-! ## Fault history (R496 to R498, R518) -/

/-- The history and the TUNE words (R496 to R506, R518). -/
structure Hist where
  /-- the journal of HIST (R474), and the frames that it lists as moved (R390) -/
  journal : List JRec
  moved : List Frame
  units : List Unit'
  hours : Nat
  drainCause : Nat
  rotations : Nat
  tuneFail : Nat
  forced : Nat
  deadlocks : Nat
  cfg : Word
  shadow : Word
  commitErr : Bool
  cmdErr : Bool
  data : Word
  /-- rails whose spare phase is in service (R502, R558) -/
  phases : List Nat
  /-- edges of the wait graph at the last scan (R517) -/
  edges : List (TaskKey × TaskKey)
  /-- the ladder (R509, R514): LAST_RUNG, LOGICAL, ENGINE, UNIT of the latest climb, its rung in progress, and CLIMBS -/
  lastRung : Nat
  lastLogical : Nat
  lastEngine : Nat
  lastUnit : Nat
  climbs : Nat
  open_ : List (Nat × Nat × Nat × Nat)
  deriving DecidableEq, Repr

def Hist.reset : Hist :=
  { journal := journalDefault, moved := [], units := [], hours := 0, drainCause := 0, rotations := 0, tuneFail := 0, forced := 0, deadlocks := 0, cfg := tuneCfgDefault,
    shadow := tuneCfgDefault, commitErr := false, cmdErr := false, data := 0, phases := [], edges := [], lastRung := 0,
    lastLogical := 0, lastEngine := 0, lastUnit := 0, climbs := 0, open_ := [] }

/-- Units of a kind (R496). -/
def unitCount : Nat → Nat
  | 1 => 1224
  | 2 => 136
  | 3 => 432
  | 4 => 24
  | 5 => 32
  | 6 => 24
  | 7 => 155
  | _ => 0

def Hist.unit (h : Hist) (kind index : Nat) : Unit' :=
  (h.units.find? (fun u => u.kind = kind ∧ u.index = index)).getD ⟨kind, index, [], 0, false, 0, [], []⟩

/-- A record appended to the journal (R474). -/
def Hist.append (h : Hist) (i : JItem) : Hist := { h with journal := appendJournal h.journal i }

/-- A unit's new state, and its record. -/
def Hist.setUnit (h : Hist) (u : Unit') : Hist :=
  ({ h with units := u :: h.units.filter (fun x => !(x.kind = u.kind ∧ x.index = u.index)) } : Hist).append (.unit u)

/-- Units that lose the class permanent, with their records (R498). -/
def Hist.pardon (h : Hist) (again : Unit' → Bool) : Hist :=
  (h.units.filter (fun u => u.perm && again u)).foldl (fun h u => h.setUnit { u with perm := false }) h

/-- A charge stays until FH_STARTS further starts and FH_HOURS powered hours have passed (R498). -/
def Hist.inWindow (h : Hist) (starts : Nat) (c : Nat × Nat) : Bool :=
  !(decide (starts ≥ c.1 + fld h.cfg 27 24) && decide (h.hours ≥ c.2 + fld h.cfg 39 28))

/-- Units whose charges in the window now reach FH_PERM become permanent, with their records (R498); FH_PERM may have changed. -/
def Hist.judge (h : Hist) (starts : Nat) : Hist :=
  (h.units.filter (fun u => !u.perm && decide (fld h.cfg 19 16 ≤ (u.charges.filter (h.inWindow starts)).length))).foldl
    (fun h u => h.setUnit { u with perm := true }) h

/-- A frame has moved, with its record (R390, R474). -/
def Hist.movedOut (h : Hist) (f : Frame) : Hist := ({ h with moved := h.moved ++ [f] } : Hist).append (.moved f)

/-- A rail's spare phase goes into service, with its record (R502, R558). -/
def Hist.phase (h : Hist) (rail : Nat) : Hist := ({ h with phases := rail :: h.phases.filter (· ≠ rail) } : Hist).append (.phase rail)

/-- The journal whose last record lost its end with the power (R474, R492): its CRC no longer fits. -/
def Hist.tear (h : Hist) : Hist :=
  { h with journal := updAt h.journal (h.journal.length - 1) (fun r => { r with crc := ~~~ r.crc }) }

def Hist.winCharges (h : Hist) (starts kind index : Nat) : Nat :=
  ((h.unit kind index).charges.filter (h.inWindow starts)).length

/-- The unit counts as permanent now, or has been (R498). -/
def Hist.permanent (h : Hist) (starts kind index : Nat) : Bool :=
  (h.unit kind index).perm || decide (h.winCharges starts kind index ≥ fld h.cfg 19 16)

/-- One charge to a unit (R497, R498). -/
def Hist.charge (h : Hist) (starts kind index cause : Nat) : Hist :=
  if index < unitCount kind then
    let u := h.unit kind index
    let cs := u.charges.filter (h.inWindow starts) ++ [(starts, h.hours)]
    h.setUnit { u with charges := cs, total := satAdd 16 u.total 1, last := cause,
                       perm := u.perm || decide (cs.length ≥ fld h.cfg 19 16) }
  else h

/-- The rows and columns that a tile reports (R174). -/
def Hist.locate (h : Hist) (index : Nat) (rows cols : List Nat) : Hist :=
  if index < unitCount 1 then h.setUnit { h.unit 1 index with rows, cols } else h

/-- TST_FH_DATA of a unit (R518); rail steps and OUT of a cluster come from its physical cluster. -/
def Hist.query (h : Hist) (starts kind index : Nat) (steps : Nat) (out : Bool) : Word :=
  if index < unitCount kind then
    let u := h.unit kind index
    let n := h.winCharges starts kind index
    mkFld 63 60 kind ||| mkFld 59 48 index ||| mkFld 47 40 (min 255 n) ||| mkFld 39 24 u.total
      ||| mkFld 23 22 (if h.permanent starts kind index then 2 else if n = 0 then 0 else 1) ||| mkFld 21 18 steps
      ||| mkFld 17 17 (b2n out) ||| mkFld 16 11 u.last ||| mkFld 0 0 1
  else mkFld 63 60 kind ||| mkFld 59 48 index

/-- TST_TUNE_STATUS (R518); `tuning` has bit c for a Tune-up on chiplet c. -/
def Hist.status (h : Hist) (tuning : Nat) : Word :=
  mkFld 63 63 (b2n h.commitErr) ||| mkFld 62 62 (b2n h.cmdErr) ||| mkFld 61 58 h.drainCause ||| mkFld 57 50 tuning
    ||| mkFld 49 38 h.rotations ||| mkFld 37 26 h.tuneFail ||| mkFld 25 14 h.forced ||| mkFld 13 2 h.deadlocks

/-- CTR_LADDER_STATUS (R514). -/
def Hist.ladder (h : Hist) : Word :=
  mkFld 63 61 h.lastRung ||| mkFld 60 54 h.lastLogical ||| mkFld 53 50 h.lastEngine ||| mkFld 49 44 h.lastUnit ||| mkFld 31 0 h.climbs

/-- A climb enters at a rung (R509, R510, R514). -/
def Hist.climb (h : Hist) (rung logical engine unit : Nat) : Hist :=
  { h with
    lastRung := rung, lastLogical := if engine < 8 then logical else 0, lastEngine := engine, lastUnit := unit
    climbs := satAdd 32 h.climbs (b2n (rung ≥ 2))
    open_ := h.open_.filter (fun o => !(o.2.1 = engine ∧ o.1 = logical ∧ o.2.2.1 = unit)) ++ [(logical, engine, unit, rung)] }

/-- The rung of an engine's open climb. -/
def Hist.rungOf (h : Hist) (logical engine unit : Nat) : Option Nat :=
  (h.open_.find? (fun o => o.1 = logical ∧ o.2.1 = engine ∧ o.2.2.1 = unit)).map (fun o => o.2.2.2)

/-- An open climb goes on to a higher rung. -/
def Hist.raise (h : Hist) (logical engine unit rung : Nat) : Hist :=
  let first : Bool := match h.rungOf logical engine unit with | some r => r < 2 | none => true
  { h with
    lastRung := rung, lastLogical := if engine < 8 then logical else 0, lastEngine := engine, lastUnit := unit
    climbs := satAdd 32 h.climbs (b2n (first && decide (rung ≥ 2)))
    open_ := h.open_.filter (fun o => !(o.1 = logical ∧ o.2.1 = engine ∧ o.2.2.1 = unit)) ++ [(logical, engine, unit, rung)] }

/-- A climb that has completed. -/
def Hist.settle (h : Hist) (logical engine unit : Nat) : Hist :=
  { h with open_ := h.open_.filter (fun o => !(o.1 = logical ∧ o.2.1 = engine ∧ o.2.2.1 = unit)) }

/-! ## Power and the management bus (R542 to R558) -/

/-- Power words and contacts. Measured values: log 5. -/
structure Power where
  on : Bool
  ilk : Bool
  cfg : Word
  shadow : Word
  commitErr : Bool
  capEff : Nat
  derate : Bool
  gate : Nat
  pavg : Nat
  ppeak : Nat
  vin : Nat
  iin : Nat
  tin : Nat
  tout : Nat
  flow : Nat
  alert : Bool
  linkFail : Bool
  /-- the near-tier rail in 0.1 mV, 0 while it is off (R87) -/
  near : Nat
  /-- the HBM rails, and the optics rails with the port domains that they supply (R469, R477) -/
  hbm : Bool
  optics : Bool
  deriving DecidableEq, Repr

/-- The near-tier rail set at start: 0.75 V or the core supply ceiling (R87). -/
def nearRail (l : Limits) : Nat := min 7500 (10 * l.vcoreMax)

def Power.reset : Power :=
  { on := true, ilk := true, cfg := pwrCfgOf limitsA, shadow := pwrCfgOf limitsA, commitErr := false, capEff := 4800,
    derate := false, gate := 1, pavg := 0, ppeak := 0, vin := 54000, iin := 0, tin := 30, tout := 30, flow := 600,
    alert := true, linkFail := false, near := nearRail limitsA, hbm := true, optics := true }

/-- CAP_EFF of R555: flow in 0.01 L/min, FLOW_MIN in 0.1 L/min, inlet in °C. -/
def capEffOf (cap flow flowMin inlet : Nat) : Nat :=
  let f := min flow (10 * flowMin)
  let hot := min 25 (inlet - 45)
  cap * f * (100 - 4 * hot) / (10 * flowMin * 100)

end Sys2Proof.Machine
end

