-- ==== Sys2Proof/Machine/Hub.lean ====
section
/-!
DEFINITION. The hub: rings and completions (R440, R447 to R451), command packets (R452 to R455, R459), contexts and words
(R445, R446), task records (R121, R137, R272 to R279, R297), the difference streams and the Coppice (R282 to R287), and the
attestation engine's mailbox (R463).
-/

namespace Sys2Proof.Machine

/-! ## Statuses (R154, R303, R468) -/

def statusDone : Nat := 0x0200
def statusAborted : Nat := 0x0201
def statusEntryTimeout : Nat := 0x0202
def statusSignalOverflow : Nat := 0x0203
def statusContextReset : Nat := 0x0204
def statusSuspended : Nat := 0x0205
def statusDiverged : Nat := 0x0207
def statusCopCorrupt : Nat := 0x0208
def statusCollTimeout : Nat := 0x0209
def statusInputChanged : Nat := 0x020A
def statusDeadlock : Nat := 0x020B
def pktOk : Nat := 0x0230
def pktCrc : Nat := 0x0231
def pktInvalid : Nat := 0x0232
def pktDenied : Nat := 0x0233
def pktState : Nat := 0x0234
def attExhausted : Nat := 0x0235
def attRate : Nat := 0x0236
def attFlash : Nat := 0x0237
def pktLost : Nat := 0x0238
def refuseBorrow : Nat := 0x0170

/-! ## Rings -/

/-- STATE of R447. -/
inductive RingSt where
  | closed | opened | closing
  deriving DecidableEq, Repr

def RingSt.code : RingSt → Nat
  | .closed => 0
  | .opened => 1
  | .closing => 2

/-- A completion entry without its PHASE (R451). -/
structure Cqe where
  unknown : Bool
  type : Nat
  status : Nat
  tag : Nat
  value : Word
  deriving DecidableEq, Repr

/-- A ring (R447), the slots released ahead of the oldest (R450), and the completions that wait for queue space, each with its
slot and whether its writing releases it (R451). -/
structure Ring where
  st : RingSt
  overrun : Bool
  log2 : Nat
  released : Nat
  head : Nat
  tailSeen : Nat
  ringBase : Nat
  cqBase : Nat
  poolBase : Nat
  poolBytes : Nat
  cqWritten : Nat
  cqHead : Nat
  dbErrs : Nat
  freed : List Nat
  waiting : List (Nat × Bool × Cqe)
  deriving DecidableEq, Repr

def Ring.shut : Ring :=
  { st := .closed, overrun := false, log2 := 0, released := 0, head := 0, tailSeen := 0, ringBase := 0, cqBase := 0,
    poolBase := 0, poolBytes := 0, cqWritten := 0, cqHead := 0, dbErrs := 0, freed := [], waiting := [] }

/-- A ring newly opened: every other field is 0 (R447). -/
def Ring.openAs (log2 ringBase cqBase poolBase poolBytes : Nat) : Ring :=
  { Ring.shut with st := .opened, log2, ringBase, cqBase, poolBase, poolBytes }

/-- Ring `r` of context 0 as it opens at start (R440, R447). -/
def Ring.system (r : Nat) : Ring :=
  Ring.openAs 8 (0x1200000 + 0x4000 * r) (0x1300000 + 0x1000 * r) (0x2000000 + 0x200000 * r) 0x200000

def Ring.slots (r : Ring) : Nat := 2 ^ r.log2

/-- The buffers of a ring: slots, completion queue and pool, by HDM offset. -/
def Ring.buffers (r : Ring) : List (Nat × Nat) :=
  [(r.ringBase, 64 * r.slots), (r.cqBase, 16 * r.slots), (r.poolBase, r.poolBytes)]

/-- The eight words of the control block (R447). -/
def Ring.block (r : Ring) : List Word :=
  [mkFld 63 60 r.st.code ||| mkFld 59 59 (b2n r.overrun) ||| mkFld 52 48 r.log2 ||| mkFld 31 0 r.released,
   mkFld 63 32 r.head ||| mkFld 31 0 r.tailSeen, mkFld 51 0 r.ringBase, mkFld 51 0 r.cqBase, mkFld 51 0 r.poolBase,
   BitVec.ofNat 64 r.poolBytes, mkFld 63 32 r.cqWritten ||| mkFld 31 0 r.cqHead, mkFld 31 0 r.dbErrs]

/-- Difference modulo 2^32. -/
def sub32 (a b : Nat) : Nat := (a % 2 ^ 32 + 2 ^ 32 - b % 2 ^ 32) % 2 ^ 32

/-- A doorbell field ignored (R448). -/
def Ring.ignore (r : Ring) : Ring := { r with overrun := true, dbErrs := satAdd 32 r.dbErrs 1 }

/-- The hub acts on a TAIL (R448). -/
def Ring.tail (r : Ring) (v : Nat) : Ring :=
  if r.st = .opened ∧ sub32 v r.tailSeen ≤ 2 ^ 31 ∧ sub32 v r.released ≤ r.slots then { r with tailSeen := v } else r.ignore

/-- The hub acts on a CQ_HEAD (R448). -/
def Ring.cqTake (r : Ring) (v : Nat) : Ring :=
  if r.st = .opened ∧ sub32 v r.cqHead ≤ 2 ^ 31 ∧ sub32 r.cqWritten v ≤ r.slots then { r with cqHead := v } else r.ignore

/-- RELEASED runs over the slots released in line (R450). -/
def runReleased : Nat → Nat → List Nat → Nat × List Nat
  | 0, n, l => (n, l)
  | fuel + 1, n, l => if l.contains n then runReleased fuel ((n + 1) % 2 ^ 32) (l.filter (· ≠ n)) else (n, l)

def Ring.release (r : Ring) (slot : Nat) : Ring :=
  let x := runReleased (r.freed.length + 1) r.released (slot :: r.freed)
  { r with released := x.1, freed := x.2 }

/-- CLOSING ends once every slot is released (R455), and with it every completion written. -/
def Ring.settle (r : Ring) : Ring :=
  if r.st = .closing ∧ r.released = r.tailSeen ∧ r.waiting = [] then { Ring.shut with overrun := r.overrun, dbErrs := r.dbErrs } else r

/-- A free entry of the completion queue (R451). -/
def Ring.cqRoom (r : Ring) : Bool := sub32 r.cqWritten r.cqHead < r.slots

/-- The 16 bytes of completion entry number `n` of a queue of `slots` entries (R451). -/
def Cqe.bytes (c : Cqe) (slots n : Nat) : List Byte :=
  leBytes 8 (mkFld 63 63 (if n / slots % 2 = 0 then 1 else 0) ||| mkFld 62 62 (b2n c.unknown) ||| mkFld 55 48 c.type
      ||| mkFld 47 32 c.status ||| mkFld 31 0 c.tag).toNat
    ++ leBytes 8 c.value.toNat

/-- A completion written where the queue has room, or kept waiting: the ring, and the bytes with their HDM offset. -/
def Ring.complete (r : Ring) (slot : Nat) (releases : Bool) (c : Cqe) : Ring × List (Nat × List Byte) :=
  if r.cqRoom ∧ r.waiting.isEmpty then
    let r' : Ring := { r with cqWritten := (r.cqWritten + 1) % 2 ^ 32 }
    ((if releases then r'.release slot else r').settle,
      [(r.cqBase + 16 * (r.cqWritten % r.slots), c.bytes r.slots r.cqWritten)])
  else ({ r with waiting := r.waiting ++ [(slot, releases, c)] }, [])

/-- A slot released whose completion came before: at once, or with the completion where that still waits (R451). -/
def Ring.free (r : Ring) (slot : Nat) : Ring :=
  if r.waiting.any (fun w => w.1 = slot) then { r with waiting := r.waiting.map (fun w => if w.1 = slot then (w.1, true, w.2.2) else w) }
  else (r.release slot).settle

/-- Completions that waited are written while the queue has room. -/
def Ring.drain : Nat → Ring → Ring × List (Nat × List Byte)
  | 0, r => (r, [])
  | fuel + 1, r =>
    match r.waiting with
    | [] => (r, [])
    | w :: ws =>
      if r.cqRoom then
        let a := ({ r with waiting := [] } : Ring).complete w.1 w.2.1 w.2.2
        let b := Ring.drain fuel { a.1 with waiting := ws }
        (b.1, a.2 ++ b.2)
      else (r, [])

/-! ## Packets -/

/-- Where a packet that this hub executes came from: a ring's slot (its count), or another hub's packet. -/
inductive Origin where
  | ring (n slot : Nat)
  | fabric (module pid tag : Nat)
  deriving DecidableEq, Repr

/-- A packet taken and not complete (R454, R455); `acks` counts its own fabric writes that are not yet acknowledged. -/
structure Pkt where
  id : Nat
  words : List Word
  pay : List Byte
  origin : Origin
  started : Bool
  acks : Nat
  value : Word
  deriving DecidableEq, Repr

def Pkt.type (p : Pkt) : Nat := fld (wordAt p.words 0) 63 56
def Pkt.ordered (p : Pkt) : Bool := bit (wordAt p.words 0) 55
def Pkt.hold (p : Pkt) : Bool := bit (wordAt p.words 0) 54
def Pkt.dst (p : Pkt) : Nat := fld (wordAt p.words 0) 51 40
def Pkt.ctx (p : Pkt) : Nat := fld (wordAt p.words 0) 39 28
def Pkt.step (p : Pkt) : Nat := (wordAt p.words 1).toNat
def Pkt.payLen (p : Pkt) : Nat := fld (wordAt p.words 2) 63 32
def Pkt.tag (p : Pkt) : Nat := fld (wordAt p.words 2) 31 0
def Pkt.job (p : Pkt) : Nat := fld (wordAt p.words 3) 63 48
def Pkt.task (p : Pkt) : Nat := fld (wordAt p.words 3) 47 32
def Pkt.payOff (p : Pkt) : Nat := (wordAt p.words 4).toNat
def Pkt.arg0 (p : Pkt) : Word := wordAt p.words 5
def Pkt.arg1 (p : Pkt) : Word := wordAt p.words 6
def Pkt.key (p : Pkt) : TaskKey := ⟨p.ctx, p.job, p.task⟩

/-- A packet forwarded to another module and not answered (R459); `hold` says that it is a held packet (R454). -/
structure Fwd where
  pid : Nat
  ring : Nat
  slot : Nat
  dst : Nat
  type : Nat
  tag : Nat
  ctx : Nat
  job : Nat
  hold : Bool
  done : Bool
  /-- payload's place in the ring's pool -/
  off : Nat
  len : Nat
  deriving DecidableEq, Repr

/-- A held packet that has been applied (R454): its step, and the packet with the slot still unreleased; `stale` once its task
has aborted. -/
structure Held where
  key : TaskKey
  step : Nat
  pkt : Pkt
  stale : Bool
  deriving DecidableEq, Repr

/-- What a fabric request of the hub serves; a restore's reads name where their bytes go in the restore's image, and a solver's writes
their task. -/
inductive HubUse where
  | packet (pid : Nat)
  | stream (ctx job : Nat)
  | restore (ctx job : Nat) (at' : Nat)
  | dump
  | solver (key : TaskKey)
  | plain
  deriving DecidableEq, Repr

/-- A request of the hub; one with no tag yet waits for one, or a PACKET for a credit of its destination (R401, R406; log 13). -/
structure HubReq where
  tag : Option Nat
  use : HubUse
  msg : Msg
  deriving DecidableEq, Repr

/-! ## Tasks -/

/-- What a task record's task is doing (R137, R147, R455). -/
inductive TaskSt where
  | idle | running | suspending | suspended
  deriving DecidableEq, Repr

/-- What the hub keeps of a saved cluster beside its slot of the save area (R145, R147, R256; log 44): its Derailleur, whose parts
that R145 names lie in the slot, its refresh queue, and the statistic slots whose candidate or OPEN plane it carries (R256). -/
structure Saved where
  cluster : Nat
  drl : Drl
  queue : List Refresh
  slots : List Nat
  deriving DecidableEq, Repr

/-- Where a slot of the save area holds the words of R145, behind the stores (log 44). -/
def saveWordsOff : Nat := 0x400000

/-- The words of a slot: HEAD, step number, generation with iteration count, DRL group, pending buffer, and the 64 counters; `full`
says that the stores lie in the slot as well. -/
def Drl.saveWords (d : Drl) (step : Nat) (full : Bool) (cfg shadow : Word) : List Word :=
  [BitVec.ofNat 64 d.head, BitVec.ofNat 64 step, mkFld 63 63 (b2n d.gen) ||| mkFld 62 62 (b2n full) ||| mkFld 23 0 d.iter, cfg, shadow,
    BitVec.ofNat 64 d.pend.length]
    ++ (List.range 16).map (fun i => match d.pend[i]? with | some p => mkFld 37 32 p.1 ||| mkFld 31 0 p.2 | none => 0)
    ++ (List.range 64).map (fun k => BitVec.ofNat 64 (d.ctrs.getD k 0))

/-- The Derailleur as the words of its slot give it. -/
def Drl.ofWords (d : Drl) (ws : List Word) : Drl :=
  { d with
    head := (wordAt ws 0).toNat, gen := bit (wordAt ws 2) 63, iter := fld (wordAt ws 2) 23 0
    pend := (List.range (min 16 (wordAt ws 5).toNat)).map (fun i => (fld (wordAt ws (6 + i)) 37 32, fld (wordAt ws (6 + i)) 31 0))
    ctrs := (List.range 64).map (fun k => (wordAt ws (22 + k)).toNat) }

/-- A task of a loaded job (R121, R137, R272 to R276, R297, R455). -/
structure Task where
  key : TaskKey
  st : TaskSt
  /-- order of acceptance of the RUN (R517) -/
  order : Nat
  step : Nat
  attempt : Nat
  /-- steps ended in commit or skip since the RUN -/
  done : Nat
  /-- step at which the next RUN starts (R455) -/
  next : Nat
  dlOn : Bool
  expired : Bool
  votes : List Vote
  cops : List CopInfo
  /-- an outcome delivered and not yet in force, with its suspects and votes -/
  outcome : Option (Outcome × List (Nat × Nat) × List Vote)
  copWait : Bool
  /-- the status of an abort that waits for a restore's application (R289) -/
  abortDue : Option Nat
  saved : List Saved
  lender : Option Nat
  runPkt : Option Nat
  suspPkt : Option Nat
  /-- collective messages that come before the task's RUN, by logical cluster (log 36) -/
  early : List (Nat × Msg)
  deriving DecidableEq, Repr

def Task.load (key : TaskKey) (stepBase : Nat) : Task :=
  { key, st := .idle, order := 0, step := stepBase, attempt := 1, done := 0, next := stepBase, dlOn := false, expired := false,
    votes := [], cops := [], outcome := none, copWait := false, abortDue := none, saved := [], lender := none, runPkt := none,
    suspPkt := none, early := [] }

/-- The application of a restore outcome has begun on this module, and is not complete (R276, R289). -/
def Task.restoring (t : Task) : Bool := match t.outcome with | some (.restore, _, _) => true | _ => false

def Task.active (t : Task) : Bool := t.st == .running || t.st == .suspending

/-! ## Step record (R279) and loss scale (R275) -/

/-- The values of a job's step record; D_c by logical cluster. -/
structure StepRec where
  step : Nat
  last : Nat
  attempt : Nat
  lsExp : Int
  lsGood : Nat
  commits : Nat
  skips : Nat
  recomputes : Nat
  restores : Nat
  backoffs : Nat
  growths : Nat
  copStep : Nat
  copWaits : Nat
  wcMis : Nat
  dcs : List (Nat × Word)
  /-- the step whose state the C tensors hold -/
  committed : Nat
  /-- PREV_VALID of the Coppice: the log slot of COPPICE_STEP still holds that step's records (R282, R285) -/
  prevValid : Bool
  deriving DecidableEq, Repr

def StepRec.load (p : ParamPlan) (stepBase : Nat) : StepRec :=
  { step := stepBase, last := 0, attempt := 1, lsExp := p.lsInit, lsGood := 0, commits := 0, skips := 0, recomputes := 0,
    restores := 0, backoffs := 0, growths := 0, copStep := (stepBase + 2 ^ 64 - 1) % 2 ^ 64, copWaits := 0, wcMis := 0, dcs := [],
    committed := (stepBase + 2 ^ 64 - 1) % 2 ^ 64, prevValid := false }

/-- The stream of a step begins to overwrite the log slot of COPPICE_STEP (R285). -/
def StepRec.overwrites (r : StepRec) (step : Nat) : Bool := r.prevValid && step != r.copStep && step % 2 == r.copStep % 2

/-- The 136 words of the step record. -/
def StepRec.bytes (r : StepRec) : List Byte :=
  bytesOfWords
    ([BitVec.ofNat 64 r.step,
      mkFld 63 60 r.last ||| mkFld 59 58 r.attempt ||| mkFld 47 40 (toCode 8 r.lsExp) ||| mkFld 39 24 r.lsGood,
      mkFld 63 32 r.commits ||| mkFld 31 0 r.skips, mkFld 63 32 r.recomputes ||| mkFld 31 16 r.restores,
      mkFld 63 32 r.backoffs ||| mkFld 31 0 r.growths, BitVec.ofNat 64 r.copStep,
      mkFld 63 32 r.copWaits ||| mkFld 31 0 r.wcMis, 0]
      ++ (List.range 128).map (fun c => (assoc r.dcs c).getD 0))

/-- The loss scale and the counts after an outcome (R275). -/
def StepRec.outcome (r : StepRec) (p : ParamPlan) (o : Outcome) : StepRec :=
  match o with
  | .commit =>
    let r : StepRec := { r with last := 1, commits := satAdd 32 r.commits 1 }
    if !p.lsEn then r
    else if r.lsGood + 1 = p.lsGrow then
      { r with lsExp := min (r.lsExp + 1) p.lsMax, lsGood := 0, growths := satAdd 32 r.growths 1 }
    else { r with lsGood := r.lsGood + 1 }
  | .skip =>
    let r : StepRec := { r with last := 2, skips := satAdd 32 r.skips 1 }
    if p.lsEn then { r with lsExp := max (r.lsExp - 1) p.lsMin, lsGood := 0, backoffs := satAdd 32 r.backoffs 1 } else r
  | .recompute => { r with last := 3, recomputes := satAdd 32 r.recomputes 1 }
  | .restore => { r with last := 4, restores := satAdd 16 r.restores 1 }
  | .abort => r

/-! ## Difference streams (R284) -/

/-- The stream of one cluster after a commit: pairs still to read (C and U tensor indices as they were named at the commit,
with the offset of each in the section), and D_c. -/
structure DStream where
  ctx : Nat
  job : Nat
  cluster : Nat
  step : Nat
  pairs : List (Nat × Nat × Nat)
  dc : Word
  deriving DecidableEq, Repr

/-- A restore in progress (R276, R286, R287): the clusters restored, the step, whether the log slot of the next step is undone,
the packet that asked for it, and the bytes read so far from the partner's region, by offset in the region. -/
structure Restore where
  key : TaskKey
  step : Nat
  undo : Bool
  clusters : List Nat
  pkt : Option Nat
  image : Cells
  deriving DecidableEq, Repr

/-! ## Attestation mailbox -/

/-- Where an attestation request comes from (R462). -/
inductive AttFrom where
  | mailbox
  | doe
  | packet (id : Nat)
  deriving DecidableEq, Repr

structure Mailbox where
  req : List Word
  resp : List Word
  busy : Bool
  done : Bool
  status : Nat
  bytes : Nat
  /-- requests that wait for the engine -/
  queue : List (AttFrom × List Byte)
  /-- a signature has been given (R465) -/
  signed : Bool
  deriving DecidableEq, Repr

def Mailbox.reset : Mailbox :=
  { req := List.replicate 32 0, resp := List.replicate 384 0, busy := false, done := false, status := 0, bytes := 0, queue := [],
    signed := false }

/-- ATT_STATUS (R463). -/
def Mailbox.word (m : Mailbox) : Word :=
  mkFld 63 63 (b2n m.busy) ||| mkFld 62 62 (b2n m.done) ||| mkFld 47 32 m.status ||| mkFld 15 0 m.bytes

/-! ## The hub -/

/-- Configuration space of the device function (R435, R439; log 15): the class code, Bus Master Enable, which has no effect, and the base
that the host has given the one HDM decoder. No command of the table is a configuration request. -/
structure CfgSpace where
  classCode : Nat
  busMaster : Bool
  decoder : Option Nat
  deriving DecidableEq, Repr

/-- Configuration space at its defaults. -/
def CfgSpace.default : CfgSpace := ⟨0x050210, false, none⟩

/-- The CXL link as HUB_STATUS shows it (R445), and its configuration space; log 15. -/
structure CxlLink where
  width : Nat
  speed : Nat
  ide : Bool
  space : CfgSpace
  deriving DecidableEq, Repr

/-- WIDTH for a set of lanes that pass (R436, R445): the widest of x16, x8 on lanes 0 to 7 and x4 on lanes 0 to 3, or link down. -/
def linkWidth (lanes : Nat) : Nat :=
  if lanes % 65536 = 65535 then 3 else if lanes % 256 = 255 then 2 else if lanes % 16 = 15 then 1 else 0

structure Hub where
  module : Nat
  cfg : Word
  shadow : Word
  /-- contexts whose CTR_USER is 1, committed and shadow -/
  users : List Nat
  usersSh : List Nat
  commitErr : Bool
  barErr : Bool
  link : CxlLink
  rings : List (Nat × Ring)
  turn : Nat
  nextPid : Nat
  pkts : List Pkt
  fwds : List Fwd
  held : List Held
  reqs : List HubReq
  tasks : List Task
  runs : Nat
  recs : List ((Nat × Nat) × StepRec)
  streams : List DStream
  restores : List Restore
  /-- contexts reset since their last RUN: their requests are discarded (R515) -/
  barred : List Nat
  /-- destinations of exchanges that an abort has cut off, until its task's next RUN (R332): task, address, bytes -/
  dead : List (TaskKey × Nat × Nat)
  logPos : List ((Nat × Nat) × Nat)
  /-- jobs that the entry hub has loaded on other modules: module, context, handle (R427, R461) -/
  remote : List (Nat × Nat × Nat)
  copLost : Bool
  /-- jobs whose Coppice was lost since they were loaded (R285): context and handle -/
  copGone : List (Nat × Nat)
  wcMis : Nat
  optCfg : Word
  optShadow : Word
  optErr : Bool
  mail : Mailbox
  /-- last value answered to a reader of the bus, CXL, DOE or SMBus, with the poison bit of R438 -/
  served : Option (List Byte × Bool)
  deriving DecidableEq, Repr

def Hub.reset : Hub :=
  { module := 0x040, cfg := hubCfgDefault, shadow := hubCfgDefault, users := [], usersSh := [], commitErr := false,
    barErr := false, link := ⟨0, 0, false, CfgSpace.default⟩, rings := (List.range 64).map (fun r => (r, Ring.system r)), turn := 0, nextPid := 0,
    pkts := [], fwds := [], held := [], reqs := [], tasks := [], runs := 0, recs := [], streams := [], restores := [], barred := [], dead := [], logPos := [],
    remote := [], copLost := false, copGone := [], wcMis := 0, optCfg := optCfgDefault, optShadow := optCfgDefault, optErr := false, mail := Mailbox.reset,
    served := none }

def Hub.ring (h : Hub) (n : Nat) : Ring := (assoc h.rings n).getD Ring.shut
def Hub.setRing (h : Hub) (n : Nat) (r : Ring) : Hub :=
  { h with rings := if r = Ring.shut then assocDel h.rings n else assocSet h.rings n r }
def Hub.ringsOpen (h : Hub) : Nat := (h.rings.filter (fun r => r.2.st = .opened)).length
def Hub.pkt (h : Hub) (id : Nat) : Option Pkt := h.pkts.find? (fun p => p.id = id)
def Hub.updPkt (h : Hub) (id : Nat) (f : Pkt → Pkt) : Hub := { h with pkts := h.pkts.map (fun p => if p.id = id then f p else p) }
def Hub.dropPkt (h : Hub) (id : Nat) : Hub := { h with pkts := h.pkts.filter (fun p => p.id ≠ id) }
def Hub.task (h : Hub) (k : TaskKey) : Option Task := h.tasks.find? (fun t => t.key = k)
def Hub.updTask (h : Hub) (k : TaskKey) (f : Task → Task) : Hub := { h with tasks := h.tasks.map (fun t => if t.key = k then f t else t) }
def Hub.srec (h : Hub) (ctx job : Nat) : Option StepRec := assoc h.recs (ctx, job)

/-- SNAP_BUSY: a dump record is still being written (R532). -/
def Hub.snapBusy (h : Hub) : Bool := h.reqs.any (fun r => r.use == .dump)

/-- A request that forwards a packet. -/
def HubReq.isPacket (r : HubReq) : Bool := r.msg.body.code == (0, 4)

/-- PACKET credits in use to a destination (R406): packets of rings, and packets of the hub itself. -/
def Hub.creditsUsed (h : Hub) (dst : Nat) : Nat :=
  (h.fwds.filter (fun f => f.dst = dst ∧ !f.done)).length + (h.reqs.filter (fun r => r.isPacket ∧ r.tag.isSome ∧ r.msg.dst = dst)).length

/-- HUB_STATUS (R445). -/
def Hub.status (h : Hub) (removeOk minimal : Bool) (attRemain : Nat) : Word :=
  mkFld 63 63 (b2n h.commitErr) ||| mkFld 62 62 (b2n h.barErr) ||| mkFld 61 60 h.link.width ||| mkFld 59 59 h.link.speed
    ||| mkFld 58 58 (b2n h.link.ide) ||| mkFld 57 57 (b2n removeOk) ||| mkFld 56 56 (b2n minimal) ||| mkFld 35 19 attRemain
    ||| mkFld 18 0 h.ringsOpen

/-- HUB_IDENT2 (R445). -/
def ident2 (module : Nat) (entry : Bool) : Word := mkFld 63 52 module ||| mkFld 51 51 (b2n entry)

/-- OPT_STATUS (R280); `lag` is the last committed step minus COPPICE_STEP. -/
def Hub.optStatus (h : Hub) (lag : Nat) : Word :=
  mkFld 63 63 (b2n h.optErr) ||| mkFld 62 62 (b2n h.copLost) ||| mkFld 39 32 (min 255 lag) ||| mkFld 31 0 h.wcMis

/-! ## CRC-32C (R453) -/

/-- The CRC of a packet: words 0 to 6, then the payload. -/
def packetCrc (words : List Word) (pay : List Byte) : Nat := (crc32c (bytesOfWords (words.take 7) ++ pay)).toNat

end Sys2Proof.Machine
end

