-- ==== Sys2Proof/Syntax.lean ====
section
/-!
DEFINITION. The commands of the module: one constructor for each row of the opcode table, and the findings that a command
brings from the physical world (log 8, log 20).
-/

namespace Sys2Proof

/-- What a reading unit finds: words that memory returns uncorrectable (R387), cells of a tile array that compute wrong (R171 to
R174), pace strokes that units have classed meanwhile, by word of the cluster's counter block, and from 128 on by word of the chiplets' blocks
(R522, R526 to R528), and words that memory returns corrected (R387). -/
structure Ev where
  bad : List Nat
  cells : List Machine.CellFault
  pace : List (Nat × Nat)
  fixed : List Nat
  deriving DecidableEq, Repr

/-- Nothing found. -/
def Ev.none : Ev := ⟨[], [], [], []⟩

/-- What an image carries that no rule gives a layout of, and what its install finds (R475, R476, R478; log 20): whether its signature
verifies under its key, the body of a configuration image or of a pack, and the bytes that read back wrong after programming.
`failed` counts the other targets that did not take it (R430). -/
structure ImageIn where
  sigOk : Bool
  conf : Option Machine.ConfImg
  pack : Option Machine.Pack
  wrong : List Nat
  failed : Nat
  deriving DecidableEq, Repr

/-- Findings of a packet that another hub has forwarded, for the type that needs them. -/
structure PktFind where
  ev : Ev
  img : ImageIn
  secs : Nat
  flashOk : Bool
  deriving DecidableEq, Repr

/-- The header of a fabric message as it arrives (R401): its port, or none from the module itself, and its fields; `addr` is the ADDR
that a response carries back (R404). -/
structure Rx where
  port : Option Nat
  dst : Nat
  src : Nat
  ctx : Nat
  tag : Nat
  scl : Nat
  addr : Nat
  deriving DecidableEq, Repr

/-- A message of no type of R404 as a port receives it: its virtual channel and its flits. -/
structure BadMsg where
  port : Nat
  vc : Nat
  flits : Nat
  deriving DecidableEq, Repr

/-- What stages 1 to 5 of a start find (R92 to R96, R469, R546): the slot straps with their parity contact, whether the reference is
missing, OSC_COUNT and junction of the hub and of the 136 clusters, whether the hub's start code reads and verifies, and the measured words of R558:
busbar voltage in mV, input current in 10 mA, input power in W, coolant flow in 0.01 L/min, inlet and outlet in °C. -/
structure StartFind where
  straps : Nat
  parity : Bool
  refMissing : Bool
  hubOsc : Nat
  hubTj : Nat
  oscs : List Nat
  tjs : List Nat
  flashOk : Bool
  vin : Nat
  iin : Nat
  watts : Nat
  flow : Nat
  inlet : Nat
  outlet : Nat
  deriving DecidableEq, Repr

/-- What the governor has measured (R14, R556, R558). -/
structure Meter where
  /-- 1 ms means of the power of the averaging window, in W -/
  watts : List Nat
  /-- input voltage in mV, and input current in 10 mA -/
  vin : Nat
  iin : Nat
  deriving DecidableEq, Repr

/-- One pass of a scan or of a Tune-up set (R482, R483): the shifts of the pattern generator, the 13 signatures that the logic gives, and
the rail in 0.1 mV as it stands within 5 ms, without and with the spare regulator phase. -/
structure PassFind where
  shifts : Nat
  sigs : List Word
  rail : Nat
  spareRail : Nat
  deriving DecidableEq, Repr

/-- What the scan of one physical cluster finds, pass by pass (R482). -/
structure ScanFind where
  passes : List PassFind
  deriving DecidableEq, Repr

/-- What the memory tests of stages 8 and 9 find (R485): clusters and tiles whose stores have a failing row that no spare row repairs;
for each failing near-tier row its chiplet and frame; and HBM frames that the stack's own test finds bad. -/
structure MemFind where
  clusters : List Nat
  tiles : List (Nat × Nat)
  nearRows : List (Nat × Nat)
  bad : List Machine.Frame
  deriving DecidableEq, Repr

/-- What a Tune-up finds (R505): the passes of BASE and of the fleet set, whether every lane draws and every pipeline computes as the pack
says, and whether a row of the cluster store or of the Pannier fails without a spare row. -/
structure TuneFind where
  base : List PassFind
  fleet : List PassFind
  lanes : Bool
  pipes : Bool
  row : Bool
  deriving DecidableEq, Repr

/-- An input out of its range (R544): its voltage in mV, and whether it cuts off the record being appended to the history (R492). -/
structure Cut where
  mv : Nat
  torn : Bool
  deriving DecidableEq, Repr

/-- The commands, in the order of the opcode table. -/
inductive Instr where
  /-- NOP_PACKET (R455). A NOP packet is taken at its destination and completes with no other effect. -/
  | nopPacket (id : Nat)
  /-- DATA (R455). A DATA packet writes its payload bytes at a global address; a held DATA packet waits for its step by R454. -/
  | data (id : Nat)
  /-- READ (R455). A READ packet copies source bytes, or with PAIR a committed C tensor, into the HDM window. -/
  | read (id : Nat) (ev : Ev)
  /-- LOAD (R565). A LOAD packet checks and backs a job package, writes its load payloads and the planner report, or refuses the job whole. -/
  | load (id : Nat)
  /-- UNLOAD (R375). An UNLOAD packet removes a job and zeroes its frames before freeing them. -/
  | unload (id : Nat)
  /-- RUN (R455). A RUN packet starts a task on its clusters, a borrowing task or a solver cycle, after checking that the clusters are free. -/
  | run (id : Nat)
  /-- SUSPEND (R147). A SUSPEND packet asks every cluster of a task to stop at a boundary and save its state to the save area. -/
  | suspend (id : Nat)
  /-- RESUME (R147). A RESUME packet restores a suspended task from its save area, or continues a paused lender, if its clusters are free. -/
  | resume (id : Nat)
  /-- CTL_WRITE_PACKET (R455). A CTL_WRITE packet writes a control word of a module by offset, subject to the context's privilege. -/
  | ctlWritePacket (id : Nat)
  /-- CTL_READ (R455). A CTL_READ packet returns the value of a control word by offset. -/
  | ctlRead (id : Nat)
  /-- SOL_DELTA (R343). A SOL_DELTA packet is checked whole and its entries are applied, or held pending while a cycle runs. -/
  | solDelta (id : Nat)
  /-- RESTORE (R286). A RESTORE packet rewrites every section of a task's committed state from the Coppice to a named step and verifies it. -/
  | restore (id : Nat) (ev : Ev)
  /-- CONTEXT_RESET (R515). A CONTEXT_RESET packet ends every task of a context throughout the domain and drops its queued and in-flight work. -/
  | contextReset (id : Nat)
  /-- RING_OPEN (R447). A RING_OPEN packet opens a ring with the geometry and buffers that its payload gives. -/
  | ringOpen (id : Nat)
  /-- RING_CLOSE (R455). A RING_CLOSE packet sets the ring to CLOSING and closes it once every slot is released. -/
  | ringClose (id : Nat)
  /-- FW_IMAGE (R478). An FW_IMAGE packet stages a signed image, verifies it and installs it on a module, a domain or the hall. -/
  | fwImage (id : Nat) (img : ImageIn)
  /-- ATTEST (R455). An ATTEST packet passes an attestation request to the attestation engine and writes the response in the HDM window. -/
  | attest (id : Nat) (secs : Nat) (flashOk : Bool)
  /-- DOORBELL_WRITE (R448). A host write to a ring doorbell updates TAIL and CQ_HEAD if they pass their checks, or is ignored with OVERRUN set. -/
  | doorbellWrite (ring : Nat) (value : Word) (enables : Nat)
  /-- PACKET_INTAKE (R454). The entry hub takes the next packet of a ring in turn, checks CRC, header, privilege and reachability, and forwards it or completes it. -/
  | packetIntake
  /-- ISSUE_DECISION (R124). The Derailleur issues the lowest-numbered ready entry of its reorder window. -/
  | issueDecision (l : Nat)
  /-- ENTRY_COMPLETE (R126). An entry completes when its results are visible in the cluster, and its SIG_ON counter is raised. -/
  | entryComplete (l : Nat) (idx : Nat)
  /-- SIGNAL (R129). A SIGNAL entry adds INC to a counter of a logical cluster of the task and completes on the target's acknowledge. -/
  | signal (l : Nat) (idx : Nat)
  /-- CTL_WRITE (R142). A CTL_WRITE entry writes a value into the shadow copy of a control word of its context. -/
  | ctlWrite (l : Nat) (idx : Nat)
  /-- ITER_END (R133). An ITER_END entry acts as FENCE.CLUSTER and then exits its iteration or resets counters and jumps back to TARGET. -/
  | iterEnd (l : Nat) (idx : Nat)
  /-- STEP_END (R137). A STEP_END entry acts as FENCE.DOMAIN and sends the cluster's vote for the step outcome. -/
  | stepEnd (l : Nat) (idx : Nat)
  /-- HALT (R138). A HALT entry ends the Cassette, and the task ends with STATUS.DONE once every cluster has halted. -/
  | halt (l : Nat) (idx : Nat)
  /-- MM (R159). An MM entry forms chain(OPA·OPB) on its tiles with ABFT checks and passes output tiles through the Pannier to the Chainline. -/
  | mm (l : Nat) (idx : Nat) (ev : Ev)
  /-- MM_TA (R159). An MM_TA entry forms chain(OPAᵀ·OPB) on its tiles. -/
  | mmTa (l : Nat) (idx : Nat) (ev : Ev)
  /-- MM_TB (R159). An MM_TB entry forms chain(OPA·OPBᵀ) on its tiles. -/
  | mmTb (l : Nat) (idx : Nat) (ev : Ev)
  /-- GRAM_L (R167). A GRAM_L entry adds OPA·OPAᵀ into its statistic slot's accumulators on gathering steps. -/
  | gramL (l : Nat) (idx : Nat) (ev : Ev)
  /-- GRAM_R (R167). A GRAM_R entry adds OPAᵀ·OPA into its statistic slot's accumulators on gathering steps. -/
  | gramR (l : Nat) (idx : Nat) (ev : Ev)
  /-- CHAIN (R198). A CHAIN entry runs an element program over a tensor and writes the result through the sink. -/
  | chain (l : Nat) (idx : Nat) (ev : Ev)
  /-- REDUCE (R207). A REDUCE entry reduces OPA into OPD by the operation and axis of its reduction descriptor. -/
  | reduce (l : Nat) (idx : Nat) (ev : Ev)
  /-- FOLD (R227). A FOLD operation folds a slot's sealed step sums into its averaged statistic. -/
  | fold (l : Nat) (idx : Nat) (ev : Ev)
  /-- EXPORT (R229). An EXPORT operation writes a sealed plane into a BX48 tensor for summing across replicas. -/
  | exportPlane (l : Nat) (idx : Nat) (ev : Ev)
  /-- REFRESH (R231). A REFRESH operation discards any old candidate, snapshots the statistic and queues a background refresh. -/
  | refresh (l : Nat) (idx : Nat) (ev : Ev)
  /-- FACTOR (R248). A FACTOR operation factorises listed blocks of a factor set into their inactive buffers. -/
  | factor (l : Nat) (idx : Nat) (ev : Ev)
  /-- SOLVE (R249). A SOLVE operation solves each block's system with its resident factor. -/
  | solve (l : Nat) (idx : Nat) (ev : Ev)
  /-- REFRESH_BLOCK (R233). Topiary computes, verifies and writes the candidate root of one block of a queued refresh in the background. -/
  | refreshBlock (l : Nat) (ev : Ev)
  /-- STREAM (R381). A STREAM entry copies a block list into a window slot and marks the slot HELD. -/
  | stream (l : Nat) (idx : Nat) (ev : Ev)
  /-- COPY (R383). A COPY entry converts OPA into OPD element by element. -/
  | copy (l : Nat) (idx : Nat) (ev : Ev)
  /-- RELEASE (R381). A RELEASE entry frees a stream's window slot after its last reader. -/
  | release (l : Nat) (idx : Nat)
  /-- SEND (R379). A SEND entry writes rows of OPA to remote memory and completes when every byte is acknowledged. -/
  | send (l : Nat) (idx : Nat) (ev : Ev)
  /-- COLLECTIVE (R415). A COLLECTIVE entry combines or gathers a tensor over its member group on the fixed tree. -/
  | collective (l : Nat) (idx : Nat) (ev : Ev)
  /-- EXCHANGE (R322). An EXCHANGE entry performs DISPATCH, COMBINE or REDISPATCH of expert rows with its count phase. -/
  | exchange (l : Nat) (idx : Nat) (ev : Ev)
  /-- OPTIMISE (R267). An OPTIMISE entry computes the new uncommitted masters and moments of a layer. -/
  | optimise (l : Nat) (idx : Nat) (ev : Ev)
  /-- DIGEST (R270). A DIGEST entry adds a layer's uncommitted tensors into the cluster's step digest sum. -/
  | digest (l : Nat) (idx : Nat) (ev : Ev)
  /-- WC_CHECK (R263). The idle fetch engine samples a working-copy element and compares it with the rounded committed master. -/
  | wcCheck (l : Nat) (idx : Nat) (row : Nat) (col : Nat) (seen : Option Nat)
  /-- VOTE (R272). A hub takes a VOTE message and passes the votes up the fixed tree, and the root decides the step outcome. -/
  | vote (rx : Rx) (key : Machine.TaskKey) (step : Nat) (votes : List Machine.Vote) (cops : List Machine.CopInfo)
  /-- OUTCOME (R274). A module takes the OUTCOME message and applies commit, skip or recompute before rewinding its clusters. -/
  | outcome (rx : Rx) (key : Machine.TaskKey) (step : Nat) (o : Machine.Outcome) (suspects : List (Nat × Nat)) (votes : List Machine.Vote)
  /-- RESTORE_IN_STEP (R276). On a restore outcome a module waits for its Coppice, rewrites and verifies the suspect clusters' sections and rotates them out. -/
  | restoreInStep (key : Machine.TaskKey) (ev : Ev)
  /-- COPPICE_FOLD (R285). The partner hub applies a log slot once it holds every step-end record of the step. -/
  | coppiceFold (base : Nat) (baseBytes : Nat) (step : Nat) (clusters : Nat) (own : Option (Nat × Nat))
  /-- COPPICE_WAIT_EXPIRY (R285). A commit that waits longer than COPPICE_WAIT_MS sets COPPICE_LOST and proceeds. -/
  | coppiceWaitExpiry (key : Machine.TaskKey)
  /-- ENTRY_TIMEOUT (R151). The entry Odometer expires and the task aborts with STATUS.ENTRY_TIMEOUT at rung 1. -/
  | entryTimeout (l : Nat)
  /-- DEADLINE_EXPIRY (R133). The hub's deadline Odometer expires, marking the task's deadline expired and abandoning TOPIARY entries with ABANDON set. -/
  | deadlineExpiry (key : Machine.TaskKey) (blocks : List (Nat × Nat))
  /-- COLLECTIVE_TIMEOUT (R420). A collective, exchange or step outcome overruns COLL_MS and the task aborts with STATUS.COLLECTIVE_TIMEOUT. -/
  | collectiveTimeout (key : Machine.TaskKey)
  /-- SIGNAL_RESEND (R131). A sender resends a signal 2 µs after a BUSY NACK. -/
  | signalResend (l : Nat) (tag : Nat)
  /-- MIGRATION (R145). At a migratable or other boundary a cluster's state moves to the spare cluster, which continues under the same logical number. -/
  | migration (l : Nat)
  /-- FORCED_MIGRATION (R504). When no migratable boundary comes within TU_DEFER_S, the cluster stops at the next entry boundary and carries its full state. -/
  | forcedMigration (l : Nat)
  /-- SUSPEND_AT_BOUNDARY (R147). A cluster of a suspending task reaches its boundary, writes its state to its save slot and becomes free. -/
  | suspendAtBoundary (l : Nat)
  /-- SUSPEND_WIN_EXPIRY (R147). SUSPEND_WIN_US passes and the suspending cluster stops at the next entry boundary. -/
  | suspendWinExpiry (key : Machine.TaskKey)
  /-- PAUSE (R143). A PAUSE command makes the Derailleur pause at the next entry boundary. -/
  | pause (l : Nat)
  /-- DRL_CMD_RESUME (R143). A RESUME command in DRL_CMD makes the cluster leave PAUSED. -/
  | drlCmdResume (l : Nat)
  /-- SUBST (R183). A SUBST command substitutes the spare tile for a logical tile at the first boundary where the tile is idle. -/
  | subst (l : Nat) (t : Nat)
  /-- DRL_COMMIT (R140). A write to DRL_COMMIT checks the DRL shadow and puts it into effect whole or sets COMMIT_ERR. -/
  | drlCommit (l : Nat)
  /-- TIL_COMMIT (R140). A write to TIL_COMMIT commits group TIL. -/
  | tilCommit (l : Nat)
  /-- CHN_COMMIT (R140). A write to CHN_COMMIT commits group CHN. -/
  | chnCommit (l : Nat)
  /-- OPT_COMMIT (R140). A write to OPT_COMMIT commits group OPT. -/
  | optCommit
  /-- SOL_COMMIT (R140). A write to SOL_COMMIT commits group SOL. -/
  | solCommit
  /-- MEM_COMMIT (R140). A write to MEM_COMMIT commits group MEM. -/
  | memCommit
  /-- HDG_COMMIT (R140). A write to HDG_COMMIT commits group HDG. -/
  | hdgCommit
  /-- HUB_COMMIT (R140). A write to HUB_COMMIT commits group HUB. -/
  | hubCommit
  /-- TST_COMMIT (R140). A write to TST_COMMIT commits group TST. -/
  | tstCommit
  /-- TST_TUNE_COMMIT (R518). A write to TST_TUNE_COMMIT commits group TUNE. -/
  | tstTuneCommit
  /-- CTR_COMMIT (R532). A write to CTR_COMMIT commits group CTR. -/
  | ctrCommit
  /-- CTR_CL_COMMIT (R532). A write to CTR_CL_COMMIT commits a cluster's group CTRC. -/
  | ctrClCommit (l : Nat) (ctx : Nat)
  /-- PWR_COMMIT (R558). A write to PWR_COMMIT commits group PWR. -/
  | pwrCommit
  /-- REGISTER_WRITE (R139). A write to a register without a row of its own lands in its shadow copy, clears W1C bits, or is discarded. -/
  | registerWrite (off : Nat) (bytes : Nat) (value : Word)
  /-- MEM_PAGE_CMD (R376). A page command moves a page between HBM and near-tier frames, or sets CMD_ERR. -/
  | memPageCmd (value : Word) (ctx : Nat)
  /-- PAGE_MOVE_COMPLETE (R377). A page copy is checked and the mapping switches to the new frame, releasing waiting writes. -/
  | pageMoveComplete (page : Nat) (ev : Ev)
  /-- FAULT_DRIVEN_MOVE (R390). A frame that reaches CE_THRESH or holds an uncorrectable word begins a move to a free frame. -/
  | faultDrivenMove (page : Nat) (events : Nat) (ev : Ev)
  /-- SCRUB_READ (R391). The patrol scrubber reads an HBM frame on an idle arbiter turn, correcting or poisoning words. -/
  | scrubRead (page : Nat) (fixed : List Nat) (ev : Ev)
  /-- PENDING_DELTA_APPLY (R344). After a cycle ends the hub applies the held delta packets in arrival order. -/
  | pendingDeltaApply
  /-- MANAGED_LEAVE (R427). A LEAVE command floods LEAVE and takes the module to REMOVABLE, or sets CMD_ERR. -/
  | managedLeave
  /-- RETRAIN (R421). A RETRAIN command retrains one port. -/
  | retrain (port : Nat)
  /-- ENTER_SERVICE (R480). ENTER_SERVICE takes a module with no job loaded into the SERVICE state. -/
  | enterService
  /-- LEAVE_SERVICE (R480). LEAVE_SERVICE performs a module reset whose stage 10 decides between DEPLOYED and DRAIN. -/
  | leaveService (found : StartFind)
  /-- FUSE_PROPOSED (R488). FUSE_PROPOSED blows the fuse entry of every proposed unit. -/
  | fuseProposed
  /-- FUSE_SVN (R488). FUSE_SVN raises each kind's fused SVN floor to the installed image's SVN. -/
  | fuseSvn
  /-- RECHECK (R489). RECHECK runs the domain readiness checks again. -/
  | recheck (worst : List (Nat × Nat))
  /-- TUNE_NOW (R503). TUNE_NOW makes a physical cluster due for Tune-up at once. -/
  | tuneNow (p : Nat)
  /-- ROTATE_OUT (R500). ROTATE_OUT charges a cluster with cause 0x0C and rotates it to the spare. -/
  | rotateOut (p : Nat)
  /-- CLEAR_RAIL (R501). CLEAR_RAIL returns a cluster's rail offset to 0. -/
  | clearRail (p : Nat)
  /-- FH_QUERY (R518). A GO in TST_FH_QUERY loads TST_FH_DATA with the fault history of the unit named. -/
  | fhQuery (kind : Nat) (index : Nat)
  /-- SNAP (R530). A SNAP command takes one snap wave of the module's counters and writes a dump record. -/
  | snap
  /-- SNAP_DOMAIN (R531). A SNAP_DOMAIN command starts a snap on every JOINED module of the domain. -/
  | snapDomain
  /-- CLEAR (R532). A CLEAR command sets every counter to 0 as the next snap wave passes. -/
  | clear
  /-- PERIODIC_DUMP (R532). The DUMP_MS period expires and the hub starts a snap and dump record, or counts a missed dump. -/
  | periodicDump
  /-- GET_IDENTITY (R462). A GET_IDENTITY request returns the public key, root-key hash and identity words. -/
  | getIdentity (doe : Bool)
  /-- GET_MEASUREMENTS (R464). A GET_MEASUREMENTS request returns the unsigned attestation record. -/
  | getMeasurements (doe : Bool)
  /-- ATTEST_REQUEST (R465). An ATTEST request advances the XMSS index in flash and signs the attestation record, or is refused. -/
  | attestRequest (doe : Bool) (nonce : List Byte) (secs : Nat) (flashOk : Bool)
  /-- GET_BUDGET (R462). A GET_BUDGET request returns the next XMSS index and signatures left. -/
  | getBudget (doe : Bool)
  /-- MEM_RD (R438). A CXL MemRd returns 64 bytes of device memory with the poison bit as needed. -/
  | memRd (off : Nat) (ev : Ev)
  /-- MEM_SPEC_RD (R438). A CXL MemSpecRd is dropped with no response. -/
  | memSpecRd (off : Nat)
  /-- MEM_INV (R438). A CXL MemInv completes with Cmp and leaves memory unchanged. -/
  | memInv (off : Nat)
  /-- MEM_WR (R438). A CXL MemWr or MemWrPtl writes the enabled bytes and completes once they are visible. -/
  | memWr (off : Nat) (bytes : List Byte) (enables : List Bool) (poison : Bool)
  /-- LINK_RESET (R439). Link down, hot reset, secondary bus reset or PERST# resets and retrains the CXL controller, keeping device state. -/
  | linkReset (width : Nat) (speed : Nat) (ide : Bool)
  /-- FLR (R439). An FLR resets CXL.io function state only. -/
  | flr
  /-- CXL_RESET (R439). A CXL Reset context-resets every context from 1 to 4,095. -/
  | cxlReset
  /-- WRITE (R411). A fabric WRITE request is checked against the context's regions and written, answered by ACK or NACK. -/
  | write (rx : Rx) (addr : Nat) (bytes : List Byte)
  /-- FABRIC_READ (R411). A fabric READ request is checked and answered with READ_DATA or NACK. -/
  | fabricRead (rx : Rx) (addr : Nat) (n : Nat) (ev : Ev)
  /-- SIGNAL_MESSAGE (R131). A fabric SIGNAL raises a counter, is held pending for the next generation, or is answered BUSY or NO_TASK. -/
  | signalMessage (rx : Rx) (cluster : Nat) (ctr : Nat) (gen : Bool) (inc : Nat)
  /-- PACKET_FORWARD (R460). A forwarded command packet is taken by the destination hub, checked and executed. -/
  | packetForward (rx : Rx) (pid : Nat) (words : List Word) (pay : List Byte) (find : PktFind)
  /-- ACK (R410). An ACK response completes the sender's request. -/
  | ack (rx : Rx) (e : Option Machine.PktEnd)
  /-- READ_DATA (R404). A READ_DATA response delivers read bytes into the requester's reserved space. -/
  | readData (rx : Rx) (bytes : List Byte)
  /-- NACK (R411). A NACK aborts the sending entry's task, except BUSY which leads to a resend. -/
  | nack (rx : Rx) (reason : Nat)
  /-- PART (R415). A PART message delivers a node's partial values to the member that hosts the next tree node. -/
  | part (rx : Rx) (desc : Nat) (occ : Nat) (chunk : Nat) (lo : Nat) (level : Nat) (vals : Machine.Piece)
  /-- RESULT (R415). A RESULT message delivers a chunk's final values or a gathered block to a member. -/
  | result (rx : Rx) (desc : Nat) (occ : Nat) (chunk : Nat) (rank : Nat) (vals : Machine.Piece)
  /-- CARRY (R418). A CARRY message combines the non-finite bit and largest magnitudes on chunk 0's tree. -/
  | carry (rx : Rx) (desc : Nat) (occ : Nat) (lo : Nat) (level : Nat) (nf : Bool) (amax : List Nat) (final : Bool)
  /-- COUNT (R322). A COUNT message carries an exchange's count phase and pool grants. -/
  | count (rx : Rx) (desc : Nat) (occ : Nat) (phase : Nat) (counts : List (Nat × Nat × Nat))
  /-- ABORT (R152). An ABORT management message aborts the task on the receiving module. -/
  | abort (rx : Rx) (key : Machine.TaskKey) (status : Nat)
  /-- IDENT (R424). An IDENT message from the far end of a port is checked against the expected map. -/
  | ident (rx : Rx) (module : Nat) (farPort : Nat) (variant : Nat) (stepping : Nat) (mapId : Word)
  /-- TOPO_REPORT (R425). The entry module takes a TOPO_REPORT and updates HDG_TOPO. -/
  | topoReport (rx : Rx) (module : Nat) (ports : List Machine.PortRep)
  /-- JOIN (R426). A flooded JOIN adds a module's links to the live graph and starts a route change. -/
  | join (rx : Rx) (module : Nat) (ports : List Machine.PortRep)
  /-- LEAVE (R409). A flooded LEAVE removes a module from the live graph and starts a route change. -/
  | leave (rx : Rx) (module : Nat)
  /-- LINK_STATE (R409). A flooded LINK_STATE changes the live graph and starts a route change. -/
  | linkState (rx : Rx) (module : Nat) (rep : Machine.PortRep)
  /-- ROUTE_DRAIN_DONE (R409). When injected flits are acknowledged or 100 µs pass, the module sends DRAINED to the new root. -/
  | routeDrainDone
  /-- DRAINED (R409). The root takes DRAINED messages and floods SWITCH once every live module has drained. -/
  | drained (rx : Rx) (module : Nat) (change : Nat)
  /-- SWITCH (R409). A SWITCH message installs the new routes and resumes injection. -/
  | switch (rx : Rx) (change : Nat)
  /-- FW_CHUNK (R430). An FW_CHUNK is written to flash staging and forwarded to the module's children in the broadcast tree. -/
  | fwChunk (rx : Rx) (seq : Nat) (chunk : Nat) (bytes : List Byte) (img : ImageIn)
  /-- FW_ACK (R430). An FW_ACK acknowledges a firmware chunk up the broadcast tree. -/
  | fwAck (rx : Rx) (seq : Nat) (chunk : Nat)
  /-- LINK (R404). A LINK message returns acknowledge and replay numbers, replay requests and credits. -/
  | link (port : Nat) (ack : Nat) (req : Option Nat) (credits : List Nat)
  /-- BAD_MSG (R404). A message with an unknown VC and TYPE pair is discarded and counted. -/
  | badMsg (bad : BadMsg)
  /-- FLIT_REPLAY (R400). An uncorrectable flit is discarded with its successors and a replay is requested. -/
  | flitReplay (port : Nat)
  /-- PORT_TRAIN (R421). A port with light arriving trains word lock, exchanges IDENT and screens its lanes. -/
  | portTrain (port : Nat) (module : Nat) (farPort : Nat) (variant : Nat) (stepping : Nat) (mapId : Word)
  /-- PORT_UP (R421). When the lane screen completes the port goes UP with credits, or FAILED. -/
  | portUp (port : Nat) (passed : List Bool)
  /-- PORT_DOWN (R428). A port goes down, discards its replay buffer and the module floods LINK_STATE. -/
  | portDown (port : Nat)
  /-- LANE_BER_WINDOW (R422). At the end of a BER window a worn lane is swapped for the spare or LANE_WORN is set. -/
  | laneBerWindow (port : Nat) (counts : List Nat)
  /-- OPTICAL_ENGINE_FAILOVER (R398). A failed optical engine's lanes move to the group's spare engine and its ports retrain. -/
  | opticalEngineFailover (group : Nat) (engine : Nat)
  /-- EDGE_WINDOW_EXPIRY (R105). An edge Odometer window expires while a clock is stopped and the edge's first-rung action follows. -/
  | edgeWindowExpiry (edge : Machine.EdgeLoss)
  /-- ENGINE_RESET (R509). Rung 2: the ABORT_WIN_US window passes and the unconfirmed engine is reset. -/
  | engineReset (l : Nat) (engine : Nat) (unit : Nat)
  /-- CLUSTER_QUIESCE (R509). Rung 3: the cluster's engines reset, its rail cycles and its stores read zero. -/
  | clusterQuiesce (l : Nat)
  /-- CHIPLET_RESET (R509). Rung 4: the chiplet's clusters, links, ports and HBM controllers reset and retrain. -/
  | chipletReset (c : Nat)
  /-- MODULE_RESET (R511). Rung 5: the module discards its jobs and reruns the start sequence from stage 2. -/
  | moduleReset (found : StartFind)
  /-- MODULE_RESET_TIMEOUT (R512). A module reset that misses MODRESET_WIN_S halts the hub with every other rail removed. -/
  | moduleResetTimeout
  /-- DEADLOCK_SCAN (R517). Every DL_SCAN_MS the hub builds a wait graph and aborts the younger task of each persistent cycle. -/
  | deadlockScan (queued : List (Machine.TaskKey × Machine.TaskKey))
  /-- TUNE_UP_DUE (R503). A cluster becomes due after TU_PERIOD_H powered hours and is tested in place or rotated out first. -/
  | tuneUpDue (p : Nat) (hours : Nat)
  /-- TUNE_UP_COMPLETE (R506). A Tune-up finishes, making the cluster the spare or charging and marking the failed unit. -/
  | tuneUpComplete (p : Nat) (found : TuneFind) (badTiles : Nat)
  /-- START (R469). Busbar in range with the interlock mated for 100 ms starts the power-on sequence and soft start. -/
  | start (found : StartFind)
  /-- REFERENCE_MISSING (R94). No reference edge within 100 ms of hub supply good halts the start. -/
  | referenceMissing
  /-- TEMPERATURE_WAIT (R484). Stage 6 ends when every junction sensor reads from 15 to 90 °C. -/
  | temperatureWait (temps : List Nat)
  /-- STAGE6_TIMEOUT (R471). Stage 6 exceeding 60 s halts the start. -/
  | stage6Timeout
  /-- SCAN_SELF_TEST (R482). Stage 7 scans every physical cluster at two rail points and compares signatures. -/
  | scanSelfTest (scans : List ScanFind)
  /-- MEMORY_SELF_TEST (R485). Stages 8 and 9 march-test stores, repair rows, train HBM and apply remap pools. -/
  | memorySelfTest (mem : MemFind)
  /-- ADMISSION (R486). Stage 10 admits units, places spares, records the start and chooses the life-cycle state. -/
  | admission
  /-- PWR_FAIL (R544). Input below 44 V for 0.4 ms or above 59.5 V for 1 ms starts the orderly cut. -/
  | pwrFail (cut : Cut)
  /-- INTERLOCK_BREAK (R547). A debounced interlock opening starts the orderly cut. -/
  | interlockBreak
  /-- CAP_EFF_UPDATE (R555). A change of coolant flow or inlet temperature recomputes the effective power cap. -/
  | capEffUpdate (flow : Nat) (inlet : Nat) (outlet : Nat)
  /-- FLOW_TRIP (R555). Flow below half of FLOW_MIN for 5 s halts the module. -/
  | flowTrip (flow : Nat)
  /-- JUNCTION_TRIP (R555). A junction sensor at 110 °C halts the module. -/
  | junctionTrip (p : Option Nat) (tj : Nat)
  /-- GOVERNOR_LOWER (R556). While mean power exceeds CAP_EFF the governor lowers one cluster rail one step every 50 µs. -/
  | governorLower (meter : Meter)
  /-- GOVERNOR_RAISE (R556). While mean power is below 0.98 × CAP_EFF the governor raises one cluster rail one step every 1 ms. -/
  | governorRaise (meter : Meter)
  /-- ISSUE_GATING (R556). With every rail at its floor and power above the cap, issue gating doubles or halves every 1 ms. -/
  | issueGating (above : Bool)
  /-- THERMAL_LOWER (R557). A cluster above TJ_LIMIT is lowered one step every 10 ms. -/
  | thermalLower (p : Nat) (tj : Nat)
  /-- HUB_MGMT_STATE_READ (R550). SMBus Block Read code 0x00 returns HUB_MGMT_STATE. -/
  | hubMgmtStateRead
  /-- PWR_STATUS_READ (R549). SMBus Block Read code 0x01 returns PWR_STATUS. -/
  | pwrStatusRead
  /-- PWR_INPUT_READ (R549). SMBus Block Read code 0x02 returns PWR_INPUT. -/
  | pwrInputRead
  /-- PWR_THERMAL_READ (R549). SMBus Block Read code 0x03 returns PWR_THERMAL. -/
  | pwrThermalRead
  /-- HUB_IDENT_READ (R549). SMBus Block Read codes 0x04 to 0x06 return HUB_IDENT0 to HUB_IDENT2. -/
  | hubIdentRead (code : Nat)
  /-- SMB_ALERT_RESPONSE (R549). An answer to the SMBus Alert Response Address releases SMB_ALERT#. -/
  | smbAlertResponse
  /-- SMB_CLK_TIMEOUT (R108). SMB_CLK held low beyond 35 ms makes the hub abandon the transfer and release the bus. -/
  | smbClkTimeout
  /-- EDGE_CLOCK_RESUME (R105). An edge clock that stopped resumes before its edge window expires, and the waiting accesses complete normally with no data lost or repeated. -/
  | edgeClockResume (edge : Machine.Edge)
  /-- REGULATOR_PHASE_FAILURE (R502). A regulator phase of a supply rail fails, so the spare phase takes over, or with the spare already in use the module enters DRAIN or the cluster is charged. -/
  | regulatorPhaseFailure (rail : Nat)
  /-- READINESS_WINDOW_END (R489). The READY_WIN_S window after the last port UP ends, and the entry module sets DOMAIN_READY if every lane stayed within the limit. -/
  | readinessWindowEnd (worst : List (Nat × Nat))
  /-- CHARGE_WINDOW_EXPIRY (R498). A charge leaves a unit's fault-history window once FH_STARTS starts and FH_HOURS powered hours have passed, lowering WIN_CHARGES and possibly the unit's class. -/
  | chargeWindowExpiry (kind : Nat) (index : Nat) (hours : Nat)
  /-- DIFFERENCE_STREAM_READ (R269). The previous step's difference stream finishes reading a pair, which frees OPTIMISE entries that write that pair. -/
  | differenceStreamRead (l : Nat) (ev : Ev)
  deriving DecidableEq, Repr

end Sys2Proof
end

