-- ==== Sys2Proof/WellFormed.lean ====
section
/-!
DEFINITION. Well-formed commands: every unit, word, context and address that a command names exists (R22 to R30, R365, R397,
R401, R403, R442, R447).
-/

namespace Sys2Proof

/-- Logical clusters 0 to 127 (R26). -/
def okCluster (l : Nat) : Bool := l < 128
/-- Physical clusters 0 to 135 (R443). -/
def okPhys (p : Nat) : Bool := p < 136
def okPhysOpt (p : Option Nat) : Bool := match p with | some p => okPhys p | none => true
/-- Ports 0 to 47 (R397). -/
def okPort (p : Nat) : Bool := p < 48
/-- Chiplets 0 to 7. -/
def okChiplet (c : Nat) : Bool := c < 8
/-- Tiles 0 to 7 of a logical cluster. -/
def okTile (t : Nat) : Bool := t < 8
/-- Rings 0 to 262,143 (R440). -/
def okRing (n : Nat) : Bool := n < 262144
/-- Contexts 0 to 4,095 (R446). -/
def okContext (c : Nat) : Bool := c < 4096
/-- Module numbers of 12 bits (R403). -/
def okModule (m : Nat) : Bool := m < 4096
/-- Entry indices of a Cassette (R110). -/
def okEntry (i : Nat) : Bool := i < 65536
/-- Offsets of 8-byte words of the 1 MiB BAR (R442). -/
def okWord (o : Nat) : Bool := o < 0x100000
/-- Lines of 64 bytes in the HDM window (R366, R438). -/
def okLine (o : Nat) : Bool := o < 0x1000000000 && o % 64 == 0
/-- Pages of 2 MiB (R369). -/
def okPage (a : Nat) : Bool := a % 0x200000 == 0
/-- The header fields of R401. -/
def okRx (r : Rx) : Bool :=
  (match r.port with | some p => okPort p | none => true) && okModule r.dst && okModule r.src && okContext r.ctx
    && r.tag < 128 && r.scl < 128 && r.addr < 2 ^ 52
/-- A task's name. -/
def okKey (k : Machine.TaskKey) : Bool := okContext k.ctx && k.job < 65536 && k.task < 65536

/-- Edges of R105: the host, 24 stacks, 48 ports and the flash. -/
def okEdge : Machine.Edge → Bool
  | .hbm k => k < 24
  | .serdes p => okPort p
  | .host | .flash => true

/-- The command names only units, words and contexts that exist. -/
def Instr.wf : Instr → Bool
  | .nopPacket _ => true
  | .data _ => true
  | .read _ _ => true
  | .load _ => true
  | .unload _ => true
  | .run _ => true
  | .suspend _ => true
  | .resume _ => true
  | .ctlWritePacket _ => true
  | .ctlRead _ => true
  | .solDelta _ => true
  | .restore _ _ => true
  | .contextReset _ => true
  | .ringOpen _ => true
  | .ringClose _ => true
  | .fwImage _ _ => true
  | .attest _ _ _ => true
  | .doorbellWrite ring _ _ => okRing ring
  | .packetIntake => true
  | .issueDecision l => okCluster l
  | .entryComplete l idx => okCluster l && okEntry idx
  | .signal l idx => okCluster l && okEntry idx
  | .ctlWrite l idx => okCluster l && okEntry idx
  | .iterEnd l idx => okCluster l && okEntry idx
  | .stepEnd l idx => okCluster l && okEntry idx
  | .halt l idx => okCluster l && okEntry idx
  | .mm l idx _ => okCluster l && okEntry idx
  | .mmTa l idx _ => okCluster l && okEntry idx
  | .mmTb l idx _ => okCluster l && okEntry idx
  | .gramL l idx _ => okCluster l && okEntry idx
  | .gramR l idx _ => okCluster l && okEntry idx
  | .chain l idx _ => okCluster l && okEntry idx
  | .reduce l idx _ => okCluster l && okEntry idx
  | .fold l idx _ => okCluster l && okEntry idx
  | .exportPlane l idx _ => okCluster l && okEntry idx
  | .refresh l idx _ => okCluster l && okEntry idx
  | .factor l idx _ => okCluster l && okEntry idx
  | .solve l idx _ => okCluster l && okEntry idx
  | .refreshBlock l _ => okCluster l
  | .stream l idx _ => okCluster l && okEntry idx
  | .copy l idx _ => okCluster l && okEntry idx
  | .release l idx => okCluster l && okEntry idx
  | .send l idx _ => okCluster l && okEntry idx
  | .collective l idx _ => okCluster l && okEntry idx
  | .exchange l idx _ => okCluster l && okEntry idx
  | .optimise l idx _ => okCluster l && okEntry idx
  | .digest l idx _ => okCluster l && okEntry idx
  | .wcCheck l idx _ _ _ => okCluster l && okEntry idx
  | .vote rx key _ _ _ => okRx rx && okKey key
  | .outcome rx key _ _ _ _ => okRx rx && okKey key
  | .restoreInStep key _ => okKey key
  | .coppiceFold _ _ _ _ _ => true
  | .coppiceWaitExpiry key => okKey key
  | .entryTimeout l => okCluster l
  | .deadlineExpiry key _ => okKey key
  | .collectiveTimeout key => okKey key
  | .signalResend l _ => okCluster l
  | .migration l => okCluster l
  | .forcedMigration l => okCluster l
  | .suspendAtBoundary l => okCluster l
  | .suspendWinExpiry key => okKey key
  | .pause l => okCluster l
  | .drlCmdResume l => okCluster l
  | .subst l t => okCluster l && okTile t
  | .drlCommit l => okCluster l
  | .tilCommit l => okCluster l
  | .chnCommit l => okCluster l
  | .optCommit => true
  | .solCommit => true
  | .memCommit => true
  | .hdgCommit => true
  | .hubCommit => true
  | .tstCommit => true
  | .tstTuneCommit => true
  | .ctrCommit => true
  | .ctrClCommit l ctx => okCluster l && okContext ctx
  | .pwrCommit => true
  | .registerWrite off _ _ => okWord off
  | .memPageCmd _ ctx => okContext ctx
  | .pageMoveComplete page _ => okPage page
  | .faultDrivenMove page _ _ => okPage page
  | .scrubRead page _ _ => okPage page
  | .pendingDeltaApply => true
  | .managedLeave => true
  | .retrain port => port < 64
  | .enterService => true
  | .leaveService _ => true
  | .fuseProposed => true
  | .fuseSvn => true
  | .recheck _ => true
  | .tuneNow p => p < 256
  | .rotateOut p => p < 256
  | .clearRail p => p < 256
  | .fhQuery kind index => index < 4096 && kind < 16
  | .snap => true
  | .snapDomain => true
  | .clear => true
  | .periodicDump => true
  | .getIdentity _ => true
  | .getMeasurements _ => true
  | .attestRequest _ _ _ _ => true
  | .getBudget _ => true
  | .memRd off _ => okLine off
  | .memSpecRd off => okLine off
  | .memInv off => okLine off
  | .memWr off bytes enables _ => okLine off && bytes.length == 64 && enables.length == 64
  | .linkReset _ _ _ => true
  | .flr => true
  | .cxlReset => true
  | .write rx _ _ => okRx rx
  | .fabricRead rx _ _ _ => okRx rx
  | .signalMessage rx cluster _ _ _ => okRx rx && okCluster cluster
  | .packetForward rx _ _ _ _ => okRx rx
  | .ack rx _ => okRx rx
  | .readData rx _ => okRx rx
  | .nack rx _ => okRx rx
  | .part rx _ _ _ _ _ _ => okRx rx
  | .result rx _ _ _ _ _ => okRx rx
  | .carry rx _ _ _ _ _ _ _ => okRx rx
  | .count rx _ _ _ _ => okRx rx
  | .abort rx key _ => okRx rx && okKey key
  | .ident rx module farPort _ _ _ => okRx rx && okModule module && okPort farPort
  | .topoReport rx module _ => okRx rx && okModule module
  | .join rx module _ => okRx rx && okModule module
  | .leave rx module => okRx rx && okModule module
  | .linkState rx module _ => okRx rx && okModule module
  | .routeDrainDone => true
  | .drained rx module _ => okRx rx && okModule module
  | .switch rx _ => okRx rx
  | .fwChunk rx _ _ _ _ => okRx rx
  | .fwAck rx _ _ => okRx rx
  | .link port _ _ _ => okPort port
  | .badMsg bad => okPort bad.port
  | .flitReplay port => okPort port
  | .portTrain port module farPort _ _ _ => okPort port && okModule module && okPort farPort
  | .portUp port _ => okPort port
  | .portDown port => okPort port
  | .laneBerWindow port _ => okPort port
  | .opticalEngineFailover group engine => group < 2 && engine < 12
  | .edgeWindowExpiry edge => okEdge edge.edge
  | .engineReset l engine unit => okCluster l && engine < 16 && unit < 64
  | .clusterQuiesce l => okCluster l
  | .chipletReset c => okChiplet c
  | .moduleReset _ => true
  | .moduleResetTimeout => true
  | .deadlockScan _ => true
  | .tuneUpDue p _ => okPhys p
  | .tuneUpComplete p _ _ => okPhys p
  | .start _ => true
  | .referenceMissing => true
  | .temperatureWait _ => true
  | .stage6Timeout => true
  | .scanSelfTest _ => true
  | .memorySelfTest _ => true
  | .admission => true
  | .pwrFail _ => true
  | .interlockBreak => true
  | .capEffUpdate _ _ _ => true
  | .flowTrip _ => true
  | .junctionTrip p _ => okPhysOpt p
  | .governorLower _ => true
  | .governorRaise _ => true
  | .issueGating _ => true
  | .thermalLower p _ => okPhys p
  | .hubMgmtStateRead => true
  | .pwrStatusRead => true
  | .pwrInputRead => true
  | .pwrThermalRead => true
  | .hubIdentRead _ => true
  | .smbAlertResponse => true
  | .smbClkTimeout => true
  | .edgeClockResume edge => okEdge edge
  | .regulatorPhaseFailure rail => rail < 155
  | .readinessWindowEnd _ => true
  | .chargeWindowExpiry kind index _ => index < Machine.unitCount kind
  | .differenceStreamRead l _ => okCluster l

end Sys2Proof
end

