-- ==== Sys2Proof/Decode.lean ====
section
/-!
DEFINITION. The decoder of the block form: no row of the opcode table gives bits (every row's list of fields is empty), so
no word spells a command.
-/

namespace Sys2Proof

/-- The command that a word spells by the table's bits: none, for every word. -/
def decodeTableWord (_nbits _w : Nat) : Option Instr := none

end Sys2Proof
end

