-- ==== Sys2Proof/Machine/State.lean ====
section
/-!
DEFINITION. The state of the module, its faults and refusals, and the module after reset.
-/

namespace Sys2Proof.Machine

/-- What stops the model. -/
inductive Fault where
  /-- Raised by the meaning of a command that names a unit the module does not have: a cluster above 127, a port above 47, a
  ring above 262,143 (R22 to R30, R397, R440). Safe: no such command can reach the hardware. -/
  | noSuchUnit
  deriving DecidableEq, Repr

/-- Why the model refuses a command. -/
inductive Refusal where
  /-- Raised by exec's arm of a command that has no meaning yet. Safe: nothing can be proved of its effect. -/
  | notModelled (mnemonic : String)
  deriving DecidableEq, Repr

/-- Everything the spec gives the module, and the queue of commands that wait. -/
structure State where
  /-- commands that wait, first in first out -/
  pending : List Instr
  /-- bytes of device memory by local address -/
  mem : Cells
  /-- scale exponents that S8 elements in memory were written with (R52, log 21) -/
  tags : Tags
  /-- poisoned words (R387) -/
  poison : Poison
  /-- pages, moves and the MEM words -/
  pages : Pages
  /-- logical clusters 0 to 127 -/
  clusters : List Cluster
  /-- loaded jobs -/
  jobs : List Job
  hub : Hub
  fab : Fab
  sol : Sol
  start : Start
  hist : Hist
  ctr : Ctr
  pwr : Power
  deriving DecidableEq, Repr

/-- The module once STAGE reads READY (R14, R469; log 1 and 2). -/
def State.reset : State :=
  { pending := [], mem := [], tags := [], poison := [], pages := Pages.reset, clusters := List.replicate 128 Cluster.reset,
    jobs := [], hub := Hub.reset, fab := Fab.reset, sol := Sol.reset, start := Start.reset, hist := Hist.reset,
    ctr := Ctr.reset, pwr := Power.reset }

end Sys2Proof.Machine
end

