-- ==== Sys2Proof/Machine/Ops.lean ====
section
/-!
DEFINITION. The named operations over the state that the meanings share: clusters and jobs, memory, counters, messages,
packet completions (R451, R458), the end and abort of tasks (R137, R138, R151, R152, R300), charges and rotations (R497 to
R502).
-/

namespace Sys2Proof.Machine

/-- The outcome of a command. -/
abbrev Out := Host.Outcome State Fault Refusal

/-! ## Units -/

/-- The module's own number (R403). -/
def State.me (s : State) : Nat := s.hub.module

def State.cluster (s : State) (l : Nat) : Cluster := s.clusters.getD l Cluster.reset

def State.updCluster (s : State) (l : Nat) (f : Cluster → Cluster) : State := { s with clusters := s.clusters.modify l f }

/-- A Derailleur's own state changed. -/
def State.updDrl (s : State) (l : Nat) (f : Drl → Drl) : State := s.updCluster l (fun c => { c with drl := f c.drl })

/-- A logical cluster exists (R26); else the command names no unit. -/
def onCluster (l : Nat) (o : Out) : Out := if l < 128 then o else .fault .noSuchUnit

/-- A physical cluster exists (R443). -/
def onPhys (p : Nat) (o : Out) : Out := if p < 136 then o else .fault .noSuchUnit

/-- A port exists (R397). -/
def onPort (p : Nat) (o : Out) : Out := if p < 48 then o else .fault .noSuchUnit

/-- The modules that the map names as entry modules include this one (R403, R423). -/
def State.isEntry (s : State) : Bool := s.start.flash.conf.entries.contains s.me

/-! ## Jobs and tasks -/

def State.job (s : State) (ctx handle : Nat) : Option Job := s.jobs.find? (fun j => j.ctx = ctx ∧ j.handle = handle)

def State.updJob (s : State) (ctx handle : Nat) (f : Job → Job) : State :=
  { s with jobs := s.jobs.map (fun j => if j.ctx = ctx ∧ j.handle = handle then f j else j) }

def State.jobOf (s : State) (k : TaskKey) : Option Job := s.job k.ctx k.job

def State.updTask (s : State) (k : TaskKey) (f : Task → Task) : State := { s with hub := s.hub.updTask k f }

/-- Logical clusters that hold a task, lent ones included. -/
def State.holders (s : State) (k : TaskKey) : List Nat := (List.range 128).filter (fun l => (s.cluster l).holds k)

/-- Regions of the jobs of a context (R388, R411). -/
def State.regionsOf (s : State) (ctx : Nat) : List Region := (s.jobs.filter (fun j => j.ctx = ctx)).flatMap (·.regions)

/-- Regions of every loaded job. -/
def State.allRegions (s : State) : List Region := s.jobs.flatMap (·.regions)

/-- The range lies within the context's regions; the system context may name any backed address (R446). -/
def State.mayTouch (s : State) (ctx a n : Nat) : Bool :=
  if ctx = 0 then (s.pages.rangeFault none ⟨a, n, false⟩).isNone else inRegions (s.regionsOf ctx) a n

/-- What an entry of a cluster works with: its cluster, its task, its job, its entry and its flight. -/
structure Site where
  l : Nat
  key : TaskKey
  job : Job
  e : Entry
  f : Flight
  deriving DecidableEq, Repr

/-- The entry `idx` in flight on cluster `l`. -/
def State.site (s : State) (l idx : Nat) : Option Site :=
  let c := s.cluster l
  match c.drl.holder, c.drl.flight idx with
  | some k, some f =>
    match s.jobOf k with
    | some j =>
      match (j.cassette k.task l).bind (fun q => q.entries[idx]?) with
      | some e => some ⟨l, k, j, e, f⟩
      | none => none
    | none => none
  | _, _ => none

/-- Entries of the flights that issued before one and whose units have not finished with them. -/
def Site.ahead (x : Site) (fs : List Flight) : List Entry :=
  let es := match x.job.cassette x.key.task x.l with | some q => q.entries | none => []
  (fs.takeWhile (fun f => f.idx ≠ x.f.idx)).filterMap (fun f => if f.work.open' then es[f.idx]? else none)

/-- The entry's unit has come to it: tiles and Topiary take their entries in issue order, products leave the Pannier in issue
order, and the fetch engine works on four entries at once (R165, R178, R232, R383). -/
def Site.turn (x : Site) (fs : List Flight) : Bool :=
  let es := x.ahead fs
  let prod (e : Entry) : Bool := e.op.isProduct || x.job.h16Copies e
  if x.e.op.onTiles then es.all (fun q => !q.op.onTiles || !(masksMeet q.mask x.e.mask || (prod q && prod x.e)))
  else if x.e.op.onTopiary then es.all (fun q => !q.op.onTopiary)
  else if x.e.op.onFetch then (es.filter (fun q => q.op.onFetch)).length < 4
  else true

/-- The site, where the entry has the opcode, its work is still to do, and its unit's turn has come. -/
def State.todo (s : State) (l idx : Nat) (op : Opcode) : Option Site :=
  match s.site l idx with
  | some x => if x.e.op = op ∧ x.f.work.open' = true ∧ x.turn (s.cluster l).drl.flights = true then some x else none
  | none => none

/-- Step number of the entry's task (R79, R121, R137). -/
def State.stepOf (s : State) (k : TaskKey) : Nat := match s.hub.task k with | some t => t.step | none => 0

/-! ## Memory -/

/-- Bytes written by the module: poison of words written whole is cleared (R387). -/
def State.store (s : State) (ws : List (Nat × List Byte)) : State :=
  { s with mem := Cells.writeAll s.mem ws, poison := ws.foldl (fun p w => Poison.clear p w.1 w.2.length) s.poison }

/-- Scale records of the loaded jobs. -/
def State.records (s : State) : List Nat := s.jobs.flatMap (fun j => j.tensors.filterMap (fun t => if t.srecEn then some t.srec else none))

/-- Records that the module writes and software only reads: slot state records (R252) and step records (R279) of the loaded jobs. -/
def State.roRecords (s : State) : List (Nat × Nat) :=
  s.jobs.flatMap (fun j => j.slots.map (fun x => (x.state, x.stateBytes)) ++ (match j.param with | some p => [(p.stepRec, 1088)] | none => []))

/-- The bits of a word of memory that software may write, where it may not write them all (R13, R15): none of the ring area's control
blocks and reserved ranges (R440, R441), of the system area (R111) and of a record that the module writes; of a scale record the RW
fields (R77). -/
def State.softMask (s : State) (w : Nat) : Option Word :=
  if (s.isEntry && ringFixed w) || inSys w then some 0
  else if s.roRecords.any (fun r => r.1 ≤ w && w < r.1 + r.2) then some 0
  else (s.records.find? (fun r => r ≤ w && w < r + 128)).map (fun r => srecRw ((w - r) / 8))

/-- Bytes written by software: bits that it may not write keep their values (R13, R15). -/
def State.softStore (s : State) (a : Nat) (bs : List Byte) : State :=
  let t := s.store [(a, bs)]
  let ws := ((List.range ((bs.length + a % 8 + 7) / 8)).map (fun k => a / 8 * 8 + 8 * k)).filterMap (fun w =>
    (s.softMask w).map (fun m => (w, leBytes 8 ((Cells.word s.mem w &&& ~~~ m) ||| (Cells.word t.mem w &&& m)).toNat)))
  { t with
    mem := Cells.writeAll t.mem ws
    poison := ws.foldl (fun (q : Poison) w => if s.poison.contains w.1 then q.add w.1 else q) t.poison }

/-- Bytes moved without a format keep the scale exponents of S8 elements (R52, log 21). -/
def State.retag (s : State) (src dst n : Nat) : State := { s with tags := s.tags.copy src dst n }

/-- A tensor written by a conversion. -/
def State.put (s : State) (w : Written) : State :=
  let s := s.store w.writes
  { s with tags := w.tags.foldl (fun g t => g.put t.1 t.2.1 t.2.2) s.tags }

/-- Memory as readers of tensors see it. -/
def State.mv (s : State) : Mv := ⟨s.mem, s.tags⟩

/-- Bytes at an HDM offset cut where 4 KiB blocks end, so that each piece is contiguous in local addresses (R366). -/
def hdmPieces (off : Nat) (bs : List Byte) : List (Nat × List Byte) :=
  let k := 4096 - off % 4096
  let rest := (chunks 4096 (bs.drop k)).zipIdx.map (fun p => (hdmLocal (off + k + 4096 * p.2), p.1))
  (hdmLocal off, bs.take k) :: rest

/-- The stack of a page, if it has one, can be reached: accesses to one whose edge is stopped or out of service wait (R105,
R107). -/
def State.stackUp (s : State) (page : Nat) : Bool :=
  match s.pages.frameOf page with
  | some (.hbm k _) => s.start.edgeUp (.hbm k)
  | some (.pool k _) => s.start.edgeUp (.hbm k)
  | _ => true

/-- Every stack that an access touches can be reached. -/
def State.reaches (s : State) (as : List Access) : Bool :=
  (s.start.stopped.isEmpty && s.start.outEdges.isEmpty) || as.all (fun a => (pagesOf a.addr a.n).all s.stackUp)

/-- A write of `n` bytes can land now: its stack is reached, and none of its pages moves (R105, R377). -/
def State.lands (s : State) (a n : Nat) : Bool := !((pagesOf a n).any s.pages.moving) && s.reaches [⟨a, n, true⟩]

/-- Writes of the hub itself: one to a stack that cannot be reached, or to a page that moves, waits (R105, R377). -/
def State.hubStore (s : State) (ws : List (Nat × List Byte)) : State :=
  let t := s.store (ws.filter (fun w => s.lands w.1 w.2.length))
  { t with pages := { t.pages with
    waiting := t.pages.waiting ++ (ws.filter (fun w => !(s.lands w.1 w.2.length))).map (fun w => ⟨w.1, w.2, false, .hub⟩) } }

/-- Bytes written at an HDM offset by the hub (R366). -/
def State.storeHdm (s : State) (ws : List (Nat × List Byte)) : State := s.hubStore (ws.flatMap (fun w => hdmPieces w.1 w.2))

/-- Bytes of an HDM offset. -/
def State.readHdm (s : State) (off n : Nat) : List Byte := (List.range n).map (fun i => Cells.byte s.mem (hdmLocal (off + i)))

/-! ## Counters -/

def State.count (s : State) (l : Nat) (ws : List (Nat × Nat)) : State := s.updCluster l (fun c => c.count ws)
def State.hubCount (s : State) (w n : Nat) : State := { s with ctr := s.ctr.hubAdd w n }

/-- A threshold word counts on the strokes of other units than the Derailleur, whose strokes the model has itself (R528, R529). -/
def thrPaced (w : Word) : Bool := bit w 63 && !([0x06, 0x07, 0x08].contains (fld w 47 40))

/-- A timing word of a cluster's block that takes findings: its threshold units only where they are enabled. -/
def Cluster.takesPace (c : Cluster) (w : Nat) : Bool := isPaceWord w && (w < 112 || thrPaced (c.ctrc.thr.getD ((w - 112) / 2) 0))

/-- A timing word of chiplet `k`'s block that takes findings. -/
def Ctr.takesPace (c : Ctr) (k w : Nat) : Bool := isChipPace w && (w < 96 || thrPaced (wordAt (c.thrChip.getD k []) ((w - 96) / 2)))

/-- Pace strokes that units of the module have classed meanwhile, and strokes that threshold units have counted (R522, R526 to R528): by
word of the cluster's own block, or word `w` of chiplet `k`'s block at 128 (k + 1) + w. Only timing words take them (log 26). -/
def State.pace (s : State) (l : Nat) (ws : List (Nat × Nat)) : State :=
  let s := s.count l (ws.filter (fun w => (s.cluster l).takesPace w.1))
  let chip := ws.filter (fun w => decide (128 ≤ w.1) && s.ctr.takesPace (w.1 / 128 - 1) (w.1 % 128))
  { s with ctr := chip.foldl (fun (c : Ctr) w => c.chipAdd (w.1 / 128 - 1) (w.1 % 128) w.2) s.ctr }

/-! ## Messages -/

/-- Flits of the messages that ports have just sent, counted (R527). -/
def countSent (c : Ctr) (ms : List (Option Nat × Msg)) : Ctr :=
  ms.foldl (fun c m => match m.1 with | some p => c.port p 0 m.2.flits | none => c) c

/-- The fabric part changed; what it has sent meanwhile is counted. -/
def State.withFab (s : State) (f : Fab) : State :=
  { s with fab := f, ctr := countSent s.ctr (f.sent.drop s.fab.sent.length) }

/-- A trace record of a tagged entry at an event of R536 (R534, R535; log 26). -/
def State.trace (s : State) (l : Nat) (f : Flight) (op : Opcode) (step event unit lt : Nat) (detail : Word) : State :=
  match f.tag with
  | none => s
  | some q =>
    let c := s.cluster l
    let n := c.ctr.getD ctTraceWritten 0
    let r := traceRecord (f.idx % 65536) op.code event unit lt (q % 65536) (c.ctr.getD 64 0) detail (BitVec.ofNat 64 step)
    (s.hubStore [(traceAddr c.ctrc n, r)]).count l [(ctTraceWritten, 1)]

/-- A message injected by the module (R401). -/
def State.send (s : State) (m : Msg) : State := s.withFab (s.fab.send s.me m)

/-- A message that a port sends outside its numbering and credits. -/
def State.sendRaw (s : State) (p : Nat) (m : Msg) : State := s.withFab { s.fab with sent := s.fab.sent ++ [(some p, m)] }

/-- A management message of the hub. -/
def State.sendHub (s : State) (dst ctx : Nat) (b : Body) : State := s.send ⟨dst, s.me, ctx, 0, 0, b⟩

/-- A chunk of a firmware broadcast; its TAG says whether it goes through the hall (R430; DESIGN CHOICE, log 32). -/
def State.sendChunk (s : State) (dst : Nat) (hall : Bool) (seq chunk : Nat) (bytes : List Byte) : State :=
  s.send ⟨dst, s.me, 0, b2n hall, 0, .fwChunk seq chunk bytes⟩

/-- The module's Coppice as a commit reads it (R273). -/
def State.copInfo (s : State) (k : TaskKey) : CopInfo :=
  match (s.jobOf k).bind (fun j => j.param), s.hub.srec k.ctx k.job with
  | some p, some r => ⟨s.me, p.coppiceEn, s.hub.copGone.contains (k.ctx, k.job), r.copStep⟩
  | _, _ => ⟨s.me, false, false, 0⟩

/-- The Coppice is lost, for every job loaded: no stream is sent until its task is loaded again, and every task whose votes this module has passed up hears of
it by a VOTE of the hub to itself, at which a commit that waited is decided (R273, R285, R289; log 12). -/
def State.loseCoppice (s : State) : State :=
  let s : State := { s with hub := { s.hub with copLost := true, copGone := s.jobs.map (fun j => (j.ctx, j.handle)), streams := [] } }
  (s.hub.tasks.filter (fun t => t.st != .idle && t.cops.any (fun c => c.module = s.me))).foldl (fun (s : State) t =>
    s.sendHub s.me t.key.ctx (.vote t.key t.step [] [s.copInfo t.key])) s

/-- A free tag for a request of the hub: its requests carry SCL 0 and share the tags of cluster 0 (R401; DESIGN CHOICE, log 13). -/
def State.hubTag (s : State) : Option Nat :=
  ((List.range 128).map (127 - ·)).find? (fun t => !(s.hub.reqs.any (fun r => r.tag = some t)) && !((s.cluster 0).drl.reqs.any (fun r => r.tag = t)))

/-- A request of the hub that waits leaves once it has a tag, and a PACKET a credit (R406). -/
def State.hubIssue (s : State) (r : HubReq) : State :=
  match (if r.isPacket && decide (64 ≤ s.hub.creditsUsed r.msg.dst) then none else s.hubTag) with
  | none => s
  | some t =>
    let q : HubReq := ⟨some t, r.use, { r.msg with tag := t }⟩
    ({ s with hub := { s.hub with reqs := s.hub.reqs.replace r q } } : State).send q.msg

/-- Requests of the hub that wait, in order. -/
def State.hubFlush (s : State) : State := (s.hub.reqs.filter (fun r => r.tag.isNone)).foldl State.hubIssue s

/-- A request of the hub. -/
def State.hubRequest (s : State) (dst ctx : Nat) (use : HubUse) (b : Body) : State :=
  ({ s with hub := { s.hub with reqs := s.hub.reqs ++ [⟨none, use, ⟨dst, s.me, ctx, 0, 0, b⟩⟩] } } : State).hubFlush

/-- A free request tag of a cluster (R401). -/
def State.freeTag (s : State) (l : Nat) : Option Nat :=
  (List.range 128).find? (fun t => !((s.cluster l).drl.reqs.any (fun r => r.tag = t)) && !(l == 0 && s.hub.reqs.any (fun r => r.tag = some t)))

/-- Bytes written at a global address (R2): here, or by a write of the hub on another module. -/
def State.writeGlobal (s : State) (ctx : Nat) (use : HubUse) (addr : Nat) (bytes : List Byte) : State :=
  if addr / 2 ^ 52 = s.me then s.hubStore [(addr % 2 ^ 52, bytes)]
  else (chunks 4096 bytes).zipIdx.foldl (fun s p => s.hubRequest (addr / 2 ^ 52) ctx use (.write (addr % 2 ^ 52 + 4096 * p.2) p.1)) s

/-- The module's solver plan, as a delta packet of a context names it: a SOL_DELTA names the module alone (R342), and a job context the
plan of its own job only (DESIGN CHOICE, log 16). -/
def State.solverPlan (s : State) (ctx : Nat) : Option SolPlan :=
  (s.jobs.find? (fun j => j.sol.isSome && (ctx == 0 || j.ctx == ctx))).bind (fun j => j.sol)

/-- The cycle record (R359). -/
def Sol.cycleRecord (x : Sol) (aborted : Bool) : List Byte :=
  let c (k : Nat) : Nat := x.counts.getD k 0
  bytesOfWords
    [BitVec.ofNat 64 x.cycle, mkFld 63 32 (c 0) ||| mkFld 31 0 (c 1), mkFld 63 32 (c 2) ||| mkFld 31 0 (c 3),
     mkFld 63 32 (c 4) ||| mkFld 31 0 (c 5), mkFld 63 32 x.factNumeric ||| mkFld 31 0 x.factAbandoned,
     mkFld 63 32 x.deltaEntries ||| mkFld 31 0 x.deltaRejects,
     mkFld 63 63 (b2n aborted) ||| mkFld 31 0 (match x.rounds with | [] => 0 | r :: rs => rs.foldl (fun m q => min m q.2) r.2), 0]

/-- The record of the cycle that runs is written (R357, R359). The record of an aborted cycle is the hub's
own write, which a reset of the context does not drop (R363; log 16). -/
def State.endCycle (s : State) (k : TaskKey) (p : SolPlan) (aborted : Bool) : State :=
  if s.sol.cycleOn then
    s.writeGlobal (if aborted then 0 else k.ctx) (if aborted then .plain else .solver k) p.cycleRec (s.sol.cycleRecord aborted)
  else s

/-- No cycle runs any longer, and its counts of deltas start anew. -/
def Sol.over (x : Sol) : Sol := { x with cycleOn := false, closing := false, recorded := false, deltaEntries := 0, deltaRejects := 0 }

/-- A request of a cluster's entry, which may carry rows of later ones; none where its tags are all in use (R384, R401). -/
def State.request (s : State) (l : Nat) (idx : Option Nat) (dst ctx : Nat) (b : Body) (also : List Nat := []) : Option State :=
  match s.freeTag l with
  | none => none
  | some t =>
    let m : Msg := ⟨dst, s.me, ctx, t, l, b⟩
    let s := s.updDrl l (fun d => { d with reqs := d.reqs ++ [⟨t, idx, m, false, also⟩] })
    some ((s.count l [(ctMsgSent, 1), (ctBytesSent, b.payBytes)]).send m)

/-! ## Packet completions -/

/-- A completion or a release reaches the ring (R450, R451). -/
def State.ringEnd (s : State) (n slot : Nat) (releases : Bool) (c : Option Cqe) : State :=
  match c with
  | some c =>
    let x := (s.hub.ring n).complete slot releases c
    (({ s with hub := s.hub.setRing n x.1 } : State).storeHdm x.2).hubCount chCompletions 1
  | none => if releases then { s with hub := s.hub.setRing n ((s.hub.ring n).free slot) } else s

/-- A packet ends at this hub: its completion entry is written, or its end is sent to the entry hub that forwarded it (R451,
R458; log 27). `releases` says whether its slot is released now (R450, R454). -/
def State.endPkt (s : State) (p : Pkt) (status : Nat) (value : Word) (releases : Bool := true) : State :=
  let s : State := { s with hub := s.hub.dropPkt p.id }
  match p.origin with
  | .ring n slot => s.ringEnd n slot releases (some ⟨false, p.type, status, p.tag, value⟩)
  | .fabric m pid tag => s.send ⟨m, s.me, p.ctx, tag, 0, .ack pid (some ⟨pid, true, releases, status, value⟩)⟩

/-- The slot of a held packet is released (R454, R278). -/
def State.freeHeld (s : State) (h : Held) : State :=
  let s : State := { s with hub := { s.hub with held := s.hub.held.filter (· != h) } }
  match h.pkt.origin with
  | .ring n slot => s.ringEnd n slot true none
  | .fabric m pid tag => s.send ⟨m, s.me, h.pkt.ctx, tag, 0, .ack pid (some ⟨pid, false, true, 0, 0⟩)⟩

/-- Held packets of a task released, all of them or those of one step. -/
def State.freeHelds (s : State) (f : Held → Bool) : State := (s.hub.held.filter f).foldl State.freeHeld s

/-- A packet number ends. -/
def State.endPktId (s : State) (id : Option Nat) (status : Nat) (value : Word) : State :=
  match id with
  | none => s
  | some i => match s.hub.pkt i with | some p => s.endPkt p status value | none => s

/-- The spare tile takes a failing tile's place (R183, R499 row 1). -/
def PCl.substitute (c : PCl) (lt : Nat) : PCl :=
  match c.spareTile with
  | some t => { c with tileMap := c.tileMap.set lt t }
  | none => c

/-! ## Substitution (R183, R184) -/

/-- A logical tile is named by an entry in flight. -/
def State.tileBusy (s : State) (l t : Nat) : Bool :=
  match (s.cluster l).drl.holder.bind s.jobOf, (s.cluster l).drl.holder with
  | some j, some k =>
    match j.cassette k.task l with
    | some q => (s.cluster l).drl.flights.any (fun f => match q.entries[f.idx]? with | some e => e.mask.testBit t | none => false)
    | none => false
  | _, _ => false

/-- A repair at run time: what it makes of a physical cluster, and its record in the history (R474). -/
def State.setPCl (s : State) (p : Nat) (f : PCl → PCl) : State :=
  let x := s.start.upd p f
  { s with start := x, hist := s.hist.append (.cluster p (x.cluster p).trace) }

/-- A substitution that waits takes place once its tile is idle. -/
def State.settleSubst (s : State) (l : Nat) : State :=
  match (s.cluster l).til.substWaiting with
  | none => s
  | some t =>
    if s.tileBusy l t then s
    else
      let s := s.updCluster l (fun c => { c with til := { c.til with substWaiting := none, spareFree := false, spareLtile := t } })
      match s.start.phys l with
      | some p => s.setPCl p (fun c => c.substitute t)
      | none => s

/-! ## The end of a task -/

/-- Statistic slots of a job's clusters by index, but for those that a suspended task of the job carries (R145, R256; log 68). -/
def State.ownSlots (s : State) (k : TaskKey) (ls : List Nat) : List Nat :=
  let carried := (s.hub.tasks.filter (fun t => t.key ≠ k && t.key.ctx = k.ctx && t.key.job = k.job)).flatMap (fun t => t.saved.flatMap (·.slots))
  match s.jobOf k with
  | some j => (j.slots.zipIdx.filter (fun x => ls.contains x.1.owner && !x.1.isFactor && !(carried.contains x.2))).map (·.2)
  | none => []

/-- Writes that empty the OPEN planes of slots (R226). -/
def Job.emptyPlanes (j : Job) (m : Cells) (is : List Nat) : List (Nat × List Byte) :=
  is.flatMap (fun i => match j.slots[i]? with
    | some x => if x.planeState m = 1 then [x.setWord 0 (setFld (x.word m 0) 63 60 0)] else []
    | none => [])

/-- Writes that discard the candidates of slots (R246). One that is READY goes with the queued and the running ones at an abort or a
context reset (DESIGN CHOICE, log 68). -/
def Job.discards (j : Job) (m : Cells) (is : List Nat) : List (Nat × List Byte) :=
  is.flatMap (fun i => match j.slots[i]? with | some x => discardSlot m x | none => [])

/-- A cluster leaves its task, its Pannier slots discarded (R180): a lent one goes back to its
lender with the lender's DRL group, PAUSED unless a RESUME has come, the step bit clear as at the lender's rewind (R210, R299, R300);
another is ABORTING until its units have cut its entries off, and IDLE at once at a context reset (R143, R151, R152). -/
def Cluster.leave (c : Cluster) (key : TaskKey) (code : Nat) : Cluster :=
  if c.drl.holder = some key then
    match c.under with
    | some d =>
      { c with
        drl := d, under := none, cfg := c.lentCfg, shadow := c.lentShadow, chn := { c.chn with stepNf := false }
        pan := Pannier.reset, lastCode := code }
    | none =>
      { c with
        drl := if code = statusContextReset then Drl.idle else c.drl.cut, pan := Pannier.reset, top := { c.top with queue := [] }
        lastCode := code, migForce := false }
  else
    match c.under with
    | some d => if d.holder = some key then { c with under := none, top := { c.top with queue := [] }, lastCode := code } else c
    | none => c

/-- The task record at its end: the step at which the next RUN starts (R455). -/
def Task.stop (t : Task) (next : Nat) : Task :=
  { t with st := .idle, attempt := 1, done := 0, next, dlOn := false, expired := false, votes := [], cops := [],
           outcome := none, copWait := false, abortDue := none, saved := [], lender := none, runPkt := none,
           suspPkt := none, early := [] }

/-- The stores of a logical cluster read as zero (R368, R485, R505, R509). -/
def State.zeroStores (s : State) (l : Nat) : State :=
  let a := storeBase + l * storeStride
  { s with mem := Cells.zero s.mem a storeStride, tags := s.tags.filter (fun t => !(a ≤ t.1 && t.1 < a + storeStride)),
           poison := s.poison.filter (fun w => !(a ≤ w && w < a + storeStride)) }

/-- Bytes copied with their scale exponents and their poison. -/
def State.copyRange (s : State) (src dst n : Nat) : State :=
  let hit (a b : Nat) : Bool := a ≤ b && b < a + n
  { s with
    mem := (s.mem.filter (fun c => hit src c.1)).foldl (fun (m : Cells) c => Cells.put (dst + (c.1 - src)) c.2 m) (Cells.zero s.mem dst n)
    tags := s.tags.copy src dst n
    poison := (s.poison.filter (hit src)).foldl (fun q w => q.add (dst + (w - src))) (s.poison.filter (fun w => !(hit dst w))) }

/-- The slot of a cluster in its task's save area (R121). -/
def State.saveSlot (s : State) (k : TaskKey) (l : Nat) : Nat :=
  (match (s.jobOf k).bind (fun j => j.tasks[k.task]?) with | some d => d.saveArea | none => 0) + l * 0x800000

/-- The words of a saved cluster's slot written (R145, R147). -/
def State.writeSlot (s : State) (k : TaskKey) (l : Nat) (d : Drl) (full : Bool) (cfg shadow : Word) : State :=
  s.store [(s.saveSlot k l + saveWordsOff, bytesOfWords (d.saveWords (s.stepOf k) full cfg shadow))]

/-- The words of a saved cluster's slot as memory holds them. -/
def State.slotWords' (s : State) (k : TaskKey) (l : Nat) : List Word :=
  (List.range 86).map (fun i => Cells.word s.mem (s.saveSlot k l + saveWordsOff + 8 * i))

/-- The entries of the Cassette that a Derailleur runs. -/
def State.entriesOf (s : State) (l : Nat) (d : Drl) : List Entry :=
  match d.holder with
  | some k => (match (s.jobOf k).bind (fun j => j.cassette k.task l) with | some q => q.entries | none => [])
  | none => []

/-- The cluster stands at a boundary where it may stop: it runs or is paused, and nothing is in flight (R145, R146). -/
def State.mayStop (s : State) (l : Nat) (force : Bool) : Bool :=
  let d := (s.cluster l).drl
  (d.st == .running || d.st == .paused) && d.atBoundary (s.entriesOf l d) force

/-- A spare can take the cluster (R500). -/
def State.canSpare (s : State) (l : Nat) : Bool :=
  match s.start.phys l with | some p => (s.start.spareOf (p / 17)).isSome | none => false

/-- A migration acts at the boundary that the cluster stands at. -/
def State.migActs (s : State) (l : Nat) : Bool :=
  (s.cluster l).migDue && s.canSpare l && s.mayStop l (s.cluster l).migForce

/-- A suspension acts at the boundary that the cluster stands at. A lent cluster waits until it has returned (R301). -/
def State.suspActs (s : State) (l : Nat) : Bool :=
  let c := s.cluster l
  c.drl.suspendReq && c.under.isNone && s.mayStop l c.drl.suspendForce

/-- A pause that was asked for takes effect at an entry boundary, behind a migration or a suspension that acts there (R143, R153). -/
def State.settlePause (s : State) (l : Nat) : State :=
  let d := (s.cluster l).drl
  if d.pauseReq && d.flights.isEmpty && d.st == .running && !(s.migActs l) && !(s.suspActs l) then
    s.updDrl l (fun d => { d with st := .paused, pauseReq := false })
  else s

/-- A cluster leaves a task; a lent one's stores read as zero before it goes back (R300, R368). -/
def State.leaveCluster (s : State) (k : TaskKey) (status l : Nat) : State :=
  let c := s.cluster l
  let s := if c.drl.holder = some k ∧ c.under.isSome then s.zeroStores l else s
  (s.updCluster l (fun c => c.leave k status)).settleSubst l

/-- A task ends on this module with a status: its clusters leave it, its record says where the next RUN starts, its RUN or
RESUME packet completes with the step in progress (R455). -/
def State.endTask (s : State) (k : TaskKey) (status next : Nat) : State :=
  match s.hub.task k with
  | none => s
  | some t =>
    let ls := s.holders k
    let s := ls.foldl (fun s l => s.leaveCluster k status l) s
    let s := s.updTask k (fun t => t.stop next)
    let s : State := { s with hub := { s.hub with restores := s.hub.restores.filter (fun x => x.key ≠ k) } }
    let s : State := if status = statusDone then s else
      { s with hub := { s.hub with held := s.hub.held.map (fun h => if h.key = k then { h with stale := true } else h) } }
    let s := s.endPktId t.runPkt status (BitVec.ofNat 64 t.step)
    s.endPktId t.suspPkt pktState 0

/-- The first step of a task's next RUN after STATUS.DONE (R455). -/
def State.stepBase (s : State) (k : TaskKey) : Nat :=
  match (s.jobOf k).bind (fun j => j.tasks[k.task]?) with | some d => d.stepBase | none => 0

/-- Writes of a solver task that no answer has come for. -/
def State.solverBusy (s : State) (k : TaskKey) : Bool := s.hub.reqs.any (fun r => r.use == .solver k)

/-- The end of a cycle whose clusters have halted (R359): the cycle record once every result record is acknowledged, and STATUS.DONE
once the cycle record is. -/
def State.closeCycle (s : State) (k : TaskKey) (p : SolPlan) : State :=
  if s.solverBusy k then s
  else
    let s := if s.sol.recorded then s else s.endCycle k p false
    let s : State := { s with sol := { s.sol with recorded := true } }
    if s.solverBusy k then s
    else ({ s with sol := s.sol.over } : State).endTask k statusDone (s.stepBase k)

/-- Clusters whose slots a task's end concerns: those it holds and those it has saved; a borrower's clusters are its lender's (R246,
R256, R299, R301). -/
def State.slotClusters (s : State) (k : TaskKey) (t : Task) : List Nat :=
  if t.lender.isSome then [] else s.holders k ++ t.saved.map (fun x => x.cluster)

/-- Other modules of a task. -/
def State.peers (s : State) (k : TaskKey) : List Nat :=
  match s.jobOf k with | some j => (j.mods s.me).filter (· ≠ s.me) | none => []

/-- Tagged entries that an abort cuts off on a cluster (R536). -/
def State.traceCut (s : State) (k : TaskKey) (j : Job) (step status l : Nat) : State :=
  let d := (s.cluster l).drl
  match (if d.holder = some k then j.cassette k.task l else none) with
  | some q => d.flights.foldl (fun s f =>
      match q.entries[f.idx]? with
      | some e => s.trace l f e.op step 8 6 0 (BitVec.ofNat 64 status)
      | none => s) s
  | none => s

/-- The locations that a logical tile reports to the fault history (R174). -/
def State.locateTile (s : State) (l lt : Nat) (rows cols : List Nat) : State :=
  match s.start.phys l with
  | some p => { s with hist := s.hist.locate (9 * p + (s.start.cluster p).tileMap.getD lt lt) rows cols }
  | none => s

/-- The locations of an entry's failing tiles whose retry is still to come. -/
def State.locateRetry (s : State) (l : Nat) (f : Flight) : State :=
  match f.work with
  | .retry _ fails => fails.foldl (fun (s : State) t => s.locateTile l t.1 t.2.1 t.2.2) s
  | _ => s

/-- Failing output tiles whose retry an abort or a context reset abandons: their locations still reach the fault history (R174, R186); no
charge of R497 names the case (log 53). -/
def State.reportRetries (s : State) (k : TaskKey) : State :=
  (s.holders k).foldl (fun (s : State) l =>
    let d := (s.cluster l).drl
    if d.holder ≠ some k then s
    else d.flights.foldl (fun (s : State) f => s.locateRetry l f) s) s

/-- Requests of a task's clusters that still wait for a port are cut off with their entries (R152, R332). -/
def State.dropRequests (s : State) (k : TaskKey) : State :=
  let rs := (s.holders k).flatMap (fun l => let d := (s.cluster l).drl; if d.holder = some k then d.reqs.map (fun r => r.msg) else [])
  { s with fab := { s.fab with waiting := s.fab.waiting.filter (fun w => !(rs.contains w.msg)) } }

/-- Destinations of the exchanges that a task's clusters are in (R332). -/
def State.cutRows (s : State) (k : TaskKey) : List (TaskKey × Nat × Nat) :=
  (s.holders k).flatMap (fun l => let d := (s.cluster l).drl; if d.holder = some k then
    d.flights.flatMap (fun f => match f.work with | .exch e => e.into.map (fun r => (k, r.1, r.2)) | _ => []) else [])

/-- An abort takes effect on this module (R151): refreshes are discarded and OPEN planes emptied, the committed state and the held input
stay, and the next RUN starts at the step that the abort interrupted (R455). -/
def State.abortNow (s : State) (k : TaskKey) (status : Nat) : State :=
  match s.hub.task k with
  | none => s
  | some t =>
    if t.st = .idle then s
    else
      let own := s.ownSlots k (s.slotClusters k t)
      let s := match s.jobOf k with
        | some j =>
          let s : State := (s.holders k).foldl (fun (s : State) l => s.traceCut k j t.step status l) s
          let s : State := { s with hub := { s.hub with dead := s.hub.dead ++ s.cutRows k } }
          let s := s.store (j.discards s.mem own)
          s.store (j.emptyPlanes s.mem own)
        | none => s
      let s := match s.jobOf k, (s.jobOf k).bind (·.sol) with
        | some j, some p =>
          if j.isSolver k.task then
            let s := s.endCycle k p true
            { s with sol := s.sol.over }
          else s
        | _, _ => s
      ((s.reportRetries k).dropRequests k).endTask k status t.step

/-- An abort on this module: while the module applies a restore outcome the application completes first (R289). -/
def State.abortHere (s : State) (k : TaskKey) (status : Nat) : State :=
  match s.hub.task k with
  | some t => if t.restoring then s.updTask k (fun t => { t with abortDue := some (t.abortDue.getD status) }) else s.abortNow k status
  | none => s

/-- An abort of the whole task: here, and by message on its other modules (R152). -/
def State.abortTask (s : State) (k : TaskKey) (status : Nat) : State :=
  match s.hub.task k with
  | none => s
  | some t =>
    if t.st = .idle then s
    else
      let ps := s.peers k
      ps.foldl (fun s m => s.sendHub m k.ctx (.abort k status)) (s.abortHere k status)

/-- A task whose restore cannot be applied aborts at once, with the status of an abort that waits if there is one (R276, R287, R289). -/
def State.failRestore (s : State) (k : TaskKey) (status : Nat) : State :=
  let due := match s.hub.task k with | some t => t.abortDue.getD status | none => status
  (s.updTask k (fun t => { t with outcome := none })).abortTask k due

/-! ## The ladder and the fault history -/

/-- Engine codes of R514 by opcode. -/
def Opcode.engine : Opcode → Nat
  | .mm | .mmTa | .mmTb | .gramL | .gramR => 1
  | .chain | .reduce | .optimise | .digest => 3
  | .topiary => 4
  | .stream | .copy | .release => 5
  | .send | .collective | .exchange | .signal => 7
  | .nop | .fence | .ctlWrite | .iterEnd | .stepEnd | .halt => 6

/-- A climb entered (R509, R514). -/
def State.climb (s : State) (rung l engine unit : Nat) : State := { s with hist := s.hist.climb rung l engine unit }

/-- DRAIN with its cause (R500, R502), entered from DEPLOYED; in another state it stays (R492, R520). -/
def State.drain (s : State) (cause : Nat) : State :=
  if s.start.lc = .deployed then
    { s with
      start := { s.start with lc := .drain }, hist := ({ s.hist with drainCause := cause } : Hist).append (.life .drain cause)
      pwr := { s.pwr with alert := true } }
  else s

/-- The spare cluster takes a logical number (R26, R500): the rotated cluster is OUT, its rail offset returns to 0. -/
def Start.rotate (x : Start) (p q : Nat) : Start :=
  let l := (x.cluster p).logical
  let x := x.upd q (fun c => { c with logical := l, spare := false })
  x.upd p (fun c => { c with logical := none, spare := false, out := true, soft := true, offset := 0 })

/-- A cluster may be rotated now: no task holds it. -/
def State.idleAt (s : State) (l : Nat) : Bool :=
  (s.cluster l).drl.holder.isNone && (s.cluster l).drl.st != .aborting && (s.cluster l).under.isNone

/-- The spare `q` takes logical cluster `l` from physical cluster `p` (R26, R145, R500); unless the state is carried in full,
its stores read as zero (log 3). The logical cluster's CHN words and STEP_NF stay as they are (DESIGN CHOICE, log 46). -/
def State.takeSpare (s : State) (l p q : Nat) (full : Bool) : State :=
  let side := (s.start.cluster q).spareSide
  let x := s.start.rotate p q
  let s : State := { s with
    start := x
    hist := ((({ s.hist with rotations := satAdd 12 s.hist.rotations 1 } : Hist).append (.cluster q (x.cluster q).trace)).append
      (.cluster p (x.cluster p).trace)) }
  let s := s.updCluster l (fun c => { c with
    migDue := false, migForce := false, til := { c.til with spareFree := side.1, spareLtile := side.2, substWaiting := none } })
  if full then s else s.zeroStores l

/-- A Tune-up runs on a cluster of the chiplet (R503, R520). -/
def State.tuningOn (s : State) (c : Nat) : Bool := ((List.range 17).map (· + 17 * c)).any (fun p => (s.start.cluster p).tuning)

/-- A rotation that waits for a boundary; it takes the place of a Tune-up that was due. -/
def State.wantRotation (s : State) (l p : Nat) : State :=
  let s := s.updCluster l (fun c => { c with migDue := true })
  { s with start := s.start.upd p (fun c => { c with due := false }) }

/-- A rotation of physical cluster `p` (R500): at once when idle, else due at the next migratable boundary; while a Tune-up
runs on the chiplet it waits (R520); DRAIN where the chiplet has no usable spare. -/
def State.rotation (s : State) (p : Nat) : State :=
  match (s.start.cluster p).logical with
  | none => s.setPCl p (fun c => { c with out := true, spare := false, soft := true, offset := 0 })
  | some l =>
    match s.start.spareOf (p / 17) with
    | none => if s.tuningOn (p / 17) then s.wantRotation l p else s.drain 1
    | some q => if s.idleAt l then s.takeSpare l p q false else s.wantRotation l p

/-- A request for a substitution (R183, R184); ignored where the spare is taken, or is promised to a request that still waits
(DESIGN CHOICE, log 41). -/
def State.requestSubst (s : State) (l t : Nat) : State :=
  let c := s.cluster l
  if c.til.spareFree ∧ t < 8 ∧ c.til.substWaiting = none then
    (s.updCluster l (fun c => { c with til := { c.til with substWaiting := some t } })).settleSubst l
  else s

/-- A rail raise of row 4 of R499 is open to the cluster. -/
def State.mayRaise (s : State) (p : Nat) : Bool :=
  let c := s.start.cluster p
  c.offset < fld s.hist.cfg 15 12 && c.railMv s.start.flash.conf.limits.vcoreMax (fld s.pwr.cfg 47 36) + 125 ≤ 10 * s.start.flash.conf.limits.vcoreMax

/-- Physical cluster `p` has lost its idle spare tile (R27, R181, R184): SPARE_FREE clears, and a substitution that waited is left to
the rotation. -/
def State.spareGone (s : State) (p : Nat) : State :=
  match (s.start.cluster p).logical with
  | none => s
  | some l =>
    let til := (s.cluster l).til
    if (s.start.cluster p).spareTile.isSome ∨ !til.spareFree then s
    else
      let s := s.updCluster l (fun c => { c with til := { c.til with spareFree := false, spareLtile := 0, substWaiting := none } })
      if til.substWaiting.isSome then s.rotation p else s

/-- The rows of R499 after a charge to cluster `p`, or to its tile `t`. -/
def State.suspectRows (s : State) (p : Nat) (t : Option Nat) : State :=
  let st := s.start.starts
  let perm (kind i : Nat) : Bool := s.hist.permanent st kind i
  let n (kind i : Nat) : Nat := s.hist.winCharges st kind i
  let tilePerm : Bool := match t with | some t => perm 1 (9 * p + t) | none => false
  if tilePerm then
    match t with
    | some t =>
      let mark (s : State) : State := s.setPCl p (fun c => { c with tileSoft := c.tileSoft ||| 2 ^ t })
      match (s.start.cluster p).logical, (s.start.cluster p).ltileOf t with
      | some l, some lt =>
        if (s.cluster l).til.substWaiting = some lt then s
        else if (s.cluster l).til.spareFree ∧ (s.cluster l).til.substWaiting = none then (mark s).requestSubst l lt
        else s.rotation p
      | none, some lt =>
        if (s.start.cluster p).spareTile.isSome then
          (mark s).setPCl p (fun c => c.substitute lt)
        else s.rotation p
      | _, none => (mark s).spareGone p
    | none => s
  else if perm 2 p then s.rotation p
  else if (n 2 p ≥ fld s.hist.cfg 23 20 || (List.range 9).any (fun t => n 1 (9 * p + t) ≥ fld s.hist.cfg 23 20)) && s.mayRaise p then
    s.setPCl p (fun c => { c with offset := c.offset + 1 })
  else s

/-- A charge to a unit (R497), and the rows of R499 for clusters and tiles. -/
def State.charge (s : State) (kind index cause : Nat) : State :=
  let s : State := { s with hist := s.hist.charge s.start.starts kind index cause }
  if index < unitCount kind then
    (if kind = 1 then s.suspectRows (index / 9) (some (index % 9)) else if kind = 2 then s.suspectRows index none else s)
  else s

/-- A charge to the physical cluster of a logical one. -/
def State.chargeCluster (s : State) (l cause : Nat) : State :=
  match s.start.phys l with
  | some p => s.charge 2 p cause
  | none => s

/-- A charge to the physical tile that runs a logical tile. -/
def State.chargeTile (s : State) (l lt cause : Nat) : State :=
  match s.start.phys l with
  | some p => s.charge 1 (9 * p + (s.start.cluster p).tileMap.getD lt lt) cause
  | none => s

/-- The unit that an uncorrectable word charges with cause 0x06 (R497). -/
def State.chargeWord (s : State) (a : Nat) : State :=
  match placeOf a with
  | .store l off =>
    if off < clusterStoreOff then s.chargeTile l (off / tileStoreBytes) 0x06 else s.chargeCluster l 0x06
  | .chip c _ =>
    match s.pages.frameOf (pageOf a) with
    | some (.near k n) => s.charge 5 (4 * k + n % 4) 0x06
    | some (.hbm st _) => s.charge 4 st 0x06
    | some (.pool st _) => s.charge 4 st 0x06
    | none => s.charge 4 (3 * c) 0x06
  | _ => s

/-! ## Uncorrectable faults -/

/-- An uncorrectable word is written back with the poison code (R387); one found in an HBM frame of a stack whose pool is
empty drains the module (R502). -/
def State.poisonWord (s : State) (a : Nat) : State :=
  let s := ({ s with poison := s.poison.add a } : State).chargeWord a
  match s.pages.frameOf (pageOf a) with
  | some (.hbm st _) => if s.pages.poolEmpty.getLsbD st then s.drain 2 else s
  | some (.pool st _) => if s.pages.poolEmpty.getLsbD st then s.drain 2 else s
  | _ => s

/-- An entry's fault latched, and the word poisoned where it was newly found (R387, R389). -/
def State.latchFault (s : State) (x : Site) (kind : FaultKind) (module addr : Nat) : State :=
  let s : State := { s with pages := s.pages.latch kind module addr x.key.ctx x.l x.f.idx }
  if kind = .unc then s.poisonWord addr else s

/-- An entry's uncorrectable fault (R388, R389): the first is latched, and a further one sets FAULT_MULTI (R394); the climb is entered at
rung 1, and the task aborted once. -/
def State.entryFault (s : State) (x : Site) (kind : FaultKind) (module addr : Nat) (more : List (FaultKind × Nat) := []) : State :=
  let s := more.foldl (fun (s : State) f => s.latchFault x f.1 module f.2) (s.latchFault x kind module addr)
  (s.climb 1 x.l x.e.op.engine 0).abortTask x.key statusAborted

/-- Bytes of an access by page. -/
def Access.parts (x : Access) : List (Nat × Nat) :=
  (pagesOf x.addr x.n).map (fun g => (g, min (g + pageBytes) (x.addr + x.n) - max g x.addr))

/-- Bytes read or written counted at the tier that holds the frame, and at the carrier links where the access comes from another
chiplet (R527; log 26). -/
def Ctr.access (c : Ctr) (from' : Option Nat) (f : Frame) (write : Bool) (n : Nat) : Ctr :=
  let c := match f with
    | .near k _ => c.chipAdd k (12 + b2n write) n
    | .hbm st _ => c.chipAdd (st / 3) (4 * (st % 3) + b2n write) n
    | .pool st _ => c.chipAdd (st / 3) (4 * (st % 3) + b2n write) n
  match from' with
  | some k => if k = f.chip then c else (c.chipAdd k (16 + b2n write) n).chipAdd f.chip (17 - b2n write) n
  | none => c

/-- The word of a chiplet's counter block that counts a frame's corrected events (R527). -/
def Frame.ceWord : Frame → Nat
  | .near _ _ => 14
  | .hbm k _ => cpCorrected (k % 3)
  | .pool k _ => cpCorrected (k % 3)

/-- `n` corrected events counted against a frame (R387, R390). -/
def State.countCe (s : State) (f : Frame) (n : Nat) : State :=
  if n = 0 then s else
  { s with
    ctr := s.ctr.chipAdd f.chip f.ceWord n
    pages := { s.pages with ce := assocSet s.pages.ce f ((assoc s.pages.ce f).getD 0 + n) } }

/-- Words that reads find with one bad bit: they are returned and written back corrected, and each counts against its frame (R387). -/
def State.corrected (s : State) (fixed : List Nat) (as : List Access) : State :=
  (fixed.filter (fun a => as.any (fun x => !x.write && x.addr < a / 8 * 8 + 8 && a / 8 * 8 < x.addr + x.n))).foldl (fun s a =>
    match s.pages.frameOf (pageOf a) with
    | some f => s.countCe f 1
    | none => s) s

/-- Accesses counted. -/
def State.countBytes (s : State) (from' : Option Nat) (as : List Access) : State :=
  { s with ctr := as.foldl (fun c x => x.parts.foldl (fun c g =>
      match s.pages.frameOf g.1 with
      | some f => c.access from' f x.write g.2
      | none => c) c) s.ctr }

/-- An entry's accesses checked: the first fault aborts the task; a write to a moving page and an access to a stack out of
service wait (R105, R377, R388); else the entry goes on. -/
def State.guard (s : State) (x : Site) (ev : Ev) (as : List Access) (go : State → State) : State :=
  match firstFault s.pages s.poison ev.bad (some x.l) as with
  | some f => (s.corrected ev.fixed as).entryFault x f.1 s.me f.2 ((badWords s.poison ev.bad as).filter (· != f))
  | none => if writesWait s.pages as || !(s.reaches as) then s
    else go (((s.corrected ev.fixed as).countBytes ((s.start.phys x.l).map (fun p => p / 17)) as).pace x.l ev.pace)

/-! ## Flights -/

/-- The entry's work is done: it can complete. -/
def State.workDone (s : State) (x : Site) (fl : Flags := {}) : State :=
  s.updDrl x.l (fun d => d.setFlight x.f.idx (fun f => { f with work := .done, flags := f.flags.or fl }))

def State.setWork (s : State) (x : Site) (w : Work) : State := s.updDrl x.l (fun d => d.setFlight x.f.idx (fun f => { f with work := w }))

/-- The counts of a conversion into a tensor with a scale record (R70, R74). -/
def State.addConv (s : State) (l : Nat) (t : Tensor) (st : ConvStat) : State :=
  if t.srecEn then s.updDrl l (fun d => d.addConv t.srec st) else s

end Sys2Proof.Machine
end

