-- ==== Sys2Proof/Machine/Operands.lean ====
section
/-!
DEFINITION. Operands of entries: their tensors, rounding and draws (R66, R79, R80, R202), the application of a chain to an
output tensor (R191 to R206), and the accesses that an entry makes.
-/

namespace Sys2Proof.Machine

/-- A tensor that an index names; 0xFFFF names none (R114). -/
def Site.ten (x : Site) (i : Nat) : Option Tensor := if i = noIdx then none else x.job.tensor? i

def Site.opa (x : Site) : Option Tensor := x.ten x.e.opa
def Site.opb (x : Site) : Option Tensor := x.ten x.e.opb
def Site.opd (x : Site) : Option Tensor := x.ten x.e.opd

/-- What every draw of an entry has in common (R79). -/
structure DrawIn where
  seed : Word
  step : Word
  inst : Nat
  deriving DecidableEq, Repr

def State.drawIn (s : State) (x : Site) (inst : Nat) : DrawIn := ⟨x.job.seed, BitVec.ofNat 64 (s.stepOf x.key), inst⟩

/-- The rounding of an element by stage `purpose` into tensor `t` (R66, R67, R203). -/
def sinkRnd (rnd : Nat) (d : DrawIn) (purpose : Nat) (t : Tensor) (r c : Nat) : Rnd :=
  if rnd = 1 then rndOf 1 (draw d.seed d.step t.id d.inst purpose (t.index r c)) else rndPlain rnd

/-- The uniform value of R202. -/
def uniform (d : DrawIn) (tid slot index : Nat) : F32 :=
  Fp.ofDy .rne ⟨((draw d.seed d.step tid d.inst (0x10 + slot) index).toNat >>> 40 : Nat), -24⟩

/-- An element of a tensor as F32 (R201). -/
def Tensor.f32 (t : Tensor) (m : Mv) (r c : Nat) : F32 := toF32 (t.value m r c)

/-- A vector's element for LDV, BIAS and SCALE: by row or by column. -/
def vecAt (m : Mv) (t : Option Tensor) (byRow : Bool) (r c : Nat) : F32 :=
  match t with
  | some t => if byRow then t.f32 m r 0 else t.f32 m 0 c
  | none => 0

/-- What the chain of an element of OPD reads (R198 to R202). -/
def chainEnv (m : Mv) (j : Job) (ch : Chain) (d : DrawIn) (opd : Tensor) (opb : Option Tensor) (r c : Nat) : ChainEnv :=
  let k := opd.index r c
  let tv (i : Nat) : Option Tensor := if i = noIdx then none else j.tensor? i
  { lrow := k / max 1 opd.fullCols, lcol := k % max 1 opd.fullCols, consts := ch.consts,
    vecs := ch.vec.map (fun i => (vecAt m (tv i) false r c, vecAt m (tv i) true r c)),
    sides := ch.side.map (fun i => match tv i with | some t => t.f32 m r c | none => 0),
    opb := opb.map (fun t => t.f32 m r c), uni := fun tid slot => uniform d tid slot k,
    tid := if ch.dtidEn then ch.drawTid else opd.id }

/-- A stage with what it reads for the element (R194). -/
def stageIn (m : Mv) (j : Job) (ch : Chain) (r c : Nat) (g : Stage) : StageIn :=
  { stage := g,
    val :=
      match g.kind with
      | .bias | .scale => if g.scalar then ch.consts.getD g.cslot 0 else vecAt m (j.tensor? g.ref) g.byRow r c
      | .resid => (match j.tensor? g.ref with | some t => t.f32 m r c | none => 0)
      | _ => 0,
    prog := if g.kind = .prog then j.prog g else [] }

/-- What an output chain leaves: the writes of OPD, of taps and of accumulator vectors, each with its tensor, and the flags. -/
structure ChainOut where
  outs : List (Tensor × Written)
  fl : Flags
  deriving DecidableEq, Repr

/-- The write of an F32 vector of accumulators (R206). -/
def writeVec (t : Tensor) (byRow : Bool) (v : List F32) : Written :=
  writeTensor t 0 (fun _ _ => .rne) (fun r c => Fp.val (v.getD (if byRow then r else c) 0))

/-- The output of an entry through its chain, or through the sink alone (R191, R197, R203, R206). `src` is the value that
enters the chain at an element of OPD. A TAP tensor holds the tapped values of OPD's data elements; the elements of it that are padding
in OPD hold +0 (DESIGN CHOICE, log 47). -/
def applyChain (m : Mv) (j : Job) (rnd : Nat) (step : Word) (ch : Option Chain) (opd : Tensor) (opb : Option Tensor)
    (src : Nat → Nat → F32) : ChainOut :=
  match ch with
  | none =>
    let d : DrawIn := ⟨j.seed, step, 0⟩
    ⟨[(opd, writeTensor opd (opd.scaleOf m.cells) (sinkRnd rnd d 0 opd) (fun r c => Fp.val (src r c)))], {}⟩
  | some ch =>
    let d : DrawIn := ⟨j.seed, step, ch.inst⟩
    let els : List (List (Option Elem)) := (List.range opd.rows).map (fun r => (List.range opd.cols).map (fun c =>
      if r < opd.lrows ∧ c < opd.lcols then
        some (runChain (chainEnv m j ch d opd opb r c) (ch.stages.map (stageIn m j ch r c)) (src r c))
      else none))
    let at' (r c : Nat) : Option Elem := (els.getD r []).getD c none
    let val (f : Elem → F32) (r c : Nat) : Val := match at' r c with | some e => Fp.val (f e) | none => .fin false 0 0
    let last := ch.stages.length - 1
    let sink := (opd, writeTensor opd (opd.scaleOf m.cells) (sinkRnd rnd d last opd) (val (·.v)))
    let taps := (ch.stages.zipIdx.filter (fun g => g.1.kind = .tap)).zipIdx.filterMap (fun g =>
      (j.tensor? g.1.1.ref).map (fun t =>
        (t, writeTensor t (t.scaleOf m.cells) (sinkRnd rnd d g.1.2 t) (val (fun e => e.taps.getD g.2 0)))))
    let rows := ch.rowout.zipIdx.filterMap (fun q => if q.1 = noIdx then none else (j.tensor? q.1).map (fun t =>
      (t, writeVec t true (els.map (fun l => accOut (lineSum A64.combine (l.map (fun o => o.bind (fun e => contrib e.racc q.2)))))))))
    let cols := ch.colout.zipIdx.filterMap (fun q => if q.1 = noIdx then none else (j.tensor? q.1).map (fun t =>
      (t, writeVec t false ((List.range opd.cols).map (fun c =>
        accOut (lineSum A64.combine (els.map (fun l => (l.getD c none).bind (fun e => contrib e.cacc q.2)))))))))
    let fl := els.foldl (fun f l => l.foldl (fun f o => match o with | some e => f.or e.fl | none => f) f) {}
    ⟨sink :: (taps ++ rows ++ cols), fl⟩

/-- Tensors that a chain reads, and tensors that it writes. -/
def Job.chainTensors (j : Job) (ch : Option Chain) : List Tensor × List Tensor :=
  match ch with
  | none => ([], [])
  | some c =>
    let g (l : List Nat) : List Tensor := l.filterMap (fun i => if i = noIdx then none else j.tensor? i)
    (g (c.stages.filterMap (fun q => match q.kind with
        | .resid => some q.ref
        | .bias | .scale => if q.scalar then none else some q.ref
        | _ => none) ++ c.vec ++ c.side),
      g (c.stages.filterMap (fun q => if q.kind = .tap then some q.ref else none) ++ c.rowout ++ c.colout))

/-- The accesses of an entry that reads and writes whole tensors. -/
def tensorAccesses (rs ws : List Tensor) : List Access :=
  rs.flatMap (fun t => t.accesses false) ++ ws.flatMap (fun t => t.accesses true)

/-- The outputs written, with their conversion counts (R70, R74). -/
def State.putAll (s : State) (l : Nat) (outs : List (Tensor × Written)) : State :=
  outs.foldl (fun s o => (s.put o.2).addConv l o.1 o.2.stat) s

end Sys2Proof.Machine
end

