-- ==== Sys2Proof/Machine/Flags.lean ====
section
/-!
DEFINITION. Flags at an entry's completion (R209, R211): sticky flags of CHN_STATUS, STEP_NF, and the trap of NF_ABORT.
-/

namespace Sys2Proof.Machine

def statusNfTrap : Nat := 0x0206

/-- The chain whose mode an entry's flags follow. -/
def Site.chain (x : Site) : Option Chain :=
  match x.e.op with
  | .mm | .mmTa | .mmTb | .chain => x.job.chain x.e
  | _ => none

/-- The flags of a completing entry reach the cluster (R209). -/
def State.latchFlags (s : State) (x : Site) : State :=
  match x.chain with
  | some ch => s.updCluster x.l (fun c => { c with chn := c.chn.addFlags ch x.f.flags x.f.idx })
  | none => s

/-- NF_ABORT with the values in force when the entry issued (R140, R211). -/
def Site.traps (x : Site) : Bool :=
  match x.chain with
  | some ch => ch.flags && x.f.flags.nf && bit x.f.chn 0
  | none => false

end Sys2Proof.Machine
end

