-- ==== Sys2Proof/Machine/Controls.lean ====
section
/-!
DEFINITION. Control words as operations: commit groups (R139, R140), cluster commands (R143, R183), page commands (R376),
fabric commands (R421, R427), test and Tune-up commands (R480, R488, R518), and snaps (R530 to R533).
-/

namespace Sys2Proof.Machine

/-! ## Commits: the whole shadow takes effect, or COMMIT_ERR is set -/

def Cluster.commitDrl (c : Cluster) : Cluster := if drlCfgOk c.shadow then { c with cfg := c.shadow } else { c with commitErr := true }
def Cluster.commitTil (c : Cluster) : Cluster :=
  if tilCfgOk c.til.shadow then { c with til := { c.til with cfg := c.til.shadow } } else { c with til := { c.til with commitErr := true } }
/-- Every value of CHN_CFG's one bit is in its bounds (R212). -/
def Cluster.commitChn (c : Cluster) : Cluster := { c with chn := { c.chn with cfg := c.chn.shadow } }

def Hub.commitOpt (h : Hub) : Hub := if optCfgOk h.optShadow then { h with optCfg := h.optShadow } else { h with optErr := true }
/-- HUB_CFG and every HUB_CTX (R445). -/
def Hub.commitHub (h : Hub) : Hub :=
  if hubCfgOk h.shadow then { h with cfg := h.shadow, users := h.usersSh } else { h with commitErr := true }
/-- Every value of SHIFT is in its bounds (R360). -/
def Sol.commit (x : Sol) : Sol := { x with cfg := x.shadow }
def Pages.commit (p : Pages) : Pages := if memCfgOk p.shadow then { p with cfg := p.shadow } else { p with commitErr := true }
def Fab.commit (f : Fab) : Fab := if hdgCfgOk f.shadow then { f with cfg := f.shadow } else { f with commitErr := true }
def Start.commitTst (x : Start) : Start := if tstCfgOk x.shadow then { x with cfg := x.shadow } else { x with commitErr := true }
def Hist.commitTune (h : Hist) (starts : Nat) : Hist :=
  if tuneCfgOk h.shadow then ({ h with cfg := h.shadow } : Hist).judge starts else { h with commitErr := true }
/-- CAP_EFF follows CAP_W, flow and inlet (R555, R556). -/
def Power.reCap (p : Power) (l : Limits) : Power :=
  let cap := fld p.cfg 63 48
  let c := if p.flow < 10 * l.flowMin ∨ p.tin > 45 then capEffOf cap p.flow l.flowMin p.tin else cap
  { p with capEff := c, derate := decide (c < cap) }
def Power.commit (p : Power) (l : Limits) : Power :=
  if pwrCfgOk l p.shadow then ({ p with cfg := p.shadow } : Power).reCap l else { p with commitErr := true }

/-- The entry module of this module's domain. -/
def State.entryOf (s : State) : Nat := (s.start.flash.conf.entries.find? (fun m => domainOf m = domainOf s.me)).getD s.me

/-- The regions of the context that commits group CTRC: of every job for the system context (R534). -/
def State.traceRegions (s : State) (ctx : Nat) : List Region := if ctx = 0 then s.allRegions else s.regionsOf ctx

/-- A commit of group CTRC; a failure shows in CTR_STATUS (R532, R534). -/
def State.commitCtrc (s : State) (l ctx : Nat) : State :=
  if (s.cluster l).ctrcSh.ok (s.traceRegions ctx) then s.updCluster l (fun c => { c with ctrc := c.ctrcSh })
  else { s with ctr := { s.ctr with commitErr := true } }

/-! ## Derailleur commands (R143) -/

/-- PAUSE is asked for: in STEP_WAIT it takes effect after the rewind, in MIGRATING once the spare has taken over. -/
def Drl.pause (d : Drl) : Drl :=
  match d.st with
  | .running | .stepWait | .migrating => { d with pauseReq := true }
  | _ => d

/-- PAUSE: at once when nothing is in flight. -/
def State.pause (s : State) (l : Nat) : State := (s.updDrl l Drl.pause).settlePause l

/-- RESUME: leave PAUSED, and drop a pause that is still due. One that comes while a paused cluster is MIGRATING finds no pause due, and
the cluster is PAUSED again on the spare (DESIGN CHOICE, log 46). -/
def Drl.resume (d : Drl) : Drl :=
  match d.st with
  | .paused => { d with st := .running, pauseReq := false }
  | _ => { d with pauseReq := false }

/-- A RESUME of a lent cluster's lender takes effect once the cluster has returned (R300). -/
def Cluster.resume (c : Cluster) : Cluster :=
  match c.under with
  | some d => if c.drl.st = .paused then { c with drl := c.drl.resume } else { c with under := some { d with st := .running } }
  | none => { c with drl := c.drl.resume }

/-! ## Pages (R376) -/

/-- The jobs of a context hold the page; the system context writes for every job. -/
def State.ownsPage (s : State) (ctx page : Nat) : Bool :=
  s.jobs.any (fun j => (ctx = 0 || j.ctx = ctx) && j.pages.contains page)

/-- A WINDOW region of a loaded job holds the page. -/
def State.windowPage (s : State) (page : Nat) : Bool := s.allRegions.any (fun r => r.hint == .window && r.holds page 1)

/-- A page command carried out. -/
def State.pageMove (s : State) (value : Word) (ctx : Nat) : State :=
  let page := fld value 51 21 * pageBytes
  let near := bit value 62
  let err : State := { s with pages := { s.pages with cmdErr := true } }
  let free := if near then s.pages.freeNear (page / chipStride) else s.pages.freeHbm page
  if inHdm page || s.windowPage page || (match placeOf page with | .chip _ _ => false | _ => true) || !(s.pages.backed page)
      || !(s.ownsPage ctx page) || s.pages.moving page then err
  else
    match free with
    | none => err
    | some f => { s with pages := { s.pages with moves := s.pages.moves ++ [⟨page, f, true⟩] } }

/-- MEM_PAGE_CMD written by a context; while a commanded move is in progress it waits (R392). -/
def State.pageCmd (s : State) (value : Word) (ctx : Nat) : State :=
  if !(bit value 63) then s
  else if s.pages.commandedMove then { s with pages := { s.pages with cmds := s.pages.cmds ++ [(value, ctx)] } }
  else s.pageMove value ctx

/-- Page commands that waited, until one of them has begun a move; `fuel` bounds their number. -/
def State.pageCmds : Nat → State → State
  | 0, s => s
  | fuel + 1, s =>
    if s.pages.commandedMove then s
    else
      match s.pages.cmds with
      | [] => s
      | c :: cs => State.pageCmds fuel (({ s with pages := { s.pages with cmds := cs } } : State).pageMove c.1 c.2)

/-! ## Readiness (R489, R490) -/

/-- Modules that the map places in the domain, and links that it expects of them (R425, R489). -/
def State.expected (s : State) : Nat := (s.start.flash.conf.modules.filter (fun m => domainOf m = domainOf s.me)).length
def State.expectedLinks (s : State) : Nat :=
  ((s.start.flash.conf.map.filter (fun e => domainOf e.module = domainOf s.me || domainOf e.farModule = domainOf s.me)).map
    (fun e => (⟨e.module, e.port, e.farModule, e.farPort⟩ : Link).norm)).dedup.length

/-- HDG_TOPO (R431). -/
def State.topo (s : State) : Word := if s.isEntry then s.fab.topo s.expected s.expectedLinks else 0

/-- Presence, DUP and mismatch conditions of R489. -/
def State.presentOk (s : State) : Bool := fld s.topo 56 50 == s.expected && !(bit s.topo 49) && fld s.topo 23 12 == 0

/-- DOMAIN_READY follows the port states that the entry module knows (R489, R490): it clears with a failing check; a large domain
is ready at once, and a small one waits for its window. -/
def State.readyFollow (s : State) : State :=
  if !s.isEntry then s
  else if s.expected ≤ fld s.start.cfg 55 48 then
    (if s.presentOk && fld s.topo 35 24 == 0 then
      (if s.start.domainReady then s else { s with start := { s.start with winOn := true } })
    else { s with start := { s.start with domainReady := false, winOn := false } })
  else { s with start := { s.start with domainReady := s.presentOk && decide (fld s.topo 35 24 ≤ fld s.start.cfg 47 36) } }

/-! ## Fabric commands -/

/-- A module number's port states go to the domain's entry module after a change (R425); a module in the minimal hub state sends no
report (R477). -/
def State.reportPorts (s : State) : State :=
  if s.entryOf = s.me then
    ({ s with fab := { s.fab with reports := s.fab.reports.filter (fun r => r.1 ≠ s.me) ++ [(s.me, s.fab.portReps)] } } : State).readyFollow
  else if s.start.stage = .minimal then s
  else s.sendHub s.entryOf 0 (.topoReport s.me s.fab.portReps)

/-! ## Modules that leave the live graph -/

/-- The partner of a restore in progress is lost (R289): its task or its packet ends with REPLICA_DIVERGED. -/
def State.loseRestore (s : State) (r : Restore) : State :=
  let s : State := { s with hub := { s.hub with
    restores := s.hub.restores.filter (fun x => x.key ≠ r.key)
    reqs := s.hub.reqs.filter (fun q => match q.use with | .restore c j _ => !(c = r.key.ctx ∧ j = r.key.job) | _ => true) } }
  match r.pkt with
  | some _ => s.endPktId r.pkt statusDiverged 0
  | none => s.failRestore r.key statusDiverged

/-- The Coppice partner of a job. -/
def State.partnerOf (s : State) (ctx job : Nat) : Option Nat :=
  match (s.job ctx job).bind (fun j => j.param) with
  | some p => if p.coppiceEn then some p.copModule else none
  | none => none

/-- A firmware broadcast goes on without targets that are gone (R433): a chunk that waited for them alone is acknowledged. -/
def State.fwDrop (s : State) (gone : Nat → Bool) : State :=
  match s.fab.bcast with
  | none => s
  | some b =>
    if !(b.targets.any gone) then s
    else
      let ws := b.waiting.map (fun w => (w.1, w.2.filter (fun m => !(gone m))))
      let free := (ws.filter (fun w => w.2.isEmpty)).map (fun w => w.1)
      let b' : Broadcast := { b with targets := b.targets.filter (fun m => !(gone m)), waiting := ws.filter (fun w => !w.2.isEmpty), acked := b.acked ++ free }
      let r := b'.targets.findIdx (· = s.me)
      let s : State := { s with fab := { s.fab with bcast := some b' } }
      if r = 0 then s
      else
        match b'.targets[fwParent r]? with
        | some m => free.foldl (fun s c => s.sendHub m 0 (.fwAck b.seq c)) s
        | none => s

/-- READ among the types of R455, and its PAIR. -/
def typeRead : Nat := 0x03
def Pkt.pair (p : Pkt) : Bool := bit p.arg1 63

/-- A READ with PAIR of the job is in progress: the next swap waits for it (R455, R467). -/
def State.pairRead (s : State) (k : TaskKey) : Bool :=
  s.hub.pkts.any (fun p => p.type == typeRead && p.pair && p.started && p.ctx == k.ctx && p.job == k.job)

/-- A commit of the job that waited for READs with PAIR goes on once the last has ended: an OUTCOME of the hub to itself (R467). -/
def State.pairDone (s : State) (p : Pkt) : State :=
  if p.type = typeRead ∧ p.pair then
    s.hub.tasks.foldl (fun s t =>
      match (if t.key.ctx = p.ctx ∧ t.key.job = p.job ∧ !(s.pairRead t.key) then t.outcome else none) with
      | some (.commit, sus, vs) => s.sendHub s.me t.key.ctx (.outcome t.key t.step .commit sus vs)
      | _ => s) s
  else s

/-- READs that were being answered to a module that is gone end with it. -/
def State.dropReads (s : State) (gone : Nat → Bool) : State :=
  let ps := s.hub.pkts.filter (fun p => p.type == typeRead && p.started && (match p.origin with | .fabric m _ _ => gone m | .ring _ _ => false))
  let s : State := { s with hub := { s.hub with
    pkts := s.hub.pkts.filter (fun p => !(ps.contains p))
    reqs := s.hub.reqs.filter (fun r => match r.use with | .packet id => !(ps.any (fun p => p.id = id)) | _ => true) } }
  ps.foldl State.pairDone s

/-- The live graph has changed: packets forwarded to a module that is gone are lost (R459), its jobs are no longer loaded
(R511), and a Coppice there is lost (R285, R289). -/
def State.graphChanged (s : State) : State :=
  let live := s.fab.graph.part s.me
  let gone (m : Nat) : Bool := m != s.me && !(live.contains m)
  let lost := s.hub.fwds.filter (fun f => gone f.dst)
  let cop := s.jobs.any (fun j => match s.partnerOf j.ctx j.handle with | some m => gone m | none => false)
  let rs := s.hub.restores.filter (fun r => match s.partnerOf r.key.ctx r.key.job with | some m => gone m | none => false)
  let s : State := { s with fab := { s.fab with reports := s.fab.reports.filter (fun r => !(gone r.1)) } }
  let s := (s.fwDrop gone).readyFollow
  let s : State := { s with hub := { s.hub with
    fwds := s.hub.fwds.filter (fun f => !(gone f.dst)), remote := s.hub.remote.filter (fun r => !(gone r.1)) } }
  let s := (if cop then s.loseCoppice else s).dropReads gone
  let s := lost.foldl (fun s f =>
    s.ringEnd f.ring f.slot true (if f.done then none else some ⟨true, f.type, pktLost, f.tag, 0⟩)) s
  rs.foldl State.loseRestore s

/-- A port that carried a link has left the live graph: LINK_STATE is flooded, and a route change begins (R409, R428). -/
def State.linkGone (s : State) (p : Nat) (was : Port) : State :=
  if was.linked then
    let rep : PortRep := ⟨p, (s.fab.port p).st.code, was.farModule, was.farPort, false, (s.fab.port p).agreed⟩
    let f := s.fab.startChange (s.fab.graph.del s.me p)
    ((s.withFab (f.flood s.me none (.linkState s.me rep))).graphChanged).reportPorts
  else s.reportPorts

/-- One port changed. -/
def State.updPort (s : State) (p : Nat) (f : Port → Port) : State := { s with fab := { s.fab with ports := updAt s.fab.ports p f } }

/-- A port goes down (R105, R428). -/
def State.downPort (s : State) (p : Nat) : State := (s.updPort p Port.goDown).linkGone p (s.fab.port p)

/-- RETRAIN of a port (R421). -/
def State.retrainPort (s : State) (p : Nat) : State :=
  let was := s.fab.port p
  ({ s with fab := { s.fab with ports := updAt s.fab.ports p Port.startTraining } } : State).linkGone p was

/-- A LEAVE written to HDG_CMD (R427). -/
def State.managedLeave (s : State) : State :=
  let others : Bool := s.isEntry && s.hub.remote.any (fun r => domainOf r.1 = domainOf s.me)
  if !s.jobs.isEmpty || others then { s with fab := { s.fab with cmdErr := true } }
  else
    let f := ({ s.fab with state := .leaving } : Fab).flood s.me none (.leave s.me)
    s.withFab (f.startChange (f.graph.delModule s.me))

/-- HDG_CMD (R431): a PORT that does not exist sets CMD_ERR, and the command does nothing. -/
def State.hdgCmd (s : State) (v : Word) : State :=
  if bit v 63 && bit v 62 then s
  else if 48 ≤ fld v 5 0 then { s with fab := { s.fab with cmdErr := true } }
  else if bit v 63 then s.managedLeave
  else if bit v 62 then s.retrainPort (fld v 5 0)
  else s

/-! ## Resets of the whole module -/

/-- Memory after a module reset: frames of jobs zeroed (R375, R511), stores and ring area as at start (R368, R440). -/
def State.clearedMem (s : State) : Cells :=
  let m := s.jobs.foldl (fun m j => j.pages.foldl (fun m p => Cells.zero m p pageBytes) m) s.mem
  Cells.zero (Cells.zero m 0 0x10000000) storeBase (128 * storeStride)

/-- The module gives up its jobs, contexts, rings and place in the fabric (R511); RW words read flash again (R14, R140). -/
def State.dropAll (s : State) : State :=
  let c := s.start.flash.conf
  { s with
    mem := s.clearedMem, tags := [], jobs := [], sol := Sol.reset
    clusters := List.replicate 128 { Cluster.reset with til := { Til.reset with cfg := c.tilCfg, shadow := c.tilCfg } }
    pages := { Pages.reset with retired := s.pages.retired, poolUsed := s.pages.poolUsed, poolEmpty := s.pages.poolEmpty,
                                cfg := memCfgAtStart c.memCfg, shadow := memCfgAtStart c.memCfg }
    poison := s.poison.filter (fun a => match placeOf a with | .chip _ _ => !(s.jobs.any (fun j => j.pages.contains (pageOf a))) && !(a < 0x10000000) | _ => false)
    hub := { Hub.reset with module := s.hub.module, mail := { Mailbox.reset with signed := s.hub.mail.signed }, cfg := c.hubCfg, shadow := c.hubCfg, optCfg := c.optCfg, optShadow := c.optCfg }
    fab := { Fab.reset with cfg := c.hdgCfg, shadow := c.hdgCfg, engineFailed := s.fab.engineFailed, engineSpare := s.fab.engineSpare, sent := s.fab.sent }
    ctr := { Ctr.reset with cfg := c.ctrCfg, shadow := c.ctrCfg, dumpBase := c.dumpBase, dumpShadow := c.dumpBase }
    hist := { s.hist with
      cfg := c.tuneCfg, shadow := c.tuneCfg, commitErr := false, cmdErr := false, data := 0, open_ := [], edges := [], rotations := 0,
      tuneFail := 0, forced := 0, deadlocks := 0, lastRung := 0, lastLogical := 0, lastEngine := 0, lastUnit := 0, climbs := 0 }
    pwr := ({ s.pwr with cfg := c.pwrCfg, shadow := c.pwrCfg, commitErr := false, gate := 1, linkFail := false } : Power).reCap c.limits }

/-- SMB_ALERT# asserts: a field of HUB_MGMT_STATE has changed (R549). -/
def State.alert (s : State) : State := { s with pwr := { s.pwr with alert := true } }

/-- A module reset goes back to stage 2 (R469, R471, R511): quick tests, every stage's work still to do. The history records it (R514). -/
def State.moduleReset (s : State) : State :=
  let s := s.dropAll.alert
  { s with hist := s.hist.append .moduleReset, start := { s.start with
      stage := .calibrate, quick := true, scanDone := false, memDone := false, halt := 0, lastCode := 0,
      commitErr := false, cmdErr := false, domainReady := false, berChecked := false, winOn := false,
      cfg := s.start.flash.conf.tstCfg, shadow := s.start.flash.conf.tstCfg, stopped := [], outEdges := [],
      pcl := s.start.pcl.map (fun c => { c with tuning := false, was := none }) } }

/-- A halt (R471, R512, R555): every rail but the hub's is removed, and the hub answers only the management bus. -/
def State.haltWith (s : State) (cause : Nat) : State :=
  let s := s.dropAll.alert
  { s with
    start := { s.start with
      stage := .halted, halt := cause, domainReady := false, winOn := false, stopped := [], outEdges := [],
      pcl := s.start.pcl.map (fun c => { c with railOn := false, tuning := false, was := none }) }
    pwr := { s.pwr with near := 0, hbm := false, optics := false } }

/-- The hub runs: powered and not halted. -/
def State.alive (s : State) : Bool := s.pwr.on && s.start.stage != .halted

/-- A command to the hub: one that is off does nothing, and one that has halted answers the management bus alone (R512, R544). -/
def onHub (s : State) (o : Out) : Out := if s.alive then o else .next s

/-! ## Test and Tune-up commands -/

def State.tstErr (s : State) : State := { s with start := { s.start with cmdErr := true } }
def State.tuneErr (s : State) : State := { s with hist := { s.hist with cmdErr := true } }

/-- ENTER_SERVICE: from DEPLOYED or DRAIN, with no job loaded on the module (R480). -/
def State.enterService (s : State) : State :=
  if (s.start.lc = .deployed ∨ s.start.lc = .drain) ∧ s.jobs = [] then ({ s with start := { s.start with lc := .service }, hist := s.hist.append (.life .service s.hist.drainCause) } : State).alert else s.tstErr

/-- LEAVE_SERVICE: a module reset whose stage 10 decides the state (R480). -/
def State.leaveService (s : State) : State :=
  if s.start.lc = .service then
    let s := s.moduleReset
    { s with start := { s.start with leaving := true } }
  else s.tstErr

/-- States in which fuses may be programmed (R481). -/
def LifeCycle.mayFuse (l : LifeCycle) : Bool := l == .manufacture || l == .service

/-- A proposed unit's fuse entry blown; its soft and proposal marks and its failure counts clear (R488). -/
def PCl.fuse (c : PCl) : PCl :=
  let c := if c.propose then { c with fused := true, soft := false, propose := false, failStarts := [] } else c
  { c with
    tileFused := c.tileFused ||| c.tilePropose
    tileSoft := c.tileSoft &&& (0x1FF ^^^ c.tilePropose)
    tileFailStarts := c.tileFailStarts.zipIdx.map (fun p => if c.tilePropose.testBit p.2 then [] else p.1)
    tilePropose := 0 }

/-- Fuses are programmed in a life-cycle state that allows it, with the hub's junction inside its rating (R481, R488, R560); of the hub
rail the model holds no reading. -/
def State.mayProgram (s : State) : Bool := s.start.lc.mayFuse && 15 ≤ s.start.hubTj && s.start.hubTj ≤ 100

/-- A proposed unit of the history that is fused is permanent no longer for having been so (R498). -/
def Hist.fuse (h : Hist) (pcl : List PCl) : Hist :=
  h.pardon (fun u =>
    let c := pcl.getD (if u.kind = 1 then u.index / 9 else u.index) (PCl.ship 0)
    (u.kind == 2 && c.propose) || (u.kind == 1 && c.tilePropose.testBit (u.index % 9)))

def State.fuseProposed (s : State) : State :=
  if s.mayProgram then
    let pcl := s.start.pcl.map PCl.fuse
    let blown := (s.start.pcl.zipIdx.filter (fun c => c.1.propose || c.1.tilePropose != 0)).map (·.2)
    { s with
      hist := blown.foldl (fun h p => h.append (.cluster p (pcl.getD p (PCl.ship 0)).trace)) (s.hist.fuse s.start.pcl)
      start := { s.start with pcl } }
  else s.tstErr

/-- Each kind's floor takes the SVN of the image installed (R488). -/
def State.fuseSvn (s : State) : State :=
  if s.mayProgram then
    let f := s.start.flash
    { s with start := { s.start with flash := { f with
        floors := f.floors.zipIdx.map (fun p => match f.parts[p.2]? with | some q => if q.valid then max p.1 q.image.svn else p.1 | none => p.1) } } }
  else s.tstErr

/-- The largest count of corrected bits of a lane in the readiness window (R489). -/
def State.readyLimit (s : State) : Nat := fld s.start.cfg 63 56 * 10 ^ 11 / 2 ^ fld s.fab.cfg 39 32

/-- The checks of R489 with the window's counts of lanes, `(lane number 9 × port + lane, corrected bits)`. -/
def State.readyChecks (s : State) (worst : List (Nat × Nat)) : Bool × Bool :=
  let n := s.expected
  if n ≤ fld s.start.cfg 55 48 then
    (s.presentOk && fld s.topo 35 24 == 0 && worst.all (fun w => w.2 ≤ s.readyLimit), true)
  else (s.presentOk && fld s.topo 35 24 ≤ fld s.start.cfg 47 36, false)

/-- The checks run; DOMAIN_READY follows them (R489, R490). Entry module only. A lane above the limit counts as worn (R422). -/
def State.recheck (s : State) (worst : List (Nat × Nat)) : State :=
  if !s.isEntry then s.tstErr
  else
    let r := s.readyChecks worst
    let bad := if r.2 then worst.filter (fun w => w.2 > s.readyLimit) else []
    let s := bad.foldl (fun s w =>
      let p := updAt s.fab.ports (w.1 / 9) (fun q => (({ q with corr := (List.range 9).map (fun i => if i = w.1 % 9 then w.2 else 0) } : Port).berWindow 0).1)
      ({ s with fab := { s.fab with ports := p } } : State).charge 3 w.1 0x08) s
    { s with start := { s.start with domainReady := r.1, berChecked := r.2, winOn := !bad.isEmpty } }

/-- RECHECK written to TST_CMD: where the checks need a window, it starts anew, and its end brings the lanes' counts (R489). -/
def State.recheckCmd (s : State) : State :=
  if s.isEntry && s.expected ≤ fld s.start.cfg 55 48 && s.presentOk && fld s.topo 35 24 == 0 then
    { s with start := { s.start with winOn := true } }
  else s.recheck []

/-- TST_CMD (R491): one command bit at most. -/
def State.tstCmd (s : State) (v : Word) : State :=
  match [bit v 63, bit v 62, bit v 61, bit v 60, bit v 59] with
  | [false, false, false, false, false] => s
  | [true, false, false, false, false] => s.enterService
  | [false, true, false, false, false] => s.leaveService
  | [false, false, true, false, false] => s.fuseProposed
  | [false, false, false, true, false] => s.fuseSvn
  | [false, false, false, false, true] => s.recheckCmd
  | _ => s.tstErr

/-- Tune-up runs in DEPLOYED, and in DRAIN while tasks are loaded (R481, R503). -/
def State.mayTune (s : State) : Bool := s.start.lc == .deployed || (s.start.lc == .drain && !s.jobs.isEmpty)

def State.tuneNow (s : State) (p : Nat) : State :=
  if s.mayTune then { s with start := s.start.upd p (fun c => { c with due := true }) } else s.tuneErr

/-- ROTATE_OUT: the charge of cause 0x0C, and the rotation (R497, R500). -/
def State.rotateOut (s : State) (p : Nat) : State :=
  if s.mayTune then
    let s : State := { s with hist := s.hist.charge s.start.starts 2 p 0x0C }
    s.rotation p
  else s.tuneErr

def State.clearRail (s : State) (p : Nat) : State :=
  if s.mayTune then s.setPCl p (fun c => { c with offset := 0 }) else s.tuneErr

/-- TST_TUNE_CMD (R518): CMD_ERR for more than one command bit, for PCLUSTER above 135, and where Tune-up does not run. -/
def State.tuneCmd (s : State) (v : Word) : State :=
  let p := fld v 7 0
  if p > 135 || !s.mayTune then s.tuneErr
  else
    match bit v 63, bit v 62, bit v 61 with
    | false, false, false => s
    | true, false, false => s.tuneNow p
    | false, true, false => s.rotateOut p
    | false, false, true => s.clearRail p
    | _, _, _ => s.tuneErr

/-- A unit is rotated or excluded at run time (OUT of R518): a cluster rotated out, a tile soft-excluded since the start's tests, a worn
lane that the spare has replaced, an optical engine that failed. -/
def State.unitOut (s : State) (kind index : Nat) : Bool :=
  match kind with
  | 1 => let c := s.start.cluster (index / 9)
         c.tileSoft.testBit (index % 9) && !(c.tilePropose.testBit (index % 9)) && !(c.scanTiles.testBit (index % 9)) && !c.scanFail
  | 2 => (s.start.cluster index).out
  | 3 => (s.fab.port (index / 9)).spareUsed && (s.fab.port (index / 9)).outLane == index % 9
  | 6 => s.fab.engineFailed.getD index false
  | _ => false

/-- A GO in TST_FH_QUERY (R518). -/
def State.fhQuery (s : State) (kind index : Nat) : State :=
  { s with hist := { s.hist with
      data := s.hist.query s.start.starts kind index (if kind = 2 then (s.start.cluster index).offset else 0) (s.unitOut kind index) } }

/-! ## Snaps -/

/-- The chiplets with a Tune-up (TUNING of R518). -/
def State.tuning (s : State) : Nat :=
  sumNat ((List.range 8).map (fun c => if ((List.range 17).map (· + 17 * c)).any (fun p => (s.start.cluster p).tuning) then 2 ^ c else 0))

/-- One snap wave of the module and its dump record (R530 to R533): counters as they stand, then cleared where CLEAR was
asked for; the record goes to the ring in the entry module's window, its word 0 last. While a record is being written the
command joins it; a record whose destination cannot be reached is dropped (R539). -/
def State.snap (s : State) (domain : Bool) : State :=
  if s.hub.snapBusy then s
  else
    let c := s.ctr
    let id := if domain then s.entryOf else c.dumps
    let rec_ := dumpRecord id s.me domain c.clear (s.clusters.map (fun k => k.drl.st == .running)) (s.clusters.map (·.ctr)) c.chip c.hub
    let a := fld c.dumpBase 51 0 + c.dumps % max 1 (fld c.cfg 55 48) * 0x40000
    let dst := fld c.dumpBase 63 52
    let ok := s.fab.routes.reaches s.me dst
    let s : State := { s with ctr := { c with
      dumps := if ok then (c.dumps + 1) % 2 ^ 32 else c.dumps, dumpMissed := if ok then c.dumpMissed else satAdd 16 c.dumpMissed 1,
      clear := false } }
    let s : State := if c.clear then
        { s with
          clusters := s.clusters.map (fun k => { k with ctr := List.replicate 128 0 })
          ctr := { s.ctr with chip := List.replicate 8 (List.replicate 128 0), hub := List.replicate 64 0 } }
      else s
    if !ok then s
    else if dst = s.me then s.hubStore [(a, rec_)]
    else (chunks 4096 rec_).zipIdx.reverse.foldl (fun s p => s.hubRequest dst 0 .dump (.write (a + 4096 * p.2) p.1)) s

/-- CTR_CMD (R532). -/
def State.ctrCmd (s : State) (v : Word) : State :=
  let err : State := { s with ctr := { s.ctr with cmdErr := true } }
  match bit v 63, bit v 62, bit v 61 with
  | false, false, false => s
  | true, false, false => s.snap false
  | false, true, false => if s.isEntry then s.snap true else err
  | false, false, true => { s with ctr := { s.ctr with clear := true } }
  | _, _, _ => err

end Sys2Proof.Machine
end

