-- ==== Sys2Proof/Machine/Words.lean ====
section
/-!
DEFINITION. The control words by offset (R442 to R445, R463, R491, R518, R525, R558): what a read returns, what a write does,
and which contexts may do so.
-/

namespace Sys2Proof.Machine

/-- The words of the map, by name. -/
inductive Reg where
  | ident (k : Nat) | hubCfg | hubCommit | hubStatus | hubCtx (n : Nat)
  | optCfg | optCommit | optStatus
  | solCfg | solCommit | solStatus
  | memCfg | memCommit | memPageCmd | memStatus | memFaultAddr | memFaultSrc
  | hdgCfg | hdgCommit | hdgCmd | hdgStatus | hdgTopo | hdgPort (p : Nat)
  | edgeWin | oscHub | oscCl (p : Nat)
  | attCmd | attStatus | attReq (k : Nat) | attResp (k : Nat)
  | tstCfg | tstCommit | tstCmd | tstStatus | tstImage (k : Nat) | tstMemrep (c : Nat) | tstCluster (p : Nat)
  | tuneCfg | tuneCommit | tuneCmd | tuneStatus | fhQuery | fhData
  | pwrCfg | pwrCommit | pwrStatus | pwrInput | pwrThermal | pwrRail (p : Nat)
  | ctrCl (l w : Nat) | ctrChip (c w : Nat) | ctrHub (w : Nat)
  | ctrCfg | ctrDumpBase | ctrCommit | ctrCmd | ctrStatus | ladderWin | ladderStatus
  | ctrcWord (l k : Nat) | ctrcCommit (l : Nat) | thrChip (c u : Nat) | thrHub (u : Nat)
  | drlCfg (l : Nat) | drlCommit (l : Nat) | drlCmd (l : Nat) | drlStatus (l : Nat)
  | tilCfg (l : Nat) | tilCommit (l : Nat) | tilCmd (l : Nat) | tilStatus (l : Nat)
  | chnCfg (l : Nat) | chnCommit (l : Nat) | chnStatus (l : Nat) | topStatus (l : Nat)
  deriving DecidableEq, Repr

/-- A word of a cluster block (R444). -/
def clusterReg (l o : Nat) : Option Reg :=
  match o with
  | 0x000 => some (.drlCfg l)
  | 0x008 => some (.drlCommit l)
  | 0x010 => some (.drlCmd l)
  | 0x018 => some (.drlStatus l)
  | 0x040 => some (.tilCfg l)
  | 0x048 => some (.tilCommit l)
  | 0x050 => some (.tilCmd l)
  | 0x058 => some (.tilStatus l)
  | 0x080 => some (.chnCfg l)
  | 0x088 => some (.chnCommit l)
  | 0x090 => some (.chnStatus l)
  | 0x0C0 => some (.topStatus l)
  | _ => none

/-- A word below offset 0x1000 (R443). -/
def lowReg (o : Nat) : Option Reg :=
  match o with
  | 0x000 => some (.ident 0)
  | 0x008 => some (.ident 1)
  | 0x010 => some (.ident 2)
  | 0x018 => some (.ident 3)
  | 0x020 => some .hubCfg
  | 0x028 => some .hubCommit
  | 0x030 => some .hubStatus
  | 0x100 => some .optCfg
  | 0x108 => some .optCommit
  | 0x110 => some .optStatus
  | 0x140 => some .solCfg
  | 0x148 => some .solCommit
  | 0x150 => some .solStatus
  | 0x180 => some .memCfg
  | 0x188 => some .memCommit
  | 0x190 => some .memPageCmd
  | 0x198 => some .memStatus
  | 0x1A0 => some .memFaultAddr
  | 0x1A8 => some .memFaultSrc
  | 0x200 => some .hdgCfg
  | 0x208 => some .hdgCommit
  | 0x210 => some .hdgCmd
  | 0x218 => some .hdgStatus
  | 0x220 => some .hdgTopo
  | 0x600 => some .edgeWin
  | 0x608 => some .oscHub
  | _ =>
    if 0x400 ≤ o ∧ o < 0x580 then some (.hdgPort ((o - 0x400) / 8))
    else if 0x800 ≤ o ∧ o < 0x800 + 8 * 136 then some (.oscCl ((o - 0x800) / 8))
    else none

/-- A TST_ word (R491, R518). -/
def tstReg (o : Nat) : Option Reg :=
  match o with
  | 0x0000 => some .tstCfg
  | 0x0008 => some .tstCommit
  | 0x0010 => some .tstCmd
  | 0x0018 => some .tstStatus
  | 0x8000 => some .tuneCfg
  | 0x8008 => some .tuneCommit
  | 0x8010 => some .tuneCmd
  | 0x8018 => some .tuneStatus
  | 0x8020 => some .fhQuery
  | 0x8028 => some .fhData
  | _ =>
    if 0x20 ≤ o ∧ o < 0x40 then some (.tstImage ((o - 0x20) / 8))
    else if 0x100 ≤ o ∧ o < 0x140 then some (.tstMemrep ((o - 0x100) / 8))
    else if 0x400 ≤ o ∧ o < 0x400 + 8 * 136 then some (.tstCluster ((o - 0x400) / 8))
    else none

/-- A PWR_ word (R558). -/
def pwrReg (o : Nat) : Option Reg :=
  match o with
  | 0x00 => some .pwrCfg
  | 0x08 => some .pwrCommit
  | 0x10 => some .pwrStatus
  | 0x18 => some .pwrInput
  | 0x20 => some .pwrThermal
  | _ => if 0x100 ≤ o ∧ o < 0x100 + 8 * 136 then some (.pwrRail ((o - 0x100) / 8)) else none

/-- A CTR_ word, by its offset in the range (R525). -/
def ctrReg (o : Nat) : Option Reg :=
  match o with
  | 0x30000 => some .ctrCfg
  | 0x30008 => some .ctrDumpBase
  | 0x30010 => some .ctrCommit
  | 0x30018 => some .ctrCmd
  | 0x30020 => some .ctrStatus
  | 0x30028 => some .ladderWin
  | 0x30030 => some .ladderStatus
  | _ =>
    if o < 0x20000 then some (.ctrCl (o / 0x400) (o % 0x400 / 8))
    else if o < 0x22000 then some (.ctrChip ((o - 0x20000) / 0x400) (o % 0x400 / 8))
    else if o < 0x22200 then some (.ctrHub ((o - 0x22000) / 8))
    else if 0x31000 ≤ o ∧ o < 0x33000 then
      (let l := (o - 0x31000) / 0x40
       let k := o % 0x40 / 8
       if k < 6 then some (.ctrcWord l k) else if k = 6 then some (.ctrcCommit l) else none)
    else if 0x34000 ≤ o ∧ o < 0x34200 then some (.thrChip ((o - 0x34000) / 0x40) (o % 0x40 / 8))
    else if 0x34200 ≤ o ∧ o < 0x34240 then some (.thrHub ((o - 0x34200) / 8))
    else none

/-- The word at an offset (R443); an offset that the map does not name is reserved. -/
def regAt (o : Nat) : Option Reg :=
  if o % 8 ≠ 0 then none
  else if o < 0x1000 then lowReg o
  else if o < 0x2000 then
    (if o = 0x1000 then some .attCmd
     else if o = 0x1008 then some .attStatus
     else if 0x1100 ≤ o ∧ o < 0x1200 then some (.attReq ((o - 0x1100) / 8))
     else if 0x1400 ≤ o then some (.attResp ((o - 0x1400) / 8))
     else none)
  else if 0x8000 ≤ o ∧ o < 0x10000 then some (.hubCtx ((o - 0x8000) / 8))
  else if 0x10000 ≤ o ∧ o < 0x20000 then tstReg (o - 0x10000)
  else if 0x20000 ≤ o ∧ o < 0x30000 then pwrReg (o - 0x20000)
  else if 0x40000 ≤ o ∧ o < 0x80000 then ctrReg (o - 0x40000)
  else if 0x80000 ≤ o ∧ o < 0x100000 then clusterReg ((o - 0x80000) / 0x1000) (o % 0x1000)
  else none

/-- The module presents the host link: the entry module, powered and not halted, once its images are verified (R435, R469). -/
def State.hostUp (s : State) : Bool := s.alive && s.isEntry && s.start.stage != .calibrate

/-! ## Reading -/

/-- Signatures left (R445, R465). -/
def State.attRemain (s : State) : Nat := 65536 - min 65536 s.start.flash.xidx

/-- REMOVE_OK (R461): no job in the domain, as far as the module has loaded them, and no packet unreleased. -/
def State.removeOk (s : State) : Bool :=
  s.jobs.isEmpty && s.hub.remote.isEmpty && s.hub.rings.all (fun r => r.2.tailSeen == r.2.released)

/-- COPPICE_LAG (R280): the last committed step minus COPPICE_STEP, the largest of the loaded jobs. -/
def State.copLag (s : State) : Nat :=
  maxNat (s.jobs.map (fun j =>
    match j.param, s.hub.srec j.ctx j.handle with
    | some p, some r => if p.coppiceEn then (r.committed + 2 ^ 64 - r.copStep) % 2 ^ 64 else 0
    | _, _ => 0))

/-- PWR_STATUS (R558). -/
def State.pwrStatus (s : State) : Word :=
  let p := s.pwr
  mkFld 63 63 (b2n p.commitErr) ||| mkFld 62 62 (b2n (s.start.pcl.any (fun c => c.down > 0)))
    ||| mkFld 61 61 (b2n (s.start.pcl.any (·.therm))) ||| mkFld 60 60 (b2n p.derate) ||| mkFld 59 59 (b2n (p.gate > 1))
    ||| mkFld 55 48 (s.start.pcl.filter (fun c => c.down > 0)).length ||| mkFld 47 40 s.hist.phases.length
    ||| mkFld 31 16 p.capEff ||| mkFld 15 0 p.pavg

def State.pwrInput (s : State) : Word := mkFld 63 48 s.pwr.vin ||| mkFld 47 32 s.pwr.iin ||| mkFld 31 16 s.pwr.ppeak

def State.pwrThermal (s : State) : Word :=
  mkFld 63 56 (max s.start.hubTj (maxNat (s.start.pcl.map (·.tj)))) ||| mkFld 55 48 s.pwr.tin ||| mkFld 47 40 s.pwr.tout
    ||| mkFld 39 28 s.pwr.flow

/-- PWR_RAIL of a physical cluster (R558): the rail in 0.5 mV. -/
def State.pwrRail (s : State) (p : Nat) : Word :=
  let c := s.start.cluster p
  let v := c.railMv s.start.flash.conf.limits.vcoreMax (fld s.pwr.cfg 47 36)
  mkFld 63 52 (if c.railOn then v / 5 else 0) ||| mkFld 51 48 c.offset ||| mkFld 47 40 c.tj
    ||| mkFld 39 39 (b2n (v ≤ c.floorMv)) ||| mkFld 38 38 (b2n c.therm) ||| mkFld 31 24 c.down

/-- TST_MEMREP of a chiplet (R491). -/
def State.memrep (s : State) (c : Nat) : Word :=
  mkFld 63 53 (s.start.nearSoft.getD c 0) ||| mkFld 52 42 (s.start.nearFused.getD c 0)
    ||| mkFld 32 22 (s.pages.poolUsed.getD (3 * c + 2) 0) ||| mkFld 21 11 (s.pages.poolUsed.getD (3 * c + 1) 0)
    ||| mkFld 10 0 (s.pages.poolUsed.getD (3 * c) 0)

/-- What a partition of the flash die holds, from its offset on (R472, R474): of DIR a word for each image, of XIDX the index (DESIGN
CHOICE, log 67: no rule gives these layouts), the records of HIST, and the images. -/
def State.partContent (s : State) (p : FlashPart) : List Byte :=
  let f := s.start.flash
  let image (k : Nat) : List Byte := match f.parts[k - 1]? with | some q => q.image.bytes | none => []
  match p with
  | .dir => bytesOfWords (f.parts.map (fun q => mkFld 63 63 (b2n q.valid) ||| mkFld 31 0 q.len))
  | .xidx => leBytes 4 f.xidx
  | .hist => s.hist.journal.flatMap JRec.bytes
  | .fw => image 1
  | .mcode => image 2
  | .tpack => image 3
  | .config => image 4
  | .stage => f.staged
  | .reserved => []

/-- A byte of the flash die (R472): the reserved part reads 0xFF, and so does what nothing has programmed (log 67). -/
def State.flashByte (s : State) (a : Nat) : Byte :=
  match FlashPart.all.find? (fun p => p.offset ≤ a && a < p.offset + p.size) with
  | some p => (s.partContent p).getD (a - p.offset) 0xFF
  | none => 0xFF

/-- HUB_IDENT0 to HUB_IDENT3 (R445). -/
def State.ident (s : State) (k : Nat) : Word :=
  let f := s.start.flash
  match k with
  | 0 => mkFld 63 48 0x4757 ||| mkFld 47 32 0xCA64 ||| mkFld 31 24 f.fused.variant ||| mkFld 23 16 f.stepping ||| mkFld 15 8 f.endFace
  | 1 => f.serial
  | 2 => ident2 s.me s.isEntry
  | _ => f.conf.mapId

/-- Entries in progress on the Chainline, and a foreground entry of Topiary, of a cluster. -/
def State.opsOf (s : State) (l : Nat) : List Opcode :=
  (s.cluster l).drl.flights.filterMap (fun f => (s.site l f.idx).map (fun x => x.e.op))

/-- What a read of a word returns; WO words read 0 (R13). -/
def State.readReg (s : State) (r : Reg) : Word :=
  match r with
  | .ident k => s.ident k
  | .hubCfg => s.hub.cfg
  | .hubStatus => s.hub.status s.removeOk (s.start.stage == .minimal) s.attRemain
  | .hubCtx n => if n = 0 then mkFld 63 63 1 else mkFld 63 63 (b2n (s.hub.users.contains n))
  | .optCfg => s.hub.optCfg
  | .optStatus => s.hub.optStatus s.copLag
  | .solCfg => s.sol.cfg
  | .solStatus => s.sol.status
  | .memCfg => s.pages.cfg
  | .memStatus => s.pages.status
  | .memFaultAddr => s.pages.faultAddr
  | .memFaultSrc => s.pages.faultSrc
  | .hdgCfg => s.fab.cfg
  | .hdgStatus => s.fab.status s.me
  | .hdgTopo => s.topo
  | .hdgPort p => (s.fab.port p).status
  | .edgeWin => s.start.flash.conf.edgeWin
  | .oscHub => oscWord (oscOk s.start.hubOsc) s.start.hubCalTj s.start.hubOsc
  | .oscCl p => let c := s.start.cluster p; oscWord (oscOk c.osc) c.calTj c.osc
  | .attStatus => s.hub.mail.word
  | .attReq k => wordAt s.hub.mail.req k
  | .attResp k => wordAt s.hub.mail.resp k
  | .tstCfg => s.start.cfg
  | .tstStatus => s.start.status
  | .tstImage k => s.start.flash.imageWord s.start.taken k
  | .tstMemrep c => s.memrep c
  | .tstCluster p => (s.start.cluster p).word s.start.starts
  | .tuneCfg => s.hist.cfg
  | .tuneStatus => s.hist.status s.tuning
  | .fhData => s.hist.data
  | .pwrCfg => s.pwr.cfg
  | .pwrStatus => s.pwrStatus
  | .pwrInput => s.pwrInput
  | .pwrThermal => s.pwrThermal
  | .pwrRail p => s.pwrRail p
  | .ctrCl l w => BitVec.ofNat 64 ((s.cluster l).ctr.getD w 0)
  | .ctrChip c w => BitVec.ofNat 64 ((s.ctr.chip.getD c []).getD w 0)
  | .ctrHub w => BitVec.ofNat 64 (s.ctr.hub.getD w 0)
  | .ctrCfg => s.ctr.cfg
  | .ctrDumpBase => s.ctr.dumpBase
  | .ctrStatus => s.ctr.status s.hub.snapBusy
  | .ladderWin => s.start.flash.conf.ladder
  | .ladderStatus => s.hist.ladder
  | .ctrcWord l k => (s.cluster l).ctrc.get k
  | .thrChip c u => wordAt (s.ctr.thrChip.getD c []) u
  | .thrHub u => wordAt s.ctr.thrHub u
  | .drlCfg l => (s.cluster l).cfg
  | .drlStatus l => (s.cluster l).status
  | .tilCfg l => (s.cluster l).til.cfg
  | .tilStatus l => (s.cluster l).til.status
  | .chnCfg l => (s.cluster l).chn.cfg
  | .chnStatus l => (s.cluster l).chn.status ((s.opsOf l).filter Opcode.onChainline).length
  | .topStatus l => (s.cluster l).top.status ((s.opsOf l).any Opcode.onTopiary)
  | .hubCommit | .optCommit | .solCommit | .memCommit | .memPageCmd | .hdgCommit | .hdgCmd | .attCmd | .tstCommit | .tstCmd
  | .tuneCommit | .tuneCmd | .fhQuery | .pwrCommit | .ctrCommit | .ctrCmd | .ctrcCommit _ | .drlCommit _ | .drlCmd _
  | .tilCommit _ | .tilCmd _ | .chnCommit _ => 0

/-! ## Writing -/

/-- A W1C bit: cleared where the value's bit is 1. -/
def w1c (old : Bool) (v : Word) (n : Nat) : Bool := old && !(bit v n)

/-- Codes of R462. -/
def attCode (n : Nat) : Bool := 1 ≤ n && n ≤ 4

/-- A GO written to ATT_CMD (R463): the request waits for the engine. An unknown code is answered at once (log 14). -/
def State.attGo (s : State) (v : Word) : State :=
  let m := s.hub.mail
  if !(bit v 0) then s
  else if m.busy then { s with hub := { s.hub with barErr := true } }
  else if !(attCode (fld v 63 56)) then
    { s with hub := { s.hub with mail := { m with done := true, status := pktInvalid, bytes := 0 } } }
  else
    let code := BitVec.ofNat 8 (fld v 63 56)
    { s with hub := { s.hub with mail := { m with busy := true, queue := m.queue ++ [(.mailbox, code :: (bytesOfWords m.req).drop 1)] } } }

/-- What a write of a value to a word does, written by a context (0: the system context): RW words take it in their shadow
(R139), WO words act, W1C bits clear, and other words discard it. -/
def State.writeReg (s : State) (r : Reg) (v : Word) (ctx : Nat) : State :=
  match r with
  | .hubCfg => { s with hub := { s.hub with shadow := v &&& hubCfgMask } }
  | .hubCommit => if bit v 0 then { s with hub := s.hub.commitHub } else s
  | .hubStatus => { s with hub := { s.hub with commitErr := w1c s.hub.commitErr v 63, barErr := w1c s.hub.barErr v 62 } }
  | .hubCtx n =>
    if n = 0 then s
    else { s with hub := { s.hub with usersSh := if bit v 63 then n :: s.hub.usersSh.filter (· ≠ n) else s.hub.usersSh.filter (· ≠ n) } }
  | .optCfg => { s with hub := { s.hub with optShadow := v &&& optCfgMask } }
  | .optCommit => if bit v 0 then { s with hub := s.hub.commitOpt } else s
  | .optStatus => { s with hub := { s.hub with optErr := w1c s.hub.optErr v 63 } }
  | .solCfg => { s with sol := { s.sol with shadow := v &&& mkFld 7 0 0xFF } }
  | .solCommit => if bit v 0 then { s with sol := s.sol.commit } else s
  | .solStatus => { s with sol := { s.sol with commitErr := w1c s.sol.commitErr v 63 } }
  | .memCfg => { s with pages := { s.pages with shadow := v &&& memCfgMask } }
  | .memCommit => if bit v 0 then { s with pages := s.pages.commit } else s
  | .memPageCmd => s.pageCmd v ctx
  | .memStatus =>
    { s with pages := { s.pages with commitErr := w1c s.pages.commitErr v 63, cmdErr := w1c s.pages.cmdErr v 62, faultMulti := w1c s.pages.faultMulti v 60 } }
  | .memFaultSrc => { s with pages := { s.pages with faultSrc := if bit v 63 then setFld s.pages.faultSrc 63 63 0 else s.pages.faultSrc } }
  | .hdgCfg => { s with fab := { s.fab with shadow := v &&& hdgCfgMask } }
  | .hdgCommit => if bit v 0 then { s with fab := s.fab.commit } else s
  | .hdgCmd => s.hdgCmd v
  | .hdgStatus => { s with fab := { s.fab with commitErr := w1c s.fab.commitErr v 63, cmdErr := w1c s.fab.cmdErr v 62 } }
  | .attCmd => s.attGo v
  | .attStatus => { s with hub := { s.hub with mail := { s.hub.mail with done := w1c s.hub.mail.done v 62 } } }
  | .attReq k => { s with hub := { s.hub with mail := { s.hub.mail with req := s.hub.mail.req.set k v } } }
  | .attResp k => { s with hub := { s.hub with mail := { s.hub.mail with resp := s.hub.mail.resp.set k v } } }
  | .tstCfg => { s with start := { s.start with shadow := v &&& tstCfgMask } }
  | .tstCommit => if bit v 0 then { s with start := s.start.commitTst } else s
  | .tstCmd => s.tstCmd v
  | .tstStatus => { s with start := { s.start with commitErr := w1c s.start.commitErr v 63, cmdErr := w1c s.start.cmdErr v 62 } }
  | .tuneCfg => { s with hist := { s.hist with shadow := v &&& tuneCfgMask } }
  | .tuneCommit => if bit v 0 then { s with hist := s.hist.commitTune s.start.starts } else s
  | .tuneCmd => s.tuneCmd v
  | .tuneStatus => { s with hist := { s.hist with commitErr := w1c s.hist.commitErr v 63, cmdErr := w1c s.hist.cmdErr v 62 } }
  | .fhQuery => if bit v 63 then s.fhQuery (fld v 59 56) (fld v 55 44) else s
  | .pwrCfg => { s with pwr := { s.pwr with shadow := v &&& pwrCfgMask } }
  | .pwrCommit => if bit v 0 then { s with pwr := s.pwr.commit s.start.flash.conf.limits } else s
  | .pwrStatus => { s with pwr := { s.pwr with commitErr := w1c s.pwr.commitErr v 63 } }
  | .ctrCfg => { s with ctr := { s.ctr with shadow := v &&& ctrCfgMask } }
  | .ctrDumpBase => { s with ctr := { s.ctr with dumpShadow := v } }
  | .ctrCommit => if bit v 0 then { s with ctr := s.ctr.commit s.entryOf s.allRegions } else s
  | .ctrCmd => s.ctrCmd v
  | .ctrStatus => { s with ctr := { s.ctr with commitErr := w1c s.ctr.commitErr v 63, cmdErr := w1c s.ctr.cmdErr v 62 } }
  | .ctrcWord l k => s.updCluster l (fun c => { c with ctrcSh := c.ctrcSh.set k v })
  | .ctrcCommit l => if bit v 0 then s.commitCtrc l ctx else s
  | .thrChip c u => { s with ctr := { s.ctr with thrChipSh := updAt s.ctr.thrChipSh c (fun t => t.set u (v &&& thrMask)) } }
  | .thrHub u => { s with ctr := { s.ctr with thrHubSh := s.ctr.thrHubSh.set u (v &&& thrMask) } }
  | .drlCfg l => s.updCluster l (fun c => { c with shadow := v &&& drlCfgMask })
  | .drlCommit l => if bit v 0 then s.updCluster l Cluster.commitDrl else s
  | .drlCmd l =>
    if bit v 1 && bit v 0 then s
    else if bit v 0 then s.pause l
    else if bit v 1 then s.updCluster l Cluster.resume
    else s
  | .drlStatus l => s.updCluster l (fun c => { c with commitErr := w1c c.commitErr v 59 })
  | .tilCfg l => s.updCluster l (fun c => { c with til := { c.til with shadow := v &&& tilCfgMask } })
  | .tilCommit l => if bit v 0 then s.updCluster l Cluster.commitTil else s
  | .tilCmd l => if bit v 3 then s.requestSubst l (fld v 2 0) else s
  | .tilStatus l => s.updCluster l (fun c => { c with til := { c.til with commitErr := w1c c.til.commitErr v 63 } })
  | .chnCfg l => s.updCluster l (fun c => { c with chn := { c.chn with shadow := v &&& 1 } })
  | .chnCommit l => if bit v 0 then s.updCluster l Cluster.commitChn else s
  | .chnStatus l =>
    s.updCluster l (fun c => { c with chn := { c.chn with
      commitErr := w1c c.chn.commitErr v 63
      sticky := { inv := w1c c.chn.sticky.inv v 59, dz := w1c c.chn.sticky.dz v 58, ovf := w1c c.chn.sticky.ovf v 57,
                  nf := w1c c.chn.sticky.nf v 56 } } })
  | .ident _ | .memFaultAddr | .hdgTopo | .hdgPort _ | .edgeWin | .oscHub | .oscCl _ | .tstImage _ | .tstMemrep _
  | .tstCluster _ | .fhData | .pwrInput | .pwrThermal | .pwrRail _ | .ctrCl _ _ | .ctrChip _ _ | .ctrHub _ | .ladderWin
  | .ladderStatus | .topStatus _ => s

/-! ## Privilege (R443, R444, R446, R537) -/

/-- A context owns a cluster's words while one of its tasks holds the cluster. -/
def State.ownsCluster (s : State) (ctx l : Nat) : Bool :=
  match (s.cluster l).drl.holder with
  | some k => k.ctx == ctx
  | none => (match (s.cluster l).under with | some d => (match d.holder with | some k => k.ctx == ctx | none => false) | none => false)

/-- A context owns the SOL_ words while its job holds the module's solver plan. -/
def State.ownsSol (s : State) (ctx : Nat) : Bool := s.jobs.any (fun j => j.ctx == ctx && j.sol.isSome)

def State.mayWriteReg (s : State) (ctx : Nat) (r : Reg) : Bool :=
  ctx == 0 ||
  match r with
  | .solCfg | .solCommit | .solStatus => s.ownsSol ctx
  | .memPageCmd => true
  | .drlCfg l | .drlCommit l | .drlCmd l | .chnCfg l | .chnCommit l | .drlStatus l | .chnStatus l => s.ownsCluster ctx l
  | .ctrcWord l _ | .ctrcCommit l => s.hub.users.contains ctx && s.ownsCluster ctx l
  | .hubStatus => true
  | _ => false

def State.mayReadReg (s : State) (ctx : Nat) (r : Reg) : Bool :=
  ctx == 0 ||
  match r with
  | .ident _ => true
  | .hubStatus => true
  | .hubCtx n => n == ctx
  | .solCfg | .solCommit | .solStatus => s.ownsSol ctx
  | .drlStatus l | .chnStatus l | .topStatus l => s.ownsCluster ctx l
  | .ctrCl l _ | .ctrcWord l _ => s.hub.users.contains ctx && s.ownsCluster ctx l
  | _ => false

/-- Words that a CTL_WRITE entry may name (R142, R444): the marked words of the cluster blocks. -/
def Reg.forEntry : Reg → Bool
  | .drlCfg _ | .drlCommit _ | .drlCmd _ | .chnCfg _ | .chnCommit _ => true
  | _ => false

end Sys2Proof.Machine
end

