-- ==== Sys2Proof/Machine/MemoryOps.lean ====
section
/-!
DEFINITION. Page commands and moves (R376, R377, R390), the patrol scrubber (R391), and delta packets held during a cycle
(R344).
-/

namespace Sys2Proof.Machine

/-- MEM_PAGE_CMD (R376). -/
def execMemPageCmd (value : Word) (ctx : Nat) (s : State) : Out := onHub s (.next (s.pageCmd value ctx))

/-! ## Host and fabric writes to memory -/

/-- Bytes that land in an S8 tensor take the T of its record for the step (R52, log 21). -/
def State.tagLanded (s : State) (a n : Nat) : State :=
  match (s.jobs.flatMap (fun j => j.tensors)).find? (fun t => (t.fmt == .s8e || t.fmt == .s8w) && t.base < a + n && a < t.base + t.bytes) with
  | some t => { s with tags := s.tags.put a n (t.scaleOf s.mem) }
  | none => s

/-- Bytes of rows that arrive for an exchange in progress (R324). -/
def State.rowsLanded (s : State) (ctx a n : Nat) : State :=
  { s with clusters := s.clusters.map (fun c =>
      match c.drl.holder with
      | some k =>
        if k.ctx = ctx then
          { c with drl := { c.drl with flights := c.drl.flights.map (fun f =>
              match f.work with
              | .exch x => if x.takes a then { f with work := .exch { x with arrived := x.arrived + n } } else f
              | _ => f) } }
        else c
      | none => c) }

/-- A message that came by a port has been consumed: its credits go back with a LINK (R404, R405). -/
def State.consumed (s : State) (p : Nat) (b : Body) : State :=
  s.withFab ((s.fab.owe p ⟨s.me, s.me, 0, 0, 0, b⟩).link s.me p false)

/-- The 8 words of slot `n` of a ring. -/
def State.slotWords (s : State) (r : Ring) (n : Nat) : List Word :=
  wordsOfBytes (s.readHdm (r.ringBase + 64 * (n % r.slots)) 64)

/-- The slot or the pool bytes of a forwarded held packet meet `n` bytes at `a`. -/
def State.fwdHit (s : State) (a n : Nat) (f : Fwd) : Bool :=
  let r := s.hub.ring f.ring
  let within (b len x : Nat) : Bool := b ≤ x && x < b + len
  f.hold && f.done && (List.range n).any (fun i => inHdm (a + i)
    && (within (r.ringBase + 64 * (f.slot % r.slots)) 64 (hdmOffset (a + i)) || within (r.poolBase + f.off) f.len (hdmOffset (a + i))))

/-- A write into the slot or the pool bytes of held packets that the hub has forwarded: they go to their destinations again as they now
stand, so that the hub that applies them again checks those bytes (R454, R467; DESIGN CHOICE, log 59). -/
def State.echoHelds (s : State) (a n : Nat) : State :=
  (s.hub.fwds.filter (s.fwdHit a n)).foldl (fun s f =>
    let r := s.hub.ring f.ring
    s.send ⟨f.dst, s.me, f.ctx, 0, 0, .packet f.pid (s.slotWords r f.slot) (s.readHdm (r.poolBase + f.off) f.len)⟩) s

/-- A write performed: its bytes, and the poison that its writer asks for (R387, R438), then its ACK, or the Cmp of a host
write. A word that is poisoned and written only in part stays poisoned. -/
def State.landWrite (s : State) (w : HeldWrite) : State :=
  let put (s : State) : State :=
    let s := (s.countBytes none [⟨w.addr, w.bytes.length, true⟩]).softStore w.addr w.bytes
    let s := s.tagLanded w.addr w.bytes.length
    if w.poison ∧ w.bytes ≠ [] then
      { s with poison := (List.range (w.bytes.length + w.addr % 8)).foldl (fun q i => q.add (w.addr / 8 * 8 + i)) s.poison }
    else s
  let put (s : State) : State := (put s).echoHelds w.addr w.bytes.length
  match w.who with
  | .fabric port dst ctx tag scl =>
    let s := ((put s).rowsLanded ctx w.addr w.bytes.length).send ⟨dst, s.me, ctx, tag, scl, .ack w.addr none⟩
    match port with | some p => s.consumed p (.write w.addr w.bytes) | none => s
  | .host => let s := put s; { s with hub := { s.hub with served := some ([], false) } }
  | .hub => s.store [(w.addr, w.bytes)]
  | .packet => put s

/-- A write that waits while its page moves or its stack is out of service, and else lands at once (R105, R377). -/
def State.memWrite (s : State) (w : HeldWrite) : State :=
  if s.lands w.addr w.bytes.length then s.landWrite w
  else { s with pages := { s.pages with waiting := s.pages.waiting ++ [w] } }

/-- Bytes that a packet writes in the host window: a READ's, an attestation response, a planner report (R330, R440, R455). -/
def State.windowStore (s : State) (dst : Nat) (bytes : List Byte) : State :=
  ((hdmPieces dst bytes).filter (fun w => w.2 ≠ [])).foldl (fun s w => s.memWrite ⟨w.1, w.2, false, .packet⟩) s

/-- Writes that waited land, in order, where none of their pages moves. -/
def State.landWrites (s : State) : State :=
  s.pages.waiting.foldl (fun s w => s.memWrite w) { s with pages := { s.pages with waiting := [] } }

/-! ## Moves -/

/-- Words that the module finds uncorrectable are poisoned. -/
def State.poisonWords (s : State) (page : Nat) (bad : List Nat) : State :=
  (bad.filter (fun a => pageOf a = page)).foldl (fun s a => s.poisonWord a) s

/-- Words found uncorrectable anywhere are poisoned. -/
def State.poisonAll (s : State) (bad : List Nat) : State := bad.foldl State.poisonWord s

/-- The mapping switches to the new frame: the old one is free again after a commanded move, and out of use after a
fault-driven one (R377, R390). -/
def Pages.switch (p : Pages) (m : Move) : Pages :=
  let old := p.frameOf m.page
  { p with
    map := assocSet p.map m.page m.dst
    moves := p.moves.filter (fun x => x.page ≠ m.page)
    retired := if m.commanded then p.retired else (match old with | some f => f :: p.retired | none => p.retired)
    ce := match old with | some f => p.ce.filter (fun e => e.1 ≠ f) | none => p.ce }

/-- PAGE_MOVE_COMPLETE (R377): uncorrectable words of the copy are poisoned, the mapping switches, writes that waited land,
and a page command that waited begins. The history keeps the frame that a fault-driven move leaves (R390, R474). -/
def execPageMoveComplete (page : Nat) (ev : Ev) (s : State) : Out :=
  .next (match s.pages.moves.find? (fun m => m.page = page) with
    | none => s
    | some m =>
      let s := s.poisonWords page ev.bad
      let s : State := match s.pages.frameOf page with
        | some f => if m.commanded then s else { s with hist := s.hist.movedOut f }
        | none => s
      let s := ({ s with pages := s.pages.switch m } : State).landWrites
      State.pageCmds s.pages.cmds.length s)

/-- The frame that a fault-driven move goes to: of its stack's remap pool, or near and else HBM of its chiplet (R390); and
the unit that is charged (R497). -/
def Pages.refuge (p : Pages) (page : Nat) (f : Frame) : Option Frame × Nat × Nat :=
  let pool (k : Nat) : Option Frame :=
    let n := p.poolUsed.getD k 0
    if n < poolFrames then some (.pool k n) else none
  match f with
  | .hbm k _ => (pool k, 4, k)
  | .pool k _ => (pool k, 4, k)
  | .near c n => ((match p.freeNear c with | some g => some g | none => p.freeHbm page), 5, 4 * c + n % 4)

/-- A fault-driven move begins (R390): counted and charged; it takes the page from a commanded move, whose command sets
CMD_ERR. An empty pool sets its POOL_EMPTY bit and the move is not performed. -/
def State.faultMove (s : State) (page : Nat) (f : Frame) : State :=
  let p := s.pages
  let r := p.refuge page f
  let p := { p with
    cmdErr := p.cmdErr || p.moves.any (fun m => m.page = page && m.commanded)
    moves := p.moves.filter (fun m => m.page ≠ page)
    movesDone := satAdd 16 p.movesDone 1 }
  let p := match r.1, f with
    | some g, _ =>
      { p with
        moves := p.moves ++ [⟨page, g, false⟩]
        poolUsed := match g with | .pool k n => p.poolUsed.set k (n + 1) | _ => p.poolUsed
        poolEmpty := match g with | .pool k n => if n + 1 = poolFrames then setFld p.poolEmpty k k 1 else p.poolEmpty | _ => p.poolEmpty }
    | none, .near _ _ => p
    | none, _ => { p with poolEmpty := setFld p.poolEmpty r.2.2 r.2.2 1 }
  ({ s with pages := p } : State).charge r.2.1 r.2.2 0x07

/-- FAULT_DRIVEN_MOVE (R390): `events` is the frame's count of corrected events since start, `ev` holds uncorrectable words
found in it (log 8). Pages of the system area never move (R370). -/
def execFaultDrivenMove (page events : Nat) (ev : Ev) (s : State) : Out :=
  .next (match s.pages.frameOf page with
    | none => s
    | some f =>
      let known := (assoc s.pages.ce f).getD 0
      let n := max events known
      let s := (s.countCe f (n - known)).poisonWords page ev.bad
      let due := (decide (n ≥ fld s.pages.cfg 31 16) || ev.bad.any (fun a => pageOf a = page)) && !(inSys page)
      let byFault := s.pages.moves.any (fun m => m.page = page && !m.commanded)
      if due && !byFault then State.pageCmds s.pages.cmds.length (s.faultMove page f) else s)

/-! ## The scrubber -/

/-- SCRUB_READ of one backed HBM frame (R387, R391): words with one bad bit are corrected and counted, uncorrectable words
are poisoned and the first is latched with kind SCRUB. No task aborts. -/
def execScrubRead (page : Nat) (fixed : List Nat) (ev : Ev) (s : State) : Out :=
  .next (match s.pages.frameOf page with
    | none => s
    | some f =>
      if f.isNear then s
      else
        let n := (fixed.filter (fun a => pageOf a = page)).length
        let bad := ev.bad.filter (fun a => pageOf a = page && !(s.poison.contains (a / 8 * 8)))
        let s := s.countCe f n
        bad.foldl (fun s a =>
          ({ s with pages := s.pages.latch .scrub s.me a 0 0 0 } : State).poisonWord a) s)

/-! ## Delta packets (R343, R344) -/

/-- A delta packet ends (R342, R343): its entries applied to the data of the module's solver plan, or none of them. -/
def State.applyDelta (s : State) (p : Pkt) : State :=
  let reject (s : State) : State :=
    ({ s with sol := { s.sol with deltaRejects := satAdd 32 s.sol.deltaRejects 1 } } : State).endPkt p statusDeltaInvalid 0
  match s.solverPlan p.ctx with
  | none => s.endPkt p pktState 0
  | some plan =>
    match deltaWrites s.mem plan p.pay with
    | some (ds, ws) =>
      let s := s.store ws
      let s : State := { s with sol := { s.sol with deltaEntries := satAdd 32 s.sol.deltaEntries ds.length } }
      (s.store (dirtyRecords plan s.mem ds)).endPkt p pktOk (BitVec.ofNat 64 ds.length)
    | none => reject s

/-- Packets in the pending area applied in the order in which they arrived, from the bytes that the area holds. -/
def State.applyPending (base : Nat) : Nat → List (Nat × Nat) → State → State
  | _, [], s => s
  | off, x :: xs, s =>
    let s := match s.hub.pkt x.1 with
      | some p => s.applyDelta { p with pay := Cells.read s.mem (base + off) x.2 }
      | none => s
    State.applyPending base (off + x.2) xs s

/-- PENDING_DELTA_APPLY (R344): the packets held during a cycle are applied in the order they arrived. -/
def execPendingDeltaApply (s : State) : Out :=
  .next (
    match (if s.sol.cycleOn then none else s.solverPlan 0) with
    | none => s
    | some plan => State.applyPending plan.pendBase 0 s.sol.pend { s with sol := { s.sol with pend := [] } })

end Sys2Proof.Machine
end

