-- ==== Sys2Proof/Machine/Requests.lean ====
section
/-!
DEFINITION. What command packets share: the form of a header (R452, R454), who may send it (R446, R455, R457, R490), the reset
of a context (R515), the removal of a job (R375), and the bytes of the host window that the ring area fixes (R440, R447).
-/

namespace Sys2Proof.Machine

/-! ## Types and headers -/

def typeNop : Nat := 0x01
def typeData : Nat := 0x02
def typeLoad : Nat := 0x04
def typeUnload : Nat := 0x05
def typeRun : Nat := 0x06
def typeSuspend : Nat := 0x07
def typeResume : Nat := 0x08
def typeCtlWrite : Nat := 0x09
def typeCtlRead : Nat := 0x0A
def typeDelta : Nat := 0x0B
def typeRestore : Nat := 0x0C
def typeContextReset : Nat := 0x0D
def typeRingOpen : Nat := 0x0E
def typeRingClose : Nat := 0x0F
def typeFwImage : Nat := 0x10
def typeAttest : Nat := 0x11

/-- Types that only context 0 may send (R455). -/
def Pkt.sys (p : Pkt) : Bool := typeContextReset ≤ p.type && p.type ≤ typeAttest

/-- Payload bytes that the pool holds: a READ has none (R452). -/
def Pkt.poolLen (p : Pkt) : Nat := if p.type = typeRead then 0 else p.payLen

def Pkt.addr (p : Pkt) : Nat := fld p.arg0 51 0
def Pkt.addrModule (p : Pkt) : Nat := fld p.arg0 63 52

/-- The header's checks (R452, R454) for a ring of context `ctx` with a pool of `pool` bytes. -/
def Pkt.headerOk (p : Pkt) (ctx pool : Nat) : Bool :=
  let w (i : Nat) : Word := wordAt p.words i
  fld (w 0) 53 52 == 0 && fld (w 0) 27 0 == 0 && fld (w 3) 31 0 == 0 && fld (w 7) 63 32 == 0
    && typeNop ≤ p.type && p.type ≤ typeAttest && p.ctx == ctx
    && p.payOff % 64 == 0 && p.payOff + p.poolLen ≤ pool && p.payLen ≤ pool
    && (!p.hold || p.type == typeData)
    && (!(p.type == typeData || (p.type == typeRead && !p.pair)) || p.addrModule == p.dst)

/-- Modules that the domain's live graph joins to this one, this one left out (R408). -/
def State.domainPeers (s : State) : List Nat :=
  (s.fab.routes.part s.me).filter (fun m => m ≠ s.me ∧ domainOf m = domainOf s.me)

/-- The state that lets the module execute a packet at all (R457, R470, R481, R490). -/
def State.stateBars (s : State) (p : Pkt) : Option Nat :=
  let ready := s.start.stage == .ready
  if !ready then
    (if (p.type == typeNop || p.type == typeCtlRead || (p.type == typeFwImage && fld p.arg0 1 0 == 0 && p.dst == s.me)) then none
      else some pktState)
  else none

/-- The task that a packet names, in its own context. -/
def State.pktTask (s : State) (p : Pkt) : Option Task := s.hub.task p.key

/-- Step in progress of a task, or the step at which its next RUN starts (R454). -/
def Task.current (t : Task) : Nat := if t.st = .idle then t.next else t.step

/-- A delta packet would not fit into the pending area while it may not be applied (R344). -/
def State.deltaStuck (s : State) (p : Pkt) : Bool :=
  p.type == typeDelta && p.pay.length % 16 == 0 && (s.sol.cycleOn || !s.sol.pend.isEmpty)
    && (match s.solverPlan p.ctx with | some plan => decide (1024 * plan.pendKib < s.sol.pendBytes + p.pay.length) | none => false)

/-! ## Swap pairs (R455) -/

/-- Ranges of the swap pairs of a job. -/
def Job.pairRanges (j : Job) : List (Nat × Nat) :=
  j.pairs.flatMap (fun p => [p.1, p.2].filterMap (fun i => (j.tensor? i).map (fun t => (t.base, t.bytes))))

def meetRange (a n : Nat) (r : Nat × Nat) : Bool := a < r.1 + r.2 && r.1 < a + n

/-- A job of which a task runs or is being suspended. -/
def State.jobActive (s : State) (j : Job) : Bool :=
  s.hub.tasks.any (fun t => t.key.ctx = j.ctx && t.key.job = j.handle && t.active)

/-- Bytes of the host window that a job context may not have a packet write: another context's regions and ring buffers, and the ring
area (R446). -/
def State.windowDenied (s : State) (ctx dst n : Nat) : Bool :=
  let others := (s.jobs.filter (fun j => j.ctx ≠ ctx)).flatMap (fun j => j.regions.filterMap (fun r => if inHdm r.base then some (hdmOffset r.base, r.bytes) else none))
  let rings := (s.hub.rings.filter (fun r => r.1 / 64 ≠ ctx && r.2.st != .closed)).flatMap (fun r => r.2.buffers)
  ctx != 0 && n != 0 && ((0, 0x10000000) :: (others ++ rings)).any (meetRange dst n)

/-! ## Reset of a context (R515, R467) -/

/-- Packets of a ring that intake has not taken complete with a status, in slot order. -/
def State.flushRing (s : State) (n status : Nat) : State :=
  let r := s.hub.ring n
  (List.range (sub32 r.tailSeen r.head)).foldl (fun s i =>
    let slot := (r.head + i) % 2 ^ 32
    let p : Pkt := ⟨0, s.slotWords r slot, [], .ring n slot, false, 0, 0⟩
    (({ s with hub := s.hub.setRing n { s.hub.ring n with head := (slot + 1) % 2 ^ 32 } } : State).ringEnd n slot true
      (some ⟨false, p.type, status, p.tag, 0⟩))) s

/-- A task of the context applies a restore outcome on this module (R289). -/
def State.restoringIn (s : State) (n : Nat) : Bool := s.hub.tasks.any (fun t => t.key.ctx = n && t.restoring)

/-- A task of a reset context ends, running, suspended or neither. -/
def State.resetTask (s : State) (k : TaskKey) : State :=
  let s := s.abortTask k statusContextReset
  s.updTask k (fun t => if t.st = .suspended then t.stop t.step else t)

/-- The module is clear of the context (R515): its tasks end, packets not started complete, held slots are released, and its
streams and requests are dropped. -/
def State.resetHere (s : State) (n : Nat) : State :=
  let s := (s.hub.tasks.filter (fun t => t.key.ctx = n)).foldl (fun s t => s.resetTask t.key) s
  let s := (s.hub.rings.filter (fun r => r.1 / 64 = n)).foldl (fun s r => s.flushRing r.1 statusContextReset) s
  let s := (s.hub.pkts.filter (fun p => p.ctx = n ∧ (!p.started ∨ p.type = typeRestore))).foldl
    (fun s p => s.endPkt p statusContextReset 0) s
  let s := s.freeHelds (fun h => h.key.ctx = n)
  { s with
    hub := { s.hub with
      streams := s.hub.streams.filter (fun x => x.ctx ≠ n), restores := s.hub.restores.filter (fun x => x.key.ctx ≠ n)
      reqs := s.hub.reqs.filter (fun r => r.msg.ctx ≠ n ∨ n = 0)
      barred := n :: s.hub.barred.filter (· ≠ n) }
    fab := { s.fab with waiting := s.fab.waiting.filter (fun w => !(w.msg.src = s.me ∧ w.msg.ctx = n ∧ w.msg.body.vc ≠ 3)) } }

/-- The header of the reset of one context that the entry hub sends to another module of its domain. -/
def resetWords (dst n : Nat) : List Word :=
  [mkFld 63 56 typeContextReset ||| mkFld 51 40 dst, 0, 0, 0, 0, BitVec.ofNat 64 n, 0, 0]

/-- The reset of a context throughout the domain, at the entry module (R455, R515); `use` says what its answers serve. -/
def State.resetDomain (s : State) (n : Nat) (use : HubUse) : State × Nat :=
  let ms := if s.isEntry then s.domainPeers else []
  (ms.foldl (fun s m => s.hubRequest m 0 use (.packet (2 ^ 32) (resetWords m n) [])) (s.resetHere n), ms.length)

/-! ## Removal of a job (R375) -/

/-- Pages of a job that have no other frame once it goes. -/
def State.dropJob (s : State) (j : Job) : State :=
  let ls := (j.cassettes.map (·.cluster)).dedup
  let s := s.freeHelds (fun h => h.key.ctx = j.ctx && h.key.job = j.handle)
  let s := ls.foldl State.zeroStores s
  let mine (a : Nat) : Bool := j.pages.contains (pageOf a)
  { s with
    mem := j.pages.foldl (fun m p => Cells.zero m p pageBytes) s.mem
    tags := s.tags.filter (fun t => !(mine t.1))
    poison := s.poison.filter (fun w => !(mine w))
    pages := { s.pages with
      map := s.pages.map.filter (fun e => inHdm e.1 || !(j.pages.contains e.1))
      moves := s.pages.moves.filter (fun m => inHdm m.page || !(j.pages.contains m.page))
      waiting := s.pages.waiting.filter (fun w => inHdm w.addr || !(mine w.addr)) }
    jobs := s.jobs.filter (fun x => !(x.ctx = j.ctx ∧ x.handle = j.handle))
    sol := if j.sol.isSome then { Sol.reset with cfg := s.sol.cfg, shadow := s.sol.shadow, commitErr := s.sol.commitErr } else s.sol
    hub := { s.hub with
      tasks := s.hub.tasks.filter (fun t => !(t.key.ctx = j.ctx ∧ t.key.job = j.handle))
      recs := assocDel s.hub.recs (j.ctx, j.handle)
      streams := s.hub.streams.filter (fun x => !(x.ctx = j.ctx ∧ x.job = j.handle))
      logPos := assocDel s.hub.logPos (j.ctx, j.handle) } }

/-! ## The ring area (R440, R447, R448) -/

/-- A byte that a read of the host returns. -/
def State.hostByte (s : State) (off : Nat) : Byte :=
  match windowAt off with
  | .block n => (bytesOfWords (s.hub.ring n).block).getD (off % 64) 0
  | .reserved => 0
  | _ => Cells.byte s.mem (hdmLocal off)

/-- Bytes as a read of a packet or of another module returns them: on the entry module, the control blocks and reserved ranges of the ring
area read as the host reads them (R440). -/
def State.seen (s : State) (a n : Nat) : List Byte :=
  (List.range n).map (fun i => if s.isEntry && ringFixed (a + i) then s.hostByte (hdmOffset (a + i)) else Cells.byte s.mem (a + i))

/-- A doorbell acts field by field (R448); ignored fields are counted. -/
def State.doorbell (s : State) (n : Nat) (v : Word) (tail cq : Bool) : State :=
  let r0 := s.hub.ring n
  let r := if tail then r0.tail (fld v 31 0) else r0
  let r := if cq then r.cqTake (fld v 63 32) else r
  let errs := r.dbErrs - r0.dbErrs
  let d := Ring.drain r.waiting.length r
  (({ s with hub := s.hub.setRing n d.1 } : State).storeHdm d.2).hubCount chDbErrs errs

end Sys2Proof.Machine
end

