-- ==== Sys2Proof/Machine/Coppice.lean ====
section
/-!
DEFINITION. The Coppice of a job: the layout of its region (R282, R283), its image at load, and restores (R286, R287).
-/

namespace Sys2Proof.Machine

/-- The logical cluster that owns a swap pair (R281). -/
def Job.pairOwner (j : Job) (p : Nat × Nat) : Option Nat :=
  (j.cassettes.find? (fun c => c.entries.any (fun e =>
    e.op == .optimise && (match j.opts[e.aux]? with | some l => l.pairs.contains p | none => false)))).map (·.cluster)

/-- A pair of the base image: owner, C and U indices, offset in its cluster's section and in the base image. -/
structure CopPart where
  cluster : Nat
  c : Nat
  u : Nat
  sec : Nat
  base : Nat
  deriving DecidableEq, Repr

def Job.storageOf (j : Job) (i : Nat) : Nat := match j.tensor? i with | some t => t.storage | none => 0

/-- The base image in PAIR_TABLE order (R282). -/
def Job.copParts (j : Job) : List CopPart :=
  (j.pairs.foldl (fun (acc : List CopPart × Nat) p =>
    let cl := (j.pairOwner p).getD 0
    let sec := match acc.1.find? (fun q => q.cluster = cl) with | some q => acc.2 - (q.base - q.sec) | none => 0
    (acc.1 ++ [⟨cl, p.1, p.2, sec, acc.2⟩], acc.2 + j.storageOf p.1)) ([], 0)).1

def Job.baseBytes (j : Job) : Nat := sumNat (j.pairs.map (fun p => j.storageOf p.1))

/-- Offset of the log slot of a step in the region. -/
def Job.logOff (j : Job) (step : Nat) : Nat := copHeader + j.baseBytes + step % 2 * logBytes j.baseBytes

/-- D_c over C or U tensors of a cluster's pairs for a step (R270). -/
def Job.digestOf (j : Job) (m : Cells) (cl step : Nat) : Word :=
  digestFinal (((j.copParts.filter (fun p => p.cluster = cl)).foldl (fun acc p =>
    match j.tensor? p.c with | some t => acc + digestTensor m t | none => acc) 0)) step

def Job.copClusters (j : Job) : List Nat := (j.copParts.map (·.cluster)).dedup

/-- Writes of the region at load (R283): base image and header. -/
def Job.copImage (j : Job) (m : Cells) (me step : Nat) : List (Nat × List Byte) :=
  let word (k : Nat) (v : Word) : Nat × List Byte := (8 * k, leBytes 8 v.toNat)
  (j.copParts.flatMap (fun p => match j.tensor? p.c with
    | some t => (chunks 4096 (Cells.read m t.base t.storage)).zipIdx.map (fun b => (copHeader + p.base + 4096 * b.2, b.1))
    | none => []))
  ++ [word 0 (mkFld 63 52 me), word 1 (BitVec.ofNat 64 step)]
  ++ j.copClusters.flatMap (fun c =>
      [word (8 + c) (j.digestOf m c step),
       word (264 + c) (mkFld 47 0 (match j.copParts.find? (fun p => p.cluster = c) with | some p => p.base | none => 0))])

/-- What a restore reads of the region: offset and length. -/
def Job.restoreReads (j : Job) (r : Restore) : List (Nat × Nat) :=
  let cut (a n : Nat) : List (Nat × Nat) := (List.range (ceilDiv n 4096)).map (fun k => (a + 4096 * k, min 4096 (n - 4096 * k)))
  ((j.copParts.filter (fun p => r.clusters.contains p.cluster)).flatMap (fun p => cut (copHeader + p.base) (j.storageOf p.c)))
  ++ r.clusters.map (fun c => (8 * ((if r.undo then 136 else 8) + c), 8))
  ++ (if r.undo then cut (j.logOff (r.step + 1)) (logBytes j.baseBytes) else [])

/-- COPPICE_STEP and PREV_VALID allow a restore to step `s`: none, or whether the log of the next step is undone (R286). -/
def StepRec.restorable (r : StepRec) (s : Nat) : Option Bool :=
  if r.copStep = s then some false
  else if r.copStep = (s + 1) % 2 ^ 64 ∧ r.prevValid = true then some true
  else none

/-- The restore's reads are sent to the partner (R286). -/
def State.beginRestore (s : State) (j : Job) (p : ParamPlan) (r : Restore) : State :=
  let s : State := { s with hub := { s.hub with restores := r :: s.hub.restores.filter (fun x => x.key ≠ r.key) } }
  (j.restoreReads r).foldl (fun s q =>
    s.hubRequest p.copModule j.ctx (.restore j.ctx j.handle q.1) (.read (p.copBase + q.1) q.2)) s

/-- Every byte that a restore reads has arrived. -/
def State.restoreReady (s : State) (r : Restore) : Bool :=
  !(s.hub.reqs.any (fun q => match q.use with | .restore c jb _ => c == r.key.ctx && jb == r.key.job | _ => false))

/-- The records of a log slot up to the step-end records of a step of clusters `es`; what follows is left of an older step (R284). -/
def logUpTo (step : Nat) : List Nat → List LogRec → List LogRec
  | _, [] => []
  | es, r :: rs =>
    if es = [] then []
    else match r with
      | .diffs _ _ _ => r :: logUpTo step es rs
      | .stepEnd c st _ => r :: logUpTo step (if st = step then es.filter (· ≠ c) else es) rs

/-- Clusters whose step-end records of a step a log slot holds. -/
def logEnds (step : Nat) (rs : List LogRec) : List Nat :=
  (rs.filterMap (fun r => match r with | .stepEnd c st _ => if st = step then some c else none | _ => none)).dedup

/-- Differences of a cluster in the log slot of the image: those of the step that is undone. -/
def Restore.diffs (r : Restore) (j : Job) (cl : Nat) : List (Nat × Nat × Nat) :=
  if !r.undo then []
  else
    let step := (r.step + 1) % 2 ^ 64
    let rs := logRecords (logBytes j.baseBytes) (Cells.read r.image (j.logOff step) (logBytes j.baseBytes))
    (logUpTo step (logEnds step rs) rs).flatMap (fun x =>
      match x with
      | .diffs c w ds => if c = cl then ds.map (fun d => (w, d.1, d.2)) else []
      | .stepEnd _ _ _ => [])

/-- The bytes of a C tensor as restored (R286). -/
def Restore.bytesOf (r : Restore) (j : Job) (p : CopPart) : List Byte :=
  let n := j.storageOf p.c
  let m : Cells := Cells.write [] 0 (Cells.read r.image (copHeader + p.base) n)
  let m := (r.diffs j p.cluster).foldl (fun (m : Cells) d =>
    if p.sec ≤ d.2.1 ∧ d.2.1 < p.sec + n then
      let a := d.2.1 - p.sec
      Cells.write m a (leBytes d.1 (ofLeBytes (Cells.read m a d.1) ^^^ d.2.2))
    else m) m
  Cells.read m 0 n

/-- The C tensors rewritten, and whether every restored cluster's digest agrees (R287). -/
def State.finishRestore (s : State) (j : Job) (r : Restore) : State × Bool :=
  let ps := j.copParts.filter (fun p => r.clusters.contains p.cluster)
  let s := s.store (ps.filterMap (fun p => (j.tensor? p.c).map (fun t => (t.base, r.bytesOf j p))))
  let ok := r.clusters.all (fun c =>
    j.digestOf s.mem c r.step == Cells.word r.image (8 * ((if r.undo then 136 else 8) + c)))
  ({ s with hub := { s.hub with restores := s.hub.restores.filter (fun x => x.key ≠ r.key) } }, ok)

end Sys2Proof.Machine
end

