-- ==== Sys2Proof/Machine/Packets.lean ====
section
/-!
DEFINITION. Command packets at the module that executes them (R454, R455): NOP, DATA, READ, UNLOAD, CTL_WRITE, CTL_READ,
SOL_DELTA, RESTORE, CONTEXT_RESET, RING_OPEN, RING_CLOSE and FW_IMAGE. A packet that cannot go on yet stays as it is, and its
command carries it on once it can.
-/

namespace Sys2Proof.Machine

/-- The command of a packet taken and not complete, where it has the type. -/
def onPkt (id type : Nat) (s : State) (f : Pkt → State) : Out :=
  .next (if s.alive then (match s.hub.pkt id with | some p => if p.type = type then f p else s | none => s) else s)

/-! ## NOP and DATA -/

/-- NOP: taken at its destination (R455). -/
def State.doNop (s : State) (p : Pkt) : State := s.endPkt p pktOk 0

def execNopPacket (id : Nat) (s : State) : Out := onPkt id typeNop s s.doNop

/-- The check of DATA's address and of the state of what it names. The system context may name any backed address but those of the system
area, whose Cassette regions no packet writes (R111). -/
def State.dataRefusal (s : State) (p : Pkt) : Option Nat :=
  let a := p.addr
  let n := p.pay.length
  if a % 64 ≠ 0 then some pktInvalid
  else if n ≠ 0 ∧ (s.pages.rangeFault none ⟨a, n, true⟩).isSome then some (if p.ctx = 0 then pktInvalid else pktDenied)
  else if n ≠ 0 ∧ !(s.mayTouch p.ctx a n) then some pktDenied
  else if n ≠ 0 ∧ inSys a then some pktInvalid
  else if s.jobs.any (fun j => (p.ctx = 0 || j.ctx = p.ctx) && s.jobActive j && j.pairRanges.any (meetRange a n)) then some pktState
  else none

/-- The bytes of DATA become visible. A word that is poisoned and written only in part faults like a read, so the fault is latched and
the word stays as it was (R387, R389; log 28). -/
def State.landData (s : State) (p : Pkt) : State :=
  let hit := s.poison.partHit p.addr p.pay.length
  let s := (s.softStore p.addr p.pay).tagLanded p.addr p.pay.length
  match hit with
  | some w => { s with pages := s.pages.latch .poisoned s.me w p.ctx 0 0 }
  | none => s

/-- DATA (R455). A held packet waits while its step is more than one ahead, fails where its step has ended, and keeps its slot
(R454, R278). -/
def State.doData (s : State) (p : Pkt) : State :=
  match s.dataRefusal p with
  | some c => s.endPkt p c 0
  | none =>
    if !(s.lands p.addr p.pay.length) then s
    else if !p.hold then (s.landData p).endPkt p pktOk 0
    else
      match s.pktTask p with
      | none => s.endPkt p pktState 0
      | some t =>
        if p.step < t.current then s.endPkt p pktState 0
        else if p.step > t.current + 1 then s
        else
          let s := (s.landData p).endPkt p pktOk 0 (releases := false)
          { s with hub := { s.hub with held := s.hub.held ++ [⟨p.key, p.step, p, false⟩] } }

def execData (id : Nat) (s : State) : Out := onPkt id typeData s s.doData

/-! ## READ -/

/-- The C tensor that a READ with PAIR names. -/
def State.pairTensor (s : State) (p : Pkt) : Option Tensor :=
  (s.job p.ctx p.job).bind (fun j =>
    let i := fld p.arg0 15 0
    if j.pairs.any (fun q => q.1 = i) then j.tensor? i else none)

/-- Source of a READ, or the status that ends it (R455). -/
def State.readSource (s : State) (p : Pkt) : Nat × Option Nat :=
  let n := p.payLen
  let dst := fld p.arg1 51 0
  if dst + n > hdmBytes then (0, some pktInvalid)
  else if p.pair then
    match s.pairTensor p with
    | some t => (t.base, if n = t.storage then none else some pktInvalid)
    | none => (0, some (if (s.job p.ctx p.job).isSome then pktInvalid else pktState))
  else if n ≠ 0 ∧ (s.pages.rangeFault none ⟨p.addr, n, false⟩).isSome then (0, some (if p.ctx = 0 then pktInvalid else pktDenied))
  else if n ≠ 0 ∧ !(s.mayTouch p.ctx p.addr n) then (0, some pktDenied)
  else if s.jobs.any (fun j => j.pairRanges.any (meetRange p.addr n)) then (0, some pktDenied)
  else (p.addr, none)

/-- READ (R455): the bytes are written in the entry module's window, here or by writes that are acknowledged. Words that the
read finds uncorrectable are poisoned, and their copies with them. -/
def State.doRead (s : State) (p : Pkt) (ev : Ev) : State :=
  if p.started then s
  else
    match s.readSource p with
    | (_, some c) => s.endPkt p c 0
    | (a, none) =>
      let n := p.payLen
      if !(s.reaches [⟨a, n, false⟩]) then s
      else
      let s := ((ev.bad.filter (fun w => a ≤ w && w < a + n)).foldl State.poisonWord s).corrected ev.fixed [⟨a, n, false⟩]
      let bytes := s.seen a n
      let dst := fld p.arg1 51 0
      match p.origin with
      | .ring _ _ =>
        let s := s.windowStore dst bytes
        let hit := s.poison.filter (fun w => a ≤ w && w < a + n)
        let s : State := { s with poison := hit.foldl (fun q w => q.add (hdmLocal (dst + (w - a)))) s.poison }
        s.endPkt p pktOk 0
      | .fabric m _ _ =>
        if n = 0 then s.endPkt p pktOk 0
        else
          let ws := hdmPieces dst bytes |>.filter (fun w => w.2 ≠ [])
          let s : State := { s with hub := s.hub.updPkt p.id (fun p => { p with started := true, acks := ws.length }) }
          ws.foldl (fun s w => s.hubRequest m 0 (.packet p.id) (.write w.1 w.2)) s

def execRead (id : Nat) (ev : Ev) (s : State) : Out := onPkt id typeRead s (fun p => s.doRead p ev)

/-! ## UNLOAD -/

/-- UNLOAD (R375, R467): refused while a task of the job runs or is suspended; it waits for a move of one of the job's pages (R394), and
for delta packets that the pending area still holds. -/
def State.doUnload (s : State) (p : Pkt) : State :=
  match s.job p.ctx p.job with
  | none => s.endPkt p pktState 0
  | some j =>
    if s.hub.tasks.any (fun t => t.key.ctx = j.ctx && t.key.job = j.handle && t.st != .idle) then s.endPkt p pktState 0
    else if s.pages.moves.any (fun m => j.pages.contains m.page) || (j.sol.isSome && !s.sol.pend.isEmpty) then s
    else (s.dropJob j).endPkt p pktOk 0

def execUnload (id : Nat) (s : State) : Out := onPkt id typeUnload s s.doUnload

/-! ## Control words -/

/-- CTL_WRITE (R443, R455); a reserved offset discards the write (R15). -/
def State.doCtlWrite (s : State) (p : Pkt) : State :=
  let o := fld p.arg0 19 0
  if o % 8 ≠ 0 then s.endPkt p pktInvalid 0
  else
    match regAt o with
    | none => s.endPkt p (if p.ctx = 0 then pktOk else pktDenied) 0
    | some r => if s.mayWriteReg p.ctx r then (s.writeReg r p.arg1 p.ctx).endPkt p pktOk 0 else s.endPkt p pktDenied 0

def execCtlWritePacket (id : Nat) (s : State) : Out := onPkt id typeCtlWrite s s.doCtlWrite

/-- CTL_READ (R443, R455); a reserved offset reads 0 (R15). -/
def State.doCtlRead (s : State) (p : Pkt) : State :=
  let o := fld p.arg0 19 0
  if o % 8 ≠ 0 then s.endPkt p pktInvalid 0
  else
    match regAt o with
    | none => s.endPkt p (if p.ctx = 0 then pktOk else pktDenied) 0
    | some r => if s.mayReadReg p.ctx r then s.endPkt p pktOk (s.readReg r) else s.endPkt p pktDenied 0

def execCtlRead (id : Nat) (s : State) : Out := onPkt id typeCtlRead s s.doCtlRead

/-! ## SOL_DELTA -/

/-- The pending area is full: an earlier packet waits for room in it, so no further one is accepted (R344). -/
def State.deltaFull (s : State) (p : Pkt) : Bool :=
  s.deltaStuck p || (s.hub.pkts.takeWhile (fun q => q.id ≠ p.id)).any (fun q => !q.started && s.deltaStuck q)

/-- SOL_DELTA (R342 to R344): applied, or copied into the pending area while a cycle runs; with the area full it waits. -/
def State.doDelta (s : State) (p : Pkt) : State :=
  if p.started then s
  else
    match s.solverPlan p.ctx with
    | none => s.endPkt p pktState 0
    | some plan =>
      if p.pay.length % 16 ≠ 0 then
        ({ s with sol := { s.sol with deltaRejects := satAdd 32 s.sol.deltaRejects 1 } } : State).endPkt p statusDeltaInvalid 0
      else if p.pay = [] then s.endPkt p pktOk 0
      else if !s.sol.cycleOn ∧ s.sol.pend = [] then s.applyDelta p
      else if s.deltaFull p ∨ !(s.lands (plan.pendBase + s.sol.pendBytes) p.pay.length) then s
      else
        let s := s.store [(plan.pendBase + s.sol.pendBytes, p.pay)]
        { s with
          sol := { s.sol with pend := s.sol.pend ++ [(p.id, p.pay.length)] }
          hub := s.hub.updPkt p.id (fun p => { p with started := true }) }

def execSolDelta (id : Nat) (s : State) : Out := onPkt id typeDelta s s.doDelta

/-! ## RESTORE -/

/-- The step in which the lowest-numbered task with an OPTIMISE starts (R279). -/
def Job.recTask (j : Job) : Option Nat := (List.range j.tasks.length).find? (fun t => j.has t [.optimise])
def Job.recStep (j : Job) : Nat := match j.recTask.bind (fun t => j.tasks[t]?) with | some t => t.stepBase | none => 0

/-- The step before, modulo 2^64. -/
def prevStep (s : Nat) : Nat := (s + 2 ^ 64 - 1) % 2 ^ 64

/-- RESTORE (R286, R287): begun where the task is at rest and the Coppice holds the step; once every byte has arrived the C
tensors are rewritten and verified, and the next RUN starts at the step after (R455). -/
def State.doRestore (s : State) (p : Pkt) (ev : Ev) : State :=
  match s.job p.ctx p.job, s.pktTask p with
  | some j, some t =>
    match j.param, s.hub.srec j.ctx j.handle with
    | some plan, some r =>
      match s.hub.restores.find? (fun x => x.pkt = some p.id) with
      | none =>
        if t.st ≠ .idle ∨ !plan.coppiceEn then s.endPkt p pktState 0
        else
          (match r.restorable p.arg0.toNat with
          | none => s.endPkt p pktState 0
          | some undo =>
            let s : State := { s with hub := s.hub.updPkt p.id (fun p => { p with started := true }) }
            s.beginRestore j plan ⟨p.key, p.arg0.toNat, undo, j.copClusters, some p.id, []⟩)
      | some x =>
        if !s.restoreReady x then s
        else
          let f := s.finishRestore j x
          let s := f.1.poisonAll ev.bad
          if f.2 then
            let s : State := { s with hub := { s.hub with recs := assocSet s.hub.recs (j.ctx, j.handle) { r with committed := x.step } } }
            (s.updTask p.key (fun t => { t with next := (x.step + 1) % 2 ^ 64 })).endPkt p pktOk 0
          else s.endPkt p statusCopCorrupt 0
    | _, _ => s.endPkt p pktState 0
  | _, _ => s.endPkt p pktState 0

def execRestore (id : Nat) (ev : Ev) (s : State) : Out := onPkt id typeRestore s (fun p => s.doRestore p ev)

/-! ## CONTEXT_RESET -/

/-- CONTEXT_RESET (R515): throughout the domain at the entry module, else on this module alone; complete once every module has
answered. While a task of the context applies a restore outcome, the application completes first (R289). -/
def State.doContextReset (s : State) (p : Pkt) : State :=
  let n := fld p.arg0 11 0
  if p.started then s
  else if n = 0 then s.endPkt p pktInvalid 0
  else if s.restoringIn n then s
  else
    let s : State := { s with hub := s.hub.updPkt p.id (fun p => { p with started := true }) }
    let r := s.resetDomain n (.packet p.id)
    if r.2 = 0 then r.1.endPkt p pktOk 0
    else { r.1 with hub := r.1.hub.updPkt p.id (fun p => { p with acks := r.2 }) }

def execContextReset (id : Nat) (s : State) : Out := onPkt id typeContextReset s s.doContextReset

/-! ## RING_OPEN and RING_CLOSE -/

def meetAny (a b : List (Nat × Nat)) : Bool := a.any (fun x => b.any (fun y => meetRange x.1 x.2 y))

/-- The ring that a RING_OPEN's payload gives, where its geometry is valid (R447, R455). -/
def ringOf (pay : List Byte) : Option Ring :=
  let w := wordsOfBytes pay
  let g (i hi lo : Nat) : Nat := fld (wordAt w i) hi lo
  let r := Ring.openAs (g 0 52 48) (g 1 51 0) (g 2 51 0) (g 3 51 0) (g 0 47 0)
  let form : Bool := pay.length == 32 && g 0 63 53 == 0 && g 1 63 52 == 0 && g 2 63 52 == 0 && g 3 63 52 == 0
    && 4 ≤ r.log2 && r.log2 ≤ 16 && r.ringBase % 4096 == 0 && r.cqBase % 4096 == 0 && r.poolBase % 4096 == 0
    && r.poolBytes % 4096 == 0 && 4096 ≤ r.poolBytes && r.poolBytes ≤ 2 ^ 36
    && r.buffers.all (fun b => b.1 + b.2 ≤ hdmBytes)
  if form then some r else none

/-- Regions of loaded jobs that lie in the host window, by HDM offset. -/
def State.windowRegions (s : State) : List (Nat × Nat) :=
  s.allRegions.filterMap (fun r => if inHdm r.base then some (hdmOffset r.base, r.bytes) else none)

/-- The buffers meet the ring area, a job region or another open ring's buffers (R441). -/
def State.buffersMeet (s : State) (n : Nat) (r : Ring) : Bool :=
  meetAny r.buffers ((0, 0x10000000) :: s.windowRegions)
    || s.hub.rings.any (fun q => q.1 ≠ n && q.2.st != .closed && meetAny r.buffers q.2.buffers)

/-- RING_OPEN (R447, R455, R441). Context 0's rings 1 to 63 may be reopened while they hold no slot; ring 0 never. -/
def State.doRingOpen (s : State) (p : Pkt) : State :=
  let n := fld p.arg0 17 0
  if !s.isEntry ∨ n = 0 then s.endPkt p pktInvalid 0
  else
    match ringOf p.pay with
    | none => s.endPkt p pktInvalid 0
    | some r =>
      let old := s.hub.ring n
      if s.buffersMeet n r then s.endPkt p pktInvalid 0
      else if old.st = .closed ∨ (n < 64 ∧ old.st = .opened ∧ old.released = old.tailSeen ∧ old.waiting = []) then
        ({ s with hub := s.hub.setRing n r } : State).endPkt p pktOk 0
      else s.endPkt p pktState 0

def execRingOpen (id : Nat) (s : State) : Out := onPkt id typeRingOpen s s.doRingOpen

/-- RING_CLOSE (R455): CLOSING, then CLOSED once every slot is released. Ring 0 never closes, and a packet cannot close its own
ring. -/
def State.doRingClose (s : State) (p : Pkt) : State :=
  let n := fld p.arg0 17 0
  let own : Bool := match p.origin with | .ring k _ => k == n | .fabric _ _ _ => false
  if !s.isEntry ∨ n = 0 then s.endPkt p pktInvalid 0
  else if p.started then (if (s.hub.ring n).st = .closed then s.endPkt p pktOk 0 else s)
  else if own ∨ (s.hub.ring n).st ≠ .opened then s.endPkt p pktState 0
  else
    let r := ({ s.hub.ring n with st := .closing } : Ring).settle
    let s : State := { s with hub := (s.hub.setRing n r).updPkt p.id (fun p => { p with started := true }) }
    if r.st = .closed then s.endPkt p pktOk 0 else s

def execRingClose (id : Nat) (s : State) : Out := onPkt id typeRingClose s s.doRingClose

/-! ## FW_IMAGE -/

/-- The image whose bytes are in STAGE, with what they carry (R475, R476). -/
def imageOf (i : ImageIn) (bytes : List Byte) : Image := ⟨bytes, i.sigOk, i.conf, i.pack⟩

/-- Bytes over the content of a partition; what nothing has programmed reads 0xFF (DESIGN CHOICE, log 67). -/
def overlay (old : List Byte) (off : Nat) (bs : List Byte) : List Byte :=
  (old ++ List.replicate (off - old.length) 0xFF).take off ++ bs ++ old.drop (off + bs.length)

/-- Bytes written into STAGE (R430, R472, R478). -/
def Flash.stagePut (f : Flash) (off : Nat) (bs : List Byte) : Flash := { f with staged := overlay f.staged off bs }

/-- STAGE takes a whole image. -/
def State.stageWhole (s : State) (pay : List Byte) : State :=
  { s with start := { s.start with flash := { s.start.flash with staged := pay } } }

/-- The install (R478): VALID is cleared, the image programmed and read back, its digest compared with that of STAGE, and VALID set. With
the flash edge out of service nothing is programmed (R105). -/
def State.program (s : State) (img : ImageIn) (i : Image) : State :=
  let f := s.start.flash.clearValid i.kind
  { s with start := { s.start with flash := if s.start.edgeUp .flash then (f.program i.kind i img.wrong).confirm i.kind else f } }

/-- Verification of the image in STAGE and its install (R476, R478): the refusal code, kept in LAST_CODE (R493), or none where the
target holds the image. A failed programming leaves VALID clear and ends with PKT_STATE (DESIGN CHOICE, log 20). -/
def State.installImage (s : State) (img : ImageIn) : State × Option Nat :=
  let i := imageOf img s.start.flash.staged
  match s.start.flash.verify i.kind i with
  | some c => ({ s with start := { s.start with lastCode := c } }, some c)
  | none =>
    let s := s.program img i
    (s, if s.start.flash.valid i.kind then none else some pktState)

/-- The module leaves the minimal state where every image is sound now (R478). -/
def State.leaveMinimal (s : State) : State :=
  if s.start.stage = .minimal ∧ s.start.flash.failing = [] then s.moduleReset else s

/-- Targets of a broadcast, by rank: this module first, then ascending (R430). -/
def State.fwTargets (s : State) (hall : Bool) : List Nat :=
  s.me :: (s.fab.routes.part s.me).filter (fun m => m ≠ s.me ∧ (hall || domainOf m == domainOf s.me))

/-- Chunks of a broadcast sent by rank 0: at most 64 not acknowledged (R430). -/
def State.fwSend (s : State) (pay : List Byte) : State :=
  match s.fab.bcast with
  | none => s
  | some b =>
    let kids := (fwChildren b.targets.length 0).filterMap (fun r => b.targets[r]?)
    let cs := (chunks 4096 pay).zipIdx
    let room := 64 - b.waiting.length
    let next := (cs.filter (fun c => !(b.held.contains c.2))).take room
    let s := next.foldl (fun s c => kids.foldl (fun s m => s.sendChunk m b.hall b.seq c.2 c.1) s) s
    { s with fab := { s.fab with bcast := some { b with
        held := b.held ++ next.map (·.2)
        waiting := if kids.isEmpty then b.waiting else b.waiting ++ next.map (fun c => (c.2, kids))
        acked := if kids.isEmpty then b.acked ++ next.map (·.2) else b.acked } } }

/-- FW_IMAGE (R430, R478): of one module, or a broadcast that completes once every chunk is acknowledged; while another image is in STAGE
it waits (R492). `img.failed` counts
the other targets that do not hold the image. -/
def State.doFwImage (s : State) (p : Pkt) (img : ImageIn) : State :=
  let scope := fld p.arg0 1 0
  if scope = 0 ∧ s.fab.bcast.isSome then s
  else if scope = 0 then
    let r := (s.stageWhole p.pay).installImage img
    match r.2 with
    | some c => r.1.endPkt p c (mkFld 63 32 1)
    | none => (r.1.endPkt p pktOk (mkFld 31 0 1)).leaveMinimal
  else if scope = 3 ∨ !s.isEntry then s.endPkt p pktInvalid 0
  else if !p.started then
    if s.fab.bcast.isSome then s
    else
      let seq := fld (wordAt (wordsOfBytes (p.pay.take 64)) 3) 63 32
      let s : State := { s with
        hub := s.hub.updPkt p.id (fun p => { p with started := true })
        fab := { s.fab with bcast := some ⟨seq, scope = 2, s.fwTargets (scope = 2), [], [], []⟩ } }
      (s.stageWhole p.pay).fwSend p.pay
  else
    match s.fab.bcast with
    | none => s
    | some b =>
      if b.acked.length < (chunks 4096 p.pay).length then s.fwSend p.pay
      else
        let r := ({ s with fab := { s.fab with bcast := none } } : State).installImage img
        let bad := min (b.targets.length - 1) img.failed + b2n r.2.isSome
        r.1.endPkt p pktOk (mkFld 63 32 bad ||| mkFld 31 0 (b.targets.length - bad))

def execFwImage (id : Nat) (img : ImageIn) (s : State) : Out := onPkt id typeFwImage s (fun p => s.doFwImage p img)

end Sys2Proof.Machine
end

