-- ==== Sys2Proof/Machine/Tasks.lean ====
section
/-!
DEFINITION. RUN, SUSPEND and RESUME packets (R137, R143, R147, R279, R297 to R301, R345, R363, R455).
-/

namespace Sys2Proof.Machine

/-- A logical cluster that no task holds, that is neither migrating nor under Tune-up, and that has a physical cluster (R147). -/
def State.clusterFree (s : State) (l : Nat) : Bool :=
  (s.cluster l).free && (match s.start.phys l with | some p => !(s.start.cluster p).tuning | none => false)

/-! ## Borrowing (R297, R298) -/

/-- Ranges that tensor descriptors of a task cover: those that its Cassettes name. -/
def Job.taskRanges (j : Job) (task : Nat) : List (Nat × Nat) :=
  (((j.cassettes.filter (fun c => c.task = task)).flatMap (fun c => c.entries.flatMap j.named)).dedup.filterMap j.tensor?).flatMap Tensor.ranges

/-- A borrowing task that R298 refuses. -/
def Job.badBorrower (j : Job) (task lender me : Nat) : Bool :=
  let cs := j.cassettes.filter (fun c => c.task = task)
  let own := cs.map (·.cluster)
  let theirs := j.taskRanges lender
  j.stepped task || j.has task [.gramL, .gramR, .topiary, .optimise, .digest]
    || cs.any (fun c => c.entries.any (fun e =>
        meetAny (j.writeRanges me e) theirs
        || (e.op == .signal && !(if fld e.w2 63 52 = me then own.contains (fld e.w2 44 38) else (j.mods me).contains (fld e.w2 63 52)))))

/-- The lender's clusters as R297 asks: each holds the lender, PAUSED at HEAD 0 after a rewind of R137. -/
def State.mayBorrow (s : State) (j : Job) (task : Nat) (lender : TaskKey) : Bool :=
  !(j.badBorrower task lender.task s.me) && (j.clusters task).all (fun l =>
    let d := (s.cluster l).drl
    d.holder == some lender && (s.cluster l).under.isNone && d.st == .paused && d.rewound && d.head == 0 && d.flights.isEmpty && d.ahead.isEmpty)

/-! ## RUN -/

/-- A cluster takes the task at entry 0; the lender's state stays beneath a borrower's (R112, R299). The package's DRL values
are committed (R143). The step bit starts clear, as after a rewind (R210; DEDUCED, log 46). -/
def Cluster.take (c : Cluster) (key : TaskKey) (drl : Option (Nat × Nat)) (borrow : Bool) : Cluster :=
  let c := { c with
    under := if borrow then some c.drl else none
    lentCfg := c.cfg
    lentShadow := c.shadow
    drl := Drl.start key
    chn := { c.chn with stepNf := false }
    gone := [] }
  match drl with
  | some (m, w) => let v := mkFld 14 8 m ||| mkFld 6 0 w; { c with cfg := v, shadow := v }
  | none => c

/-- A solver cycle begins (R345, R359): every problem of the module, with the SHIFT committed. -/
def Sol.begin (x : Sol) (ls : List Nat) : Sol :=
  { x with
    cycleOn := true, closing := false, recorded := false, cycle := (x.cycle + 1) % 2 ^ 64, shift := fld x.cfg 7 0
    smalls := x.smalls.map (fun p => p.begin ((x.cycle + 1) % 2 ^ 64)), larges := x.larges.map (fun p => p.begin ((x.cycle + 1) % 2 ^ 64)), decided := [], deadlineStop := [], rounds := ls.map (fun l => (l, 0))
    counts := List.replicate 6 0, factNumeric := 0, factAbandoned := 0 }

/-- The step record of a job written to its place (R279). -/
def State.writeRec (s : State) (j : Job) : State :=
  match j.param, s.hub.srec j.ctx j.handle with
  | some p, some r => s.hubStore [(p.stepRec, r.bytes)]
  | _, _ => s

/-- A job's step record changed, and written. -/
def State.updRec (s : State) (j : Job) (f : StepRec → StepRec) : State :=
  match s.hub.srec j.ctx j.handle with
  | some r => ({ s with hub := { s.hub with recs := assocSet s.hub.recs (j.ctx, j.handle) (f r) } } : State).writeRec j
  | none => s

/-- A RUN accepted: the task starts on its clusters. -/
def State.startTask (s : State) (p : Pkt) (j : Job) (d : TaskDesc) (t : Task) (lender : Option Nat) : State :=
  let ls := j.clusters p.task
  let s := s.freeHelds (fun h => h.key = t.key && h.stale)
  let s := ls.foldl (fun s l => (s.zeroStores l).updCluster l (fun c => c.take t.key j.drl lender.isSome)) s
  let s := t.early.foldl (fun (s : State) q => s.updDrl q.1 (fun d => { d with early := d.early ++ [q.2] })) s
  let s := s.updTask t.key (fun t => { t with
    st := .running, order := s.hub.runs, step := t.next, attempt := 1, done := 0, dlOn := d.dlEn, expired := false,
    outcome := none, copWait := false, saved := [], lender, runPkt := some p.id, suspPkt := none,
    early := [] })
  let s : State := { s with hub := { (s.hub.updPkt p.id (fun p => { p with started := true })) with
    runs := s.hub.runs + 1, barred := s.hub.barred.filter (· ≠ p.ctx), dead := s.hub.dead.filter (fun d => d.1 ≠ p.key) } }
  let s := if j.has p.task [.optimise] then s.updRec j (fun r => { r with step := t.next, attempt := 1 }) else s
  match (if j.isSolver p.task then j.sol else none) with
  | some plan =>
    let s : State := { s with sol := (s.sol.recall plan s.mem).begin ls }
    s.store (plan.records s.sol)
  | none => s

/-- RUN (R455, R297, R344): refused where a cluster is not free, or where a borrowing RUN breaks R297 or R298; a solver cycle
waits until no delta packet is pending. -/
def State.doRun (s : State) (p : Pkt) : State :=
  if p.started then s
  else
    match s.job p.ctx p.job, s.pktTask p with
    | some j, some t =>
      match j.tasks[p.task]? with
      | none => s.endPkt p pktInvalid 0
      | some d =>
        if t.st ≠ .idle then s.endPkt p pktState 0
        else if bit p.arg0 16 then
          (let lender : TaskKey := ⟨p.ctx, p.job, fld p.arg0 15 0⟩
           if lender ≠ t.key ∧ s.mayBorrow j p.task lender then s.startTask p j d t (some lender.task) else s.endPkt p refuseBorrow 0)
        else if !((j.clusters p.task).all s.clusterFree) then s.endPkt p pktState 0
        else if j.isSolver p.task ∧ s.sol.pend ≠ [] then s
        else s.startTask p j d t none
    | _, _ => s.endPkt p pktState 0

def execRun (id : Nat) (s : State) : Out := onPkt id typeRun s s.doRun

/-! ## SUSPEND and RESUME -/

/-- SUSPEND (R147, R301, R363): every cluster of the task is asked to stop. -/
def State.doSuspend (s : State) (p : Pkt) : State :=
  if p.started then s
  else
    match s.job p.ctx p.job, s.pktTask p with
    | some j, some t =>
      if j.isSolver t.key.task then s.endPkt p refuseSuspend 0
      else if t.lender.isSome then s.endPkt p refuseBorrow 0
      else if t.st ≠ .running then s.endPkt p pktState 0
      else
        let s := s.updTask t.key (fun t => { t with st := .suspending, suspPkt := some p.id })
        { s with
          clusters := s.clusters.map (fun c => c.updDrl t.key (fun d => { d with suspendReq := true }))
          hub := s.hub.updPkt p.id (fun p => { p with started := true }) }
    | _, _ => s.endPkt p pktState 0

def execSuspend (id : Nat) (s : State) : Out := onPkt id typeSuspend s s.doSuspend

/-- A cluster continues from its slot of the save area; stores that were not saved read as zero (R147; log 3). Its CHN words
and STEP_NF are those that the cluster has (DESIGN CHOICE, log 46). -/
def State.restoreCluster (s : State) (k : TaskKey) (x : Saved) : State :=
  let ws := s.slotWords' k x.cluster
  let a := storeBase + x.cluster * storeStride
  let s := if bit (wordAt ws 2) 62 then s.copyRange (s.saveSlot k x.cluster) a storeStride else s.zeroStores x.cluster
  s.updCluster x.cluster (fun c => { c with
    drl := x.drl.ofWords ws, under := none, cfg := wordAt ws 3 &&& drlCfgMask, shadow := wordAt ws 4 &&& drlCfgMask
    top := { c.top with queue := x.queue } })

/-- RESUME (R147): refused where a cluster of the task is not free. -/
def State.doResume (s : State) (p : Pkt) : State :=
  if p.started then s
  else
    match s.pktTask p with
    | some t =>
      if t.st ≠ .suspended ∨ !(t.saved.all (fun x => s.clusterFree x.cluster)) then s.endPkt p pktState 0
      else
        let step := match t.saved with | x :: _ => (wordAt (s.slotWords' t.key x.cluster) 1).toNat | [] => t.step
        let s := t.saved.foldl (fun s x => s.restoreCluster t.key x) s
        let s := s.updTask t.key (fun t => { t with st := .running, step, order := s.hub.runs, saved := [], runPkt := some p.id, suspPkt := none })
        { s with hub := { (s.hub.updPkt p.id (fun p => { p with started := true })) with
          runs := s.hub.runs + 1, barred := s.hub.barred.filter (· ≠ p.ctx), dead := s.hub.dead.filter (fun d => d.1 ≠ p.key) } }
    | none => s.endPkt p pktState 0

def execResume (id : Nat) (s : State) : Out := onPkt id typeResume s s.doResume

end Sys2Proof.Machine
end

