-- ==== Sys2Proof/Machine/LoadForm.lean ====
section
/-!
DEFINITION. The form of a job package (R110, R117, R143, R372, R565), as the loader reads it before it backs a page.
-/

namespace Sys2Proof.Machine

/-! ## Refusals (R149, R456) -/

/-- INDEX where none applies. -/
def noIndex : Nat := 0xFFFFFFFF

/-- A refusal of the loader: its code, logical cluster and index. -/
structure Rej where
  code : Nat
  cluster : Option Nat
  index : Nat
  deriving DecidableEq, Repr

/-- VALUE of a refused LOAD (R456). -/
def Rej.value (r : Rej) (me : Nat) : Word :=
  mkFld 63 52 me ||| (match r.cluster with | some l => mkFld 51 45 l ||| mkFld 44 44 1 | none => 0) ||| mkFld 31 0 r.index

/-- What a check of the loader answers. -/
abbrev Ld (α : Type) := Except Rej α

/-- A condition that the loader asks for. -/
def need (ok : Bool) (code : Nat) (index : Nat := noIndex) (cluster : Option Nat := none) : Ld Unit :=
  if ok then .ok () else .error ⟨code, cluster, index⟩

def Chk.ld {α : Type} (c : Chk α) (index : Nat) (cluster : Option Nat := none) : Ld α :=
  match c with
  | .ok a => .ok a
  | .bad k => .error ⟨k, cluster, index⟩

/-- A condition on each element of a list, with its number. -/
def eachIx {α : Type} (l : List α) (f : α → Nat → Ld Unit) : Ld Unit := l.zipIdx.forM (fun p => f p.1 p.2)

/-! ## The package -/

/-- A record of the Cassette directory. -/
structure DirRec where
  task : Nat
  cluster : Nat
  count : Nat
  off : Nat
  deriving DecidableEq, Repr

/-- A job package as its header and parts give it (R565). -/
structure Pkg where
  seed : Word
  drl : Option (Nat × Nat)
  regions : List Region
  tasks : List TaskDesc
  tensors : List Tensor
  chains : List (List Word)
  reds : List RedDesc
  streams : List StreamDesc
  exchs : List ExchDesc
  opts : List OptLayer
  slots : List Slot
  tops : List TopDesc
  cassettes : List Cassette
  shard : Option ShardHdr
  param : Option ParamPlan
  curv : Option CurvPlan
  sol : Option SolHdr
  items : List (Nat × List Byte)
  deriving DecidableEq, Repr

def sliceOf (pay : List Byte) (p : Nat × Nat) : List Byte := (pay.drop p.1).take p.2

/-- Entry sizes of the table parts; 0 marks a header part. -/
def partSize : Nat → Nat
  | 1 | 2 => 64
  | 3 => 256
  | 4 | 5 | 6 | 7 | 9 | 15 => 32
  | 8 => 128
  | 10 => 16
  | _ => 0

/-- Bytes that a header part must hold (R224, R281, R306, R336, R372). -/
def headerSize : Nat → Nat
  | 0 | 13 => 16
  | 11 | 12 | 14 => 64
  | _ => 0

/-- The parts of the header: within the payload, aligned, and whole (R117, R565). -/
def partsOf (pay : List Byte) (w : List Word) : Ld (List (Nat × Nat)) := do
  let ps := (List.range 16).map (fun k => ((wordAt w (4 + 2 * k)).toNat, (wordAt w (5 + 2 * k)).toNat))
  eachIx ps (fun p k => do
    need (p.2 == 0 || (p.1 % 64 == 0 && p.1 + p.2 ≤ pay.length)) refusePackage
    need (partSize k == 0 || p.2 % max 1 (partSize k) == 0) refusePackage
    need (p.2 == 0 || headerSize k ≤ p.2) refusePackage
    need (!(1 ≤ k && k ≤ 9) || p.2 / max 1 (partSize k) ≤ 65535) refuseDescriptor)
  return ps

/-- The rows of a table part, word by word. -/
def rowsOf (pay : List Byte) (ps : List (Nat × Nat)) (k : Nat) : List (List Word) :=
  (chunks (max 1 (partSize k)) (sliceOf pay (ps.getD k (0, 0)))).map wordsOfBytes

/-- The words of a header part; none where the part is absent. -/
def headOf (pay : List Byte) (ps : List (Nat × Nat)) (k : Nat) : Option (List Word) :=
  if (ps.getD k (0, 0)).2 = 0 then none else some (wordsOfBytes (sliceOf pay (ps.getD k (0, 0))))

/-- A whole table parsed; INDEX names the first row that fails. -/
def parseRows {α : Type} (f : List Word → Chk α) (rows : List (List Word)) : Ld (List α) :=
  rows.zipIdx.mapM (fun r => (f r.1).ld r.2)

def parseHead {α : Type} (f : List Word → Chk α) (h : Option (List Word)) : Ld (Option α) :=
  match h with
  | none => .ok none
  | some w => do return some (← (f w).ld noIndex)

/-- The region records (R372). -/
def regionsOf (pay : List Byte) (h : List Word) : Ld (List Region) := do
  let n := fld (wordAt h 0) 31 0
  let off := fld (wordAt h 1) 51 0
  need (n != 0) refuseZero
  need (n ≤ 65535 && fld (wordAt h 0) 63 32 == 0 && fld (wordAt h 1) 63 52 == 0 && off % 32 == 0) refuseRegion
  need (off + 32 * n ≤ pay.length) refusePackage
  parseRows Region.parse ((chunks 32 (sliceOf pay (off, 32 * n))).map wordsOfBytes)

/-- DRL values (R143). -/
def drlOf (w2 : Word) : Ld (Option (Nat × Nat)) := do
  let m := fld w2 14 8
  let v := fld w2 6 0
  if bit w2 63 then do
    need (m != 0 && v != 0) refuseZero
    need (m ≤ 64 && v ≤ 64) refuseDescriptor
    return some (m, v)
  else do
    need (m == 0 && v == 0) refusePackage
    return none

/-- A record of the Cassette directory (R110, R565). -/
def dirOf (pay : List Byte) (ntasks : Nat) (w : List Word) (k : Nat) : Ld DirRec := do
  let w0 := wordAt w 0
  let d : DirRec := ⟨fld w0 47 32, fld w0 63 57, fld w0 16 0, (wordAt w 1).toNat⟩
  need (d.count != 0) refuseZero noIndex (some d.cluster)
  need (d.count ≤ 65536) 0x0103 noIndex (some d.cluster)
  need (fld w0 56 48 == 0 && fld w0 31 17 == 0 && d.off % 32 == 0 && d.off + 32 * d.count ≤ pay.length) refusePackage k
  need (d.task < ntasks) refuseDescriptor k
  return d

/-- The entries of a Cassette (R113, R116). -/
def cassetteOf (pay : List Byte) (d : DirRec) : Ld Cassette := do
  let rows := (chunks 32 (sliceOf pay (d.off, 32 * d.count))).map wordsOfBytes
  let es ← rows.zipIdx.mapM (fun r => (Entry.parse r.1).ld r.2 (some d.cluster))
  return ⟨d.task, d.cluster, es, []⟩

/-- A load-payload item (R565). -/
def itemOf (pay : List Byte) (w : List Word) (k : Nat) : Ld (Nat × List Byte) := do
  let dst := (wordAt w 0).toNat
  let off := (wordAt w 1).toNat
  let len := (wordAt w 2).toNat
  need (wordAt w 3 == 0 && dst % 64 == 0 && off + len ≤ pay.length) refusePackage k
  return (dst, sliceOf pay (off, len))

/-- The curvature plan's header (R224, R225): with slots, its stride is not zero. -/
def curvOf (h : Option (List Word)) (slots : List Slot) : Ld (Option CurvPlan) := do
  match h with
  | none => do
    need slots.isEmpty refuseZero
    return none
  | some w => do
    let c : CurvPlan := ⟨fld (wordAt w 0) 51 0, fld (wordAt w 1) 63 32⟩
    need (slots.isEmpty || c.stride != 0) refuseZero
    need (fld (wordAt w 0) 63 52 == 0 && fld (wordAt w 1) 31 0 == 0 && c.base % 4096 == 0 && c.stride % 4096 == 0) refuseTopiary
    return some c

/-- A package read (R565): its header first, then its tables and Cassettes. -/
def Pkg.read (pay : List Byte) : Ld Pkg := do
  let w := wordsOfBytes (pay.take 288)
  let w0 := wordAt w 0
  let w2 := wordAt w 2
  need (288 ≤ pay.length && fld w0 63 32 == 0x4757504B && fld w0 31 0 == 0 && fld w2 62 15 == 0 && !(bit w2 7) && wordAt w 3 == 0)
    refusePackage
  let ps ← partsOf pay w
  let drl ← drlOf w2
  let rows := rowsOf pay ps
  let head := headOf pay ps
  let regions ← regionsOf pay ((head 0).getD [])
  let items ← (rows 15).zipIdx.mapM (fun r => itemOf pay r.1 r.2)
  let tasks ← parseRows TaskDesc.parse (rows 1)
  let dir ← (rows 10).zipIdx.mapM (fun r => dirOf pay tasks.length r.1 r.2)
  need (noDup (dir.map (fun d => (d.task, d.cluster)))) refusePackage
  let cassettes ← dir.mapM (cassetteOf pay)
  let tensors ← parseRows Tensor.parse (rows 2)
  let reds ← parseRows RedDesc.parse (rows 4)
  let streams ← parseRows StreamDesc.parse (rows 5)
  let exchs ← parseRows ExchDesc.parse (rows 6)
  let opts ← parseRows OptLayer.parse (rows 7)
  let slots ← parseRows Slot.parse (rows 8)
  let tops ← parseRows TopDesc.parse (rows 9)
  let shard ← parseHead ShardHdr.parse (head 11)
  let param ← parseHead ParamPlan.parse (head 12)
  let curv ← curvOf (head 13) slots
  let sol ← parseHead SolHdr.parse (head 14)
  return { seed := wordAt w 1, drl, regions, tasks, tensors, chains := rows 3, reds, streams, exchs, opts, slots, tops,
           cassettes, shard, param, curv, sol, items }

end Sys2Proof.Machine
end

