-- ==== Sys2Proof/Machine/LoadPlace.lean ====
section
/-!
DEFINITION. The loader's backing of a job (R370, R373 to R375, R441): near-tier and HBM frames by claim, zeros, and the load
payloads.
-/

namespace Sys2Proof.Machine

/-- What the loader has backed so far: the pages, the job's own pages, and the tier of each layer's SAVED and GATHER regions. -/
structure Back where
  pages : Pages
  mine : List Nat
  saved : List (Nat × Bool)
  gather : List (Nat × Bool)
  /-- HBM pages that found no frame, by chiplet -/
  short : List (Nat × Nat)
  /-- pages of Cassette regions, by logical cluster -/
  cas : List (Nat × List Nat)
  deriving DecidableEq, Repr

/-- Pages of a region. -/
def Region.pages (r : Region) : List Nat := pagesOf r.base r.bytes

def Region.chip (r : Region) : Nat := r.base / chipStride

/-- Pages take near frames of a chiplet; none where they do not all fit. -/
def Pages.takeNear (p : Pages) (c : Nat) (pages : List Nat) : Option Pages :=
  pages.foldl (fun o g =>
    match o with
    | none => none
    | some (p : Pages) => (p.freeNear c).map (fun f => { p with map := (g, f) :: p.map })) (some p)

/-- Near frames of a chiplet that are free. -/
def Pages.nearLeft (p : Pages) (c : Nat) : Nat :=
  ((List.range nearFrames).filter (fun n => !(p.frameUsed (.near c n)) && !(c == 0 && n < reservedNear))).length

/-- INDEX of REFUSE.NO_FIT (R456). -/
def noFit (c short : Nat) : Rej := ⟨refuseNoFit, none, c * 2 ^ 29 + short % 2 ^ 29⟩

/-- Pages that must stand in the near tier (R374, ranks 1 and 2). -/
def Back.near (b : Back) (c : Nat) (pages : List Nat) : Ld Back :=
  match b.pages.takeNear c pages with
  | some p => .ok { b with pages := p, mine := b.mine ++ pages }
  | none => .error (noFit c (pages.length - b.pages.nearLeft c))

/-- Pages of an HBM claim; pages of the HDM window keep their own frames (R366). -/
def Back.hbm (b : Back) (pages : List Nat) : Back :=
  pages.foldl (fun (b : Back) g =>
    if inHdm g then { b with mine := b.mine ++ [g] }
    else
      match b.pages.freeHbm g with
      | some f => { b with pages := { b.pages with map := (g, f) :: b.pages.map }, mine := b.mine ++ [g] }
      | none =>
        let c := g / chipStride
        { b with short := assocSet b.short c ((assoc b.short c).getD 0 + 1) }) b

/-- Regions that all take near frames, or none where one does not fit. -/
def Back.tryNear (b : Back) (rs : List Region) : Option Back :=
  rs.foldl (fun o r =>
    match o with
    | none => none
    | some (b : Back) =>
      (b.pages.takeNear r.chip r.pages).map (fun p => { b with pages := p, mine := b.mine ++ r.pages })) (some b)

/-- Free pages of the system area, lowest first (R370). -/
def Pages.sysPages (p : Pages) (n : Nat) : List Nat :=
  (((List.range 2048).map (fun i => sysBase + i * pageBytes)).filter (fun g => (assoc p.map g).isNone)).take n

/-- Rank 1: the Cassette region of each logical cluster, one page for each 65,536 entries or part (R111, R370). -/
def Back.cassettes (b : Back) (cs : List Cassette) : Ld Back :=
  (cs.map (·.cluster)).dedup.foldlM (fun b l => do
    let n := ceilDiv (sumNat ((cs.filter (fun c => c.cluster = l)).map (fun c => c.entries.length))) 65536
    let gs := b.pages.sysPages n
    need (gs.length == n) refuseNoFit (l / 16 * 2 ^ 29 + (n - gs.length))
    let b ← b.near (l / 16) gs
    return { b with cas := b.cas ++ [(l, gs)] }) b

/-- Layers of a hint, from the highest down; the first that does not fit in the near tier and every lower one go to HBM (R294,
R317, R374). Answers the backing and each layer's tier. -/
def Back.layers (b : Back) (rs : List Region) : Back × List (Nat × Bool) :=
  let ls := sortBy (fun x y => y ≤ x) ((rs.map (·.layer)).dedup)
  let r := ls.foldl (fun (acc : Back × List (Nat × Bool) × Bool) l =>
    let mine := rs.filter (fun r => r.layer = l)
    match (if acc.2.2 then acc.1.tryNear mine else none) with
    | some b => (b, acc.2.1 ++ [(l, true)], true)
    | none => (mine.foldl (fun b r => b.hbm r.pages) acc.1, acc.2.1 ++ [(l, false)], false)) (b, [], true)
  (r.1, r.2.1)

/-- A job backed by the ranks of R374. -/
def Pages.back (p : Pages) (cs : List Cassette) (rs : List Region) : Ld Back := do
  let of (h : Hint) : List Region := rs.filter (fun r => r.hint = h)
  let b ← Back.cassettes ⟨p, [], [], [], [], []⟩ cs
  let b ← (rs.filter (fun r => r.hint = .near || r.hint = .window)).foldlM (fun (b : Back) r => b.near r.chip r.pages) b
  let sv := b.layers (of .saved)
  let ga := sv.1.layers (of .gather)
  let b := (of .prefer).foldl (fun (b : Back) r => match b.tryNear [r] with | some b => b | none => b.hbm r.pages) ga.1
  let b := (of .hbm).foldl (fun (b : Back) r => b.hbm r.pages) b
  match sortBy (fun x y => x.1 ≤ y.1) b.short with
  | [] => return { b with saved := sv.2, gather := ga.2 }
  | x :: _ => .error (noFit x.1 x.2)

/-- Region checks of R373 and R441: no overlap in the job, with other jobs, or with an open ring's buffers. -/
def State.regionsOk (s : State) (rs : List Region) : Ld Unit := do
  let meet (a b : Region) : Bool := meetRange a.base a.bytes (b.base, b.bytes)
  eachIx rs (fun r k => do
    need (!((rs.take k).any (meet r)) && !(s.allRegions.any (meet r))) refuseRegion k
    need (!(inHdm r.base) || !(s.hub.rings.any (fun q =>
      q.2.st != .closed && meetAny [(hdmOffset r.base, r.bytes)] q.2.buffers))) refuseRegion k)

/-- The 4 words of an entry (R113, R114). -/
def Entry.words (e : Entry) : List Word :=
  [mkFld 63 56 e.op.code ||| mkFld 55 55 (b2n e.reord) ||| mkFld 54 54 (b2n e.mig) ||| mkFld 53 51 e.fence
      ||| mkFld 50 50 (b2n e.sigOn) ||| mkFld 49 48 e.rnd ||| mkFld 47 47 (b2n e.waitEn) ||| mkFld 46 41 e.waitCtr
      ||| mkFld 40 35 e.sigCtr ||| mkFld 31 24 e.mask ||| mkFld 23 0 e.waitVal,
   mkFld 63 48 e.opa ||| mkFld 47 32 e.opb ||| mkFld 31 16 e.opd ||| mkFld 15 0 e.aux, e.w2, e.w3]

/-- The Cassettes copied into their regions (R111). -/
def Back.casWrites (b : Back) (cs : List Cassette) : List (Nat × List Byte) :=
  b.cas.flatMap (fun x =>
    let bs := (cs.filter (fun c => c.cluster = x.1)).flatMap (fun c => c.entries.flatMap (fun e => bytesOfWords e.words))
    x.2.zipIdx.map (fun p => (p.1, (bs.drop (pageBytes * p.2)).take pageBytes)))

/-- Memory once the job's pages hold +0 and its load payloads (R375, R565). -/
def State.landJob (s : State) (b : Back) (cs : List Cassette) (items : List (Nat × List Byte)) : State :=
  let mine (a : Nat) : Bool := b.mine.contains (pageOf a)
  { s with
    pages := b.pages
    mem := Cells.writeAll (b.mine.foldl (fun m p => Cells.zero m p pageBytes) s.mem) (b.casWrites cs ++ items)
    tags := s.tags.filter (fun t => !(mine t.1))
    poison := s.poison.filter (fun w => !(mine w)) }

/-- The regions checked, the job backed and its payloads written, in a state that only an accepted load keeps. -/
def State.placeJob (s : State) (p : Pkg) (cs : List Cassette) : Ld (State × Back) := do
  s.regionsOk p.regions
  let b ← s.pages.back cs p.regions
  eachIx p.items (fun i k => need (inRegions p.regions i.1 i.2.length) refusePackage k)
  return (s.landJob b cs p.items, b)

end Sys2Proof.Machine
end

