-- ==== Sys2Proof/Machine/LoadEntry.lean ====
section
/-!
DEFINITION. The loader's checks of entries, tensors, chains, streams and reductions (R116, R117, R120, R129, R132, R134, R136,
R142, R144, R161, R163, R169, R191, R195, R201, R207, R210, R373, R378 to R383, R386, R413).
-/

namespace Sys2Proof.Machine

/-! ## Checks over every entry -/

/-- A condition on every entry of every Cassette, by Cassette and then by entry. -/
def Job.eachEntry (j : Job) (f : Cassette → Entry → Nat → Ld Unit) : Ld Unit :=
  j.cassettes.forM (fun c => eachIx c.entries (fun e i => f c e i))

def inTab (i n : Nat) : Bool := i == noIdx || i < n

/-- TILE_MASK and FENCE.TILE (R116, R144). -/
def Job.maskOk (j : Job) (c : Cassette) (e : Entry) (i : Nat) : Ld Unit := do
  let tiles := e.op.isMatrix || j.h16Copies e
  need (tiles || (e.mask == 0 && e.fence != 1)) refuseEntry i (some c.cluster)
  need (!tiles || e.mask != 0) refuseZero i (some c.cluster)

/-- Indices within their tables (R117). -/
def Job.indexOk (j : Job) (c : Cassette) (e : Entry) (i : Nat) : Ld Unit :=
  let nt := j.tensors.length
  let aux : Bool :=
    match e.op with
    | .mm | .mmTa | .mmTb | .chain => inTab e.aux j.chains.length
    | .reduce | .collective => decide (e.aux < j.reds.length)
    | .topiary => decide (e.aux < j.tops.length)
    | .stream | .release | .send => decide (e.aux < j.streams.length)
    | .exchange => decide (e.aux < j.exchs.length)
    | .optimise | .digest => decide (e.aux < j.opts.length)
    | .gramL | .gramR => decide (fld e.w2 15 0 < j.slots.length)
    | _ => true
  need (aux && inTab e.opa nt && inTab e.opb nt && inTab e.opd nt) refuseDescriptor i (some c.cluster)

/-- Indices that descriptors name (R117). -/
def Job.descIndexOk (j : Job) (nregions : Nat) : Ld Unit := do
  let nt := j.tensors.length
  eachIx j.reds (fun r k => need (inTab r.stage nt && inTab r.amaxList nt) refuseDescriptor k)
  eachIx j.tops (fun t k => need (t.slot < j.slots.length && inTab t.tenA nt && inTab t.tenB nt) refuseDescriptor k)
  eachIx j.streams (fun x k =>
    match x with
    | .stream w _ _ _ _ v => need (w < nregions && v < nt) refuseDescriptor k
    | .transfer _ _ _ => .ok ())
  eachIx j.exchs (fun x k => need (inTab x.route nt && x.place < nt && inTab x.stats nt) refuseDescriptor k)
  eachIx j.opts (fun l k =>
    need (l.masterC < nt && l.masterU < nt && l.grad < nt && inTab l.scr nt && inTab l.m1C nt && inTab l.m1U nt && inTab l.m2C nt
      && inTab l.m2U nt && inTab l.lslot j.slots.length && inTab l.rslot j.slots.length) refuseDescriptor k)

/-- Operands that the opcode needs (R115, R150, R191). -/
def Entry.hasOperands (e : Entry) : Bool :=
  let h (i : Nat) : Bool := i != noIdx
  match e.op with
  | .mm | .mmTa | .mmTb => h e.opa && h e.opb && h e.opd
  | .gramL | .gramR | .send => h e.opa
  | .chain => h e.opa && h e.opd && h e.aux
  | .reduce | .copy | .collective | .exchange => h e.opa && h e.opd
  | .stream => h e.opd
  | _ => true

/-! ## Tensors -/

/-- The store of a logical cluster that a range lies in whole. -/
def storeOf (a n : Nat) : Option Nat :=
  match placeOf a, placeOf (a + n - 1) with
  | .store l _, .store k _ => if l = k then some l else none
  | _, _ => none

/-- A range that an entry or a descriptor names: whole within the job's regions, or in one cluster's store (R373). -/
def backedOk (rs : List Region) (a n : Nat) : Bool := inRegions rs a n || (storeOf a n).isSome

/-- Scale records, tensors' ranges and overlaps (R71, R77, R120, R373), the alignment of BASE, which the view of a hyperparameter record
breaks under a code of its own (R118, R295), and octet boundaries of MW40, whose code the spec does not give (R56; log 45). -/
def Job.tensorsOk (j : Job) (m : Cells) : Ld Unit := do
  eachIx j.tensors (fun t k => do
    need (t.ranges.all (fun r => backedOk j.regions r.1 r.2)) refuseRegion k
    need (!t.srecEn || backedOk j.regions t.srec 128) refuseRegion k
    need (t.base % 64 == 0) (if j.opts.any (fun l => l.hyper == t.base) then refuseParam else refuseDescriptor) k
    need (t.fmt != .mw40 || j.regions.all (fun r => !(r.holds t.base 1) || (t.base - r.base) % 40 == 0)) refuseDescriptor k
    match (if t.srecEn then srecRefusal m t.srec else none) with
    | some c => .error ⟨c, none, k⟩
    | none => .ok ())
  eachIx j.tensors (fun t k =>
    need ((j.tensors.take k).all (fun u => u.haz == t.haz || !(meetAny u.ranges t.ranges))) refuseAlias k)

/-- Store views and hyperparameter records in a store belong to the cluster whose entries use them (R161, R367, R373). -/
def Job.storesOk (j : Job) (c : Cassette) (e : Entry) (i : Nat) : Ld Unit := do
  let mine (r : Nat × Nat) : Bool := match storeOf r.1 r.2 with | some l => l == c.cluster | none => true
  let own (k : Nat) : Bool :=
    match j.tensor? k with
    | some t => (t.ranges ++ (if t.srecEn then [(t.srec, 128)] else [])).all mine
    | none => true
  need ([e.opa, e.opb, e.opd].all own) refuseOperand i (some c.cluster)
  need ((j.named e).all own) refuseRegion i (some c.cluster)
  need (e.op != .optimise || (match j.opts[e.aux]? with | some l => mine (l.hyper, 32) | none => true)) refuseRegion i (some c.cluster)

/-! ## Control flow and counters -/

/-- Iterations and the end of a Cassette (R134, R136). -/
def Cassette.flowOk (c : Cassette) : Ld Unit :=
  eachIx c.entries (fun e i => do
    let last := decide (i + 1 = c.entries.length)
    need ((e.op == .stepEnd || e.op == .halt) == last) refuseFlow i (some c.cluster)
    if e.op = .iterEnd then do
      need (fld e.w2 23 0 != 0) refuseZero i (some c.cluster)
      let t := fld e.w2 63 48
      need (t < i && !(((c.entries.drop t).take (i - t)).any (fun x => x.op.endsWindow))) refuseFlow i (some c.cluster)
    else .ok ())

def Cassette.steps (c : Cassette) : Bool := match c.entries.getLast? with | some e => e.op == .stepEnd | none => false

/-- Every Cassette of a task ends alike, and HALT goes with one step (R136). -/
def Job.endsOk (j : Job) : Ld Unit :=
  eachIx j.tasks (fun t k =>
    let ends := (j.cassettes.filter (fun c => c.task = k)).map Cassette.steps
    need ((ends.all id || ends.all (!·)) && (ends.all id || t.steps == 1)) refuseFlow k)

/-- SIGNAL targets and control words (R129, R142, R444). On another module, whose Cassettes the loader does not see, a cluster counts as
in the task where the job names the module; and the words that the context may write are those of the clusters of the job's Cassettes,
since no task holds a cluster at load (DESIGN CHOICE, log 45). -/
def Job.targetsOk (j : Job) (me : Nat) (c : Cassette) (e : Entry) (i : Nat) : Ld Unit :=
  match e.op with
  | .signal => do
    need (fld e.w3 23 0 != 0) refuseZero i (some c.cluster)
    let m := fld e.w2 63 52
    need (if m = me then (j.clusters c.task).contains (fld e.w2 44 38) else (j.mods me).contains m) refuseSignal i (some c.cluster)
  | .ctlWrite =>
    let ok : Bool :=
      match regAt (fld e.w2 31 0) with
      | some r => r.forEntry && (match r with
          | .drlCfg l | .drlCommit l | .drlCmd l | .chnCfg l | .chnCommit l => j.cassettes.any (fun q => q.cluster = l)
          | _ => false)
      | none => false
    need ok refuseWord i (some c.cluster)
  | _ => .ok ()

/-- Increments that a task's Cassettes can deliver to a counter in one generation (R132). -/
def Job.deliveries (j : Job) (me task l k : Nat) : Nat :=
  sumNat ((j.cassettes.filter (fun c => c.task = task)).map (fun c => sumNat (c.entries.map (fun e =>
    (if c.cluster = l ∧ e.sigOn ∧ e.sigCtr = k then 1 else 0)
      + (if e.op = .signal ∧ fld e.w2 63 52 = me ∧ fld e.w2 44 38 = l ∧ fld e.w2 37 32 = k then fld e.w3 23 0 else 0)))))

/-- Waits of a task that lies on this module alone (R132). -/
def Job.waitsOk (j : Job) (me : Nat) (c : Cassette) (e : Entry) (i : Nat) : Ld Unit :=
  need (j.mods me != [me] || !e.waitEn || e.waitVal ≤ j.deliveries me c.task c.cluster e.waitCtr) refuseWait i (some c.cluster)

/-! ## Operands -/

/-- Formats of a tile product (R63). -/
def tilePair (a b : Fmt) : Bool :=
  let s8 (f : Fmt) : Bool := f == .s8e || f == .s8w
  (a == .s4 && b == .s4) || (s8 a && s8 b) || (a == .h16 && b == .h16)

/-- Operand formats and shapes of product, Gram, CHAIN and COPY entries (R163, R169, R201, R383), and the conversion of a COPY
(R82). -/
def Job.operandsOk (j : Job) (c : Cassette) (e : Entry) (i : Nat) : Ld Unit := do
  need e.hasOperands refuseOperand i (some c.cluster)
  let bad (ok : Bool) : Ld Unit := need ok refuseOperand i (some c.cluster)
  match e.op, j.tensor? e.opa, j.tensor? e.opd with
  | .mm, some a, some d | .mmTa, some a, some d | .mmTb, some a, some d =>
    match j.tensor? e.opb with
    | none => bad false
    | some b =>
      let ka := if e.op = .mmTa then a.rows else a.cols
      let r := if e.op = .mmTa then a.cols else a.rows
      let kb := if e.op = .mmTb then b.cols else b.rows
      let n := if e.op = .mmTb then b.rows else b.cols
      bad (tilePair a.fmt b.fmt && ka == kb && d.rows == r && d.cols == n
        && (!(bit e.w2 0) || (d.fmt == .f32 && e.aux == noIdx)))
  | .gramL, some a, _ | .gramR, some a, _ =>
    match j.slots[fld e.w2 15 0]? with
    | none => bad false
    | some s =>
      let held := if e.op = .gramL then a.rows else a.cols
      let data := if e.op = .gramL then a.lrows else a.lcols
      bad ((a.fmt == .s4 || a.fmt == .s8e || a.fmt == .s8w || a.fmt == .h16) && s.block % 128 == 0 && held == s.dim && data == s.ldim)
  | .chain, some a, some d => do
    bad (a.lrows == d.lrows && a.lcols == d.lcols)
    match j.tensor? e.opb with
    | some b => bad (b.lrows == d.lrows && b.lcols == d.lcols)
    | none => .ok ()
  | .copy, some a, some d => do
    bad (a.lrows == d.lrows && a.lcols == d.lcols)
    need (convOffered a.fmt d.fmt) refuseConv i (some c.cluster)
  | _, _, _ => .ok ()

/-! ## Chains -/

/-- Shapes and formats of what a chain names (R195). -/
def Job.chainShapes (j : Job) (ch : Chain) (d : Tensor) : Bool :=
  let fmtOk (t : Tensor) : Bool := t.fmt != .s4 && t.fmt != .bx48
  let side (k : Nat) : Bool := match j.tensor? k with | some t => fmtOk t && t.rows == d.rows && t.cols == d.cols | none => false
  let vec (byRow : Bool) (k : Nat) : Bool :=
    match j.tensor? k with
    | some t => fmtOk t && (if byRow then t.cols == 1 && t.rows == d.lrows else t.rows == 1 && t.cols == d.lcols)
    | none => false
  let out (byRow : Bool) (k : Nat) : Bool :=
    k == noIdx || (vec byRow k && (match j.tensor? k with | some t => t.fmt == .f32 | none => false))
  let ins (i : PIns) : Bool :=
    match i.op with
    | .ldv => vec (4 ≤ i.imm) (ch.vec.getD (i.imm % 4) noIdx)
    | .lds => side (ch.side.getD i.imm noIdx)
    | _ => true
  let stage (s : Stage) : Bool :=
    match s.kind with
    | .bias | .scale => s.scalar || vec s.byRow s.ref
    | .resid | .tap => side s.ref
    | .prog => (match j.chains[s.ref]? with
        | some w => (match parseProg w s.arg with | some p => p.all ins | none => false)
        | none => false)
    | _ => true
  let nout := (ch.colout.filter (· ≠ noIdx)).length
  ch.stages.all stage && ch.rowout.all (out true) && ch.colout.all (out false)
    && ch.side.all (fun k => k == noIdx || side k) && ch.vec.all (fun k => k == noIdx || vec true k || vec false k)
    && (nout == 0 || d.cols ≤ 32768 / nout)

/-- Every index of a chain lies in its table (R117, R150). -/
def Job.chainIndices (j : Job) (ch : Chain) : Bool :=
  let nt := j.tensors.length
  let stage (s : Stage) : Bool :=
    match s.kind with
    | .prog => s.ref < j.chains.length
    | .bias | .scale => s.scalar || inTab s.ref nt
    | .resid | .tap => inTab s.ref nt
    | _ => true
  ch.stages.all stage && (ch.rowout ++ ch.colout ++ ch.vec ++ ch.side).all (fun k => inTab k nt)

/-- Chain-table entries used as chains, and those used as programs. -/
def Job.chainUses (j : Job) : List Nat × List Nat :=
  let es := j.cassettes.flatMap (fun c => c.entries.filter (fun e =>
    (e.op == .mm || e.op == .mmTa || e.op == .mmTb || e.op == .chain) && e.aux != noIdx))
  ((es.map (·.aux)).dedup,
   es.flatMap (fun e => match j.chain e with
     | some c => c.stages.filterMap (fun s => if s.kind = .prog then some s.ref else none)
     | none => []))

/-- An entry's chain (R191 to R195). -/
def Job.chainOk (j : Job) (c : Cassette) (e : Entry) (i : Nat) : Ld Unit :=
  match e.op with
  | .mm | .mmTa | .mmTb | .chain =>
    if e.aux = noIdx then .ok ()
    else
      match j.chains[e.aux]?, j.tensor? e.opd with
      | some w, some d => do
        let ch ← (Chain.parse w).ld i (some c.cluster)
        need (j.chainIndices ch) refuseDescriptor i (some c.cluster)
        need (j.chainShapes ch d) refuseChain i (some c.cluster)
      | _, _ => need false refuseDescriptor i (some c.cluster)
  | _ => .ok ()

/-- The carry rule of R210: the last carrying COLLECTIVE has FENCE.CLUSTER, and no entry with NF_STEP follows it. -/
def Job.carryOk (j : Job) (c : Cassette) : Ld Unit :=
  let carries (e : Entry) : Bool := e.op == .collective && (match j.reds[e.aux]? with | some r => r.nfc | none => false)
  let steps (e : Entry) : Bool :=
    (e.op == .mm || e.op == .mmTa || e.op == .mmTb || e.op == .chain) && (match j.chain e with | some ch => ch.nfStep | none => false)
  match (c.entries.zipIdx.filter (fun p => carries p.1)).getLast? with
  | none => .ok ()
  | some p => do
    need (p.1.fence == 2) refuseChain p.2 (some c.cluster)
    eachIx c.entries (fun e i => need (i ≤ p.2 || !(steps e)) refuseChain i (some c.cluster))

/-! ## Streams -/

/-- A range lies within the union of ranges. -/
def covered (rs : List (Nat × Nat)) (a n : Nat) : Bool :=
  let to' := (sortBy (fun x y => x.1 ≤ y.1) rs).foldl (fun at' q => if q.1 ≤ at' ∧ at' < q.1 + q.2 then q.1 + q.2 else at') a
  decide (a + n ≤ to')

/-- Rows of a transfer descriptor that stay on this module (R379). -/
def StreamDesc.rowsHere (x : StreamDesc) (me : Nat) : List Nat :=
  match x with
  | .transfer n dst st => if dst / 2 ^ 52 = me then (List.range n).map (fun k => dst % 2 ^ 52 + k * st) else []
  | .stream _ _ _ _ _ _ => []

/-- A stream or transfer descriptor (R378 to R380). Rows of a transfer that stay on the module are backed by a region of the job or of a
loaded job, or lie in a store (R365; log 45). -/
def Job.streamOk (j : Job) (m : Cells) (me : Nat) (rs : List Region) (x : StreamDesc) (k : Nat) : Ld Unit :=
  match x with
  | .transfer _ _ _ => need ((x.rowsHere me).all (fun a => inRegions rs a 1 || (storeOf a 1).isSome)) refuseRegion k
  | .stream w slot src next list view =>
    match j.regions[w]?, j.tensor? view with
    | some r, some v => do
      need (r.hint == .window && slot < r.nslot) refuseStream k
      need (inRegions j.regions list (16 * next)) refuseRegion k
      let base := r.base + slot * r.slotBytes
      need (v.ranges.all (fun q => base ≤ q.1 && q.1 + q.2 ≤ base + r.slotBytes)) refuseStream k
      let es := extents m list next
      need (es.all Option.isSome) refuseStream k
      let es := (es.filterMap id).filter (fun x => x.len ≠ 0)
      let from' := (j.tensors.filter (fun t => t.haz = src)).flatMap Tensor.ranges
      let within (a n : Nat) : Bool := match placeOf a, placeOf (a + n - 1) with
        | .chip _ _, .chip _ _ => covered from' a n
        | _, _ => false
      need (es.all (fun x => x.dst + x.len ≤ r.slotBytes && within x.src x.len)) refuseStream k
      need ((es.zipIdx).all (fun p => (es.take p.2).all (fun y => !(meetRange p.1.dst p.1.len (y.dst, y.len))))) refuseStream k
    | _, _ => need false refuseDescriptor k

/-- The cluster that a WINDOW region belongs to: the one whose entries first name it (R378). -/
def Job.windowOwner (j : Job) (w : Nat) : Option Nat :=
  match j.regions[w]? with
  | none => none
  | some r =>
    (j.cassettes.find? (fun c => c.entries.any (fun e => (j.named e).any (fun k =>
      match j.tensor? k with | some t => t.ranges.any (fun q => meetRange q.1 q.2 (r.base, r.bytes)) | none => false)))).map (·.cluster)

/-- Entries that use streams and transfers (R378 to R382), and the rows of a SEND that stay on the module, whole (R365, R367). -/
def Job.streamUse (j : Job) (me : Nat) (rs : List Region) (c : Cassette) (e : Entry) (i : Nat) : Ld Unit :=
  let bad (ok : Bool) : Ld Unit := need ok refuseStream i (some c.cluster)
  match e.op with
  | .stream =>
    match j.streams[e.aux]? with
    | some (.stream _ _ _ _ _ v) => bad (e.opd == v)
    | _ => bad false
  | .release =>
    match j.streams[e.aux]? with
    | some (.stream _ _ _ _ _ _) => .ok ()
    | _ => bad false
  | .send =>
    match j.streams[e.aux]?, j.tensor? e.opa with
    | some (.transfer n dst st), some a => do
      bad (n ≤ a.rows && a.rowBytes ≤ st)
      need (((StreamDesc.transfer n dst st).rowsHere me).all (fun r => inRegions rs r a.rowBytes || storeOf r a.rowBytes == some c.cluster))
        refuseRegion i (some c.cluster)
    | _, _ => bad false
  | _ => .ok ()

/-- Views of a window are named by its owner's entries alone (R378). -/
def Job.windowsOk (j : Job) (c : Cassette) (e : Entry) (i : Nat) : Ld Unit :=
  need (j.regions.zipIdx.all (fun r => r.1.hint != .window || j.windowOwner r.2 == some c.cluster
    || (j.named e).all (fun k => match j.tensor? k with
        | some t => !(t.ranges.any (fun q => meetRange q.1 q.2 (r.1.base, r.1.bytes)))
        | none => true))) refuseStream i (some c.cluster)

/-- The window slot of a STREAM or RELEASE entry, and whether it is a STREAM. -/
def Job.slotUse (j : Job) (e : Entry) : Option ((Nat × Nat) × Bool) :=
  match e.op, j.streams[e.aux]? with
  | .stream, some (.stream w s _ _ _ _) => some ((w, s), true)
  | .release, some (.stream w s _ _ _ _) => some ((w, s), false)
  | _, _ => none

/-- STREAM and RELEASE alternate on each slot (R382). -/
def Job.alternates (j : Job) (c : Cassette) : Ld Unit := do
  let uses := c.entries.zipIdx.filterMap (fun p => (j.slotUse p.1).map (fun u => (u, p.2)))
  let r ← uses.foldlM (fun (held : List (Nat × Nat)) u => do
    need (u.1.2 != held.contains u.1.1) refuseStream u.2 (some c.cluster)
    return (if u.1.2 then u.1.1 :: held else held.filter (· ≠ u.1.1))) []
  need r.isEmpty refuseStream noIndex (some c.cluster)

/-! ## Buffer cycles (R386) -/

/-- Entries of the same Cassette that must complete before entry `i` becomes ready: earlier ones where it issues in order, and
those that the hazard rule orders it after. -/
def Job.waitsFor (j : Job) (c : Cassette) (i : Nat) : List Nat :=
  match c.entries[i]? with
  | none => []
  | some e => (List.range i).filter (fun k =>
      match c.entries[k]? with
      | some x => !e.reord || hazardsMeet (j.hazards x) (j.hazards e)
      | none => false)

/-- Entries that can raise the counter that an entry waits on: Cassette's cluster and index. -/
def Job.raisers (j : Job) (me task l : Nat) (e : Entry) : List (Nat × Nat) :=
  if !e.waitEn then []
  else (j.cassettes.filter (fun c => c.task = task)).flatMap (fun c => c.entries.zipIdx.filterMap (fun p =>
    if (c.cluster = l ∧ p.1.sigOn ∧ p.1.sigCtr = e.waitCtr)
        ∨ (p.1.op = .signal ∧ fld p.1.w2 63 52 = me ∧ fld p.1.w2 44 38 = l ∧ fld p.1.w2 37 32 = e.waitCtr)
      then some (c.cluster, p.2) else none))

/-- The RELEASE that last freed a STREAM's slot in the step. The first STREAM of a slot has none, since every slot is FREE at
a rewind (R382). -/
def Job.lastRelease (j : Job) (c : Cassette) (i : Nat) : Option Nat :=
  match c.entries[i]?.bind j.slotUse with
  | some (k, true) => ((List.range i).filter (fun n => match c.entries[n]?.bind j.slotUse with
      | some (k', false) => k' == k
      | _ => false)).getLast?
  | _ => none

/-- What an entry waits for, over all Cassettes of the task. -/
def Job.edges (j : Job) (me task : Nat) (n : Nat × Nat) : List (Nat × Nat) :=
  match j.cassette task n.1 with
  | none => []
  | some c =>
    (j.waitsFor c n.2).map (fun k => (n.1, k))
      ++ (match c.entries[n.2]? with | some e => j.raisers me task n.1 e | none => [])
      ++ (match j.lastRelease c n.2 with | some k => [(n.1, k)] | none => [])

/-- Nodes reached from a list of nodes. -/
def reach (edges : Nat × Nat → List (Nat × Nat)) : Nat → List (Nat × Nat) → List (Nat × Nat) → List (Nat × Nat)
  | 0, _, seen => seen
  | _ + 1, [], seen => seen
  | fuel + 1, x :: todo, seen =>
    if seen.contains x then reach edges fuel todo seen else reach edges fuel (edges x ++ todo) (x :: seen)

/-- No cycle passes a slot edge (R386). -/
def Job.bufferOk (j : Job) (me : Nat) (c : Cassette) (i : Nat) : Ld Unit :=
  match j.lastRelease c i with
  | none => .ok ()
  | some r =>
    let all := (j.cassettes.filter (fun q => q.task = c.task)).map (fun q => q.entries.length)
    let fuel := (sumNat all + 1) * (sumNat all + 2)
    need (!((reach (j.edges me c.task) fuel [(c.cluster, r)] []).contains (c.cluster, i))) refuseCycle i (some c.cluster)

/-! ## Reductions -/

/-- Two tensors have bytes in common. -/
def Job.meet (j : Job) (a b : Nat) : Bool :=
  match j.tensor? a, j.tensor? b with
  | some a, some b => a.ranges.any (fun x => b.ranges.any (meetRange x.1 x.2))
  | _, _ => false

/-- A tensor of an exported plane, or of its sum, for a slot of the layer (R229). -/
def Job.planesOf (j : Job) (l : OptLayer) : List Nat :=
  j.tops.filterMap (fun t => if (t.op = .export_ ∨ t.op = .fold) ∧ t.tenA ≠ noIdx ∧ (t.slot = l.lslot ∨ t.slot = l.rslot) then some t.tenA else none)

/-- Experts of the layer that a COLLECTIVE's group names an expert of (R325): the descriptor names no layer, so it is the expert layer whose
gradient or exported plane the entry writes or reads, and the layer with most experts where there is none (log 45). -/
def Job.experts (j : Job) (e : Entry) : Nat :=
  match j.shard with
  | none => 0
  | some p =>
    let xs := p.layers.filter (fun l => l.kind = 3)
    let mine := xs.filter (fun r => j.opts.any (fun l => l.layer == r.layer
      && (l.grad :: j.planesOf l).any (fun t => j.meet t e.opd || j.meet t e.opa)))
    maxNat ((if mine = [] then xs else mine).map (·.full))

/-- Grid indices of the group of a COLLECTIVE entry, seen from grid index `i`. -/
def Job.groupOf (j : Job) (p : ShardPlan) (e : Entry) (i : Nat) : List Nat :=
  match j.reds[e.aux]? with | some r => p.group r.group r.expert (j.experts e) i | none => []

/-- Member count of a COLLECTIVE's group on this module, or none where the module is no member (R325, R326). -/
def Job.groupSize (j : Job) (me : Nat) (r : RedDesc) (e : Entry) : Option Nat :=
  match j.shard with
  | none => if 1 ≤ r.group ∧ r.group ≤ 5 then some 1 else none
  | some p =>
    match p.indexOf me with
    | none => none
    | some k =>
      let g := j.groupOf p e k
      if g.contains k then some g.length else none

/-- Tensors that a vector of indices lists (R412). -/
def Job.amaxListed (j : Job) (m : Cells) (i : Nat) : List Nat :=
  match j.tensor? i with
  | some t => (List.range (max t.lrows t.lcols)).map (fun k =>
      if t.lrows = 1 then t.codeAt m 0 k else t.codeAt m k 0)
  | none => []

/-- A REDUCE or COLLECTIVE entry (R207, R412, R413). -/
def Job.redOk (j : Job) (m : Cells) (me : Nat) (c : Cassette) (e : Entry) (i : Nat) : Ld Unit :=
  let bad (ok : Bool) : Ld Unit := need ok refuseReduction i (some c.cluster)
  match e.op, j.reds[e.aux]?, j.tensor? e.opa, j.tensor? e.opd with
  | .reduce, some r, some a, some d =>
    let fmt : Bool := a.fmt == d.fmt && (if r.op ≤ 2 then a.fmt == .f32 || (a.fmt == .bx48 && r.op == 1 && !r.a64 && a.cols % 64 == 0)
      else a.fmt == .f32)
    let held : Nat × Nat := if r.axis = 0 then (a.rows, 1) else if r.axis = 1 then (1, a.cols) else (1, 1)
    let data : Nat × Nat := if r.axis = 0 then (a.lrows, 1) else if r.axis = 1 then (1, a.lcols) else (1, 1)
    bad (r.op ≤ 4 && r.group == 0 && !r.nfc && r.stage == noIdx && r.amaxList == noIdx && fmt
      && (d.rows, d.cols) == held && (d.lrows, d.lcols) == data)
  | .collective, some r, some a, some d =>
    match j.groupSize me r e with
    | none => need false (if j.shard.isSome && r.group != 0 then refuseShard else refuseReduction) i (some c.cluster)
    | some n => do
      let sum : Bool := r.op == 1 || r.op == 3 || r.op == 4
      let fmt : Bool := a.fmt == d.fmt && (match r.op with
        | 1 => a.fmt == .f32 || (a.fmt == .bx48 && !r.a64 && a.cols % 64 == 0)
        | 5 => true
        | _ => a.fmt == .f32)
      let times (x : Tensor) : Nat × Nat := if r.axis = 0 then (n * x.rows, x.cols) else (x.rows, n * x.cols)
      let shape : Bool := match r.op with
        | 5 => (d.rows, d.cols) == times a
        | 6 => (a.rows, a.cols) == times d
        | _ => d.rows == a.rows && d.cols == a.cols
      let gather : Bool := !(r.op == 5 && (a.fmt == .s8e || a.fmt == .s8w)) || (d.srec == a.srec && bit (Cells.word m a.srec) 7)
      let stage : Bool := r.op == 5 || (match j.tensor? r.stage with
        | some t => r.stage != noIdx && t.rows * t.rowBytes ≥ (if r.a64 then 8 else 4) * (a.rows * a.rowBytes)
        | none => false)
      let others := j.cassettes.any (fun q => q.cluster != c.cluster && q.entries.any (fun x => x.op == .collective && x.aux == e.aux))
      let listed := if r.amaxList = noIdx then [] else j.amaxListed m r.amaxList
      let list : Bool := r.amaxList == noIdx || (match j.tensor? r.amaxList with
        | some t => t.fmt == .i32 && (t.lrows == 1 || t.lcols == 1) && listed.length ≤ 256
        | none => false)
      need (listed.all (fun k => k < j.tensors.length)) refuseDescriptor i (some c.cluster)
      bad ((sum || r.op == 5 || r.op == 6) && r.group != 0 && (r.axis == 0 || (!sum && r.axis == 1)) && fmt && shape && gather && stage
        && !others && list)
  | .reduce, _, _, _ | .collective, _, _, _ => bad false
  | _, _, _, _ => .ok ()

/-- Scale records of the tensors that an entry writes. -/
def Job.writtenRecs (j : Job) (e : Entry) : List Nat :=
  ((j.uses e).2.filterMap j.tensor?).filterMap (fun t => if t.srecEn then some t.srec else none)

/-- Scale records that a COLLECTIVE lists (R412, R418). -/
def Job.listedRecs (j : Job) (m : Cells) (e : Entry) : List Nat :=
  if e.op = .collective then
    (match j.reds[e.aux]? with
    | some r => if r.amaxList = noIdx then [] else (j.amaxListed m r.amaxList).filterMap (fun k => (j.tensor? k).map (·.srec))
    | none => [])
  else []

/-- Grid indices of the modules that hold a shard or a replica of a tensor with a scale record: those that hold the expert of an expert
layer whose working copy it is, else every module of the task, since every module holds every other layer whole or in slices (R304;
log 45). -/
def Job.sharers (j : Job) (p : ShardPlan) (srec me : Nat) : List Nat :=
  let copies := j.cassettes.flatMap (fun c => c.entries.filterMap (fun e =>
    if e.op = .copy ∧ (j.writtenRecs e).contains srec then some e.opa else none))
  let expert := p.layers.find? (fun r => r.kind = 3 && j.opts.any (fun l => l.layer == r.layer && copies.contains l.masterC))
  let all := List.range p.modules.length
  match expert with
  | some r =>
    let ex (k : Nat) : List Nat :=
      let g := p.expertGroup (p.pos k).2.2
      expertsOf r.full g.length ((g.findIdx? (· = k)).getD 0)
    all.filter (fun k => (ex k).any (ex me).contains)
  | none => all

/-- Entry `b` becomes ready only after entry `a` has completed, as far as the Cassettes of the task say (R123, R128, R386). -/
def Job.follows (j : Job) (me task : Nat) (a b : Nat × Nat) : Bool :=
  let n := sumNat ((j.cassettes.filter (fun q => q.task = task)).map (fun q => q.entries.length))
  (reach (j.edges me task) ((n + 1) * (n + 2)) (j.edges me task b) []).contains a

/-- A GLOBAL scale record is written no later than the last COLLECTIVE that lists it, in its Cassette or behind a wait of another's, and where
the job has other modules some COLLECTIVE lists it, the last one in a group of every module that holds a shard or a replica; and a listed
record has such a COLLECTIVE (R413; log 45). -/
def Job.amaxOk (j : Job) (m : Cells) (me : Nat) (c : Cassette) : Ld Unit := do
  let bad (ok : Bool) (i : Nat) : Ld Unit := need ok refuseReduction i (some c.cluster)
  let all := (j.cassettes.filter (fun q => q.task = c.task)).flatMap (fun q => q.entries.zipIdx.map (fun p => (q.cluster, p)))
  let named := (j.reds.filter (fun r => r.amaxList ≠ noIdx)).flatMap (fun r => (j.amaxListed m r.amaxList).filterMap (fun k => (j.tensor? k).map (·.srec)))
  eachIx c.entries (fun e i => do
    bad (((j.writtenRecs e).filter (srecGlobal m)).all (fun r =>
      let lists := all.filter (fun p => (j.listedRecs m p.2.1).contains r)
      if lists.isEmpty then j.mods me == [me] && !(named.contains r)
      else lists.any (fun p => if p.1 = c.cluster then i ≤ p.2.2 else j.follows me c.task (c.cluster, i) (p.1, p.2.2)))) i
    let last := (j.listedRecs m e).filter (fun r => !((c.entries.drop (i + 1)).any (fun x => (j.listedRecs m x).contains r)))
    match j.shard.bind (fun p => (p.indexOf me).map (fun k => (p, k))) with
    | some (p, k) => bad (last.all (fun r => (j.sharers p r k).all (j.groupOf p e k).contains)) i
    | none => .ok ())

end Sys2Proof.Machine
end

