-- ==== Sys2Proof/Machine/LoadPlan.lean ====
section
/-!
DEFINITION. The loader's checks of tasks, curvature, parameter and shard plans and exchanges (R97, R121, R224, R225, R230, R259,
R262, R264, R265, R271, R279, R281, R283, R295, R307, R309, R315, R321, R326 to R328, R373, R429).
-/

namespace Sys2Proof.Machine

/-! ## Tasks -/

/-- Windows and the deadline within 40 bits of oscillator periods (R97), and the save area (R121, R373). -/
def State.tasksOk (s : State) (j : Job) (own : Nat) : Ld Unit :=
  eachIx j.tasks (fun t k => do
    need (!t.dlEn || windowOk s.start.hubOsc t.deadlineUs) 0x0130 k
    (j.clusters k).forM (fun l =>
      let osc := match s.start.phys l with | some p => (s.start.cluster p).osc | none => s.start.hubOsc
      need (windowOk osc t.entryWinUs && windowOk osc t.suspendWinUs) 0x0130 k (some l))
    need (own ≤ k || inRegions j.regions t.saveArea (128 * saveSlotBytes)) refuseRegion k)

/-! ## Shards and replicas (R326, R328) -/

/-- The layer record of a layer number. -/
def ShardPlan.layer (p : ShardPlan) (l : Nat) : Option LayerRec := p.layers.find? (fun r => r.layer = l)

/-- Grid indices of the expert group of `i`, and its member index there (R316). -/
def ShardPlan.expertPlace (p : ShardPlan) (i : Nat) : List Nat × Nat :=
  let g := p.expertGroup (p.pos i).2.2
  (g, (g.findIdx? (· = i)).getD 0)

/-- Grid indices of the modules that hold the shard of a layer that `i` holds (R326): all of them for a whole layer, those of
the same slice, or those that hold one of its experts. -/
def ShardPlan.holders (p : ShardPlan) (r : LayerRec) (i : Nat) : List Nat :=
  let all := List.range p.modules.length
  match r.kind with
  | 0 => all
  | 3 =>
    let ex (k : Nat) : List Nat := let g := p.expertPlace k; expertsOf r.full g.1.length g.2
    all.filter (fun k => (ex k).any (ex i).contains)
  | _ => all.filter (fun k => (p.pos k).2.1 = (p.pos i).2.1)

/-- Layers whose pairs a cluster holds (R281, R328). -/
def Job.clusterLayers (j : Job) (c : Nat) : List Nat :=
  j.cassettes.flatMap (fun q => if q.cluster = c then q.entries.filterMap (fun e =>
    if e.op = .optimise then (j.opts[e.aux]?).map (·.layer) else none) else [])

/-- Modules of grid indices `a` and `b` hold the same shard of a layer (R326). -/
def ShardPlan.sameShard (p : ShardPlan) (r : LayerRec) (a b : Nat) : Bool :=
  match r.kind with
  | 0 => true
  | 3 =>
    let ex (k : Nat) : List Nat := let g := p.expertPlace k; expertsOf r.full g.1.length g.2
    ex a == ex b
  | _ => (p.pos a).2.1 == (p.pos b).2.1

/-- Modules of the replica group of cluster `c` on module `m` (R328); the module alone without a shard plan. -/
def Job.replicas (j : Job) (c m : Nat) : List Nat :=
  match j.shard with
  | none => [m]
  | some p =>
    match p.indexOf m with
    | none => [m]
    | some a =>
      ((List.range p.modules.length).filter (fun b =>
        (j.clusterLayers c).all (fun l => match p.layer l with | some r => p.sameShard r a b | none => true))).map (fun b => p.modules.getD b m)

/-! ## Curvature (R225, R230) -/

/-- Slots that an entry names: by GRAM, by a Topiary operation, or through an optimiser layer. -/
def Job.slotsNamed (j : Job) (e : Entry) : List Nat :=
  match e.op with
  | .gramL | .gramR => [fld e.w2 15 0]
  | .topiary => (match j.tops[e.aux]? with | some t => [t.slot] | none => [])
  | .optimise => (match j.opts[e.aux]? with | some l => [l.lslot, l.rslot].filter (· ≠ noIdx) | none => [])
  | _ => []

def Job.topOf (j : Job) (e : Entry) : Option TopDesc := if e.op = .topiary then j.tops[e.aux]? else none

/-- Shape of an exported plane (R229). -/
def Slot.planeTensor (s : Slot) (t : Tensor) : Bool :=
  t.fmt == .bx48 && t.rows == s.nblk * s.tilesBlk * 128 && t.cols == 128

/-- A GRAM entry names the slot. -/
def Job.grammed (j : Job) (k : Nat) : Bool :=
  j.cassettes.any (fun c => c.entries.any (fun e => (e.op == .gramL || e.op == .gramR) && fld e.w2 15 0 == k))

/-- Slots' regions, apart and backed, their blocks, which a GRAM entry's own check judges where one names the slot, and the work areas
(R221, R222, R224, R225, R365, R372). -/
def Job.slotsOk (j : Job) : Ld Unit := do
  eachIx j.slots (fun s k => do
    need (s.block % 128 == 0 || j.grammed k) refuseTopiary k
    need (s.regions.all (fun r => inRegions j.regions r.1 r.2)) refuseRegion k
    need ((j.slots.take k).all (fun x => !(meetAny x.regions s.regions)) && s.regions.zipIdx.all (fun r =>
      (s.regions.take r.2).all (fun q => !(meetRange r.1.1 r.1.2 q)))) refuseTopiary k)
  match j.curv with
  | none => .ok ()
  | some c =>
    (j.slots.map (·.owner)).dedup.forM (fun l => do
      let b := maxNat ((j.slots.filter (fun s => s.owner = l)).map (·.block))
      need (6 * b * b * 49 / 8 ≤ c.stride) refuseTopiary noIndex (some l)
      need (inRegions j.regions (c.base + l * c.stride) (6 * b * b * 49 / 8)) refuseRegion noIndex (some l))

/-- Entries that name slots, and the shapes of the tensors that Topiary's operations read and write (R150, R229, R230, R248, R249). -/
def Job.slotUseOk (j : Job) (c : Cassette) (e : Entry) (i : Nat) : Ld Unit := do
  let bad (ok : Bool) : Ld Unit := need ok refuseTopiary i (some c.cluster)
  bad ((j.slotsNamed e).all (fun k => match j.slots[k]? with | some s => s.owner == c.cluster | none => false))
  match e.op, j.topOf e with
  | .gramL, _ | .gramR, _ => bad ((j.slotsNamed e).all (fun k => match j.slots[k]? with | some s => !s.isFactor | none => false))
  | .topiary, some t =>
    match j.slots[t.slot]? with
    | none => bad false
    | some s => do
      let fac : Bool := t.op == .factor || t.op == .solve
      bad (s.isFactor == fac && (fac || !(bit e.w2 0)))
      bad (t.op != .fold || (if s.repl then (match j.tensor? t.tenA with | some x => t.tenA != noIdx && s.planeTensor x | none => false)
        else t.tenA == noIdx))
      bad (t.op != .export_ || (match j.tensor? t.tenA with | some x => s.planeTensor x | none => false))
      let shape (ok : Bool) : Ld Unit := need ok refuseOperand i (some c.cluster)
      shape (t.op != .factor || (match j.tensor? t.tenA with
        | some x => x.fmt == .bx48 && x.rows == s.dim && x.cols == s.block
        | none => false))
      shape (t.op != .factor || t.tenB == noIdx || (match j.tensor? t.tenB with | some x => x.fmt == .i32 | none => false))
      shape (t.op != .solve || (match j.tensor? t.tenA, j.tensor? t.tenB with
        | some a, some b => a.fmt == .f32 && b.fmt == .f32 && a.rows == s.dim && 1 ≤ a.cols && a.cols ≤ 32 && b.rows == a.rows && b.cols == a.cols
            && b.lrows == a.lrows && b.lcols == a.lcols
        | _, _ => false))
  | _, _ => .ok ()

/-- Order of FOLD, EXPORT, GRAM and REFRESH in the owner's Cassettes, slot by slot (R230). -/
def Job.slotOrder (j : Job) (c : Cassette) : Ld Unit :=
  eachIx j.slots (fun s k => do
    let bad (ok : Bool) : Ld Unit := need ok refuseTopiary k (some c.cluster)
    let at' (f : Entry → Bool) : List Nat := (c.entries.zipIdx.filter (fun p => f p.1)).map (·.2)
    let ops (o : TopOp) : List Nat := at' (fun e => match j.topOf e with | some t => t.op == o && t.slot == k | none => false)
    let grams := at' (fun e => (e.op == .gramL || e.op == .gramR) && fld e.w2 15 0 == k)
    let folds := ops .fold
    let exps := ops .export_
    let refs := ops .refresh
    bad (grams.isEmpty || folds.length == 1)
    bad (grams.isEmpty || !s.repl || (exps.length == 1 && exps.all (fun x => folds.all (fun f => x < f))))
    bad (grams.all (fun g => (folds ++ exps).all (fun f => f < g)))
    bad (refs.length ≤ 1 && refs.all (fun r => folds.all (fun f => f < r))))

/-- A slot that the shard plan replicates sums over its replicas (R230): REPL is 1 where the owner's replica group, or without pairs of its
own the modules that share its slice, has more than one member. -/
def Job.replOk (j : Job) (me : Nat) : Ld Unit :=
  eachIx j.slots (fun s k =>
    let many : Bool :=
      if j.clusterLayers s.owner = [] then (match j.shard with | some p => p.d * p.q != 1 | none => false)
      else (j.replicas s.owner me).length != 1
    need (s.isFactor || s.repl || !many) refuseTopiary k (some s.owner))

/-! ## Parameters -/

def Tensor.inHdm (t : Tensor) : Bool := t.ranges.any (fun r => (pagesOf r.1 r.2).any Sys2Proof.Machine.inHdm)

/-- The parameter plan's pairs and records, and the Coppice's partner and region, whose addresses the job's regions hold (R259, R279, R281,
R283, R373; log 45). -/
def Job.pairsOk (j : Job) (p : ParamPlan) (me : Nat) : Ld Unit := do
  need (p.npairs != 0 || !(j.cassettes.any (fun c => c.entries.any (fun e => e.op == .optimise)))) refuseZero
  need (inHdm p.stepRec && inHdm (p.stepRec + 1087)) refuseParam
  need (inRegions j.regions p.stepRec 1088) refuseRegion
  need (p.lsVec == noIdx || (match j.tensor? p.lsVec with | some t => t.fmt == .f32 && (t.rows == 1 || t.cols == 1) | none => false))
    refuseParam
  need (!p.coppiceEn || p.copModule != me) refuseParam
  need (!p.coppiceEn || inRegions j.regions p.copBase p.copBytes) refuseRegion
  need (!p.coppiceEn || copHeader + j.baseBytes + 2 * logBytes j.baseBytes ≤ p.copBytes) refuseParam
  eachIx j.pairs (fun q k =>
    match j.tensor? q.1, j.tensor? q.2 with
    | some c, some u =>
      need ({ c with base := u.base } == u && q.1 != q.2
        && (j.pairs.take k).all (fun r => r.1 != q.1 && r.1 != q.2 && r.2 != q.1 && r.2 != q.2)
        && (c.fmt == .mw40 || (c.fmt == .f32 && c.cols % 8 == 0)) && !c.inHdm && !u.inHdm) refuseParam k
    | _, _ => need false refuseDescriptor k)

/-- Each pair has one owning cluster, and owners never descend (R281). -/
def Job.ownersOk (j : Job) : Ld Unit := do
  let owners (q : Nat × Nat) : List Nat :=
    ((j.cassettes.filter (fun c => c.entries.any (fun e =>
      e.op == .optimise && (match j.opts[e.aux]? with | some l => l.pairs.contains q | none => false)))).map (·.cluster)).dedup
  let _ ← j.pairs.zipIdx.foldlM (fun (last : Nat) q =>
    match owners q.1 with
    | [l] => do
      need (last ≤ l) refuseParam q.2
      return l
    | _ => .error ⟨refuseParam, none, q.2⟩) 0
  return ()

/-- Optimiser layers: pairs, formats and shapes (R258, R264, R265). -/
def Job.layersOk (j : Job) : Ld Unit :=
  eachIx j.opts (fun l k => do
    let bad (ok : Bool) : Ld Unit := need ok refuseParam k
    bad ((j.opts.take k).all (fun x => x.layer != l.layer) && l.pairs.all j.pairs.contains)
    need (backedOk j.regions l.hyper 32) refuseRegion k
    match j.tensor? l.masterC, j.tensor? l.grad with
    | some m, some g => do
      let like (i : Nat) (f : Tensor → Bool) : Bool :=
        i == noIdx || (match j.tensor? i with | some t => t.rows == m.rows && t.cols == m.cols && f t | none => false)
      bad (m.fmt == .mw40 && g.fmt == .f32 && like l.grad (fun _ => true) && like l.m1C (·.fmt == .f32) && like l.m2C (·.fmt == .f32))
      let slot (i n : Nat) (side : Nat) : Bool :=
        i == noIdx || (match j.slots[i]? with | some s => s.dim == n && s.side == side | none => false)
      bad (slot l.lslot g.rows 0 && slot l.rslot g.cols 1)
      let fmts := [l.lslot, l.rslot].filterMap (fun i => if i = noIdx then none else (j.slots[i]?).map (·.applyFmt))
      bad (like l.scr (fun t => fmts.all (fun f => t.fmt == (if f = 4 then Fmt.h16 else Fmt.f32))))
    | _, _ => bad false)

/-- Working copies of a Cassette: what a COPY of a C master writes (R262). -/
def Job.workingCopy (j : Job) (e : Entry) : Option Nat :=
  if e.op = .copy ∧ j.opts.any (fun l => l.masterC = e.opa) then some e.opd else none

def Job.rangesOf (j : Job) (ts : List Nat) : List (Nat × Nat) := (ts.filterMap j.tensor?).flatMap Tensor.ranges

/-- Swap pairs are written by OPTIMISE alone, which writes U tensors and never C, and U is read by OPTIMISE and DIGEST alone (R261). The spec
names no code for a Cassette that breaks this: it is refused as a breach of the parameter plan (DESIGN CHOICE, log 45). -/
def Job.pairUse (j : Job) (m : Cells) (me : Nat) (e : Entry) : Bool :=
  let cs := j.rangesOf (j.pairs.map (·.1))
  let us := j.rangesOf (j.pairs.map (·.2))
  match (if e.op = .optimise then j.opts[e.aux]? else none) with
  | some l => !(meetAny (j.writeRanges me e) cs) && !(meetAny (j.rangesOf [l.scr]) us)
  | none => !(meetAny (j.writeRanges me e) (cs ++ us)) && (e.op == .digest || !(meetAny (j.readRanges m e) us))

/-- Working copies are written by COPYs of their own layer's C master alone, with RNE, and read after the COPYs of all that is read
(R262). -/
def Job.copyUse (j : Job) (m : Cells) (me : Nat) (c : Cassette) (e : Entry) (i : Nat) : Bool :=
  let copies : List (Nat × Nat) :=
    (j.cassettes.flatMap (fun q => q.entries.filterMap (fun x => (j.workingCopy x).map (fun w => (x.opa, w))))).dedup
  let all := j.rangesOf (copies.map (·.2))
  let before := j.rangesOf ((c.entries.take i).filterMap j.workingCopy)
  (match j.workingCopy e with
    | some w => e.rnd == 0 && !(meetAny (j.rangesOf [w]) (j.rangesOf ((copies.filter (fun x => x.1 ≠ e.opa)).map (·.2))))
    | none => !(meetAny (j.writeRanges me e) all))
  && (j.readRanges m e).all (fun r => copies.all (fun x =>
      (j.rangesOf [x.2]).all (fun q => !(meetRange r.1 r.2 q) || covered before (max r.1 q.1) (min (r.1 + r.2) (q.1 + q.2) - max r.1 q.1))))

/-- Bytes of a hyperparameter record are written through its view alone (R295). -/
def Job.hyperUse (j : Job) (me : Nat) (e : Entry) : Bool :=
  j.opts.all (fun l =>
    let view (t : Tensor) : Bool := t.fmt == .f32 && t.rows == 1 && t.cols == 8 && t.base == l.hyper
    let ts := (j.uses e).2.filterMap j.tensor?
    let hit (rs : List (Nat × Nat)) : Bool := rs.any (meetRange l.hyper 32)
    ts.all (fun t => view t || !(hit t.ranges)) && (e.op != .send || !(hit (j.writeRanges me e))))

/-- Pairs, working copies, digests and hyperparameter records (R261, R262, R271, R295). -/
def Job.cassetteParam (j : Job) (m : Cells) (me : Nat) (c : Cassette) : Ld Unit := do
  let bad (ok : Bool) (i : Nat) : Ld Unit := need ok refuseParam i (some c.cluster)
  eachIx c.entries (fun e i => do
    bad (j.pairUse m me e && j.copyUse m me c e i) i
    if e.op = .optimise then
      let digs := (c.entries.zipIdx.filter (fun p => p.1.op = .digest ∧ p.1.aux = e.aux)).map (·.2)
      bad (c.steps && digs.length == 1 && digs.all (fun d => i < d)) i
    else if e.op = .digest then bad ((c.entries.take i).any (fun x => x.op == .optimise && x.aux == e.aux)) i
    else .ok ()
    bad (j.hyperUse me e) i)

/-- Every condition on the parameter plan. -/
def Job.paramOk (j : Job) (m : Cells) (me : Nat) : Ld Unit := do
  let uses := j.cassettes.any (fun c => c.entries.any (fun e => e.op == .optimise || e.op == .digest))
  match j.param with
  | none => need (!uses) refuseParam
  | some p => do
    j.pairsOk p me
    j.layersOk
    j.ownersOk
    j.cassettes.forM (j.cassetteParam m me)

/-! ## The shard plan -/

def subset (a b : List Nat) : Bool := a.all b.contains

/-- Layer records (R308, R309). -/
def Job.layerRecsOk (j : Job) (p : ShardPlan) : Ld Unit := do
  eachIx p.layers (fun r k => do
    need ((p.layers.take k).all (fun x => x.layer != r.layer)) refuseShard k
    need (!(r.kind == 1 || r.kind == 2) || p.s != 1) refuseSlice k
    need (j.opts.all (fun l => l.layer != r.layer || (
      let i := if r.kind = 1 then l.lslot else if r.kind = 2 then l.rslot else noIdx
      i == noIdx || (match j.slots[i]? with | some s => r.unit_ % s.block == 0 | none => true)))) refuseSlice k)
  eachIx j.opts (fun l k => need (p.layer l.layer).isSome refuseShard k)

/-- The last COLLECTIVE that writes bytes of a layer's GRAD before its OPTIMISE names a group that holds every replica (R326). -/
def Job.gradsOk (j : Job) (p : ShardPlan) (me : Nat) (c : Cassette) : Ld Unit :=
  eachIx c.entries (fun e i =>
    match (if e.op = .optimise then j.opts[e.aux]? else none) with
    | none => .ok ()
    | some l =>
      match p.layer l.layer with
      | none => need false refuseShard i (some c.cluster)
      | some r =>
        let hs := p.holders r me
        let writes (x : Entry) : Bool := x.op == .collective && meetAny (j.rangesOf [x.opd]) (j.rangesOf [l.grad])
        match ((c.entries.take i).filter writes).getLast? with
        | some x => need (subset hs (j.groupOf p x me)) refuseShard i (some c.cluster)
        | none => need (hs.length ≤ 1) refuseShard i (some c.cluster))

/-- Statistic slots of sliced layers (R327): where the slice does not cut a slot's side, the exported plane is summed by a COLLECTIVE with OP
SUM, and each that sums it names a group that holds the slice group and every replica. -/
def Job.sliceSlotsOk (j : Job) (p : ShardPlan) (me : Nat) : Ld Unit :=
  eachIx j.opts (fun l k =>
    match p.layer l.layer with
    | none => .ok ()
    | some r =>
      let other := if r.kind = 1 then l.rslot else if r.kind = 2 then l.lslot else noIdx
      if other = noIdx then .ok ()
      else
        let exps := (j.tops.filter (fun t => t.op == .export_ && t.slot == other)).map (·.tenA)
        let sums := j.cassettes.flatMap (fun c => c.entries.filter (fun e =>
          e.op == .collective && (match j.reds[e.aux]? with | some d => d.op == 1 | none => false)
            && meetAny (j.rangesOf [e.opa]) (j.rangesOf exps)))
        let want := (List.range p.modules.length).filter (fun i =>
          (p.group 2 0 0 me).contains i || (p.holders r me).contains i)
        need ((match j.slots[other]? with | some s => s.repl | none => false)
            && (sums != [] || !(j.grammed other)) && sums.all (fun e => subset want (j.groupOf p e me)))
          refuseShard k)

/-- The cluster holds expert pairs (R328). -/
def Job.expertCluster (j : Job) (p : ShardPlan) (c : Nat) : Bool :=
  (j.clusterLayers c).any (fun l => match p.layer l with | some r => r.kind == 3 | none => false)

/-- An entry that must have issued before entry `t` of a Cassette does, or that is `t` itself (R123). -/
def Job.ahead (j : Job) (es : List Entry) (n t : Nat) : Bool :=
  n == t || (n < t && (match es[n]?, es[t]? with
    | some y, some x => !y.reord || !x.reord || hazardsMeet (j.hazards y) (j.hazards x)
    | _, _ => false))

/-- Every received chunk is read after its signal is awaited (R315). Each module's Cassette is like this one's, so a chunk arrives where this
one's SEND writes, and the SIGNAL that follows the SEND tells of it: a reader waits, itself, through an entry ahead of it or through a
signal of an entry behind the wait on the counter's own cluster, until the counter holds the increments of that SIGNAL and of those before
it. A chunk that no SIGNAL tells of is read by no entry (log 45). -/
def Job.chunksOk (j : Job) (m : Cells) (me : Nat) (c : Cassette) : Ld Unit :=
  eachIx c.entries (fun e i =>
    match (if e.op = .send then j.streams[e.aux]? else none), j.tensor? e.opa with
    | some (.transfer n dst st), some a =>
      if n = 0 ∨ dst / 2 ^ 52 = me then .ok ()
      else
        let rows := (List.range n).map (fun k => (dst % 2 ^ 52 + k * st, a.rowBytes))
        let away (x : Entry) : Bool := x.op == .signal && fld x.w2 63 52 != me
        let sig := (c.entries.zipIdx.drop (i + 1)).find? (fun x => away x.1 && fld x.1.w2 63 52 == dst / 2 ^ 52)
        (j.cassettes.filter (fun q => q.task = c.task)).forM (fun q =>
          eachIx q.entries (fun x t =>
            let awaited : Bool := match sig with
              | none => false
              | some g =>
                let k := fld g.1.w2 37 32
                let cl := fld g.1.w2 44 38
                let sum := sumNat ((c.entries.take (g.2 + 1)).map (fun y =>
                  if away y && fld y.w2 37 32 == k && fld y.w2 44 38 == cl then fld y.w3 23 0 else 0))
                let waits (z : Cassette) : List Nat := z.entries.zipIdx.filterMap (fun y =>
                  if y.1.waitEn ∧ y.1.waitCtr = k ∧ sum ≤ y.1.waitVal then some y.2 else none)
                if q.cluster = cl then (waits q).any (fun y => j.ahead q.entries y t)
                else (j.cassettes.filter (fun z => z.task = c.task ∧ z.cluster = cl)).any (fun z =>
                  (waits z).any (fun y => j.follows me c.task (cl, y) (q.cluster, t)))
            need (awaited || !(meetAny (j.readRanges m x) rows)) refuseShard t (some q.cluster)))
    | _, _ => .ok ())

def Job.shardOk (j : Job) (m : Cells) (module : Nat) : Ld Unit :=
  match j.shard with
  | none => .ok ()
  | some p =>
    match p.indexOf module with
    | none => need false refuseShard
    | some me => do
      need (noDup p.modules) refuseShard
      j.layerRecsOk p
      j.cassettes.forM (j.gradsOk p me)
      j.sliceSlotsOk p me
      ((j.cassettes.map (·.cluster)).dedup).forM (fun c =>
        need (!(j.expertCluster p c) || (j.clusterLayers c).all (fun l => match p.layer l with | some r => r.kind == 3 | none => false))
          refuseShard noIndex (some c))
      if p.q = 1 then .ok () else j.cassettes.forM (j.chunksOk m module)

/-! ## Exchanges (R319 to R321) -/

/-- The expert layer of an exchange with the module's group and member index; none where LAYER names no record of KIND 0b11. -/
def Job.exchLayer (j : Job) (module : Nat) (d : ExchDesc) : Option (LayerRec × Nat × Nat) :=
  j.shard.bind (fun p => (p.indexOf module).bind (fun k => (p.layer d.layer).bind (fun r =>
    if r.kind = 3 then (let g := p.expertPlace k; some (r, g.1.length, g.2)) else none)))

/-- Every exchange descriptor (R319 to R321): its layer, its tensors, and the rows of the receive buffer. -/
def Job.exchDescOk (j : Job) (module : Nat) : Ld Unit :=
  eachIx j.exchs (fun d k =>
    let i32 (n w i : Nat) : Bool := match j.tensor? i with | some t => t.fmt == .i32 && t.rows == n && t.cols == w | none => false
    match j.exchLayer module d, j.tensor? d.place with
    | some (r, g, n), some pl =>
      need (recvRows d r.full g n ≤ 2 ^ 20 && i32 pl.rows (2 * d.topk) d.place
        && (d.dir != 1 || (i32 pl.rows d.topk d.route && i32 (r.full + 1) 4 d.stats))) refuseExchange k
    | _, _ => need false refuseExchange k)

/-- Operands of an EXCHANGE entry (R321). -/
def Job.exchOk (j : Job) (module : Nat) (c : Cassette) (e : Entry) (i : Nat) : Ld Unit :=
  let bad (ok : Bool) : Ld Unit := need ok refuseExchange i (some c.cluster)
  match (if e.op = .exchange then j.exchs[e.aux]? else none) with
  | none => .ok ()
  | some d =>
    match j.exchLayer module d, j.tensor? e.opa, j.tensor? e.opd, j.tensor? d.place with
    | some (r, g, n), some a, some o, some pl =>
      let recv := recvRows d r.full g n
      let shape : Bool :=
        match d.dir with
        | 1 => a.rows == pl.rows && o.rows == recv
        | 2 => a.rows == recv && o.rows == pl.rows * d.topk
        | _ => a.rows == pl.rows * d.topk && o.rows == recv
      bad (shape && a.cols == o.cols && a.fmt == o.fmt)
    | _, _, _, _ => bad false

/-! ## Reachability (R429) -/

/-- Modules that a job names. -/
def Job.modulesNamed (j : Job) : List Nat :=
  j.modules
    ++ (match j.param with | some p => if p.coppiceEn then [p.copModule] else [] | none => [])
    ++ j.cassettes.flatMap (fun c => c.entries.filterMap (fun e => if e.op = .signal then some (fld e.w2 63 52) else none))
    ++ j.streams.filterMap (fun x => match x with | .transfer _ dst _ => some (dst / 2 ^ 52) | _ => none)

/-- Every module named is JOINED and reachable (R429): it has a route, and the newest graph still holds it. -/
def State.reachOk (s : State) (j : Job) : Ld Unit :=
  need ((s.fab.state != .leaving && s.fab.state != .removable)
    && j.modulesNamed.all (fun m => if m = s.me then s.fab.state == .joined
      else s.fab.routes.reaches s.me m && s.fab.graph.reaches s.me m)) refuseUnreachable

end Sys2Proof.Machine
end

