-- ==== Sys2Proof/Machine/LoadSolver.lean ====
section
/-!
DEFINITION. The loader and the solver plan: its tables and checks (R335 to R341, R352, R355), and the task that the Cassette
microcode generates from it (R340; log 16).
-/

namespace Sys2Proof.Machine

/-! ## Reading the plan -/

/-- The plan's tables, read from device memory (R336, R337, R352, R565). -/
def SolHdr.read (h : SolHdr) (m : Cells) (rs : List Region) : Ld SolPlan := do
  need (inRegions rs h.classTable (128 * h.nclass) && inRegions rs h.largeTable (64 * h.nlarge)) refuseRegion
  let classes ← (List.range h.nclass).mapM (fun k => (SolClass.parse (Cells.words m (h.classTable + 128 * k) 16)).ld k)
  let larges ← (List.range h.nlarge).mapM (fun k => do
    let w := Cells.words m (h.largeTable + 64 * k) 8
    need (inRegions rs (fld (wordAt w 2) 51 0) (8 * fld (wordAt w 0) 63 56)) refuseRegion k
    (SolLarge.parse m w).ld k)
  return ⟨h.deadlineUs, classes, larges, h.cycleRec, h.entryWinUs, h.pendKib, h.pendBase⟩

/-! ## Checks (R338, R339) -/

/-- A global range lies in the HDM window of the domain's entry module. -/
def State.onEntryWindow (s : State) (a n : Nat) : Bool :=
  a / 2 ^ 52 == s.entryOf && inHdm (a % 2 ^ 52) && inHdm (a % 2 ^ 52 + n - 1)

/-- The factor set of a cluster's problems (R338, R352). -/
def Job.factorSet (j : Job) (slot cluster block npos count : Nat) : Bool :=
  match j.slots[slot]? with
  | some s => s.owner == cluster && s.side == 2 && s.block == block && s.npos == npos && s.dim == count * block
  | none => false

def State.classesOk (s : State) (j : Job) (p : SolPlan) : Ld Unit :=
  eachIx p.classes (fun c k => do
    let bad (ok : Bool) : Ld Unit := need ok refuseSolver k
    bad ((p.classes.take k).all (fun x => !(x.clusters.any c.clusters.contains)
      || (x.checkEvery == c.checkEvery && x.maxChecks == c.maxChecks)))
    bad (c.clusters.zipIdx.all (fun l => (c.share l.2).2 == 0 || j.factorSet (c.slot0 + l.2) l.1 c.block c.n (c.share l.2).2))
    bad (s.onEntryWindow c.result (max 1 (c.np * resultSize c.n c.m)))
    need (inRegions j.regions c.data (c.np * (layOf 0 c.n c.m 0).size) && inRegions j.regions c.state (c.np * stateSize c.n c.m))
      refuseRegion k)

def State.largesOk (s : State) (j : Job) (p : SolPlan) : Ld Unit :=
  eachIx p.larges (fun g k => do
    let bad (ok : Bool) : Ld Unit := need ok refuseSolver k
    bad ((p.larges.take k).all (fun x => x.chiplet != g.chiplet))
    match p.cls g.cls with
    | none => bad false
    | some c => do
      bad (g.parts.all (fun q => c.t * c.pvar ≤ q.1 && c.t * c.pcon ≤ q.2))
      bad (g.blks.all (fun b => j.factorSet b.slot b.cluster g.block b.n 1
        && p.classes.all (fun x => x.np == 0 || !(x.clusters.contains b.cluster))))
      let n := sumNat (g.parts.map (·.1))
      let m := sumNat (g.parts.map (·.2)) + g.ml
      bad (s.onEntryWindow g.result (resultSize n m))
      need (inRegions j.regions g.data (g.linkBounds.2 + pad64 (4 * g.ml) - g.data)
        && inRegions j.regions g.state (g.linkRec + 64 - g.state)) refuseRegion k)

/-- The whole plan (R339). -/
def State.solverOk (s : State) (j : Job) (h : SolHdr) (p : SolPlan) : Ld Unit := do
  need (s.jobs.all (fun x => x.sol.isNone)) refuseSolver
  need (h.nprob == sumNat (p.classes.map (·.np))) refuseSolver
  need (s.onEntryWindow p.cycleRec 64) refuseSolver
  need (inRegions j.regions p.pendBase (1024 * p.pendKib)) refuseRegion
  s.classesOk j p
  s.largesOk j p

/-! ## The reserve (R355, R361) -/

/-- T_round, with its one ITER_END, and T_fin of one cluster at NP, in ninths of a nanosecond. -/
def SolPlan.time9 (p : SolPlan) (l : Nat) : Nat :=
  let small := (p.classes.filterMap (fun c => (c.rank l).map (fun r => (c, (c.share r).2)))).filter (fun x => x.2 ≠ 0)
  let large := p.larges.flatMap (fun g => g.blks.filterMap (fun b =>
    if b.cluster = l then (p.cls g.cls).map (fun c => (g, b, c)) else none))
  sumNat (small.map (fun x => round9 x.1 x.2)) + (if small.isEmpty then 0 else fin9 (sumNat (small.map (·.2))))
    + (if small.isEmpty && large.isEmpty then 0 else 9000)
    + sumNat (large.map (fun x =>
        round9 { x.2.2 with n := x.2.1.n, m := x.2.1.m, block := x.1.block } 1 + fin9 1
          + x.2.2.checkEvery * (6 * ceilDiv (x.1.ml * x.2.1.n) 1024 * 20 + 9000 + 18000 + 90 * x.1.ml)))

/-- Clusters that hold problems. -/
def SolPlan.clusters (p : SolPlan) : List Nat :=
  sortBy (· ≤ ·) (p.classes.flatMap (fun c => if c.np = 0 then [] else c.clusters)
    ++ p.larges.flatMap (fun g => g.blks.map (·.cluster))).dedup

def SolPlan.reserve (p : SolPlan) : Nat := reserveUs (maxNat (p.clusters.map p.time9))

/-- The generated task (R340, R355). -/
def SolPlan.task (p : SolPlan) : Ld TaskDesc := do
  need (p.reserve < p.deadlineUs) refuseDeadline
  return { stepBase := 0, steps := 1, dlEn := true, deadlineUs := p.deadlineUs - p.reserve, saveArea := 0,
           entryWinUs := p.entryWinUs, suspendWinUs := p.entryWinUs }

/-! ## The generated Cassettes (R340, R361; log 16) -/

/-- An entry of a generated Cassette: every one waits for those before it on its cluster. -/
def solEntry (op : Opcode) : Entry :=
  { op, reord := false, mig := false, fence := 2, sigOn := false, rnd := 0, waitEn := false, waitCtr := 0, sigCtr := 0, mask := 0,
    waitVal := 0, opa := noIdx, opb := noIdx, opd := noIdx, aux := noIdx, w2 := 0, w3 := 0 }

/-- FACTOR with ABANDON set (R340). -/
def solFactor : Entry := { solEntry .topiary with w2 := 1 }

/-- The ITER_END of a round: TARGET, the rounds of a cycle, and the counters that it resets. -/
def solIter (target rounds : Nat) (keep : Word) : Entry :=
  { solEntry .iterEnd with mig := true, aux := 0, w2 := mkFld 63 48 target ||| mkFld 23 0 rounds, w3 := ~~~ keep }

def withMig (es : List (Entry × SolOp)) : List (Entry × SolOp) :=
  match es.reverse with
  | [] => []
  | x :: xs => ((({ x.1 with mig := true }, x.2)) :: xs).reverse

def plains (n : Nat) : List (Entry × SolOp) := List.replicate n (solEntry .nop, .plain)

/-- A loop of rounds between what comes before it and the results. -/
def solCassette (pre iter check : List (Entry × SolOp)) (every rounds : Nat) (keep : Word) : List (Entry × SolOp) :=
  withMig pre ++ (List.replicate every iter).flatten ++ check ++ [(solIter pre.length rounds keep, .decide)]
    ++ [(solEntry .chain, .finish), (solEntry .halt, .plain)]

/-- The Cassette of a cluster that holds problems of classes. -/
def SolPlan.smallCassette (p : SolPlan) (l : Nat) : List (Entry × SolOp) :=
  let cs := p.classes.zipIdx.filterMap (fun c =>
    match c.1.rank l with
    | some r => if (c.1.share r).2 = 0 then none else some (c.2, (c.1.share r).2)
    | none => none)
  let c0 := (cs.head?.bind (fun c => p.cls c.1))
  let pre := cs.flatMap (fun c => [(solEntry .chain, .warm c.1), (solEntry .chain, .assemble c.1), (solFactor, .factor c.1)])
  let iter := cs.flatMap (fun c => [(solEntry .topiary, SolOp.solve c.1), (solEntry .chain, .iter c.1)])
  let check := cs.flatMap (fun c => (solEntry .chain, SolOp.check c.1) :: plains (c.2 + 1))
  match c0 with
  | some c => solCassette pre iter check c.checkEvery c.maxChecks 0
  | none => []

/-- The Cassette of a part of a large problem: the other parts tell part 0 once their factor stands. -/
def SolPlan.largeCassette (me g k cluster0 nparts : Nat) (c : SolClass) : List (Entry × SolOp) :=
  let tell : Entry := { solEntry .signal with w2 := mkFld 63 52 me ||| mkFld 44 38 cluster0, w3 := 1 }
  let pre := [(solEntry .chain, .warmL g), (solEntry .chain, .assembleL g), (solFactor, .factorL g)]
    ++ (if k = 0 then [] else [(tell, .plain)])
  let solve : Entry := if k = 0 then { solEntry .topiary with waitEn := true, waitVal := nparts - 1 } else solEntry .topiary
  let iter := (solve, SolOp.solveL g) :: (solEntry .chain, .iterL g) :: plains 1
  solCassette pre iter ((solEntry .chain, .checkL g) :: plains 2) c.checkEvery c.maxChecks 1

/-- The generated Cassettes of task number `task` (R340). -/
def SolPlan.cassettes (p : SolPlan) (me task : Nat) : Ld (List Cassette) := do
  let mk (l : Nat) (es : List (Entry × SolOp)) : Cassette := ⟨task, l, es.map (·.1), es.map (·.2)⟩
  let small := (p.classes.flatMap (fun c => if c.np = 0 then [] else c.clusters)).dedup.map (fun l => mk l (p.smallCassette l))
  let large := p.larges.zipIdx.flatMap (fun g =>
    match p.cls g.1.cls with
    | some c => g.1.blks.zipIdx.map (fun b =>
        mk b.1.cluster (SolPlan.largeCassette me g.2 b.2 (16 * g.1.chiplet) g.1.parts.length c))
    | none => [])
  let cs := sortBy (fun a b => a.cluster ≤ b.cluster) (small ++ large)
  cs.forM (fun c => need (c.entries.length ≤ 65536) 0x0103 noIndex (some c.cluster))
  return cs

/-- The solver's state at load: ρ of RHO0 and DIRTY in every problem's record (R341). -/
def Sol.load (x : Sol) (p : SolPlan) : Sol :=
  { Sol.reset with
    cfg := x.cfg, shadow := x.shadow, commitErr := x.commitErr
    smalls := p.classes.flatMap (fun c => List.replicate c.np (SolProb.load c.rho0))
    larges := p.larges.map (fun g => SolProb.load (match p.cls g.cls with | some c => c.rho0 | none => 0)) }

end Sys2Proof.Machine
end

