-- ==== Sys2Proof/Machine/LoadReport.lean ====
section
/-!
DEFINITION. The load-time planner's report (R291 to R294, R317, R330; log 19).
-/

namespace Sys2Proof.Machine

/-- A ratio of whole numbers as F32, rounded once (RNE); 1.0 where the divisor is 0. -/
def ratioF32 (a b : Nat) : F32 :=
  if b = 0 then Fp.one
  else
    let k := 96 + Nat.log2 (b + 1)
    let q := a * 2 ^ k / b
    Fp.ofDy .rne ⟨((2 * q + b2n (a * 2 ^ k % b != 0) : Nat) : Int), -((k : Int) + 1)⟩

/-! ## Products of a layer (R291) -/

/-- The entry's reduction is of the kind that `p` names. -/
def Job.collIs (j : Job) (e : Entry) (p : RedDesc → Bool) : Bool :=
  e.op == .collective && (match j.reds[e.aux]? with | some r => p r | none => false)

/-- An entry at its place: its Cassette and its index there. -/
structure Spot where
  cas : Cassette
  ix : Nat
  e : Entry
  deriving DecidableEq, Repr

def Job.spots (j : Job) : List Spot := j.cassettes.flatMap (fun c => c.entries.zipIdx.map (fun p => ⟨c, p.2, p.1⟩))

def Spot.mate (x y : Spot) : Bool := x.cas.task == y.cas.task && x.cas.cluster == y.cas.cluster

/-- Entries in the order in which a walk back from `x` meets them: those before it in its Cassette, then the others. -/
def Job.before (j : Job) (x : Spot) : List Spot :=
  let near (y : Spot) : Bool := x.mate y && y.ix < x.ix
  (j.spots.filter near).reverse ++ (j.spots.filter (fun y => !(near y))).reverse

/-- Entries in the order in which a walk on from `x` meets them. -/
def Job.after (j : Job) (x : Spot) : List Spot :=
  let near (y : Spot) : Bool := x.mate y && x.ix < y.ix
  j.spots.filter near ++ j.spots.filter (fun y => !(near y))

/-- Entries that walks follow at most from a product to its layer. -/
def walkDepth : Nat := 4

/-- The layer whose working copy tensor `t` holds where entry `x` reads it, followed back through the fills of window views (R381) and
the gathers of stored slices (R313, R317) to the COPY of the layer's master (R262). -/
def Job.weightOf (j : Job) : Nat → Spot → Nat → Option Nat
  | 0, _, _ => none
  | fuel + 1, x, t =>
    match (j.before x).find? (fun y => (j.uses y.e).2.any (j.meet t)) with
    | none => none
    | some y =>
      match y.e.op with
      | .copy => (j.opts.find? (fun l => j.meet l.masterC y.e.opa)).map (·.layer)
      | .collective => if j.collIs y.e (fun r => r.op == 5) then j.weightOf fuel y y.e.opa else none
      | .stream =>
        match j.streams[y.e.aux]? with
        | some (.stream _ _ src _ _ _) => ((List.range j.tensors.length).filter (fun k => match j.tensor? k with | some t => t.haz == src | none => false)).findSome? (j.weightOf fuel y)
        | _ => none
      | _ => none

/-- The layer whose OPTIMISE reads the weight gradient that entry `x` leaves in tensor `t`, followed on through its reductions. -/
def Job.gradOf (j : Job) : Nat → Spot → Nat → Option Nat
  | 0, _, _ => none
  | fuel + 1, x, t =>
    match (j.after x).find? (fun y => (y.e.op == .optimise || y.e.op == .collective) && (j.uses y.e).1.any (j.meet t)) with
    | none => none
    | some y =>
      if y.e.op = .optimise then (j.opts[y.e.aux]?).bind (fun l => if j.meet l.grad t then some l.layer else none)
      else j.gradOf fuel y y.e.opd

/-- The layer that a product belongs to. -/
def Job.layerOf (j : Job) (x : Spot) : Option Nat :=
  match x.e.op with
  | .mm | .mmTb => j.weightOf walkDepth x x.e.opb
  | .mmTa => j.gradOf walkDepth x x.e.opd
  | _ => none

/-- Times that a pass of the Cassette runs an entry: MAX_ITER of the iteration range that holds it (R133), or 1. -/
def Spot.times (x : Spot) : Nat :=
  match x.cas.entries.zipIdx.find? (fun p => p.1.op == .iterEnd && fld p.1.w2 63 48 ≤ x.ix && x.ix < p.2) with
  | some p => fld p.1.w2 23 0
  | none => 1

def Tensor.stored (t : Tensor) : Nat := t.rows * t.rowBytes + t.planeBytes
def Job.storedOf (j : Job) (i : Nat) : Nat := match j.tensor? i with | some t => t.stored | none => 0

/-- Multiply-accumulates of a product entry, M times K times N. -/
def Job.macEntry (j : Job) (e : Entry) : Nat :=
  match j.tensor? e.opb, j.tensor? e.opd with
  | some b, some d => d.rows * b.rows * b.cols
  | _, _ => 0

/-- Micro-batches of a data index (R312). -/
def ShardPlan.mbOf (p : ShardPlan) (d : Nat) : Nat := cutStart p.nmb p.d (d + 1) - cutStart p.nmb p.d d

/-- A layer's figures per micro-batch on this module (R291): its multiply-accumulates; the bytes of its products that follow the rows
and those that follow the weights; the tensors that its forward products and its input gradients write, with how often; and the bytes of the
working copy that the module itself writes. -/
structure LayerFig where
  mac : Nat
  fwd : Nat × Nat
  dx : Nat × Nat
  dw : Nat × Nat
  fwdOut : List (Nat × Tensor)
  dxOut : List (Nat × Tensor)
  work : Nat
  deriving DecidableEq, Repr

/-- The figures of a layer over `mb` micro-batches: every product entry of the layer counts, as often as it runs. The weight gradient's
F32 term is that of a micro-batch whose entries add to the sum, where some entry of the layer has ACC 1. -/
def Job.layerFig (j : Job) (mb layer : Nat) : LayerFig :=
  match j.opts.find? (fun l => l.layer = layer) with
  | none => ⟨0, (0, 0), (0, 0), (0, 0), [], [], 0⟩
  | some l =>
    let all := j.spots.filter (fun x => x.e.op.isProduct && j.layerOf x == some layer)
    let of (o : Opcode) : List Spot := all.filter (fun x => x.e.op == o)
    let per (xs : List Spot) (f : Entry → Nat) : Nat := sumNat (xs.map (fun x => x.times * f x.e)) / max 1 mb
    let fs := of .mm
    let xs := of .mmTb
    let ws := of .mmTa
    let acc := ws.any (fun x => bit x.e.w2 0)
    let rows (ys : List Spot) : Nat := per ys (fun e => j.storedOf e.opa + j.storedOf e.opd)
    let outs (ys : List Spot) : List (Nat × Tensor) := ys.filterMap (fun x => (j.tensor? x.e.opd).map (fun t => (x.times, t)))
    ⟨per (if fs ≠ [] then fs else if xs ≠ [] then xs else ws) j.macEntry,
     (rows fs, per fs (fun e => j.storedOf e.opb)), (rows xs, per xs (fun e => j.storedOf e.opb)),
     (per ws (fun e => j.storedOf e.opa + j.storedOf e.opb), if acc then per ws (fun e => 2 * j.storedOf e.opd) else 0),
     outs fs, outs xs,
     maxNat (j.spots.filterMap (fun x => if x.e.op = .copy ∧ j.meet l.masterC x.e.opa then some (j.storedOf x.e.opd) else none))⟩

/-! ## Saved sets (R292) -/

/-- Sets of saved tensors that a layer is supplied with: its SAVED regions. -/
def Job.setsOf (j : Job) (layer : Nat) : Nat := (j.regions.filter (fun r => r.hint = .saved ∧ r.layer = layer)).length

/-- A micro-batch's use of one set: its first writing entry, its last reading entry so far, and the tensors it has written. -/
structure SetUse where
  first : Nat
  last : Nat
  tens : List Nat
  deriving DecidableEq, Repr

/-- The entry reads bytes of tensor `t`: through any descriptor of them, or as the source that a STREAM names by its HAZ_ID (R381). -/
def Job.readsOf (j : Job) (e : Entry) (t : Nat) : Bool :=
  (j.uses e).1.any (j.meet t) || (match e.op, j.streams[e.aux]?, j.tensor? t with
    | .stream, some (.stream _ _ src _ _ _), some x => x.haz == src
    | _, _, _ => false)

def Job.writesOf (j : Job) (e : Entry) (t : Nat) : Bool := (j.uses e).2.any (j.meet t)

/-- One entry against the tensors of a set: a tensor written again opens the next micro-batch's use. -/
def Job.setStep (j : Job) (ts : List Nat) (us : List SetUse) (p : Entry × Nat) : List SetUse :=
  let us := match us with
    | x :: rest => if x.tens.any (j.readsOf p.1) then { x with last := p.2 } :: rest else us
    | [] => us
  let ws := ts.filter (fun t => j.writesOf p.1 t && !(j.readsOf p.1 t))
  if ws = [] then us
  else
    match us with
    | x :: rest =>
      if ws.any x.tens.contains then ⟨p.2, p.2, ws⟩ :: us else { x with tens := ws ++ x.tens } :: rest
    | [] => [⟨p.2, p.2, ws⟩]

/-- D_l (R292): the largest number, over the entry indices, of micro-batches whose writing entry lies below the end of the window and
whose last reading entry lies at or above the index. A micro-batch is told by its use of one of the layer's sets (log 19). -/
def Job.dOf (j : Job) (layer : Nat) : Nat :=
  let rs := j.regions.filter (fun r => r.hint = .saved ∧ r.layer = layer)
  let sets := rs.map (fun r => (List.range j.tensors.length).filter (fun i =>
    match j.tensor? i with | some t => r.holds t.base t.bytes | none => false))
  let win := match j.drl with | some d => d.2 | none => 64
  maxNat (j.cassettes.map (fun c =>
    let us := sets.flatMap (fun ts => c.entries.zipIdx.foldl (j.setStep ts) [])
    maxNat ((List.range c.entries.length).map (fun i => (us.filter (fun x => x.first < i + win && i ≤ x.last)).length))))

/-! ## The report (R330) -/

/-- Units, in the sliced dimension, of a layer (R310). -/
def LayerRec.units (r : LayerRec) : Nat := ceilDiv r.full (max 1 r.unit_)

/-- Held and padding elements of a layer's weight over the task's slices (R310, R330). -/
def LayerRec.held (r : LayerRec) (s : Nat) (m : Tensor) : Nat × Nat :=
  let ext := s * ceilDiv r.units (max 1 s) * r.unit_
  let all (h d : Nat) : Nat × Nat := (h, h - d)
  match r.kind with
  | 1 => all (ext * m.cols) (r.full * m.lcols)
  | 2 => all (m.rows * ext) (m.lrows * r.full)
  | _ => all (s * (m.rows * m.cols)) (s * (m.lrows * m.lcols))

def Job.heldOf (j : Job) (s : Nat) (r : LayerRec) : Nat × Nat :=
  match (j.opts.find? (fun l => l.layer = r.layer)).bind (fun l => j.tensor? l.masterC) with
  | some m => r.held s m
  | none => (0, 0)

/-- Rows that each member of the module's expert group receives for a layer: its exchange's receive buffer (R320). -/
def Job.recvOf (j : Job) (p : ShardPlan) (r : LayerRec) : List Nat :=
  match j.exchs.find? (fun x => x.layer = r.layer) with
  | none => []
  | some d => (List.range (p.d * p.s)).map (fun k => recvRows d r.full (p.d * p.s) k)

/-- What the figures of a layer become on member `k` of the module's expert group, from those of this module, member `q`: rows follow
the receive buffer, weights the experts held (R316, R320). A layer without experts is alike on every module (R310). -/
def Job.onMember (j : Job) (p : ShardPlan) (r : LayerRec) (q k n : Nat) (row : Bool) : Nat :=
  if r.kind ≠ 3 then n
  else
    let held (i : Nat) : Nat := if row then (j.recvOf p r).getD i 0 else (expertsOf r.full (p.d * p.s) i).length
    n * held k / max 1 (held q)

/-- Multiply-accumulates of a step on the module of grid index `i`, from the entries that this module, of grid index `me`, runs: it
runs its own micro-batches, and of an expert layer its own rows. -/
def Job.macOf (j : Job) (p : ShardPlan) (me i : Nat) : Nat :=
  sumNat (j.spots.map (fun x => if x.e.op.isProduct then
      (let n := x.times * j.macEntry x.e
      let n := match (j.layerOf x).bind (fun l => p.layers.find? (fun r => r.layer = l)) with
        | some r => j.onMember p r (p.expertPlace me).2 (p.expertPlace i).2 n true
        | none => n
      n * p.mbOf (p.pos i).1 / max 1 (p.mbOf (p.pos me).1)) else 0))

/-- GATHER regions that a layer's gathers fill (R317, R372). -/
def Job.gatherRegions (j : Job) (layer : Nat) : List Region :=
  let ds := j.spots.filterMap (fun x =>
    if j.collIs x.e (fun r => r.op == 5) && j.weightOf walkDepth x x.e.opa == some layer then j.tensor? x.e.opd else none)
  j.regions.filter (fun r => r.hint == .gather && ds.any (fun t => r.holds t.base t.bytes))

/-- A layer's gather buffer is retained (R317): the layer has one of its own, and the planner, which goes from the highest layer down,
found room for it (R374; log 19). -/
def Job.retained (j : Job) (b : Back) (layer : Nat) : Bool :=
  let rs := j.gatherRegions layer
  rs != [] && rs.all (fun r => assoc b.gather r.layer == some true)
    && j.opts.all (fun l => l.layer == layer || (j.gatherRegions l.layer).all (fun r => !(rs.contains r)))

def ShardPlan.gathers (p : ShardPlan) (r : LayerRec) : Bool := p.sliceMode == 2 && (r.kind == 1 || r.kind == 2)

/-- Clusters in replica groups of one, over all modules (R328). -/
def Job.unrepl (j : Job) (ms : List Nat) : Nat :=
  let cs := (j.cassettes.map (·.cluster)).dedup.filter (fun c => j.clusterLayers c != [])
  sumNat (ms.map (fun m => (cs.filter (fun c => (j.replicas c m).length == 1)).length))

/-- Operands of chunk `c` that the member of rank `q` sends to the hosts of nodes (R415). -/
def treeSent (n c q : Nat) : Nat :=
  sumNat ((List.range (clog2 n)).flatMap (fun l => (nodesAt n (l + 1)).map (fun lo =>
    let mid := lo + 2 ^ l
    let host := treeHost n c lo
    if mid ≥ n ∨ host = q then 0 else b2n (nodeRank n c lo l == q) + b2n (nodeRank n c mid l == q))))

/-- Bytes that the busiest member of `n` sends for a sum of a tensor: operands up the tree and results of its own chunk (R415). -/
def sumBytes (n : Nat) (t : Tensor) : Nat :=
  maxNat ((List.range n).map (fun q =>
    (sumNat ((List.range n).map (fun c => (chunkRows t.rows n c).2 * treeSent n c q)) + (n - 1) * (chunkRows t.rows n q).2) * t.rowBytes))

/-- Bytes that the GATHER after a COMBINE sends to make the rows whole on every slice (R318). -/
def Job.wholeBytes (j : Job) (p : ShardPlan) (x : Spot) : Nat :=
  if p.s ≤ 1 then 0
  else
    match (j.after x).find? (fun y => j.collIs y.e (fun r => r.op == 5 && r.group == 2) && j.weightOf walkDepth y y.e.opa == none) with
    | some y => (p.s - 1) * j.storedOf y.e.opa
    | none => 0

/-- Bytes that a layer's exchanges send per micro-batch, each placed choice one row (R318, R322). -/
def Job.exchBytes (j : Job) (p : ShardPlan) (mb layer : Nat) : Nat :=
  sumNat (j.spots.map (fun x => if x.e.op = .exchange then
    (match j.exchs[x.e.aux]?, j.tensor? x.e.opa with
    | some d, some a =>
      if d.layer = layer then
        x.times * (((j.tensor? d.place).elim 0 (fun t => ceilDiv t.rows (max 1 p.s) * d.topk * a.rowBytes))
          + (if d.dir = 2 then j.wholeBytes p x else 0))
      else 0
    | _, _ => 0) else 0)) / max 1 mb

/-- A layer record of the report. -/
def Job.layerWords (j : Job) (p : ShardPlan) (me : Nat) (b : Back) (r : LayerRec) : List Word :=
  let mb := p.mbOf (p.pos me).1
  let f := j.layerFig mb r.layer
  let recv := j.recvOf p r
  let busy := (recv.findIdx? (· == maxNat recv)).getD 0
  let on (n : Nat) (row : Bool) : Nat := j.onMember p r (p.expertPlace me).2 busy n row
  let bytes (x : Nat × Nat) : Word := BitVec.ofNat 64 (on x.1 true + on x.2 false)
  let h := j.heldOf p.s r
  let g := p.d * p.s
  let tier := match assoc b.saved r.layer with | some true => 0 | some false => 1 | none => 2
  let hi := if r.kind = 3 then maxNat ((List.range g).map (fun k => (expertsOf r.full g k).length))
    else min r.units (ceilDiv r.units (max 1 p.s))
  let lo := if r.kind = 3 then (((List.range g).map (fun k => (expertsOf r.full g k).length)).foldl min hi)
    else r.units / max 1 p.s
  let hi := if r.kind = 0 then 1 else hi
  let lo := if r.kind = 0 then 1 else lo
  let reps := if r.kind = 3 then maxNat ((List.range r.full).map (fun e => (expertHolders r.full g e).length)) else 0
  let sum (ts : List (Nat × Tensor)) : Nat := sumNat (ts.map (fun x => x.1 * sumBytes p.s x.2)) / max 1 mb
  let slices := if p.gathers r then (p.s - 1) * f.work * (if j.retained b r.layer then 1 else 2)
    else if p.sliceMode = 1 ∧ r.kind = 1 then sum f.fwdOut
    else if p.sliceMode = 1 ∧ r.kind = 2 then sum f.dxOut else 0
  [mkFld 63 48 r.layer ||| mkFld 47 46 r.kind ||| mkFld 45 44 tier ||| mkFld 43 43 (b2n (j.retained b r.layer))
      ||| mkFld 31 16 (j.dOf r.layer) ||| mkFld 15 0 (j.setsOf r.layer),
   mkFld 63 48 hi ||| mkFld 47 32 lo ||| mkFld 31 0 (ratioF32 h.2 (max 1 h.1)).toNat,
   BitVec.ofNat 64 (on f.mac true), bytes f.fwd, bytes f.dx, bytes f.dw,
   mkFld 63 32 (maxNat recv) ||| mkFld 31 16 reps, BitVec.ofNat 64 (slices + j.exchBytes p mb r.layer)]

/-- The report of a job with a shard plan. -/
def Job.report (j : Job) (p : ShardPlan) (me : Nat) (b : Back) : List Word :=
  let figs := p.layers.map (fun r => (r, j.layerFig (p.mbOf (p.pos me).1) r.layer))
  let macs := (List.range p.modules.length).map (j.macOf p me)
  let mx := maxNat macs
  let mn := macs.foldl min mx
  let held := p.layers.map (j.heldOf p.s)
  let mbs := (List.range p.d).map p.mbOf
  let ex := p.layers.filter (fun r => r.kind = 3)
  let g := p.d * p.s
  let recvs := ex.map (j.recvOf p)
  let imbE := recvs.foldl (fun (a : Nat × Nat) l =>
    let q : Nat × Nat := (maxNat l * l.length, sumNat l)
    if q.2 = 0 then a else if a.1 * q.2 < q.1 * a.2 then q else a) (1, 1)
  let short := (p.layers.filter (fun r => j.setsOf r.layer != 0 && j.setsOf r.layer < j.dOf r.layer)).length
  let idle := 128 - ((j.slots.map (·.owner)).dedup).length
  let re := figs.filter (fun x => p.gathers x.1 && !(j.retained b x.1.layer))
  let un := j.unrepl p.modules
  let mib (n : Nat) : Nat := ceilDiv n 0x100000
  [mkFld 63 48 p.modules.length ||| mkFld 47 32 p.layers.length ||| mkFld 7 7 (b2n (idle != 0)) ||| mkFld 6 6 (b2n (!re.isEmpty))
      ||| mkFld 5 5 (b2n (short != 0)) ||| mkFld 4 4 (b2n (un != 0)) ||| mkFld 3 3 (b2n (ex.any (fun r => r.full % g != 0 && g % r.full != 0)))
      ||| mkFld 2 2 (b2n (p.layers.any (fun r => r.heads && r.units % max 1 p.s != 0))) ||| mkFld 1 1 (b2n (p.nmb % max 1 p.d != 0))
      ||| mkFld 0 0 (b2n (p.layers.any (fun r => (r.kind == 1 || r.kind == 2) && p.s * ceilDiv r.units (max 1 p.s) * r.unit_ != r.full))),
   mkFld 63 32 (ratioF32 (mx * macs.length) (sumNat macs)).toNat ||| mkFld 31 0 (ratioF32 imbE.1 imbE.2).toNat,
   BitVec.ofNat 64 mx, BitVec.ofNat 64 mn,
   mkFld 63 32 (ratioF32 (sumNat (held.map (·.2))) (max 1 (sumNat (held.map (·.1))))).toNat ||| mkFld 31 0 un,
   mkFld 63 32 (maxNat mbs) ||| mkFld 31 0 (mbs.foldl min (maxNat mbs)),
   mkFld 63 32 (mib (sumNat ((((p.layers.filter (fun r => p.gathers r && j.retained b r.layer)).flatMap (fun r => j.gatherRegions r.layer)).dedup).map (·.bytes))))
      ||| mkFld 31 0 (mib (maxNat mbs * sumNat (re.map (fun x => (p.s - 1) * x.2.work)))),
   mkFld 63 48 short ||| mkFld 47 32 idle]
    ++ p.layers.flatMap (j.layerWords p me b)

/-- Multiply-accumulates of the products of the job's Cassettes. -/
def Job.macsHeld (j : Job) : Nat := sumNat (j.spots.map (fun x => if x.e.op.isProduct then x.times * j.macEntry x.e else 0))

/-- The header of a job without a shard plan: one module and no layer map. -/
def Job.reportAlone (j : Job) (me : Nat) : List Word :=
  let idle := 128 - ((j.slots.map (·.owner)).dedup).length
  let un := j.unrepl [me]
  let held := j.opts.filterMap (fun l => (j.tensor? l.masterC).map (fun m => (m.rows * m.cols, m.lrows * m.lcols)))
  let h := sumNat (held.map (·.1))
  let ls := ((j.regions.filter (fun r => r.hint = .saved)).map (·.layer)).dedup
  let short := (ls.filter (fun l => j.setsOf l < j.dOf l)).length
  [mkFld 63 48 1 ||| mkFld 7 7 (b2n (idle != 0)) ||| mkFld 5 5 (b2n (short != 0)) ||| mkFld 4 4 (b2n (un != 0)),
   mkFld 63 32 Fp.one.toNat ||| mkFld 31 0 Fp.one.toNat, BitVec.ofNat 64 j.macsHeld, BitVec.ofNat 64 j.macsHeld,
   mkFld 63 32 (ratioF32 (h - sumNat (held.map (·.2))) (max 1 h)).toNat ||| mkFld 31 0 un, 0, 0, mkFld 63 48 short ||| mkFld 47 32 idle]

/-- The report's bytes (R330; log 19). -/
def Job.reportBytes (j : Job) (me : Nat) (b : Back) : List Byte :=
  bytesOfWords (match j.shard with
    | some p => j.report p ((p.indexOf me).getD 0) b
    | none => j.reportAlone me)

end Sys2Proof.Machine
end

