-- ==== Sys2Proof/Machine/Loading.lean ====
section
/-!
DEFINITION. LOAD (R110, R149, R374, R375, R411, R455, R456, R481, R490, R565): the loader checks a whole package before any of it
takes effect.
-/

namespace Sys2Proof.Machine

/-- The shard plan's tables, read from device memory (R306 to R309, R565). -/
def ShardHdr.read (h : ShardHdr) (m : Cells) (rs : List Region) : Ld ShardPlan := do
  let n := h.d * h.s * h.q
  need (inRegions rs h.moduleMap (2 * n) && inRegions rs h.layerMap (16 * h.nlayers)) refuseRegion
  let layers ← (List.range h.nlayers).mapM (fun k => (LayerRec.read m (h.layerMap + 16 * k)).ld k)
  let modules := readModules m h.moduleMap n
  need (modules.all (fun x => x < 4096)) refuseShard
  return ⟨h.d, h.s, h.q, h.sliceMode, h.seqFold, h.nmb, modules, layers⟩

/-- A job of a package once its tables in device memory are read. -/
def Pkg.job (p : Pkg) (ctx handle : Nat) (b : Back) (m : Cells) : Ld Job := do
  let shard ← (match p.shard with
    | none => return none
    | some h => do return some (← h.read m p.regions) : Ld (Option ShardPlan))
  let pairs ← (match p.param with
    | none => return []
    | some q => do
      need (inRegions p.regions q.pairTable (4 * q.npairs)) refuseRegion
      return readPairs m q.pairTable q.npairs : Ld (List (Nat × Nat)))
  let sol ← (match p.sol with
    | none => return none
    | some h => do return some (← h.read m p.regions) : Ld (Option SolPlan))
  return { ctx, handle, seed := p.seed, drl := p.drl, regions := p.regions, pages := b.mine, tasks := p.tasks, tensors := p.tensors,
           chains := p.chains, reds := p.reds, streams := p.streams, exchs := p.exchs, opts := p.opts, slots := p.slots,
           tops := p.tops, cassettes := p.cassettes, shard, param := p.param, pairs, curv := p.curv, sol, hlens := [], factored := [] }

/-- Hazard keys whose values reach the master update: those that OPTIMISE reads or a SEND of a job that trains takes away, and those
that an entry reads which writes one of them (R76; log 39). -/
def Job.reachKeys (j : Job) : Nat → List HazKey → List HazKey
  | 0, ks => ks
  | fuel + 1, ks =>
    let more := (j.cassettes.flatMap (fun c => c.entries.flatMap (fun e =>
      let h := j.hazards e
      if h.2.any ks.contains then h.1.filter (fun k => !(ks.contains k)) else []))).dedup
    if more.isEmpty then ks else j.reachKeys fuel (ks ++ more)

/-- Scale records of the tensors whose values reach the master update: the planner sets their GLOBAL (R76). -/
def Job.globals (j : Job) : List Nat :=
  let es := j.cassettes.flatMap (·.entries)
  if !(es.any (fun e => e.op == .optimise)) then []
  else
    let ks := j.reachKeys (es.length + 1) (es.flatMap (fun e => if e.op = .optimise ∨ e.op = .send then (j.hazards e).1 else [])).dedup
    (j.tensors.filterMap (fun t => if t.srecEn && ks.contains (HazKey.haz t.haz) then some t.srec else none)).dedup

/-- Memory with GLOBAL set in records. -/
def setGlobals (m : Cells) (rs : List Nat) : Cells :=
  Cells.writeAll m (rs.map (fun r => (r, leBytes 8 (setFld (Cells.word m r) 7 7 1).toNat)))

/-- Checks of the entries, tables and plans of a job (R149; their order is log 11). -/
def State.jobOk (s : State) (j : Job) (m : Cells) (h : Option SolHdr) (own : Nat) : Ld Unit := do
  let me := s.me
  j.eachEntry j.indexOk
  j.descIndexOk j.regions.length
  j.eachEntry j.maskOk
  j.tensorsOk m
  s.tasksOk j own
  j.cassettes.forM Cassette.flowOk
  j.endsOk
  j.eachEntry (j.targetsOk me)
  j.eachEntry (j.waitsOk me)
  let pkg : Job := { j with cassettes := j.cassettes.filter (fun c => c.sol.isEmpty) }
  pkg.eachEntry pkg.operandsOk
  pkg.eachEntry pkg.storesOk
  let uses := pkg.chainUses
  need (uses.1.all (fun k => !(uses.2.contains k))) refuseChain
  pkg.eachEntry pkg.chainOk
  pkg.cassettes.forM pkg.carryOk
  let backed := s.allRegions ++ j.regions
  eachIx j.streams (j.streamOk m me backed)
  pkg.eachEntry (pkg.streamUse me backed)
  pkg.eachEntry pkg.windowsOk
  pkg.cassettes.forM pkg.alternates
  pkg.eachEntry (pkg.redOk m me)
  pkg.cassettes.forM (pkg.amaxOk m me)
  j.slotsOk
  pkg.eachEntry pkg.slotUseOk
  pkg.cassettes.forM pkg.slotOrder
  pkg.replOk me
  pkg.paramOk m me
  pkg.shardOk m me
  pkg.exchDescOk me
  pkg.eachEntry (pkg.exchOk me)
  (match h, j.sol with | some h, some p => s.solverOk j h p | _, _ => .ok ())
  s.reachOk j
  pkg.eachEntry (fun c _ i => pkg.bufferOk me c i)

/-- The generated task joins a solver job (R340). -/
def Job.withSolver (j : Job) (me : Nat) : Ld Job :=
  match j.sol with
  | none => .ok j
  | some p => do
    let t ← p.task
    let cs ← p.cassettes me j.tasks.length
    return { j with tasks := j.tasks ++ [t], cassettes := j.cassettes ++ cs }

/-- 2^LS_EXP in every element of LS_VEC (R275, R281). -/
def State.writeLs (s : State) (j : Job) (e : Int) : State :=
  match j.param with
  | some p =>
    if p.lsVec = noIdx then s
    else (match j.tensor? p.lsVec with
      | some t => s.put (writeTensor t 0 (fun _ _ => .rne) (fun _ _ => .fin false 1 e))
      | none => s)
  | none => s

/-- What the module itself writes at load: scale records (R73, R77) and the exponents that package elements stand under (R52),
statistic slots (R247, R252), the step record and LS_VEC (R279, R281); COPPICE_LOST clears (R280). -/
def State.initJob (s : State) (j : Job) : State :=
  let recs := (j.tensors.filterMap (fun t => if t.srecEn then some t.srec else none)).dedup
  let gl := j.globals
  let s := s.store (recs.flatMap (fun r => srecLoad s.mem r (gl.contains r)))
  let s : State := { s with tags := j.tensors.foldl (fun g t =>
    if t.fmt = .s8e ∨ t.fmt = .s8w then g.put t.base t.bytes (t.scaleOf s.mem) else g) s.tags }
  let s := s.store (j.slots.flatMap initSlot)
  let j : Job := { j with hlens := recs.map (fun r => (r, fld (Cells.word s.mem r) 15 11)) }
  let s : State := { s with
    jobs := s.jobs ++ [j]
    sol := (match j.sol with | some p => s.sol.load p | none => s.sol)
    hub := { s.hub with
      copLost := false
      copGone := s.hub.copGone.filter (· ≠ (j.ctx, j.handle))
      tasks := s.hub.tasks ++ j.tasks.zipIdx.map (fun t => Task.load ⟨j.ctx, j.handle, t.2⟩ t.1.stepBase)
      recs := (match j.param with
        | some p => assocSet s.hub.recs (j.ctx, j.handle) (StepRec.load p j.recStep)
        | none => s.hub.recs) } }
  let s := match j.sol with | some p => s.store (p.records s.sol) | none => s
  match j.param with
  | some p => (s.writeRec j).writeLs j p.lsInit
  | none => s

/-- The loader (R149, R565): a state with the job loaded, the job and its backing, or the first refusal. -/
def State.load (s : State) (ctx handle : Nat) (pay : List Byte) : Ld (State × Job × Back) := do
  let p ← Pkg.read pay
  let b ← s.placeJob p p.cassettes
  let j ← p.job ctx handle b.2 b.1.mem
  let own := j.tasks.length
  s.jobOk j (setGlobals b.1.mem j.globals) p.sol own
  let j2 ← j.withSolver s.me
  let gen := j2.cassettes.drop j.cassettes.length
  s.tasksOk j2 own
  let g ← Back.cassettes { b.2 with cas := [] } gen
  let s2 := b.1.store (g.casWrites gen)
  let j3 : Job := { j2 with pages := g.mine }
  return (({ s2 with pages := g.pages } : State).initJob j3, j3, b.2)

/-- Coppice writes of a load to the partner (R283). -/
def Job.copSends (j : Job) (s : State) : List (Nat × Nat × List Byte) :=
  match j.param with
  | some p => if p.coppiceEn then (j.copImage s.mem s.me (prevStep j.recStep)).map (fun w => (p.copModule, p.copBase + w.1, w.2)) else []
  | none => []

/-- READY_GATE (R490): the entry hub loads no job-context package while DOMAIN_READY is 0. -/
def State.gateBars (s : State) (ctx : Nat) : Bool := s.isEntry && ctx != 0 && bit s.start.cfg 35 && !s.start.domainReady

/-- What bars a LOAD in the module's state: its life-cycle state (R481), or a domain that is not ready (R490). -/
def State.loadBar (s : State) (ctx : Nat) : Option Nat :=
  if s.start.lc ≠ .deployed then some refuseLifeCycle
  else if s.gateBars ctx then some pktState
  else none

/-- LOAD (R455, R456): refused whole with its record, or loaded; complete once the report and the Coppice image are written. It waits
where a stack of its pages cannot be reached (R105). -/
def State.doLoad (s : State) (p : Pkt) : State :=
  if p.started then s
  else
    match s.loadBar p.ctx with
    | some c => s.endPkt p c (if c = pktState then 0 else (Rej.mk c none noIndex).value s.me)
    | none =>
      if (s.job p.ctx p.job).isSome then s.endPkt p pktState 0
      else
        match s.load p.ctx p.job p.pay with
        | .error r => s.endPkt p r.code (r.value s.me)
        | .ok (s', j, b) =>
          let rep := j.reportBytes s.me b
          let dst := fld p.arg0 51 0
          if dst % 8 ≠ 0 ∨ hdmBytes < dst + rep.length then s.endPkt p pktInvalid 0
          else if s.isEntry ∧ s.windowDenied p.ctx dst rep.length then s.endPkt p pktDenied 0
          else if !(s'.reaches (j.pages.map (fun g => ⟨g, pageBytes, true⟩))) then s
          else
            let local' : Bool := match p.origin with | .ring _ _ => true | .fabric _ _ _ => false
            let s' := if local' then s'.windowStore dst rep else s'
            let far : List (Nat × Nat × Nat × List Byte) :=
              (match p.origin with | .fabric m _ _ => (hdmPieces dst rep).map (fun w => (0, m, w.1, w.2)) | .ring _ _ => [])
                ++ (j.copSends s').map (fun w => (p.ctx, w))
            let far := far.filter (fun w => w.2.2.2 ≠ [])
            if far.isEmpty then s'.endPkt p pktOk 0
            else
              let s' : State := { s' with hub := s'.hub.updPkt p.id (fun p => { p with started := true, acks := far.length }) }
              far.foldl (fun s w => s.hubRequest w.2.1 w.1 (.packet p.id) (.write w.2.2.1 w.2.2.2)) s'

def execLoad (id : Nat) (s : State) : Out := onPkt id typeLoad s s.doLoad

end Sys2Proof.Machine
end

