-- ==== Sys2Proof/Machine/Attestation.lean ====
section
/-!
DEFINITION. The attestation engine (R462 to R465): requests of the mailbox, of DOE and of ATTEST packets, answered in the order
they arrive (log 14).
-/

namespace Sys2Proof.Machine

/-- An answer: the module after it, the status and the response bytes. -/
structure AttAns where
  s : State
  status : Nat
  bytes : List Byte
  deriving DecidableEq, Repr

/-- The fuse map and the repair history as verified at start, as bytes whose digest the record takes (R464; log 14). -/
def State.fuseBytes (s : State) : List Byte := bytesOfWords s.start.taken.fuses ++ s.start.taken.history

/-- The bytes of the image of kind `k + 1` as verified at start (R464). -/
def State.imageBytes (s : State) (k : Nat) : List Byte := match s.start.taken.images[k]? with | some i => i.bytes | none => []

/-- The attestation record (R464). -/
def State.attRecord (s : State) (index : Nat) (nonce : List Byte) : List Byte :=
  let f := s.start.flash
  leBytes 4 index ++ leBytes 2 s.me ++ [0, 0] ++ leBytes 8 f.serial.toNat ++ (List.range 32).map (fun k => nonce.getD k 0)
    ++ digest256 (s.imageBytes 0) ++ digest256 (s.imageBytes 1) ++ digest256 (s.imageBytes 2) ++ digest256 (s.imageBytes 3) ++ digest256 s.fuseBytes
    ++ [BitVec.ofNat 8 f.fused.variant, BitVec.ofNat 8 f.stepping, BitVec.ofNat 8 f.endFace, BitVec.ofNat 8 s.start.lc.code]
    ++ List.replicate 44 0

/-- GET_IDENTITY (R462). -/
def State.attIdentity (s : State) : List Byte :=
  (List.range 68).map Config.publicKey ++ (List.range 32).map (fun k => s.start.flash.rootHash.getD k 0)
    ++ bytesOfWords ((List.range 4).map s.ident)

/-- The steps of R465: `secs` seconds have passed since the last signature, and `flashOk` says whether the index was written; with
the flash edge out of service no write succeeds (R105). -/
def State.attSign (s : State) (nonce : List Byte) (secs : Nat) (flashOk : Bool) : AttAns :=
  let f := s.start.flash
  let i := f.xidx
  if 65536 ≤ i then ⟨s, attExhausted, []⟩
  else if s.hub.mail.signed ∧ secs < fld s.hub.cfg 15 0 then ⟨s, attRate, []⟩
  else if !flashOk ∨ !(s.start.edgeUp .flash) then ⟨s, attFlash, []⟩
  else
    let r := s.attRecord i nonce
    ⟨{ s with
        start := { s.start with flash := { f with xidx := i + 1 } }
        hub := { s.hub with mail := { s.hub.mail with signed := true } } },
      pktOk, r ++ (List.range 2692).map (Config.signature i r)⟩

/-- Bytes of the response to a code (R462). -/
def attBytes (code : Nat) : Nat := match code with | 1 => 132 | 2 => 256 | 3 => 2948 | _ => 8

/-- A request of R462 answered. -/
def State.attAnswer (s : State) (req : List Byte) (secs : Nat) (flashOk : Bool) : AttAns :=
  match (req.headD 0).toNat with
  | 1 => ⟨s, pktOk, s.attIdentity⟩
  | 2 => ⟨s, pktOk, s.attRecord 0xFFFFFFFF []⟩
  | 3 => s.attSign ((req.drop 1).take 32) secs flashOk
  | 4 => ⟨s, pktOk, leBytes 8 (mkFld 63 32 s.attRemain ||| mkFld 31 0 s.start.flash.xidx).toNat⟩
  | _ => ⟨s, pktInvalid, []⟩

/-- The response buffer with an answer at its start; what lies behind it stays. -/
def mailResp (old : List Word) (bs : List Byte) : List Word :=
  if bs = [] then old else wordsOfBytes (bs ++ (bytesOfWords old).drop bs.length)

/-- The mailbox takes an answer (R463). -/
def AttAns.intoMail (a : AttAns) : State :=
  let m := a.s.hub.mail
  { a.s with hub := { a.s.hub with mail := { m with
    resp := mailResp m.resp a.bytes, busy := false, done := true, status := a.status, bytes := a.bytes.length } } }

/-- A DOE answer, kept as the value served; a refusal carries no bytes (log 14). -/
def AttAns.intoDoe (a : AttAns) : State := { a.s with hub := { a.s.hub with served := some (a.bytes, false) } }

/-- The engine takes the request at the front of its queue. -/
def State.attPop (s : State) : State := { s with hub := { s.hub with mail := { s.hub.mail with queue := s.hub.mail.queue.drop 1 } } }

/-- A request with the code is served: the oldest that waits, of DOE or of the mailbox, where it is its turn; a request of DOE comes with its
command, is served at once where nothing waits, and else waits its turn (R462, R467). DOE is of the host link alone (R435); in the
minimal hub state no request is served (R477). -/
def State.attServe (s : State) (doe : Bool) (code : Nat) (req : List Byte) (secs : Nat) (flashOk : Bool) : State :=
  if !s.alive || s.start.stage == .minimal || (doe && !s.hostUp) then s
  else
    match s.hub.mail.queue with
    | [] => if doe then (s.attAnswer req secs flashOk).intoDoe else s
    | (f, q) :: _ =>
      if doe then
        (if f = .doe ∧ (q.headD 0).toNat = code then (s.attPop.attAnswer q secs flashOk).intoDoe
        else { s with hub := { s.hub with mail := { s.hub.mail with queue := s.hub.mail.queue ++ [(.doe, req)] } } })
      else if f = .mailbox ∧ (q.headD 0).toNat = code then (s.attPop.attAnswer q secs flashOk).intoMail
      else s

/-- GET_IDENTITY (R462). -/
def execGetIdentity (doe : Bool) (s : State) : Out := .next (s.attServe doe 1 [1] 0 true)

/-- GET_MEASUREMENTS (R462, R464). -/
def execGetMeasurements (doe : Bool) (s : State) : Out := .next (s.attServe doe 2 [2] 0 true)

/-- ATTEST_REQUEST (R462, R465); a mailbox request brings its nonce in the request buffer. -/
def execAttestRequest (doe : Bool) (nonce : List Byte) (secs : Nat) (flashOk : Bool) (s : State) : Out :=
  .next (s.attServe doe 3 (3 :: nonce) secs flashOk)

/-- GET_BUDGET (R462). -/
def execGetBudget (doe : Bool) (s : State) : Out := .next (s.attServe doe 4 [4] 0 true)

/-- ATTEST packet (R455, R462): its request waits its turn; the response is written in the entry module's window. -/
def State.doAttest (s : State) (p : Pkt) (secs : Nat) (flashOk : Bool) : State :=
  let dst := fld p.arg0 51 0
  let queued := s.hub.mail.queue.any (fun q => q.1 = .packet p.id)
  if p.started then s
  else if !(attCode (p.pay.headD 0).toNat) ∨ hdmBytes < dst + attBytes (p.pay.headD 0).toNat then s.endPkt p pktInvalid 0
  else
    let s : State := if queued then s else
      { s with hub := { s.hub with mail := { s.hub.mail with queue := s.hub.mail.queue ++ [(.packet p.id, p.pay)] } } }
    if (s.hub.mail.queue.head?).map (·.1) ≠ some (.packet p.id) then s
    else
      let a := s.attPop.attAnswer p.pay secs flashOk
      let v := BitVec.ofNat 64 a.bytes.length
      if a.status ≠ pktOk then a.s.endPkt p a.status 0
      else
        match p.origin with
        | .ring _ _ => (a.s.windowStore dst a.bytes).endPkt p pktOk v
        | .fabric m _ _ =>
          let ws := (hdmPieces dst a.bytes).filter (fun w => w.2 ≠ [])
          let s := a.s
          let s : State := { s with hub := s.hub.updPkt p.id (fun p => { p with started := true, acks := ws.length, value := v }) }
          ws.foldl (fun s w => s.hubRequest m 0 (.packet p.id) (.write w.1 w.2)) s

def execAttest (id secs : Nat) (flashOk : Bool) (s : State) : Out := onPkt id typeAttest s (fun p => s.doAttest p secs flashOk)

end Sys2Proof.Machine
end

