-- ==== Sys2Proof/Machine/Boundaries.lean ====
section
/-!
DEFINITION. What happens at entry boundaries: migration (R145, R146, R500, R504), suspension (R147), PAUSE and RESUME (R143),
and the substitution of a tile (R183).
-/

namespace Sys2Proof.Machine

/-- A cluster that stops at a boundary for the migration or the saving that comes (R143). -/
def Drl.halt' (d : Drl) (st : DrlState) : Drl := { d with st, back := d.st }

/-- The spare `q` takes over (R145, R146): the full state moves where the boundary is not a migratable one, which adds to FORCED. A
cluster that was due for Tune-up begins its test (R504). -/
def State.moveTo (s : State) (l p q : Nat) (full tune : Bool) : State :=
  let s := s.takeSpare l p q full
  let s : State := if full then { s with hist := { s.hist with forced := satAdd 12 s.hist.forced 1 } } else s
  if tune then { s with start := s.start.upd p (fun c => { c with due := false, tuning := true, was := some l }) } else s

/-- A migration that is due, by its stages (R145, R146, R500, R504, R520). An idle cluster moves at once, or is tested in place. One
that stands at a boundary enters MIGRATING; once the state is copied the spare takes the logical number and goes on. Without a
usable spare a Tune-up is given up, and a rotation drains the module. -/
def State.migrate (s : State) (l : Nat) : State :=
  let c := s.cluster l
  match s.start.phys l with
  | none => s
  | some p =>
    if !c.migDue then s
    else
      let tune := (s.start.cluster p).due
      let give : State := (s.updCluster l (fun c => { c with
        migDue := false, migForce := false, drl := if c.drl.st = .migrating then { c.drl with st := c.drl.back } else c.drl })).settlePause l
      if s.idleAt l && tune then give
      else if !(s.idleAt l) && c.drl.st != .migrating && !(s.mayStop l c.migForce) then s
      else
        match s.start.spareOf (p / 17) with
        | none => if tune then give else if s.tuningOn (p / 17) then s else give.drain 1
        | some q =>
          if s.idleAt l then s.moveTo l p q false tune
          else if c.drl.st = .migrating then
            ((s.moveTo l p q (!(c.drl.atBoundary (s.entriesOf l c.drl) false)) tune).updDrl l
              (fun d => { d with st := d.back })).settlePause l
          else s.updDrl l (fun d => d.halt' .migrating)

/-- MIGRATION (R145, R146, R500). -/
def execMigration (l : Nat) (s : State) : Out := onCluster l (.next (s.migrate l))

/-- FORCED_MIGRATION (R504): TU_DEFER_S has passed, so the cluster stops at its next entry boundary. -/
def execForcedMigration (l : Nat) (s : State) : Out :=
  onCluster l (.next
    (if (s.cluster l).migDue then (s.updCluster l (fun c => { c with migForce := true })).migrate l else s))

/-- Every cluster of a task has been saved: the task is suspended, its RUN or RESUME completes with STATUS.SUSPENDED and the
step in progress, and its SUSPEND completes (R147, R455). -/
def State.allSaved (s : State) (k : TaskKey) : State :=
  match s.hub.task k with
  | some t =>
    if t.st = .suspending ∧ s.holders k = [] then
      let s := s.updTask k (fun t => { t with st := .suspended, runPkt := none, suspPkt := none })
      (s.endPktId t.runPkt statusSuspended (BitVec.ofNat 64 t.step)).endPktId t.suspPkt pktOk 0
    else s
  | none => s

/-- A cluster's state written to its slot of the save area (R145, R147): the stores where the boundary is not a migratable one, and
the words. -/
def State.saveState (s : State) (k : TaskKey) (l : Nat) : State :=
  let c := s.cluster l
  let full := !(c.drl.atBoundary (s.entriesOf l c.drl) false)
  let s := if full then s.copyRange (storeBase + l * storeStride) (s.saveSlot k l) storeStride else s
  s.writeSlot k l c.drl full c.cfg c.shadow

/-- Statistic slots of a cluster with a candidate or an OPEN plane (R256). -/
def Job.carries (j : Job) (m : Cells) (l : Nat) (is : List Nat) : List Nat :=
  is.filter (fun i => match j.slots[i]? with
    | some x => x.owner == l && (x.candState m != 0 || x.planeState m == 1)
    | none => false)

/-- A cluster of a suspending task at its boundary enters SAVING, behind a migration that acts there (R153); once its state lies in
its slot it becomes free (R147). -/
def State.saveCluster (s : State) (l : Nat) : State :=
  let c := s.cluster l
  match c.drl.holder with
  | some k =>
    if c.drl.st = .saving then
      let d := { c.drl with st := .running, suspendReq := false, suspendForce := false, pauseReq := false }
      let slots := match s.jobOf k with | some j => j.carries s.mem l (s.ownSlots k [l]) | none => []
      let s := (s.saveState k l).updTask k (fun t => { t with saved := t.saved ++ [⟨l, d, c.top.queue, slots⟩] })
      let s := s.updCluster l (fun c => { c with drl := Drl.idle, lastCode := statusSuspended, top := { c.top with queue := [] } })
      s.allSaved k
    else if s.suspActs l && !(s.migActs l) then s.updDrl l (fun d => d.halt' .saving)
    else s
  | none => s

/-- SUSPEND_AT_BOUNDARY (R147). -/
def execSuspendAtBoundary (l : Nat) (s : State) : Out := onCluster l (.next (s.saveCluster l))

/-- SUSPEND_WIN_EXPIRY (R147): the clusters of a suspending task stop at their next entry boundary. -/
def execSuspendWinExpiry (key : TaskKey) (s : State) : Out :=
  .next (match s.hub.task key with
    | some t =>
      if t.st = .suspending then
        { s with clusters := s.clusters.map (fun c => c.updDrl key (fun d => { d with suspendForce := d.suspendReq })) }
      else s
    | none => s)

/-- PAUSE (R143). -/
def execPause (l : Nat) (s : State) : Out := onCluster l (onHub s (.next (s.pause l)))

/-- DRL_CMD_RESUME (R143, R300). -/
def execDrlCmdResume (l : Nat) (s : State) : Out := onCluster l (onHub s (.next (s.updCluster l Cluster.resume)))

/-- SUBST (R183). -/
def execSubst (l t : Nat) (s : State) : Out := onCluster l (onHub s (.next (s.requestSubst l t)))

end Sys2Proof.Machine
end

