-- ==== Sys2Proof/Machine/Bus.lean ====
section
/-!
DEFINITION. The management bus (R108, R545, R549, R550).
-/

namespace Sys2Proof.Machine

/-- HUB_MGMT_STATE (R550). -/
def State.mgmt (s : State) : Word :=
  mkFld 63 60 s.start.stage.code ||| mkFld 59 56 s.start.lc.code ||| mkFld 55 48 s.start.halt ||| mkFld 47 44 s.hist.drainCause
    ||| mkFld 43 43 (b2n s.pwr.ilk) ||| mkFld 42 42 (b2n s.pwr.linkFail)

/-- FAULT# and DRAIN# (R545), as asserted: while STAGE reads HALTED, and while the life-cycle state is DRAIN. -/
def State.faultPin (s : State) : Bool := s.pwr.on && s.start.stage == .halted
def State.drainPin (s : State) : Bool := s.pwr.on && s.start.lc == .drain

/-- A Block Read of 8 bytes, little-endian, answered whenever the hub is powered (R549). -/
def State.blockRead (s : State) (w : Word) : State :=
  if s.pwr.on then { s with hub := { s.hub with served := some (leBytes 8 w.toNat, false) } } else s

/-- HUB_MGMT_STATE_READ (R549, R550). -/
def execHubMgmtStateRead (s : State) : Out := .next (s.blockRead s.mgmt)

/-- PWR_STATUS_READ (R549, R558). -/
def execPwrStatusRead (s : State) : Out := .next (s.blockRead s.pwrStatus)

/-- PWR_INPUT_READ (R549, R558). -/
def execPwrInputRead (s : State) : Out := .next (s.blockRead s.pwrInput)

/-- PWR_THERMAL_READ (R549, R558). -/
def execPwrThermalRead (s : State) : Out := .next (s.blockRead s.pwrThermal)

/-- HUB_IDENT_READ (R445, R549): codes 0x04 to 0x06; any other code is NACKed, and nothing is answered. -/
def execHubIdentRead (code : Nat) (s : State) : Out :=
  .next (if 4 ≤ code ∧ code ≤ 6 then s.blockRead (s.ident (code - 4)) else s)

/-- SMB_ALERT_RESPONSE (R549): the answer releases SMB_ALERT#. -/
def execSmbAlertResponse (s : State) : Out := .next (if s.pwr.on then { s with pwr := { s.pwr with alert := false } } else s)

/-- SMB_CLK_TIMEOUT (R108): the transfer is abandoned, so the word latched for it is dropped. -/
def execSmbClkTimeout (s : State) : Out := .next { s with hub := { s.hub with served := none } }

end Sys2Proof.Machine
end

