-- ==== Sys2Proof/Machine/Commits.lean ====
section
/-!
DEFINITION. Writes to the commit words (R139 to R141, R212, R280, R360, R392, R431, R445, R491, R518, R532, R558) and to the
words without a row of their own (R442, R443).
-/

namespace Sys2Proof.Machine

/-- DRL_COMMIT of a cluster (R140, R143). -/
def execDrlCommit (l : Nat) (s : State) : Out := onCluster l (onHub s (.next (s.updCluster l Cluster.commitDrl)))

/-- TIL_COMMIT of a cluster (R140, R181). -/
def execTilCommit (l : Nat) (s : State) : Out := onCluster l (onHub s (.next (s.updCluster l Cluster.commitTil)))

/-- CHN_COMMIT of a cluster (R140, R212). -/
def execChnCommit (l : Nat) (s : State) : Out := onCluster l (onHub s (.next (s.updCluster l Cluster.commitChn)))

/-- OPT_COMMIT (R140, R280). -/
def execOptCommit (s : State) : Out := onHub s (.next ({ s with hub := s.hub.commitOpt }))

/-- SOL_COMMIT (R140, R360). -/
def execSolCommit (s : State) : Out := onHub s (.next ({ s with sol := s.sol.commit }))

/-- MEM_COMMIT (R140, R392). -/
def execMemCommit (s : State) : Out := onHub s (.next ({ s with pages := s.pages.commit }))

/-- HDG_COMMIT (R140, R431). -/
def execHdgCommit (s : State) : Out := onHub s (.next ({ s with fab := s.fab.commit }))

/-- HUB_COMMIT (R140, R445). -/
def execHubCommit (s : State) : Out := onHub s (.next ({ s with hub := s.hub.commitHub }))

/-- TST_COMMIT (R140, R491). -/
def execTstCommit (s : State) : Out := onHub s (.next ({ s with start := s.start.commitTst }))

/-- TST_TUNE_COMMIT (R140, R518). -/
def execTstTuneCommit (s : State) : Out := onHub s (.next ({ s with hist := s.hist.commitTune s.start.starts }))

/-- CTR_COMMIT (R140, R532). -/
def execCtrCommit (s : State) : Out := onHub s (.next ({ s with ctr := s.ctr.commit s.entryOf s.allRegions }))

/-- CTR_CL_COMMIT of a cluster, written by a context (R529, R534). -/
def execCtrClCommit (l ctx : Nat) (s : State) : Out := onCluster l (onHub s (.next (s.commitCtrc l ctx)))

/-- PWR_COMMIT (R140, R558). -/
def execPwrCommit (s : State) : Out := onHub s (.next ({ s with pwr := s.pwr.commit s.start.flash.conf.limits }))

/-- A write of the control BAR: only an aligned write of 8 bytes acts, as the system context (R139, R442). -/
def State.barWrite (s : State) (off bytes : Nat) (value : Word) : State :=
  let s := s.hubCount chBarWrites 1
  if bytes ≠ 8 ∨ off % 8 ≠ 0 then { s with hub := { s.hub with barErr := true } }
  else
    match regAt off with
    | some r => s.writeReg r value 0
    | none => s

/-- What a read of the control BAR returns (R442): the word of an aligned read of 8 bytes, as the system context; a read of any other
size, and a reserved offset (R15), return 0. -/
def State.barRead (s : State) (off bytes : Nat) : Word :=
  if bytes ≠ 8 then 0 else match regAt off with | some r => s.readReg r | none => 0

/-- REGISTER_WRITE (R139, R442): the control BAR is the entry module's (R435). -/
def execRegisterWrite (off bytes : Nat) (value : Word) (s : State) : Out :=
  onHub s (.next (if s.hostUp then s.barWrite off bytes value else s))

end Sys2Proof.Machine
end

