-- ==== Sys2Proof/Machine/CounterOps.lean ====
section
/-!
DEFINITION. Snaps and dumps by command and by period (R530 to R533).
-/

namespace Sys2Proof.Machine

/-- SNAP (R530, R532). -/
def execSnap (s : State) : Out := onHub s (.next (s.snap false))

/-- SNAP_DOMAIN (R531, R532): at the entry module only. -/
def execSnapDomain (s : State) : Out :=
  onHub s (.next (if s.isEntry then s.snap true else { s with ctr := { s.ctr with cmdErr := true } }))

/-- CLEAR (R532). -/
def execClear (s : State) : Out := onHub s (.next { s with ctr := { s.ctr with clear := true } })

/-- PERIODIC_DUMP (R532): the period expires while DUMP_EN is 1. -/
def execPeriodicDump (s : State) : Out :=
  onHub s (.next (
    if !(bit s.ctr.cfg 63) then s
    else if s.hub.snapBusy then { s with ctr := { s.ctr with dumpMissed := satAdd 16 s.ctr.dumpMissed 1 } }
    else s.snap false))

end Sys2Proof.Machine
end

