-- ==== Sys2Proof/Machine/HostLink.lean ====
section
/-!
DEFINITION. The host link (R438 to R441): reads and writes of the HDM window, doorbells (R448), the intake of packets (R449,
R453, R454), and resets from the host side.
-/

namespace Sys2Proof.Machine

/-! ## Doorbells -/

/-- Enabled bytes in runs of consecutive ones, each with its offset. -/
def runsOf : Nat → List (Bool × Byte) → List (Nat × List Byte)
  | _, [] => []
  | k, (e, b) :: l =>
    let r := runsOf (k + 1) l
    if !e then r
    else
      match r with
      | (a, bs) :: rest => if a = k + 1 then (k, b :: bs) :: rest else (k, [b]) :: r
      | [] => [(k, [b])]

/-- A write of a doorbell word with byte enables, one bit per byte (R448): the bytes are stored, and a field acts where its four bytes
are enabled. A write with the poison bit poisons the word, and the hub does not act on a word that is poisoned after the write (R387,
R438; log 15). -/
def State.ringBell (s : State) (n : Nat) (v : Word) (enables : Nat) (poison : Bool := false) : State :=
  let a := hdmLocal (0x1000000 + 8 * n)
  let s := s.store ((runsOf 0 ((leBytes 8 v.toNat).zipIdx.map (fun b => (enables.testBit b.2, b.1)))).map (fun r => (a + r.1, r.2)))
  let s : State := if poison then { s with poison := s.poison.add a } else s
  if s.poison.contains a then s else s.doorbell n v (enables % 16 = 15) (enables / 16 % 16 = 15)

/-- DOORBELL_WRITE (R448): it completes with Cmp (R438). -/
def execDoorbellWrite (ring : Nat) (value : Word) (enables : Nat) (s : State) : Out :=
  if 262144 ≤ ring then .fault .noSuchUnit
  else .next (if s.hostUp then
    (let s := s.ringBell ring value enables
     { s with hub := { s.hub with served := some ([], false) } }) else s)

/-! ## Packet intake -/

/-- The next packet of a ring as intake reads it: its header once, and the payload that the header names. -/
def State.nextPkt (s : State) (n : Nat) : Pkt :=
  let r := s.hub.ring n
  let p : Pkt := ⟨s.hub.nextPid, s.slotWords r r.head, [], .ring n r.head, false, 0, 0⟩
  { p with pay := s.readHdm (r.poolBase + p.payOff) p.poolLen }

/-- A READ whose destination in the host window its context may not write (R446). -/
def State.readDenied (s : State) (p : Pkt) : Bool := p.type == typeRead && s.windowDenied p.ctx (fld p.arg1 51 0) p.payLen

/-- The checks of the entry hub, in their order (R454). -/
def State.intakeFail (s : State) (n : Nat) (p : Pkt) : Option Nat :=
  if packetCrc p.words p.pay ≠ fld (wordAt p.words 7) 31 0 then some pktCrc
  else if !(p.headerOk (n / 64) (s.hub.ring n).poolBytes) then some pktInvalid
  else if (p.sys && n / 64 != 0) || s.readDenied p then some pktDenied
  else if !(s.fab.routes.reaches s.me p.dst) then some refuseUnreachable
  else none

/-- What the entry hub's own state makes of a packet that has passed them (R457, R490). -/
def State.intakeBar (s : State) (p : Pkt) : Option Nat :=
  match s.stateBars p with
  | some c => some c
  | none => if p.type = typeLoad ∧ s.gateBars p.ctx then some pktState else none

/-- An earlier packet of the ring has not completed. -/
def Hub.ringBusy (h : Hub) (n : Nat) : Bool :=
  h.pkts.any (fun p => match p.origin with | .ring k _ => k == n | .fabric _ _ _ => false) || h.fwds.any (fun f => f.ring == n && !f.done)

/-- A held packet whose step is more than one ahead of its task (R454), as the task's record here tells the step; for another module whose
task this one does not run, it waits while an earlier held packet of its ring has not been answered (log 59). -/
def State.tooEarly (s : State) (n : Nat) (p : Pkt) : Bool :=
  p.hold && p.type == typeData && (match s.pktTask p with
    | some t => decide (p.step > t.current + 1)
    | none => p.dst != s.me && s.hub.fwds.any (fun f => f.ring == n && f.hold && !f.done))

/-- A SOL_DELTA packet for this module whose pending area is full: it fits no longer, or one at the head of another ring, or one that
the hub has taken, waits for room there (R344). -/
def State.deltaWaits (s : State) (p : Pkt) : Bool :=
  p.type == typeDelta && p.dst == s.me
    && (s.deltaStuck p || s.hub.pkts.any (fun q => !q.started && s.deltaStuck q)
      || s.hub.rings.any (fun r => r.2.st != .closed && r.2.head != r.2.tailSeen && (s.nextPkt r.1).dst == s.me && s.deltaStuck (s.nextPkt r.1)))

/-- An FW_IMAGE for this module waits in its ring while another image is in STAGE (R492). -/
def State.imageWaits (s : State) (p : Pkt) : Bool := p.type == typeFwImage && p.dst == s.me && s.fab.bcast.isSome

/-- The ring has a packet that can start now (R449), in slots and pool bytes that can be read (R105). -/
def State.canStart (s : State) (n : Nat) : Bool :=
  let r := s.hub.ring n
  if r.st == .closed || r.head == r.tailSeen || !r.cqRoom || !r.waiting.isEmpty then false
  else
    let p := s.nextPkt n
    if !(s.reaches [⟨hdmLocal (r.ringBase + 64 * (r.head % r.slots)), 64, false⟩]
        && s.reaches ((hdmPieces (r.poolBase + p.payOff) p.pay).map (fun w => ⟨w.1, w.2.length, false⟩))) then false else
    if p.ordered && s.hub.ringBusy n then false
    else (s.intakeFail n p).isSome || (s.intakeBar p).isSome || (!(s.tooEarly n p) && !(s.deltaWaits p) && !(s.imageWaits p) && (p.dst == s.me || s.hub.creditsUsed p.dst < 64))

/-- The rings in the order in which intake looks at them: context 0's, then the others in turn (R449). -/
def Hub.intakeOrder (h : Hub) : List Nat :=
  let ns := sortBy (· ≤ ·) (h.rings.map (·.1))
  let jobs := ns.filter (fun n => 64 ≤ n)
  ns.filter (fun n => n < 64) ++ jobs.filter (fun n => h.turn < n) ++ jobs.filter (fun n => n ≤ h.turn)

/-- Intake takes the next packet of a ring (R449, R454, R459): it fails, stays at this hub, or goes to its destination. -/
def State.take (s : State) (n : Nat) : State :=
  let r := s.hub.ring n
  let p := s.nextPkt n
  let s : State := { s with hub := { (s.hub.setRing n { r with head := (r.head + 1) % 2 ^ 32 }) with
    turn := if 64 ≤ n then n else s.hub.turn, nextPid := s.hub.nextPid + 1 } }
  let s := (s.hubCount chPackets 1).hubCount chPayload p.pay.length
  let fail (s : State) (c : Nat) : State := s.ringEnd n r.head true (some ⟨false, p.type, c, p.tag, 0⟩)
  match s.intakeFail n p with
  | some c => fail (if c = pktCrc then s.hubCount chCrcFails 1 else s) c
  | none =>
    match s.intakeBar p with
    | some c => fail s c
    | none =>
      if p.dst = s.me then { s with hub := { s.hub with pkts := s.hub.pkts ++ [p] } }
      else
        let f : Fwd := ⟨p.id, n, r.head, p.dst, p.type, p.tag, p.ctx, p.job, p.hold, false, p.payOff, p.payLen⟩
        ({ s with hub := { s.hub with fwds := s.hub.fwds ++ [f] } } : State).send ⟨p.dst, s.me, p.ctx, 0, 0, .packet p.id p.words p.pay⟩

/-- The ring has a packet ready at intake. -/
def State.ringReady (s : State) (n : Nat) : Bool := let r := s.hub.ring n; r.st != .closed && r.head != r.tailSeen

/-- The ring's next packet waits for PACKET credits of its destination (R406). -/
def State.creditWaits (s : State) (n : Nat) : Bool :=
  let p := s.nextPkt n
  s.ringReady n && p.dst != s.me && decide (64 ≤ s.hub.creditsUsed p.dst)

/-- The class of an intake pace stroke on which nothing starts (R526, R527): why the first ring with a packet waits (log 26). -/
def State.intakeClass (s : State) : Option Nat :=
  match s.hub.intakeOrder.find? s.ringReady with
  | none => none
  | some n =>
    let r := s.hub.ring n
    if !r.cqRoom || !r.waiting.isEmpty then some 6
    else if s.tooEarly n (s.nextPkt n) then some 7
    else if s.creditWaits n then some 5
    else none

/-- The hub's threshold units at an intake pace stroke (R528, R529). -/
def State.hubOver (s : State) : State :=
  let occ (q : Nat) : Option Nat :=
    if q = 0x20 then some (s.hub.rings.filter (fun r => s.ringReady r.1)).length
    else if q = 0x21 then some (s.hub.rings.filter (fun r => s.creditWaits r.1)).length
    else none
  { s with ctr := (List.range 8).foldl (fun (c : Ctr) u =>
      let w := c.thrHub.getD u 0
      match (if bit w 63 then occ (fld w 47 40) else none) with
      | none => c
      | some n =>
        let up := decide (fld w 15 0 < n)
        { c with
          hub := addCounts c.hub [(16 + 2 * u, b2n up), (17 + 2 * u, b2n (up && !(c.above.getD u false)))]
          above := c.above.set u up }) s.ctr }

/-- PACKET_INTAKE (R449, R454), on one pace stroke of the intake; while the host edge is stopped or out of service intake waits
(R105). -/
def execPacketIntake (s : State) : Out :=
  .next (
    if !s.hostUp || !(s.start.edgeUp .host) then s
    else
      let o := s.hub.intakeOrder.find? s.canStart
      let c := s.intakeClass
      let s := (s.hubCount 0 1).hubOver
      match o with
      | some n => s.take n
      | none => (match c with | some w => s.hubCount w 1 | none => s))

/-! ## Memory messages (R438) -/

/-- The offset is one of memory, not of a control block or a reserved range. -/
def inMemory (off : Nat) : Bool := windowAt off == .plain || windowAt off == .doorbell

/-- A byte as the host reads it; the data of a poisoned word is not the word's. -/
def State.hostRead (s : State) (off : Nat) : Byte :=
  let a := hdmLocal off
  if inMemory off ∧ s.poison.contains (a / 8 * 8) then Config.poisonByte a else s.hostByte off

/-- MEM_RD (R438): 64 bytes, poisoned where a word of them is; words found uncorrectable are poisoned first (R387). -/
def execMemRd (off : Nat) (ev : Ev) (s : State) : Out :=
  .next (
    let o := off / 64 * 64
    if !s.hostUp ∨ hdmBytes ≤ o ∨ (inMemory o ∧ !(s.reaches [⟨hdmLocal o, 64, false⟩])) then s
    else
      let a := hdmLocal o
      let bad := if inMemory o then ev.bad.filter (fun w => a ≤ w && w < a + 64 && !(s.poison.contains (w / 8 * 8))) else []
      let s := bad.foldl State.poisonWord s
      let s := if inMemory o then (s.corrected ev.fixed [⟨a, 64, false⟩]).countBytes none [⟨a, 64, false⟩] else s
      let poison := inMemory o && s.poison.any (fun w => a ≤ w && w < a + 64)
      { s with hub := { s.hub with served := some ((List.range 64).map (fun i => s.hostRead (o + i)), poison) } })

/-- MEM_SPEC_RD (R438): dropped. -/
def execMemSpecRd (_ : Nat) (s : State) : Out := .next s

/-- MEM_INV (R438): Cmp, and memory as it was. -/
def execMemInv (off : Nat) (s : State) : Out :=
  .next (if s.hostUp ∧ off < hdmBytes then { s with hub := { s.hub with served := some ([], false) } } else s)

/-- The enables of 8 bytes as a mask. -/
def maskOf (es : List Bool) : Nat := sumNat (es.zipIdx.map (fun e => if e.1 then 2 ^ e.2 else 0))

/-- A line of 64 bytes written by the host (R438, R440, R441, R448): control blocks and reserved ranges discard it, doorbells
act, other bytes are written. -/
def State.hostWrite (s : State) (o : Nat) (bytes : List Byte) (enables : List Bool) (poison : Bool) : State :=
  match windowAt o with
  | .block _ | .reserved => { s with hub := { s.hub with served := some ([], false) } }
  | .doorbell =>
    let s := (List.range 8).foldl (fun s k =>
      let m := maskOf ((enables.drop (8 * k)).take 8)
      if m = 0 then s else s.ringBell ((o - 0x1000000) / 8 + k) (BitVec.ofNat 64 (ofLeBytes ((bytes.drop (8 * k)).take 8))) m poison) s
    { s with hub := { s.hub with served := some ([], false) } }
  | .plain =>
    match runsOf 0 (enables.zip bytes) with
    | [] => { s with hub := { s.hub with served := some ([], false) } }
    | rs => rs.foldl (fun s r => s.memWrite ⟨hdmLocal o + r.1, r.2, poison, .host⟩) s

/-- MEM_WR (R438). -/
def execMemWr (off : Nat) (bytes : List Byte) (enables : List Bool) (poison : Bool) (s : State) : Out :=
  .next (
    let o := off / 64 * 64
    if !s.hostUp ∨ hdmBytes ≤ o then s
    else s.hostWrite o ((List.range 64).map (fun i => bytes.getD i 0)) ((List.range 64).map (fun i => enables.getD i false)) poison)

/-! ## Resets from the host side (R439) -/

/-- LINK_RESET (R436, R439): the controller retrains at the widest of the widths whose lanes, as found, all pass, and falls back to 32
GT/s where equalisation at 64 GT/s fails; configuration space and the decoder return to their defaults, and the host edge goes on with
it. -/
def execLinkReset (lanes speed : Nat) (ide : Bool) (s : State) : Out :=
  .next (
    if !s.hostUp then s
    else
      let w := linkWidth lanes
      { s with
        hub := { s.hub with link := ⟨w, if w = 0 then 0 else speed % 2, ide && w != 0, CfgSpace.default⟩, served := none }
        pwr := { s.pwr with linkFail := w == 0, alert := s.pwr.alert || s.pwr.linkFail != (w == 0) }
        start := { s.start with stopped := s.start.stopped.filter (· != .host), outEdges := s.start.outEdges.filter (· != .host) } })

/-- FLR (R439): CXL.io function state only, without retraining; the decoder of CXL.mem stays. -/
def execFlr (s : State) : Out :=
  .next (if s.hostUp then
    { s with hub := { s.hub with link := { s.hub.link with space := { CfgSpace.default with decoder := s.hub.link.space.decoder } } } } else s)

/-- Contexts other than 0 that hold a ring, a job or a packet, here or by this entry module's loads. -/
def State.contexts (s : State) : List Nat :=
  let a := s.hub.rings.map (fun r => r.1 / 64)
  let b := s.jobs.map (fun j => j.ctx)
  let c := s.hub.pkts.map (fun p => p.ctx)
  let d := s.hub.fwds.map (fun f => f.ctx)
  let e := s.hub.remote.map (fun r => r.2.1)
  ((a ++ b ++ c ++ d ++ e).filter (fun n => n ≠ 0)).dedup

/-- CXL_RESET (R439): every context from 1 is reset and its rings close, once no task of one still applies a restore outcome (R289). -/
def execCxlReset (s : State) : Out :=
  .next (
    if !s.hostUp || s.contexts.any s.restoringIn then s
    else
      let s := s.contexts.foldl (fun s n => (s.resetDomain n .plain).1) s
      let open' := (s.hub.rings.filter (fun r => 64 ≤ r.1 ∧ r.2.st = .opened)).map (fun r => r.1)
      let h := open'.foldl (fun (h : Hub) n => h.setRing n ({ h.ring n with st := .closing } : Ring).settle) s.hub
      { s with hub := h })

end Sys2Proof.Machine
end

