-- ==== Sys2Proof/Machine/FabricOps.lean ====
section
/-!
DEFINITION. Messages as they arrive (R401, R404 to R406): forwarding, WRITE, READ, SIGNAL and PACKET requests, their answers, and
LINK messages (R400, R405, R410, R411, R131, R458 to R460).
-/

namespace Sys2Proof.Machine

/-! ## Arrival -/

/-- The message of a header and a body. -/
def msgOf (rx : Rx) (b : Body) : Msg := ⟨rx.dst, rx.src, rx.ctx, rx.tag, rx.scl, b⟩

/-- A port has received a message: its flits are numbered and counted (R399, R527), and the next LINK acknowledges them (R404). -/
def State.rxPort (s : State) (p : Nat) (m : Msg) : State :=
  { s with
    fab := { s.fab with ports := updAt s.fab.ports p (fun x => { x with rxSeq := (x.rxSeq + m.flits) % 65536 }) }
    ctr := s.ctr.port p 1 m.flits }

/-- A message for another module goes on, and its credits with it (R405, R408); a REMOVABLE module forwards nothing (R427). Where it waits, a
LINK acknowledges its flits alone. -/
def State.forward (s : State) (p : Nat) (m : Msg) : State :=
  if s.fab.state = .removable then s.consumed p m.body
  else
    let s : State := { s with ctr := (s.ctr.port p 8 1).port p 9 m.body.payBytes }
    s.withFab (({ s.fab with due := p :: s.fab.due.filter (· ≠ p) } : Fab).inject s.me m (some p))

/-- Messages that a module in the minimal hub state takes (R477). -/
def Body.minimal : Body → Bool
  | .join _ _ | .leave _ | .linkState _ _ | .drained _ _ | .switch _ | .fwChunk _ _ _ | .fwAck _ _ => true
  | _ => false

/-- A message with this header is taken by this module: it came on a port that is UP and whose edge runs, or from the module
itself, and it is addressed to the module, which is not in the minimal hub state. -/
def State.hears (s : State) (rx : Rx) : Bool :=
  s.alive && s.start.stage != .minimal && rx.dst == s.me &&
    (match rx.port with
    | some p => p < 48 && (s.fab.port p).st == .up && s.start.edgeUp (.serdes p)
    | none => rx.src == s.me)

/-- The module once it has received a message: the port's part of it, and the count of management messages (R527). -/
def State.received (s : State) (rx : Rx) (b : Body) : State :=
  match rx.port with
  | some p => (s.rxPort p (msgOf rx b)).hubCount chMgmt (if b.vc = 3 then 1 else 0)
  | none => s

/-- The answer to a request: its context, tag and cluster come back (R404). -/
def State.answer (s : State) (rx : Rx) (b : Body) : State := s.send ⟨rx.src, s.me, rx.ctx, rx.tag, rx.scl, b⟩

def nackRange : Nat := 1
def nackPoison : Nat := 2
def nackNoTask : Nat := 3
def nackBusy : Nat := 4

/-! ## Requests -/

/-- A request of a context that was reset is discarded without an answer (R515). -/
def State.barred (s : State) (ctx : Nat) : Bool := s.hub.barred.contains ctx

/-- The bytes lie in the destination of an exchange that an abort or a reset of the context has cut off: rows that come late are dropped
(R332). -/
def State.deadRow (s : State) (ctx a n : Nat) : Bool := s.hub.dead.any (fun d => d.1.ctx = ctx && d.2.1 < a + n && a < d.2.1 + d.2.2)

/-- What a WRITE meets at its destination. -/
inductive WriteFate where
  | dropped
  | refused (reason : Nat)
  | waits
  | lands
  deriving DecidableEq, Repr

/-- Swap pairs of a loaded job, which a job context's WRITE may not change: only OPTIMISE writes U, and no entry writes C (R261; log 45). -/
def State.inPairs (s : State) (ctx a n : Nat) : Bool := ctx != 0 && s.jobs.any (fun j => j.pairRanges.any (meetRange a n))

/-- WRITE at its destination (R387, R388, R410, R411): one of a reset context, or a row of an exchange that has ended, is dropped; one
outside the context's regions, in the system area (R111), in a swap pair (R261) or over part of a poisoned word is refused; another lands,
after a page move or once its stack is reached (R105, R377). -/
def State.writeFate (s : State) (rx : Rx) (addr : Nat) (bytes : List Byte) : WriteFate :=
  if s.barred rx.ctx || s.deadRow rx.ctx addr bytes.length then .dropped
  else if !(s.mayTouch rx.ctx addr bytes.length) || (pagesOf addr bytes.length).any inSys || s.inPairs rx.ctx addr bytes.length then
    .refused nackRange
  else if (s.poison.partHit addr bytes.length).isSome then .refused nackPoison
  else if s.lands addr bytes.length then .lands
  else .waits

def State.fabWrite (s : State) (rx : Rx) (addr : Nat) (bytes : List Byte) : State :=
  match s.writeFate rx addr bytes with
  | .dropped => s
  | .refused r => s.answer rx (.nack addr r)
  | .waits | .lands => s.memWrite ⟨addr, bytes, false, .fabric rx.port rx.src rx.ctx rx.tag rx.scl⟩

/-! ## Arrival at this module -/

/-- What the port that brought a message answers once the module has taken it (R404 to R406): the flits are acknowledged, and their credits
go back but for a WRITE that waits for memory; one that has landed has returned its own. -/
def State.tookFrom (s t : State) (p : Nat) (rx : Rx) (b : Body) : State :=
  match (match b with | .write a bs => t.writeFate rx a bs | _ => .dropped) with
  | .lands => s
  | .waits => s.withFab (s.fab.link s.me p false)
  | _ => s.consumed p b

/-- A message arrives: on a port that is UP, or from the module itself; it is taken here or goes on. In the minimal hub state the other
messages of R477 are discarded. A LINK answers every message (log 23). -/
def State.arrive (s : State) (rx : Rx) (b : Body) (f' : State → State) : Out :=
  let m := msgOf rx b
  let f (s : State) : State := if s.start.stage == .minimal && !b.minimal then s else f' s
  match rx.port with
  | some p =>
    onPort p (.next (
      if !s.alive || (s.fab.port p).st != .up || !(s.start.edgeUp (.serdes p)) then s
      else if rx.dst = s.me then
        let t := s.received rx b
        (f t).tookFrom t p rx b
      else (s.rxPort p m).forward p m))
  | none => .next (if s.alive && rx.dst == s.me && rx.src == s.me then f s else s)

/-- WRITE (R404, R411). -/
def execWrite (rx : Rx) (addr : Nat) (bytes : List Byte) (s : State) : Out :=
  s.arrive rx (.write addr bytes) (fun s => s.fabWrite rx addr bytes)

/-- READ at its destination (R411): an uncorrectable word answers POISON, and is poisoned (R387). -/
def State.fabRead (s : State) (rx : Rx) (addr n : Nat) (ev : Ev) : State :=
  if s.barred rx.ctx then s
  else if !(s.mayTouch rx.ctx addr n) then s.answer rx (.nack addr nackRange)
  else
    let bad := ev.bad.filter (fun w => w / 8 * 8 < addr + n && addr < w / 8 * 8 + 8 && !(s.poison.contains (w / 8 * 8)))
    let s := (bad.foldl State.poisonWord s).corrected ev.fixed [⟨addr, n, false⟩]
    if (s.poison.hit addr n).isSome then s.answer rx (.nack addr nackPoison)
    else (s.countBytes none [⟨addr, n, false⟩]).answer rx (.readData addr (s.seen addr n))

/-- FABRIC_READ (R404, R411). One whose stack is not reached stays in the receive buffer: the command changes nothing yet (R105, R406; log 7). -/
def execFabricRead (rx : Rx) (addr n : Nat) (ev : Ev) (s : State) : Out :=
  if s.hears rx && !(s.barred rx.ctx) && s.mayTouch rx.ctx addr n && !(s.reaches [⟨addr, n, false⟩]) then .next s
  else s.arrive rx (.read addr n) (fun s => s.fabRead rx addr n ev)

/-! ## Signals (R129 to R131, R299) -/

/-- The borrowing task on a lent cluster names the cluster that sent a signal: a lender there is paused and sends none, so the signal is the
borrower's (R298, R299; log 61). -/
def State.fromBorrower (s : State) (l scl : Nat) : Option TaskKey :=
  let c := s.cluster l
  match (if c.under.isSome then c.drl.holder else none) with
  | some k => (match s.jobOf k with | some j => if (j.clusters k.task).contains scl then some k else none | none => none)
  | none => none

/-- The task that a signal to a cluster addresses: the sender's where it is a cluster of this module, since only a task's own
clusters signal it; from another module a borrower whose task the sending cluster runs, and else the lender (R298, R299). -/
def State.sigKey (s : State) (rx : Rx) (l : Nat) : Option TaskKey :=
  let c := s.cluster l
  let own := if rx.src = s.me then (s.cluster rx.scl).drl.holder else s.fromBorrower l rx.scl
  let here := [c.under.bind (fun d => d.holder), c.drl.holder].filterMap id
  let saved := (s.hub.tasks.filter (fun t => t.saved.any (fun v => v.cluster = l))).map (fun t => t.key)
  let ks := (here ++ saved).filter (fun k => k.ctx = rx.ctx)
  match own with
  | some k => if ks.contains k then some k else none
  | none => ks.head?

/-- The Derailleur of a task on a cluster, wherever it lies: on the cluster, beneath a borrower, or in the save area. -/
def State.drlOf (s : State) (k : TaskKey) (l : Nat) : Option Drl :=
  let c := s.cluster l
  if c.drl.holder = some k then some c.drl
  else
    match c.under with
    | some d => if d.holder = some k then some d else none
    | none => ((s.hub.task k).bind (fun t => t.saved.find? (fun v => v.cluster = l))).map (fun v => v.drl.ofWords (s.slotWords' k l))

def State.setDrlOf (s : State) (k : TaskKey) (l : Nat) (d : Drl) : State :=
  if (s.cluster l).holds k then s.updCluster l (fun c => c.updDrl k (fun _ => d))
  else
    let ws := s.slotWords' k l
    (s.updTask k (fun t => { t with saved := t.saved.map (fun v => if v.cluster = l then { v with drl := d } else v) })).writeSlot k l d
      (bit (wordAt ws 2) 62) (wordAt ws 3) (wordAt ws 4)

/-- A signal applied (R130, R131): the counter rises; of the next generation it is held while the buffer of 16 has room; else it
is answered BUSY. -/
def State.takeSignal (s : State) (rx : Rx) (l ctr : Nat) (gen : Bool) (inc : Nat) : State :=
  if s.barred rx.ctx then s
  else
    match s.sigKey rx l with
    | none => s.answer rx (.nack 0 nackNoTask)
    | some k =>
      match s.drlOf k l with
      | none => s.answer rx (.nack 0 nackNoTask)
      | some d =>
        if gen = d.gen then
          (match d.addCtr ctr inc with
          | some d => (s.setDrlOf k l d).answer rx (.ack 0 none)
          | none => s.abortTask k statusSignalOverflow)
        else if d.pend.length < 16 then
          ((s.setDrlOf k l { d with pend := d.pend ++ [(ctr, inc)] }).count l [(ctHeldSignals, 1)]).answer rx (.ack 0 none)
        else s.answer rx (.nack 0 nackBusy)

/-- SIGNAL_MESSAGE (R131, R404, R411). -/
def execSignalMessage (rx : Rx) (cluster ctr : Nat) (gen : Bool) (inc : Nat) (s : State) : Out :=
  s.arrive rx (.signal cluster ctr gen inc) (fun s => s.takeSignal rx (cluster % 128) (ctr % 64) gen (inc % 2 ^ 24))

/-! ## Packets (R455, R458 to R460) -/

/-- A packet that this hub has taken goes on, by its type, with the findings that it needs. -/
def State.runPacket (s : State) (p : Pkt) (f : PktFind) : State :=
  if p.type = typeNop then s.doNop p
  else if p.type = typeData then s.doData p
  else if p.type = typeRead then s.doRead p f.ev
  else if p.type = typeLoad then s.doLoad p
  else if p.type = typeUnload then s.doUnload p
  else if p.type = typeRun then s.doRun p
  else if p.type = typeSuspend then s.doSuspend p
  else if p.type = typeResume then s.doResume p
  else if p.type = typeCtlWrite then s.doCtlWrite p
  else if p.type = typeCtlRead then s.doCtlRead p
  else if p.type = typeDelta then s.doDelta p
  else if p.type = typeRestore then s.doRestore p f.ev
  else if p.type = typeContextReset then s.doContextReset p
  else if p.type = typeRingOpen then s.doRingOpen p
  else if p.type = typeRingClose then s.doRingClose p
  else if p.type = typeFwImage then s.doFwImage p f.img
  else if p.type = typeAttest then s.doAttest p f.secs f.flashOk
  else s.endPkt p pktInvalid 0

/-- The held packet that hub `m` forwarded as its packet `pid`. -/
def Held.isFrom (h : Held) (m pid : Nat) : Bool := match h.pkt.origin with | .fabric n q _ => n == m && q == pid | .ring _ _ => false

/-- A packet that another hub has forwarded (R459): taken, barred by the module's state, or executed. A packet that this hub holds comes
again with the bytes that its slot and its pool now have, and replaces the copy (R454; log 59). -/
def State.takeForward (s : State) (rx : Rx) (pid : Nat) (words : List Word) (pay : List Byte) (f : PktFind) : State :=
  if s.hub.held.any (fun h => h.isFrom rx.src pid) then
    { s with hub := { s.hub with held := s.hub.held.map (fun h => if h.isFrom rx.src pid then { h with pkt := { h.pkt with words, pay } } else h) } }
  else
  let p : Pkt := ⟨s.hub.nextPid, words, pay, .fabric rx.src pid rx.tag, false, 0, 0⟩
  let s : State := { s with hub := { s.hub with pkts := s.hub.pkts ++ [p], nextPid := s.hub.nextPid + 1 } }
  match s.stateBars p with
  | some c => s.endPkt p c 0
  | none => s.runPacket p f

/-- PACKET_FORWARD (R459, R460). -/
def execPacketForward (rx : Rx) (pid : Nat) (words : List Word) (pay : List Byte) (find : PktFind) (s : State) : Out :=
  s.arrive rx (.packet pid words pay) (fun s => s.takeForward rx pid words pay find)

/-! ## Answers -/

/-- A job has been loaded on another module, or removed there (R427, R461). -/
def Hub.noteRemote (h : Hub) (f : Fwd) (status : Nat) : Hub :=
  let k := (f.dst, f.ctx, f.job)
  if status ≠ pktOk then h
  else if f.type = typeLoad then { h with remote := k :: h.remote.filter (· ≠ k) }
  else if f.type = typeUnload then { h with remote := h.remote.filter (· ≠ k) }
  else h

/-- The end of a forwarded packet (R450, R451, R454, R458). -/
def State.endForward (s : State) (f : Fwd) (e : PktEnd) : State :=
  let fs := s.hub.fwds.filter (fun x => x.pid ≠ f.pid)
  let h : Hub := { s.hub with fwds := if e.releases then fs else fs ++ [{ f with done := true }] }
  let s : State := { s with hub := if e.completes then h.noteRemote f e.status else h }
  (s.ringEnd f.ring f.slot e.releases
    (if e.completes then some ⟨false, f.type, e.status, f.tag, e.value⟩ else none)).hubFlush

/-- The request of the hub with a tag, towards the module that answers. -/
def Hub.reqOf (h : Hub) (tag src : Nat) : Option HubReq := h.reqs.find? (fun r => r.tag = some tag ∧ r.msg.dst = src)
def Hub.dropReq (h : Hub) (tag : Nat) : Hub := { h with reqs := h.reqs.filter (fun r => r.tag ≠ some tag) }

/-- One of the writes that a packet waits for is answered: with the last one the packet completes. -/
def State.packetAck (s : State) (pid : Nat) : State :=
  match s.hub.pkt pid with
  | none => s
  | some p =>
    if p.acks ≤ 1 then (s.endPkt p pktOk p.value).pairDone p
    else { s with hub := s.hub.updPkt pid (fun p => { p with acks := p.acks - 1 }) }

/-- A cluster's request that an answer names. -/
def Drl.reqOf (d : Drl) (tag src : Nat) : Option Req := d.reqs.find? (fun r => r.tag = tag ∧ r.msg.dst = src)

/-- A request of the hub has been answered; its tag serves another. -/
def State.dropReq (s : State) (tag : Nat) : State := ({ s with hub := s.hub.dropReq tag } : State).hubFlush

/-- The answer reaches the cluster: its request ends, and the message counts. -/
def State.endReq (s : State) (rx : Rx) (bytes : Nat) : State :=
  (s.updDrl rx.scl (fun d => { d with reqs := d.reqs.filter (fun r => r.tag ≠ rx.tag) })).count rx.scl
    [(ctMsgRecv, 1), (ctBytesRecv, bytes)]

/-- ACK at the requester (R410, R458): of a forwarded packet, of a request of the hub, or of a cluster's. -/
def State.takeAck (s : State) (rx : Rx) (e : Option PktEnd) : State :=
  let fwd := e.bind (fun e => (s.hub.fwds.find? (fun f => f.pid = e.pid ∧ f.dst = rx.src)).map (fun f => (f, e)))
  match fwd with
  | some (f, e) => s.endForward f e
  | none =>
    match s.hub.reqOf rx.tag rx.src with
    | some r =>
      let s := s.dropReq rx.tag
      (match r.use with
      | .packet pid => s.packetAck pid
      | .solver k => (match (if s.sol.closing then (s.jobOf k).bind (fun j => j.sol) else none) with | some p => s.closeCycle k p | none => s)
      | _ => s)
    | none => if ((s.cluster rx.scl).drl.reqOf rx.tag rx.src).isSome then s.endReq rx 0 else s

/-- ACK (R404, R410). -/
def execAck (rx : Rx) (e : Option PktEnd) (s : State) : Out := s.arrive rx (.ack rx.addr e) (fun s => s.takeAck rx e)

/-- READ_DATA at the requester: bytes of a Coppice region reach the restore that asked for them (R286). -/
def State.takeData (s : State) (rx : Rx) (bytes : List Byte) : State :=
  match s.hub.reqOf rx.tag rx.src with
  | some r =>
    let s := s.dropReq rx.tag
    (match r.use with
    | .restore ctx job at' =>
      { s with hub := { s.hub with restores := s.hub.restores.map (fun x =>
          if x.key.ctx = ctx ∧ x.key.job = job then { x with image := Cells.write x.image at' bytes } else x) } }
    | _ => s)
  | none => if ((s.cluster rx.scl).drl.reqOf rx.tag rx.src).isSome then s.endReq rx bytes.length else s

/-- READ_DATA (R404). -/
def execReadData (rx : Rx) (bytes : List Byte) (s : State) : Out := s.arrive rx (.readData rx.addr bytes) (fun s => s.takeData rx bytes)

/-- A request of the hub is refused by its destination: a stream or an image that the partner does not take loses the Coppice
(R285); a restore loses its partner (R289); a solver's record that is refused is its task's fault (R411); a packet's other writes end it in
PKT_STATE. -/
def State.hubNack (s : State) (u : HubUse) : State :=
  match u with
  | .packet pid =>
    (match s.hub.pkt pid with
    | some p => if p.type = typeLoad then s.loseCoppice.packetAck pid else (s.endPkt p pktState 0).pairDone p
    | none => s)
  | .stream _ _ => s.loseCoppice
  | .restore ctx job _ =>
    (match s.hub.restores.find? (fun x => x.key.ctx = ctx ∧ x.key.job = job) with
    | some r => s.loseRestore r
    | none => s)
  | .solver k => s.abortTask k statusAborted
  | .dump | .plain => s

/-- A request of an entry is refused (R388, R411): BUSY marks a signal for its resend; any other reason is an uncorrectable
fault of the entry. -/
def State.entryNack (s : State) (rx : Rx) (r : Req) (reason : Nat) : State :=
  let s := s.count rx.scl [(ctMsgRecv, 1), (ctBytesRecv, 8)]
  if reason = nackBusy then
    s.updDrl rx.scl (fun d => { d with reqs := d.reqs.map (fun x => if x.tag = rx.tag then { x with busy := true } else x) })
  else
    match r.idx.bind (s.site rx.scl) with
    | some x =>
      let s : State :=
        if reason = nackNoTask then s
        else { s with pages := s.pages.latch (if reason = nackPoison then .poisoned else .remoteRange) rx.src r.msg.body.addr x.key.ctx x.l x.f.idx }
      (s.climb 1 x.l x.e.op.engine 0).abortTask x.key statusAborted
    | none => s

/-- NACK at the requester (R411). -/
def State.takeNack (s : State) (rx : Rx) (reason : Nat) : State :=
  match s.hub.reqOf rx.tag rx.src with
  | some r => (s.dropReq rx.tag).hubNack r.use
  | none =>
    match (s.cluster rx.scl).drl.reqOf rx.tag rx.src with
    | some r => s.entryNack rx r reason
    | none => s

/-- NACK (R404, R411). -/
def execNack (rx : Rx) (reason : Nat) (s : State) : Out := s.arrive rx (.nack rx.addr reason) (fun s => s.takeNack rx reason)

/-! ## Links (R399, R400, R404, R405) -/

/-- A LINK message (R400, R404): flits up to a number are acknowledged and credits come back; a replay request sends every flit from its
number again, in order; messages that wait try again. Its own flit is numbered (R399). -/
def State.takeLink (s : State) (p ack : Nat) (req : Option Nat) (credits : List Nat) : State :=
  let q := (s.fab.port p).acked ack
  let q : Port := { q with
    rxSeq := (q.rxSeq + 1) % 65536
    credits := (List.range 4).map (fun v => min (q.credits.getD v 0 + credits.getD v 0) (vcBuffers.getD v 0)) }
  let again := match req with | some n => q.replayed n | none => []
  let f : Fab := { s.fab with ports := updAt s.fab.ports p (fun _ => q), sent := s.fab.sent ++ again.map (fun m => (some p, m)) }
  s.withFab (f.retry s.me)

/-- LINK (R404). -/
def execLink (port ack : Nat) (req : Option Nat) (credits : List Nat) (s : State) : Out :=
  onPort port (.next (if s.alive ∧ (s.fab.port port).st = .up then s.takeLink port ack req credits else s))

/-- BAD_MSG (R404): numbered as it arrives, discarded with its credits returned, and counted. -/
def execBadMsg (bad : BadMsg) (s : State) : Out :=
  onPort bad.port (.next (
    if !s.alive || (s.fab.port bad.port).st != .up then s
    else
      let q := s.fab.port bad.port
      let q : Port := { q with
        rxSeq := (q.rxSeq + bad.flits) % 65536
        owed := q.owed.set (bad.vc % 4) (q.owed.getD (bad.vc % 4) 0 + bad.flits) }
      let f : Fab := { s.fab with badMsg := satAdd 16 s.fab.badMsg 1, ports := updAt s.fab.ports bad.port (fun _ => q) }
      ({ s with ctr := s.ctr.port bad.port 1 bad.flits } : State).withFab (f.link s.me bad.port false)))

/-- The receiver discards the flit and asks for a replay from its number (R400); after REPLAY_MAX failures of one flit in a row
the port goes down (R428). -/
def State.flitReplay (s : State) (p : Nat) : State :=
  let q := s.fab.port p
  let row := if q.failRow ≠ 0 ∧ q.failSeq = q.rxSeq then q.failRow + 1 else 1
  let q' : Port := { q with failSeq := q.rxSeq, failRow := row, replays := satAdd 16 q.replays 1 }
  let s : State := { s with fab := { s.fab with ports := updAt s.fab.ports p (fun _ => q') }, ctr := s.ctr.port p 2 1 }
  if row ≥ fld s.fab.cfg 23 16 then
    ({ s with fab := { s.fab with ports := updAt s.fab.ports p Port.goDown } } : State).linkGone p q
  else s.withFab (s.fab.link s.me p true)

/-- FLIT_REPLAY (R400). -/
def execFlitReplay (port : Nat) (s : State) : Out :=
  onPort port (.next (if s.alive ∧ (s.fab.port port).st = .up then s.flitReplay port else s))

end Sys2Proof.Machine
end

