-- ==== Sys2Proof/Machine/Topology.lean ====
section
/-!
DEFINITION. Ports, the topology check, route changes, joins and leaves, and the firmware broadcast as messages arrive (R398, R408,
R409, R421 to R428, R430).
-/

namespace Sys2Proof.Machine

/-! ## Training and identity (R421, R424) -/

/-- The map's entry for a port. -/
def State.mapEnt (s : State) (m p : Nat) : Option MapEnt := s.start.flash.conf.map.find? (fun e => e.module = m ∧ e.port = p)

/-- The far end agrees with the map, both ways, and carries the same MAP_ID (R424). A module in the minimal hub state compares no MAP_ID
and gives 0 for its own in IDENT, by which a healthy far end knows it (R477; DESIGN CHOICE, log 48). -/
def State.agrees (s : State) (p module farPort : Nat) (mapId : Word) : Bool :=
  (match s.mapEnt s.me p with | some e => e.farModule == module && e.farPort == farPort | none => false)
    && (match s.mapEnt module farPort with | some e => e.farModule == s.me && e.farPort == p | none => false)
    && (mapId == s.start.flash.conf.mapId || mapId == 0 || s.start.stage == .minimal)

/-- The identity of the far end is checked: the lane screen follows, or MISMATCH (R421, R424, R425). -/
def State.checkIdent (s : State) (p module farPort : Nat) (mapId : Word) : State :=
  if s.agrees p module farPort mapId then
    (s.updPort p (fun q => { q with st := .training, train := .screen, farModule := module, farPort := farPort, agreed := true })).reportPorts
  else (s.updPort p (fun q => { q with st := .mismatch, train := .none, farModule := module, farPort := farPort, agreed := false })).reportPorts

/-- Ports train once admission is next, and in the minimal hub state (R469). -/
def State.mayTrain (s : State) : Bool := s.start.stage == .admission || s.start.stage == .ready || s.start.stage == .minimal

/-- The port's own IDENT (R423), which goes before the port is up: neither numbered nor credited (R399, R405). -/
def State.sendIdent (s : State) (p far : Nat) : State :=
  let f := s.start.flash
  s.sendRaw p ⟨far, s.me, 0, 0, 0, .ident s.me p f.fused.variant f.stepping (if s.start.stage = .minimal then 0 else f.conf.mapId)⟩

/-- PORT_TRAIN (R421): light arrives on a port that is not UP; it locks, exchanges IDENT, and screens its lanes if the identities
agree. -/
def execPortTrain (port module farPort _variant _stepping : Nat) (mapId : Word) (s : State) : Out :=
  onPort port (.next (
    if !s.alive || !s.mayTrain || (s.fab.port port).st == .up || !(s.start.edgeUp (.serdes port)) then s
    else ((s.updPort port Port.startTraining).sendIdent port module).checkIdent port module farPort mapId))

/-- IDENT (R404, R424): checked on a port that trains. -/
def execIdent (rx : Rx) (module farPort _variant _stepping : Nat) (mapId : Word) (s : State) : Out :=
  match rx.port with
  | some p => onPort p (.next (if s.alive ∧ (s.fab.port p).st = .training then s.checkIdent p module farPort mapId else s))
  | none => .next s

/-! ## Floods and route changes (R409) -/

/-- The newest graph becomes `g`: a route change begins or is joined. -/
def State.newGraph (s : State) (g : Graph) : State := ({ s with fab := s.fab.startChange g } : State).graphChanged

/-- The port states of the modules of this module's part of the graph, told to a neighbour that was in no part with it, so that both compute
their routes from one graph (R408; DESIGN CHOICE, log 29). -/
def State.tellGraph (s : State) (g : Graph) (p far : Nat) : State :=
  if (g.part s.me).contains far then s
  else
    let ws := (g.part s.me).map (fun m => (⟨⟨far, s.me, 0, 0, 0, .join m (if m = s.me then s.fab.portReps else g.reps m)⟩, some p, true, none⟩ : Wait))
    s.withFab (({ s.fab with waiting := s.fab.waiting ++ ws } : Fab).retry s.me)

/-- A port that came up joins the graph: the module floods JOIN with its first link, LINK_STATE with a later one (R409, R426). -/
def State.linkUp (s : State) (p : Nat) : State :=
  let q := s.fab.port p
  let rep : PortRep := ⟨p, q.st.code, q.farModule, q.farPort, q.linked, q.agreed⟩
  let first := s.fab.state == .alone
  let old := s.fab.graph
  let s : State := if first then { s with fab := { s.fab with state := .joining } } else s
  let s := s.newGraph (s.fab.graph.add ⟨s.me, p, q.farModule, q.farPort⟩)
  (s.withFab (s.fab.flood s.me none (if first then .join s.me s.fab.portReps else .linkState s.me rep))).tellGraph old p q.farModule

/-- PORT_UP (R396, R397, R421): the lane screen is over; a direction with two failing lanes is FAILED, and the port is part of a link once
both directions are up. -/
def execPortUp (port : Nat) (passed : List Bool) (s : State) : Out :=
  onPort port (.next (
    if !s.alive || (s.fab.port port).train != .screen || !(s.start.edgeUp (.serdes port)) then s
    else
      let s := s.updPort port (fun q => q.bringUp passed)
      if (s.fab.port port).linked then (s.linkUp port).reportPorts else s.reportPorts))

/-- PORT_DOWN (R428). -/
def execPortDown (port : Nat) (s : State) : Out :=
  onPort port (.next (if s.alive ∧ (s.fab.port port).st ≠ .down then s.downPort port else s))

/-- A flooded change of the live graph: a new one is taken and goes on to the other neighbours, one that is known already ends
here (R409). -/
def State.takeFlood (s : State) (rx : Rx) (g : Graph) (b : Body) : State :=
  if g.id = s.fab.graph.id then s
  else
    let s := s.newGraph g
    s.withFab (s.fab.flood s.me (some rx.src) b)

/-- JOIN (R409, R426). -/
def execJoin (rx : Rx) (module : Nat) (ports : List PortRep) (s : State) : Out :=
  s.arrive rx (.join module ports) (fun s =>
    s.takeFlood rx ((repLinks module ports).foldl Graph.add (s.fab.graph.delModule module)) (.join module ports))

/-- LEAVE (R409, R427). -/
def execLeave (rx : Rx) (module : Nat) (s : State) : Out :=
  s.arrive rx (.leave module) (fun s => s.takeFlood rx (s.fab.graph.delModule module) (.leave module))

/-- LINK_STATE (R409, R428). -/
def execLinkState (rx : Rx) (module : Nat) (rep : PortRep) (s : State) : Out :=
  s.arrive rx (.linkState module rep) (fun s =>
    let g := s.fab.graph.del module rep.port
    s.takeFlood rx (if rep.linked then g.add ⟨module, rep.port, rep.farModule, rep.farPort⟩ else g) (.linkState module rep))

/-- The new routes are installed, and injection resumes (R409). -/
def State.install (s : State) : State := (s.withFab (s.fab.switch s.me)).graphChanged

/-- DRAINED reaches the root: with the last live module's it floods SWITCH and switches (R409). -/
def State.takeDrained (s : State) (m : Nat) : State :=
  let f : Fab := { s.fab with drained := m :: s.fab.drained.filter (· ≠ m) }
  let s : State := { s with fab := f }
  if (f.graph.part s.me).all f.drained.contains then
    (s.withFab (f.flood s.me none (.switch f.graph.id))).install
  else s

/-- A leaving module with neighbours sends no DRAINED: it is no part of the new graph, whose root tells it to switch (R427). -/
def Fab.outside (f : Fab) : Bool := f.state == .leaving && f.portsUp != 0

/-- ROUTE_DRAIN_DONE (R409): DRAINED goes to the root of the newest graph. -/
def execRouteDrainDone (s : State) : Out :=
  .next (
    if !s.alive || !s.fab.changing || s.fab.outside then s
    else
      let r := s.fab.graph.root s.me
      if r = s.me then s.takeDrained s.me else s.sendHub r 0 (.drained s.me s.fab.graph.id))

/-- DRAINED (R409): counted by the root for the change that it knows as the latest. -/
def execDrained (rx : Rx) (module change : Nat) (s : State) : Out :=
  s.arrive rx (.drained module change) (fun s =>
    if s.fab.changing ∧ change = s.fab.graph.id ∧ s.fab.graph.root s.me = s.me then s.takeDrained module else s)

/-- SWITCH (R409): flooded on, and installed. -/
def execSwitch (rx : Rx) (change : Nat) (s : State) : Out :=
  s.arrive rx (.switch change) (fun s =>
    if s.fab.changing ∧ change = s.fab.graph.id then (s.withFab (s.fab.flood s.me (some rx.src) (.switch change))).install else s)

/-- The reports differ on the far end of a port that both show lit: they come from two modules. -/
def repsClash (a b : List PortRep) : Bool :=
  a.any (fun x => b.any (fun y => x.port = y.port ∧ 2 ≤ x.state ∧ x.state ≤ 3 ∧ 2 ≤ y.state ∧ y.state ≤ 3
    ∧ (x.farModule, x.farPort) ≠ (y.farModule, y.farPort)))

/-- TOPO_REPORT (R425): taken by the entry module; a second module that claims a number keeps its own report, and DUP shows it
(log 30). -/
def execTopoReport (rx : Rx) (module : Nat) (ports : List PortRep) (s : State) : Out :=
  s.arrive rx (.topoReport module ports) (fun s =>
    if s.isEntry then
      ({ s with fab := { s.fab with
        reports := s.fab.reports.filter (fun r => r.1 ≠ module ∨ module = s.me ∨ repsClash r.2 ports) ++ [(module, ports)] } } : State).readyFollow
    else s)

/-! ## Commands of the module (R421, R427) -/

/-- MANAGED_LEAVE (R427). -/
def execManagedLeave (s : State) : Out := .next (if s.alive then s.managedLeave else s)

/-- RETRAIN (R421, R431): a larger port number sets CMD_ERR. -/
def execRetrain (port : Nat) (s : State) : Out :=
  .next (
    if !s.alive then s
    else if port < 48 then s.retrainPort port
    else { s with fab := { s.fab with cmdErr := true } })

/-! ## Lanes and optics (R398, R422) -/

/-- LANE_BER_WINDOW (R422, R497): worn lanes are swapped for the spare or set LANE_WORN, and each is charged. -/
def execLaneBerWindow (port : Nat) (counts : List Nat) (s : State) : Out :=
  onPort port (.next (
    if !s.alive || (s.fab.port port).st != .up then s
    else
      let limit := fld s.fab.cfg 31 24 * 10 ^ 11 / 2 ^ fld s.fab.cfg 39 32
      let r := ({ s.fab.port port with corr := (List.range 9).map (fun i => counts.getD i 0) } : Port).berWindow limit
      let s := s.updPort port (fun _ => r.1)
      let s : State := { s with ctr := s.ctr.port port 3 (sumNat ((List.range 9).map (fun i => counts.getD i 0))) }
      r.2.foldl (fun s i => s.charge 3 (9 * port + i) 0x08) s))

/-- Ports with a lane on an engine: the 216 lanes of a group lie on its engines 0 to 10 in order, 20 to an engine (R398; log 31). -/
def enginePorts (group engine : Nat) : List Nat :=
  ((List.range 24).filter (fun k => engine < 11 ∧ 20 * engine < 9 * (k + 1) ∧ 9 * k < 20 * (engine + 1))).map (· + 24 * group)

/-- A port becomes FAILED (R502). -/
def State.failPort (s : State) (p : Nat) : State := (s.updPort p Port.goFailed).linkGone p (s.fab.port p)

/-- The ports of the lanes that an engine carries: its own, or for the spare those of the engine that it stands for. -/
def State.portsOn (s : State) (group engine : Nat) : List Nat :=
  enginePorts group (if engine = 11 then (s.fab.engineSpare.getD group none).getD 11 else engine)

/-- The group's spare engine is sound and carries no lanes. -/
def State.spareEngine (s : State) (group : Nat) : Bool :=
  (s.fab.engineSpare.getD group none).isNone && !(s.fab.engineFailed.getD (12 * group + 11) false)

/-- An optical engine fails (R398, R497, R502): the free spare takes its lanes over, it is charged, and the ports concerned retrain; without
a free spare the ports become FAILED and the module drains. The spare itself, where it carries nothing, only is no spare any more (log
31). -/
def State.engineFails (s : State) (group engine : Nat) : State :=
  let i := 12 * group + engine
  let ps := s.portsOn group engine
  let free := s.spareEngine group
  let s : State := { s with fab := { s.fab with engineFailed := s.fab.engineFailed.set i true } }
  if engine = 11 ∧ free then s
  else if free then
    let s : State := { s with fab := { s.fab with engineSpare := s.fab.engineSpare.set group (some engine) } }
    let s := s.charge 6 i 0x0A
    ps.foldl State.retrainPort s
  else (ps.foldl State.failPort s).drain 3

/-- OPTICAL_ENGINE_FAILOVER (R398, R502). -/
def execOpticalEngineFailover (group engine : Nat) (s : State) : Out :=
  if 2 ≤ group ∨ 12 ≤ engine then .fault .noSuchUnit
  else onHub s (.next (if s.fab.engineFailed.getD (12 * group + engine) false then s else s.engineFails group engine))

/-! ## Firmware broadcast (R430) -/

/-- The targets of a broadcast that reaches this module from `src`: those of its domain, or of the hall from one of its entry modules
(log 32); in them, the sender is the parent of this module's rank. -/
def State.fwRanks (s : State) (src : Nat) (hall : Bool) : Option (List Nat) :=
  let ms := s.fab.routes.part s.me
  let of' (e : Nat) : List Nat :=
    e :: sortBy (· ≤ ·) (ms.filter (fun m => m ≠ e ∧ (hall || domainOf m == domainOf e)))
  let cands := if hall then s.start.flash.conf.entries.map of' else [of' s.entryOf]
  cands.find? (fun l => let r := l.findIdx (· = s.me); r ≠ 0 ∧ r < l.length ∧ l[fwParent r]? = some src)

/-- A chunk is acknowledged to the parent (R430). -/
def State.fwUp (s : State) (b : Broadcast) (chunk : Nat) : State :=
  match b.targets[fwParent (b.targets.findIdx (· = s.me))]? with
  | some m => s.sendHub m 0 (.fwAck b.seq chunk)
  | none => s

/-- Every chunk of the image is in STAGE: its header, in chunk 0, gives its length (R475). -/
def State.staged (s : State) (b : Broadcast) : Bool :=
  b.held.contains 0
    && b.held.length == ceilDiv (imageExtra + (wordAt (wordsOfBytes (s.start.flash.staged.take 64)) 1).toNat) 4096

/-- The module's part in a broadcast is over: it holds the whole image, and every child has acknowledged every chunk. -/
def State.fwFinish (s : State) : State :=
  match s.fab.bcast with
  | none => s
  | some b =>
    if b.targets.findIdx (· = s.me) ≠ 0 ∧ s.staged b ∧ b.waiting = [] then { s with fab := { s.fab with bcast := none } } else s

/-- A module that is not rank 0 takes a chunk: staged, sent on to its children, acknowledged at once where it has none; with the
last chunk it verifies the image on its own (R430), and leaves the minimal state where it may (R478). -/
def State.takeChunk (s : State) (rx : Rx) (seq chunk : Nat) (bytes : List Byte) (img : ImageIn) : State :=
  let s := s.hubCount chFwChunks 1
  let fresh : Option Broadcast := match s.fab.bcast with
    | some b => if b.seq = seq then some b else none
    | none => none
  let start : Option Broadcast := match fresh with
    | some b => some b
    | none => (s.fwRanks rx.src (rx.tag = 1)).map (fun l => ⟨seq, rx.tag = 1, l, [], [], []⟩)
  match start with
  | none => s
  | some b =>
    if b.held.contains chunk then s
    else
      let r := b.targets.findIdx (· = s.me)
      let kids := (fwChildren b.targets.length r).filterMap (fun k => b.targets[k]?)
      let b : Broadcast := { b with
        held := b.held ++ [chunk]
        waiting := if kids.isEmpty then b.waiting else b.waiting ++ [(chunk, kids)]
        acked := if kids.isEmpty then b.acked ++ [chunk] else b.acked }
      let f := s.start.flash
      let f : Flash := if fresh.isNone then { f with staged := [] } else f
      let s : State := { s with start := { s.start with flash := f.stagePut (4096 * chunk) bytes }, fab := { s.fab with bcast := some b } }
      let s := kids.foldl (fun s m => s.sendChunk m b.hall seq chunk bytes) s
      let s := if kids.isEmpty then s.fwUp b chunk else s
      if s.staged b then (s.installImage img).1.fwFinish.leaveMinimal else s

/-- FW_CHUNK (R430). -/
def execFwChunk (rx : Rx) (seq chunk : Nat) (bytes : List Byte) (img : ImageIn) (s : State) : Out :=
  s.arrive rx (.fwChunk seq chunk bytes) (fun s => s.takeChunk rx seq chunk bytes img)

/-- The payload of the FW_IMAGE packet whose broadcast this module leads. -/
def State.fwPay (s : State) : Option (List Byte) :=
  (s.hub.pkts.find? (fun p => p.type = typeFwImage ∧ p.started)).map (fun p => p.pay)

/-- FW_ACK of a child (R430): the last one passes the acknowledge up, or at rank 0 makes room for another chunk. -/
def State.takeFwAck (s : State) (rx : Rx) (seq chunk : Nat) : State :=
  match s.fab.bcast with
  | none => s
  | some b =>
    if b.seq ≠ seq then s
    else
      let ws := b.waiting.map (fun w => if w.1 = chunk then (w.1, w.2.filter (· ≠ rx.src)) else w)
      let done := ws.any (fun w => w.1 = chunk ∧ w.2.isEmpty)
      let b : Broadcast := { b with waiting := ws.filter (fun w => !w.2.isEmpty), acked := if done then b.acked ++ [chunk] else b.acked }
      let s : State := { s with fab := { s.fab with bcast := some b } }
      if !done then s
      else if b.targets.findIdx (· = s.me) = 0 then (match s.fwPay with | some pay => s.fwSend pay | none => s)
      else (s.fwUp b chunk).fwFinish

/-- FW_ACK (R430). -/
def execFwAck (rx : Rx) (seq chunk : Nat) (s : State) : Out :=
  s.arrive rx (.fwAck seq chunk) (fun s => s.takeFwAck rx seq chunk)

end Sys2Proof.Machine
end

