-- ==== Sys2Proof/Machine/Derailleur.lean ====
section
/-!
DEFINITION. The Derailleur: the reorder window, readiness and issue (R122 to R127), the completion of entries (R126, R128 to
R130), and its own opcodes SIGNAL, CTL_WRITE, ITER_END, HALT (R129, R131, R133, R138, R142).
-/

namespace Sys2Proof.Machine

/-! ## The reorder window (R122) -/

/-- What the Derailleur of a cluster works on. -/
structure Deck where
  key : TaskKey
  job : Job
  entries : List Entry
  sol : List SolOp
  d : Drl
  c : Cluster
  deriving DecidableEq, Repr

def State.deck (s : State) (l : Nat) : Option Deck :=
  let c := s.cluster l
  match c.drl.holder with
  | some k =>
    (match s.jobOf k with
    | some j => (j.cassette k.task l).map (fun q => ⟨k, j, q.entries, q.sol, c.drl, c⟩)
    | none => none)
  | none => none

def Deck.entry (k : Deck) (i : Nat) : Option Entry := k.entries[i]?
def Deck.ends (k : Deck) (i : Nat) : Bool := match k.entry i with | some e => e.op.endsWindow | none => false

/-- Indices up to and including the first that ends the window. -/
def Deck.cut (k : Deck) : List Nat → List Nat
  | [] => []
  | i :: is => if k.ends i then [i] else i :: Deck.cut k is

/-- Entries of the window that have not issued. -/
def Deck.window (k : Deck) : List Nat :=
  if k.d.flights.any (fun f => k.ends f.idx) then []
  else
    let is := ((List.range k.c.window).map (· + k.d.head)).filter (fun i => i < k.entries.length)
    (k.cut is).filter (fun i => !(k.d.issued i))

/-- Entries before `i` that have not completed. -/
def Deck.earlier (k : Deck) (i : Nat) : List Nat :=
  (k.d.flights.map (fun f => f.idx)).filter (· < i)
    ++ (((List.range (i - k.d.head)).map (· + k.d.head)).filter (fun j => !(k.d.issued j)))

/-! ## Readiness (R123) -/

/-- Condition 1. -/
def Deck.ordered (k : Deck) (i : Nat) (e : Entry) : Bool :=
  let un := ((List.range (i - k.d.head)).map (· + k.d.head)).filter (fun j => !(k.d.issued j))
  if e.reord then un.all (fun j => match k.entry j with | some q => q.reord | none => true) else un.isEmpty

/-- The fence of an entry, with the one that ITER_END, HALT and STEP_END act as (R127, R133, R137, R138). -/
def Entry.scope (e : Entry) : Nat :=
  max e.fence (match e.op with | .iterEnd | .halt => 2 | .stepEnd => 4 | _ => 0)

/-- Condition 2. Every write of a completed entry is visible, and its fabric operations are acknowledged. -/
def Deck.fenced (k : Deck) (i : Nat) (e : Entry) : Bool :=
  let es := (k.earlier i).filterMap k.entry
  if e.scope = 0 then true
  else if e.scope = 1 then es.all (fun q => !(masksMeet q.mask e.mask))
  else es.isEmpty

/-- Condition 3. -/
def Deck.waited (k : Deck) (e : Entry) : Bool := !e.waitEn || e.waitVal ≤ k.d.ctrs.getD e.waitCtr 0

/-- Condition 4. -/
def Deck.clear (k : Deck) (i : Nat) (e : Entry) : Bool :=
  let h := k.job.hazards e
  ((k.earlier i).filterMap k.entry).all (fun q => !(hazardsMeet (k.job.hazards q) h))

/-- Entries in flight of a unit. -/
def Deck.onUnit (k : Deck) (p : Opcode → Bool) : Nat :=
  (k.d.flights.filter (fun f => match k.entry f.idx with | some e => p e.op | none => false)).length

/-- The window slot of a STREAM or RELEASE. -/
def Job.windowSlot (j : Job) (e : Entry) : Option (Nat × Nat) :=
  match j.streams[e.aux]? with
  | some (.stream w sl _ _ _ _) => some (w, sl)
  | _ => none

def Job.isRefresh (j : Job) (e : Entry) : Bool :=
  e.op == .topiary && (match j.tops[e.aux]? with | some t => t.op == .refresh | none => false)

/-- A REFRESH has room in the cluster's queue of 16, a launch still in flight taking its place there (R231). -/
def Deck.refreshRoom (k : Deck) (e : Entry) : Bool :=
  let waiting := (k.d.flights.filter (fun f => f.work != .done && (match k.entry f.idx with | some q => k.job.isRefresh q | none => false))).length
  !(k.job.isRefresh e) || k.c.top.queue.length + waiting < 16

/-- The difference stream of the previous step has read every pair that an OPTIMISE writes (R269). -/
def State.streamsRead (s : State) (l : Nat) (k : Deck) (e : Entry) : Bool :=
  match k.job.opts[e.aux]? with
  | some o => s.hub.copGone.contains (k.job.ctx, k.job.handle) || !(s.hub.streams.any (fun x => x.ctx == k.job.ctx && x.job == k.job.handle && x.cluster == l
      && x.pairs.any (fun p => o.pairs.contains (p.1, p.2.1))))
  | none => true

/-- Members of a collective's group by rank: modules (R325, R414); a job without a shard plan is alone. -/
def Job.members (j : Job) (me : Nat) (e : Entry) : List Nat :=
  match j.shard with
  | some p => ((j.groupOf p e ((p.indexOf me).getD 0)).map (fun i => p.modules.getD i me))
  | none => [me]

/-- Modules that a fabric opcode's first messages go to, and their channel (R315, R322, R379, R404, R414). -/
def Job.farEnds (j : Job) (me : Nat) (e : Entry) : List Nat × Nat :=
  match e.op with
  | .signal => ([fld e.w2 63 52], 0)
  | .send => ((match j.streams[e.aux]? with | some (.transfer n dst _) => if n = 0 then [] else [dst / 2 ^ 52] | _ => []), 0)
  | .collective => (j.members me e, 2)
  | .exchange =>
    (match j.shard.bind (fun p => (p.indexOf me).map (fun k => (p, k))) with
    | some (p, k) => ((p.expertPlace k).1.map (fun i => p.modules.getD i me), 2)
    | none => ([], 2))
  | _ => ([], 0)

/-- Port credits of a fabric opcode: the cluster's interface has a free tag, no message of the cluster still waits for a credit, and a port
towards each module that the entry names has one (R123, R401, R405, R407; DESIGN CHOICE, log 43). -/
def State.portRoom (s : State) (l : Nat) (k : Deck) (e : Entry) : Bool :=
  let far := k.job.farEnds s.me e
  (s.freeTag l).isSome && !(k.d.reqs.any (fun r => s.fab.waiting.any (fun w => w.msg == r.msg)))
    && far.1.all (fun m => m == s.me || s.fab.hasCredit s.me m far.2)

/-- Condition 5 (R183, R190, R231, R232, R269, R383); the Pannier's slots are reserved by output tile (R177), and the spec names no
depth for a tile's queue (log 43). -/
def State.hasRoom (s : State) (l : Nat) (k : Deck) (e : Entry) : Bool :=
  (match k.c.til.substWaiting with | some t => !(e.mask.testBit t) | none => true)
    && (!e.op.onChainline || k.onUnit Opcode.onChainline < 4)
    && (!e.op.onTopiary || (k.onUnit Opcode.onTopiary < 2 && k.refreshRoom e))
    && (!e.op.onFetch || k.onUnit Opcode.onFetch < 16)
    && (e.op != .optimise || s.streamsRead l k e)
    && (!e.op.onFabric || s.portRoom l k e)

/-- A STREAM's slot is FREE (R381). -/
def Deck.slotFree (k : Deck) (e : Entry) : Bool :=
  e.op != .stream || (match k.job.windowSlot e with | some q => !(k.d.held.contains q) | none => true)

/-- The entry is ready. -/
def State.ready (s : State) (l : Nat) (k : Deck) (i : Nat) : Bool :=
  match k.entry i with
  | none => false
  | some e => k.ordered i e && k.fenced i e && k.waited e && k.clear i e && s.hasRoom l k e && k.slotFree e

/-- The boundary below which entries may still issue where the cluster is asked to stop (R145 to R147); a migration asks while a
spare can take the cluster. -/
def State.stopAt (s : State) (l : Nat) (k : Deck) : Option Nat :=
  let a := if k.d.suspendReq && k.c.under.isNone then stopLimit k.entries k.d k.d.suspendForce else none
  let b := if k.c.migDue && s.canSpare l then stopLimit k.entries k.d k.c.migForce else none
  match a, b with
  | some x, some y => some (min x y)
  | some x, none => some x
  | none, b => b

/-- A CTL_WRITE has issued and its write is not yet performed; the write belongs to its issue, so no other entry issues before it
(R142; log 10). -/
def Deck.writing (k : Deck) : Bool :=
  k.d.flights.any (fun f => f.work == .todo && (match k.entry f.idx with | some e => e.op == .ctlWrite | none => false))

/-- The Derailleur takes issue decisions now (R122, R143, R145). -/
def Deck.mayIssue (k : Deck) : Bool :=
  k.d.st == .running && !k.d.pauseReq && k.d.flights.length < k.c.maxInflight && !k.writing

/-- The entry that the next decision issues (R124). -/
def State.nextIssue (s : State) (l : Nat) (k : Deck) : Option Nat :=
  let lim := s.stopAt l k
  if k.mayIssue then
    k.window.find? (fun i => (match lim with | some b => i < b | none => true) && s.ready l k i)
  else none

/-! ## Completion (R126, R128 to R130, R143) -/

/-- Units that the opcode table names, for the records of R536. -/
def Opcode.units : Opcode → List Nat
  | .mm | .mmTa | .mmTb => [1, 2, 3]
  | .gramL | .gramR => [1, 4]
  | .chain | .reduce | .digest => [3]
  | .topiary => [4]
  | .stream | .copy | .release => [5]
  | .send | .exchange | .signal => [7]
  | .collective => [7, 3]
  | .optimise => [3, 4, 1]
  | .nop | .fence | .ctlWrite | .iterEnd | .stepEnd | .halt => [6]

/-- The entry leaves the flight list, with its own effects on the Derailleur (R263, R381). -/
def Drl.retire (d : Drl) (x : Site) : Drl :=
  let d := d.dropFlight x.f.idx
  match x.e.op, x.job.windowSlot x.e with
  | .release, some q => { d with held := d.held.filter (· ≠ q) }
  | .copy, _ => { d with copied := x.f.idx :: d.copied.filter (· ≠ x.f.idx) }
  | _, _ => d

/-- An entry completes: its flags are latched and may trap (R209, R211), SIG_ON adds to its counter (R129, R130), the
Derailleur goes on, and a substitution that waited for its tile takes place (R183). A PAUSE asked for by the time that STEP_END
completes waits for the rewind (R153). -/
def State.complete (s : State) (x : Site) : State :=
  let s := s.latchFlags x
  if x.traps then s.abortTask x.key statusNfTrap
  else
    match (if x.e.sigOn then (s.cluster x.l).drl.addCtr x.e.sigCtr 1 else some (s.cluster x.l).drl) with
    | none => s.abortTask x.key statusSignalOverflow
    | some d =>
      let s := if x.f.work = .requests then s.trace x.l x.f x.e.op (s.stepOf x.key) 6 7 0 (BitVec.ofNat 64 x.f.sent) else s
      let s := s.trace x.l x.f x.e.op (s.stepOf x.key) 7 6 0 0
      let s := s.updDrl x.l (fun _ => d.retire x)
      let s := (s.count x.l [(ctCompleted, 1)]).settleSubst x.l
      if x.e.op = .stepEnd then s else s.settlePause x.l

/-- The entry has done its work, and every request that it sent is answered. -/
def State.finished (s : State) (x : Site) : Bool :=
  x.f.work == .done || (x.f.work == .requests && !((s.cluster x.l).drl.waits x.f.idx))

/-- A completion of an entry that its cluster no longer runs: it is late where its Odometer has expired (R99), and on an ABORTING
cluster it confirms that its unit has cut the entry off (R152, R509). -/
def State.confirm (s : State) (l idx : Nat) : State :=
  (s.updCluster l (fun c => let c := c.lateDone (some idx); { c with drl := c.drl.confirm idx })).settleSubst l

/-- ENTRY_COMPLETE (R126). -/
def execEntryComplete (l idx : Nat) (s : State) : Out :=
  onCluster l (.next (match s.site l idx with
    | some x => if s.finished x then s.complete x else s
    | none => s.confirm l idx))

/-! ## Issue -/

/-- Bytes of HYPER that an OPTIMISE reads at issue (R266, R289). -/
def State.hyperAt (s : State) (j : Job) (e : Entry) : List Byte :=
  match (if e.op = .optimise then j.opts[e.aux]? else none) with
  | some o => Cells.read s.mem o.hyper 32
  | none => []

/-- The flight of an entry that issues (R140, R534). -/
def State.flightOf (s : State) (l : Nat) (k : Deck) (i : Nat) (e : Entry) : Flight :=
  { idx := i, work := .todo, til := k.c.til.cfg, chn := k.c.chn.cfg,
    tag := if tagged k.c.ctrc.tag l (k.d.issues + 1) then some k.d.tags else none,
    flags := {}, hyper := s.hyperAt k.job e, sent := 0 }

/-- Entry `i` issues (R122, R124): a STREAM takes its slot (R381), NOP and FENCE complete (R115). -/
def State.issue (s : State) (l : Nat) (k : Deck) (i : Nat) (e : Entry) : State :=
  let f := s.flightOf l k i e
  let occ := k.window.length
  let s := s.updDrl l (fun d =>
    let d := d.issue f
    let d := { d with tags := d.tags + b2n f.tag.isSome }
    match (if e.op = .stream then k.job.windowSlot e else none) with
    | some q => { d with held := q :: d.held }
    | none => d)
  let s := s.updCluster l (fun c => { c with gone := c.gone.filter (fun g => g.2 ≠ some i) })
  let s := s.count l [(ctIssued, 1), (ctReordered, b2n (k.d.head < i)), (ctTagged, b2n f.tag.isSome)]
  let step := s.stepOf k.key
  let s := s.trace l f e.op step 1 6 0 (BitVec.ofNat 64 occ)
  let s := e.op.units.foldl (fun s u =>
    if u = 1 then (List.range 8).foldl (fun s t => if e.mask.testBit t then s.trace l f e.op step 2 1 t 0 else s) s
    else s.trace l f e.op step 2 u 0 0) s
  if e.op = .nop ∨ e.op = .fence then s.complete ⟨l, k.key, k.job, e, f⟩ else s

/-- The class of a pace stroke on which nothing issues (R526): the first unmet condition of the lowest entry of the window that has
not issued, or EMPTY. A Derailleur that may not issue for another reason than MAX_INFLIGHT idles, in no class (log 26). -/
def State.strokeClass (s : State) (l : Nat) (k : Deck) : Option Nat :=
  match k.window.head? with
  | none => some 72
  | some i =>
    match k.entry i with
    | none => none
    | some e =>
      if !(k.ordered i e) then some 67
      else if !(k.fenced i e) then some 68
      else if !(k.waited e) then some 69
      else if !(k.clear i e) then some 70
      else if !(s.hasRoom l k e) || !(k.slotFree e) || k.c.maxInflight ≤ k.d.flights.length then some 71
      else none

/-- A STREAM of the window is unready only because its slot is HELD (R526). -/
def State.slotWaits (s : State) (l : Nat) (k : Deck) : Bool :=
  k.window.any (fun i => match k.entry i with
    | some e => !(k.slotFree e) && k.ordered i e && k.fenced i e && k.waited e && k.clear i e && s.hasRoom l k e
    | none => false)

/-- Occupancy of a queue whose consumer is the Derailleur (R529). -/
def Drl.occupancy (d : Drl) : Nat → Option Nat
  | 0x06 => some d.flights.length
  | 0x07 => some d.held.length
  | 0x08 => some d.pend.length
  | _ => none

/-- The cluster's threshold units at a pace stroke of the Derailleur (R528). -/
def Cluster.overCounts (c : Cluster) : Cluster :=
  (List.range 4).foldl (fun c u =>
    let w := c.ctrc.thr.getD u 0
    match (if bit w 63 then c.drl.occupancy (fld w 47 40) else none) with
    | none => c
    | some n =>
      let up := decide (fld w 15 0 < n)
      { c with
        ctr := addCounts c.ctr [(112 + 2 * u, b2n up), (113 + 2 * u, b2n (up && !(c.above.getD u false)))]
        above := c.above.set u up }) c

/-- A Derailleur pace stroke (R522, R526): `go` says whether an entry issues on it. -/
def State.drlStroke (s : State) (l : Nat) (go : Bool) : State :=
  let cls : Option Nat := match s.deck l with | none => some 72 | some k => if go then none else s.strokeClass l k
  let slot : Bool := match s.deck l with | none => false | some k => s.slotWaits l k
  (s.count l ([(64, 1), (75, b2n slot)] ++ (match cls with | some w => [(w, 1)] | none => []))).updCluster l Cluster.overCounts

/-- The cluster's rail is on: its pace loops run (R522). -/
def State.clusterOn (s : State) (l : Nat) : Bool :=
  s.alive && (match s.start.phys l with | some p => (s.start.cluster p).railOn | none => false)

/-- One issue decision of a cluster, on one pace stroke of its Derailleur; under issue gating at most one of G strokes issues an entry (R556),
and one that gating holds back is idle. -/
def State.stepDecide (s : State) (l : Nat) : State :=
  if !(s.clusterOn l) then s
  else
    let next : Option (Deck × Nat × Entry) := match (if s.pwr.gate ≤ (s.cluster l).strokes + 1 then s.deck l else none) with
      | none => none
      | some k => (s.nextIssue l k).bind (fun i => (k.entry i).map (fun e => (k, i, e)))
    let s := s.drlStroke l next.isSome
    let s := s.updCluster l (fun c => { c with strokes := if next.isSome then 0 else min 63 (c.strokes + 1) })
    match next with
    | none => s
    | some (k, i, e) => s.issue l k i e

/-- ISSUE_DECISION (R124). -/
def execIssueDecision (l : Nat) (s : State) : Out := onCluster l (.next (s.stepDecide l))

/-! ## Opcodes of the Derailleur -/

/-- SIGNAL: a message to the target cluster, with the sender's generation (R129, R131). The entry completes on its acknowledge. -/
def State.doSignal (s : State) (x : Site) : State :=
  let w2 := x.e.w2
  match s.request x.l (some x.f.idx) (fld w2 63 52) x.key.ctx
      (.signal (fld w2 44 38) (fld w2 37 32) (s.cluster x.l).drl.gen (fld x.e.w3 23 0)) with
  | some s =>
    (s.updDrl x.l (fun d => d.setFlight x.f.idx (fun f => { f with work := .requests, sent := 8 }))).count x.l [(ctSignals, 1)]
  | none => s

/-- SIGNAL (R129). -/
def execSignal (l idx : Nat) (s : State) : Out :=
  onCluster l (.next (match s.todo l idx .signal with | some x => s.doSignal x | none => s))

/-- CTL_WRITE (R142): the value lands in the shadow copy. -/
def State.doCtlEntry (s : State) (x : Site) : State :=
  let s := match regAt (fld x.e.w2 31 0) with
    | some r => s.writeReg r x.e.w3 x.key.ctx
    | none => s
  s.workDone x

/-- CTL_WRITE (R142). -/
def execCtlWrite (l idx : Nat) (s : State) : Out :=
  onCluster l (.next (match s.todo l idx .ctlWrite with | some x => s.doCtlEntry x | none => s))

/-! ## Iterations (R133, R349) -/

/-- The rule of R133: convergence, count or deadline. -/
def Drl.exits (d : Drl) (e : Entry) (deadline : Bool) : Bool :=
  d.iter == fld e.w2 23 0
    || (e.aux.testBit 15 && decide (fld e.w2 47 24 ≤ d.ctrs.getD (e.aux % 64) 0))
    || deadline

/-- The large problem of a generated Cassette. -/
def Deck.large (k : Deck) : Option Nat := k.sol.findSome? (fun o => match o with | .iterL g => some g | _ => none)

/-- The decision of an ITER_END in the solver's books (R349, R359): part 0 of a large problem decides each round for every part, and
the other parts wait at the round's ITER_END until it has (log 16). -/
def Sol.settle (x : Sol) (l : Nat) (large : Option Nat) (iter : Nat) (natural byDeadline : Bool) : Option (Sol × Bool) :=
  let x : Sol := { x with rounds := x.rounds.map (fun r => if r.1 = l then (l, r.2 + 1) else r) }
  let left (x : Sol) : Sol := if byDeadline then { x with deadlineStop := l :: x.deadlineStop } else x
  match large with
  | none => some (left x, natural)
  | some g =>
    if l % 16 = 0 then some ({ left x with decided := x.decided ++ [(g, iter, natural)] }, natural)
    else (x.decided.find? (fun r => r.1 = g ∧ r.2.1 = iter)).map (fun r => (x, r.2.2))

/-- The Derailleur after an ITER_END: on at the next entry, or back at TARGET with the named counters cleared. -/
def Drl.iterate (d : Drl) (e : Entry) (exit : Bool) : Drl :=
  if exit then { d with iter := 1, bound := some e.mig }
  else { d.clearCtrs e.w3 with iter := d.iter + 1, head := fld e.w2 63 48, ahead := [], bound := some e.mig }

/-- ITER_END: decided, and complete (R133); it stays in flight while it waits for part 0 (R349). -/
def State.doIterEnd (s : State) (x : Site) : State :=
  match s.deck x.l with
  | none => s
  | some k =>
    let dl : Bool := match s.hub.task x.key with | some t => t.expired | none => false
    let natural := k.d.exits x.e dl
    match (if k.sol = [] then some (s.sol, natural) else s.sol.settle x.l k.large k.d.iter natural dl) with
    | none => s
    | some r =>
      let s : State := { s with sol := r.1 }
      let s := s.updDrl x.l (fun d => d.iterate x.e r.2)
      s.complete x

/-- ITER_END (R133). -/
def execIterEnd (l idx : Nat) (s : State) : Out :=
  onCluster l (.next (match s.todo l idx .iterEnd with | some x => s.doIterEnd x | none => s))

/-! ## HALT (R138) -/

/-- The candidates of the task's slots as the task ends with STATUS.DONE (R246): a Cassette that ends in HALT installs those that
are READY; every other one is discarded. A borrower ends no candidate of its lender's (R301). -/
def Job.endCands (j : Job) (m : Cells) (task : Nat) (is : List Nat) : List (Nat × List Byte) :=
  is.flatMap (fun i => match j.slots[i]? with
    | some x => if !(j.stepped task) && x.candState m == 3 then installSlot m x else discardSlot m x
    | none => [])

/-- The task ends with STATUS.DONE on this module, a solver's once its cycle record is written (R137, R138, R359). -/
def State.taskDone (s : State) (k : TaskKey) : State :=
  let s := match s.jobOf k, s.hub.task k with
    | some j, some t => s.store (j.endCands s.mem k.task (s.ownSlots k (s.slotClusters k t)))
    | _, _ => s
  match s.jobOf k, (s.jobOf k).bind (fun j => j.sol) with
  | some j, some p =>
    if j.isSolver k.task then ({ s with sol := { s.sol with closing := true } } : State).closeCycle k p
    else s.endTask k statusDone (s.stepBase k)
  | _, _ => s.endTask k statusDone (s.stepBase k)

/-- Every cluster of the task on this module has halted. -/
def State.allHalted (s : State) (k : TaskKey) : Bool :=
  match s.jobOf k with
  | some j => (j.clusters k.task).all (fun l => match s.drlOf k l with | some d => d.halted | none => false)
  | none => false

/-- HALT (R138). -/
def State.doHalt (s : State) (x : Site) : State :=
  let s := s.updDrl x.l (fun d => { d with halted := true })
  let s := s.complete x
  if s.allHalted x.key then s.taskDone x.key else s

/-- HALT (R138). -/
def execHalt (l idx : Nat) (s : State) : Out :=
  onCluster l (.next (match s.todo l idx .halt with | some x => s.doHalt x | none => s))

end Sys2Proof.Machine
end

