-- ==== Sys2Proof/Machine/Matrix.lean ====
section
/-!
DEFINITION. Matrix entries: MM, MM_TA and MM_TB with their checks, the Pannier's order and the output chain (R159 to R180, R187,
R191), and GRAM_L and GRAM_R into the planes of statistic slots (R167 to R170, R173, R226, R227).
-/

namespace Sys2Proof.Machine

/-! ## Counts, traces and fault reports (R174, R497, R526, R536) -/

/-- Attempts that an output tile took. -/
def OTile.attempts (t : OTile) : Nat := if t.verdict = .pass then 1 else 2

/-- Reports of an entry's output tiles to the fault history (R174, R497): the locations, and cause 0x01 on a retry that passed,
0x02 on one that failed. -/
def State.chargeOtiles (s : State) (x : Site) (ts : List OTile) : State :=
  ts.foldl (fun s t =>
    let lt := otileOwner x.e.mask t.q
    match t.verdict with
    | .pending | .pass => s
    | .passRetry => (s.locateTile x.l lt t.rows t.cols).chargeTile x.l lt 0x01
    | .fail => (s.locateTile x.l lt t.rows t.cols).chargeTile x.l lt 0x02) s

/-- Words of a tile's block that an output tile raises: WORK, GROUPS, OTILES, RETRIES. -/
def OTile.counts (t : OTile) (mask k strokes : Nat) (product : Bool) : List (Nat × Nat) :=
  let w := ctTile (otileOwner mask t.q)
  [(w 1, t.attempts * tileStrokes k t.pos.2.2.1 strokes), (w 7, t.attempts - 1)]
    ++ (if product then [(w 5, t.attempts * t.pos.2.2.1 * t.pos.2.2.2 * ceilDiv k 32), (w 6, b2n (t.verdict != .fail))] else [])

/-- Counts of a tile entry on its tiles, for each of its products with its reduction length. -/
def State.countTiles (s : State) (x : Site) (ps : List (List OTile × Nat)) (strokes : Nat) (product : Bool) : State :=
  let es := ((List.range 8).filter (fun t => x.e.mask.testBit t)).map (fun t => (ctTile t 2, 1))
  (s.count x.l (es ++ ps.flatMap (fun p => p.1.flatMap (fun t => t.counts x.e.mask p.2 strokes product)))).updCluster x.l
    (fun c => { c with til := c.til.count (ps.flatMap (·.1)) })

/-- Blocks that pass the Chainline, with their beats and lane strokes (R187, R189), and the entry's flag. -/
def State.countBlocks (s : State) (l blocks strokes : Nat) (flagged : Bool) : State :=
  s.count l [(ctBlocks, blocks), (ctBeats, 16 * blocks), (77, 16 * strokes * blocks), (ctFlagged, b2n flagged)]

/-- Lane strokes per beat of an entry's chain. -/
def Job.chainStrokes (j : Job) (ch : Option Chain) : Nat :=
  match ch with
  | some c => chainCost ((c.stages.filter (fun g => g.kind = .prog)).map j.prog)
  | none => 1

/-- The failed retry of an output tile is an uncorrectable fault of its entry (R174). -/
def State.tileFault (s : State) (x : Site) (ts : List OTile) : State :=
  let u := match ts.find? (fun t => t.verdict = .fail) with | some t => otileOwner x.e.mask t.q | none => 0
  (s.climb 1 x.l 1 u).abortTask x.key statusAborted

/-! ## Products -/

/-- MODE of the Pannier header (R179). -/
def Opcode.mode : Opcode → Nat
  | .mmTa => 1
  | .mmTb => 2
  | _ => 0

/-- The header word of an output tile's slot (R179): with its verdict once it is filled, pending while it is reserved. -/
def Site.header (x : Site) (t : OTile) (v : Abft) : Word :=
  pannierHeader (x.f.idx % 65536) t.q (otileOwner x.e.mask t.q) (bit x.e.w2 1)
    (v != .pending && t.plane.any (fun r => r.any (fun v => !(Fp.isFin v.hi)))) v x.e.op.mode t.pos.2.2.1 t.pos.2.2.2

/-- The output of a product whose tiles all pass: through the chain, or unchanged under ACC (R164, R187, R191). -/
def State.productOut (s : State) (x : Site) (d : Tensor) (ch : Option Chain) (ts : List OTile) : State :=
  let o := applyChain s.mv x.job x.e.rnd (BitVec.ofNat 64 (s.stepOf x.key)) ch d none (fun r c => (productAt ts d.cols r c).hi)
  let flags : Bool := match ch with | some c => c.flags | none => false
  let s := ts.foldl (fun s t => s.trace x.l x.f x.e.op (s.stepOf x.key) 3 2 (otileOwner x.e.mask t.q) (x.header t t.verdict)) s
  let s := s.trace x.l x.f x.e.op (s.stepOf x.key) 4 3 0 (BitVec.ofNat 64 ts.length)
  let s := s.putAll x.l o.outs
  let s := s.countBlocks x.l ts.length (x.job.chainStrokes ch + (if bit x.e.w2 1 then 2 else 0)) (flags && o.fl.any)
  s.workDone x o.fl

/-- Output tiles have failed their first check (R174): the entry stays in flight for their retry, which its next command runs. -/
def State.awaitRetry (s : State) (x : Site) (cells : List CellFault) (ts : List OTile) : State :=
  s.setWork x (.retry cells ((ts.filter (fun t => t.verdict ≠ .pass)).map (fun t => (otileOwner x.e.mask t.q, t.rows, t.cols))))

/-- The entry's own output tiles that wait for their retry give their slots back to it. -/
def Site.reclaim (x : Site) (p : Pannier) : Pannier :=
  p.map (fun q => if q.tile.isSome && fld q.head 63 48 == x.f.idx % 65536 then PSlot.free else q)

/-- The output tiles of an entry pass through the Pannier, up to the first that waits for its retry; none while a slot is missing. -/
def Site.passPannier (x : Site) (a64 : Bool) (ts : List OTile) (p : Pannier) : Option Pannier :=
  Pannier.run (otileOwner x.e.mask) a64 x.header (if x.f.work = .todo then ts.map OTile.await else ts) (x.reclaim p)

/-- Some output tile has failed the first check that this command has run, so that its retry is still to come. -/
def Site.retries (x : Site) (ts : List OTile) : Bool := x.f.work == .todo && ts.any (fun t => t.verdict != .pass)

/-- The product itself (R159, R162, R164, R171 to R178); an output tile that finds no Pannier slot waits, and with it the entry. -/
def State.productBody (s : State) (x : Site) (ev : Ev) (a b d : Tensor) (ch : Option Chain) : State :=
  let acc := bit x.e.w2 0
  let init (r c : Nat) : F32 := if acc then d.f32 s.mv r c else 0
  let ts := product x.e.op (Mat.ofTensor s.mv a) (Mat.ofTensor s.mv b) (bit x.e.w2 1) (fld x.f.til 4 0) acc init (x.f.work.cells ev.cells)
  let k := (productShape x.e.op a b).2.2.1
  match x.passPannier (bit x.e.w2 1) ts (s.cluster x.l).pan with
  | none => s
  | some p =>
    let s := s.updCluster x.l (fun c => { c with
      pan := p, til := c.til.load (otileOwner x.e.mask) (orient x.e.op (Mat.ofTensor s.mv a) (Mat.ofTensor s.mv b)).2 ts })
    if x.retries ts then s.awaitRetry x (x.f.work.cells ev.cells) ts else
    let s := (s.countTiles x [(ts, k)] (strokesPerRow a.fmt) true).chargeOtiles x ts
    if ts.any (fun t => t.verdict = .fail) then s.tileFault x ts else s.productOut x d ch ts

/-- An MM, MM_TA or MM_TB entry (R159). -/
def State.runProduct (s : State) (x : Site) (ev : Ev) : State :=
  match x.opa, x.opb, x.opd with
  | some a, some b, some d =>
    let ch := x.job.chain x.e
    let ts := x.job.chainTensors ch
    s.guard x ev (tensorAccesses ([a, b] ++ (if bit x.e.w2 0 then [d] else []) ++ ts.1) (d :: ts.2))
      (fun s => s.productBody x ev a b d ch)
  | _, _, _ => s

/-- MM (R159). -/
def execMm (l idx : Nat) (ev : Ev) (s : State) : Out :=
  onCluster l (.next (match s.todo l idx .mm with | some x => s.runProduct x ev | none => s))

/-- MM_TA (R159). -/
def execMmTa (l idx : Nat) (ev : Ev) (s : State) : Out :=
  onCluster l (.next (match s.todo l idx .mmTa with | some x => s.runProduct x ev | none => s))

/-- MM_TB (R159). -/
def execMmTb (l idx : Nat) (ev : Ev) (s : State) : Out :=
  onCluster l (.next (match s.todo l idx .mmTb with | some x => s.runProduct x ev | none => s))

/-! ## Gram entries -/

/-- An output tile of a Gram entry: block, tile `(i, j)` of the block with `i ≤ j`, and its number in the whole output. -/
structure GTile where
  b : Nat
  i : Nat
  j : Nat
  q : Nat
  deriving DecidableEq, Repr

/-- Output tiles in the diagonal blocks, on or above the diagonal (R169), row by row. -/
def Slot.gramTiles (s : Slot) : List GTile :=
  let t := s.tilesEdge
  let n := s.dim / 128
  (List.range n).flatMap (fun r =>
    let b := r / max 1 t
    let i := r % max 1 t
    ((List.range t).filter (fun j => i ≤ j)).map (fun j => ⟨b, i, j, r * n + b * t + j⟩))

/-- The plane's accumulators of an output tile as a gathering step finds them (R226): cleared where the plane is EMPTY. -/
def Slot.gramOld (s : Slot) (m : Cells) (g : GTile) : List (List Acc) :=
  if s.planeState m = 1 then
    (List.range 128).map (fun r =>
      (chunks 16 (Cells.read m (s.accAddr g.b g.i g.j r 0) 2048)).map Acc.ofBytes)
  else List.replicate 128 (List.replicate 128 .cleared)

/-- The accumulator that a wrong cell delivers. -/
def accOf (v : F32) : Acc := if Fp.isFin v then (let x := accTerm (Fp.val v).dy; .val x.1 x.2) else .nonfin

/-- The expected row sum as the checksum column delivers it (R173, R175). -/
def gramSum (fs : List CellFault) (q attempt row : Nat) (a : Acc) : Acc :=
  match fs.find? (fun f => f.q = q ∧ f.attempt = attempt ∧ f.row = row ∧ f.col = 128) with
  | some f => accOf f.v
  | none => a

/-- A wrong cell's accumulator, as its finding gives it. -/
def gramFault (fs : List CellFault) (q attempt : Nat) (p : List (List Acc)) : List (List Acc) :=
  fs.foldl (fun p f =>
    if f.q = q ∧ f.attempt = attempt then
      updAt p f.row (fun r => updAt r f.col (fun _ => accOf f.v))
    else p) p

/-- One output tile with its row checks and at most one retry (R173, R174): its accumulators, and its verdict. -/
def runGram (t : Slot) (m : Cells) (sa sb : Mat) (tol : Nat) (fs : List CellFault) (g : GTile) : List (List Acc) × OTile :=
  let e := t.tilesEdge
  let r0 := (g.b * e + g.i) * 128
  let c0 := (g.b * e + g.j) * 128
  let old := t.gramOld m g
  let good := old.zipIdx.map (fun r => r.1.zipIdx.map (fun a => gramAcc a.1 sa sb (r0 + r.2) (c0 + a.2)))
  let bad (attempt : Nat) (p : List (List Acc)) : List Nat :=
    (List.range 128).filter (fun r =>
      gramRowFails tol sa sb (gramSum fs g.q attempt r) (old.getD r []) (p.getD r []) (r0 + r) c0 128)
  let pos := (r0, c0, 128, 128)
  let p0 := gramFault fs g.q 0 good
  if (bad 0 p0).isEmpty then (p0, ⟨g.q, pos, [], .pass, [], []⟩)
  else
    let p1 := gramFault fs g.q 1 good
    if (bad 1 p1).isEmpty then (p1, ⟨g.q, pos, [], .passRetry, bad 0 p0, []⟩)
    else (p1, ⟨g.q, pos, [], .fail, bad 0 p0 ++ bad 1 p1, []⟩)

/-- The writes of an output tile's accumulators to the plane. -/
def Slot.gramWrites (s : Slot) (g : GTile) (p : List (List Acc)) : List (Nat × List Byte) :=
  p.zipIdx.map (fun r => (s.accAddr g.b g.i g.j r.2 0, r.1.flatMap Acc.toBytes))

/-- The additions of a Gram entry (R167 to R170): the plane is OPEN afterwards (R226). -/
def State.gramBody (s : State) (x : Site) (ev : Ev) (t : Slot) (a : Tensor) : State :=
  let ab := orient x.e.op (Mat.ofTensor s.mv a) (Mat.ofTensor s.mv a)
  let outs := t.gramTiles.map (fun g => (g, runGram t s.mem ab.1 ab.2 (fld x.f.til 14 8) (x.f.work.cells ev.cells) g))
  let ts := outs.map (fun o => o.2.2)
  let k := (productShape x.e.op a a).2.2.1
  let s := s.updCluster x.l (fun c => { c with til := c.til.load (otileOwner x.e.mask) ab.2 ts })
  if x.retries ts then s.awaitRetry x (x.f.work.cells ev.cells) ts else
  let s := (s.countTiles x [(ts, k)] gramStrokes false).chargeOtiles x ts
  if ts.any (fun q => q.verdict = .fail) then s.tileFault x ts
  else
    let ws := outs.flatMap (fun o => t.gramWrites o.1 o.2.1)
    let s := s.store (ws ++ [t.setWord 0 (setFld (t.word s.mem 0) 63 60 1)])
    s.workDone x

/-- GRAM_L or GRAM_R: a step that is no multiple of STAT_EVERY does nothing (R227). -/
def State.runGramEntry (s : State) (x : Site) (ev : Ev) : State :=
  match x.opa, x.job.slots[fld x.e.w2 15 0]? with
  | some a, some t =>
    if s.stepOf x.key % max 1 t.statEvery ≠ 0 then s.workDone x
    else s.guard x ev (a.accesses false ++ (if t.planeState s.mem = 1 then [⟨t.plane, t.planeBytes, false⟩] else [])
        ++ [⟨t.plane, t.planeBytes, true⟩, ⟨t.state, 8, true⟩])
      (fun s => s.gramBody x ev t a)
  | _, _ => s

/-- GRAM_L (R167). -/
def execGramL (l idx : Nat) (ev : Ev) (s : State) : Out :=
  onCluster l (.next (match s.todo l idx .gramL with | some x => s.runGramEntry x ev | none => s))

/-- GRAM_R (R167). -/
def execGramR (l idx : Nat) (ev : Ev) (s : State) : Out :=
  onCluster l (.next (match s.todo l idx .gramR with | some x => s.runGramEntry x ev | none => s))

end Sys2Proof.Machine
end

