-- ==== Sys2Proof/Machine/Vector.lean ====
section
/-!
DEFINITION. Entries of the Chainline alone: CHAIN (R187, R198, R201) and REDUCE (R207, R412).
-/

namespace Sys2Proof.Machine

/-- Blocks of 128 × 128 elements that a shape passes as (R187). -/
def blocksOf (rows cols : Nat) : Nat := ceilDiv rows 128 * ceilDiv cols 128

/-! ## CHAIN -/

/-- The element program over OPA, through the sink and the accumulators (R191 to R206). -/
def State.chainBody (s : State) (x : Site) (ch : Chain) (a d : Tensor) (b : Option Tensor) : State :=
  let m := s.mv
  let o := applyChain m x.job x.e.rnd (BitVec.ofNat 64 (s.stepOf x.key)) (some ch) d b (fun r c => a.f32 m r c)
  let n := blocksOf d.rows d.cols
  let s := (s.putAll x.l o.outs).countBlocks x.l n (x.job.chainStrokes (some ch)) (ch.flags && o.fl.any)
  (s.trace x.l x.f x.e.op (s.stepOf x.key) 4 3 0 (BitVec.ofNat 64 n)).workDone x o.fl

/-- A CHAIN entry of a package. -/
def State.runChainEntry (s : State) (x : Site) (ev : Ev) : State :=
  match x.opa, x.opd, x.job.chain x.e with
  | some a, some d, some ch =>
    let ts := x.job.chainTensors (some ch)
    s.guard x ev (tensorAccesses (a :: (x.opb.toList ++ ts.1)) (d :: ts.2)) (fun s => s.chainBody x ch a d x.opb)
  | _, _, _ => s

/-! ## REDUCE -/

/-- The lines that a reduction takes, padding absent (R205, R207): rows, or columns for AXIS 1. -/
def redLines (m : Mv) (t : Tensor) (axis : Nat) : List (List (Option Val)) :=
  let el (r c : Nat) : Option Val := if r < t.lrows ∧ c < t.lcols then some (t.value m r c) else none
  if axis = 1 then (List.range t.cols).map (fun c => (List.range t.rows).map (fun r => el r c))
  else (List.range t.rows).map (fun r => (List.range t.cols).map (fun c => el r c))

/-- The operation of a reduction descriptor that acts on values (R412). -/
def RedDesc.valueOp (r : RedDesc) : RedOp :=
  match r.op with
  | 2 => .sumsq
  | 3 => .max
  | 4 => .min
  | _ => .sum

/-- The results of a REDUCE, one for each line, or one (R207). -/
def redValues (m : Mv) (t : Tensor) (r : RedDesc) : List Val :=
  let ls := redLines m t r.axis
  if t.fmt = .bx48 then reduceBx (r.axis = 2) ls else (reduceF32 r.valueOp r.a64 (r.axis = 2) ls).map Fp.val

def State.reduceBody (s : State) (x : Site) (r : RedDesc) (a d : Tensor) : State :=
  let vs := redValues s.mv a r
  let w := writeTensor d 0 (fun _ _ => .rne) (fun i j => vs.getD (if r.axis = 1 then j else i) (.fin false 0 0))
  let n := blocksOf a.rows a.cols
  let s := (s.putAll x.l [(d, w)]).countBlocks x.l n 1 false
  (s.trace x.l x.f x.e.op (s.stepOf x.key) 4 3 0 (BitVec.ofNat 64 n)).workDone x

/-- A REDUCE entry (R207). -/
def State.runReduce (s : State) (x : Site) (ev : Ev) : State :=
  match x.opa, x.opd, x.job.reds[x.e.aux]? with
  | some a, some d, some r => s.guard x ev (tensorAccesses [a] [d]) (fun s => s.reduceBody x r a d)
  | _, _, _ => s

/-- REDUCE (R207). -/
def execReduce (l idx : Nat) (ev : Ev) (s : State) : Out :=
  onCluster l (.next (match s.todo l idx .reduce with | some x => s.runReduce x ev | none => s))

end Sys2Proof.Machine
end

