-- ==== Sys2Proof/Machine/Cycle.lean ====
section
/-!
DEFINITION. The entries of a solver's generated Cassettes (R340, R345 to R353, R358; log 16): warm start, factorisation,
iterations, checks and results of small and large problems; and the CHAIN row, which carries most of them.
-/

namespace Sys2Proof.Machine

/-- What an entry of a generated Cassette does; none in a package's own Cassette. -/
def Site.solOp (x : Site) : Option SolOp :=
  match x.job.cassette x.key.task x.l with
  | some q => q.sol[x.f.idx]?
  | none => none

/-! ## Factors -/

/-- The buffer in force of a factor-set block (R248). -/
def Slot.resident (t : Slot) (m : Cells) (b : Nat) : BMat := readBlock m t (t.roots.getD (t.sel m b) 0) b

/-- The resident factor of a block; none where it has had no STATUS.VERIFIED since load. -/
def Job.factorOf (j : Job) (m : Cells) (b : Blk) : Option BMat :=
  match j.slots[b.slot]? with
  | some t => if j.factored.contains (b.slot, b.blockNo) then some (t.resident m b.blockNo) else none
  | none => none

/-- FACTOR of one block (R248): a factor goes to the inactive buffer and SEL flips; else the resident one stays. -/
def factorWrites (m : Cells) (t : Slot) (b : Nat) (r : FactorOut) : List (Nat × List Byte) :=
  let w := t.blockWord m b
  let w := setFld (setFld w 63 48 r.code) 39 38 r.restarts
  let eps := t.setWord (9 + 2 * b) (mkFld 63 32 (Fp.ofDy .rne r.eps).toNat)
  match r.factor with
  | some f => writeBlock t (t.roots.getD (1 - t.sel m b) 0) b f ++ [t.setWord (8 + 2 * b) (setFld w 36 36 (1 - t.sel m b)), eps]
  | none => [t.setWord (8 + 2 * b) w, eps]

/-- Topiary has written a block's code (R253, R526). -/
def State.blockCode (s : State) (l code restarts : Nat) : State :=
  (s.updCluster l (fun c => { c with top := { c.top with lastCode := if code = 0 then c.top.lastCode else code } })).count l
    [(ctCoded, b2n (code != 0)), (ctRestarts, restarts)]

/-- One block of a factor set factorised, and its code. -/
def State.factorOne (s : State) (l : Nat) (j : Job) (slot b : Nat) (a : BMat) : State × Nat :=
  match j.slots[slot]? with
  | none => (s, 0)
  | some t =>
    let r := factorBlock t a
    let s := ((s.store (factorWrites s.mem t b r)).blockCode l r.code r.restarts).count l [(ctTopFore, r.strokes), (ctPipe, r.ops)]
    (if r.code = codeVerified then
        s.updJob j.ctx j.handle (fun q => { q with factored := if q.factored.contains (slot, b) then q.factored else (slot, b) :: q.factored })
      else s, r.code)

/-! ## Small problems -/

def State.updSol (s : State) (f : Sol → Sol) : State := { s with sol := f s.sol }

/-- Problem `n` changed, and its RECORD (R341). -/
def State.updProb (s : State) (b : Blk) (n : Nat) (f : SolProb → SolProb) : State :=
  let s := s.updSol (fun q => q.upd n f)
  s.store [(b.recAddr, (s.sol.prob n).record)]

/-- Large problem `n` changed, and its RECORDs. -/
def State.updLarge (s : State) (g : SolLarge) (n : Nat) (f : SolProb → SolProb) : State :=
  let s := s.updSol (fun q => q.updL n f)
  s.store (g.recAddrs.map (fun a => (a, (s.sol.probL n).record)))

/-- A factorisation's code in a problem's record and in the cycle's counts. -/
def SolProb.factored (p : SolProb) (code : Nat) : SolProb :=
  if code = codeVerified then { p with verified := true } else { p with fnum := true }
def Sol.countFactor (x : Sol) (code : Nat) : Sol := { x with factNumeric := x.factNumeric + b2n (code == codeNumeric) }

/-- The warm start (R345). -/
def State.warmOne (s : State) (c : SolClass) (b : Blk) : State :=
  let w := ((Iter.read s.mem b.prev b.n b.m).shift c s.sol.shift).bytes
  s.store [(b.ws, w), (b.work, w)]

/-- FACTOR of a problem's KKT matrix (R346). -/
def State.factorProb (s : State) (x : Site) (c : SolClass) (n : Nat) (b : Blk) : State :=
  let k := kkt c.block c (s.sol.prob n).rho (Fp.val c.sigma).dy b (BData.read s.mem b 0)
  let r := s.factorOne x.l x.job b.slot b.blockNo k
  (r.1.updProb b n (fun p => p.factored r.2)).updSol (fun q => q.countFactor r.2)

/-- One iteration (R347); a frozen problem keeps WORK. -/
def State.iterProb (s : State) (x : Site) (c : SolClass) (n : Nat) (b : Blk) : State :=
  let p := s.sol.prob n
  if p.frozen.isSome then s
  else
    let it := admmStep c.block c p.rho b (BData.read s.mem b 0) (x.job.factorOf s.mem b) (Iter.read s.mem b.work b.n b.m)
    s.store [(b.work, it.bytes)]

/-- The check of a round (R348). -/
def State.checkProb (s : State) (x : Site) (c : SolClass) (n : Nat) (b : Blk) : State :=
  let k := checkOf c [(BData.read s.mem b 0, Iter.read s.mem b.work b.n b.m)] [] [] []
  s.updProb b n (fun p => p.check c (x.job.factored.contains (b.slot, b.blockNo)) k)

/-- Place of an outcome in the counts of R359. -/
def outcomeSlot (status : Nat) : Nat := status - statusSolved

/-- STOP of R358. -/
def SolProb.stop (p : SolProb) (deadline : Bool) : Nat := if p.frozen.isSome then 0 else if deadline then 1 else 2

/-- A problem's record for the next cycle (R350, R351). -/
def SolProb.finish (p : SolProb) (c : SolClass) (status : Nat) (deadline verified : Bool) : SolProb :=
  { p with dirty := p.dirty && !verified, rho := p.nextRho c status, status, stopped := p.stop deadline, stale := p.dirty && !verified }

def Sol.countOutcome (x : Sol) (status : Nat) : Sol := { x with counts := updAt x.counts (outcomeSlot status) (· + 1) }

/-- The result of a small problem (R350, R358): PREV, the record, ρ and DIRTY. -/
def State.finishProb (s : State) (x : Site) (c : SolClass) (n j : Nat) (b : Blk) : State :=
  let p := s.sol.prob n
  let dl := s.sol.deadlineStop.contains x.l
  let o := p.outcome dl
  let out := Iter.read s.mem (if o.2 then b.work else b.ws) b.n b.m
  let s := s.store [(b.prev, out.bytes)]
  let r := resultRecord p o.1 (p.stop dl) s.sol.cycle (p.dirty && !p.verified) out.x out.y
  let s := s.writeGlobal x.key.ctx (.solver x.key) (c.result + j * resultSize c.n c.m) r
  (s.updProb b n (fun p => p.finish c o.1 dl p.verified)).updSol (fun q => q.countOutcome o.1)

/-- Every problem of class `k` on the entry's cluster. -/
def State.eachProb (s : State) (x : Site) (p : SolPlan) (k : Nat) (f : State → SolClass → Nat → Nat → Blk → State) : State :=
  match p.cls k with
  | some c => (p.onCluster k x.l).foldl (fun s j => f s c (p.first k + j) j (c.blk j)) s
  | none => s

/-! ## Large problems (R352, R353) -/

/-- The part of a large problem that a cluster holds. -/
def SolLarge.partOn (g : SolLarge) (l : Nat) : Option Blk := g.blks.find? (fun b => b.cluster = l)

/-- Linking columns of every part. -/
def SolLarge.als (g : SolLarge) (m : Cells) : List (List (List F32)) := g.blks.map (fun b => (BData.read m b g.ml).al)

/-- τ of R353. -/
def SolLarge.tau (g : SolLarge) (m : Cells) (c : SolClass) : F32 := linkTau c.rho0 (g.als m) g.ml

/-- z and y of the linking rows at an address. -/
def SolLarge.link (g : SolLarge) (m : Cells) (a : Nat) : List F32 × List F32 := (readVec m a g.ml, readVec m (a + 4 * g.ml) g.ml)

/-- The warm start of a part; part 0 takes the linking rows too, which are not shifted (R353). -/
def State.warmPart (s : State) (l : Nat) (g : SolLarge) (c : SolClass) : State :=
  match g.partOn l with
  | none => s
  | some b =>
    let s := s.warmOne c b
    if l = 16 * g.chiplet then
      let a := g.linkState
      let v := g.link s.mem a.1
      s.store [(a.2.1, vecOut v.1 ++ vecOut v.2), (a.2.2, vecOut v.1 ++ vecOut v.2)]
    else s

def State.factorPart (s : State) (x : Site) (n : Nat) (g : SolLarge) (c : SolClass) : State :=
  match g.partOn x.l with
  | none => s
  | some b =>
    let sig := (Fp.val c.sigma).dy.add (Fp.val (g.tau s.mem c)).dy
    let k := kkt g.block c (s.sol.probL n).rho sig b (BData.read s.mem b g.ml)
    let r := s.factorOne x.l x.job b.slot b.blockNo k
    (r.1.updLarge g n (fun p => p.factored r.2)).updSol (fun q => q.countFactor r.2)

/-- One iteration of every part and of the linking rows. -/
def State.iterLarge (s : State) (x : Site) (n : Nat) (g : SolLarge) (c : SolClass) : State :=
  let p := s.sol.probL n
  if p.frozen.isSome then s
  else
    let m := s.mem
    let bs := g.blks
    let its := bs.map (fun b => Iter.read m b.work b.n b.m)
    let a := g.linkState
    let v := g.link m a.2.2
    let w := linkSum (g.als m) (its.map (·.x)) g.ml
    let r := largeStep g.block c p.rho c.rho0 (g.tau m c) bs (bs.map (fun b => BData.read m b g.ml))
      (bs.map (x.job.factorOf m)) its (readVec m g.linkBounds.1 g.ml) (readVec m g.linkBounds.2 g.ml) v.1 v.2 w
    s.store ((bs.zip r.1).map (fun q => (q.1.work, q.2.bytes)) ++ [(a.2.2, vecOut r.2.1 ++ vecOut r.2.2.1)])

/-- The check covers every part and the linking rows as one problem. -/
def State.checkLarge (s : State) (x : Site) (n : Nat) (g : SolLarge) (c : SolClass) : State :=
  let m := s.mem
  let bs := g.blks
  let its := bs.map (fun b => Iter.read m b.work b.n b.m)
  let v := g.link m g.linkState.2.2
  let als := g.als m
  let k := checkOf c ((bs.map (fun b => BData.read m b g.ml)).zip its) (linkSum als (its.map (·.x)) g.ml) v.1
    ((als.zip bs).map (fun q => matTVec q.1 q.2.n v.2))
  let has := bs.all (fun b => x.job.factored.contains (b.slot, b.blockNo))
  s.updLarge g n (fun p => p.check c has k)

/-- The result of a large problem: parts in order, then the linking rows (R358). -/
def State.finishLarge (s : State) (x : Site) (n : Nat) (g : SolLarge) (c : SolClass) : State :=
  let p := s.sol.probL n
  let bs := g.blks
  let dl := bs.any (fun b => s.sol.deadlineStop.contains b.cluster)
  let o := p.outcome dl
  let outs := bs.map (fun b => Iter.read s.mem (if o.2 then b.work else b.ws) b.n b.m)
  let a := g.linkState
  let v := g.link s.mem (if o.2 then a.2.2 else a.2.1)
  let s := s.store ((bs.zip outs).map (fun q => (q.1.prev, q.2.bytes)) ++ [(a.1, vecOut v.1 ++ vecOut v.2)])
  let fresh := !p.fnum && !p.fabn
  let r := resultRecord p o.1 (p.stop dl) s.sol.cycle (p.dirty && !fresh) (outs.flatMap (·.x)) (outs.flatMap (·.y) ++ v.2)
  let s := s.writeGlobal x.key.ctx (.solver x.key) g.result r
  (s.updLarge g n (fun p => p.finish c o.1 dl fresh)).updSol (fun q => q.countOutcome o.1)

/-- A large problem that part 0's cluster works on for every part. -/
def State.onLarge (s : State) (x : Site) (p : SolPlan) (n : Nat) (lead : Bool) (f : State → SolLarge → SolClass → State) : State :=
  match p.larges[n]? with
  | some g => (match p.cls g.cls with | some c => if lead && x.l != 16 * g.chiplet then s else f s g c | none => s)
  | none => s

/-- The results of every problem that a cluster answers for. -/
def State.finishCluster (s : State) (x : Site) (p : SolPlan) : State :=
  let s := (List.range p.classes.length).foldl (fun s k => s.eachProb x p k (fun s c n j b => s.finishProb x c n j b)) s
  (List.range p.larges.length).foldl (fun s n => s.onLarge x p n true (fun s g c => s.finishLarge x n g c)) s

/-! ## Entries -/

/-- The data, the state and the factor sets of a cluster's problems. -/
def SolPlan.accesses (p : SolPlan) (j : Job) (l : Nat) : List Access :=
  let blk (b : Blk) : List Access := [⟨b.lay.p, b.lay.size, false⟩, ⟨b.prev, b.work + vecBytes b.n b.m - b.prev, true⟩]
    ++ (match j.slots[b.slot]? with | some t => t.regions.map (fun r => ⟨r.1, r.2, true⟩) | none => [])
  ((List.range p.classes.length).flatMap (fun k =>
      match p.cls k with | some c => (p.onCluster k l).flatMap (fun i => blk (c.blk i)) | none => []))
    ++ (p.larges.filter (fun g => (g.partOn l).isSome)).flatMap (fun g => g.blks.flatMap blk)

/-- What an entry of a generated Cassette does. A SOLVE's result is taken up by the iteration that follows it; its strokes are counted
here (R254). -/
def State.solWork (s : State) (x : Site) (p : SolPlan) (o : SolOp) : State :=
  match o with
  | .plain | .assemble _ | .assembleL _ | .decide => s
  | .solve k =>
    (match p.cls k with
    | some c => s.count x.l [(ctTopFore, solveStrokes c.block 1 (p.onCluster k x.l).length)]
    | none => s)
  | .solveL n => s.onLarge x p n false (fun s g _ => s.count x.l [(ctTopFore, solveStrokes g.block 1 1)])
  | .warm k => s.eachProb x p k (fun s c _ _ b => s.warmOne c b)
  | .factor k => s.eachProb x p k (fun s c n _ b => s.factorProb x c n b)
  | .iter k => s.eachProb x p k (fun s c n _ b => s.iterProb x c n b)
  | .check k => s.eachProb x p k (fun s c n _ b => s.checkProb x c n b)
  | .warmL n => s.onLarge x p n false (fun s g c => s.warmPart x.l g c)
  | .factorL n => s.onLarge x p n false (fun s g c => s.factorPart x n g c)
  | .iterL n => s.onLarge x p n true (fun s g c => s.iterLarge x n g c)
  | .checkL n => s.onLarge x p n true (fun s g c => s.checkLarge x n g c)
  | .finish => s.finishCluster x p

/-- Lane strokes of an entry of a generated Cassette (R361): of a class, and of a large problem's part on the cluster. -/
def SolPlan.laneStrokes (p : SolPlan) (l : Nat) (o : SolOp) : Nat :=
  let cls (k : Nat) (f : SolClass → Nat → Nat) : Nat := match p.cls k with | some c => f c (p.onCluster k l).length | none => 0
  let part (g : Nat) (f : SolLarge → Blk → Nat) : Nat :=
    match p.larges[g]? with | some q => (match q.partOn l with | some b => f q b | none => 0) | none => 0
  match o with
  | .warm k => cls k (fun c n => 6 * solBeats n c.n c.m)
  | .assemble k => cls k (fun c n => 4 * ceilDiv (n * (c.block * c.block)) 1024)
  | .iter k => cls k (fun c n => 24 * solBeats n c.n c.m)
  | .check k => cls k (fun c n => solCheckStrokes n c.n c.m)
  | .warmL g => part g (fun _ b => 6 * solBeats 1 b.n b.m)
  | .assembleL g => part g (fun q _ => 4 * ceilDiv (q.block * q.block) 1024)
  | .iterL g => part g (fun q b => 24 * solBeats 1 b.n b.m + 6 * ceilDiv (q.ml * b.n) 1024)
  | .checkL g => part g (fun _ b => solCheckStrokes 1 b.n b.m)
  | _ => 0

/-- A working entry of a generated Cassette. -/
def State.runSol (s : State) (x : Site) (o : SolOp) (ev : Ev) : State :=
  match x.job.sol with
  | some p => s.guard x ev (p.accesses x.job x.l) (fun s => ((s.solWork x p o).count x.l [(77, p.laneStrokes x.l o)]).workDone x)
  | none => s

/-- CHAIN (R198); in a generated Cassette the solver's step that the entry stands for. -/
def execChain (l idx : Nat) (ev : Ev) (s : State) : Out :=
  onCluster l (.next (match s.todo l idx .chain with
    | some x => (match x.solOp with | some o => s.runSol x o ev | none => s.runChainEntry x ev)
    | none => s))

end Sys2Proof.Machine
end

