-- ==== Sys2Proof/Machine/Curvature.lean ====
section
/-!
DEFINITION. Topiary's entries and its background work: FOLD, EXPORT, REFRESH, FACTOR and SOLVE (R226 to R231, R248, R249), and
the refresh of a block (R232, R233, R240, R242).
-/

namespace Sys2Proof.Machine

/-- What a TOPIARY entry of a package works on. -/
structure TopSite where
  x : Site
  t : TopDesc
  s : Slot
  deriving DecidableEq, Repr

def Site.top (x : Site) (op : TopOp) : Option TopSite :=
  match x.job.tops[x.e.aux]? with
  | some t =>
    if t.op = op then (match x.job.slots[t.slot]? with | some s => some ⟨x, t, s⟩ | none => none) else none
  | none => none

/-- The entry, where it is a Topiary operation of the kind, not done. -/
def State.topTodo (s : State) (l idx : Nat) (op : TopOp) : Option TopSite := (s.todo l idx .topiary).bind (fun x => x.top op)

def TopSite.ten (q : TopSite) (i : Nat) : Option Tensor := q.x.ten i

/-- Topiary holds no foreground entry (R232). -/
def State.topFree (s : State) (l : Nat) : Bool :=
  match s.deck l with
  | some k => !(k.d.flights.any (fun f => f.work != .done && (match k.entry f.idx with | some e => e.op.onTopiary | none => false)))
  | none => false

/-- A cluster whose Topiary holds no foreground entry begins the refresh at the head of its queue: CAND_STATE RUNNING (R232,
R252). -/
def State.wakeTop (s : State) (l : Nat) : State :=
  match (s.cluster l).drl.holder, (s.cluster l).top.queue with
  | some k, r :: q =>
    if r.started || !(s.topFree l) then s
    else
      let s := match (s.jobOf k).bind (fun j => j.slots[r.slot]?) with
        | some t => s.store [t.setWord 0 (setFld (t.word s.mem 0) 59 56 2)]
        | none => s
      s.updCluster l (fun c => { c with top := { c.top with queue := { r with started := true } :: q } })
  | _, _ => s

/-- A Topiary entry's work is done, and background work may begin. -/
def State.topDone (s : State) (x : Site) : State := (s.workDone x).wakeTop x.l

/-! ## FOLD and EXPORT -/

/-- Every stored accumulator of a plane, in its order. -/
def Slot.planeAccs (t : Slot) (m : Cells) : List Acc :=
  (List.range (t.planeBytes / 2048)).flatMap (fun i => (chunks 16 (Cells.read m (t.plane + 2048 * i) 2048)).map Acc.ofBytes)

/-- The exact value of a stored accumulator; none where it is non-finite. -/
def Acc.exact : Acc → Option Dy
  | .nonfin => none
  | a => some a.dy

def Val.exact : Val → Option Dy
  | .fin s m e => some (Val.dy (.fin s m e))
  | _ => none

/-- Row of a plane tensor that holds row `r` of output tile `(i, j)` of block `b` (R229). -/
def Slot.planeRow (t : Slot) (b i j r : Nat) : Nat :=
  let e := t.tilesEdge
  (b * t.tilesBlk + (i * e - i * (i - 1) / 2 + (j - i))) * 128 + r

/-- The step sum of an element, from the plane or from the source tensor (R227). -/
def foldSource (m : Mv) (t : Slot) (src : Option Tensor) (b r c : Nat) : Option Dy :=
  match src with
  | some q => Val.exact (q.value m (t.planeRow b (r / 128) (c / 128) (r % 128)) (c % 128))
  | none => (t.accOf m.cells b r c).exact

/-- FOLD (R226 to R228): only a SEALED plane changes the statistic, and it is EMPTY afterwards. -/
def State.foldBody (s : State) (q : TopSite) : State :=
  let m := s.mem
  let t := q.s
  if t.planeState m ≠ 2 then s.topDone q.x
  else
    let src := q.ten q.t.tenA
    let ok := (t.planeAccs m).all (fun a => a.exact.isSome)
      && (match src with
        | some a => (List.range a.rows).all (fun r => (List.range a.cols).all (fun c => (Val.exact (a.value s.mv r c)).isSome))
        | none => true)
    let new := if ok then foldSlot m t (foldSource s.mv t src) else none
    let w4 := t.word m 4
    let w4' := match new with
      | some _ => setFld w4 63 32 ((fld w4 63 32 + 1) % 2 ^ 32)
      | none => setFld w4 31 0 ((fld w4 31 0 + 1) % 2 ^ 32)
    (s.store (new.getD [] ++ [t.setWord 4 w4', t.setWord 0 (setFld (t.word m 0) 63 60 0)])).topDone q.x

/-- The header words of a slot's record, and the words of a block. -/
def Slot.headWrite (t : Slot) : Access := ⟨t.state, 64, true⟩
def Slot.blockWrite (t : Slot) (b : Nat) : Access := ⟨t.state + 64 + 16 * b, 16, true⟩

/-- What FOLD moves: the SEALED plane, and the statistic read and written (R254). -/
def Slot.foldAccesses (t : Slot) (m : Cells) : List Access :=
  t.headWrite :: (if t.planeState m = 2 then [⟨t.plane, t.planeBytes, false⟩, ⟨t.stat, t.rootBytes, false⟩, ⟨t.stat, t.rootBytes, true⟩] else [])

/-- What EXPORT reads of the slot. -/
def Slot.exportAccesses (t : Slot) (m : Cells) : List Access :=
  ⟨t.state, 64, false⟩ :: (if t.planeState m = 2 then [⟨t.plane, t.planeBytes, false⟩] else [])

/-- What the launch of a refresh moves: the statistic, read and written as the snapshot (R231, R254). -/
def Slot.snapAccesses (t : Slot) (m : Cells) : List Access :=
  t.headWrite :: ⟨t.stat, t.rootBytes, false⟩ :: (List.range t.nblk).map (fun b => ⟨t.rootAt (1 - t.sel m b) b, t.blockBytes, true⟩)

/-- What the refresh of a block reads and writes (R233, R240): its snapshot and the installed root, the candidate with its application
copy, the installed application copy where the candidate is a copy of it, and the block's words. -/
def Slot.refreshAccesses (t : Slot) (b sel : Nat) (copies : Bool) : List Access :=
  [⟨t.rootAt (1 - sel) b, t.blockBytes, false⟩, ⟨t.rootAt sel b, t.blockBytes, false⟩, ⟨t.rootAt (1 - sel) b, t.blockBytes, true⟩,
   ⟨t.applyAt (1 - sel) b, t.blockApply, true⟩, t.blockWrite b, t.headWrite]
    ++ (if copies then [⟨t.applyAt sel b, t.blockApply, false⟩] else [])

/-- What FACTOR writes for the listed blocks, and what SOLVE reads of every block (R248, R249). -/
def Slot.factorAccesses (t : Slot) (m : Cells) (bs : List Nat) : List Access :=
  bs.flatMap (fun b => [⟨t.rootAt (1 - t.sel m b) b, t.blockBytes, true⟩, t.blockWrite b])
def Slot.solveAccesses (t : Slot) (m : Cells) : List Access :=
  (List.range t.nblk).map (fun b => ⟨t.rootAt (t.sel m b) b, t.blockBytes, false⟩)

def State.runFold (s : State) (q : TopSite) (ev : Ev) : State :=
  s.guard q.x ev (q.s.foldAccesses s.mem ++ (match q.ten q.t.tenA with | some a => a.accesses false | none => [])) (fun s => s.foldBody q)

/-- FOLD (R227). -/
def execFold (l idx : Nat) (ev : Ev) (s : State) : Out :=
  onCluster l (.next (match s.topTodo l idx .fold with | some q => s.runFold q ev | none => s))

/-- The value that EXPORT writes for a row and column of the plane tensor (R229). -/
def exportValue (m : Cells) (t : Slot) (r c : Nat) : Val :=
  if t.planeState m = 2 then
    (match Acc.ofBytes (Cells.read m (t.plane + (r * 128 + c) * 16) 16) with
    | .nonfin => .nan
    | a => Val.ofDy a.dy)
  else .fin false 0 0

def State.exportBody (s : State) (q : TopSite) (d : Tensor) : State :=
  let m := s.mem
  let w := writeTensor d 0 (fun _ _ => .rne) (fun r c => exportValue m q.s r c)
  (s.putAll q.x.l [(d, w)]).topDone q.x

/-- EXPORT (R229). -/
def State.runExport (s : State) (q : TopSite) (ev : Ev) : State :=
  match q.ten q.t.tenA with
  | some d => s.guard q.x ev (q.s.exportAccesses s.mem ++ d.accesses true) (fun s => s.exportBody q d)
  | none => s

/-- EXPORT (R229). -/
def execExportPlane (l idx : Nat) (ev : Ev) (s : State) : Out :=
  onCluster l (.next (match s.topTodo l idx .export_ with | some q => s.runExport q ev | none => s))

/-! ## REFRESH -/

/-- The snapshot: each block of the statistic copied into the root buffer that is not in force (R231). -/
def Slot.snapshot (t : Slot) (m : Cells) : List (Nat × List Byte) :=
  (List.range t.nblk).flatMap (fun b =>
    (List.range t.block).map (fun r =>
      (t.rowAddr (t.roots.getD (1 - t.sel m b) 0) b r, Cells.read m (t.rowAddr t.stat b r) (t.block / 64 * 392))))

/-- A launch discards a candidate that a suspended task of the job carries, too (R231, R256). -/
def State.dropCarried (s : State) (k : TaskKey) (slot : Nat) : State :=
  { s with hub := { s.hub with tasks := s.hub.tasks.map (fun t =>
      if t.key.ctx = k.ctx ∧ t.key.job = k.job then
        { t with saved := t.saved.map (fun x => { x with queue := x.queue.filter (fun r => r.slot ≠ slot), slots := x.slots.filter (· ≠ slot) }) }
      else t) } }

/-- The launch of a refresh (R231). -/
def State.refreshBody (s : State) (q : TopSite) : State :=
  let t := q.s
  let step := s.stepOf q.x.key
  let s := s.updCluster q.x.l (fun c => { c with top := { c.top with queue := c.top.queue.filter (fun r => r.slot ≠ q.t.slot) } })
  let s := s.dropCarried q.x.key q.t.slot
  let s := s.store (discardSlot s.mem t)
  let s := s.store (t.snapshot s.mem)
  let s := s.store [t.setWord 3 (BitVec.ofNat 64 step), t.setWord 0 (setFld (t.word s.mem 0) 59 56 1)]
  let w (b : Nat) : Word := t.blockWord s.mem b
  let bs := List.range t.nblk
  let r : Refresh :=
    { slot := q.t.slot, tag := step, sel := bs.map (fun b => fld (w b) 36 36), fails := bs.map (fun b => fld (w b) 34 33),
      damp10 := bs.map (fun b => bit (w b) 35), done := 0, started := false }
  (s.updCluster q.x.l (fun c => { c with top := { c.top with queue := c.top.queue ++ [r] } })).topDone q.x

/-- A REFRESH entry: a no-op on steps that are not of its phase (R231). -/
def State.runRefresh (s : State) (q : TopSite) (ev : Ev) : State :=
  if s.stepOf q.x.key % max 1 q.s.refreshEvery ≠ q.s.refreshPhase then s.topDone q.x
  else s.guard q.x ev (q.s.snapAccesses s.mem) (fun s => s.refreshBody q)

/-- REFRESH (R231). -/
def execRefresh (l idx : Nat) (ev : Ev) (s : State) : Out :=
  onCluster l (.next (match s.topTodo l idx .refresh with | some q => s.runRefresh q ev | none => s))

/-- What a block's refresh writes: the candidate root and application copy, or copies of those in force (R233, R240). -/
def candWrites (m : Cells) (t : Slot) (b sel : Nat) (o : BlockOut) : List (Nat × List Byte) :=
  let to' := 1 - sel
  match o.root with
  | some a => writeBlock t (t.roots.getD to' 0) b a ++ writeApply t (t.applies.getD to' 0) b a
  | none =>
    let a := readBlock m t (t.roots.getD sel 0) b
    let n := t.block * (if t.applyFmt = 4 then 2 else 4)
    writeBlock t (t.roots.getD to' 0) b a
      ++ (List.range t.block).map (fun i =>
        (t.applies.getD to' 0 + (b * t.block + i) * n, Cells.read m (t.applies.getD sel 0 + (b * t.block + i) * n) n))

/-- The result of the next block of a refresh (R233). -/
def Refresh.next (r : Refresh) (m : Cells) (t : Slot) : BlockOut :=
  let sel := r.sel.getD r.done 0
  refreshBlock t r.done (readBlock m t (t.roots.getD (1 - sel) 0) r.done) (readBlock m t (t.roots.getD sel 0) r.done)
    (r.damp10.getD r.done false) (r.fails.getD r.done 0)

/-- The next block of the refresh at the head of a cluster's queue; after the last one the candidate is READY (R232, R242). -/
def State.nextBlock (s : State) (l : Nat) (t : Slot) (r : Refresh) (o : BlockOut) : State :=
  let m := s.mem
  let b := r.done
  let sel := r.sel.getD b 0
  let last := r.done + 1 ≥ t.nblk
  let s := s.store (candWrites m t b sel o ++ blockOutWords t m b o
    ++ (if last then [t.setWord 0 (setFld (t.word m 0) 59 56 3)] else []))
  let rest (q : List Refresh) : List Refresh := if last then q.drop 1 else { r with done := r.done + 1 } :: q.drop 1
  let s : State := s.updCluster l (fun c => { c with top := { c.top with queue := rest c.top.queue } })
  ((s.blockCode l o.code o.restarts).count l [(ctTopBack, o.strokes), (ctPipe, o.ops)]).wakeTop l

/-- A word that background work cannot read aborts the cluster's task (log 33). -/
def State.backgroundFault (s : State) (k : TaskKey) (l : Nat) (f : FaultKind × Nat) : State :=
  let s : State := { s with pages := s.pages.latch f.1 s.me f.2 k.ctx l 0 }
  let s := if f.1 = .unc then s.poisonWord f.2 else s
  (s.climb 1 l 4 0).abortTask k statusAborted

/-- Background work of a cluster's Topiary. -/
def State.background (s : State) (l : Nat) (ev : Ev) : State :=
  match (s.cluster l).drl.holder, (s.cluster l).top.queue with
  | some k, r :: _ =>
    if !r.started || !(s.topFree l) then s
    else
      (match (s.jobOf k).bind (fun j => j.slots[r.slot]?) with
      | some t =>
        let o := r.next s.mem t
        let as := t.refreshAccesses r.done (r.sel.getD r.done 0) (o.root.isNone)
        (match firstFault s.pages s.poison ev.bad (some l) as with
        | some f => s.backgroundFault k l f
        | none =>
          if writesWait s.pages as || !(s.reaches as) then s
          else (((s.corrected ev.fixed as).countBytes ((s.start.phys l).map (fun p => p / 17)) as).pace l ev.pace).nextBlock l t r o)
      | none => s)
  | _, _ => s

/-- REFRESH_BLOCK (R232, R233). -/
def execRefreshBlock (l : Nat) (ev : Ev) (s : State) : Out := onCluster l (.next (s.background l ev))

/-! ## FACTOR and SOLVE -/

/-- Blocks that a FACTOR lists (R248), in the order of the list; a number of no block factors nothing (DESIGN CHOICE, log 68). -/
def factorList (m : Mv) (t : Slot) (list : Option Tensor) : List Nat :=
  match list with
  | none => List.range t.nblk
  | some q =>
    (List.range q.lrows).flatMap (fun r => (List.range q.lcols).filterMap (fun c =>
      match q.value m r c with
      | .fin s n e =>
        let b := shiftInt (Int.ofNat n) e
        if (s && b != 0) || decide ((t.nblk : Int) ≤ b) then none else some b.toNat
      | _ => none))

/-- Block `b` of the BX48 tensor TEN_A. -/
def matrixBlock (m : Cells) (t : Slot) (a : Tensor) (b : Nat) : BMat :=
  (List.range t.block).map (fun r => (List.range (t.block / 64)).map (fun g =>
    Seg.ofBytes (Cells.read m (a.base + (b * t.block + r) * a.stride + 392 * g) 392)))

def State.factorBody (s : State) (q : TopSite) (a : Tensor) : State :=
  let bs := factorList s.mv q.s (q.ten q.t.tenB)
  let s := bs.foldl (fun s b => (s.factorOne q.x.l q.x.job q.t.slot b (matrixBlock s.mem q.s a b)).1) s
  s.topDone q.x

/-- FACTOR of a package (R248). -/
def State.runFactor (s : State) (q : TopSite) (ev : Ev) : State :=
  match q.ten q.t.tenA with
  | some a =>
    s.guard q.x ev (q.s.factorAccesses s.mem (factorList s.mv q.s (q.ten q.t.tenB)) ++ a.accesses false ++ (match q.ten q.t.tenB with | some b => b.accesses false | none => []))
      (fun s => s.factorBody q a)
  | none => s

/-- FACTOR (R248); in a generated Cassette the factorisation of the cluster's problems (R346). One that a deadline has cut off comes
late (R99, R250). -/
def execFactor (l idx : Nat) (ev : Ev) (s : State) : Out :=
  onCluster l (.next (match s.todo l idx .topiary with
    | some x =>
      (match x.solOp with
      | some (.factor k) => s.runSol x (.factor k) ev
      | some (.factorL k) => s.runSol x (.factorL k) ev
      | some _ => s
      | none => (match x.top .factor with | some q => s.runFactor q ev | none => s))
    | none => s.updCluster l (fun c => c.lateDone (some idx))))

/-- The solutions of one block, by column of right-hand sides (R249). -/
def solveBlock (m : Mv) (j : Job) (q : TopSite) (a : Tensor) (b : Nat) : List (List F32) :=
  let f := if j.factored.contains (q.t.slot, b) then some (q.s.resident m.cells b) else none
  (List.range a.cols).map (fun c =>
    let v := (List.range q.s.block).map (fun r => a.value m (b * q.s.block + r) c)
    solveBlk q.s.block f (v.map (fun x => x.dy)) (v.all (fun x => (Val.exact x).isSome)))

def State.solveBody (s : State) (q : TopSite) (a d : Tensor) : State :=
  let sols := (List.range q.s.nblk).map (solveBlock s.mv q.x.job q a)
  let at' (r c : Nat) : F32 := vAt (((sols.getD (r / q.s.block) []).getD c [])) (r % q.s.block)
  let w := writeTensor d 0 (fun _ _ => .rne) (fun r c => Fp.val (at' r c))
  ((s.putAll q.x.l [(d, w)]).count q.x.l [(ctTopFore, solveStrokes q.s.block a.cols q.s.nblk)]).topDone q.x

/-- SOLVE of a package (R249). -/
def State.runSolve (s : State) (q : TopSite) (ev : Ev) : State :=
  match q.ten q.t.tenA, q.ten q.t.tenB with
  | some a, some d => s.guard q.x ev (q.s.solveAccesses s.mem ++ tensorAccesses [a] [d]) (fun s => s.solveBody q a d)
  | _, _ => s

/-- SOLVE (R249); in a generated Cassette the solve of an iteration (R347). One that a deadline has cut off comes late (R99, R250). -/
def execSolve (l idx : Nat) (ev : Ev) (s : State) : Out :=
  onCluster l (.next (match s.todo l idx .topiary with
    | some x =>
      (match x.solOp with
      | some (.solve k) => s.runSol x (.solve k) ev
      | some (.solveL k) => s.runSol x (.solveL k) ev
      | some _ => s
      | none => (match x.top .solve with | some q => s.runSolve q ev | none => s))
    | none => s.updCluster l (fun c => c.lateDone (some idx))))

end Sys2Proof.Machine
end

