-- ==== Sys2Proof/Machine/Movement.lean ====
section
/-!
DEFINITION. Entries that move bytes: STREAM, COPY and RELEASE of the fetch engine (R379 to R384) and SEND of the fabric interface
(R379, R384, R388).
-/

namespace Sys2Proof.Machine

/-- Rows of small transfers are joined (R384). -/
def State.merges (s : State) : Bool := bit s.pages.cfg 0

/-- Counts of the fetch engine (R526). -/
def State.countFetch (s : State) (l rd wr req : Nat) : State :=
  s.count l [(ctFetchRead, rd), (ctFetchWritten, wr), (ctFetchReq, req)]

/-! ## STREAM and RELEASE -/

/-- A stream's extents as the engine takes them from the block list; one that has come to break R380 since load is left out
(log 34). -/
def streamExtents (m : Cells) (list next slotBytes : Nat) : List Extent :=
  (extents m list next).filterMap (fun e =>
    match e with
    | some e => if e.len = 0 ∨ e.dst + e.len > slotBytes then none else some e
    | none => none)

/-- Runs of extents that continue one another in source and destination (R384). -/
def joinExtents : List Extent → List Extent
  | [] => []
  | e :: es =>
    match joinExtents es with
    | [] => [e]
    | f :: fs => if e.src + e.len = f.src ∧ e.dst + e.len = f.dst then ⟨e.src, e.len + f.len, e.dst⟩ :: fs else e :: f :: fs

/-- Requests that one run is cut into: at most 64 KiB each, none across a 2 MiB page boundary (R384). -/
def runRequests : Nat → Nat → Nat → Nat → Nat
  | 0, _, _, _ => 0
  | fuel + 1, src, dst, len =>
    if len = 0 then 0
    else
      let n := min len (min 65536 (min (pageBytes - src % pageBytes) (pageBytes - dst % pageBytes)))
      1 + runRequests fuel (src + n) (dst + n) (len - n)

def streamRequests (merge : Bool) (slot : Nat) (es : List Extent) : Nat :=
  sumNat ((if merge then joinExtents es else es).map (fun e => runRequests (e.len + 1) e.src (slot + e.dst) e.len))

/-- Every extent copied into the slot, in list order (R381, R383). -/
def State.streamBody (s : State) (x : Site) (slot : Nat) (es : List Extent) : State :=
  let n := sumNat (es.map (fun e => e.len))
  let req := streamRequests s.merges slot es
  let s := es.foldl (fun (s : State) e => (s.store [(slot + e.dst, Cells.read s.mem e.src e.len)]).retag e.src (slot + e.dst) e.len) s
  let s := s.countFetch x.l n n req
  (s.trace x.l x.f x.e.op (s.stepOf x.key) 5 5 0 (BitVec.ofNat 64 n)).workDone x

def State.runStream (s : State) (x : Site) (ev : Ev) : State :=
  match x.job.streams[x.e.aux]? with
  | some (.stream w sl _ next list _) =>
    (match x.job.regions[w]? with
    | some r =>
      let slot := r.base + sl * r.slotBytes
      let es := streamExtents s.mem list next r.slotBytes
      let as : List Access := (if next = 0 then [] else [⟨list, 16 * next, false⟩])
        ++ es.flatMap (fun e => [⟨e.src, e.len, false⟩, ⟨slot + e.dst, e.len, true⟩])
      s.guard x ev as (fun s => s.streamBody x slot es)
    | none => s)
  | _ => s

/-- STREAM (R381). -/
def execStream (l idx : Nat) (ev : Ev) (s : State) : Out :=
  onCluster l (.next (match s.todo l idx .stream with | some x => s.runStream x ev | none => s))

/-- RELEASE (R381): its completion sets the slot to FREE. -/
def execRelease (l idx : Nat) (s : State) : Out :=
  onCluster l (.next (match s.todo l idx .release with | some x => s.workDone x | none => s))

/-! ## COPY -/

/-- Each data element converted, padding written as +0 (R82, R119, R383). -/
def State.copyBody (s : State) (x : Site) (a d : Tensor) : State :=
  let m := s.mv
  let dr := s.drawIn x 0
  let w := writeTensor d (d.scaleOf m.cells) (sinkRnd x.e.rnd dr 0 d) (fun r c => a.value m r c)
  let rd := a.rows * a.rowBytes + a.planeBytes
  let wr := d.rows * d.rowBytes + d.planeBytes
  let s := (s.putAll x.l [(d, w)]).countFetch x.l rd wr (ceilDiv wr 65536)
  (s.trace x.l x.f x.e.op (s.stepOf x.key) 5 5 0 (BitVec.ofNat 64 wr)).workDone x

def State.runCopy (s : State) (x : Site) (ev : Ev) : State :=
  match x.opa, x.opd with
  | some a, some d => s.guard x ev (tensorAccesses [a] [d]) (fun s => s.copyBody x a d)
  | _, _ => s

/-- COPY (R383). -/
def execCopy (l idx : Nat) (ev : Ev) (s : State) : Out :=
  onCluster l (.next (match s.todo l idx .copy with | some x => s.runCopy x ev | none => s))

/-! ## SEND -/

/-- Rows that a SEND writes, in order: source, global destination and bytes (R379). -/
def Site.sendRows (x : Site) : List (Nat × Nat × Nat) :=
  match x.opa, x.job.streams[x.e.aux]? with
  | some a, some (.transfer n dst st) => (List.range n).map (fun r => (a.base + r * a.stride, dst + r * st, a.rowBytes))
  | _, _ => []

def Site.sendReads (x : Site) : List Access := x.sendRows.map (fun r => ⟨r.1, r.2.2, false⟩)

/-- Rows left after the first `n` bytes. -/
def rowsAfter : Nat → List (Nat × Nat × Nat) → List (Nat × Nat × Nat)
  | _, [] => []
  | n, r :: rs => if r.2.2 ≤ n then rowsAfter (n - r.2.2) rs else (r.1 + n, r.2.1 + n, r.2.2 - n) :: rs

/-- Runs of rows: rows whose destinations are contiguous are joined (R384). -/
def sendRuns (m : Cells) (merge : Bool) : List (Nat × Nat × Nat) → List (Nat × List Byte)
  | [] => []
  | r :: rs =>
    let bs := Cells.read m r.1 r.2.2
    match sendRuns m merge rs with
    | q :: qs => if merge ∧ r.2.1 + r.2.2 = q.1 then (r.2.1, bs ++ q.2) :: qs else (r.2.1, bs) :: q :: qs
    | [] => [(r.2.1, bs)]

/-- One WRITE of a SEND: its global destination, its bytes, how many of them are the SEND's own, and those of later SENDs. -/
structure SendPiece where
  dst : Nat
  bytes : List Byte
  own : Nat
  also : List (Nat × Nat)
  deriving DecidableEq, Repr

/-- Runs cut into messages of at most 4,096 bytes (R401). -/
def cutRuns (runs : List (Nat × List Byte)) : List SendPiece :=
  runs.flatMap (fun q => (chunks 4096 q.2).zipIdx.map (fun p => ⟨q.1 + 4096 * p.2, p.1, p.1.length, []⟩))

/-- Bytes of the SENDs that have issued after one and follow it in source and destination, at most `room` of them: the entry and its bytes
(R384). One whose rows cannot be read now is left to its own turn. -/
def State.sendFollow (s : State) (l : Nat) (bad : List Nat) : List Flight → Nat → Nat → Nat → List (Nat × List Byte)
  | [], _, _, _ => []
  | f :: fs, src, dst, room =>
    match s.site l f.idx with
    | none => []
    | some y =>
      if y.e.op ≠ .send then State.sendFollow s l bad fs src dst room
      else
        match y.sendRows with
        | [] => State.sendFollow s l bad fs src dst room
        | r :: rs =>
          if room = 0 ∨ f.work ≠ .todo ∨ f.sent ≠ 0 ∨ r.1 ≠ src ∨ r.2.1 ≠ dst ∨ (firstFault s.pages s.poison bad (some l) y.sendReads).isSome
              ∨ !(s.reaches y.sendReads) then []
          else
            let run := ((sendRuns s.mem true (r :: rs)).map (·.2)).headD []
            let bs := run.take room
            let e := (r :: rs).getLastD r
            (f.idx, bs) :: (if bs.length = sumNat ((r :: rs).map (fun q => q.2.2))
              then State.sendFollow s l bad fs (e.1 + e.2.2) (e.2.1 + e.2.2) (room - bs.length) else [])

/-- The WRITEs that a SEND has yet to send: its last one, where it is not full, takes the first bytes of the SENDs that continue it (R384). -/
def State.sendPieces (s : State) (x : Site) (bad : List Nat) : List SendPiece :=
  let rows := rowsAfter x.f.sent x.sendRows
  let ps := cutRuns (sendRuns s.mem s.merges rows)
  match ps.getLast?, rows.getLast? with
  | some p, some r =>
    let later := (((s.cluster x.l).drl.flights.dropWhile (fun f => f.idx ≠ x.f.idx)).drop 1)
    let more := if s.merges then s.sendFollow x.l bad later (r.1 + r.2.2) (r.2.1 + r.2.2) (4096 - p.bytes.length) else []
    ps.dropLast ++ [⟨p.dst, p.bytes ++ more.flatMap (·.2), p.own, more.map (fun q => (q.1, q.2.length))⟩]
  | _, _ => ps

/-- Pieces sent as WRITE requests of the entry while the cluster has free tags; answers whether none is left. -/
def State.sendSome (s : State) (x : Site) : List SendPiece → State × Bool
  | [] => (s, true)
  | p :: ps =>
    match s.request x.l (some x.f.idx) (p.dst / 2 ^ 52) x.key.ctx (.write (p.dst % 2 ^ 52) p.bytes) (p.also.map (·.1)) with
    | some s =>
      State.sendSome (((x.f.idx, p.own) :: p.also).foldl (fun (s : State) q =>
        s.updDrl x.l (fun d => d.setFlight q.1 (fun f => { f with sent := f.sent + q.2 }))) s) x ps
    | none => (s, false)

/-- A SEND goes on; once every byte is sent it waits for its acknowledges (R379). -/
def State.sendBody (s : State) (x : Site) (bad : List Nat) : State :=
  let r := s.sendSome x (s.sendPieces x bad)
  if r.2 then r.1.setWork x .requests else r.1

def State.runSend (s : State) (x : Site) (ev : Ev) : State :=
  match x.opa, x.job.streams[x.e.aux]? with
  | some _, some (.transfer _ _ _) => s.guard x ev x.sendReads (fun s => s.sendBody x ev.bad)
  | _, _ => s

/-- SEND (R379). -/
def execSend (l idx : Nat) (ev : Ev) (s : State) : Out :=
  onCluster l (.next (match s.todo l idx .send with | some x => s.runSend x ev | none => s))

end Sys2Proof.Machine
end

