-- ==== Sys2Proof/Machine/Groups.lean ====
section
/-!
DEFINITION. Work of member groups: COLLECTIVE with its PART, RESULT and CARRY messages (R210, R412 to R419), EXCHANGE with its COUNT
messages and rows (R318 to R324), as each member takes part in it.
-/

namespace Sys2Proof.Machine

/-! ## Members -/

/-- A message of a member to another, or to itself, on the collective channel. -/
def State.groupSend (s : State) (l ctx dst : Nat) (b : Body) : State :=
  (s.count l [(ctMsgSent, 1), (ctBytesSent, b.payBytes)]).send ⟨dst, s.me, ctx, 0, l, b⟩

/-- The cluster of this module that takes part in a descriptor's operations for a context: of its tasks that name the descriptor
one that runs, and of those the one with the sender's logical number (R414; log 36). -/
def State.groupHome (s : State) (rx : Rx) (op : Opcode) (desc : Nat) : Option (TaskKey × Nat) :=
  let all := (s.hub.tasks.filter (fun t => t.key.ctx = rx.ctx)).flatMap (fun t =>
    match s.jobOf t.key with
    | some j => (j.cassettes.filter (fun c => c.task = t.key.task && c.entries.any (fun e => e.op == op && e.aux == desc))).map
        (fun c => (t.key, c.cluster))
    | none => [])
  let live := all.filter (fun q => (s.drlOf q.1 q.2).isSome)
  match live.find? (fun q => q.2 = rx.scl), live.head? with
  | some q, _ => some q
  | none, some q => some q
  | none, none => all.head?

/-- A message for an occurrence that this member has not issued yet is kept: by the cluster, or by a task that has not started (R419;
log 36). -/
def State.keepEarly (s : State) (k : TaskKey) (l desc occ : Nat) (m : Msg) : State :=
  match s.drlOf k l with
  | some d =>
    if (occ + 65536 - d.occ desc % 65536) % 65536 < 32768 then s.setDrlOf k l { d with early := d.early ++ [m] } else s
  | none =>
    s.updTask k (fun t => if t.st = .idle then { t with early := t.early ++ [(l, m)] } else t)

/-- A collective message arrives at its member: the operation in progress takes it, or it is kept. `take` answers none where no such
occurrence is in progress on the cluster. -/
def State.groupTake (s : State) (rx : Rx) (op : Opcode) (desc occ : Nat) (b : Body) (take : State → Nat → Option State) : State :=
  if s.barred rx.ctx then s
  else
    match s.groupHome rx op desc with
    | none => s
    | some (k, l) =>
      let s := s.count l [(ctMsgRecv, 1), (ctBytesRecv, b.payBytes)]
      match (if (s.cluster l).drl.holder = some k then take s l else none) with
      | some s => s
      | none => s.keepEarly k l desc occ (msgOf rx b)

/-! ## COLLECTIVE -/

/-- Values of held rows `lo` to `lo + n − 1` and columns `c` to `c + w − 1` of a tensor (R416); with `a64` as pairs. -/
def collValues (m : Cells) (t : Tensor) (a64 : Bool) (lo n c w : Nat) : CVals :=
  if t.fmt = .bx48 then
    .bx ((List.range n).map (fun r => (List.range (w / 64)).map (fun g =>
      some (Seg.ofBytes (Cells.read m (t.base + (lo + r) * t.stride + 392 * (c / 64 + g)) 392)))))
  else
    let vs : List F32 := (List.range n).flatMap (fun r => (List.range w).map (fun k => BitVec.ofNat 32 (t.codeAt m (lo + r) (c + k))))
    if a64 then .a64 (vs.map (fun v => ⟨v, 0⟩)) else .f32 vs

/-- Place of chunk `k`: first held row, rows, first held column, columns (R414). -/
def chunkPlace (r : RedDesc) (a d : Tensor) (n k : Nat) : Nat × Nat × Nat × Nat :=
  if r.op = 6 then (if r.axis = 0 then (k * d.rows, d.rows, 0, d.cols) else (0, d.rows, k * d.cols, d.cols))
  else
    let q := chunkRows a.rows n k
    (q.1, q.2, 0, a.cols)

/-- The bytes of a member's block for a GATHER: its rows, then its part of an S4 scale plane (R417). -/
def gatherBlock (m : Cells) (a : Tensor) : List Byte :=
  (List.range a.rows).flatMap (fun r => Cells.read m (a.base + r * a.stride) a.rowBytes)
    ++ (if a.fmt = .s4 then Cells.read m a.splane a.planeBytes else [])

/-- Where the block of rank `k` lands in OPD: writes of its bytes (R417). -/
def gatherWrites (r : RedDesc) (a d : Tensor) (k : Nat) (bs : List Byte) : List (Nat × List Byte) :=
  let at' (i : Nat) : Nat :=
    if r.axis = 0 then d.base + (k * a.rows + i) * d.stride else d.base + i * d.stride + k * a.rowBytes
  let plane (i : Nat) : Nat :=
    if r.axis = 0 then d.splane + (k * a.rows + i) * (d.cols / 32) else d.splane + i * (d.cols / 32) + k * (a.cols / 32)
  let w := a.cols / 32
  (List.range a.rows).map (fun i => (at' i, (bs.drop (i * a.rowBytes)).take a.rowBytes))
    ++ (if a.fmt = .s4 then (List.range a.rows).map (fun i => (plane i, (bs.drop (a.rows * a.rowBytes + i * w)).take w)) else [])

/-- A result row for row `r` of OPD: padding is +0 (R119), and a BX48 segment whose exponent left the range is not written (R59). -/
def resultRow (d : Tensor) (r : Nat) (bs : List Byte) : List (Nat × List Byte) :=
  let at' := d.base + r * d.stride
  let keep (c : Nat) : Bool := r < d.lrows && c < d.lcols
  if d.fmt = .bx48 then
    (chunks 392 bs).zipIdx.filterMap (fun p => (OSeg.ofBytes p.1).map (fun g => (at' + 392 * p.2,
      (match g with
       | .nonfin => Seg.nonfin
       | .seg e s => .seg e (s.zipIdx.map (fun (x : Int × Nat) => if keep (64 * p.2 + x.2) then x.1 else 0))).toBytes)))
  else [(at', ((chunks 4 bs).zipIdx.flatMap (fun p => if keep p.2 then p.1 else leBytes 4 0)))]

/-- Writes of a chunk's result into OPD; SCATTER_SUM's chunk fills it (R415, R417). -/
def chunkWrites (r : RedDesc) (a d : Tensor) (n k : Nat) (bs : List Byte) : List (Nat × List Byte) :=
  let q := chunkPlace r a d n k
  let row := if r.op = 6 then 0 else q.1
  let w := d.rowBytes
  (List.range q.2.1).flatMap (fun i => resultRow d (row + i) ((bs.drop (i * w)).take w))

/-- Largest magnitudes of a step for a scale record, over the module's clusters of the task (R74, R418). -/
def State.amaxOf (s : State) (k : TaskKey) (srec : Nat) : Nat :=
  maxNat ((s.holders k).map (fun l => match s.drlOf k l with
    | some d => (match assoc d.convs srec with | some c => c.amax | none => 0)
    | none => 0))

/-- Tensors whose magnitudes ride the collective. -/
def Job.listed (j : Job) (m : Cells) (r : RedDesc) : List Tensor :=
  if r.amaxList = noIdx then [] else (j.amaxListed m r.amaxList).filterMap j.tensor?

/-- The collective as it starts on this member (R414 to R418). -/
def State.collOf (s : State) (x : Site) (r : RedDesc) (a d : Tensor) : Coll :=
  let ms := x.job.members s.me x.e
  let n := ms.length
  let live := (List.range n).filter (fun k => r.op = 5 || (chunkPlace r a d n k).2.1 != 0)
  { entry := x.f.idx, desc := x.e.aux, occ := (s.cluster x.l).drl.occ x.e.aux, op := r.op, rank := (ms.findIdx? (· = s.me)).getD 0,
    members := ms, live,
    leaves := if r.op = 5 then [] else live.map (fun k =>
      let q := chunkPlace r a d n k
      (k, collValues s.mem a (r.a64 && (r.op == 1 || r.op == 6)) q.1 q.2.1 q.2.2.1 q.2.2.2)),
    nodes := [], results := [], carries := [], parts := [], needCarry := r.nfc || r.amaxList != noIdx, carryDone := none }

/-- The carry that this member adds (R210, R418). -/
def State.carryOf (s : State) (x : Site) (r : RedDesc) : Carry :=
  ⟨r.nfc && (s.cluster x.l).chn.stepNf, (x.job.listed s.mem r).map (fun t => s.amaxOf x.key t.srec)⟩

/-- What a collective sends, by rank. -/
def State.collSend (s : State) (x : Site) (c : Coll) (ms : List (Nat × Body)) : State :=
  (ms.flatMap (fun m => m.2.pieces.map (fun b => (m.1, b)))).foldl (fun s m => s.groupSend x.l x.key.ctx (c.members.getD m.1 s.me) m.2) s

/-- The member's result lands in OPD, and the carry in its cluster (R415, R417, R418); of magnitudes that several COLLECTIVEs of the step
return for one record the last stands. -/
def State.finishColl (s : State) (x : Site) (r : RedDesc) (a d : Tensor) (c : Coll) : State :=
  let ws := c.results.flatMap (fun q =>
    if c.op = 5 then gatherWrites r a d q.1 q.2
    else if c.op = 6 then (if q.1 = c.rank then chunkWrites r a d c.n q.1 q.2 else [])
    else chunkWrites r a d c.n q.1 q.2)
  let s := s.store ws
  let s : State := if a.fmt = .s8e ∨ a.fmt = .s8w then { s with tags := s.tags.put d.base d.bytes (a.scaleOf s.mem) } else s
  let s := match c.carryDone with
    | some v =>
      let ts : List (Tensor × Nat) := (x.job.listed s.mem r).zip v.amax
      let amaxs (m : List (Nat × Nat)) : List (Nat × Nat) := ts.foldl (fun (m : List (Nat × Nat)) (t : Tensor × Nat) => assocSet m t.1.srec t.2) m
      let mine (d : Drl) : Drl := { d with amaxs := d.amaxs.filter (fun e => !(ts.any (fun t => t.1.srec = e.1))) }
      let s := (s.holders x.key).foldl (fun (s : State) l => s.updCluster l (fun q => q.updDrl x.key mine)) s
      s.updCluster x.l (fun q => { q with
        chn := { q.chn with stepNf := q.chn.stepNf || (r.nfc && v.nf) }
        drl := { q.drl with amaxs := amaxs q.drl.amaxs } })
    | none => s
  s.workDone x

/-- A collective goes on after what has come: it is finished once everything of its own has arrived (R419). -/
def State.settleColl (s : State) (x : Site) (c : Coll) : State :=
  match x.job.reds[x.e.aux]?, x.opa, x.opd with
  | some r, some a, some d =>
    if c.complete ∧ !(writesWait s.pages (d.accesses true)) then s.finishColl x r a d c else s.setWork x (.coll c)
  | _, _, _ => s

/-- The collective in progress on a cluster for an occurrence. -/
def State.collAt (s : State) (l desc occ : Nat) : Option (Site × Coll) :=
  (s.cluster l).drl.flights.findSome? (fun f =>
    match f.work with
    | .coll c => if c.desc = desc ∧ c.occ = occ then (s.site l f.idx).map (fun x => (x, c)) else none
    | _ => none)

/-- A partial value lands in half OCC mod 2 of STAGE (R419). -/
def State.stagePart (s : State) (x : Site) (c : Coll) (b : Body) : State :=
  match b, (x.job.reds[x.e.aux]?).bind (fun r => x.ten r.stage) with
  | .part _ _ chunk lo level p, some t =>
    s.store [(t.base + c.occ % 2 * (t.rows * t.rowBytes / 2) + c.stageOff chunk lo level + p.off, p.bytes)]
  | _, _ => s

/-- What a collective does with a message of its own kind. -/
def Coll.take (c : Coll) (b : Body) : Coll × List (Nat × Body) :=
  match b with
  | .part _ _ chunk lo level vals => c.takePart chunk lo level vals
  | .result _ _ chunk _ vals => (c.takeResult chunk vals, [])
  | .carry _ _ lo level nf amax final => c.takeCarry lo level ⟨nf, amax⟩ final
  | _ => (c, [])

/-- A message of its own kind reaches the collective in progress. -/
def State.stepColl (s : State) (l desc occ : Nat) (b : Body) : Option State :=
  (s.collAt l desc occ).map (fun q =>
    let r := q.2.take b
    ((s.stagePart q.1 q.2 b).collSend q.1 r.1 r.2).settleColl q.1 r.1)

/-- Descriptor and occurrence of a collective message. -/
def Body.occ : Body → Option (Nat × Nat)
  | .part d o _ _ _ _ => some (d, o)
  | .result d o _ _ _ => some (d, o)
  | .carry d o _ _ _ _ _ => some (d, o)
  | .count d o _ _ => some (d, o)
  | _ => none

/-- Messages of an occurrence that came early, taken from where they were kept. -/
def State.takeEarly (s : State) (l desc occ : Nat) : State × List Msg :=
  let d := (s.cluster l).drl
  let mine := d.early.filter (fun m => m.body.occ = some (desc, occ))
  (s.updDrl l (fun d => { d with early := d.early.filter (fun m => m.body.occ ≠ some (desc, occ)) }), mine)

/-- A COLLECTIVE starts on this member (R414 to R419). -/
def State.startColl (s : State) (x : Site) (r : RedDesc) (a d : Tensor) : State :=
  let c := s.collOf x r a d
  let q := c.start (s.carryOf x r) (if r.op = 5 then gatherBlock s.mem a else [])
  let s := s.updDrl x.l (fun d => d.bumpOcc x.e.aux)
  let s := s.count x.l [(ctCollectives, 1)]
  let s := (s.collSend x q.1 q.2).settleColl x q.1
  let e := s.takeEarly x.l x.e.aux c.occ
  e.2.foldl (fun (s : State) m => (s.stepColl x.l x.e.aux c.occ m.body).getD s) e.1

def State.runColl (s : State) (x : Site) (ev : Ev) : State :=
  match x.job.reds[x.e.aux]?, x.opa, x.opd with
  | some r, some a, some d =>
    s.guard x ev (tensorAccesses (a :: (x.ten r.amaxList).toList) (d :: (x.ten r.stage).toList)) (fun s => s.startColl x r a d)
  | _, _, _ => s

/-- COLLECTIVE (R415): started, or completed once its OPD may be written. -/
def execCollective (l idx : Nat) (ev : Ev) (s : State) : Out :=
  onCluster l (.next (match s.site l idx with
    | some x =>
      if x.e.op ≠ .collective then s
      else
        (match x.f.work with
        | .todo => s.runColl x ev
        | .coll c => s.settleColl x c
        | _ => s)
    | none => s))

/-- PART (R415). -/
def execPart (rx : Rx) (desc occ chunk lo level : Nat) (vals : Piece) (s : State) : Out :=
  let b : Body := .part desc occ chunk lo level vals
  s.arrive rx b (fun s => s.groupTake rx .collective desc occ b (fun s l => s.stepColl l desc occ b))

/-- RESULT (R415, R417). -/
def execResult (rx : Rx) (desc occ chunk rank : Nat) (vals : Piece) (s : State) : Out :=
  let b : Body := .result desc occ chunk rank vals
  s.arrive rx b (fun s => s.groupTake rx .collective desc occ b (fun s l => s.stepColl l desc occ b))

/-- CARRY (R418). -/
def execCarry (rx : Rx) (desc occ lo level : Nat) (nf : Bool) (amax : List Nat) (final : Bool) (s : State) : Out :=
  let b : Body := .carry desc occ lo level nf amax final
  s.arrive rx b (fun s => s.groupTake rx .collective desc occ b (fun s l => s.stepColl l desc occ b))

/-! ## EXCHANGE -/

/-- Members that this one sends rows to: the replicas that it routes to (R320). -/
def Exch.targets (e : Exch) : List Nat :=
  let g := e.group.length
  (List.range g).filter (fun j => (expertsOf e.x g j).any (fun k => exchTarget e.x g k e.me = j))

/-- Members that route an expert to this one (R320). -/
def Exch.sources (e : Exch) : List Nat :=
  let g := e.group.length
  (List.range g).filter (fun i => (expertsOf e.x g e.me).any (fun k => exchTarget e.x g k i = e.me))

/-- Bytes of a held row with its part of the scale plane. -/
def Tensor.fullRow (t : Tensor) : Nat := t.rowBytes + (if t.fmt = .s4 then t.cols / 32 else 0)

/-- Pieces of a held row: address and bytes. -/
def Tensor.rowParts (t : Tensor) (r : Nat) : List (Nat × Nat) :=
  (t.base + r * t.stride, t.rowBytes) :: (if t.fmt = .s4 then [(t.splane + r * (t.cols / 32), t.cols / 32)] else [])

/-- Row `rs` of one tensor to row `rd` of another on a module, in messages of at most 4,096 bytes. -/
def rowMoves (m : Nat) (a : Tensor) (rs : Nat) (d : Tensor) (rd : Nat) : List (Nat × Nat × Nat × Nat) :=
  ((a.rowParts rs).zip (d.rowParts rd)).flatMap (fun q =>
    (List.range (ceilDiv q.1.2 4096)).map (fun k => (m, q.2.1 + 4096 * k, q.1.1 + 4096 * k, min 4096 (q.1.2 - 4096 * k))))

/-- The choices placed on member `j`. -/
def Exch.placedOn (e : Exch) (j : Nat) : List ((Nat × Nat) × Nat) :=
  e.disp.place.filterMap (fun p => if p.2.1 = (j : Int) then some (p.1, p.2.2.toNat) else none)

/-- Rows of choices placed on member `j`, as DISPATCH and REDISPATCH send them (R321, R322). -/
def Exch.rowsTo (e : Exch) (a d : Tensor) (j : Nat) : List (Nat × Nat × Nat × Nat) :=
  (e.placedOn j).flatMap (fun p =>
    rowMoves (e.group.getD j 0) a (if e.d.dir = 1 then p.1.1 else p.1.1 * e.d.topk + p.1.2) d p.2)

/-- What the count phase tells member `j` (R322; log 35): for DISPATCH the rows placed and pending by expert, for REDISPATCH the rows
that come, for COMBINE the rows that are asked for with the places that they return to. -/
def Exch.counts (e : Exch) (j : Nat) : List (Nat × Nat × Nat) :=
  let g := e.group.length
  match e.d.dir with
  | 1 => ((expertsOf e.x g j).filter (fun k => exchTarget e.x g k e.me = j)).map (fun k =>
      (k, (assoc e.disp.placed k).getD 0, ((assoc e.disp.pending k).getD []).length))
  | 2 => (e.placedOn j).map (fun p => (p.2, p.1.1 * e.d.topk + p.1.2, 0))
  | _ => [(0, (e.placedOn j).length, 0)]

/-- Every member that routes here has been heard, and none has been answered yet. -/
def Exch.mayAnswer (e : Exch) : Bool := !e.answered && e.sources.all (fun i => (assoc e.heard i).isSome)

/-- What member `i` has told of expert `k`: rows placed, rows pending. -/
def Exch.told (e : Exch) (i k : Nat) : Nat × Nat :=
  match ((assoc e.heard i).getD []).find? (fun c => c.1 = k) with | some c => c.2 | none => (0, 0)

/-- Pool rows of each expert held here, granted by ascending member index (R322): expert, and per source its rows and offset. -/
def Exch.grants (e : Exch) : List (Nat × List (Nat × Nat × Nat)) :=
  (expertsOf e.x e.group.length e.me).map (fun k =>
    (k, poolGrants e.d.ocap ((exchSources e.x e.group.length k e.me).map (fun i => (i, (e.told i k).2)))))

/-- The answers to the sources, by member, and the rows that are to come (R322, R324). -/
def Exch.answers (e : Exch) : List (Nat × List (Nat × Nat × Nat)) × Nat :=
  let gs := e.grants
  if e.d.dir = 1 then
    (e.sources.map (fun i => (i, gs.filterMap (fun g => (g.2.find? (fun q => q.1 = i)).map (fun q => (g.1, q.2.1, q.2.2))))),
      sumNat (gs.map (fun g => sumNat (g.2.map (fun q => (e.told q.1 g.1).1 + q.2.1)))))
  else (e.sources.map (fun i => (i, [])), sumNat (e.sources.map (fun i => (e.told i 0).1)))

/-- What COMBINE returns to the sources: row `row` of OPA to the place that the source named. -/
def Exch.returns (e : Exch) (a d : Tensor) : List (Nat × Nat × Nat × Nat) :=
  e.sources.flatMap (fun i => ((assoc e.heard i).getD []).flatMap (fun c => rowMoves (e.group.getD i 0) a c.1 d c.2.1))

/-- The answers go out. -/
def State.answerExch (s : State) (x : Site) (a d : Tensor) (e : Exch) : State × Exch :=
  if !e.mayAnswer then (s, e)
  else if e.d.dir = 2 then (s, { e with answered := true, queue := e.queue ++ e.returns a d })
  else
    let r := e.answers
    (r.1.foldl (fun s q => s.groupSend x.l x.key.ctx (e.group.getD q.1 s.me) (.count e.desc e.occ 1 q.2)) s,
      { e with answered := true, announced := r.2 * d.fullRow })

/-- A COUNT of member `i`: what it tells, or its grants (R322). -/
def Exch.hear (e : Exch) (a d : Tensor) (i phase : Nat) (cs : List (Nat × Nat × Nat)) : Exch :=
  if phase = 0 then (if (assoc e.heard i).isSome then e else { e with heard := e.heard ++ [(i, cs)] })
  else if e.granted.contains i then e
  else
    let g := e.group.length
    let new := if e.d.dir = 1 then
        cs.flatMap (fun c => grantPending e.d e.x g c.1 i c.2.1 c.2.2 ((assoc e.disp.pending c.1).getD []))
      else []
    let e := { e with granted := i :: e.granted, disp := { e.disp with place := e.disp.place ++ new } }
    { e with queue := e.queue ++ e.rowsTo a d i }

/-- A signed word of 32 bits. -/
def i32Bytes (v : Int) : List Byte := leBytes 4 (v % 2 ^ 32).toNat

/-- Writes of the placement tensor (R322). -/
def Exch.placeWrites (e : Exch) (pl : Tensor) : List (Nat × List Byte) :=
  e.disp.place.flatMap (fun p => [(pl.addr p.1.1 (2 * p.1.2), i32Bytes p.2.1), (pl.addr p.1.1 (2 * p.1.2 + 1), i32Bytes p.2.2)])

/-- The statistics: rows placed, rows in pools, rows dropped, and invalid choices (R322). -/
def Exch.stat (e : Exch) (r c : Nat) : Nat :=
  let pend := (assoc e.disp.pending r).getD []
  let got := (pend.filter (fun q => match assoc e.disp.place q with | some p => decide (0 ≤ p.1) | none => false)).length
  if r = e.x then (if c = 2 then e.disp.invalid else 0)
  else if c = 0 then (assoc e.disp.placed r).getD 0
  else if c = 1 then got
  else if c = 2 then pend.length - got
  else 0

/-- PLACE and STATS of a DISPATCH are written once every replica has answered (R322, R324). -/
def State.writePlaces (s : State) (x : Site) (e : Exch) : State × Exch :=
  match x.ten e.d.place, x.ten e.d.stats with
  | some pl, some st =>
    if e.wrote ∨ !(e.targets.all e.granted.contains) ∨ writesWait s.pages (tensorAccesses [] [pl, st]) then (s, e)
    else
      let w := writeTensor st 0 (fun _ _ => .rne) (fun r c => .fin false (e.stat r c) 0)
      ((s.store (e.placeWrites pl)).put w, { e with wrote := true })
  | _, _ => (s, e)

/-- Rows sent while the cluster has free tags; answers what is left. -/
def State.sendRows (s : State) (x : Site) : List (Nat × Nat × Nat × Nat) → State × List (Nat × Nat × Nat × Nat)
  | [] => (s, [])
  | q :: qs =>
    match s.request x.l (some x.f.idx) q.1 x.key.ctx (.write q.2.1 (Cells.read s.mem q.2.2.1 q.2.2.2)) with
    | some s =>
      State.sendRows (s.updDrl x.l (fun d => d.setFlight x.f.idx (fun f => { f with sent := f.sent + q.2.2.2 }))) x qs
    | none => (s, q :: qs)

/-- Nothing is left but the acknowledges of the rows sent (R324). -/
def Exch.settled (e : Exch) : Bool :=
  e.answered && e.targets.all e.granted.contains && e.wrote && e.queue.isEmpty && decide (e.announced ≤ e.arrived)

/-- An exchange goes on after what has come. -/
def State.settleExch (s : State) (x : Site) (a d : Tensor) (e : Exch) : State :=
  let p : State × Exch := s.answerExch x a d e
  let q : State × Exch := p.1.writePlaces x p.2
  let r := q.1.sendRows x q.2.queue
  let e : Exch := { q.2 with queue := r.2 }
  r.1.setWork x (if e.settled then .requests else .exch e)

/-- An integer value; 0 for any other. -/
def Val.toInt : Val → Int
  | .fin s m e => let v := shiftInt (Int.ofNat m) e; if s then -v else v
  | _ => 0

/-- Rows of a routing or placement tensor that this module dispatches (R318). -/
def dispatchedRows (s me : Nat) (t : Tensor) : List Nat :=
  (List.range t.lrows).filter (fun r => (t.index r 0 / max 1 t.fullCols) % max 1 s = me)

/-- The exchange as it starts on this member: DISPATCH decides its choices, the other directions read the placement (R322, R323). -/
def State.exchOf (s : State) (x : Site) (d : ExchDesc) (p : ShardPlan) (pl o : Tensor) : Exch :=
  let k := (p.indexOf s.me).getD 0
  let g := p.expertPlace k
  let n := match p.layer d.layer with | some r => r.full | none => 1
  let rows := dispatchedRows p.s (p.pos k).2.1 pl
  let at' (t : Option Tensor) (r c : Nat) : Int := match t with | some t => (t.value s.mv r c).toInt | none => -1
  let disp : Dispatch :=
    if d.dir = 1 then dispatchRows d n g.1.length g.2 rows (at' (x.ten d.route))
    else
      { place := rows.flatMap (fun t => (List.range d.topk).map (fun k => ((t, k), (at' (some pl) t (2 * k), at' (some pl) t (2 * k + 1)))))
        pending := [], placed := [], invalid := 0 }
  let e : Exch :=
    { desc := x.e.aux, occ := (s.cluster x.l).drl.occ x.e.aux, d, x := n, me := g.2,
      group := g.1.map (fun i => p.modules.getD i s.me), disp, heard := [], answered := false, granted := [], announced := 0,
      arrived := 0, queue := [], into := o.ranges, wrote := d.dir != 1 }
  if d.dir = 2 then
    { e with granted := e.targets, announced := (disp.place.filter (fun q => 0 ≤ q.2.1)).length * o.fullRow }
  else e

/-- Rows that no token fills are written as +0 (R320), and COMBINE's rows of dropped and invalid choices (R323). -/
def State.zeroRows (s : State) (e : Exch) (d : Tensor) : State :=
  let zero : Val := .fin false 0 0
  if e.d.dir = 2 then
    e.disp.place.foldl (fun (s : State) p =>
      if p.2.1 < 0 then
        s.put (writeRow d (d.scaleOf s.mem) (p.1.1 * e.d.topk + p.1.2) (List.replicate d.cols (some (.rne, zero))))
      else s) s
  else s.put (writeTensor d (d.scaleOf s.mem) (fun _ _ => .rne) (fun _ _ => zero))

/-- The exchange in progress on a cluster for an occurrence. -/
def State.exchAt (s : State) (l desc occ : Nat) : Option (Site × Exch) :=
  (s.cluster l).drl.flights.findSome? (fun f =>
    match f.work with
    | .exch e => if e.desc = desc ∧ e.occ = occ then (s.site l f.idx).map (fun x => (x, e)) else none
    | _ => none)

/-- A COUNT of module `src` reaches the exchange in progress. -/
def State.stepExch (s : State) (l desc occ src phase : Nat) (cs : List (Nat × Nat × Nat)) : Option State :=
  match s.exchAt l desc occ with
  | none => none
  | some (x, e) =>
    match x.opa, x.opd, e.group.findIdx? (· = src) with
    | some a, some d, some i => some (s.settleExch x a d (e.hear a d i phase cs))
    | _, _, _ => some s

/-- An EXCHANGE starts on this member (R322, R324). -/
def State.startExch (s : State) (x : Site) (d : ExchDesc) (p : ShardPlan) (pl a o : Tensor) : State :=
  let e := s.exchOf x d p pl o
  let s := s.zeroRows e o
  let s := s.updDrl x.l (fun q => q.bumpOcc x.e.aux)
  let s := s.count x.l [(ctExchanges, 1)]
  let s := e.targets.foldl (fun s j => s.groupSend x.l x.key.ctx (e.group.getD j s.me) (.count e.desc e.occ 0 (e.counts j))) s
  let s := s.settleExch x a o e
  let q := s.takeEarly x.l x.e.aux e.occ
  q.2.foldl (fun (s : State) m =>
    match m.body with
    | .count _ _ phase cs => (s.stepExch x.l x.e.aux e.occ m.src phase cs).getD s
    | _ => s) q.1

def State.runExch (s : State) (x : Site) (ev : Ev) : State :=
  match x.job.exchs[x.e.aux]?, x.job.shard, x.opa, x.opd with
  | some d, some p, some a, some o =>
    (match x.ten d.place with
    | some pl =>
      let route := (x.ten d.route).toList
      let stats := (x.ten d.stats).toList
      s.guard x ev (if d.dir = 1 then tensorAccesses (a :: route) (o :: pl :: stats) else tensorAccesses [a, pl] [o])
        (fun s => s.startExch x d p pl a o)
    | none => s)
  | _, _, _, _ => s

/-- EXCHANGE (R322): started, or gone on with as tags come free. -/
def execExchange (l idx : Nat) (ev : Ev) (s : State) : Out :=
  onCluster l (.next (match s.site l idx with
    | some x =>
      if x.e.op ≠ .exchange then s
      else
        (match x.f.work, x.opa, x.opd with
        | .todo, _, _ => s.runExch x ev
        | .exch e, some a, some d => s.settleExch x a d e
        | _, _, _ => s)
    | none => s))

/-- COUNT (R322). -/
def execCount (rx : Rx) (desc occ phase : Nat) (counts : List (Nat × Nat × Nat)) (s : State) : Out :=
  let b : Body := .count desc occ phase counts
  s.arrive rx b (fun s => s.groupTake rx .exchange desc occ b (fun s l => s.stepExch l desc occ rx.src phase counts))

end Sys2Proof.Machine
end

