-- ==== Sys2Proof/Machine/Parameters.lean ====
section
/-!
DEFINITION. The parameter plan's entries and background reads: OPTIMISE (R264 to R269, R566), DIGEST (R270), the working-copy checker
(R263) and the difference stream (R284, R285).
-/

namespace Sys2Proof.Machine

/-- Lane strokes and beats of data elements counted for the Chainline (R526, R566). -/
def State.countBeats (s : State) (l blocks beats strokes : Nat) : State :=
  s.count l [(ctBlocks, blocks), (ctBeats, beats), (77, strokes * beats)]

/-! ## OPTIMISE -/

/-- Lane strokes of a beat of the update (R566). -/
def OptLayer.strokes (o : OptLayer) (lsEn : Bool) : Nat :=
  4 + b2n lsEn + 2 * b2n o.m1En + 2 * b2n o.wdEn + (if o.mode = 4 then 14 else 0)

/-- What an OPTIMISE works with: its layer, its tensors, its slots, the loss scale and the hyperparameters read at issue. -/
structure OptSite where
  x : Site
  o : OptLayer
  grad : Tensor
  mc : Tensor
  mu : Tensor
  m1 : Option (Tensor × Tensor)
  m2 : Option (Tensor × Tensor)
  scr : Option Tensor
  left : Option Slot
  right : Option Slot
  lsEn : Bool
  lsExp : Int
  h : Hyper
  deriving DecidableEq, Repr

def State.optSite (s : State) (x : Site) : Option OptSite :=
  match x.job.opts[x.e.aux]? with
  | none => none
  | some o =>
    let two (a b : Nat) : Option (Tensor × Tensor) := match x.ten a, x.ten b with | some p, some q => some (p, q) | _, _ => none
    let slot (i : Nat) : Option Slot := if i = noIdx then none else x.job.slots[i]?
    match x.ten o.grad, x.ten o.masterC, x.ten o.masterU, x.job.param, s.hub.srec x.job.ctx x.job.handle with
    | some g, some c, some u, some p, some r =>
      some ⟨x, o, g, c, u, two o.m1C o.m1U, two o.m2C o.m2U, x.ten o.scr, slot o.lslot, slot o.rslot, p.lsEn, r.lsExp,
        Hyper.read (Cells.write [] 0 x.f.hyper) 0⟩
    | _, _, _, _, _ => none

/-- The application copies are in H16 (R225). -/
def OptSite.h16 (q : OptSite) : Bool := (q.left.toList ++ q.right.toList).any (fun t => t.applyFmt == 4)

/-- The gradient with the loss scale removed, times CLIP; padding is +0 (R267). -/
def OptSite.g (q : OptSite) (m : Mv) : Mat :=
  Mat.make q.grad.rows q.grad.cols (fun r c => Fp.val (if r < q.grad.lrows ∧ c < q.grad.lcols then
    optGrad q.h q.lsEn q.lsExp (q.grad.f32At m r c) else 0))

/-- The preconditioned gradient with what SCR holds afterwards and the tiles' verdicts; none for MODE 4 and 5. -/
def OptSite.pre (q : OptSite) (m : Mv) (cells : List CellFault) : Option (Mat × Mat × List TileMul) :=
  if q.o.mode ≤ 3 then
    some (precondition q.h16 (q.left.map (applyBlocks m.cells)) (q.right.map (applyBlocks m.cells)) (q.g m) (fld q.x.f.til 4 0) cells)
  else none

/-- The update of the data element in row `r`, column `c` (R267). -/
def OptSite.elem (q : OptSite) (m : Mv) (pre : Option Mat) (r c : Nat) : OptOut :=
  let f (t : Option (Tensor × Tensor)) : F32 := match t with | some t => t.1.f32At m r c | none => 0
  optElem q.o q.h q.lsEn q.lsExp
    { grad := q.grad.f32At m r c, pre := pre.map (fun p => toF32 (p.get r c)), m1 := f q.m1, m2 := f q.m2, master := q.mc.value m r c }

/-- Writes of the U tensors and of SCR; no conversion counts are kept (R267). -/
def OptSite.writes (q : OptSite) (m : Mv) (pre : Option Mat) (scr : Option Mat) : List Written :=
  let els : List (List OptOut) := (List.range q.mu.lrows).map (fun r => (List.range q.mu.lcols).map (fun c => q.elem m pre r c))
  let at' (f : OptOut → Val) (r c : Nat) : Val := match (els.getD r [])[c]? with | some o => f o | none => .fin false 0 0
  let put (t : Tensor) (f : Nat → Nat → Val) : Written := writeTensor t 0 (fun _ _ => .rne) f
  put q.mu (at' (fun o => Fmt.decode .mw40 o.master))
    :: ((match q.m1 with | some t => [put t.2 (at' (fun o => Fp.val o.m1))] | none => [])
      ++ (match q.m2 with | some t => [put t.2 (at' (fun o => Fp.val o.m2))] | none => [])
      ++ (match q.scr, scr with | some t, some v => [put t v.get] | _, _ => []))

/-- Topiary strokes of a layer's products with F32 application copies: those of a product of blocks (R254), for each side that the layer
has (R566). -/
def OptSite.topStrokes (q : OptSite) : Nat :=
  (match q.left with | some t => ceilDiv (q.grad.rows * t.block * q.grad.cols) 1024 | none => 0)
    + (match q.right with | some t => ceilDiv (q.grad.rows * q.grad.cols * t.block) 1024 | none => 0)

/-- Counts of the products of the application copies: H16 on their tiles, each block's with its own reduction length (R526, R566), F32 in
Topiary. -/
def State.countProducts (s : State) (q : OptSite) (ps : List TileMul) : State :=
  if q.h16 then s.countTiles q.x (ps.map (fun p => (p.ts, p.a.cols))) (strokesPerRow .h16) true
  else s.count q.x.l [(ctTopFore, q.topStrokes)]

/-- The update itself, once the products have passed their checks (R267). -/
def State.optOut (s : State) (q : OptSite) (m : Mv) (p : Option (Mat × Mat × List TileMul)) : State :=
  let s := (q.writes m (p.map (fun r => r.1)) (p.map (fun r => r.2.1))).foldl (fun (s : State) w => s.put w) s
  let n := blocksOf q.mu.rows q.mu.cols
  let s := s.countBeats q.x.l n (ceilDiv (q.mu.lrows * q.mu.lcols) 1024) (q.o.strokes q.lsEn)
  (s.trace q.x.l q.x.f q.x.e.op (s.stepOf q.x.key) 4 3 0 (BitVec.ofNat 64 n)).workDone q.x

/-- The update of a layer (R267, R268). Its H16 products pass through the arrays and the Pannier as an MM's do (R165, R177, R178): an
output tile that finds no slot waits, and one that fails its retry is the entry's fault (R174). -/
def State.optBody (s : State) (q : OptSite) (ev : Ev) : State :=
  let m := s.mv
  let cells := q.x.f.work.cells ev.cells
  let p := q.pre m cells
  let ps : List TileMul := match p with | some r => r.2.2 | none => []
  let ts := ps.flatMap (·.ts)
  match q.x.passPannier false ts (s.cluster q.x.l).pan with
  | none => s
  | some pan =>
    let s := s.updCluster q.x.l (fun c => { c with
      pan := pan, til := ps.foldl (fun t p => t.load (otileOwner q.x.e.mask) p.st p.ts) c.til })
    if q.x.retries ts then s.awaitRetry q.x cells ts
    else
      let s := (s.countProducts q ps).chargeOtiles q.x ts
      if ts.any (fun t => t.verdict = .fail) then s.tileFault q.x ts else s.optOut q m p

/-- The accesses of an OPTIMISE, its hyperparameter record among them (R266, R367, R388). -/
def OptSite.accesses (q : OptSite) (m : Cells) : List Access :=
  let slots := (q.left.toList ++ q.right.toList).flatMap (fun t =>
    ⟨t.state, t.stateBytes, false⟩ :: (List.range t.nblk).map (fun b => (⟨t.applyAt (t.sel m b) b, t.blockApply, false⟩ : Access)))
  ⟨q.o.hyper, 32, false⟩ :: slots ++ tensorAccesses ([q.grad, q.mc] ++ (q.m1.toList.map (·.1)) ++ (q.m2.toList.map (·.1)))
    ([q.mu] ++ (q.m1.toList.map (·.2)) ++ (q.m2.toList.map (·.2)) ++ q.scr.toList)

/-- OPTIMISE (R267). -/
def execOptimise (l idx : Nat) (ev : Ev) (s : State) : Out :=
  onCluster l (.next (match s.todo l idx .optimise with
    | some x => (match s.optSite x with | some q => s.guard x ev (q.accesses s.mem) (fun s => s.optBody q ev) | none => s)
    | none => s))

/-! ## DIGEST -/

/-- U tensors of a layer (R270). -/
def Site.uncommitted (x : Site) : List Tensor :=
  match x.job.opts[x.e.aux]? with
  | some o => o.pairs.filterMap (fun p => x.ten p.2)
  | none => []

/-- Lane strokes of a digest: 2 and the chunk's words for each 1,024 chunks (R566). -/
def digestStrokes (t : Tensor) : Nat × Nat :=
  (ceilDiv (t.lrows * ceilDiv t.lcols 8) 1024, 2 + t.fmt.bits / 8)

/-- The step sum raised by the layer's chunk hashes (R270). -/
def State.digestBody (s : State) (x : Site) (ts : List Tensor) : State :=
  let sum : Word := ts.foldl (fun acc t => acc + digestTensor s.mem t) 0
  let s := s.updDrl x.l (fun d => { d with digest := d.digest + sum })
  let s := ts.foldl (fun (s : State) t =>
    let q := digestStrokes t
    s.countBeats x.l (blocksOf t.rows t.cols) q.1 q.2) s
  s.workDone x

/-- DIGEST (R270). -/
def execDigest (l idx : Nat) (ev : Ev) (s : State) : Out :=
  onCluster l (.next (match s.todo l idx .digest with
    | some x => s.guard x ev (tensorAccesses x.uncommitted []) (fun s => s.digestBody x x.uncommitted)
    | none => s))

/-! ## The working-copy checker (R263) -/

/-- The COPY entry that has written a working copy in this step: C master and working copy. -/
def State.workingCopy (s : State) (l idx : Nat) : Option (Job × Tensor × Tensor) :=
  match s.deck l with
  | none => none
  | some k =>
    match k.entry idx with
    | none => none
    | some e =>
      if e.op ≠ .copy ∨ !(k.d.copied.contains idx) ∨ !(k.job.opts.any (fun o => o.masterC = e.opa)) then none
      else
        match k.job.tensor? e.opa, k.job.tensor? e.opd with
        | some c, some w => some (k.job, c, w)
        | _, _ => none

/-- The code that the working copy should hold: the committed master rounded once (R54, R75, R262). -/
def workingCode (m : Mv) (c w : Tensor) (row col : Nat) : Nat :=
  let v := c.value m row col
  (convElem w.fmt .rne (if w.fmt.scaled then v.scale (-(w.scaleOf m.cells)) else v)).code

/-- The fetch engine is idle: none of its entries is in flight. -/
def State.fetchIdle (s : State) (l : Nat) : Bool :=
  match s.deck l with | some k => k.onUnit Opcode.onFetch == 0 | none => false

/-- A mismatch: counted in OPT_STATUS and in the step record, flagged in the cluster's vote, and charged (R263, R497). -/
def State.wcMismatch (s : State) (l : Nat) (j : Job) : State :=
  let s : State := { s with hub := { s.hub with wcMis := satAdd 32 s.hub.wcMis 1 } }
  let s := s.updRec j (fun r => { r with wcMis := satAdd 32 r.wcMis 1 })
  (s.updDrl l (fun d => { d with mismatch := true })).chargeCluster l 0x04

/-- One sample. `seen` is the code that the checker reads where it differs from what memory holds (log 8). -/
def State.checkCopy (s : State) (l idx row col : Nat) (seen : Option Nat) : State :=
  match s.workingCopy l idx with
  | none => s
  | some (j, c, w) =>
    if fld s.hub.optCfg 2 0 = 0 ∨ !(s.fetchIdle l) ∨ w.lrows ≤ row ∨ w.lcols ≤ col then s
    else
      let s := s.count l [(ctChecker, 1)]
      if seen.getD (w.codeAt s.mem row col) = workingCode s.mv c w row col then s else s.wcMismatch l j

/-- WC_CHECK (R263). -/
def execWcCheck (l idx row col : Nat) (seen : Option Nat) (s : State) : Out := onCluster l (.next (s.checkCopy l idx row col seen))

/-! ## The difference stream (R284) -/

/-- A stream that begins to overwrite the log slot of COPPICE_STEP ends PREV_VALID, here and in the region's header (R282, R285; log 17). -/
def State.endPrev (s : State) (j : Job) (p : ParamPlan) (step : Nat) : State :=
  match s.hub.srec j.ctx j.handle with
  | some r =>
    if r.overwrites step then
      (s.updRec j (fun r => { r with prevValid := false })).hubRequest p.copModule j.ctx (.stream j.ctx j.handle)
        (.write p.copBase (leBytes 8 (mkFld 63 52 s.me).toNat))
    else s
  | none => s

/-- A record written to the log slot of its step at the partner. -/
def State.logWrite (s : State) (j : Job) (p : ParamPlan) (l step : Nat) (bs : List Byte) : State :=
  let s := s.endPrev j p step
  let pos := (assoc s.hub.logPos (j.ctx, j.handle)).getD 0
  let s : State := { s with hub := { s.hub with logPos := assocSet s.hub.logPos (j.ctx, j.handle) (pos + bs.length) } }
  (chunks 4096 bs).zipIdx.foldl (fun (s : State) c =>
    (s.count l [(ctMsgSent, 1), (ctBytesSent, c.1.length)]).hubRequest p.copModule j.ctx (.stream j.ctx j.handle)
      (.write (p.copBase + j.logOff step + pos + 4096 * c.2) c.1)) s

/-- The stream of a cluster changed, or ended. -/
def State.setStream (s : State) (x : DStream) (y : Option DStream) : State :=
  { s with hub := { s.hub with streams := s.hub.streams.flatMap (fun q => if q = x then y.toList else [q]) } }

/-- A word of a pair that the stream cannot read aborts the cluster's task and loses the Coppice (log 33). -/
def State.streamFault (s : State) (x : DStream) (f : FaultKind × Nat) : State :=
  let s := s.loseCoppice
  match (s.cluster x.cluster).drl.holder with
  | some k => if k.ctx = x.ctx ∧ k.job = x.job then s.backgroundFault k x.cluster f else s
  | none => s

/-- One pair read and its differences sent. -/
def State.streamPair (s : State) (x : DStream) (j : Job) (p : ParamPlan) (c u : Tensor) (sec : Nat) : State :=
  let s := s.countFetch x.cluster (2 * c.storage) 0 0
  let s := (pairRecords s.mem c u x.cluster sec).foldl (fun (s : State) r => s.logWrite j p x.cluster x.step r) s
  s.setStream x (some { x with pairs := x.pairs.drop 1 })

/-- The next pair of a cluster's stream, or its step-end record. -/
def State.streamNext (s : State) (x : DStream) (ev : Ev) : State :=
  match s.job x.ctx x.job, (s.job x.ctx x.job).bind (fun j => j.param) with
  | some j, some p =>
    (match x.pairs with
    | [] => (s.logWrite j p x.cluster x.step (stepEndRecord x.cluster x.step x.dc)).setStream x none
    | (c, u, sec) :: _ =>
      (match j.tensor? c, j.tensor? u with
      | some tc, some tu =>
        (match firstFault s.pages s.poison ev.bad (some x.cluster) (tensorAccesses [tc, tu] []) with
        | some f => s.streamFault x f
        | none => s.streamPair x j p tc tu sec)
      | _, _ => s))
  | _, _ => s

/-- DIFFERENCE_STREAM_READ (R269, R284). -/
def execDifferenceStreamRead (l : Nat) (ev : Ev) (s : State) : Out :=
  onCluster l (.next (match s.hub.streams.find? (fun x => x.cluster = l) with
    | some x => s.streamNext x ev
    | none => s))

end Sys2Proof.Machine
end

