-- ==== Sys2Proof/Machine/Expiries.lean ====
section
/-!
DEFINITION. Windows that expire (R99, R508): the entry Odometer (R151), the task's deadline (R133, R135, R250, R349), the collective
window (R420), and the resend of a signal (R131).
-/

namespace Sys2Proof.Machine

/-! ## The entry window -/

/-- The oldest entry of the window that is not complete (R151), with the engine that has it: an issued one's own, the Derailleur for
one that still waits. -/
def State.oldest (s : State) (l : Nat) : Option (Nat × Nat) :=
  match s.deck l with
  | none => none
  | some k =>
    let is := k.d.flights.map (fun f => f.idx)
    match is with
    | [] => if k.d.head < k.entries.length then some (k.d.head, 6) else none
    | i :: rest =>
      let j := rest.foldl min i
      if k.d.head < j then some (k.d.head, 6)
      else some (j, match k.entry j with | some e => e.op.engine | none => 6)

/-- The entry window of a running cluster passes: the ladder begins at its first rung, and the task aborts (R151, R509). -/
def State.entryExpired (s : State) (l : Nat) : State :=
  match (s.cluster l).drl.holder, s.oldest l with
  | some k, some (i, engine) =>
    if (s.cluster l).drl.st ≠ .running then s
    else ((s.climb 1 l engine 0).abortTask k statusEntryTimeout).updCluster l (fun c => c.overtake .entry [some i])
  | _, _ => s

/-- ENTRY_TIMEOUT (R151). -/
def execEntryTimeout (l : Nat) (s : State) : Out := onCluster l (.next (s.entryExpired l))

/-! ## The deadline -/

/-- The block in progress takes STATUS.ABANDONED; its SEL and its resident factor stay (R250). -/
def State.abandonBlock (s : State) (l : Nat) (t : Slot) (b : Nat) : State :=
  (s.store [t.setWord (8 + 2 * b) (setFld (t.blockWord s.mem b) 63 48 codeAbandoned)]).blockCode l codeAbandoned 0

/-- A package's FACTOR cut off after `n` blocks (R250). -/
def State.cutFactor (s : State) (q : TopSite) (n : Nat) : State :=
  match q.ten q.t.tenA with
  | none => s
  | some a =>
    let bs := factorList s.mv q.s (q.ten q.t.tenB)
    let s := (bs.take n).foldl (fun s b => (s.factorOne q.x.l q.x.job q.t.slot b (matrixBlock s.mem q.s a b)).1) s
    match bs[n]? with
    | some b => s.abandonBlock q.x.l q.s b
    | none => s

/-- A package's SOLVE cut off after `n` blocks: the rows of the others keep their contents (R250). -/
def State.cutSolve (s : State) (q : TopSite) (n : Nat) : State :=
  match q.ten q.t.tenA, q.ten q.t.tenB with
  | some a, some d =>
    let sols := (List.range (min n q.s.nblk)).map (solveBlock s.mv q.x.job q a)
    let at' (r c : Nat) : F32 := vAt (((sols.getD (r / q.s.block) []).getD c [])) (r % q.s.block)
    let s := (List.range (min (sols.length * q.s.block) d.rows)).foldl (fun (s : State) r =>
      s.put (writeRow d 0 r ((List.range d.cols).map (fun c =>
        if r < d.lrows ∧ c < d.lcols then some (.rne, Fp.val (at' r c)) else none)))) s
    if n < q.s.nblk then s.abandonBlock q.x.l q.s n else s
  | _, _ => s

/-- A problem that a FACTOR cut off has not reached (R349, R358). -/
def SolProb.abandon (p : SolProb) : SolProb := { p with fabn := true }

/-- A generated FACTOR of the cluster's problems cut off after `n` of them (R349, R359). -/
def State.cutProbs (s : State) (x : Site) (p : SolPlan) (k n : Nat) : State :=
  match p.cls k with
  | none => s
  | some c =>
    let js := p.onCluster k x.l
    let s := (js.take n).foldl (fun s j => s.factorProb x c (p.first k + j) (c.blk j)) s
    let s := (js.drop n).foldl (fun (s : State) j => s.updProb (c.blk j) (p.first k + j) SolProb.abandon) s
    match (js.drop n).head? with
    | some j =>
      let b := c.blk j
      let s := s.updSol (fun q => { q with factAbandoned := q.factAbandoned + 1 })
      (match x.job.slots[b.slot]? with | some t => s.abandonBlock x.l t b.blockNo | none => s)
    | none => s

/-- A generated FACTOR of a large problem's part cut off before its block. -/
def State.cutPart (s : State) (x : Site) (p : SolPlan) (g : Nat) : State :=
  match p.larges[g]?, (p.larges[g]?).bind (fun q => q.partOn x.l) with
  | some q, some b =>
    let s := (s.updLarge q g SolProb.abandon).updSol (fun q => { q with factAbandoned := q.factAbandoned + 1 })
    (match x.job.slots[b.slot]? with | some t => s.abandonBlock x.l t b.blockNo | none => s)
  | _, _ => s

/-- An entry with ABANDON set is cut off after `n` blocks, and completes at once (R135). -/
def State.cutEntry (s : State) (x : Site) (n : Nat) : State :=
  let s := match x.solOp, x.job.sol with
    | some (.factor k), some p => s.cutProbs x p k n
    | some (.factorL g), some p => if n = 0 then s.cutPart x p g else s.solWork x p (.factorL g)
    | some _, _ => s
    | none, _ =>
      (match x.top .factor, x.top .solve with
      | some q, _ => s.cutFactor q n
      | none, some q => s.cutSolve q n
      | none, none => s)
  s.topDone x

/-- An entry with ABANDON set that waits behind another is abandoned with no block in progress. -/
def State.cutWaiting (s : State) (x : Site) : State :=
  let s := match x.solOp, x.job.sol with
    | some (.factor k), some p =>
      (match p.cls k with
      | some c => (p.onCluster k x.l).foldl (fun (s : State) j => s.updProb (c.blk j) (p.first k + j) SolProb.abandon) s
      | none => s)
    | some (.factorL g), some p => (match p.larges[g]? with | some q => s.updLarge q g SolProb.abandon | none => s)
    | _, _ => s
  s.topDone x

/-- The TOPIARY entries of a cluster that a deadline abandons: in flight, ABANDON set, their work not done. -/
def State.abandonable (s : State) (l : Nat) : List Site :=
  ((s.cluster l).drl.flights.filterMap (fun f => s.site l f.idx)).filter (fun x =>
    x.e.op == .topiary && bit x.e.w2 0 && x.f.work == .todo)

/-- A cluster at the deadline: its running entry has finished `n` blocks, one that waits behind it none. What their units complete
afterwards is late (R99). -/
def State.cutCluster (s : State) (l n : Nat) : State :=
  match s.abandonable l with
  | [] => s
  | x :: rest =>
    let s := s.updCluster l (fun c => c.overtake .deadline ((x :: rest).map (fun y => some y.f.idx)))
    let s := s.cutEntry x n
    rest.foldl State.cutWaiting s

/-- The deadline of a task is marked as expired for every cluster on the module (R133, R135). `blocks` gives, by cluster, the blocks that
an abandoned entry had finished (log 8). -/
def State.deadline (s : State) (k : TaskKey) (blocks : List (Nat × Nat)) : State :=
  match s.hub.task k with
  | none => s
  | some t =>
    if !t.dlOn ∨ t.st = .idle ∨ t.expired then s
    else
      let s := s.updTask k (fun t => { t with expired := true })
      ((List.range 128).filter (fun l => (s.cluster l).drl.holder = some k)).foldl (fun s l =>
        s.cutCluster l ((assoc blocks l).getD 0)) s

/-- DEADLINE_EXPIRY (R133, R135). -/
def execDeadlineExpiry (key : TaskKey) (blocks : List (Nat × Nat)) (s : State) : Out := .next (s.deadline key blocks)

/-! ## The collective window (R420) -/

/-- A cluster of the task waits for a collective, an exchange or a step outcome. -/
def State.groupWaits (s : State) (k : TaskKey) (l : Nat) : Bool :=
  match (if (s.cluster l).drl.holder = some k then s.deck l else none) with
  | none => false
  | some q =>
    q.d.st == .stepWait || q.d.flights.any (fun f =>
      f.work != .done && (match q.entry f.idx with | some e => e.op == .collective || e.op == .exchange | none => false))

/-- The first collective or exchange of a cluster that its task still waits for. -/
def State.groupEntry (s : State) (k : TaskKey) (l : Nat) : Option Nat :=
  match (if (s.cluster l).drl.holder = some k then s.deck l else none) with
  | none => none
  | some q => (q.d.flights.find? (fun f => f.work != .done && (match q.entry f.idx with
      | some e => e.op == .collective || e.op == .exchange
      | none => false))).map (fun f => f.idx)

/-- The task aborts; what its clusters waited for, a collective, an exchange or the step outcome, is late from now on (R99, R420). -/
def State.collExpired (s : State) (k : TaskKey) : State :=
  let ls := (List.range 128).filter (s.groupWaits k)
  if ls = [] then s
  else
    ls.foldl (fun (a : State) l => a.updCluster l (fun c => c.overtake .coll [s.groupEntry k l])) (s.abortTask k statusCollTimeout)

/-- COLLECTIVE_TIMEOUT (R420). -/
def execCollectiveTimeout (key : TaskKey) (s : State) : Out := .next (s.collExpired key)

/-! ## Resends (R131) -/

/-- A signal that was answered BUSY is sent again. -/
def State.resend (s : State) (l tag : Nat) : State :=
  match (s.cluster l).drl.reqs.find? (fun r => r.tag = tag ∧ r.busy) with
  | none => s
  | some r =>
    let s := s.updDrl l (fun d => { d with reqs := d.reqs.map (fun q => if q.tag = tag then { q with busy := false } else q) })
    (s.count l [(ctMsgSent, 1), (ctBytesSent, r.msg.body.payBytes)]).send r.msg

/-- SIGNAL_RESEND (R131). -/
def execSignalResend (l tag : Nat) (s : State) : Out := onCluster l (.next (s.resend l tag))

end Sys2Proof.Machine
end

