-- ==== Sys2Proof/Machine/Power.lean ====
section
/-!
DEFINITION. The start (R469 to R471, R477, R482 to R487, R543, R546), power and coolant (R544, R547, R555) and the power
governor (R556, R557).
-/

namespace Sys2Proof.Machine

/-! ## The start -/

/-- The configuration image and the pack that a start takes into use (R478); an image that fails leaves the one in use. -/
def Flash.takeConf (f : Flash) : Flash :=
  let sound (kind : Nat) : Option Image :=
    match f.parts[kind - 1]? with
    | some p => if p.valid && (f.verify kind p.read).isNone then some p.image else none
    | none => none
  { f with
    conf := ((sound 4).bind (·.conf)).getD f.conf
    pack := ((sound 3).bind (·.pack)).getD f.pack }

/-- IMG_FAIL as a mask, and the code of the last image refused (R477, R491). -/
def Flash.failMask (f : Flash) : Nat := sumNat (f.failing.map (fun k => 2 ^ k))
def Flash.failCode (f : Flash) : Nat :=
  match f.failing.getLast? with
  | some k => (match f.parts[k]? with | some p => if p.valid then (f.verify (k + 1) p.read).getD 0 else 0 | none => 0)
  | none => 0

/-- Stage 2 (R93, R94, R469): every OSC_COUNT settles, and the measured words hold what the hub measures (R558). -/
def State.calibrated (s : State) (f : StartFind) : State :=
  let pcl := s.start.pcl.zipIdx.map (fun c =>
    { c.1 with osc := f.oscs.getD c.2 0, calTj := f.tjs.getD c.2 0, tj := f.tjs.getD c.2 0, down := 0, therm := false })
  { s with
   pwr := ({ s.pwr with vin := f.vin, iin := f.iin, pavg := f.watts, ppeak := f.watts, flow := f.flow, tin := f.inlet,
                        tout := f.outlet, near := 0, hbm := false, optics := false } : Power).reCap s.start.flash.conf.limits,
   start := { s.start with
    stage := .verify, hubOsc := f.hubOsc, hubTj := f.hubTj, hubCalTj := f.hubTj, pcl, halt := 0, outEdges := [], stopped := [] } }

/-- Stages 3 and 4 (R469, R472 to R477): directory, fuse map and history are read, the images verified; words that read flash take
the values of the configuration image, and NV words what the start took. -/
def State.verified (s : State) : State :=
  let flash := s.start.flash.takeConf
  let r := replayJournal s.hist.journal (if s.start.lc = .manufacture then .manufacture else .deployed)
  let s : State := { s with
    start := { s.start with
      flash, starts := r.starts, lc := r.lc, pcl := s.start.pcl.zipIdx.map (fun c => match r.traces[c.2]? with | some t => c.1.recall t | none => c.1)
      taken := flash.taken s.start.fuseMap (s.hist.journal.flatMap JRec.bytes)
      cfg := flash.conf.tstCfg, shadow := flash.conf.tstCfg, commitErr := false, cmdErr := false, domainReady := false, berChecked := false
      winOn := false, scanDone := false, memDone := false, imgFail := flash.failMask, lastCode := flash.failCode }
    hist := { s.hist with units := r.units, drainCause := r.cause, moved := r.moved, phases := r.phases } }
  s.dropAll.alert

/-- Stage 5 (R87, R469, R477): every rail; in the minimal hub state the optics rails alone. -/
def State.railsUp (s : State) : State :=
  let whole := s.start.imgFail = 0
  { s with
    pwr := { s.pwr with near := if whole then nearRail s.start.flash.conf.limits else 0, hbm := whole, optics := true }
    start := { s.start with
      stage := if whole then .rails else .minimal, pcl := s.start.pcl.map (fun c => { c with railOn := whole }) } }

/-- The reference is missing (R94): no oscillator is calibrated, and the start halts. -/
def State.noReference (s : State) : State :=
  ({ s with start := { s.start with hubOsc := 0, pcl := s.start.pcl.map (fun c => { c with osc := 0 }) } } : State).haltWith haltRef

/-- Stages 2 to 5 with what they find. A start that halts shows nothing of its later stages (R471); one that passes them waits for its
temperature (R484). -/
def State.runStart (s : State) (f : StartFind) : State :=
  if f.refMissing then s.noReference
  else
    let s := s.calibrated f
    if !(oscOk f.hubOsc) then s.haltWith haltOsc
    else if !f.flashOk then s.haltWith haltFlash
    else s.verified.railsUp

/-- SA0 to SA11 and SA_PAR hold an odd number of ones (R545, R546). -/
def strapsOk (straps : Nat) (parity : Bool) : Bool :=
  ((((List.range 12).filter (fun i => straps.testBit i)).length) + b2n parity) % 2 == 1

/-- A start may begin: the module is off or halted; or a module reset waits at stage 2. -/
def State.mayStart (s : State) : Bool := !s.pwr.on || s.start.stage == .halted

/-- START (R469, R543, R546): from a busbar of 48 to 58 V. -/
def execStart (found : StartFind) (s : State) : Out :=
  .next (
    if s.mayStart then
      if found.vin < 48000 ∨ 58000 < found.vin then s
      else
      let s : State := { s with pwr := { s.pwr with on := true, ilk := true }, start := { s.start with quick := false } }
      if strapsOk found.straps found.parity then
        ({ s with hub := { s.hub with module := found.straps % 4096 } } : State).runStart found
      else s.haltWith haltParity
    else if s.start.stage = .calibrate then s.runStart found
    else s)

/-- REFERENCE_MISSING (R94, R96). -/
def execReferenceMissing (s : State) : Out :=
  .next (
    if s.mayStart ∨ s.start.stage = .calibrate then ({ s with pwr := { s.pwr with on := true, ilk := true } } : State).noReference
    else s)

/-- TEMPERATURE_WAIT (R484): the readings of the hub and of the physical clusters. -/
def execTemperatureWait (temps : List Nat) (s : State) : Out :=
  .next (
    if s.start.stage = .rails then
      let s : State := { s with start := { s.start with
        hubTj := temps.getD 0 0, pcl := s.start.pcl.zipIdx.map (fun c => { c.1 with tj := temps.getD (c.2 + 1) 0 }) } }
      if temps.length = 137 ∧ temps.all (fun t => 15 ≤ t ∧ t ≤ 90) then
        ({ s with start := { s.start with stage := .test } } : State).alert
      else s
    else s)

/-- STAGE6_TIMEOUT (R471). -/
def execStage6Timeout (s : State) : Out := .next (if s.start.stage = .rails then s.haltWith haltStage6 else s)

/-- Stages 7 to 9 have all ended: stage 10 is next (R469). -/
def State.testsDone (s : State) : State :=
  if s.start.scanDone && s.start.memDone then ({ s with start := { s.start with stage := .admission } } : State).alert else s

/-- A cluster under scan: itself, the registers that have differed, whether its rail held its points, and whether its spare regulator
phase is in service. -/
structure ScanRun where
  cell : PCl
  bad : List Nat
  held : Bool
  spare : Bool
  deriving DecidableEq, Repr

/-- One pass of stage 7 (R482, R483): the generator starts from the pack's seed, the captures compact into the 13 registers. A spare phase
that brings the rail to its point stays in service (DESIGN CHOICE, log 5). -/
def ScanRun.pass (stepping : Nat) (r : ScanRun) (p : ScanPass) (point : Nat) (f : PassFind) : ScanRun :=
  let held := railHeld point f.rail
  let tried := !held && !r.spare && railHeld point f.spareRail
  { cell := { r.cell with gen := lfsrRun f.shifts p.seed, sigs := (List.range scanRegs).map (wordAt f.sigs) }
    bad := r.bad ++ p.differ stepping f.sigs
    held := r.held && (held || tried)
    spare := r.spare || tried }

/-- Both passes on a cluster: at 0.600 V and at the core supply ceiling. -/
def ScanRun.passes (stepping ceiling : Nat) (set : List ScanPass) (f : ScanFind) (r : ScanRun) : ScanRun :=
  (set.zip [6000, 10 * ceiling]).zipIdx.foldl (fun r x => r.pass stepping x.1.1 x.1.2 (f.passes.getD x.2 ⟨0, [], 0, 0⟩)) r

/-- The verdict of stage 7: tiles whose register differs; the cluster fails by one of its other four registers, by a CAL_FAIL, or by a rail
that does not hold. -/
def ScanRun.verdict (r : ScanRun) : Bool × Nat :=
  (r.bad.any (fun k => 9 ≤ k) || !r.held || !(oscOk r.cell.osc),
    sumNat ((List.range 9).map (fun t => if r.bad.contains t then 2 ^ t else 0)))

/-- SCAN_SELF_TEST (R482, R483), of every physical cluster with the FULL set, or at a module reset with the QUICK set. -/
def execScanSelfTest (scans : List ScanFind) (s : State) : Out :=
  .next (
    if s.start.stage = .test ∧ !s.start.scanDone then
      let f := s.start.flash
      let set := if s.start.quick then f.pack.quick else f.pack.full
      let runs := s.start.pcl.zipIdx.map (fun c =>
        ScanRun.passes f.stepping f.conf.limits.vcoreMax set (scans.getD c.2 ⟨[]⟩) ⟨c.1, [], true, s.hist.phases.contains c.2⟩)
      let pcl := runs.map (fun r =>
        { r.cell with scanFail := r.verdict.1 || (r.cell.scanFail && s.start.memDone)
                      scanTiles := r.verdict.2 ||| (if s.start.memDone then r.cell.scanTiles else 0) })
      let spared := (runs.zipIdx.filter (fun r => r.1.spare && !(s.hist.phases.contains r.2))).map (·.2)
      ({ s with start := { s.start with pcl, scanDone := true }, hist := spared.foldl Hist.phase s.hist } : State).testsDone
    else s)

/-- Spare rows of a chiplet's near tier that its fuses leave (R485, R491; log 5). -/
def Start.nearSpares (x : Start) (c : Nat) : Nat := nearFrames - x.nearFused.getD c 0

/-- Near-tier rows of stage 8 (R485): those that spare rows repair, and the frames of the others, which retire. -/
def Start.nearRows (x : Start) (rows : List (Nat × Nat)) (c : Nat) : Nat × List Frame :=
  let rs := rows.filter (fun r => r.1 = c)
  (min rs.length (x.nearSpares c), ((rs.drop (x.nearSpares c)).map (fun r => Frame.near c r.2)).dedup)

/-- Frames that the history lists as moved out of a stack, each of which takes a frame of its pool (R390, R485). -/
def Hist.movedFrom (h : Hist) (k : Nat) : List Frame :=
  h.moved.filter (fun f => match f with | .hbm j _ => j == k | .pool j _ => j == k | .near _ _ => false)

/-- Stage 9 on a stack (R485): pool frames in use, and the bad frames that find the pool empty. -/
def Hist.poolTest (h : Hist) (bad : List Frame) (k : Nat) : Nat × List Frame :=
  let used := min poolFrames (h.movedFrom k).length
  let new := (bad.filter (fun f => (match f with | .hbm j _ => j == k | _ => false) && !((h.movedFrom k).contains f))).dedup
  (min poolFrames (used + new.length), new.drop (poolFrames - used))

/-- MEMORY_SELF_TEST (R485): stores without a spare row fail their unit, failing near-tier rows are repaired or retire their
frames, and the remap pools take the frames that the history lists and those found bad. -/
def execMemorySelfTest (mem : MemFind) (s : State) : Out :=
  .next (
    if s.start.stage = .test ∧ !s.start.memDone then
      let pcl := s.start.pcl.zipIdx.map (fun c =>
        let ts := sumNat ((List.range 9).map (fun t => if mem.tiles.contains (c.2, t) then 2 ^ t else 0))
        { c.1 with scanFail := mem.clusters.contains c.2 || (c.1.scanFail && s.start.scanDone),
                   scanTiles := ts ||| (if s.start.scanDone then c.1.scanTiles else 0) })
      let near := (List.range 8).map (s.start.nearRows mem.nearRows)
      let pools := (List.range 24).map (s.hist.poolTest mem.bad)
      ({ s with
        start := { s.start with pcl, nearSoft := near.map (·.1), memDone := true }
        pages := { s.pages with
          retired := near.flatMap (·.2) ++ pools.flatMap (·.2), poolUsed := pools.map (·.1)
          poolEmpty := BitVec.ofNat 64 (sumNat (pools.zipIdx.map (fun p => if p.1.1 = poolFrames then 2 ^ p.2 else 0))) } } : State).testsDone
    else s)

/-- A physical cluster after its tests at start number `n` (R483, R486, R487): failures counted, units soft-excluded and proposed until
they are fused, logical tiles placed. A failed cluster excludes all nine of its tiles. -/
def PCl.admission (c : PCl) (n hours : Nat) : PCl :=
  let fails := if c.scanFail && !c.fused then c.failStarts ++ [n] else c.failStarts
  let fails := fails.filter (fun k => k + 16 > n)
  let tfails := (List.range 9).map (fun t =>
    let l := c.tileFailStarts.getD t []
    (if c.scanTiles.testBit t && !(c.tileFused.testBit t) then l ++ [n] else l).filter (fun k => k + 16 > n))
  let tprop := sumNat ((List.range 9).map (fun t => if (3 ≤ (tfails.getD t []).length || c.tilePropose.testBit t) && !(c.tileFused.testBit t) then 2 ^ t else 0))
  let prop := (decide (3 ≤ fails.length) || c.propose) && !c.fused
  let tsoft := (if c.scanFail then 0x1FF else c.scanTiles ||| tprop) &&& (0x1FF ^^^ (c.tileFused &&& 0x1FF))
  let c : PCl :=
    { c with failStarts := fails, tileFailStarts := tfails, propose := prop, tilePropose := tprop,
             soft := (c.scanFail || prop) && !c.fused, tileSoft := tsoft, out := false, spare := false,
             lastTest := if c.scanFail then c.lastTest else hours, lastPass := !c.scanFail, due := false, tuning := false, was := none }
  let place (m : List Nat) (lt : Nat) : List Nat :=
    if c.tileOk (m.getD lt lt) then m
    else match c.goodTiles.find? (fun t => !(m.contains t)) with | some t => m.set lt t | none => m
  { c with tileMap := (List.range 8).foldl place c.tileMap }

/-- Logical numbers of chiplet `c` placed (R26, R486, R487): each stays where it is, else goes to the lowest cluster that runs
none. -/
def placeLogicals (x : Start) (c : Nat) : Start :=
  let ps := (List.range 17).map (· + 17 * c)
  let keep (x : Start) (p : Nat) : Start := if (x.cluster p).usable then x else x.upd p (fun k => { k with logical := none })
  let x := ps.foldl keep x
  let fill (x : Start) (l : Nat) : Start :=
    if (x.phys l).isSome then x
    else match ps.find? (fun p => (x.cluster p).usable && (x.cluster p).logical.isNone) with
      | some p => x.upd p (fun k => { k with logical := some l })
      | none => x
  let x := ((List.range 16).map (· + 16 * c)).foldl fill x
  ps.foldl (fun x p => x.upd p (fun k => { k with spare := k.usable && k.logical.isNone })) x

/-- Units that pass again lose the class permanent (R498). -/
def Hist.readmit (h : Hist) (pcl : List PCl) : Hist :=
  h.pardon (fun u =>
    let c := pcl.getD (if u.kind = 1 then u.index / 9 else u.index) (PCl.ship 0)
    (u.kind == 2 && (c.soft || c.out) && !c.scanFail)
      || (u.kind == 1 && c.tileSoft.testBit (u.index % 9) && !(c.scanTiles.testBit (u.index % 9)) && !c.scanFail))

/-- ADMISSION (R27, R480, R486, R487): the start record, the life-cycle state, and READY. -/
def State.admission (s : State) : State :=
  let n := s.start.starts + 1
  let hist := s.hist.readmit s.start.pcl
  let x : Start := { s.start with pcl := s.start.pcl.map (fun c => c.admission n s.hist.hours), starts := n }
  let x := (List.range 8).foldl placeLogicals x
  let lc := match x.lc with
    | .manufacture => LifeCycle.manufacture
    | .service => if x.leaving then (if x.whole then .deployed else .drain) else .service
    | .deployed => if x.whole then .deployed else .drain
    | .drain => .drain
  let x : Start := { x with lc, leaving := false, stage := .ready }
  let cause := if lc = .drain then hist.drainCause else 0
  let hist := ({ hist with drainCause := cause } : Hist).append (.start n (x.pcl.map PCl.trace) s.pages.poolUsed lc cause)
  let s : State := { s with start := x, hist }
  ({ s with clusters := s.clusters.zipIdx.map (fun c =>
    match x.phys c.2 with
    | some p =>
      let side := (x.cluster p).spareSide
      { c.1 with til := { c.1.til with spareFree := side.1, spareLtile := side.2 } }
    | none => c.1) } : State).alert

def execAdmission (s : State) : Out :=
  .next (if s.start.stage = .admission then s.admission
    else if s.start.stage = .halted ∧ s.start.halt = haltReset then { s with start := { s.start with lateReset := s.start.lateReset + 1 } }
    else s)

/-! ## Power -/

/-- The orderly cut (R544): everything in volatile state is lost; flash and history stay. -/
def State.cut (s : State) : State :=
  let s := s.dropAll
  { s with
    mem := [], tags := [], poison := []
    pwr := { s.pwr with on := false, alert := false, near := 0, hbm := false, optics := false }
    start := { s.start with
      stage := .calibrate, halt := 0, leaving := false, domainReady := false, winOn := false, stopped := [],
      outEdges := [],
      pcl := s.start.pcl.map (fun c => { c with railOn := false, down := 0, therm := false, tuning := false, was := none }) }
    fab := { s.fab with engineFailed := s.fab.engineFailed } }

/-- PWR_FAIL (R544): input below 44.0 V, or above 59.5 V; a record being appended to the history may lose its end (R474, R492). -/
def execPwrFail (cut : Cut) (s : State) : Out :=
  .next (
    if s.pwr.on ∧ (cut.mv < 44000 ∨ 59500 < cut.mv) then
      ({ s with pwr := { s.pwr with vin := cut.mv }, hist := if cut.torn then s.hist.tear else s.hist } : State).cut
    else s)

/-- INTERLOCK_BREAK (R544, R547). -/
def execInterlockBreak (s : State) : Out :=
  .next (if s.pwr.on then ({ s with pwr := { s.pwr with ilk := false } } : State).cut else s)

/-- CAP_EFF_UPDATE (R555): flow in 0.01 L/min, inlet and outlet in °C; a new derate alerts (log 40). -/
def execCapEffUpdate (flow inlet outlet : Nat) (s : State) : Out :=
  let p := ({ s.pwr with flow, tin := inlet, tout := outlet } : Power).reCap s.start.flash.conf.limits
  .next { s with pwr := { p with alert := p.alert || (p.derate && !s.pwr.derate) } }

/-- FLOW_TRIP (R555). -/
def execFlowTrip (flow : Nat) (s : State) : Out :=
  .next (
    let s' : State := { s with pwr := { s.pwr with flow } }
    if s.alive && decide (2 * flow < 10 * s.start.flash.conf.limits.flowMin) then s'.haltWith haltFlow else s')

/-- JUNCTION_TRIP (R555): a sensor of a physical cluster, or of the hub. -/
def execJunctionTrip (p : Option Nat) (tj : Nat) (s : State) : Out :=
  .next (
    let s' : State := match p with
      | some p => { s with start := s.start.upd p (fun c => { c with tj }) }
      | none => { s with start := { s.start with hubTj := tj } }
    if s.alive && decide (110 ≤ tj) then s'.haltWith haltJunction else s')

/-! ## The governor -/

/-- Mean and largest of the 1 ms means of the averaging window. -/
def meanOf (ws : List Nat) : Nat := sumNat ws / max 1 ws.length

/-- PAVG_W, PPEAK_W, VIN_MV and IIN_10MA kept current (R14, R558). -/
def State.metered (s : State) (m : Meter) : State :=
  { s with pwr := { s.pwr with pavg := meanOf m.watts, ppeak := maxNat m.watts, vin := m.vin, iin := m.iin } }

def State.railOf (s : State) (p : Nat) : Nat :=
  (s.start.cluster p).railMv s.start.flash.conf.limits.vcoreMax (fld s.pwr.cfg 47 36)

/-- A rail above its floor can be lowered. -/
def State.lowerable (s : State) (p : Nat) : Bool :=
  (s.start.cluster p).railOn && decide ((s.start.cluster p).floorMv < s.railOf p)

/-- Order of R556 among equal rails: logical numbers, clusters without one below all others. -/
def State.rankOf (s : State) (p : Nat) : Nat := match (s.start.cluster p).logical with | some l => l + 1 | none => 0

/-- The best of a list of clusters by a strict order. -/
def pickBy (better : Nat → Nat → Bool) (ps : List Nat) : Option Nat :=
  ps.foldl (fun o p => match o with | some q => if better p q then some p else some q | none => some p) none

/-- One step down. -/
def State.lower (s : State) (p : Nat) : State := { s with start := s.start.upd p (fun c => { c with down := c.down + 1 }) }

/-- GOVERNOR_LOWER (R556). -/
def execGovernorLower (meter : Meter) (s : State) : Out :=
  onHub s (.next (
    let s := s.metered meter
    if s.pwr.pavg > s.pwr.capEff then
      match pickBy (fun p q => s.railOf q < s.railOf p || (s.railOf p == s.railOf q && s.rankOf q < s.rankOf p))
          ((List.range 136).filter s.lowerable) with
      | some p => s.lower p
      | none => s
    else s))

/-- GOVERNOR_RAISE (R556). -/
def execGovernorRaise (meter : Meter) (s : State) : Out :=
  onHub s (.next (
    let s := s.metered meter
    if 100 * s.pwr.pavg < 98 * s.pwr.capEff then
      match pickBy (fun p q => s.railOf p < s.railOf q || (s.railOf p == s.railOf q && s.rankOf p < s.rankOf q))
          ((List.range 136).filter (fun p => (s.start.cluster p).down > 0 && !(s.start.cluster p).therm)) with
      | some p => { s with start := s.start.upd p (fun c => { c with down := c.down - 1 }) }
      | none => s
    else s))

/-- ISSUE_GATING (R556): `above` says that the mean is above the cap; otherwise it is below 0.98 × CAP_EFF. -/
def execIssueGating (above : Bool) (s : State) : Out :=
  onHub s (.next (
    if above then
      (if (List.range 136).any s.lowerable then s else { s with pwr := { s.pwr with gate := min 64 (2 * s.pwr.gate) } })
    else { s with pwr := { s.pwr with gate := max 1 (s.pwr.gate / 2) } }))

/-- THERMAL_LOWER (R557), with the hottest reading of the cluster. -/
def execThermalLower (p tj : Nat) (s : State) : Out :=
  onPhys p (onHub s (.next (
    let lim := fld s.pwr.cfg 35 28
    let c := s.start.cluster p
    let s : State := { s with start := s.start.upd p (fun c => { c with tj }) }
    if lim < tj || (c.therm && decide (lim ≤ tj + 2)) then
      let s : State := { s with start := s.start.upd p (fun c => { c with therm := true }) }
      if s.lowerable p then s.lower p else s
    else if tj + 5 < lim then { s with start := s.start.upd p (fun c => { c with therm := false }) }
    else s)))

end Sys2Proof.Machine
end

