-- ==== Sys2Proof/Machine/Recovery.lean ====
section
/-!
DEFINITION. Edges that stop (R105, R107), the escalation ladder above its first rung (R509 to R514), deadlock detection (R517),
Tune-up (R503 to R506), regulator phases (R502) and the history window (R498).
-/

namespace Sys2Proof.Machine

/-! ## Shared engines -/

/-- A page has its frame in an HBM stack. -/
def State.inStack (s : State) (stack page : Nat) : Bool :=
  match s.pages.frameOf page with
  | some (.hbm k _) => k == stack
  | some (.pool k _) => k == stack
  | _ => false

/-- Ranges that an entry's tensors and statistic slots occupy, by its hazard keys (R123). -/
def Site.ranges (x : Site) : List (Nat × Nat) :=
  let h := x.job.hazards x.e
  (h.1 ++ h.2).flatMap (fun k =>
    match k with
    | .haz id => (x.job.tensors.filter (fun t => t.haz = id)).flatMap Tensor.ranges
    | .slot i => match x.job.slots[i]? with | some sl => sl.regions | none => [])

/-- A page lies in a chiplet: in one of its frames, or in a store of one of its clusters. -/
def State.inChip (s : State) (c page : Nat) : Bool :=
  match placeOf page with
  | .store l _ => l / 16 == c
  | _ => (match s.pages.frameOf page with | some f => f.chip == c | none => false)

/-- A page, of those that `on` picks, that an entry in progress on cluster `l` may have an access outstanding to. -/
def State.hits (s : State) (on : Nat → Bool) (l : Nat) : Option (Site × Nat) :=
  let xs := (s.cluster l).drl.flights.filterMap (fun f => if f.work = .done then none else s.site l f.idx)
  (xs.flatMap (fun x => x.ranges.flatMap (fun r => (pagesOf r.1 r.2).map (fun p => (x, p))))).find? (fun q => on q.2)

/-- Every task with an access outstanding to a page that `on` picks aborts whole (R105, R509, R510); the first is latched with kind EDGE. -/
def State.abortOn (s : State) (on : Nat → Bool) (latch : Bool) : State :=
  (List.range 128).foldl (fun s l =>
    match s.hits on l with
    | some (x, p) =>
      let s : State := if latch then { s with pages := s.pages.latch .edge s.me p x.key.ctx l x.f.idx } else s
      s.abortTask x.key statusAborted
    | none => s) s

def State.abortOnStack (s : State) (stack : Nat) (latch : Bool) : State := s.abortOn (s.inStack stack) latch

/-- Each of a port's nine lanes is charged (R497). -/
def State.chargePort (s : State) (p : Nat) : State := (List.range 9).foldl (fun s i => s.charge 3 (9 * p + i) 0x09) s

/-- The host link goes down (R105, R439). -/
def State.linkDown (s : State) : State := { s with hub := { s.hub with link := ⟨0, 0, false, CfgSpace.default⟩ } }

/-- An edge goes out of service until its engine is reset (R105, R107); its clock has stopped, but for an edge fault (R102). -/
def Start.edgeOut (x : Start) (e : Edge) (fault : Bool) : Start :=
  { x with
    stopped := if fault then x.stopped else e :: x.stopped.filter (· ≠ e)
    outEdges := e :: x.outEdges.filter (· ≠ e) }

/-- An engine's reset brings its edge back into service (R107). -/
def Start.edgeIn (x : Start) (e : Edge) : Start := { x with outEdges := x.outEdges.filter (· ≠ e) }

/-- Writes that wait for a stack are lost with its accesses (R105, R107). -/
def State.dropWrites (s : State) (stack : Nat) : State :=
  { s with pages := { s.pages with waiting := s.pages.waiting.filter (fun w =>
      (pagesOf w.addr w.bytes.length).all (fun p => s.pages.moving p || !(s.inStack stack p))) } }

/-- EDGE_WINDOW_EXPIRY (R105), or with `fault` an edge fault, which takes the same path at once (R102): the first rung is the
reset of the edge's engine. -/
def execEdgeWindowExpiry (loss : EdgeLoss) (s : State) : Out :=
  let out : State := { s with start := s.start.edgeOut loss.edge loss.fault }
  match loss.edge with
  | .host => onHub s (.next (out.linkDown.climb 2 0 0xA 0))
  | .hbm k =>
    if k < 24 then onHub s (.next ((((out.abortOnStack k true).dropWrites k).climb 2 0 8 k).charge 4 k 0x09)) else .fault .noSuchUnit
  | .serdes p => onPort p (onHub s (.next (((out.downPort p).climb 2 0 9 p).chargePort p)))
  | .flash => onHub s (.next (out.climb 2 0 0xB 0))

/-- An edge's clock resumes; past its window that is a late completion, discarded and counted (R99, R107). -/
def Start.edgeClock (x : Start) (e : Edge) : Start :=
  { x with
    stopped := x.stopped.filter (· ≠ e)
    lateEdges := if x.stopped.contains e && x.outEdges.contains e then assocSet x.lateEdges e ((assoc x.lateEdges e).getD 0 + 1)
      else x.lateEdges }

/-- EDGE_CLOCK_RESUME (R105, R107): accesses that still wait complete as if nothing had happened. An edge whose window has
expired stays out of service until its engine's reset, and nothing is revived. -/
def execEdgeClockResume (edge : Edge) (s : State) : Out :=
  .next (({ s with start := s.start.edgeClock edge } : State).landWrites)

/-! ## Rungs 2 to 5 -/

/-- An engine's climb reaches a rung; its unit is charged once, when the climb first needs an engine reset (R497, R509). -/
def State.rung (s : State) (r l engine unit : Nat) : State :=
  let first : Bool := match s.hist.rungOf l engine unit with | some k => k < 2 | none => true
  let s : State := { s with hist := s.hist.raise l engine unit r }
  if !first then s
  else if engine < 8 then s.chargeCluster l 0x09
  else if engine = 8 then s.charge 4 unit 0x09
  else if engine = 9 then s.chargePort unit
  else s

/-- The task that holds a cluster aborts. -/
def State.abortCluster (s : State) (l : Nat) : State :=
  match (s.cluster l).drl.holder with
  | some k => s.abortTask k statusAborted
  | none => s

/-- A Derailleur that is reset ends the task of the lender too, to which an abort of the borrower has given the cluster back (R300, R509). -/
def State.abortLender (s : State) (l engine : Nat) : State := if engine = 6 then s.abortCluster l else s

/-- The state of one cluster engine cleared (R509): the arrays, the Pannier, Topiary's refreshes, the Derailleur with its requests, or the fabric
interface's requests; the other engines hold nothing between entries. -/
def Cluster.resetEngine (c : Cluster) (engine : Nat) : Cluster :=
  match engine with
  | 1 => { c with til := { c.til with arrays := Til.reset.arrays } }
  | 2 => { c with pan := Pannier.reset }
  | 4 => { c with top := { c.top with queue := [] } }
  | 6 => { c with drl := Drl.idle, under := none }
  | 7 => { c with drl := { c.drl with reqs := [], early := [] } }
  | _ => c

/-- The edge of a shared engine (R105, R514). -/
def edgeOf (engine unit : Nat) : Option Edge :=
  match engine with
  | 8 => some (.hbm unit)
  | 9 => some (.serdes unit)
  | 10 => some .host
  | 11 => some .flash
  | _ => none

/-- Entries of an ABORTING cluster whose units have not confirmed by the end of the first rung: the cluster goes IDLE, and what they
confirm later is late (R99, R509). -/
def Cluster.cutOff (c : Cluster) : Cluster :=
  if c.drl.st = .aborting then { c.overtake .rung (c.drl.flights.map (fun f => some f.idx)) with drl := Drl.idle } else c

/-- ENGINE_RESET (R107, R509, R510): rung 2. -/
def State.engineReset (s : State) (l engine unit : Nat) : State :=
  if engine = 0 ∨ 13 < engine then s
  else if engine < 8 then
    let s := (s.rung 2 l engine unit).abortCluster l
    ((s.abortLender l engine).updCluster l Cluster.cutOff).updCluster l (fun c => c.resetEngine engine)
  else
    let s := s.rung 2 l engine unit
    let s : State := match edgeOf engine unit with | some e => { s with start := s.start.edgeIn e } | none => s
    match engine with
    | 8 => (s.abortOnStack unit false).landWrites
    | 9 => s.downPort unit
    | 10 => s.linkDown
    | 12 => { s with hub := { s.hub with mail := { s.hub.mail with busy := false, queue := s.hub.mail.queue.filter (fun q => match q.1 with | .packet _ => true | _ => false) } } }
    | _ => s

def execEngineReset (l engine unit : Nat) (s : State) : Out := onCluster l (onHub s (.next (s.engineReset l engine unit)))

/-- The cluster engine whose climb goes on: the open one of the cluster, or the Derailleur. -/
def Hist.openEngine (h : Hist) (l : Nat) : Nat × Nat :=
  match h.open_.find? (fun o => o.1 = l ∧ o.2.1 < 8) with
  | some o => (o.2.1, o.2.2.1)
  | none => (6, 0)

/-- A cluster as its engines' reset leaves it (R509). -/
def Cluster.quiesce (c : Cluster) : Cluster :=
  { c.cutOff with
    drl := Drl.idle, under := none, pan := Pannier.reset, til := { c.til with arrays := Til.reset.arrays }
    top := { c.top with queue := [] } }

/-- CLUSTER_QUIESCE (R509): rung 3. -/
def State.quiesce (s : State) (l : Nat) : State :=
  let e := s.hist.openEngine l
  let s := (s.rung 3 l e.1 e.2).abortCluster l
  ((s.abortCluster l).updCluster l Cluster.quiesce).zeroStores l

def execClusterQuiesce (l : Nat) (s : State) : Out := onCluster l (onHub s (.next (s.quiesce l)))

/-- CHIPLET_RESET (R509, R520): rung 4. The near tier and HBM keep their contents; a Tune-up on the chiplet is abandoned. -/
def State.chipletReset (s : State) (c : Nat) : State :=
  let ls := (List.range 16).map (· + 16 * c)
  let op := (s.hist.open_.filter (fun o => (o.2.1 < 8 && o.1 / 16 == c) || (o.2.1 == 8 && o.2.2.1 / 3 == c) || (o.2.1 == 9 && o.2.2.1 / 6 == c)))
  let s := op.foldl (fun s o => s.rung 4 o.1 o.2.1 o.2.2.1) s
  let s := ls.foldl (fun s l => (s.abortCluster l).abortCluster l) s
  let s := s.abortOn (s.inChip c) false
  let es := (List.range 3).map (fun k => Edge.hbm (k + 3 * c)) ++ (List.range 6).map (fun p => Edge.serdes (p + 6 * c))
  let s : State := { s with start := es.foldl Start.edgeIn s.start }
  let s := ls.foldl (fun s l => (s.updCluster l Cluster.quiesce).zeroStores l) s
  let s := ((List.range 6).map (· + 6 * c)).foldl State.retrainPort s
  ({ s with start := ((List.range 17).map (· + 17 * c)).foldl (fun x p => x.upd p (fun k =>
      if k.tuning then { k with tuning := false, was := none, due := true } else k)) s.start } : State).landWrites

def execChipletReset (c : Nat) (s : State) : Out := if c < 8 then onHub s (.next (s.chipletReset c)) else .fault .noSuchUnit

/-- MODULE_RESET (R471, R511): rung 5, with what stages 2 to 5 find. -/
def execModuleReset (found : StartFind) (s : State) : Out :=
  .next (if s.alive then s.moduleReset.runStart found else s)

/-- MODULE_RESET_TIMEOUT (R512). -/
def execModuleResetTimeout (s : State) : Out :=
  .next (match s.start.stage with
    | .ready | .minimal | .halted => s
    | _ => if s.start.quick && s.pwr.on then s.haltWith haltReset else s)

/-! ## Deadlocks (R517) -/

/-- The task of a message of this module's clusters. -/
def State.taskOfMsg (s : State) (m : Msg) : Option TaskKey :=
  if m.src = s.me then
    (match (s.cluster m.scl).drl.reqs.find? (fun r => r.msg = m) with
      | some _ => (s.cluster m.scl).drl.holder
      | none => none)
  else none

/-- Edges between tasks whose messages wait behind each other on one channel. -/
def State.queueEdges (s : State) : List (TaskKey × TaskKey) :=
  let l := s.fab.waiting.zipIdx
  l.flatMap (fun a => l.filterMap (fun b =>
    if b.2 < a.2 ∧ b.1.exit = a.1.exit ∧ b.1.msg.body.vc = a.1.msg.body.vc then
      match s.taskOfMsg a.1.msg, s.taskOfMsg b.1.msg with
      | some t, some u => if t = u then none else some (t, u)
      | _, _ => none
    else none))

/-- Tasks reached from a task over edges, `fuel` steps at most. -/
def reachTasks (es : List (TaskKey × TaskKey)) : Nat → List TaskKey → List TaskKey
  | 0, ts => ts
  | fuel + 1, ts =>
    reachTasks es fuel ((ts ++ es.filterMap (fun e => if ts.contains e.1 then some e.2 else none)).dedup)

/-- Tasks of the cycles through a task: those that it reaches and that reach it. -/
def cycleOf (es : List (TaskKey × TaskKey)) (t : TaskKey) : List TaskKey :=
  let n := es.length + 1
  let r (u : TaskKey) : List TaskKey := reachTasks es n (es.filterMap (fun e => if e.1 = u then some e.2 else none))
  if (r t).contains t then (r t).filter (fun u => (r u).contains t) else []

/-- Aborts of the youngest task of each cycle until no cycle is left. -/
def State.breakCycles : Nat → List (TaskKey × TaskKey) → State → State
  | 0, _, s => s
  | fuel + 1, es, s =>
    match (es.map (·.1)).find? (fun t => (cycleOf es t).length ≥ 2) with
    | none => s
    | some t =>
      let order (k : TaskKey) : Nat := match s.hub.task k with | some x => x.order | none => 0
      match pickByOrder order (cycleOf es t) with
      | none => s
      | some k =>
        let s := s.abortTask k statusDeadlock
        State.breakCycles fuel (es.filter (fun e => e.1 ≠ k ∧ e.2 ≠ k))
          { s with hist := { s.hist with deadlocks := satAdd 12 s.hist.deadlocks 1 } }
where
  /-- The task accepted last. -/
  pickByOrder (order : TaskKey → Nat) (l : List TaskKey) : Option TaskKey :=
    l.foldl (fun o k => match o with | some q => if order q < order k then some k else some q | none => some k) none

/-- DEADLOCK_SCAN (R517): edges count when two scans in a row show them. `queued` are edges in queues that the model does not
hold (log 8): receive buffers, carrier links, the intake, and page moves. -/
def execDeadlockScan (queued : List (TaskKey × TaskKey)) (s : State) : Out :=
  .next (
    let here (k : TaskKey) : Bool := match s.hub.task k with | some t => t.active | none => false
    let now := ((s.queueEdges ++ queued).filter (fun e => here e.1 && here e.2 && e.1 != e.2)).dedup
    let both := now.filter (fun e => s.hist.edges.contains e)
    State.breakCycles (now.length + 1) both { s with hist := { s.hist with edges := now } })

/-! ## Tune-up -/

/-- The cluster may be tested: not fused, not excluded. -/
def PCl.testable (c : PCl) : Bool := !c.fused && !c.soft && !c.out

/-- The cluster holds no task. -/
def State.pIdle (s : State) (p : Nat) : Bool :=
  match (s.start.cluster p).logical with
  | some l => s.idleAt l
  | none => true

/-- The most overdue due cluster of a chiplet that can be tested in place or rotated out; ties go to the lowest number (R503,
R504). -/
def State.nextTune (s : State) (c : Nat) : Option Nat :=
  let can (p : Nat) : Bool := (s.start.cluster p).testable && (s.start.cluster p).due && (s.pIdle p || (s.start.spareOf c).isSome)
  pickBy (fun p q => (s.start.cluster p).lastTest < (s.start.cluster q).lastTest) (((List.range 17).map (· + 17 * c)).filter can)

/-- A due cluster's Tune-up starts in place, or its rotation is asked for; one at a time on a chiplet (R503, R504). -/
def State.beginTune (s : State) (c : Nat) : State :=
  let waiting := (List.range 17).any (fun k =>
    let q := s.start.cluster (k + 17 * c)
    q.due && (match q.logical with | some l => (s.cluster l).migDue | none => false))
  if !s.mayTune || s.tuningOn c || waiting then s
  else
    match s.nextTune c with
    | none => s
    | some p =>
      if s.pIdle p then { s with start := s.start.upd p (fun k => { k with tuning := true, due := false, was := none }) }
      else match (s.start.cluster p).logical with
        | some l => s.updCluster l (fun k => { k with migDue := true })
        | none => s

/-- TUNE_UP_DUE (R503, R504), at a count of powered hours. -/
def execTuneUpDue (p hours : Nat) (s : State) : Out :=
  onPhys p (onHub s (.next (
    let s : State := { s with hist := { s.hist with hours := max hours s.hist.hours } }
    let c := s.start.cluster p
    let period := bit s.hist.cfg 0 && decide (c.lastTest + fld s.hist.cfg 63 52 ≤ s.hist.hours)
    let s : State := if c.testable && period then { s with start := s.start.upd p (fun k => { k with due := true }) } else s
    s.beginTune (p / 17))))

/-- A Tune-up that has passed (R505): a rotated cluster becomes its chiplet's spare. -/
def PCl.tunePass (c : PCl) (hours : Nat) : PCl :=
  let c := { c with tuning := false, due := false, lastTest := hours, lastPass := true }
  if c.was.isSome then { c with was := none, out := false, soft := false, spare := true } else c

/-- A Tune-up that has failed on one tile with the spare tile free (R506): the cluster stays usable. -/
def PCl.tuneSubst (c : PCl) (t : Nat) : PCl :=
  let c := { c with tuning := false, due := false, tileSoft := c.tileSoft ||| 2 ^ t }
  let c := match c.ltileOf t with | some lt => c.substitute lt | none => c
  if c.was.isSome then { c with was := none, out := false, soft := false, spare := true } else c

/-- Any other failure marks the cluster OUT (R506); one that still has its logical number is rotated. -/
def State.tuneOut (s : State) (p : Nat) : State :=
  let s : State := { s with start := s.start.upd p (fun c => { c with tuning := false, due := false, lastPass := false, was := none }) }
  s.rotation p

/-- Registers of a set that differ at one of its rail points (R505, R507). A set that does not serve the stepping is skipped. -/
def TuneSet.differ (t : TuneSet) (stepping : Nat) (fs : List PassFind) : List Nat :=
  match assoc t.expect stepping with
  | some es => (es.zipIdx.flatMap (fun e => sigsDiffer e.1 (fs.getD e.2 ⟨0, [], 0, 0⟩).sigs t.mask)).dedup
  | none => []

/-- The next fleet set that serves the stepping, with its number (R505, R507): in the pack's order, and from its first again after its
last (DESIGN CHOICE, log 63). -/
def Pack.nextFleet (k : Pack) (stepping done : Nat) : Option (Nat × TuneSet) :=
  let n := k.fleet.length
  let order := (List.range n).map (fun i => (done + i) % n)
  order.findSome? (fun i => match k.fleet[i]? with
    | some t => if (assoc t.expect stepping).isSome then some (i, t) else none
    | none => none)

/-- The generator and the registers after a Tune-up's sets: those of the last pass. -/
def PCl.ran (c : PCl) (seed : Word) (fs : List PassFind) : PCl :=
  match fs.getLast? with
  | some f => { c with gen := lfsrRun f.shifts seed, sigs := (List.range scanRegs).map (wordAt f.sigs) }
  | none => c

/-- What a Tune-up runs on a cluster (R505): BASE and the next fleet set; the cluster after it, and the registers that differ. -/
def PCl.tuneRun (c : PCl) (k : Pack) (stepping : Nat) (found : TuneFind) : PCl × List Nat :=
  let base := k.base.differ stepping found.base
  let c := c.ran k.base.seed found.base
  match k.nextFleet stepping c.fleet with
  | some (i, t) => ({ (c.ran t.seed found.fleet) with fleet := i + 1 }, base ++ t.differ stepping found.fleet)
  | none => (c, base)

/-- TUNE_UP_COMPLETE (R505, R506): the sets have run and the stores read as zero. A failing register, lane, pipeline or store row charges
cause 0x05 (R497): the tile whose register differs, or otherwise the cluster. `badTiles` has a bit for each tile whose store has a failing
row that no spare row repairs, which fails the tile (R485). -/
def State.tuneComplete (s : State) (p : Nat) (found : TuneFind) (badTiles : Nat) : State :=
  let c := s.start.cluster p
  if !c.tuning then s
  else
    let f := s.start.flash
    let run := c.tuneRun f.pack f.stepping found
    let s : State := { s with start := s.start.upd p (fun _ => run.1) }
    let s := match c.logical with | some l => s.zeroStores l | none => s
    let regs := (List.range 9).filter (fun t => run.2.contains t)
    let bad := (List.range 9).filter (fun t => run.2.contains t || badTiles.testBit t)
    let whole : Bool := run.2.any (fun k => 9 ≤ k) || !found.lanes || !found.pipes || found.row
    if !whole && bad.isEmpty then s.setPCl p (fun c => c.tunePass s.hist.hours)
    else
      let s : State := { s with hist := { s.hist with tuneFail := satAdd 12 s.hist.tuneFail 1 } }
      let s := match bad, c.spareTile with
        | [t], some _ =>
          if whole then s.tuneOut p
          else
            let s := s.setPCl p (fun c => c.tuneSubst t)
            match c.logical, c.ltileOf t with
            | some l, some lt => s.updCluster l (fun k => { k with til := { k.til with spareFree := false, spareLtile := lt } })
            | _, _ => s.spareGone p
        | _, _ => s.tuneOut p
      let s := regs.foldl (fun s t => s.charge 1 (9 * p + t) 0x05) s
      if whole || bad.any (fun t => !(regs.contains t)) then s.charge 2 p 0x05 else s

def execTuneUpComplete (p : Nat) (found : TuneFind) (badTiles : Nat) (s : State) : Out :=
  onPhys p (.next (s.tuneComplete p found badTiles))

/-! ## Rails and the history window -/

/-- REGULATOR_PHASE_FAILURE (R497, R502): the rail is charged and its spare phase takes over; with the spare in use a cluster
rail calls for a rotation and any other rail drains the module. -/
def execRegulatorPhaseFailure (rail : Nat) (s : State) : Out :=
  if rail < 155 then
    .next (
      let s := s.charge 7 rail 0x0B
      if !(s.hist.phases.contains rail) then { s with hist := s.hist.phase rail }
      else if rail < 136 then s.rotation rail
      else s.drain 4)
  else .fault .noSuchUnit

/-- CHARGE_WINDOW_EXPIRY (R498): charges whose starts and hours have both passed leave the unit's window. -/
def execChargeWindowExpiry (kind index hours : Nat) (s : State) : Out :=
  if index < unitCount kind then
    .next (
      let h : Hist := { s.hist with hours := max hours s.hist.hours }
      let u := h.unit kind index
      { s with hist := h.setUnit { u with charges := u.charges.filter (h.inWindow s.start.starts) } })
  else .fault .noSuchUnit

end Sys2Proof.Machine
end

