-- ==== Sys2Proof/Machine/Steps.lean ====
section
/-!
DEFINITION. The end of a step: STEP_END and its vote (R137, R243, R272), the outcome (R273, R277), what commit, skip, recompute and restore do
(R70, R73, R226, R243, R244, R260, R274 to R278, R454), the fold of the Coppice (R285), and the ABORT message (R152).
-/

namespace Sys2Proof.Machine

/-! ## Replica groups and the outcome (R272, R273, R277, R328) -/

/-- The votes of a vote's replica group. -/
def Job.groupVotes (j : Job) (vs : List Vote) (v : Vote) : List Vote :=
  vs.filter (fun w => w.cluster = v.cluster && (j.replicas v.cluster v.module).contains w.module)

/-- The vote stands in a group that disagrees (R273). -/
def Job.apart (j : Job) (vs : List Vote) (v : Vote) : Bool := (j.groupVotes vs v).any (fun w => w.dc != v.dc || w.mismatch)

/-- The value that more than half of a group share (R277). -/
def majority (g : List Vote) : Option Word :=
  (g.find? (fun v => 2 * (g.filter (fun w => w.dc = v.dc)).length > g.length)).map (fun v => v.dc)

/-- A cluster that R277 suspects. -/
def Job.suspect (j : Job) (vs : List Vote) (v : Vote) : Bool :=
  let g := j.groupVotes vs v
  v.mismatch || (g.length == 2 && j.apart vs v)
    || (g.any (fun w => w.dc != v.dc) && (match majority g with | some d => v.dc != d | none => true))

/-- Suspects by module and cluster. -/
def Job.suspects (j : Job) (vs : List Vote) : List (Nat × Nat) := (vs.filter (j.suspect vs)).map (fun v => (v.module, v.cluster))

/-- Every Coppice that is kept holds the step before (R273). -/
def copReady (cops : List CopInfo) (before : Nat) : Bool := cops.all (fun c => !c.en || c.lost || c.step == before)

/-- The outcome of a step, the first row of R273 that holds; none while a commit waits for a Coppice. -/
def Job.outcome (j : Job) (vs : List Vote) (cops : List CopInfo) (attempt before : Nat) : Option Outcome :=
  if vs.any (fun v => v.nf) then some .skip
  else if vs.any (j.apart vs) then
    if attempt ≤ 1 then some .recompute
    else if attempt = 2 ∧ (vs.filter (j.apart vs)).all (fun v => cops.any (fun c => c.module == v.module && c.en && !c.lost)) then some .restore
    else some .abort
  else if copReady cops before then some .commit
  else none

/-! ## The vote -/

/-- The step whose state the task's C tensors hold. -/
def State.committedOf (s : State) (k : TaskKey) : Nat := match s.hub.srec k.ctx k.job with | some r => r.committed | none => 0

/-- Refresh reports of the slots that a cluster owns (R243). -/
def State.reports (s : State) (j : Job) (l : Nat) : List Report :=
  j.slots.zipIdx.filterMap (fun p =>
    if p.1.owner = l && !p.1.isFactor then some ⟨p.2, (p.1.word s.mem 3).toNat, p.1.candState s.mem == 3⟩ else none)

/-- The vote of a cluster at its STEP_END (R137, R270, R272). -/
def State.voteOf (s : State) (x : Site) : Vote :=
  let c := s.cluster x.l
  ⟨s.me, x.l, digestFinal c.drl.digest (s.stepOf x.key), c.chn.stepNf, c.drl.mismatch, s.reports x.job x.l⟩

/-- Votes of both lists, the newer of each cluster. -/
def mergeVotes (old new : List Vote) : List Vote :=
  old.filter (fun v => !(new.any (fun w => w.module = v.module && w.cluster = v.cluster))) ++ new

def mergeCops (old new : List CopInfo) : List CopInfo := old.filter (fun c => !(new.any (fun d => d.module = c.module))) ++ new

/-! ## What an outcome changes -/

/-- Pairs that a Cassette's OPTIMISE entries write (R260, R281). -/
def Job.updates (j : Job) (c : Cassette) : List (Nat × Nat) :=
  c.entries.flatMap (fun e => if e.op = .optimise then (match j.opts[e.aux]? with | some o => o.pairs | none => []) else [])

/-- BASE fields of C and U exchanged in every pair that the task's OPTIMISE entries write (R260). -/
def Job.swap (j : Job) (task : Nat) : Job :=
  let ps := (j.cassettes.filter (fun c => c.task = task)).flatMap j.updates
  let base (i : Nat) : Nat := match j.tensor? i with | some t => t.base | none => 0
  { j with tensors := j.tensors.zipIdx.map (fun t =>
      match ps.find? (fun p => p.1 = t.2 || p.2 = t.2) with
      | some p => { t.1 with base := if p.1 = t.2 then base p.2 else base p.1 }
      | none => t.1) }

/-- The Derailleurs of a task's clusters on this module. -/
def State.drls (s : State) (k : TaskKey) (ls : List Nat) : List Drl := ls.filterMap (s.drlOf k)

/-- Merged counts of a step for a scale record (R70). -/
def mergedConv (ds : List Drl) (srec : Nat) : ConvStat :=
  ds.foldl (fun a d => a.add ((assoc d.convs srec).getD {})) {}

/-- The step's largest magnitude for a scale record: what a COLLECTIVE returned where the record is GLOBAL, else what the module's own
clusters have seen (R74, R418); none where no entry converted into the tensor and no COLLECTIVE carried it (R73). -/
def mergedAmax (global : Bool) (ds : List Drl) (srec : Nat) : Option Nat :=
  match ds.findSome? (fun d => assoc d.amaxs srec) with
  | some v => some (if global then v else (mergedConv ds srec).amax)
  | none => if ds.any (fun d => (assoc d.convs srec).isSome) then some (mergedConv ds srec).amax else none

/-- The scale records at the end of a step that commits or skips (R70, R73, R77). -/
def State.advanceScales (s : State) (k : TaskKey) (ls : List Nat) (commit : Bool) : State :=
  match s.jobOf k with
  | none => s
  | some j =>
    let ds := s.drls k ls
    let recs := (j.tensors.filterMap (fun t => if t.srecEn then some t.srec else none)).dedup
    let s := recs.foldl (fun (s : State) r =>
      s.store (srecStep s.mem r ((assoc j.hlens r).getD 0) (mergedConv ds r) (if commit then mergedAmax (srecGlobal s.mem r) ds r else none))) s
    s.updJob k.ctx k.job (fun j => { j with hlens := recs.map (fun r => (r, fld (Cells.word s.mem r) 15 11)) })

/-- OPEN planes of the task's slots become SEALED with the step (R226). -/
def Job.sealPlanes (j : Job) (m : Cells) (is : List Nat) (step : Nat) : List (Nat × List Byte) :=
  is.flatMap (fun i => match j.slots[i]? with
    | some x => if x.planeState m = 1 then [x.setWord 0 (setFld (x.word m 0) 63 60 2), x.setWord 1 (BitVec.ofNat 64 step)] else []
    | none => [])

/-- Modules that hold a replica of a statistic slot: the replicas of its layer's shard, each with its slice group where the layer is not cut
along the slot's side (R243, R327). -/
def Job.slotReplicas (j : Job) (me k : Nat) : List Nat :=
  match j.shard, j.slots[k]? with
  | some p, some x =>
    if !x.repl then [me]
    else
      let a := (p.indexOf me).getD 0
      let is := j.opts.flatMap (fun o =>
        if o.lslot = k ∨ o.rslot = k then
          (match p.layer o.layer with
          | some r =>
            let cut : Bool := (r.kind == 1 && o.lslot == k) || (r.kind == 2 && o.rslot == k)
            if (r.kind == 1 || r.kind == 2) && !cut then (p.holders r a).flatMap (fun h => p.group 2 0 0 h) else p.holders r a
          | none => [])
        else [])
      (if is = [] then List.range p.modules.length else is.dedup).map (fun i => p.modules.getD i me)
  | _, _ => [me]

/-- A module's report of a slot among the votes. -/
def reportOf (vs : List Vote) (m owner k : Nat) : Option Report :=
  (vs.find? (fun v => v.module = m && v.cluster = owner)).bind (fun v => v.reports.find? (fun r => r.slot = k))

/-- Installs of R243 and R244; a READY candidate that is not installed waits: its WAIT_STEPS rises, and an install alone clears it (R244,
R252; an outcome without READY and a discard leave it, DESIGN CHOICE, log 68). -/
def Job.installs (j : Job) (m : Cells) (me : Nat) (is : List Nat) (vs : List Vote) : List (Nat × List Byte) :=
  j.slots.zipIdx.flatMap (fun p =>
    if !(is.contains p.2) then []
    else
      match reportOf vs me p.1.owner p.2 with
      | none => []
      | some mine =>
        if !mine.ready then []
        else if (j.slotReplicas me p.2).all (fun i => match reportOf vs i p.1.owner p.2 with
            | some r => r.ready && r.tag == mine.tag
            | none => false)
        then installSlot m p.1
        else [p.1.setWord 0 (setFld (p.1.word m 0) 31 0 (satAdd 32 (fld (p.1.word m 0) 31 0) 1))])

/-- The difference streams of a step begin: one for each of the task's clusters that owns pairs (R284); a task with no OPTIMISE moves no
pair and has none. -/
def State.startStreams (s : State) (k : TaskKey) (step : Nat) (vs : List Vote) : State :=
  match s.jobOf k, (s.jobOf k).bind (fun j => j.param) with
  | some j, some p =>
    if !p.coppiceEn ∨ s.hub.copGone.contains (k.ctx, k.job) then s
    else
      let mine := (j.cassettes.filter (fun c => c.task = k.task && !(j.updates c).isEmpty)).map (·.cluster)
      let xs := (j.copClusters.filter mine.contains).map (fun c =>
        (⟨k.ctx, k.job, c, step, (j.copParts.filter (fun q => q.cluster = c)).map (fun q => (q.c, q.u, q.sec)),
          match vs.find? (fun v => v.module = s.me && v.cluster = c) with | some v => v.dc | none => 0⟩ : DStream))
      { s with hub := { s.hub with streams := s.hub.streams ++ xs, logPos := assocSet s.hub.logPos (k.ctx, k.job) 0 } }
  | _, _ => s

/-- The task trains: it holds an OPTIMISE, so STEP and ATTEMPT of the job's step record follow its steps (R279). -/
def State.trains (s : State) (k : TaskKey) : Bool := match s.jobOf k with | some j => j.has k.task [.optimise] | none => false

/-- A change of the step record at an outcome of a task whose job has a parameter plan (R275, R279). -/
def State.planRec (s : State) (k : TaskKey) (f : ParamPlan → StepRec → StepRec) : State :=
  match s.jobOf k, (s.jobOf k).bind (fun j => j.param) with
  | some j, some p => s.updRec j (f p)
  | _, _ => s

/-- A change of the step record that only a training task makes. -/
def State.trainRec (s : State) (k : TaskKey) (f : StepRec → StepRec) : State := if s.trains k then s.planRec k (fun _ => f) else s

/-- LS_VEC takes the loss scale in force (R274, R275). -/
def State.trainLs (s : State) (k : TaskKey) : State :=
  match s.jobOf k, s.hub.srec k.ctx k.job with
  | some j, some r => s.writeLs j r.lsExp
  | _, _ => s

/-! ## The rewind (R137) -/

/-- Every cluster of a task rewinds, and pauses where a pause was asked for (R143); a pending signal that passes a counter's range aborts the task (R130). -/
def State.rewindTask (s : State) (k : TaskKey) (ls : List Nat) : State :=
  let s := ls.foldl (fun (s : State) l => s.updCluster l (fun c => { c with chn := { c.chn with stepNf := false } })) s
  if ls.any (fun l => match s.drlOf k l with | some d => d.rewind.isNone | none => false) then s.abortTask k statusSignalOverflow
  else ls.foldl (fun (s : State) l => match (s.drlOf k l).bind Drl.rewind with | some d => (s.setDrlOf k l d).settlePause l | none => s) s

/-- A step has ended in commit or skip: the next step, or the end of the task (R137). -/
def State.nextStep (s : State) (k : TaskKey) (t : Task) (ls : List Nat) : State :=
  let steps := match (s.jobOf k).bind (fun j => j.tasks[k.task]?) with | some d => d.steps | none => 1
  let step := (t.step + 1) % 2 ^ 64
  let s := s.updTask k (fun t => { t with step, attempt := 1, done := t.done + 1 })
  let s := s.trainRec k (fun r => { r with step, attempt := 1 })
  if t.done + 1 ≥ steps then s.taskDone k else s.rewindTask k ls

/-! ## Held packets (R278, R454) -/

/-- The order in which held packets apply again. -/
def Held.order (h : Held) : Nat :=
  match h.pkt.origin with
  | .ring n slot => n * 2 ^ 32 + slot
  | .fabric m pid _ => 2 ^ 60 + m * 2 ^ 40 + pid

/-- A held packet as the hub reads it again from its slot and its pool; one that another hub forwarded stands in the copy that the hub keeps current (log 59). -/
def State.reread (s : State) (h : Held) : Pkt :=
  match h.pkt.origin with
  | .ring n slot =>
    let r := s.hub.ring n
    let p : Pkt := { h.pkt with words := s.slotWords r slot }
    { p with pay := s.readHdm (r.poolBase + p.payOff) p.payLen }
  | .fabric _ _ _ => h.pkt

/-- Held packets of the step applied again before entry 0 of a new attempt (R454); none where a CRC fails. -/
def State.reapply (s : State) (k : TaskKey) (step : Nat) : Option State :=
  let hs := (sortBy (fun a b => a.order ≤ b.order) (s.hub.held.filter (fun h => h.key = k ∧ h.step = step ∧ !h.stale))).map s.reread
  if hs.any (fun p => packetCrc p.words p.pay ≠ fld (wordAt p.words 7) 31 0) then none
  else some (hs.foldl State.landData s)

/-- A new attempt of the same step begins (R273, R276). -/
def State.retry (s : State) (k : TaskKey) (step : Nat) (ls : List Nat) : State :=
  match s.reapply k step with
  | none => s.abortTask k statusInputChanged
  | some s => s.rewindTask k ls

/-! ## Outcomes -/

/-- COMMIT (R274). -/
def State.commit (s : State) (k : TaskKey) (t : Task) (ls : List Nat) (vs : List Vote) : State :=
  let s := s.updJob k.ctx k.job (fun j => j.swap k.task)
  let s := s.advanceScales k ls true
  let s := match s.jobOf k with
    | some j =>
      let s := s.store (j.sealPlanes s.mem (s.ownSlots k ls) t.step)
      s.store (j.installs s.mem s.me (s.ownSlots k ls) vs)
    | none => s
  let s := s.planRec k (fun p r => { (r.outcome p .commit) with copWaits := if t.copWait then satAdd 32 r.copWaits 1 else r.copWaits })
  let s := s.trainRec k (fun r => { r with committed := t.step })
  let s := s.trainLs k
  let s := s.freeHelds (fun h => h.key = k && h.step = t.step)
  let s := s.startStreams k t.step vs
  s.nextStep k t ls

/-- SKIP (R275, R226, R243). -/
def State.skip (s : State) (k : TaskKey) (t : Task) (ls : List Nat) (vs : List Vote) : State :=
  let s := s.advanceScales k ls false
  let s := match s.jobOf k with
    | some j =>
      let s := s.store (j.emptyPlanes s.mem (s.ownSlots k ls))
      s.store (j.installs s.mem s.me (s.ownSlots k ls) vs)
    | none => s
  let s := (s.planRec k (fun p r => r.outcome p .skip)).trainLs k
  let s := s.freeHelds (fun h => h.key = k && h.step = t.step)
  s.nextStep k t ls

/-- A READY candidate that its cluster reported waits one step more (R243). -/
def Job.waitsOn (j : Job) (m : Cells) (me : Nat) (is : List Nat) (vs : List Vote) : List (Nat × List Byte) :=
  j.slots.zipIdx.flatMap (fun p =>
    if is.contains p.2 && (match reportOf vs me p.1.owner p.2 with | some r => r.ready | none => false)
    then [p.1.setWord 0 (setFld (p.1.word m 0) 31 0 (satAdd 32 (fld (p.1.word m 0) 31 0) 1))]
    else [])

/-- RECOMPUTE and the start of RESTORE: OPEN planes are emptied, no candidate is installed, and the attempt rises (R226, R243, R273,
R276). -/
def State.again (s : State) (k : TaskKey) (t : Task) (ls : List Nat) (o : Outcome) (vs : List Vote) : State :=
  let s := match s.jobOf k with
    | some j =>
      let s := s.store (j.emptyPlanes s.mem (s.ownSlots k ls))
      s.store (j.waitsOn s.mem s.me (s.ownSlots k ls) vs)
    | none => s
  let s := s.updTask k (fun q => { q with attempt := t.attempt + 1 })
  let s := s.planRec k (fun p r => r.outcome p o)
  s.trainRec k (fun r => { r with attempt := t.attempt + 1 })

/-- Clusters of this module in groups that disagree. -/
def Job.apartHere (j : Job) (me : Nat) (vs : List Vote) : List Nat :=
  (vs.filter (fun v => v.module = me && j.apart vs v)).map (fun v => v.cluster)

/-- Each suspect of this module is charged, unless the step skips (R276, R289). -/
def State.chargeSuspects (s : State) (sus : List (Nat × Nat)) : State :=
  sus.foldl (fun s q => if q.1 = s.me then s.chargeCluster q.2 0x03 else s) s

/-- D_c of the outcome in the step record (R279), and the clusters' counts of outcomes (R526). -/
def State.noteOutcome (s : State) (k : TaskKey) (ls : List Nat) (vs : List Vote) : State :=
  let mine : List (Nat × Word) := (vs.filter (fun v => v.module = s.me)).map (fun v => (v.cluster, v.dc))
  let s := s.planRec k (fun _ r => { r with dcs := mine })
  ls.foldl (fun (s : State) l => s.count l [(ctOutcomes, 1)]) s

/-- A delivered outcome is applied (R274 to R276); a commit waits for READs with PAIR of the job (R467), and a restore on a module with a
disagreeing group for its Coppice. -/
def State.applyOutcome (s : State) (k : TaskKey) (t : Task) (j : Job) (o : Outcome) (sus : List (Nat × Nat)) (vs : List Vote) : State :=
  if o = .commit ∧ s.pairRead k then s.updTask k (fun t => { t with votes := [], cops := [], outcome := some (.commit, sus, vs) })
  else
  let ls := j.clusters k.task
  let s := s.updTask k (fun t => { t with votes := [], cops := [], outcome := none, copWait := false })
  let s := s.noteOutcome k ls vs
  let s := if o = .skip then s else s.chargeSuspects sus
  match o with
  | .commit => s.commit k t ls vs
  | .skip => s.skip k t ls vs
  | .recompute => (s.again k t ls .recompute vs).retry k t.step ls
  | .restore =>
    let s := s.again k t ls .restore vs
    if j.apartHere s.me vs = [] then s.retry k t.step ls
    else s.updTask k (fun t => { t with outcome := some (.restore, sus, vs) })
  | .abort => s.abortHere k statusDiverged

/-! ## The tree (R272; log 12) -/

/-- Children and parent of this module in the task's tree. -/
def State.treeKids (s : State) (j : Job) : List Nat :=
  let ms := j.mods s.me
  let r := (ms.findIdx? (· = s.me)).getD 0
  (fwChildren ms.length r).map (fun i => ms.getD i s.me)

def State.treeParent (s : State) (j : Job) : Option Nat :=
  let ms := j.mods s.me
  match ms.findIdx? (· = s.me) with
  | some 0 => none
  | some r => some (ms.getD (fwParent r) s.me)
  | none => none

/-- An outcome goes down the tree, and is applied here. -/
def State.deliver (s : State) (k : TaskKey) (t : Task) (j : Job) (o : Outcome) (sus : List (Nat × Nat)) (vs : List Vote) : State :=
  let s := (s.treeKids j).foldl (fun (s : State) m => s.sendHub m k.ctx (.outcome k t.step o sus vs)) s
  s.applyOutcome k t j o sus vs

/-- The root decides once it has every vote; a commit that has to wait for a Coppice stays undecided (R273). -/
def State.decideStep (s : State) (k : TaskKey) : State :=
  match s.hub.task k, s.jobOf k with
  | some t, some j =>
    (match j.outcome t.votes t.cops t.attempt (s.committedOf k) with
    | some o => s.deliver k t j o (if o = .skip then [] else j.suspects t.votes) t.votes
    | none => s)
  | _, _ => s

/-- This module's own clusters and its subtree have voted. -/
def State.allVoted (s : State) (k : TaskKey) (t : Task) (j : Job) : Bool :=
  (j.clusters k.task).all (fun l => t.votes.any (fun v => v.module = s.me && v.cluster = l))
    && (s.treeKids j).all (fun m => t.cops.any (fun c => c.module = m))

/-- The votes of the subtree go up once they are complete, with this module's Coppice; at the root the outcome is decided. -/
def State.passVotes (s : State) (k : TaskKey) : State :=
  match s.hub.task k, s.jobOf k with
  | some t, some j =>
    if t.cops.any (fun c => c.module = s.me) ∨ !(s.allVoted k t j) then s
    else
      let me := s.copInfo k
      let s := s.updTask k (fun t => { t with
        cops := mergeCops t.cops [me], copWait := me.en && !me.lost && me.step != s.committedOf k })
      (match s.treeParent j with
      | some p => s.sendHub p k.ctx (.vote k t.step t.votes (mergeCops t.cops [me]))
      | none => s.decideStep k)
  | _, _ => s

/-- STEP_END: the cluster votes, and waits for the outcome (R137, R272). -/
def State.doStepEnd (s : State) (x : Site) : State :=
  let v := s.voteOf x
  let s := s.complete x
  if (s.cluster x.l).drl.holder ≠ some x.key then s
  else
    let s := s.updDrl x.l (fun d => { d with st := .stepWait })
    let s := s.updTask x.key (fun t => { t with votes := mergeVotes t.votes [v] })
    s.passVotes x.key

/-- STEP_END (R137). -/
def execStepEnd (l idx : Nat) (s : State) : Out :=
  onCluster l (.next (match s.todo l idx .stepEnd with | some x => s.doStepEnd x | none => s))

/-- A VOTE of a child: its subtree's votes, or later news of a Coppice, which goes on up (R272, R273; log 12). -/
def State.takeVote (s : State) (k : TaskKey) (step : Nat) (vs : List Vote) (cops : List CopInfo) : State :=
  match s.hub.task k, s.jobOf k with
  | some t, some j =>
    if step ≠ t.current then s
    else
      let news := if vs = [] then cops.filter (fun c => t.cops.any (fun d => d.module = c.module)) else cops
      let s := s.updTask k (fun t => { t with votes := mergeVotes t.votes vs, cops := mergeCops t.cops news })
      if t.cops.any (fun c => c.module = s.me) then
        (match s.treeParent j with
        | some p => s.sendHub p k.ctx (.vote k step [] cops)
        | none => s.decideStep k)
      else s.passVotes k
  | _, _ => s

/-- VOTE (R272). -/
def execVote (rx : Rx) (key : TaskKey) (step : Nat) (votes : List Vote) (cops : List CopInfo) (s : State) : Out :=
  s.arrive rx (.vote key step votes cops) (fun s => s.takeVote key step votes cops)

/-- An OUTCOME arrives for the step in progress; after an abort it is dropped (R289), late where its window has passed (R99). One for a commit that has waited applies it. -/
def State.takeOutcome (s : State) (k : TaskKey) (step : Nat) (o : Outcome) (sus : List (Nat × Nat)) (vs : List Vote) : State :=
  match s.hub.task k, s.jobOf k with
  | some t, some j =>
    if t.st = .idle ∨ step ≠ t.step then
      (j.clusters k.task).foldl (fun (s : State) l => s.updCluster l (fun c => c.lateDone none)) s
    else
      match t.outcome with
      | none => s.deliver k t j o sus vs
      | some (.commit, sus', vs') => s.applyOutcome k t j .commit sus' vs'
      | some _ => s
  | _, _ => s

/-- OUTCOME (R274). -/
def execOutcome (rx : Rx) (key : TaskKey) (step : Nat) (o : Outcome) (suspects : List (Nat × Nat)) (votes : List Vote) (s : State) : Out :=
  s.arrive rx (.outcome key step o suspects votes) (fun s => s.takeOutcome key step o suspects votes)

/-! ## Restore within a step (R276, R277, R287) -/

/-- A suspect cluster is rotated out while it waits: its stores hold nothing then (R145, R276, R500). -/
def State.rotateNow (s : State) (l : Nat) : State :=
  match s.start.phys l with
  | none => s
  | some p =>
    match s.start.spareOf (p / 17) with
    | some q => s.takeSpare l p q false
    | none => s.rotation p

/-- The restored sections are written and verified; then the suspects are rotated out, and the rewind follows, or the abort that has
waited (R289). -/
def State.endRestore (s : State) (k : TaskKey) (t : Task) (j : Job) (r : Restore) (sus : List (Nat × Nat)) (ev : Ev) : State :=
  let f := s.finishRestore j r
  let s := f.1.poisonAll ev.bad
  if !f.2 then s.failRestore k statusCopCorrupt
  else
    let s := (sus.filter (fun q => q.1 = s.me)).foldl (fun (s : State) q => s.rotateNow q.2) s
    let s := s.updTask k (fun t => { t with outcome := none })
    match t.abortDue with
    | some status => s.abortNow k status
    | none => s.retry k t.step (j.clusters k.task)

/-- The steps of R276 in their order: wait for the Coppice, read, write and verify, rotate. -/
def State.restoreStep (s : State) (k : TaskKey) (ev : Ev) : State :=
  match s.hub.task k, s.jobOf k, s.hub.srec k.ctx k.job with
  | some t, some j, some r =>
    (match t.outcome, j.param with
    | some (.restore, sus, vs), some p =>
      (match s.hub.restores.find? (fun x => x.key = k) with
      | some x => if s.restoreReady x then s.endRestore k t j x sus ev else s
      | none =>
        if s.hub.copGone.contains (k.ctx, k.job) then s.failRestore k statusDiverged
        else if r.copStep ≠ r.committed then s
        else s.beginRestore j p ⟨k, r.committed, false, j.apartHere s.me vs, none, []⟩)
    | _, _ => s)
  | _, _, _ => s

/-- RESTORE_IN_STEP (R276). -/
def execRestoreInStep (key : TaskKey) (ev : Ev) (s : State) : Out := .next (s.restoreStep key ev)

/-! ## The Coppice (R285) -/

/-- Records of a log slot up to the step-end record of its last cluster; none before every one of them is there. -/
def logStep (step : Nat) : Nat → List LogRec → Option (List LogRec)
  | 0, _ => some []
  | _ + 1, [] => none
  | n + 1, r :: rs =>
    match r with
    | .stepEnd _ st _ => (logStep step (if st = step then n else n + 1) rs).map (fun l => r :: l)
    | .diffs _ _ _ => (logStep step (n + 1) rs).map (fun l => r :: l)

/-- Writes of a fold on the region at `base` (R282, R285). -/
def foldWrites (m : Cells) (base step : Nat) (recs : List LogRec) : List (Nat × List Byte) :=
  let sectAt (c : Nat) : Nat := fld (Cells.word m (base + 8 * (264 + c))) 47 0
  let word (k : Nat) (v : Word) : Nat × List Byte := (base + 8 * k, leBytes 8 v.toNat)
  recs.flatMap (fun r =>
    match r with
    | .diffs c w ds => ds.map (fun d =>
        let a := base + copHeader + sectAt c + d.1
        (a, leBytes w (ofLeBytes (Cells.read m a w) ^^^ d.2)))
    | .stepEnd c st dc => if st = step then [word (136 + c) (Cells.word m (base + 8 * (8 + c))), word (8 + c) dc] else [])
    ++ [word 1 (BitVec.ofNat 64 step), word 0 (Cells.word m base ||| 1)]

/-- What a fold of a step's records stores. -/
def State.storeFold (s : State) (base step : Nat) : Option (List LogRec) → State
  | some recs => s.store (foldWrites s.mem base step recs)
  | none => s

/-- The partner applies a log slot once it holds every cluster's step-end record of the step (R285). -/
def State.foldLog (s : State) (base baseBytes step clusters : Nat) : State :=
  let n := logBytes baseBytes
  let bs := Cells.read s.mem (base + copHeader + baseBytes + step % 2 * n) n
  s.storeFold base step (logStep step clusters (logRecords n bs))

/-- News of this module's Coppice while the task waits for its commit: up the tree, or decided at the root. -/
def State.copNews (s : State) (k : TaskKey) : State :=
  match s.hub.task k, s.jobOf k with
  | some t, some j =>
    if t.st = .idle ∨ !(t.cops.any (fun c => c.module = s.me)) then s
    else
      let me := s.copInfo k
      let s := s.updTask k (fun t => { t with cops := mergeCops t.cops [me] })
      (match s.treeParent j with
      | some p => s.sendHub p k.ctx (.vote k t.step [] [me])
      | none => s.decideStep k)
  | _, _ => s

/-- Tasks of a job. -/
def State.tasksOf (s : State) (ctx job : Nat) : List TaskKey :=
  (s.hub.tasks.filter (fun t => t.key.ctx = ctx && t.key.job = job)).map (fun t => t.key)

/-- The protected module learns that its partner has folded the last committed step, whose stream it has sent whole (log 17). -/
def State.foldedOwn (s : State) (ctx job step : Nat) : State :=
  match s.job ctx job, s.hub.srec ctx job with
  | some j, some r =>
    let busy : Bool := s.hub.streams.any (fun x => x.ctx = ctx && x.job = job)
      || s.hub.reqs.any (fun q => q.use == .stream ctx job)
    if step ≠ r.committed ∨ busy ∨ s.hub.copGone.contains (ctx, job) ∨ !(match j.param with | some p => p.coppiceEn | none => false) then s
    else
      let s := s.updRec j (fun r => { r with copStep := step, prevValid := true })
      (s.tasksOf ctx job).foldl State.copNews s
  | _, _ => s

/-- COPPICE_FOLD (R285): at the partner, or as the protected module learns of it. -/
def execCoppiceFold (base baseBytes step clusters : Nat) (own : Option (Nat × Nat)) (s : State) : Out :=
  .next (match own with
    | some (ctx, job) => s.foldedOwn ctx job step
    | none => s.foldLog base baseBytes step clusters)

/-- A commit has waited too long for the Coppice, or its stream could not be delivered: it proceeds (R285). -/
def State.copExpired (s : State) (k : TaskKey) : State :=
  match s.hub.task k with
  | some t =>
    let me := s.copInfo k
    if !t.active ∨ !(t.cops.any (fun c => c.module = s.me)) ∨ !me.en ∨ me.step = s.committedOf k then s
    else s.loseCoppice
  | none => s

/-- COPPICE_WAIT_EXPIRY (R285). -/
def execCoppiceWaitExpiry (key : TaskKey) (s : State) : Out := .next (s.copExpired key)

/-! ## ABORT (R152) -/

/-- ABORT at a module of the task: it aborts here with the same status. -/
def execAbort (rx : Rx) (key : TaskKey) (status : Nat) (s : State) : Out :=
  s.arrive rx (.abort key status) (fun s => s.abortHere key status)

end Sys2Proof.Machine
end

