-- ==== Sys2Proof/Machine/TestOps.lean ====
section
/-!
DEFINITION. The commands of TST_CMD, TST_TUNE_CMD and TST_FH_QUERY (R480, R488 to R491, R500, R501, R503, R518), and the end of
the readiness window (R489).
-/

namespace Sys2Proof.Machine

/-- ENTER_SERVICE (R480). -/
def execEnterService (s : State) : Out := onHub s (.next s.enterService)

/-- LEAVE_SERVICE (R480): the module reset's stages 2 to 5 follow with what they find. -/
def execLeaveService (found : StartFind) (s : State) : Out :=
  onHub s (.next (if s.start.lc = .service then s.leaveService.runStart found else s.tstErr))

/-- FUSE_PROPOSED (R488). -/
def execFuseProposed (s : State) : Out := onHub s (.next s.fuseProposed)

/-- FUSE_SVN (R488). -/
def execFuseSvn (s : State) : Out := onHub s (.next s.fuseSvn)

/-- RECHECK (R489, R490), with the counts of the window's lanes. -/
def execRecheck (worst : List (Nat × Nat)) (s : State) : Out := onHub s (.next (s.recheck worst))

/-- TUNE_NOW (R503, R518). -/
def execTuneNow (p : Nat) (s : State) : Out := onHub s (.next (if p > 135 then s.tuneErr else s.tuneNow p))

/-- ROTATE_OUT (R500, R518). -/
def execRotateOut (p : Nat) (s : State) : Out := onHub s (.next (if p > 135 then s.tuneErr else s.rotateOut p))

/-- CLEAR_RAIL (R501, R518). -/
def execClearRail (p : Nat) (s : State) : Out := onHub s (.next (if p > 135 then s.tuneErr else s.clearRail p))

/-- FH_QUERY (R518). -/
def execFhQuery (kind index : Nat) (s : State) : Out := onHub s (.next (s.fhQuery kind index))

/-- READINESS_WINDOW_END (R489), at the entry module while a window runs. -/
def execReadinessWindowEnd (worst : List (Nat × Nat)) (s : State) : Out :=
  onHub s (.next (if s.isEntry && s.start.winOn then s.recheck worst else s))

end Sys2Proof.Machine
end

