-- ==== Sys2Proof/Machine/Dispatch.lean ====
section
/-!
DEFINITION. One arm for each command: a direct call of its meaning.
-/

namespace Sys2Proof.Machine

def exec (i : Instr) (s : State) : Host.Outcome State Fault Refusal :=
  match i with
  | .nopPacket id => Sys2Proof.Machine.execNopPacket id s
  | .data id => Sys2Proof.Machine.execData id s
  | .read id ev => Sys2Proof.Machine.execRead id ev s
  | .load id => Sys2Proof.Machine.execLoad id s
  | .unload id => Sys2Proof.Machine.execUnload id s
  | .run id => Sys2Proof.Machine.execRun id s
  | .suspend id => Sys2Proof.Machine.execSuspend id s
  | .resume id => Sys2Proof.Machine.execResume id s
  | .ctlWritePacket id => Sys2Proof.Machine.execCtlWritePacket id s
  | .ctlRead id => Sys2Proof.Machine.execCtlRead id s
  | .solDelta id => Sys2Proof.Machine.execSolDelta id s
  | .restore id ev => Sys2Proof.Machine.execRestore id ev s
  | .contextReset id => Sys2Proof.Machine.execContextReset id s
  | .ringOpen id => Sys2Proof.Machine.execRingOpen id s
  | .ringClose id => Sys2Proof.Machine.execRingClose id s
  | .fwImage id img => Sys2Proof.Machine.execFwImage id img s
  | .attest id secs flashOk => Sys2Proof.Machine.execAttest id secs flashOk s
  | .doorbellWrite ring value enables => Sys2Proof.Machine.execDoorbellWrite ring value enables s
  | .packetIntake => Sys2Proof.Machine.execPacketIntake s
  | .issueDecision l => Sys2Proof.Machine.execIssueDecision l s
  | .entryComplete l idx => Sys2Proof.Machine.execEntryComplete l idx s
  | .signal l idx => Sys2Proof.Machine.execSignal l idx s
  | .ctlWrite l idx => Sys2Proof.Machine.execCtlWrite l idx s
  | .iterEnd l idx => Sys2Proof.Machine.execIterEnd l idx s
  | .stepEnd l idx => Sys2Proof.Machine.execStepEnd l idx s
  | .halt l idx => Sys2Proof.Machine.execHalt l idx s
  | .mm l idx ev => Sys2Proof.Machine.execMm l idx ev s
  | .mmTa l idx ev => Sys2Proof.Machine.execMmTa l idx ev s
  | .mmTb l idx ev => Sys2Proof.Machine.execMmTb l idx ev s
  | .gramL l idx ev => Sys2Proof.Machine.execGramL l idx ev s
  | .gramR l idx ev => Sys2Proof.Machine.execGramR l idx ev s
  | .chain l idx ev => Sys2Proof.Machine.execChain l idx ev s
  | .reduce l idx ev => Sys2Proof.Machine.execReduce l idx ev s
  | .fold l idx ev => Sys2Proof.Machine.execFold l idx ev s
  | .exportPlane l idx ev => Sys2Proof.Machine.execExportPlane l idx ev s
  | .refresh l idx ev => Sys2Proof.Machine.execRefresh l idx ev s
  | .factor l idx ev => Sys2Proof.Machine.execFactor l idx ev s
  | .solve l idx ev => Sys2Proof.Machine.execSolve l idx ev s
  | .refreshBlock l ev => Sys2Proof.Machine.execRefreshBlock l ev s
  | .stream l idx ev => Sys2Proof.Machine.execStream l idx ev s
  | .copy l idx ev => Sys2Proof.Machine.execCopy l idx ev s
  | .release l idx => Sys2Proof.Machine.execRelease l idx s
  | .send l idx ev => Sys2Proof.Machine.execSend l idx ev s
  | .collective l idx ev => Sys2Proof.Machine.execCollective l idx ev s
  | .exchange l idx ev => Sys2Proof.Machine.execExchange l idx ev s
  | .optimise l idx ev => Sys2Proof.Machine.execOptimise l idx ev s
  | .digest l idx ev => Sys2Proof.Machine.execDigest l idx ev s
  | .wcCheck l idx row col seen => Sys2Proof.Machine.execWcCheck l idx row col seen s
  | .vote rx key step votes cops => Sys2Proof.Machine.execVote rx key step votes cops s
  | .outcome rx key step o suspects votes => Sys2Proof.Machine.execOutcome rx key step o suspects votes s
  | .restoreInStep key ev => Sys2Proof.Machine.execRestoreInStep key ev s
  | .coppiceFold base baseBytes step clusters own => Sys2Proof.Machine.execCoppiceFold base baseBytes step clusters own s
  | .coppiceWaitExpiry key => Sys2Proof.Machine.execCoppiceWaitExpiry key s
  | .entryTimeout l => Sys2Proof.Machine.execEntryTimeout l s
  | .deadlineExpiry key blocks => Sys2Proof.Machine.execDeadlineExpiry key blocks s
  | .collectiveTimeout key => Sys2Proof.Machine.execCollectiveTimeout key s
  | .signalResend l tag => Sys2Proof.Machine.execSignalResend l tag s
  | .migration l => Sys2Proof.Machine.execMigration l s
  | .forcedMigration l => Sys2Proof.Machine.execForcedMigration l s
  | .suspendAtBoundary l => Sys2Proof.Machine.execSuspendAtBoundary l s
  | .suspendWinExpiry key => Sys2Proof.Machine.execSuspendWinExpiry key s
  | .pause l => Sys2Proof.Machine.execPause l s
  | .drlCmdResume l => Sys2Proof.Machine.execDrlCmdResume l s
  | .subst l t => Sys2Proof.Machine.execSubst l t s
  | .drlCommit l => Sys2Proof.Machine.execDrlCommit l s
  | .tilCommit l => Sys2Proof.Machine.execTilCommit l s
  | .chnCommit l => Sys2Proof.Machine.execChnCommit l s
  | .optCommit => Sys2Proof.Machine.execOptCommit s
  | .solCommit => Sys2Proof.Machine.execSolCommit s
  | .memCommit => Sys2Proof.Machine.execMemCommit s
  | .hdgCommit => Sys2Proof.Machine.execHdgCommit s
  | .hubCommit => Sys2Proof.Machine.execHubCommit s
  | .tstCommit => Sys2Proof.Machine.execTstCommit s
  | .tstTuneCommit => Sys2Proof.Machine.execTstTuneCommit s
  | .ctrCommit => Sys2Proof.Machine.execCtrCommit s
  | .ctrClCommit l ctx => Sys2Proof.Machine.execCtrClCommit l ctx s
  | .pwrCommit => Sys2Proof.Machine.execPwrCommit s
  | .registerWrite off bytes value => Sys2Proof.Machine.execRegisterWrite off bytes value s
  | .memPageCmd value ctx => Sys2Proof.Machine.execMemPageCmd value ctx s
  | .pageMoveComplete page ev => Sys2Proof.Machine.execPageMoveComplete page ev s
  | .faultDrivenMove page events ev => Sys2Proof.Machine.execFaultDrivenMove page events ev s
  | .scrubRead page fixed ev => Sys2Proof.Machine.execScrubRead page fixed ev s
  | .pendingDeltaApply => Sys2Proof.Machine.execPendingDeltaApply s
  | .managedLeave => Sys2Proof.Machine.execManagedLeave s
  | .retrain port => Sys2Proof.Machine.execRetrain port s
  | .enterService => Sys2Proof.Machine.execEnterService s
  | .leaveService found => Sys2Proof.Machine.execLeaveService found s
  | .fuseProposed => Sys2Proof.Machine.execFuseProposed s
  | .fuseSvn => Sys2Proof.Machine.execFuseSvn s
  | .recheck worst => Sys2Proof.Machine.execRecheck worst s
  | .tuneNow p => Sys2Proof.Machine.execTuneNow p s
  | .rotateOut p => Sys2Proof.Machine.execRotateOut p s
  | .clearRail p => Sys2Proof.Machine.execClearRail p s
  | .fhQuery kind index => Sys2Proof.Machine.execFhQuery kind index s
  | .snap => Sys2Proof.Machine.execSnap s
  | .snapDomain => Sys2Proof.Machine.execSnapDomain s
  | .clear => Sys2Proof.Machine.execClear s
  | .periodicDump => Sys2Proof.Machine.execPeriodicDump s
  | .getIdentity doe => Sys2Proof.Machine.execGetIdentity doe s
  | .getMeasurements doe => Sys2Proof.Machine.execGetMeasurements doe s
  | .attestRequest doe nonce secs flashOk => Sys2Proof.Machine.execAttestRequest doe nonce secs flashOk s
  | .getBudget doe => Sys2Proof.Machine.execGetBudget doe s
  | .memRd off ev => Sys2Proof.Machine.execMemRd off ev s
  | .memSpecRd off => Sys2Proof.Machine.execMemSpecRd off s
  | .memInv off => Sys2Proof.Machine.execMemInv off s
  | .memWr off bytes enables poison => Sys2Proof.Machine.execMemWr off bytes enables poison s
  | .linkReset width speed ide => Sys2Proof.Machine.execLinkReset width speed ide s
  | .flr => Sys2Proof.Machine.execFlr s
  | .cxlReset => Sys2Proof.Machine.execCxlReset s
  | .write rx addr bytes => Sys2Proof.Machine.execWrite rx addr bytes s
  | .fabricRead rx addr n ev => Sys2Proof.Machine.execFabricRead rx addr n ev s
  | .signalMessage rx cluster ctr gen inc => Sys2Proof.Machine.execSignalMessage rx cluster ctr gen inc s
  | .packetForward rx pid words pay find => Sys2Proof.Machine.execPacketForward rx pid words pay find s
  | .ack rx e => Sys2Proof.Machine.execAck rx e s
  | .readData rx bytes => Sys2Proof.Machine.execReadData rx bytes s
  | .nack rx reason => Sys2Proof.Machine.execNack rx reason s
  | .part rx desc occ chunk lo level vals => Sys2Proof.Machine.execPart rx desc occ chunk lo level vals s
  | .result rx desc occ chunk rank vals => Sys2Proof.Machine.execResult rx desc occ chunk rank vals s
  | .carry rx desc occ lo level nf amax final => Sys2Proof.Machine.execCarry rx desc occ lo level nf amax final s
  | .count rx desc occ phase counts => Sys2Proof.Machine.execCount rx desc occ phase counts s
  | .abort rx key status => Sys2Proof.Machine.execAbort rx key status s
  | .ident rx module farPort variant stepping mapId => Sys2Proof.Machine.execIdent rx module farPort variant stepping mapId s
  | .topoReport rx module ports => Sys2Proof.Machine.execTopoReport rx module ports s
  | .join rx module ports => Sys2Proof.Machine.execJoin rx module ports s
  | .leave rx module => Sys2Proof.Machine.execLeave rx module s
  | .linkState rx module rep => Sys2Proof.Machine.execLinkState rx module rep s
  | .routeDrainDone => Sys2Proof.Machine.execRouteDrainDone s
  | .drained rx module change => Sys2Proof.Machine.execDrained rx module change s
  | .switch rx change => Sys2Proof.Machine.execSwitch rx change s
  | .fwChunk rx seq chunk bytes img => Sys2Proof.Machine.execFwChunk rx seq chunk bytes img s
  | .fwAck rx seq chunk => Sys2Proof.Machine.execFwAck rx seq chunk s
  | .link port ack req credits => Sys2Proof.Machine.execLink port ack req credits s
  | .badMsg port => Sys2Proof.Machine.execBadMsg port s
  | .flitReplay port => Sys2Proof.Machine.execFlitReplay port s
  | .portTrain port module farPort variant stepping mapId => Sys2Proof.Machine.execPortTrain port module farPort variant stepping mapId s
  | .portUp port passed => Sys2Proof.Machine.execPortUp port passed s
  | .portDown port => Sys2Proof.Machine.execPortDown port s
  | .laneBerWindow port counts => Sys2Proof.Machine.execLaneBerWindow port counts s
  | .opticalEngineFailover group engine => Sys2Proof.Machine.execOpticalEngineFailover group engine s
  | .edgeWindowExpiry edge => Sys2Proof.Machine.execEdgeWindowExpiry edge s
  | .engineReset l engine unit => Sys2Proof.Machine.execEngineReset l engine unit s
  | .clusterQuiesce l => Sys2Proof.Machine.execClusterQuiesce l s
  | .chipletReset c => Sys2Proof.Machine.execChipletReset c s
  | .moduleReset found => Sys2Proof.Machine.execModuleReset found s
  | .moduleResetTimeout => Sys2Proof.Machine.execModuleResetTimeout s
  | .deadlockScan queued => Sys2Proof.Machine.execDeadlockScan queued s
  | .tuneUpDue p hours => Sys2Proof.Machine.execTuneUpDue p hours s
  | .tuneUpComplete p found badTiles => Sys2Proof.Machine.execTuneUpComplete p found badTiles s
  | .start found => Sys2Proof.Machine.execStart found s
  | .referenceMissing => Sys2Proof.Machine.execReferenceMissing s
  | .temperatureWait temps => Sys2Proof.Machine.execTemperatureWait temps s
  | .stage6Timeout => Sys2Proof.Machine.execStage6Timeout s
  | .scanSelfTest scans => Sys2Proof.Machine.execScanSelfTest scans s
  | .memorySelfTest mem => Sys2Proof.Machine.execMemorySelfTest mem s
  | .admission => Sys2Proof.Machine.execAdmission s
  | .pwrFail cut => Sys2Proof.Machine.execPwrFail cut s
  | .interlockBreak => Sys2Proof.Machine.execInterlockBreak s
  | .capEffUpdate flow inlet outlet => Sys2Proof.Machine.execCapEffUpdate flow inlet outlet s
  | .flowTrip flow => Sys2Proof.Machine.execFlowTrip flow s
  | .junctionTrip p tj => Sys2Proof.Machine.execJunctionTrip p tj s
  | .governorLower meter => Sys2Proof.Machine.execGovernorLower meter s
  | .governorRaise meter => Sys2Proof.Machine.execGovernorRaise meter s
  | .issueGating above => Sys2Proof.Machine.execIssueGating above s
  | .thermalLower p tj => Sys2Proof.Machine.execThermalLower p tj s
  | .hubMgmtStateRead => Sys2Proof.Machine.execHubMgmtStateRead s
  | .pwrStatusRead => Sys2Proof.Machine.execPwrStatusRead s
  | .pwrInputRead => Sys2Proof.Machine.execPwrInputRead s
  | .pwrThermalRead => Sys2Proof.Machine.execPwrThermalRead s
  | .hubIdentRead code => Sys2Proof.Machine.execHubIdentRead code s
  | .smbAlertResponse => Sys2Proof.Machine.execSmbAlertResponse s
  | .smbClkTimeout => Sys2Proof.Machine.execSmbClkTimeout s
  | .edgeClockResume edge => Sys2Proof.Machine.execEdgeClockResume edge s
  | .regulatorPhaseFailure rail => Sys2Proof.Machine.execRegulatorPhaseFailure rail s
  | .readinessWindowEnd worst => Sys2Proof.Machine.execReadinessWindowEnd worst s
  | .chargeWindowExpiry kind index hours => Sys2Proof.Machine.execChargeWindowExpiry kind index hours s
  | .differenceStreamRead l ev => Sys2Proof.Machine.execDifferenceStreamRead l ev s

end Sys2Proof.Machine
end

