-- ==== Sys2Proof/Safety.lean ====
section
/-!
DEFINITION. What a safe run of the module is: the shape that every state keeps, and the frames that statements use.
-/

namespace Sys2Proof.Machine

/-- The shape of a state: memory in its canonical form, 128 logical clusters (R26), 48 ports (R397), 136 physical clusters
(R443). -/
structure State.Shape (s : State) : Prop where
  mem : Cells.wf s.mem = true
  clusters : s.clusters.length = 128
  ports : s.fab.ports.length = 48
  phys : s.start.pcl.length = 136

/-- What the next start reads out of the history (R469, R474). -/
def State.replayed (s : State) : Replay := replayJournal s.hist.journal (if s.start.lc = .manufacture then .manufacture else .deployed)

/-- The history tells the count of starts and the life-cycle state (R474). -/
def State.Recorded (s : State) : Prop := s.replayed.starts = s.start.starts ∧ s.replayed.lc = s.start.lc

/-- A command answers a next state with a property. -/
def Answers (c : Instr) (s : State) (q : State → Prop) : Prop := ∃ t, exec c s = .next t ∧ q t

/-- Every byte of memory outside the given ranges reads in `t` as it does in `s`. -/
def SameBytes (s t : State) (ranges : List (Nat × Nat)) : Prop :=
  ∀ a, (∀ r ∈ ranges, ¬ (r.1 ≤ a ∧ a < r.1 + r.2)) → Cells.byte t.mem a = Cells.byte s.mem a

/-- Every byte outside the given offsets of the host window reads in `t` as it does in `s`. -/
def SameWindow (s t : State) (ranges : List (Nat × Nat)) : Prop :=
  ∀ a, (∀ o, (∃ r ∈ ranges, r.1 ≤ o ∧ o < r.1 + r.2) → a ≠ hdmLocal o) → Cells.byte t.mem a = Cells.byte s.mem a

/-- Every logical cluster but `l` is the same in `t` as in `s`. -/
def SameClusters (s t : State) (l : Nat) : Prop := ∀ k, k ≠ l → t.cluster k = s.cluster k

/-- The ranges of a list of writes. -/
def rangesOf (ws : List (Nat × List Byte)) : List (Nat × Nat) := ws.map (fun w => (w.1, w.2.length))

/-- The trace ring that the records of a tagged entry go to (R534); none for an entry that is not tagged. -/
def State.traceRing (s : State) (x : Site) : List (Nat × Nat) :=
  match x.f.tag with
  | none => []
  | some _ => [((s.cluster x.l).ctrc.base.toNat, 32 * 2 ^ fld (s.cluster x.l).ctrc.tag 57 53)]

/-- The entry's work is marked as done on its cluster. -/
def WorkIsDone (t : State) (x : Site) : Prop := ∀ f ∈ (t.cluster x.l).drl.flights, f.idx = x.f.idx → f.work = .done

/-- An entry's work is done: memory is `m`, but for the trace of a tagged entry; only bytes of `ranges` and of the trace ring
change; its cluster changes in its flights, its conversion counts, its counters, its Pannier and the status of its units alone; nothing else
changes but the counters of the module and of its frames' corrected events, and the trace records that wait to be written. -/
structure WorkDone (s t : State) (x : Site) (m : Cells) (ranges : List (Nat × Nat)) : Prop where
  done : WorkIsDone t x
  stores : x.f.tag = none → t.mem = m
  bytes : SameBytes s t (ranges ++ s.traceRing x)
  others : SameClusters s t x.l
  drl : (t.cluster x.l).drl = { (s.cluster x.l).drl with flights := (t.cluster x.l).drl.flights, convs := (t.cluster x.l).drl.convs }
  cluster : t.cluster x.l = { s.cluster x.l with
    drl := (t.cluster x.l).drl, til := (t.cluster x.l).til, pan := (t.cluster x.l).pan, top := (t.cluster x.l).top, ctr := (t.cluster x.l).ctr }
  rest : t = { s with mem := t.mem, tags := t.tags, poison := t.poison, clusters := t.clusters, ctr := t.ctr, pages := { s.pages with ce := t.pages.ce, waiting := t.pages.waiting } }
  waits : x.f.tag = none → t.pages.waiting = s.pages.waiting

/-- The state as an entry's guard hands it on: the corrected words of its reads, the bytes of its accesses and its pace strokes are
counted (R387, R526, R527). -/
def State.counted (s : State) (x : Site) (ev : Ev) (as : List Access) : State :=
  ((s.corrected ev.fixed as).countBytes ((s.start.phys x.l).map (fun p => p / 17)) as).pace x.l ev.pace

/-- No access of an entry faults, none of its writes waits for a page move, and every stack can be reached (R105, R377, R388). -/
def State.clear (s : State) (x : Site) (ev : Ev) (as : List Access) : Prop :=
  firstFault s.pages s.poison ev.bad (some x.l) as = none ∧ writesWait s.pages as = false ∧ s.reaches as = true

/-- No refresh at the head of the cluster's queue waits to begin (R232). -/
def State.queueRuns (s : State) (l : Nat) : Prop := ∀ r rs, (s.cluster l).top.queue = r :: rs → r.started = true

/-- The module once it has acted on a message of another kind than WRITE: the port that brought it gives its credits back (R404, R405). -/
def State.portDone (t : State) (rx : Rx) (b : Body) : State := match rx.port with | some p => t.consumed p b | none => t

/-- The module has sent a message, or it waits to be sent (R405, R408). -/
def State.Queued (t : State) (m : Msg) : Prop := (∃ p, (p, m) ∈ t.fab.sent) ∨ ∃ w ∈ t.fab.waiting, w.msg = m

end Sys2Proof.Machine
end

