-- ==== Sys2Proof/Certificates/Slice0/Obligations.lean ====
section
/-!
DEFINITION. The statements for the provers, in the order of OBLIGATIONS.json.
-/

open Sys2Proof Sys2Proof.Machine

/-- The step takes the command at the front of the queue and carries it out on the rest of the state with the queue's rest; on an
empty queue the module stays as it is (log 6). -/
def Obligations.StepRunsTheFrontCommand : Prop :=
  (∀ (c : Instr) (s : State), step { s with pending := c :: s.pending } = exec c s) ∧
  (∀ s : State, s.pending = [] → step s = .next s)

/-- The state after reset keeps the shape of every state, holds no waiting command, its history tells its count of starts and its
life-cycle state, and no task holds a cluster. -/
def Obligations.ResetKeepsTheShape : Prop :=
  State.reset.Shape ∧ State.reset.Recorded ∧ State.reset.pending = [] ∧ ∀ l, (State.reset.cluster l).drl.holder = none

/-- Every step keeps memory in its canonical form, 128 logical clusters, 136 physical clusters and 48 ports. -/
def Obligations.StepKeepsTheShape : Prop :=
  ∀ s t : State, s.Shape → step s = .next t → t.Shape

/-- Every command answers a next state in every state, unless it names a unit that the module does not have; no well-formed
command does. -/
def Obligations.WellFormedCommandsNeverStop : Prop :=
  ∀ (c : Instr) (s : State), (∃ t, exec c s = .next t) ∨ (exec c s = .fault .noSuchUnit ∧ c.wf = false)

/-- Whatever command the module carries out: the index of the next attestation signature never falls, and the module number
changes at a START alone. While the history tells the count of starts and the life-cycle state, the count never falls, and the
history goes on to tell them, unless a power failure tears its last record (R465, R474, R486, R492, R546). -/
def Obligations.IdentityAndBudgetPersist : Prop :=
  ∀ (c : Instr) (s t : State), exec c s = .next t →
    s.start.flash.xidx ≤ t.start.flash.xidx ∧
    (s.Recorded → s.start.starts ≤ t.start.starts ∧ ((∀ x, c = .pwrFail x → x.torn = false) → t.Recorded)) ∧ (t.hub.module ≠ s.hub.module → ∃ f, c = .start f)

/-- Whatever command the module carries out while its history tells its life-cycle state, that state stays or moves as the table
of R480 says: from DEPLOYED to SERVICE or DRAIN, from SERVICE to DEPLOYED or DRAIN, from DRAIN to SERVICE. SERVICE is left by the
ADMISSION that follows LEAVE_SERVICE alone, and a module in MANUFACTURE stays in it (the factory fuse that ends it is no command).
-/
def Obligations.LifeCycleMovesAsTheTableSays : Prop :=
  ∀ (c : Instr) (s t : State), exec c s = .next t → s.Recorded → t.start.lc ≠ s.start.lc →
    ((s.start.lc, t.start.lc) ∈ [(LifeCycle.deployed, LifeCycle.service), (.deployed, .drain), (.service, .deployed), (.service, .drain), (.drain, .service)]) ∧
    (s.start.lc = .service → c = .admission ∧ s.start.leaving = true)

/-- While the module is alive, powered and not halted, a commit writes the whole shadow of its group into effect where every value
is in its bounds, and changes nothing else, but that units which the new FH_PERM makes permanent are so (R140, R498). A commit of
a group with a value out of its bounds sets the group's COMMIT_ERR and changes nothing else (R140). -/
def Obligations.CommitsTakeEffectOrAreRefused : Prop :=
  (∀ (s : State) (l ctx : Nat), s.alive = true → l < 128 → s.clusters.length = 128 →
     (drlCfgOk (s.cluster l).shadow = true →
       exec (.drlCommit l) s = .next (s.updCluster l (fun c => { c with cfg := (s.cluster l).shadow }))) ∧
     (tilCfgOk (s.cluster l).til.shadow = true →
       exec (.tilCommit l) s = .next (s.updCluster l (fun c => { c with til := { c.til with cfg := (s.cluster l).til.shadow } }))) ∧
     exec (.chnCommit l) s = .next (s.updCluster l (fun c => { c with chn := { c.chn with cfg := (s.cluster l).chn.shadow } })) ∧
     ((s.cluster l).ctrcSh.ok (s.traceRegions ctx) = true →
       exec (.ctrClCommit l ctx) s = .next (s.updCluster l (fun c => { c with ctrc := (s.cluster l).ctrcSh }))) ∧
     (optCfgOk s.hub.optShadow = true → exec .optCommit s = .next { s with hub := { s.hub with optCfg := s.hub.optShadow } }) ∧
     exec .solCommit s = .next { s with sol := { s.sol with cfg := s.sol.shadow } } ∧
     (memCfgOk s.pages.shadow = true → exec .memCommit s = .next { s with pages := { s.pages with cfg := s.pages.shadow } }) ∧
     (hdgCfgOk s.fab.shadow = true → exec .hdgCommit s = .next { s with fab := { s.fab with cfg := s.fab.shadow } }) ∧
     (hubCfgOk s.hub.shadow = true →
       exec .hubCommit s = .next { s with hub := { s.hub with cfg := s.hub.shadow, users := s.hub.usersSh } }) ∧
     (tstCfgOk s.start.shadow = true → exec .tstCommit s = .next { s with start := { s.start with cfg := s.start.shadow } }) ∧
     (tuneCfgOk s.hist.shadow = true → exec .tstTuneCommit s = .next { s with hist := ({ s.hist with cfg := s.hist.shadow } : Hist).judge s.start.starts }) ∧
     (s.ctr.ok s.entryOf s.allRegions = true →
       exec .ctrCommit s = .next { s with ctr := { s.ctr with
         cfg := s.ctr.shadow, dumpBase := s.ctr.dumpShadow, thrChip := s.ctr.thrChipSh, thrHub := s.ctr.thrHubSh } }) ∧
     (pwrCfgOk s.start.flash.conf.limits s.pwr.shadow = true →
       Answers .pwrCommit s (fun t => t.pwr.cfg = s.pwr.shadow ∧
         t = { s with pwr := { s.pwr with cfg := s.pwr.shadow, capEff := t.pwr.capEff, derate := t.pwr.derate } }))) ∧
  (∀ (s : State) (l ctx : Nat), s.alive = true → l < 128 → s.clusters.length = 128 →
     (drlCfgOk (s.cluster l).shadow = false →
       exec (.drlCommit l) s = .next (s.updCluster l (fun c => { c with commitErr := true }))) ∧
     (tilCfgOk (s.cluster l).til.shadow = false →
       exec (.tilCommit l) s = .next (s.updCluster l (fun c => { c with til := { c.til with commitErr := true } }))) ∧
     ((s.cluster l).ctrcSh.ok (s.traceRegions ctx) = false →
       exec (.ctrClCommit l ctx) s = .next { s with ctr := { s.ctr with commitErr := true } }) ∧
     (optCfgOk s.hub.optShadow = false → exec .optCommit s = .next { s with hub := { s.hub with optErr := true } }) ∧
     (memCfgOk s.pages.shadow = false → exec .memCommit s = .next { s with pages := { s.pages with commitErr := true } }) ∧
     (hdgCfgOk s.fab.shadow = false → exec .hdgCommit s = .next { s with fab := { s.fab with commitErr := true } }) ∧
     (hubCfgOk s.hub.shadow = false → exec .hubCommit s = .next { s with hub := { s.hub with commitErr := true } }) ∧
     (tstCfgOk s.start.shadow = false → exec .tstCommit s = .next { s with start := { s.start with commitErr := true } }) ∧
     (tuneCfgOk s.hist.shadow = false → exec .tstTuneCommit s = .next { s with hist := { s.hist with commitErr := true } }) ∧
     (s.ctr.ok s.entryOf s.allRegions = false → exec .ctrCommit s = .next { s with ctr := { s.ctr with commitErr := true } }) ∧
     (pwrCfgOk s.start.flash.conf.limits s.pwr.shadow = false →
       exec .pwrCommit s = .next { s with pwr := { s.pwr with commitErr := true } }))

/-- An aligned write of 8 bytes to a configuration word lands in its shadow copy, reserved bits dropped, and the value in effect
stays; a write of another size or alignment sets BAR_ERR and writes nothing. Both are counted. The control BAR is the entry
module's: on another module a write does nothing (R139, R435, R442). -/
def Obligations.RegisterWriteLandsInTheShadow : Prop :=
  ∀ (s : State) (off bytes : Nat) (v : Word),
    (s.hostUp = false → exec (.registerWrite off bytes v) s = .next s) ∧
    (s.hostUp = true →
    exec (.registerWrite 0x020 8 v) s =
      .next { s.hubCount chBarWrites 1 with hub := { s.hub with shadow := v &&& hubCfgMask } } ∧
    exec (.registerWrite 0x180 8 v) s =
      .next { s.hubCount chBarWrites 1 with pages := { s.pages with shadow := v &&& memCfgMask } } ∧
    exec (.registerWrite 0x200 8 v) s =
      .next { s.hubCount chBarWrites 1 with fab := { s.fab with shadow := v &&& hdgCfgMask } } ∧
    (∀ l, l < 128 → exec (.registerWrite (0x80000 + 0x1000 * l) 8 v) s =
      .next ((s.hubCount chBarWrites 1).updCluster l (fun c => { c with shadow := v &&& drlCfgMask }))) ∧
    (bytes ≠ 8 ∨ off % 8 ≠ 0 → exec (.registerWrite off bytes v) s =
      .next { s.hubCount chBarWrites 1 with hub := { s.hub with barErr := true } }))

/-- PAUSE stops a running cluster with nothing in flight at once, unless a migration or a suspension acts at the boundary before
it, and otherwise is remembered; RESUME makes a paused cluster run; SUBST puts the free spare in the place of a tile that no entry
in flight names, and the history records it. Nothing else of the cluster, no other cluster and no memory changes (R143, R153,
R183, R474). -/
def Obligations.PauseResumeAndSubstitute : Prop :=
  ∀ (s : State) (l t p : Nat), s.alive = true → l < 128 → s.clusters.length = 128 →
    ((s.cluster l).drl.st = .running → (s.cluster l).drl.flights = [] → (s.cluster l).migDue = false →
      (s.cluster l).drl.suspendReq = false → exec (.pause l) s = .next (s.updDrl l (fun d => { d with st := .paused, pauseReq := false }))) ∧
    ((s.cluster l).drl.st = .running → (s.cluster l).drl.flights ≠ [] →
      exec (.pause l) s = .next (s.updDrl l (fun d => { d with pauseReq := true }))) ∧
    ((s.cluster l).drl.st = .paused → (s.cluster l).under = none →
      exec (.drlCmdResume l) s = .next (s.updDrl l (fun d => { d with st := .running, pauseReq := false }))) ∧
    (t < 8 → (s.cluster l).til.spareFree = true → (s.cluster l).til.substWaiting = none → s.tileBusy l t = false →
      s.start.phys l = some p →
      Answers (.subst l t) s (fun u =>
        (u.cluster l).til = { (s.cluster l).til with spareFree := false, spareLtile := t } ∧ (u.cluster l).drl = (s.cluster l).drl ∧
        SameClusters s u l ∧ u.start = s.start.upd p (fun c => c.substitute t) ∧
        u = { s with clusters := u.clusters, start := u.start, hist := s.hist.append (.cluster p (u.start.cluster p).trace) }))

/-- While the hub is powered a Block Read serves the 8 bytes, little-endian, of the word that its code names; the answer to an
alert releases SMB_ALERT#, and a bus timeout drops what was latched for the transfer. Nothing else changes (R549, R550, R558,
R445, R108). The fields of HUB_MGMT_STATE as it is read (R550). A hub that is off, or has halted, carries out no command of a
control word (R512, R544). -/
def Obligations.ManagementBusServesItsWords : Prop :=
  (∀ (s : State) (code : Nat),
     let serve (w : Word) : State := { s with hub := { s.hub with served := some (leBytes 8 w.toNat, false) } }
     (s.pwr.on = true →
       exec .hubMgmtStateRead s = .next (serve s.mgmt) ∧ exec .pwrStatusRead s = .next (serve s.pwrStatus) ∧
       exec .pwrInputRead s = .next (serve s.pwrInput) ∧ exec .pwrThermalRead s = .next (serve s.pwrThermal) ∧
       (4 ≤ code → code ≤ 6 → exec (.hubIdentRead code) s = .next (serve (s.ident (code - 4)))) ∧
       exec .smbAlertResponse s = .next { s with pwr := { s.pwr with alert := false } }) ∧
     exec .smbClkTimeout s = .next { s with hub := { s.hub with served := none } }) ∧
  (∀ s : State, s.start.halt < 256 → s.hist.drainCause < 16 →
     fld s.mgmt 63 60 = s.start.stage.code ∧ fld s.mgmt 59 56 = s.start.lc.code ∧ fld s.mgmt 55 48 = s.start.halt ∧
     fld s.mgmt 47 44 = s.hist.drainCause ∧ bit s.mgmt 43 = s.pwr.ilk ∧ bit s.mgmt 42 = s.pwr.linkFail ∧ fld s.mgmt 41 0 = 0) ∧
  (∀ (s : State) (c : Instr) (l ctx off : Nat) (v : Word), s.alive = false → l < 128 →
     c ∈ [.drlCommit l, .tilCommit l, .chnCommit l, .ctrClCommit l ctx, .optCommit, .solCommit, .memCommit, .hdgCommit, .hubCommit, .tstCommit,
       .tstTuneCommit, .ctrCommit, .pwrCommit, .registerWrite off 8 v, .pause l, .drlCmdResume l, .subst l off, .snap, .snapDomain, .clear,
       .periodicDump, .enterService, .fuseProposed, .fuseSvn, .tuneNow off, .rotateOut off, .clearRail off, .fhQuery off ctx,
       .memPageCmd v ctx] → exec c s = .next s)

/-- A snap whose dump ring lies on this module, where its bytes can land now, writes one record in the ring's next slot and
nothing else in memory, advances the count of dumps, and clears the counters where CLEAR was asked for. SNAP_DOMAIN does so at the
entry module, PERIODIC_DUMP while DUMP_EN is 1 (R530 to R533). CLEAR asks the next snap to clear the counters, and changes nothing
else (R532). -/
def Obligations.SnapWritesOneRecord : Prop :=
  (∀ (s : State) (c : Instr) (domain : Bool),
     s.alive = true → (c = .snap ∧ domain = false) ∨ (c = .snapDomain ∧ domain = true ∧ s.isEntry = true) ∨
       (c = .periodicDump ∧ domain = false ∧ bit s.ctr.cfg 63 = true) →
     Cells.wf s.mem = true → s.hub.snapBusy = false → fld s.ctr.dumpBase 63 52 = s.me →
     let a := fld s.ctr.dumpBase 51 0 + s.ctr.dumps % max 1 (fld s.ctr.cfg 55 48) * 0x40000
     let r := dumpRecord (if domain then s.entryOf else s.ctr.dumps) s.me domain s.ctr.clear
       (s.clusters.map (fun k => k.drl.st == .running)) (s.clusters.map (·.ctr)) s.ctr.chip s.ctr.hub
     s.lands a r.length = true →
     Answers c s (fun t =>
       Cells.read t.mem a r.length = r ∧ SameBytes s t [(a, r.length)] ∧ t.ctr.dumps = (s.ctr.dumps + 1) % 2 ^ 32 ∧
       t.ctr.clear = false ∧ (∀ k, (t.cluster k).drl = (s.cluster k).drl) ∧
       (s.ctr.clear = false → t.clusters = s.clusters ∧ t.ctr.chip = s.ctr.chip ∧ t.ctr.hub = s.ctr.hub) ∧
       (s.ctr.clear = true → t.ctr.hub = List.replicate 64 0 ∧ ∀ k, k < s.clusters.length → (t.cluster k).ctr = List.replicate 128 0))) ∧
  (∀ s : State, s.alive = true → exec .clear s = .next { s with ctr := { s.ctr with clear := true } })

/-- Stage 6 ends when the reading of every junction sensor, the hub's and the 136 clusters', lies from 15 to 90 °C inclusive; with
any reading outside, the module stays in stage 6. Besides the readings, the stage and the alert nothing changes (R484). -/
def Obligations.StageSixWaitsForEveryJunction : Prop :=
  ∀ (s : State) (temps : List Nat), s.start.stage = .rails → temps.length = 137 →
    Answers (.temperatureWait temps) s (fun t =>
      (t.start.stage = .test ↔ ∀ x ∈ temps, 15 ≤ x ∧ x ≤ 90) ∧ (t.start.stage = .test ∨ t.start.stage = .rails) ∧
      t.start.hubTj = temps.getD 0 0 ∧ (∀ p, p < s.start.pcl.length → (t.start.cluster p).tj = temps.getD (p + 1) 0) ∧
      t = { s with pwr := { s.pwr with alert := t.pwr.alert },
                   start := { s.start with stage := t.start.stage, hubTj := t.start.hubTj, pcl := t.start.pcl } })

/-- From off or halted, a start waits for an input of 48 to 58 V (R543). A start whose slot-address contacts hold an even number
of ones halts with HALT_CAUSE 0x06 before calibration; otherwise SA11 to SA0 form the module number (R546). With OSC_COUNT in
range, the flash read and every image sound, the start reaches stage 6 with every cluster rail on, as does the start of a module
reset, whose module number stays. Without a reference it halts with cause 0x01, with the hub's OSC_COUNT out of range with 0x02,
with a flash that does not read with 0x03; with an image that fails it goes to the minimal hub state with every cluster rail off
(R94, R469, R471, R477, R511). -/
def Obligations.StartSamplesTheStraps : Prop :=
  ∀ (s : State) (f : StartFind),
    let sound : Prop := f.refMissing = false ∧ oscOk f.hubOsc = true ∧ f.flashOk = true ∧ s.start.flash.takeConf.failMask = 0
    let halted (cause : Nat) (t : State) : Prop := t.start.stage = .halted ∧ t.start.halt = cause ∧
      ∀ p, p < s.start.pcl.length → (t.start.cluster p).railOn = false
    let unsound : Prop :=
      (f.refMissing = true → Answers (.start f) s (halted 1)) ∧
      (f.refMissing = false → oscOk f.hubOsc = false → Answers (.start f) s (halted 2)) ∧
      (f.refMissing = false → oscOk f.hubOsc = true → f.flashOk = false → Answers (.start f) s (halted 3)) ∧
      (f.refMissing = false → oscOk f.hubOsc = true → f.flashOk = true → s.start.flash.takeConf.failMask ≠ 0 → Answers (.start f) s (fun t =>
        t.start.stage = .minimal ∧ t.start.imgFail = s.start.flash.takeConf.failMask ∧
        ∀ p, p < s.start.pcl.length → (t.start.cluster p).railOn = false))
    let started (t : State) : Prop := t.start.stage = .rails ∧ t.start.halt = 0 ∧
      (∀ p, p < s.start.pcl.length → (t.start.cluster p).railOn = true) ∧ t.jobs = [] ∧ t.hub.tasks = []
    (s.mayStart = true →
      (f.vin < 48000 ∨ 58000 < f.vin → exec (.start f) s = .next s) ∧
      (48000 ≤ f.vin → f.vin ≤ 58000 → strapsOk f.straps f.parity = false →
        Answers (.start f) s (fun t => t.start.stage = .halted ∧ t.start.halt = 6 ∧ t.hub.module = s.hub.module)) ∧
      (48000 ≤ f.vin → f.vin ≤ 58000 → strapsOk f.straps f.parity = true → sound →
        Answers (.start f) s (fun t => started t ∧ t.pwr.on = true ∧ t.hub.module = f.straps % 4096)) ∧
      (48000 ≤ f.vin → f.vin ≤ 58000 → strapsOk f.straps f.parity = true → unsound) ∧
      Answers .referenceMissing s (halted 1)) ∧
    (s.mayStart = false → s.start.stage = .calibrate →
      unsound ∧ (sound → Answers (.start f) s (fun t => started t ∧ t.hub.module = s.hub.module)))

/-- The tests of stages 7 to 9 are taken once each while the stage runs: a cluster whose oscillator is out of range fails the
scan; frames of near-tier rows that no spare row repairs retire, as do bad HBM frames that their remap pool cannot take. When both
tests have ended the module admits its units, and the admission counts the start, records it in the history and ends in READY
(R469, R474, R482, R483, R485, R486). -/
def Obligations.SelfTestsLeadToReady : Prop :=
  ∀ (s : State) (scans : List ScanFind) (mem : MemFind),
    (s.start.stage = .test → s.start.scanDone = false → Answers (.scanSelfTest scans) s (fun t =>
      t.start.scanDone = true ∧ (t.start.stage = .admission ↔ s.start.memDone = true) ∧
      (∀ p, p < s.start.pcl.length → oscOk (s.start.cluster p).osc = false → (t.start.cluster p).scanFail = true) ∧ t.mem = s.mem ∧ t.hub = s.hub)) ∧
    (s.start.stage = .test → s.start.memDone = false → Answers (.memorySelfTest mem) s (fun t =>
      t.start.memDone = true ∧ (t.start.stage = .admission ↔ s.start.scanDone = true) ∧ 
      (∀ g, g ∈ t.pages.retired ↔ (∃ c, c < 8 ∧ g ∈ (s.start.nearRows mem.nearRows c).2) ∨ (∃ k, k < 24 ∧ g ∈ (s.hist.poolTest mem.bad k).2)) ∧
      (∀ k, k < 24 → t.pages.poolUsed.getD k 0 = (s.hist.poolTest mem.bad k).1) ∧ (∀ c, c < 8 → t.start.nearSoft.getD c 0 = (s.start.nearRows mem.nearRows c).1) ∧
      t.mem = s.mem ∧ t.hub = s.hub)) ∧
    (s.start.stage = .admission → Answers .admission s (fun t =>
      t.start.stage = .ready ∧ t.start.starts = s.start.starts + 1 ∧ t.start.leaving = false ∧ t.Recorded ∧ t.mem = s.mem ∧ t.hub = s.hub))

/-- Stage 6 beyond its maximum, a module reset beyond its window, a junction at 110 °C and coolant flow below half of FLOW_MIN
each halt the module with the cause of R550: every cluster rail is removed and no job, task or ring but context 0's is left (R471,
R512, R555). -/
def Obligations.HaltsRemoveTheRails : Prop :=
  ∀ (s : State) (p : Option Nat) (tj flow : Nat),
    let halted (cause : Nat) (t : State) : Prop := t.start.stage = .halted ∧ t.start.halt = cause ∧ t.pwr.alert = true ∧
      (∀ k, k < s.start.pcl.length → (t.start.cluster k).railOn = false) ∧ t.jobs = [] ∧ t.hub.tasks = [] ∧ t.hub.rings = Hub.reset.rings
    (s.start.stage = .rails → Answers .stage6Timeout s (halted 4)) ∧
    (s.start.stage = .test → s.start.quick = true → s.pwr.on = true → Answers .moduleResetTimeout s (halted 5)) ∧
    (s.alive = true → 110 ≤ tj → Answers (.junctionTrip p tj) s (halted 7)) ∧
    (s.alive = true → 2 * flow < 10 * s.start.flash.conf.limits.flowMin → Answers (.flowTrip flow) s (halted 8))

/-- PWR_FAIL and a debounced interlock break each start the same orderly cut: every rail is removed, volatile memory, jobs and
tasks are lost, and the fault history and the flash stay, but that PWR_FAIL may cut off the history's last record, whose CRC then
fits no longer (R474, R492, R544, R547). -/
def Obligations.OrderlyCutKeepsFlashAndHistory : Prop :=
  ∀ (s : State) (c : Instr) (x : Cut), s.pwr.on = true →
    (c = .pwrFail x ∧ (x.mv < 44000 ∨ 59500 < x.mv)) ∨ (c = .interlockBreak ∧ x.torn = false) →
    Answers c s (fun t => t.pwr.on = false ∧ t.mem = [] ∧ t.jobs = [] ∧ t.hub.tasks = [] ∧ t.start.flash = s.start.flash ∧
      t.hist.units = s.hist.units ∧ t.hist.hours = s.hist.hours ∧ t.hist.drainCause = s.hist.drainCause ∧
      (x.torn = false → t.hist = s.hist) ∧
      (x.torn = true → ∀ i r, s.hist.journal[i]? = some r →
        t.hist.journal[i]? = some (if i + 1 = s.hist.journal.length then { r with crc := ~~~ r.crc } else r)) ∧
      ∀ p, p < s.start.pcl.length → (t.start.cluster p).railOn = false)

/-- CAP_EFF is CAP_W while the flow is at least FLOW_MIN and the inlet at most 45 °C, and FLOW_DERATE is clear; otherwise it never
exceeds CAP_W. A derate that sets in asserts SMB_ALERT# (the model's reading of the example in file 18, log 40). Only the
readings, CAP_EFF, FLOW_DERATE and the alert change (R555). While mean power exceeds CAP_EFF one rail that lies above its floor
goes down one step, the highest of them and on a tie the highest logical number; while it is below 0.98 × CAP_EFF one step of the
lowest rail that has gone down is taken back, never of a cluster held for heat. A cluster above TJ_LIMIT goes down one step. With
no rail left to lower, issue gating doubles up to 64, and it halves again once power has fallen. Nothing but DOWN_STEPS, readings
and gating changes (R14, R556 to R558). -/
def Obligations.CapAndGovernorFollowTheReadings : Prop :=
  (∀ (s : State) (flow inlet outlet : Nat),
     Answers (.capEffUpdate flow inlet outlet) s (fun t =>
       t = { s with pwr := { s.pwr with flow := flow, tin := inlet, tout := outlet, capEff := t.pwr.capEff, derate := t.pwr.derate, alert := t.pwr.alert } } ∧
       t.pwr.alert = (s.pwr.alert || (t.pwr.derate && !s.pwr.derate)) ∧ t.pwr.capEff ≤ fld s.pwr.cfg 63 48 ∧
       (10 * s.start.flash.conf.limits.flowMin ≤ flow → inlet ≤ 45 → t.pwr.capEff = fld s.pwr.cfg 63 48 ∧ t.pwr.derate = false))) ∧
  (∀ (s : State) (m : Meter) (p tj : Nat), s.alive = true → s.start.pcl.length = 136 →
     (s.pwr.capEff < meanOf m.watts → p < 136 → s.lowerable p = true →
       (∀ q, q < 136 → s.lowerable q = true → s.railOf q ≤ s.railOf p ∧ (s.railOf q = s.railOf p → q ≠ p → s.rankOf q < s.rankOf p)) →
       exec (.governorLower m) s = .next ((s.metered m).lower p)) ∧
     (100 * meanOf m.watts < 98 * s.pwr.capEff → p < 136 → 0 < (s.start.cluster p).down → (s.start.cluster p).therm = false →
       (∀ q, q < 136 → 0 < (s.start.cluster q).down → (s.start.cluster q).therm = false →
         s.railOf p ≤ s.railOf q ∧ (s.railOf p = s.railOf q → q ≠ p → s.rankOf p < s.rankOf q)) →
       exec (.governorRaise m) s = .next { s.metered m with start := s.start.upd p (fun c => { c with down := c.down - 1 }) }) ∧
     (p < 136 → fld s.pwr.cfg 35 28 < tj → s.lowerable p = true →
       Answers (.thermalLower p tj) s (fun t =>
         t.start.cluster p = { s.start.cluster p with tj := tj, therm := true, down := (s.start.cluster p).down + 1 } ∧
         (∀ q, q ≠ p → t.start.cluster q = s.start.cluster q) ∧ t = { s with start := { s.start with pcl := t.start.pcl } })) ∧
     ((∀ q, q < 136 → s.lowerable q = false) →
       exec (.issueGating true) s = .next { s with pwr := { s.pwr with gate := min 64 (2 * s.pwr.gate) } }) ∧
     exec (.issueGating false) s = .next { s with pwr := { s.pwr with gate := max 1 (s.pwr.gate / 2) } })

/-- When an edge's window expires, or its pairs disagree, the edge goes out of service and the climb starts at rung 2: of the host
edge the link goes down, while packets already taken, rings, jobs, clusters and memory stay as they are; of a SerDes edge the port
goes down; nothing in the flash changes. Of an edge fault the clock has not stopped. A clock that resumes ends the stop alone: an
edge that is out stays out, its late completion is counted, and writes that waited for it are all that goes on (R99, R102, R105,
R107). A rail's first failing phase is charged and its spare phase takes over; a second one drains a module in DEPLOYED where the
rail is no cluster's. A charge leaves its window with the history otherwise as it was (R497, R498, R502). -/
def Obligations.EdgesRailsAndChargesAge : Prop :=
  (∀ (s : State) (p : Nat) (e : Edge) (fault : Bool),
     (s.pages.waiting = [] →
       Answers (.edgeClockResume e) s (fun t =>
         t = { s with start := { s.start with stopped := s.start.stopped.filter (· ≠ e), lateEdges := t.start.lateEdges } } ∧
         (e ∈ s.start.stopped → e ∈ s.start.outEdges →
           assoc t.start.lateEdges e = some ((assoc s.start.lateEdges e).getD 0 + 1)) ∧
         (e ∉ s.start.stopped ∨ e ∉ s.start.outEdges → t.start.lateEdges = s.start.lateEdges))) ∧
     (s.alive = true →
       Answers (.edgeWindowExpiry ⟨.host, fault⟩) s (fun t => t.hub = { s.hub with link := ⟨0, 0, false, CfgSpace.default⟩ } ∧ Edge.host ∈ t.start.outEdges ∧
         (fault = false → Edge.host ∈ t.start.stopped) ∧ (fault = true → t.start.stopped = s.start.stopped) ∧ t.hist.lastRung = 2 ∧
         t = { s with hub := t.hub, start := { s.start with stopped := t.start.stopped, outEdges := t.start.outEdges }, hist := t.hist }) ∧
       Answers (.edgeWindowExpiry ⟨.flash, fault⟩) s (fun t => Edge.flash ∈ t.start.outEdges ∧ (fault = false → Edge.flash ∈ t.start.stopped) ∧
         t.hist.lastRung = 2 ∧
         t = { s with start := { s.start with stopped := t.start.stopped, outEdges := t.start.outEdges }, hist := t.hist }) ∧
       (p < 48 → s.fab.ports.length = 48 → Answers (.edgeWindowExpiry ⟨.serdes p, fault⟩) s (fun t =>
         (t.fab.port p).st = .down ∧ Edge.serdes p ∈ t.start.outEdges)) ∧
       Answers (.edgeWindowExpiry ⟨.hbm (p % 24), fault⟩) s (fun t => Edge.hbm (p % 24) ∈ t.start.outEdges))) ∧
  (∀ (s : State) (rail kind index hours : Nat),
     (rail < 155 → rail ∉ s.hist.phases → Answers (.regulatorPhaseFailure rail) s (fun t => rail ∈ t.hist.phases ∧ t.hist.drainCause = s.hist.drainCause)) ∧
     (136 ≤ rail → rail < 155 → rail ∈ s.hist.phases → s.start.lc = .deployed →
       Answers (.regulatorPhaseFailure rail) s (fun t => t.start.lc = .drain ∧ t.hist.drainCause = 4 ∧ t.pwr.alert = true)) ∧
     (index < unitCount kind → Answers (.chargeWindowExpiry kind index hours) s (fun t =>
       t.hist.hours = max hours s.hist.hours ∧ (t.hist.unit kind index).perm = (s.hist.unit kind index).perm ∧
       (∀ c, c ∈ (t.hist.unit kind index).charges ↔ c ∈ (s.hist.unit kind index).charges ∧ t.hist.inWindow s.start.starts c = true) ∧
       t = { s with hist := { s.hist with hours := t.hist.hours, units := t.hist.units, journal := t.hist.journal } })) ∧
     (155 ≤ rail → exec (.regulatorPhaseFailure rail) s = .fault .noSuchUnit))

/-- Rung 2 on the Derailleur and rung 3 leave the cluster idle with no task; rung 3 also empties Topiary's queue and leaves the
cluster's stores reading zero. Rung 4 does so for every cluster of the chiplet and retrains its six ports (R509). -/
def Obligations.RungsResetTheirUnits : Prop :=
  ∀ (s : State) (l c : Nat), s.alive = true → s.clusters.length = 128 → s.fab.ports.length = 48 → l < 128 → c < 8 →
    Answers (.engineReset l 6 0) s (fun t => (t.cluster l).drl = Drl.idle) ∧
    Answers (.clusterQuiesce l) s (fun t => (t.cluster l).drl = Drl.idle ∧ (t.cluster l).under = none ∧ (t.cluster l).top.queue = [] ∧
      ∀ a, storeBase + l * storeStride ≤ a → a < storeBase + (l + 1) * storeStride → Cells.byte t.mem a = 0) ∧
    Answers (.chipletReset c) s (fun t => (∀ k, k / 16 = c → (t.cluster k).drl = Drl.idle) ∧ ∀ p, p / 6 = c → (t.fab.port p).st = .training)

/-- A module reset gives up jobs, tasks and every ring but context 0's, zeroes the stores, keeps the module number, and with sound
findings goes on in stage 6 as a quick start, the history as its records tell it; without a reference it halts (R469, R471, R474,
R511, R514). -/
def Obligations.ModuleResetDropsJobs : Prop :=
  ∀ (s : State) (f : StartFind), s.alive = true →
    (f.refMissing = true → Answers (.moduleReset f) s (fun t => t.start.stage = .halted ∧ t.start.halt = 1 ∧ t.jobs = [])) ∧
    (f.refMissing = false → oscOk f.hubOsc = true → f.flashOk = true → s.start.flash.takeConf.failMask = 0 →
    Answers (.moduleReset f) s (fun t => t.start.stage = .rails ∧ t.start.quick = true ∧ t.jobs = [] ∧ t.hub.tasks = [] ∧
      t.hub.rings = Hub.reset.rings ∧ t.hub.module = s.hub.module ∧ t.hist.hours = s.hist.hours ∧
      t.hist.journal = (s.hist.append .moduleReset).journal ∧ t.hist.units = t.replayed.units ∧
      ∀ a, storeBase ≤ a → a < storeBase + 128 * storeStride → Cells.byte t.mem a = 0))

/-- A testable cluster whose period has passed becomes due, or its test begins; powered hours never go back. A Tune-up passes
where no register of its sets differs, every lane draws, every pipeline computes and no store row fails: it records the hour, and
a cluster that was rotated out becomes its chiplet's spare; the stores of a cluster in place read zero. One with a failing row of
its cluster store is counted and leaves the cluster failed (R503, R505, R506). TUNE_NOW makes a cluster due, CLEAR_RAIL returns
its rail offset to 0, FH_QUERY answers in TST_FH_DATA, and ROTATE_OUT gives an idle cluster's logical number to the chiplet's
usable spare. Where Tune-up may not run, or the number is above 135, each of the first two and ROTATE_OUT sets CMD_ERR alone
(R500, R501, R503, R518). -/
def Obligations.TuneUpRunsAsCommanded : Prop :=
  (∀ (s : State) (p hours : Nat) (found : TuneFind), s.alive = true → s.start.pcl.length = 136 → p < 136 →
     let run := (s.start.cluster p).tuneRun s.start.flash.pack s.start.flash.stepping found
     ((s.start.cluster p).testable = true → bit s.hist.cfg 0 = true →
       (s.start.cluster p).lastTest + fld s.hist.cfg 63 52 ≤ max hours s.hist.hours →
       Answers (.tuneUpDue p hours) s (fun t => t.hist.hours = max hours s.hist.hours ∧
         ((t.start.cluster p).due = true ∨ (t.start.cluster p).tuning = true) ∧ t.mem = s.mem ∧ t.hub = s.hub)) ∧
     ((s.start.cluster p).tuning = true → found.row = true → Answers (.tuneUpComplete p found 0) s (fun t =>
       (t.start.cluster p).tuning = false ∧ (t.start.cluster p).lastPass = false ∧ t.hist.tuneFail = satAdd 12 s.hist.tuneFail 1)) ∧
     ((s.start.cluster p).tuning = true → run.2 = [] → found.lanes = true → found.pipes = true → found.row = false →
       Answers (.tuneUpComplete p found 0) s (fun t =>
       (t.start.cluster p).fleet = run.1.fleet ∧
       (t.start.cluster p).tuning = false ∧ (t.start.cluster p).lastTest = s.hist.hours ∧ (t.start.cluster p).lastPass = true ∧
       ((s.start.cluster p).was ≠ none → (t.start.cluster p).spare = true) ∧ (∀ q, q ≠ p → t.start.cluster q = s.start.cluster q) ∧
       (∀ l, (s.start.cluster p).logical = some l →
         ∀ a, storeBase + l * storeStride ≤ a → a < storeBase + (l + 1) * storeStride → Cells.byte t.mem a = 0) ∧
       t.hub = s.hub ∧ t.hist = s.hist.append (.cluster p (t.start.cluster p).trace)))) ∧
  (∀ (s : State) (p q l kind index : Nat), s.alive = true →
     let err : State := { s with hist := { s.hist with cmdErr := true } }
     (s.mayTune = true → p ≤ 135 →
       exec (.tuneNow p) s = .next { s with start := s.start.upd p (fun c => { c with due := true }) } ∧
       exec (.clearRail p) s = .next { s with
         start := s.start.upd p (fun c => { c with offset := 0 })
         hist := s.hist.append (.cluster p ((s.start.upd p (fun c => { c with offset := 0 })).cluster p).trace) } ∧
       (s.start.pcl.length = 136 → (s.start.cluster p).logical = some l → s.start.spareOf (p / 17) = some q → p ≠ q → s.idleAt l = true →
         Answers (.rotateOut p) s (fun t => (t.start.cluster q).logical = some l ∧ (t.start.cluster p).logical = none ∧
           (t.start.cluster p).out = true ∧ t.hist.rotations = satAdd 12 s.hist.rotations 1 ∧ t.hub = s.hub ∧ t.jobs = s.jobs))) ∧
     (s.mayTune = false ∨ 135 < p → exec (.tuneNow p) s = .next err ∧ exec (.clearRail p) s = .next err ∧ exec (.rotateOut p) s = .next err) ∧
     Answers (.fhQuery kind index) s (fun t => t = { s with hist := { s.hist with data := t.hist.data } } ∧
       t.hist.data = s.hist.query s.start.starts kind index (if kind = 2 then (s.start.cluster index).offset else 0)
         (s.unitOut kind index)) ∧
     s.unitOut 2 index = (s.start.cluster index).out ∧ s.unitOut 6 index = s.fab.engineFailed.getD index false)

/-- ENTER_SERVICE from DEPLOYED or DRAIN with no job loaded takes effect and is recorded, and from elsewhere sets CMD_ERR alone;
LEAVE_SERVICE performs a module reset (R474, R480). Fuses are programmed in MANUFACTURE and SERVICE only, with the hub's junction
from 15 to 100 °C: every proposed unit becomes fused with its proposal and soft mark cleared, and each kind's floor rises to the
SVN of its VALID image. Elsewhere the command sets CMD_ERR alone (R481, R488, R560). -/
def Obligations.ServiceAndFusesFollowTheLifeCycle : Prop :=
  (∀ (s : State) (f : StartFind), s.alive = true →
     ((s.start.lc = .deployed ∨ s.start.lc = .drain) → s.jobs = [] → exec .enterService s =
       .next { s with start := { s.start with lc := .service }, hist := s.hist.append (.life .service s.hist.drainCause),
                      pwr := { s.pwr with alert := true } }) ∧
     ((s.start.lc = .manufacture ∨ s.start.lc = .service ∨ s.jobs ≠ []) →
       exec .enterService s = .next { s with start := { s.start with cmdErr := true } }) ∧
     (s.start.lc = .service → f.refMissing = false → oscOk f.hubOsc = true → f.flashOk = true → s.start.flash.takeConf.failMask = 0 →
       Answers (.leaveService f) s (fun t => t.start.stage = .rails ∧ t.start.leaving = true ∧ t.jobs = [] ∧ t.hub.tasks = [])) ∧
     (s.start.lc ≠ .service → exec (.leaveService f) s = .next { s with start := { s.start with cmdErr := true } })) ∧
  (∀ s : State, s.alive = true →
     ((s.start.lc = .manufacture ∨ s.start.lc = .service) → 15 ≤ s.start.hubTj → s.start.hubTj ≤ 100 →
       Answers .fuseProposed s (fun t => (∀ p, p < s.start.pcl.length → (t.start.cluster p).propose = false ∧ (t.start.cluster p).tilePropose = 0 ∧
           ((t.start.cluster p).fused = ((s.start.cluster p).fused || (s.start.cluster p).propose))) ∧
         t = { s with hist := { s.hist with units := t.hist.units, journal := t.hist.journal }, start := { s.start with pcl := t.start.pcl } }) ∧
       Answers .fuseSvn s (fun t => (∀ (k v : Nat) (q : Part), s.start.flash.floors[k]? = some v → s.start.flash.parts[k]? = some q →
           t.start.flash.floors[k]? = some (if q.valid then max v q.image.svn else v)) ∧
         t = { s with start := { s.start with flash := { s.start.flash with floors := t.start.flash.floors } } })) ∧
     ((s.start.lc ≠ .manufacture ∧ s.start.lc ≠ .service) ∨ s.start.hubTj < 15 ∨ 100 < s.start.hubTj →
       exec .fuseProposed s = .next { s with start := { s.start with cmdErr := true } } ∧
       exec .fuseSvn s = .next { s with start := { s.start with cmdErr := true } }))

/-- At the entry module a recheck, and the end of a running window, leave DOMAIN_READY as the checks of the domain say; at another
module RECHECK sets CMD_ERR, and a window that is not running ends nothing (R489 to R491). -/
def Obligations.ReadinessFollowsTheChecks : Prop :=
  ∀ (s : State) (worst : List (Nat × Nat)), s.alive = true →
    (s.isEntry = true → Answers (.recheck worst) s (fun t => t.start.domainReady = (s.readyChecks worst).1 ∧
      t.start.berChecked = (s.readyChecks worst).2 ∧ t.start.stage = s.start.stage ∧ t.jobs = s.jobs ∧ t.hub = s.hub)) ∧
    (s.isEntry = false → exec (.recheck worst) s = .next s.tstErr) ∧
    (s.isEntry = true → s.start.winOn = true → exec (.readinessWindowEnd worst) s = exec (.recheck worst) s ∧
      ((∀ w ∈ worst, w.2 ≤ s.readyLimit) → Answers (.readinessWindowEnd worst) s (fun t => t.start.winOn = false ∧ t.fab = s.fab ∧ t.hist = s.hist))) ∧
    (s.isEntry = false ∨ s.start.winOn = false → exec (.readinessWindowEnd worst) s = .next s)

/-- With room in the completion queue, none waiting, and the queue's bytes free to be written now, the end of a packet writes the
16 bytes of its entry in the queue's next slot and nothing else in memory, advances WRITTEN, and drops the packet; the phase bit
tells the pass over the queue. Tasks, jobs, clusters and pages stay (R451). -/
def Obligations.CompletionReachesTheQueue : Prop :=
  ∀ (s : State) (p : Pkt) (n slot status : Nat) (v : Word), Cells.wf s.mem = true → p.origin = .ring n slot →
    (s.hub.ring n).st = .opened → (s.hub.ring n).cqRoom = true → (s.hub.ring n).waiting = [] →
    let r := s.hub.ring n
    let e : Cqe := ⟨false, p.type, status, p.tag, v⟩
    let off := r.cqBase + 16 * (r.cqWritten % r.slots)
    let t := s.endPkt p status v
    (∀ w ∈ hdmPieces off (e.bytes r.slots r.cqWritten), s.lands w.1 w.2.length = true) →
    (∀ i, i < 16 → Cells.byte t.mem (hdmLocal (off + i)) = (e.bytes r.slots r.cqWritten).getD i 0) ∧
    SameWindow s t [(off, 16)] ∧ (t.hub.ring n).cqWritten = (r.cqWritten + 1) % 2 ^ 32 ∧ (t.hub.ring n).released = (r.release slot).released ∧
    t.hub.pkt p.id = none ∧ t.hub.tasks = s.hub.tasks ∧ t.jobs = s.jobs ∧ t.clusters = s.clusters ∧ t.pages = s.pages

/-- A doorbell's enabled TAIL within the ring's slots is taken, one outside them is ignored with OVERRUN set; the write completes,
and no task, job, cluster or packet changes. The hub does not act on a doorbell word that is poisoned (R438, R448). -/
def Obligations.DoorbellMovesTheTail : Prop :=
  ∀ (s : State) (n : Nat) (v : Word), n < 262144 → s.hostUp = true → (s.hub.ring n).st = .opened → (s.hub.ring n).waiting = [] →
    let r := s.hub.ring n
    let poisoned : Bool := s.poison.contains (hdmLocal (0x1000000 + 8 * n))
    (poisoned = true → Answers (.doorbellWrite n v 0x0F) s (fun t => t.hub.rings = s.hub.rings ∧ t.hub.pkts = s.hub.pkts ∧
      t.hub.tasks = s.hub.tasks ∧ t.clusters = s.clusters ∧ t.jobs = s.jobs ∧ t.hub.served = some ([], false))) ∧
    (poisoned = false → sub32 (fld v 31 0) r.tailSeen ≤ 2 ^ 31 → sub32 (fld v 31 0) r.released ≤ r.slots →
      Answers (.doorbellWrite n v 0x0F) s (fun t => t.hub.ring n = { r with tailSeen := fld v 31 0 } ∧ t.hub.pkts = s.hub.pkts ∧
        t.hub.tasks = s.hub.tasks ∧ t.clusters = s.clusters ∧ t.jobs = s.jobs ∧ t.hub.served = some ([], false))) ∧
    (poisoned = false → 2 ^ 31 < sub32 (fld v 31 0) r.tailSeen ∨ r.slots < sub32 (fld v 31 0) r.released →
      Answers (.doorbellWrite n v 0x0F) s (fun t => t.hub.ring n = { r with overrun := true, dbErrs := satAdd 32 r.dbErrs 1 } ∧
        t.hub.pkts = s.hub.pkts ∧ t.hub.tasks = s.hub.tasks ∧ t.clusters = s.clusters ∧ t.jobs = s.jobs))

/-- Intake takes the next packet of the first ring that can start: a packet for this module that passes every check is taken with
the next packet number, and HEAD advances over its slot; nothing of it has been executed yet (R449, R454). -/
def Obligations.IntakeTakesOnePacket : Prop :=
  ∀ (s : State) (n : Nat), s.hostUp = true → s.start.edgeUp .host = true → s.hub.intakeOrder.find? s.canStart = some n →
    s.intakeFail n (s.nextPkt n) = none → s.intakeBar (s.nextPkt n) = none → (s.nextPkt n).dst = s.me → (s.hub.ring n).st = .opened →
    Answers .packetIntake s (fun t =>
      t.hub.pkts = s.hub.pkts ++ [s.nextPkt n] ∧ t.hub.nextPid = s.hub.nextPid + 1 ∧
      t.hub.ring n = { s.hub.ring n with head := ((s.hub.ring n).head + 1) % 2 ^ 32 } ∧
      t = { s with hub := t.hub, ctr := t.ctr } ∧ t.hub.tasks = s.hub.tasks)

/-- MEM_RD of a line of memory that can be reached, without poison or a new error, serves its 64 bytes, of a control block its
words, of a reserved range zeros; MEM_INV serves a completion; MEM_SPEC_RD changes nothing, and FLR configuration space alone, but
for the decoder. None of them changes memory (R438 to R441). A host write of a plain line whose page does not move and can be
reached, and none of whose bits is kept from software, writes exactly its enabled bytes; every other byte of memory reads as
before. A write to a control block or a reserved range writes nothing (R438, R440). LINK_RESET retrains the link at the widest of
x16, x8 on lanes 0 to 7 and x4 on lanes 0 to 3 whose lanes all pass, or leaves it down with LINK_FAIL set, and returns
configuration space to its defaults; CXL_RESET leaves no ring of a job context open, and waits while a task of one applies a
restore. Neither changes the host edge's other state: jobs stay loaded (R289, R436, R439). -/
def Obligations.HostRequestsAreServed : Prop :=
  (∀ (s : State) (off : Nat), s.hostUp = true → off < hdmBytes → off % 64 = 0 →
     ((windowAt off = .plain ∨ windowAt off = .doorbell) → s.reaches [⟨hdmLocal off, 64, false⟩] = true → (∀ w ∈ s.poison, ¬ (hdmLocal off ≤ w ∧ w < hdmLocal off + 64)) →
       Answers (.memRd off Ev.none) s (fun t => t.hub.served = some (s.readHdm off 64, false) ∧
         t = { s with hub := { s.hub with served := t.hub.served }, ctr := t.ctr })) ∧
     (∀ n, windowAt off = .block n → Answers (.memRd off Ev.none) s (fun t =>
       t.hub.served = some (bytesOfWords (s.hub.ring n).block, false) ∧ t = { s with hub := { s.hub with served := t.hub.served } })) ∧
     (windowAt off = .reserved → exec (.memRd off Ev.none) s = .next { s with hub := { s.hub with served := some (List.replicate 64 0, false) } }) ∧
     exec (.memInv off) s = .next { s with hub := { s.hub with served := some ([], false) } } ∧
     exec (.memSpecRd off) s = .next s ∧
     exec .flr s = .next { s with hub := { s.hub with
       link := { s.hub.link with space := { CfgSpace.default with decoder := s.hub.link.space.decoder } } } }) ∧
  (∀ (s : State) (off : Nat) (bytes : List Byte) (en : List Bool), Cells.wf s.mem = true → s.hostUp = true → off < hdmBytes → off % 64 = 0 →
     bytes.length = 64 → en.length = 64 →
     (windowAt off = .plain → s.pages.moving (pageOf (hdmLocal off)) = false → s.stackUp (pageOf (hdmLocal off)) = true →
       (∀ k, k < 8 → s.softMask (hdmLocal off + 8 * k) = none) →
       Answers (.memWr off bytes en false) s (fun t =>
         (∀ i, i < 64 → Cells.byte t.mem (hdmLocal (off + i)) =
           if en.getD i false then bytes.getD i 0 else Cells.byte s.mem (hdmLocal (off + i))) ∧
         SameBytes s t [(hdmLocal off, 64)] ∧ t.hub = { s.hub with served := some ([], false) } ∧ t.clusters = s.clusters ∧ t.pages = s.pages)) ∧
     (windowAt off ≠ .doorbell → windowAt off ≠ .plain →
       exec (.memWr off bytes en false) s = .next { s with hub := { s.hub with served := some ([], false) } })) ∧
  (∀ (s : State) (lanes speed : Nat) (ide : Bool), s.hostUp = true →
     let all (n : Nat) : Prop := ∀ i, i < n → lanes.testBit i = true
     Answers (.linkReset lanes speed ide) s (fun t =>
       (all 16 → t.hub.link.width = 3) ∧ (¬ all 16 → all 8 → t.hub.link.width = 2) ∧ (¬ all 8 → all 4 → t.hub.link.width = 1) ∧
       (¬ all 4 → t.hub.link.width = 0) ∧ (t.pwr.linkFail = true ↔ t.hub.link.width = 0) ∧ t.hub.link.space = CfgSpace.default ∧
       Edge.host ∉ t.start.stopped ∧ t.mem = s.mem ∧ t.clusters = s.clusters ∧ t.hub.rings = s.hub.rings ∧ t.hub.tasks = s.hub.tasks) ∧
     (s.contexts.any s.restoringIn = true → exec .cxlReset s = .next s) ∧
     (s.contexts.any s.restoringIn = false → Answers .cxlReset s (fun t => (∀ n, 64 ≤ n → (t.hub.ring n).st ≠ .opened) ∧ t.jobs = s.jobs)))

/-- A page command for a page of a job outside every window region, backed and not moving, begins a copy to the lowest free frame
of the tier asked for; where the copy has finished, the page's frame is the new one and its bytes are as before; the history keeps
the frame that a fault-driven move has left (R376, R377, R390, R474). A write that waited for a page's move, and meets no bit that
is kept from software, lands when the move is complete, and every other byte reads as before (R377). -/
def Obligations.PageMovesKeepBytes : Prop :=
  (∀ (s : State) (value : Word) (ctx page : Nat) (f : Frame) (m : Move),
     (s.alive = true → bit value 63 = true → bit value 62 = true → page = fld value 51 21 * pageBytes → s.pages.commandedMove = false → inHdm page = false →
       s.windowPage page = false → (∃ c o, placeOf page = .chip c o) → s.pages.backed page = true → s.ownsPage ctx page = true →
       s.pages.moving page = false → s.pages.freeNear (page / chipStride) = some f →
       exec (.memPageCmd value ctx) s = .next { s with pages := { s.pages with moves := s.pages.moves ++ [⟨page, f, true⟩] } }) ∧
     (s.pages.moves.find? (fun x => x.page = page) = some m → s.pages.waiting = [] → s.pages.cmds = [] →
       Answers (.pageMoveComplete page Ev.none) s (fun t => t.pages.frameOf page = some m.dst ∧ t.pages.moving page = false ∧
         (∀ g, g ≠ page → t.pages.frameOf g = s.pages.frameOf g) ∧ (m.commanded = true → t.hist = s.hist) ∧
         (∀ g, m.commanded = false → s.pages.frameOf page = some g → t.hist.moved = s.hist.moved ++ [g]) ∧
         t = { s with pages := t.pages, hist := t.hist }))) ∧
  (∀ (s : State) (page : Nat) (m : Move) (w : HeldWrite), Cells.wf s.mem = true → s.pages.moves = [m] → m.page = page →
     s.pages.waiting = [w] → s.pages.cmds = [] → s.start.stopped = [] → s.start.outEdges = [] →
     (w.who ≠ .hub → ∀ x, x % 8 = 0 → x < w.addr + w.bytes.length → w.addr < x + 8 → s.softMask x = none) →
     Answers (.pageMoveComplete page Ev.none) s (fun t => Cells.read t.mem w.addr w.bytes.length = w.bytes ∧
       SameBytes s t [(w.addr, w.bytes.length)] ∧ t.pages.waiting = [] ∧ t.pages.moves = []))

/-- A frame of HBM that reaches CE_THRESH begins a move to the next frame of its stack's remap pool and is counted, but one of the
system area never moves; a scrub that corrects words counts them against the frame and changes no byte (R370, R390, R391). A word
that a fault has latched stays latched: a later fault only sets FAULT_MULTI (R389). -/
def Obligations.FaultsMoveFramesAndLatch : Prop :=
  (∀ (s : State) (page events k n : Nat) (fixed : List Nat),
     s.pages.frameOf page = some (.hbm k n) →
     (fld s.pages.cfg 31 16 ≤ events → k < 24 → s.pages.poolUsed.length = 24 → s.pages.poolUsed.getD k 0 < poolFrames → s.pages.moving page = false →
       s.pages.cmds = [] → inSys page = false →
       Answers (.faultDrivenMove page events Ev.none) s (fun t =>
         ⟨page, .pool k (s.pages.poolUsed.getD k 0), false⟩ ∈ t.pages.moves ∧ t.pages.poolUsed.getD k 0 = s.pages.poolUsed.getD k 0 + 1 ∧
         t.pages.movesDone = satAdd 16 s.pages.movesDone 1 ∧ t.mem = s.mem ∧ t.hub = s.hub ∧ t.clusters = s.clusters)) ∧
     (inSys page = true → Answers (.faultDrivenMove page events Ev.none) s (fun t => t.pages.moves = s.pages.moves ∧ t.pages.map = s.pages.map)) ∧
     Answers (.scrubRead page fixed Ev.none) s (fun t =>
       t = { s with ctr := t.ctr, pages := { s.pages with ce := t.pages.ce } } ∧
       ((fixed.filter (fun a => pageOf a = page)).length ≠ 0 →
         assoc t.pages.ce (.hbm k n) = some ((assoc s.pages.ce (.hbm k n)).getD 0 + (fixed.filter (fun a => pageOf a = page)).length)))) ∧
  (∀ (p : Pages) (kind : FaultKind) (module addr ctx cluster entry : Nat),
     (bit p.faultSrc 63 = true → p.latch kind module addr ctx cluster entry = { p with faultMulti := true }) ∧
     (bit p.faultSrc 63 = false → module < 4096 → addr < 2 ^ 52 → ctx < 4096 → cluster < 128 → entry < 65536 →
       let q := p.latch kind module addr ctx cluster entry
       bit q.faultSrc 63 = true ∧ fld q.faultSrc 62 60 = kind.code ∧ fld q.faultSrc 59 48 = ctx ∧ fld q.faultSrc 47 41 = cluster ∧
       fld q.faultSrc 40 25 = entry ∧ fld q.faultAddr 63 52 = module ∧ fld q.faultAddr 51 0 = addr / 8 * 8 ∧ q.faultMulti = p.faultMulti))

/-- A packet of its type that the module has taken completes as its rule says: NOP with OK; CTL_READ with the word's value and
CTL_WRITE after the write, where the context may read or write the word, else with DENIED and no effect; an offset that is no
multiple of 8 ends it INVALID, and for the system context a reserved offset reads 0 and discards a write (R15, R443, R455). Only
the system context reaches words that carry no mark: for a job context a write is open to its clusters' words, its solver's words,
page commands and HUB_STATUS alone, and never changes another cluster's configuration; the words of its own cluster that the table
marks as written it may not read, and those that it marks as read it may (R212, R443, R444, R446). -/
def Obligations.ControlPacketsKeepToTheirContext : Prop :=
  (∀ (s : State) (p : Pkt) (r : Reg), s.alive = true → s.hub.pkt p.id = some p →
     (p.type = typeNop → exec (.nopPacket p.id) s = .next (s.endPkt p pktOk 0)) ∧
     (p.type = typeCtlRead → fld p.arg0 19 0 % 8 = 0 → regAt (fld p.arg0 19 0) = some r →
       (s.mayReadReg p.ctx r = true → exec (.ctlRead p.id) s = .next (s.endPkt p pktOk (s.readReg r))) ∧
       (s.mayReadReg p.ctx r = false → exec (.ctlRead p.id) s = .next (s.endPkt p pktDenied 0))) ∧
     (p.type = typeCtlWrite → fld p.arg0 19 0 % 8 = 0 → regAt (fld p.arg0 19 0) = some r →
       (s.mayWriteReg p.ctx r = true → exec (.ctlWritePacket p.id) s = .next ((s.writeReg r p.arg1 p.ctx).endPkt p pktOk 0)) ∧
       (s.mayWriteReg p.ctx r = false → exec (.ctlWritePacket p.id) s = .next (s.endPkt p pktDenied 0))) ∧
     (p.type = typeCtlRead → fld p.arg0 19 0 % 8 ≠ 0 → exec (.ctlRead p.id) s = .next (s.endPkt p pktInvalid 0)) ∧
     (p.type = typeCtlWrite → fld p.arg0 19 0 % 8 ≠ 0 → exec (.ctlWritePacket p.id) s = .next (s.endPkt p pktInvalid 0)) ∧
     (regAt (fld p.arg0 19 0) = none → fld p.arg0 19 0 % 8 = 0 →
       (p.type = typeCtlRead → exec (.ctlRead p.id) s = .next (s.endPkt p (if p.ctx = 0 then pktOk else pktDenied) 0)) ∧
       (p.type = typeCtlWrite → exec (.ctlWritePacket p.id) s = .next (s.endPkt p (if p.ctx = 0 then pktOk else pktDenied) 0)))) ∧
  (∀ (s : State) (ctx l : Nat), ctx ≠ 0 →
     (s.ownsCluster ctx l = true → s.mayWriteReg ctx (.drlCfg l) = true ∧ s.mayWriteReg ctx (.drlCommit l) = true ∧
       s.mayWriteReg ctx (.drlCmd l) = true ∧ s.mayWriteReg ctx (.chnCfg l) = true ∧ s.mayWriteReg ctx (.chnCommit l) = true ∧
       s.mayReadReg ctx (.drlStatus l) = true ∧ s.mayReadReg ctx (.chnStatus l) = true ∧ s.mayReadReg ctx (.topStatus l) = true) ∧
     s.mayReadReg ctx (.drlCfg l) = false ∧ s.mayReadReg ctx (.drlCommit l) = false ∧ s.mayReadReg ctx (.drlCmd l) = false ∧
     s.mayReadReg ctx (.chnCfg l) = false ∧ s.mayReadReg ctx (.chnCommit l) = false ∧
     (s.ownsCluster ctx l = false →
     s.mayWriteReg ctx (.drlCfg l) = false ∧ s.mayWriteReg ctx (.drlCmd l) = false ∧ s.mayWriteReg ctx (.drlCommit l) = false ∧
     s.mayWriteReg ctx (.chnCfg l) = false ∧ s.mayWriteReg ctx (.ctrcWord l 0) = false ∧
     s.mayReadReg ctx (.topStatus l) = false) ∧
     (∀ p, s.mayWriteReg ctx (.hdgPort p) = false ∧ s.mayReadReg ctx (.hdgPort p) = false) ∧ s.mayWriteReg ctx .hubCfg = false ∧
     s.mayWriteReg ctx .pwrCfg = false ∧ s.mayWriteReg ctx .tstCmd = false ∧ s.mayWriteReg ctx .hdgCmd = false ∧
     s.mayWriteReg 0 (.drlCfg l) = true ∧ s.mayReadReg 0 (.drlCfg l) = true)

/-- A DATA packet that is not held, that nothing bars and whose pages can be reached writes its payload at its address and
completes; a held one whose step is in progress or next does so and keeps its slot until the step ends; one whose step has ended
completes with PKT_STATE, and one that is further ahead waits. What lies under the payload reads as the payload where software may
write all of it (R278, R454, R455). A READ packet of a ring copies its source bytes, as a reader of the window sees them, to its
place in the host window; the source stays, and nothing else in memory but the completion changes, where no page of the place
moves and no field of it is read-only (R440, R455). -/
def Obligations.DataAndReadPacketsMoveBytes : Prop :=
  (∀ (s : State) (p : Pkt) (t : Task), s.alive = true → s.hub.pkt p.id = some p → p.type = typeData → s.dataRefusal p = none →
     s.lands p.addr p.pay.length = true →
     (p.hold = false → exec (.data p.id) s = .next ((s.landData p).endPkt p pktOk 0)) ∧
     (p.hold = true → s.pktTask p = some t → t.current ≤ p.step → p.step ≤ t.current + 1 →
       Answers (.data p.id) s (fun u => ⟨p.key, p.step, p, false⟩ ∈ u.hub.held ∧ u.hub.pkt p.id = none ∧
         u = { (s.landData p).endPkt p pktOk 0 (releases := false) with
           hub := { ((s.landData p).endPkt p pktOk 0 (releases := false)).hub with held := u.hub.held } })) ∧
     (p.hold = true → s.pktTask p = some t → p.step < t.current → exec (.data p.id) s = .next (s.endPkt p pktState 0)) ∧
     (p.hold = true → s.pktTask p = some t → t.current + 1 < p.step → exec (.data p.id) s = .next s) ∧
     (Cells.wf s.mem = true → (∀ i < p.pay.length, s.softMask ((p.addr + i) / 8 * 8) = none) →
       Cells.read (s.landData p).mem p.addr p.pay.length = p.pay ∧ SameBytes s (s.landData p) [(p.addr, p.pay.length)])) ∧
  (∀ (s : State) (p : Pkt) (n slot a : Nat), s.alive = true → s.hub.pkt p.id = some p → p.type = typeRead → p.started = false →
     s.readSource p = (a, none) → p.origin = .ring n slot → s.poison = [] → s.reaches [⟨a, p.payLen, false⟩] = true →
     let d := fld p.arg1 51 0
     let bs := s.seen a p.payLen
     exec (.read p.id Ev.none) s = .next ((s.windowStore d bs).endPkt p pktOk 0) ∧
     (Cells.wf s.mem = true → (∀ w ∈ hdmPieces d bs, s.lands w.1 w.2.length = true) →
       (∀ i < p.payLen, s.softMask (hdmLocal (d + i) / 8 * 8) = none) →
       (∀ i < p.payLen, Cells.byte (s.windowStore d bs).mem (hdmLocal (d + i)) = bs.getD i 0) ∧ SameWindow s (s.windowStore d bs) [(d, p.payLen)]))

/-- An UNLOAD with no task of the job running or suspended, no page of it moving and no delta packet of it pending removes the job
with its tasks and records, and every byte of its pages reads zero before the completion is written; it waits while a page of the
job moves; while one runs or is suspended it ends in PKT_STATE and changes nothing else (R375, R394, R467). -/
def Obligations.UnloadZeroesTheFrames : Prop :=
  ∀ (s : State) (p : Pkt) (j : Job), s.alive = true → s.hub.pkt p.id = some p → p.type = typeUnload → s.job p.ctx p.job = some j →
    ((∀ t ∈ s.hub.tasks, t.key.ctx = j.ctx → t.key.job = j.handle → t.st = .idle) →
      (∀ m ∈ s.pages.moves, m.page ∉ j.pages) → (j.sol = none ∨ s.sol.pend = []) →
      exec (.unload p.id) s = .next ((s.dropJob j).endPkt p pktOk 0) ∧
      (s.dropJob j).job j.ctx j.handle = none ∧ (∀ k, k.ctx = j.ctx → k.job = j.handle → (s.dropJob j).hub.task k = none) ∧
      ∀ g ∈ j.pages, ∀ a, g ≤ a → a < g + pageBytes → Cells.byte (s.dropJob j).mem a = 0) ∧
    ((∀ t ∈ s.hub.tasks, t.key.ctx = j.ctx → t.key.job = j.handle → t.st = .idle) → (∃ m ∈ s.pages.moves, m.page ∈ j.pages) →
      exec (.unload p.id) s = .next s) ∧
    ((∃ t ∈ s.hub.tasks, t.key.ctx = j.ctx ∧ t.key.job = j.handle ∧ t.st ≠ .idle) →
      exec (.unload p.id) s = .next (s.endPkt p pktState 0))

/-- A LOAD from a ring of the module that its loader accepts adds the job, with every task at rest at its first step, and
completes once the report is written in the host window; it waits where a stack of its pages cannot be reached; one that the
loader refuses completes with the refusal and loads nothing (R375, R455, R456, R565). -/
def Obligations.LoadIsAllOrNothing : Prop :=
  ∀ (s s' : State) (p : Pkt) (j : Job) (b : Back) (r : Rej) (n slot : Nat), s.alive = true → s.hub.pkt p.id = some p → p.type = typeLoad →
    p.started = false → s.loadBar p.ctx = none → s.job p.ctx p.job = none → p.origin = .ring n slot →
    (s.load p.ctx p.job p.pay = .ok (s', j, b) → fld p.arg0 51 0 % 8 = 0 →
      fld p.arg0 51 0 + (j.reportBytes s.me b).length ≤ hdmBytes → j.param = none →
      (s.isEntry = true → s.windowDenied p.ctx (fld p.arg0 51 0) (j.reportBytes s.me b).length = false) →
      (s'.reaches (j.pages.map (fun g => ⟨g, pageBytes, true⟩)) = false → exec (.load p.id) s = .next s) ∧
      (s'.reaches (j.pages.map (fun g => ⟨g, pageBytes, true⟩)) = true →
        exec (.load p.id) s = .next ((s'.windowStore (fld p.arg0 51 0) (j.reportBytes s.me b)).endPkt p pktOk 0)) ∧
      (s'.job p.ctx p.job).isSome = true ∧ s'.hub.pkts = s.hub.pkts ∧ s'.clusters = s.clusters) ∧
    (s.load p.ctx p.job p.pay = .error r → exec (.load p.id) s = .next (s.endPkt p r.code (r.value s.me)))

/-- A RUN whose clusters are free starts the task on each of them at entry 0 with every counter 0, and marks the packet as
started; one that finds a cluster held ends in PKT_STATE with nothing started (R112, R128, R455). -/
def Obligations.RunStartsEveryCluster : Prop :=
  ∀ (s : State) (p : Pkt) (j : Job) (t : Task) (d : TaskDesc), s.alive = true → s.hub.pkt p.id = some p → p.type = typeRun →
    p.started = false → s.job p.ctx p.job = some j → s.pktTask p = some t → j.tasks[p.task]? = some d → t.st = .idle → bit p.arg0 16 = false →
    s.clusters.length = 128 → (∀ l ∈ j.clusters p.task, l < 128) → t.early = [] →
    ((∀ l ∈ j.clusters p.task, s.clusterFree l = true) → j.isSolver p.task = false →
      Answers (.run p.id) s (fun u =>
        (∀ l ∈ j.clusters p.task, (u.cluster l).drl = Drl.start t.key ∧ (u.cluster l).drl.head = 0 ∧ (u.cluster l).drl.ctrs = List.replicate 64 0) ∧
        (∀ l, l ∉ j.clusters p.task → (u.cluster l).drl = (s.cluster l).drl) ∧
        (∃ v, u.hub.task t.key = some v ∧ v.st = .running ∧ v.step = t.next ∧ v.attempt = 1) ∧
        (∃ q, u.hub.pkt p.id = some q ∧ q.started = true))) ∧
    ((∃ l ∈ j.clusters p.task, s.clusterFree l = false) → exec (.run p.id) s = .next (s.endPkt p pktState 0))

/-- A SUSPEND of a running task asks every cluster of it to stop and waits; a cluster at a boundary, where no migration acts
before it, enters SAVING, and once its words lie in its save slot it becomes idle; the last of them makes the task suspended. A
window that expires lets each stop at its next entry boundary. A RESUME onto a free cluster gives it the state that its slot holds
back (R143, R147, R153). The words of a save slot give back what was saved in it: HEAD, the running count, the generation, the
pending sums and every counter (R145, R147). -/
def Obligations.SuspendSavesAndResumeRestores : Prop :=
  (∀ (s : State) (p : Pkt) (j : Job) (t : Task) (l : Nat), s.alive = true → s.clusters.length = 128 → l < 128 →
     (s.hub.pkt p.id = some p → p.type = typeSuspend → p.started = false → s.job p.ctx p.job = some j → s.pktTask p = some t →
       j.isSolver t.key.task = false → t.lender = none → t.st = .running → (s.cluster l).drl.holder = some t.key →
       Answers (.suspend p.id) s (fun u => (u.cluster l).drl = { (s.cluster l).drl with suspendReq := true } ∧
         (∃ v, u.hub.task t.key = some v ∧ v.st = .suspending) ∧ u.mem = s.mem ∧ u.jobs = s.jobs)) ∧
     ((s.cluster l).drl.holder = some t.key → (s.cluster l).drl.suspendReq = true → (s.cluster l).under = none →
       s.mayStop l (s.cluster l).drl.suspendForce = true → (s.cluster l).migDue = false →
       exec (.suspendAtBoundary l) s = .next (s.updDrl l (fun d => { d with st := .saving, back := d.st }))) ∧
     ((s.cluster l).drl.holder = some t.key → (s.cluster l).drl.st = .saving → s.hub.task t.key = some t → t.st = .suspending →
       Cells.wf s.mem = true →
       Answers (.suspendAtBoundary l) s (fun u => (u.cluster l).drl = Drl.idle ∧ (∀ k, k ≠ l → u.cluster k = s.cluster k) ∧
         (∃ v x, u.hub.task t.key = some v ∧ x ∈ v.saved ∧ x.cluster = l ∧ x.drl.ctrs = (s.cluster l).drl.ctrs ∧ x.drl.head = (s.cluster l).drl.head ∧
           (s.holders t.key = [l] → v.st = .suspended)))) ∧
     (s.hub.task t.key = some t → t.st = .suspending → (s.cluster l).drl.holder = some t.key →
       Answers (.suspendWinExpiry t.key) s (fun u => (u.cluster l).drl = { (s.cluster l).drl with suspendForce := (s.cluster l).drl.suspendReq } ∧
         u = { s with clusters := u.clusters })) ∧
     (∀ x : Saved, s.hub.pkt p.id = some p → p.type = typeResume → p.started = false → s.pktTask p = some t → t.st = .suspended →
       t.saved = [x] → s.clusterFree x.cluster = true → x.cluster < 128 →
       let ws := s.slotWords' t.key x.cluster
       Answers (.resume p.id) s (fun u => (u.cluster x.cluster).drl = x.drl.ofWords ws ∧
         (u.cluster x.cluster).cfg = wordAt ws 3 &&& drlCfgMask ∧ (u.cluster x.cluster).shadow = wordAt ws 4 &&& drlCfgMask ∧
         SameClusters s u x.cluster ∧
         (∃ v, u.hub.task t.key = some v ∧ v.st = .running ∧ v.saved = [] ∧ v.step = (wordAt ws 1).toNat) ∧ u.jobs = s.jobs))) ∧
  (∀ (d : Drl) (step : Nat) (full : Bool) (cfg shadow : Word), d.head < 2 ^ 64 → d.iter < 2 ^ 24 → d.pend.length ≤ 16 →
     (∀ q ∈ d.pend, q.1 < 64 ∧ q.2 < 2 ^ 32) → d.ctrs.length = 64 → (∀ c ∈ d.ctrs, c < 2 ^ 64) →
     d.ofWords (d.saveWords step full cfg shadow) = d)

/-- A migration that is due gives the logical number to the chiplet's spare. An idle cluster moves at once, its stores reading
zero there; one that runs stops at a migratable boundary, or once it is forced at any entry boundary, and enters MIGRATING; then
the spare takes its place, with the stores where the boundary is not a migratable one, which counts as forced, and goes on as the
cluster did. An idle cluster that is due for Tune-up does not move, and one that runs gives the migration up without a usable
spare, with the pause that it had put off taking effect. No other cluster, no job and no task changes (R145, R146, R153, R500,
R504). -/
def Obligations.MigrationsMoveTheCluster : Prop :=
  ∀ (s : State) (l p q : Nat) (c : Instr) (k : TaskKey), l < 128 → s.clusters.length = 128 → s.start.pcl.length = 136 →
    c = .migration l ∨ c = .forcedMigration l → (s.cluster l).migDue = true → s.start.phys l = some p →
    let moved (t : State) : Prop := (t.start.cluster q).logical = some l ∧ (t.start.cluster p).logical = none ∧ (t.start.cluster p).out = true ∧
      (t.cluster l).migDue = false ∧ t.hist.rotations = satAdd 12 s.hist.rotations 1 ∧ SameClusters s t l ∧ t.hub = s.hub ∧ t.jobs = s.jobs
    let zeroed (t : State) : Prop := (∀ a, storeBase + l * storeStride ≤ a → a < storeBase + (l + 1) * storeStride → Cells.byte t.mem a = 0) ∧
      SameBytes s t [(storeBase + l * storeStride, storeStride)]
    (s.idleAt l = true → (s.start.cluster p).due = true → Answers c s (fun t =>
      t = { s with clusters := t.clusters } ∧ (t.cluster l).migDue = false ∧ SameClusters s t l ∧
        ((s.cluster l).drl.st ≠ .migrating → (s.cluster l).drl.pauseReq = false → (t.cluster l).drl = (s.cluster l).drl))) ∧
    (s.start.spareOf (p / 17) = none → (s.start.cluster p).due = true → (s.cluster l).drl.holder = some k → (s.cluster l).drl.st = .running →
      s.mayStop l (c == .forcedMigration l || (s.cluster l).migForce) = true → (s.cluster l).drl.pauseReq = true →
      (s.cluster l).drl.suspendReq = false → Answers c s (fun t =>
        t = { s with clusters := t.clusters } ∧ (t.cluster l).migDue = false ∧ SameClusters s t l ∧
        (t.cluster l).drl = { (s.cluster l).drl with st := .paused, pauseReq := false })) ∧
    (s.start.spareOf (p / 17) = some q → p ≠ q →
      (s.idleAt l = true → (s.start.cluster p).due = false → Answers c s (fun t => moved t ∧ zeroed t ∧ t.hist.forced = s.hist.forced)) ∧
      ((s.cluster l).drl.holder = some k → s.mayStop l (c == .forcedMigration l || (s.cluster l).migForce) = true → Answers c s (fun t =>
        (t.cluster l).drl = { (s.cluster l).drl with st := .migrating, back := (s.cluster l).drl.st } ∧ SameClusters s t l ∧
        t = { s with clusters := t.clusters })) ∧
      ((s.cluster l).drl.holder = some k → (s.cluster l).drl.st = .migrating → (s.cluster l).drl.pauseReq = false → Answers c s (fun t =>
        moved t ∧ (t.cluster l).drl = { (s.cluster l).drl with st := (s.cluster l).drl.back } ∧
        ((s.start.cluster p).due = true → (t.start.cluster p).tuning = true ∧ (t.start.cluster p).was = some l) ∧
        ((s.cluster l).drl.atBoundary (s.entriesOf l (s.cluster l).drl) false = true → zeroed t ∧ t.hist.forced = s.hist.forced) ∧
        ((s.cluster l).drl.atBoundary (s.entriesOf l (s.cluster l).drl) false = false →
          t.mem = s.mem ∧ t.hist.forced = satAdd 12 s.hist.forced 1))))

/-- RING_OPEN opens a closed ring whose geometry is valid and whose buffers meet nothing, with the geometry its payload gives;
RING_CLOSE of another, empty ring closes it at once (R441, R447, R455). A CONTEXT_RESET on a module that is no entry module ends
every task of the context, drops its streams and restores, and completes; tasks of other contexts go on; while a task of the
context applies a restore outcome it waits (R289, R515). -/
def Obligations.RingsAndContextsClose : Prop :=
  (∀ (s : State) (p : Pkt) (r : Ring), s.alive = true → s.hub.pkt p.id = some p → s.isEntry = true → fld p.arg0 17 0 ≠ 0 →
     (p.type = typeRingOpen → ringOf p.pay = some r → s.buffersMeet (fld p.arg0 17 0) r = false → (s.hub.ring (fld p.arg0 17 0)).st = .closed →
       exec (.ringOpen p.id) s = .next (({ s with hub := s.hub.setRing (fld p.arg0 17 0) r } : State).endPkt p pktOk 0) ∧ r.st = .opened) ∧
     (p.type = typeRingClose → p.started = false → (∀ k i, p.origin = .ring k i → k ≠ fld p.arg0 17 0) →
       (s.hub.ring (fld p.arg0 17 0)).st = .opened → (s.hub.ring (fld p.arg0 17 0)).released = (s.hub.ring (fld p.arg0 17 0)).tailSeen →
       (s.hub.ring (fld p.arg0 17 0)).waiting = [] →
       Answers (.ringClose p.id) s (fun u => (u.hub.ring (fld p.arg0 17 0)).st = .closed ∧ u.hub.pkt p.id = none ∧ u.jobs = s.jobs ∧ u.clusters = s.clusters))) ∧
  (∀ (s : State) (p : Pkt), s.alive = true → s.hub.pkt p.id = some p → p.type = typeContextReset → p.started = false → fld p.arg0 11 0 ≠ 0 →
     s.isEntry = false →
     (s.restoringIn (fld p.arg0 11 0) = true → exec (.contextReset p.id) s = .next s) ∧
     (s.restoringIn (fld p.arg0 11 0) = false → Answers (.contextReset p.id) s (fun u =>
       (∀ k t, k.ctx = fld p.arg0 11 0 → u.hub.task k = some t → t.st = .idle) ∧
       (∀ k, k.ctx ≠ fld p.arg0 11 0 → u.hub.task k = s.hub.task k) ∧
       (∀ x ∈ u.hub.streams, x.ctx ≠ fld p.arg0 11 0) ∧ (∀ x ∈ u.hub.restores, x.key.ctx ≠ fld p.arg0 11 0) ∧ u.jobs = s.jobs)))

/-- An FW_IMAGE for the module alone that verifies, while no other image is in STAGE, is installed as its kind's image, in a
module whose flash edge runs: VALID is cleared, the copy programmed and compared with STAGE by digest, and VALID set; it completes
with one target. One that does not read back as it is in STAGE leaves VALID clear and ends with PKT_STATE (the model's status, log
20); one that fails to verify completes with the refusal, kept as the last code, and installs nothing (R476, R478, R493). A module
of a broadcast stages a new chunk at its place and sends it on to its children; one without children acknowledges it to its
parent. The last acknowledge of a chunk passes up, or makes room at rank 0, and a module that holds the whole image is done with
its last one (R430). -/
def Obligations.ImagesTravelAndInstall : Prop :=
  (∀ (s : State) (p : Pkt) (img : ImageIn) (c : Nat), s.alive = true → s.hub.pkt p.id = some p → p.type = typeFwImage → fld p.arg0 1 0 = 0 →
     s.fab.bcast = none →
     let i := imageOf img p.pay
     let f : Flash := { s.start.flash with staged := p.pay }
     let with' (f : Flash) : State := { s with start := { s.start with flash := f } }
     let copy := (f.clearValid i.kind).program i.kind i img.wrong
     (f.verify i.kind i = none → s.start.edgeUp .flash = true →
       (img.wrong = [] → s.start.stage = .ready → s.start.flash.parts.length = 4 →
         exec (.fwImage p.id img) s = .next ((with' (copy.confirm i.kind)).endPkt p pktOk (mkFld 31 0 1)) ∧ (copy.confirm i.kind).valid i.kind = true ∧
         (∀ q, (copy.confirm i.kind).parts[i.kind - 1]? = some q → q.read = i) ∧
         (∀ k, k ≠ i.kind - 1 → (copy.confirm i.kind).parts[k]? = s.start.flash.parts[k]?)) ∧
       ((copy.confirm i.kind).valid i.kind = false →
         exec (.fwImage p.id img) s = .next ((with' (copy.confirm i.kind)).endPkt p pktState (mkFld 63 32 1)))) ∧
     (f.verify i.kind i = some c →
       exec (.fwImage p.id img) s = .next (({ s with start := { s.start with flash := f, lastCode := c } } : State).endPkt p c (mkFld 63 32 1)))) ∧
  (∀ (s : State) (rx : Rx) (b : Broadcast) (chunk : Nat) (bytes : List Byte) (img : ImageIn), s.hears rx = true → s.fab.bcast = some b →
     let r := b.targets.findIdx (· = s.me)
     let kids := (fwChildren b.targets.length r).filterMap (fun k => b.targets[k]?)
     let put : Flash := s.start.flash.stagePut (4096 * chunk) bytes
     (chunk ∉ b.held → ({ s with start := { s.start with flash := put } } : State).staged { b with held := b.held ++ [chunk] } = false →
       Answers (.fwChunk rx b.seq chunk bytes img) s (fun t =>
         (∃ v, t.fab.bcast = some v ∧ v.held = b.held ++ [chunk] ∧ v.targets = b.targets ∧ v.seq = b.seq ∧ v.hall = b.hall) ∧
         (∀ m ∈ kids, t.Queued ⟨m, s.me, 0, b2n b.hall, 0, .fwChunk b.seq chunk bytes⟩) ∧
         (kids = [] → ∀ m, b.targets[fwParent r]? = some m → t.Queued ⟨m, s.me, 0, 0, 0, .fwAck b.seq chunk⟩) ∧
         t = { s with fab := t.fab, ctr := t.ctr, start := { s.start with flash := put } }) ∧
       ∀ i, i < bytes.length → put.staged[4096 * chunk + i]? = bytes[i]?) ∧
     (chunk ∈ b.held → Answers (.fwChunk rx b.seq chunk bytes img) s (fun t => t.fab.bcast = some b ∧ t = { s with fab := t.fab, ctr := t.ctr })) ∧
     (b.waiting = [(chunk, [rx.src])] → r ≠ 0 → Answers (.fwAck rx b.seq chunk) s (fun t =>
       t.fab.bcast = (if s.staged b then none else some { b with waiting := [], acked := b.acked ++ [chunk] }) ∧
       (∀ m, b.targets[fwParent r]? = some m → t.Queued ⟨m, s.me, 0, 0, 0, .fwAck b.seq chunk⟩) ∧ t = { s with fab := t.fab, ctr := t.ctr })) ∧
     (b.waiting = [(chunk, [rx.src])] → r = 0 →
       let u : State := { s.received rx (.fwAck b.seq chunk) with
         fab := { (s.received rx (.fwAck b.seq chunk)).fab with bcast := some { b with waiting := [], acked := b.acked ++ [chunk] } } }
       exec (.fwAck rx b.seq chunk) s = .next ((match s.fwPay with | some pay => u.fwSend pay | none => u).portDone rx (.fwAck b.seq chunk))))

/-- Of the four requests a DOE sender of the host link gets its answer where nothing waits: the identity, the record without a
signature, a signed record with the index raised by one, or the budget; where requests wait before it, it waits its turn. A
signature is refused once all 65,536 are used, and an ATTEST packet that waits behind nothing is answered in the host window
(R462, R464, R465, R467). -/
def Obligations.AttestationAnswers : Prop :=
  ∀ (s : State) (nonce : List Byte) (secs : Nat), s.alive = true → s.start.stage ≠ .minimal → s.hostUp = true →
    (s.hub.mail.queue = [] →
    Answers (.getIdentity true) s (fun t => t.hub.served = some (s.attIdentity, false) ∧ t = { s with hub := { s.hub with served := t.hub.served } }) ∧
    Answers (.getMeasurements true) s (fun t => t.hub.served = some (s.attRecord 0xFFFFFFFF [], false) ∧
      t = { s with hub := { s.hub with served := t.hub.served } }) ∧
    Answers (.getBudget true) s (fun t => (∃ bs, t.hub.served = some (bs, false) ∧ bs.length = 8 ∧
        (s.start.flash.xidx ≤ 65536 → ofLeBytes (bs.take 4) = s.start.flash.xidx ∧ ofLeBytes (bs.drop 4) = 65536 - s.start.flash.xidx)) ∧
      t = { s with hub := { s.hub with served := t.hub.served } }) ∧
    (s.start.flash.xidx < 65536 → s.hub.mail.signed = false ∨ fld s.hub.cfg 15 0 ≤ secs → s.start.edgeUp .flash = true →
      Answers (.attestRequest true nonce secs true) s (fun t => t.start.flash.xidx = s.start.flash.xidx + 1 ∧ t.hub.mail.signed = true ∧
        (∃ sig, t.hub.served = some (s.attRecord s.start.flash.xidx (nonce.take 32) ++ sig, false) ∧ sig.length = 2692) ∧ t.mem = s.mem)) ∧
    (65536 ≤ s.start.flash.xidx → Answers (.attestRequest true nonce secs true) s (fun t => t.hub.served = some ([], false) ∧ t.start = s.start)) ∧
    (∀ (p : Pkt) (n slot : Nat), s.hub.pkt p.id = some p → p.type = typeAttest → p.started = false → p.pay.headD 0 = 4 → p.origin = .ring n slot →
      fld p.arg0 51 0 + 8 ≤ hdmBytes →
      Answers (.attest p.id secs true) s (fun t => t.hub.pkt p.id = none ∧ t.hub.mail.queue = [] ∧ t.start = s.start ∧ t.jobs = s.jobs))) ∧
    (∀ f q rest, s.hub.mail.queue = (f, q) :: rest → f ≠ .doe →
      exec (.getBudget true) s = .next { s with hub := { s.hub with mail := { s.hub.mail with queue := s.hub.mail.queue ++ [(.doe, [4])] } } })

/-- In an issue decision of a cluster whose rail is on the Derailleur issues the lowest-numbered ready entry of its window, and
one entry only, unless issue gating holds the stroke back; with no entry ready, or on a stroke held back, only counts of strokes
change (R124, R556). -/
def Obligations.LowestReadyEntryIssues : Prop :=
  ∀ (s : State) (l : Nat) (k : Deck), l < 128 → s.clusters.length = 128 → s.clusterOn l = true → s.deck l = some k →
    (∀ (i : Nat) (e : Entry), s.nextIssue l k = some i → k.entry i = some e →
      i ∈ k.window ∧ s.ready l k i = true ∧ (∀ b, s.stopAt l k = some b → i < b) ∧
      (∀ j ∈ k.window, s.ready l k j = true → (∀ b, s.stopAt l k = some b → j < b) → i ≤ j) ∧
      (s.pwr.gate ≤ (s.cluster l).strokes + 1 →
        (e.op ≠ .nop → e.op ≠ .fence → Answers (.issueDecision l) s (fun t =>
          (t.cluster l).drl.flights = (s.cluster l).drl.flights ++ [s.flightOf l k i e] ∧ (t.cluster l).drl.ctrs = (s.cluster l).drl.ctrs ∧
          (t.cluster l).drl.issued i = true ∧ (t.cluster l).strokes = 0 ∧ SameClusters s t l ∧ t.hub = s.hub ∧ t.jobs = s.jobs ∧
          ((s.flightOf l k i e).tag = none → t.mem = s.mem))) ∧
        (e.op = .nop ∨ e.op = .fence → e.sigOn = false → Answers (.issueDecision l) s (fun t =>
          (t.cluster l).drl.flights = (s.cluster l).drl.flights.filter (fun f => f.idx ≠ i) ∧ (t.cluster l).drl.ctrs = (s.cluster l).drl.ctrs ∧
          (t.cluster l).drl.issued i = true ∧ SameClusters s t l ∧ t.hub = s.hub ∧ t.jobs = s.jobs)))) ∧
    (s.nextIssue l k = none ∨ (s.cluster l).strokes + 1 < s.pwr.gate → Answers (.issueDecision l) s (fun t =>
      (t.cluster l).drl = (s.cluster l).drl ∧ (t.cluster l).strokes = min 63 ((s.cluster l).strokes + 1) ∧ SameClusters s t l ∧
      t = { s with clusters := t.clusters }))

/-- An untagged entry whose work is done completes: it leaves the entries in flight and, with SIG_ON, its counter rises by one; no
other counter, no other cluster and no byte of memory changes. A completion of an entry that its cluster no longer runs counts as
late where an expired window had guarded it, and the last one that an ABORTING cluster waits for leaves it IDLE (R99, R126, R129,
R143, R152). -/
def Obligations.EntriesCompleteAndSignal : Prop :=
  ∀ (s : State) (l idx : Nat) (x : Site) (o : Odo), l < 128 → s.clusters.length = 128 →
    (s.site l idx = none → Answers (.entryComplete l idx) s (fun t =>
      ((s.cluster l).drl.st ≠ .aborting → (t.cluster l).drl = (s.cluster l).drl) ∧
      ((s.cluster l).drl.st = .aborting → (∀ f ∈ (s.cluster l).drl.flights, f.idx = idx) → (t.cluster l).drl = Drl.idle) ∧
      ((s.cluster l).gone = [(o, some idx)] → (t.cluster l).gone = [] ∧
        assoc (t.cluster l).late o = some ((assoc (s.cluster l).late o).getD 0 + 1)) ∧
      SameClusters s t l ∧ t.mem = s.mem ∧ t.hub = s.hub ∧ t.jobs = s.jobs)) ∧
    (s.site l idx = some x → s.finished x = true → x.traps = false → x.f.tag = none → (x.e.sigOn = true → (s.cluster l).drl.ctrs.getD x.e.sigCtr 0 + 1 < 2 ^ 24) →
    Answers (.entryComplete l idx) s (fun t => (t.cluster l).drl.flight idx = none ∧
      (t.cluster l).drl.ctrs = (if x.e.sigOn then (s.cluster l).drl.ctrs.set x.e.sigCtr ((s.cluster l).drl.ctrs.getD x.e.sigCtr 0 + 1)
        else (s.cluster l).drl.ctrs) ∧
      SameClusters s t l ∧ t.mem = s.mem ∧ t.hub = s.hub ∧ t.jobs = s.jobs))

/-- A SIGNAL to a cluster of this module sends one message with the sender's generation and waits for its answer; one that was
answered BUSY is sent again as it was (R129, R131). A signal that arrives for the target's generation adds INC to the counter and
is acknowledged; for the next generation it is held while the buffer of 16 has room, and answered BUSY when it is full (R130,
R131). -/
def Obligations.SignalsReachTheirCounters : Prop :=
  (∀ (s : State) (l idx tag : Nat) (x : Site) (r : Req), l < 128 → s.clusters.length = 128 →
     (s.todo l idx .signal = some x → s.freeTag l = some tag → fld x.e.w2 63 52 = s.me →
       let m : Msg := ⟨s.me, s.me, x.key.ctx, tag, l, .signal (fld x.e.w2 44 38) (fld x.e.w2 37 32) (s.cluster l).drl.gen (fld x.e.w3 23 0)⟩
       Answers (.signal l idx) s (fun t => t.fab.sent = s.fab.sent ++ [(none, m)] ∧
         (t.cluster l).drl.reqs = (s.cluster l).drl.reqs ++ [⟨tag, some x.f.idx, m, false, []⟩] ∧
         (∀ f ∈ (t.cluster l).drl.flights, f.idx = x.f.idx → f.work = .requests) ∧ (t.cluster l).drl.ctrs = (s.cluster l).drl.ctrs ∧
         SameClusters s t l ∧ t.mem = s.mem ∧ t.hub = s.hub)) ∧
     ((s.cluster l).drl.reqs.find? (fun q => q.tag = tag ∧ q.busy = true) = some r → r.msg.dst = s.me →
       Answers (.signalResend l tag) s (fun t => t.fab.sent = s.fab.sent ++ [(none, r.msg)] ∧
         (∀ q ∈ (t.cluster l).drl.reqs, q.tag = tag → q.busy = false) ∧ SameClusters s t l ∧ t.mem = s.mem ∧ t.hub = s.hub))) ∧
  (∀ (s : State) (rx : Rx) (l ctr inc : Nat) (gen : Bool) (k : TaskKey), rx.port = none → s.hears rx = true → s.clusters.length = 128 →
     l < 128 → ctr < 64 → inc < 2 ^ 24 → s.barred rx.ctx = false → s.sigKey rx l = some k → (s.cluster l).drl.holder = some k →
     (s.cluster l).drl.ctrs.length = 64 →
     (gen = (s.cluster l).drl.gen → (s.cluster l).drl.ctrs.getD ctr 0 + inc < 2 ^ 24 →
       Answers (.signalMessage rx l ctr gen inc) s (fun t =>
         (t.cluster l).drl.ctrs.getD ctr 0 = (s.cluster l).drl.ctrs.getD ctr 0 + inc ∧
         (∀ c, c ≠ ctr → (t.cluster l).drl.ctrs.getD c 0 = (s.cluster l).drl.ctrs.getD c 0) ∧
         t.fab.sent = s.fab.sent ++ [(none, ⟨rx.src, s.me, rx.ctx, rx.tag, rx.scl, .ack 0 none⟩)] ∧ SameClusters s t l ∧ t.mem = s.mem)) ∧
     (gen ≠ (s.cluster l).drl.gen → (s.cluster l).drl.pend.length < 16 →
       Answers (.signalMessage rx l ctr gen inc) s (fun t =>
         (t.cluster l).drl.pend = (s.cluster l).drl.pend ++ [(ctr, inc)] ∧ (t.cluster l).drl.ctrs = (s.cluster l).drl.ctrs ∧ SameClusters s t l ∧
         t.fab.sent = s.fab.sent ++ [(none, ⟨rx.src, s.me, rx.ctx, rx.tag, rx.scl, .ack 0 none⟩)] ∧ t.mem = s.mem)) ∧
     (gen ≠ (s.cluster l).drl.gen → 16 ≤ (s.cluster l).drl.pend.length →
       Answers (.signalMessage rx l ctr gen inc) s (fun t => t.clusters = s.clusters ∧
         t.fab.sent = s.fab.sent ++ [(none, ⟨rx.src, s.me, rx.ctx, rx.tag, rx.scl, .nack 0 nackBusy⟩)])) ∧
     (gen = (s.cluster l).drl.gen → 2 ^ 24 ≤ (s.cluster l).drl.ctrs.getD ctr 0 + inc →
       exec (.signalMessage rx l ctr gen inc) s = .next (s.abortTask k statusSignalOverflow)))

/-- A CTL_WRITE entry writes its word as its context and is done, and no other entry issues until it has (R142); an ITER_END
leaves its iteration on convergence, count or deadline and else goes back to TARGET with the counters it names at 0 and the
iteration number raised (R133). When the one cluster of a task on this module reaches HALT with no other entry in flight the
cluster is idle again, the task is at rest, and its next RUN starts at its first step; other tasks and the jobs stay (R138, R455).
-/
def Obligations.ControlEntriesActAndHaltEnds : Prop :=
  (∀ (s : State) (l idx : Nat) (x : Site) (k : Deck) (r : Reg), l < 128 → s.clusters.length = 128 →
     (s.todo l idx .ctlWrite = some x → regAt (fld x.e.w2 31 0) = some r →
       exec (.ctlWrite l idx) s = .next ((s.writeReg r x.e.w3 x.key.ctx).workDone x)) ∧
     (s.deck l = some k → (∃ f ∈ k.d.flights, f.work = .todo ∧ ∃ e, k.entry f.idx = some e ∧ e.op = .ctlWrite) → s.nextIssue l k = none) ∧
     (s.todo l idx .iterEnd = some x → s.deck l = some k → k.sol = [] → x.f.tag = none → x.e.sigOn = false →
       let dl : Bool := match s.hub.task x.key with | some t => t.expired | none => false
       (k.d.exits x.e dl = true → Answers (.iterEnd l idx) s (fun t => (t.cluster l).drl.iter = 1 ∧ (t.cluster l).drl.head = (s.cluster l).drl.head ∧
         (t.cluster l).drl.ctrs = (s.cluster l).drl.ctrs ∧ (t.cluster l).drl.flight idx = none ∧ SameClusters s t l ∧ t.mem = s.mem)) ∧
       (k.d.exits x.e dl = false → Answers (.iterEnd l idx) s (fun t => (t.cluster l).drl.iter = (s.cluster l).drl.iter + 1 ∧
         (t.cluster l).drl.head = fld x.e.w2 63 48 ∧
         (∀ c, (t.cluster l).drl.ctrs.getD c 0 = if bit x.e.w3 c then 0 else (s.cluster l).drl.ctrs.getD c 0) ∧
         (t.cluster l).drl.flight idx = none ∧ SameClusters s t l ∧ t.mem = s.mem)))) ∧
  (∀ (s : State) (l idx : Nat) (x : Site) (t : Task), l < 128 → s.clusters.length = 128 → s.todo l idx .halt = some x → x.f.tag = none →
     x.e.sigOn = false → x.job.clusters x.key.task = [l] → x.job.isSolver x.key.task = false → (s.cluster l).under = none → s.hub.task x.key = some t →
     (∀ f ∈ (s.cluster l).drl.flights, f.idx = x.f.idx) →
     Answers (.halt l idx) s (fun u => (u.cluster l).drl = Drl.idle ∧
       (∃ v, u.hub.task x.key = some v ∧ v.st = .idle ∧ v.next = s.stepBase x.key) ∧
       (∀ k, k ≠ x.key → u.hub.task k = s.hub.task k) ∧ u.jobs = s.jobs))

/-- At STEP_END the cluster votes and waits; while another cluster of the task on this module has not voted, nothing more happens.
A VOTE that does not complete the module's subtree is only kept (R137, R272). A decided outcome, of a job that no READ with PAIR
reads, rewinds every cluster of the task: entry 0 next, every counter 0, the generation toggled. A commit or skip with steps left
goes on to the next step as its first attempt; a recompute repeats the step as its next attempt (R137, R273, R274). -/
def Obligations.VotesDecideTheStep : Prop :=
  (∀ (s : State) (l idx m step : Nat) (x : Site) (t : Task) (j : Job) (rx : Rx) (key : TaskKey) (votes : List Vote) (cops : List CopInfo),
     l < 128 → s.clusters.length = 128 →
     (s.todo l idx .stepEnd = some x → x.f.tag = none → x.e.sigOn = false → s.hub.task x.key = some t → m ∈ x.job.clusters x.key.task → m ≠ l →
       (∀ v ∈ t.votes, ¬ (v.module = s.me ∧ v.cluster = m)) →
       Answers (.stepEnd l idx) s (fun u => (u.cluster l).drl.st = .stepWait ∧ (u.cluster l).drl.flight idx = none ∧
         (∃ v, u.hub.task x.key = some v ∧ s.voteOf x ∈ v.votes ∧ v.step = t.step) ∧ SameClusters s u l ∧ u.mem = s.mem ∧ u.fab = s.fab)) ∧
     (rx.port = none → s.hears rx = true → s.hub.task key = some t → s.jobOf key = some j → step = t.current → votes ≠ [] → m ∈ j.clusters key.task →
       (∀ v ∈ t.votes ++ votes, ¬ (v.module = s.me ∧ v.cluster = m)) → (∀ c ∈ t.cops ++ cops, c.module ≠ s.me) →
       Answers (.vote rx key step votes cops) s (fun u =>
         u.hub.task key = some { t with votes := mergeVotes t.votes votes, cops := mergeCops t.cops cops } ∧
         u.clusters = s.clusters ∧ u.mem = s.mem ∧ u.fab = s.fab))) ∧
  (∀ (s : State) (rx : Rx) (key : TaskKey) (o : Outcome) (votes : List Vote) (t : Task) (j : Job) (d : TaskDesc),
     rx.port = none → s.hears rx = true → s.clusters.length = 128 → s.hub.task key = some t → s.jobOf key = some j → j.tasks[key.task]? = some d →
     t.st = .running → t.outcome = none → s.treeKids j = [] → s.hub.held = [] → s.pairRead key = false → (j.clusters key.task).Nodup →
     (∀ l ∈ j.clusters key.task, l < 128 ∧ (s.cluster l).drl.holder = some key ∧ (s.cluster l).drl.pend = [] ∧ (s.cluster l).drl.pauseReq = false) →
     let rewound (u : State) : Prop := ∀ l ∈ j.clusters key.task, (u.cluster l).drl.head = 0 ∧ (u.cluster l).drl.ctrs = List.replicate 64 0 ∧
       (u.cluster l).drl.st = .running ∧ (u.cluster l).drl.gen = !(s.cluster l).drl.gen
     ((o = .commit ∨ o = .skip) → t.done + 1 < d.steps → Answers (.outcome rx key t.step o [] votes) s (fun u => rewound u ∧
       ∃ v, u.hub.task key = some v ∧ v.step = (t.step + 1) % 2 ^ 64 ∧ v.attempt = 1 ∧ v.done = t.done + 1 ∧ v.votes = [])) ∧
     (o = .recompute → Answers (.outcome rx key t.step o [] votes) s (fun u => rewound u ∧
       ∃ v, u.hub.task key = some v ∧ v.step = t.step ∧ v.attempt = t.attempt + 1 ∧ v.votes = [])))

/-- An ABORT for a task that is not at rest leaves none of its clusters with it, ABORTING while entries of it are in flight there
and else IDLE, and the task's next RUN starts at the step that the abort interrupted; other tasks and the jobs stay. While the
task applies a restore outcome, the abort is only kept (R143, R151, R152, R289, R455). The entry window of a running cluster and
the collective window of a waiting task abort the task, the first with a climb at rung 1; a deadline only marks the task where no
entry may be abandoned (R151, R420, R133). A cycle of two active tasks that two scans in a row find ends with the younger task
aborted with STATUS.DEADLOCK and counted, where it applies no restore; the older one goes on (R517). -/
def Obligations.AbortsFreeTheClusters : Prop :=
  (∀ (s : State) (rx : Rx) (key : TaskKey) (status : Nat) (t : Task), rx.port = none → s.hears rx = true → s.hub.task key = some t → t.st ≠ .idle →
     (t.restoring = true → exec (.abort rx key status) s =
       .next (s.updTask key (fun t => { t with abortDue := some (t.abortDue.getD status) }))) ∧
     (t.restoring = false → (∀ l d, (s.cluster l).under = some d → d.holder ≠ some key) →
     Answers (.abort rx key status) s (fun u => (∀ l, l < 128 → (u.cluster l).drl.holder ≠ some key) ∧
       (status ≠ statusContextReset → ∀ l, l < 128 → s.clusters.length = 128 → (s.cluster l).drl.holder = some key → (s.cluster l).under = none →
         ((s.cluster l).drl.flights = [] → (u.cluster l).drl = Drl.idle) ∧
         ((s.cluster l).drl.flights ≠ [] → (u.cluster l).drl.st = .aborting ∧ (u.cluster l).drl.flights = (s.cluster l).drl.flights)) ∧
       (∃ v, u.hub.task key = some v ∧ v.st = .idle ∧ v.next = t.step) ∧ (∀ k, k ≠ key → u.hub.task k = s.hub.task k) ∧ u.jobs = s.jobs))) ∧
  (∀ (s : State) (l : Nat) (key : TaskKey) (t : Task) (o : Nat × Nat) (blocks : List (Nat × Nat)), l < 128 → s.clusters.length = 128 →
     s.hub.task key = some t → t.active = true → t.restoring = false → (s.cluster l).drl.holder = some key →
     let atRest (u : State) : Prop := (∃ v, u.hub.task key = some v ∧ v.st = .idle ∧ v.next = t.step) ∧ u.jobs = s.jobs
     (s.oldest l = some o → (s.cluster l).drl.st = .running → Answers (.entryTimeout l) s (fun u => atRest u ∧ u.hist.lastRung = 1 ∧ u.hist.lastEngine = o.2)) ∧
     (s.groupWaits key l = true → Answers (.collectiveTimeout key) s (fun u => atRest u ∧ u.hist.lastRung = s.hist.lastRung)) ∧
     (t.dlOn = true → t.expired = false → (∀ m, s.abandonable m = []) →
       exec (.deadlineExpiry key blocks) s = .next (s.updTask key (fun t => { t with expired := true })))) ∧
  (∀ (s : State) (j k : TaskKey) (x y : Task), j ≠ k → s.hub.task j = some x → s.hub.task k = some y → x.active = true → y.active = true →
     y.restoring = false → x.order < y.order → s.fab.waiting = [] → (j, k) ∈ s.hist.edges → (k, j) ∈ s.hist.edges →
     Answers (.deadlockScan [(j, k), (k, j)]) s (fun t =>
       t.hub.task j = some x ∧ (∃ z, t.hub.task k = some z ∧ z.st = .idle) ∧ t.hist.deadlocks = satAdd 12 s.hist.deadlocks 1))

/-- A restore within a step begins once the Coppice holds the last committed step, and where its sections do not verify the task
ends with COPPICE_CORRUPT; without a Coppice it ends with REPLICA_DIVERGED. An abort that has waited takes effect once the
sections are verified, with its own status, and the status of one that has come takes the place of the two (R276, R287, R289). A
RESTORE packet of a task at rest whose Coppice holds the step reads the partner's region; one for another step, or for a running
task, ends in PKT_STATE. Once the bytes have come the C tensors are rewritten, and where their digests agree the next RUN starts
after the step; else it ends in COPPICE_CORRUPT (R286, R287). -/
def Obligations.RestoresBeginAndVerify : Prop :=
  (∀ (s : State) (key : TaskKey) (t : Task) (j : Job) (r : StepRec) (p : ParamPlan) (x : Restore) (sus : List (Nat × Nat)) (vs : List Vote),
     s.hub.task key = some t → s.jobOf key = some j → s.hub.srec key.ctx key.job = some r → t.outcome = some (.restore, sus, vs) → j.param = some p →
     (s.hub.restores.find? (fun y => y.key = key) = none → s.hub.copGone.contains (key.ctx, key.job) = false → r.copStep = r.committed →
       exec (.restoreInStep key Ev.none) s = .next (s.beginRestore j p ⟨key, r.committed, false, j.apartHere s.me vs, none, []⟩)) ∧
     (s.hub.restores.find? (fun y => y.key = key) = none → s.hub.copGone.contains (key.ctx, key.job) = true →
       exec (.restoreInStep key Ev.none) s = .next ((s.updTask key (fun t => { t with outcome := none })).abortTask key (t.abortDue.getD statusDiverged))) ∧
     (s.hub.restores.find? (fun y => y.key = key) = some x → s.restoreReady x = true → (s.finishRestore j x).2 = false →
       exec (.restoreInStep key Ev.none) s = .next
         (((s.finishRestore j x).1.updTask key (fun t => { t with outcome := none })).abortTask key (t.abortDue.getD statusCopCorrupt))) ∧
     (∀ status, s.hub.restores.find? (fun y => y.key = key) = some x → s.restoreReady x = true → (s.finishRestore j x).2 = true →
       (∀ q ∈ sus, q.1 ≠ s.me) → t.abortDue = some status →
       exec (.restoreInStep key Ev.none) s = .next (((s.finishRestore j x).1.updTask key (fun t => { t with outcome := none })).abortNow key status))) ∧
  (∀ (s : State) (p : Pkt) (j : Job) (t : Task) (plan : ParamPlan) (r : StepRec), s.alive = true → s.hub.pkt p.id = some p → p.type = typeRestore →
     s.job p.ctx p.job = some j → s.pktTask p = some t → j.param = some plan → s.hub.srec j.ctx j.handle = some r →
     (s.hub.restores.find? (fun x => x.pkt = some p.id) = none →
       (∀ undo, t.st = .idle → plan.coppiceEn = true → r.restorable p.arg0.toNat = some undo →
         Answers (.restore p.id Ev.none) s (fun u => ⟨p.key, p.arg0.toNat, undo, j.copClusters, some p.id, []⟩ ∈ u.hub.restores ∧
           (∃ q, u.hub.pkt p.id = some q ∧ q.started = true) ∧ u.hub.reqs.length = s.hub.reqs.length +
             (j.restoreReads ⟨p.key, p.arg0.toNat, undo, j.copClusters, some p.id, []⟩).length ∧ u.mem = s.mem ∧ u.jobs = s.jobs)) ∧
       (t.st ≠ .idle ∨ plan.coppiceEn = false ∨ r.restorable p.arg0.toNat = none →
         exec (.restore p.id Ev.none) s = .next (s.endPkt p pktState 0))) ∧
     (∀ x, s.hub.restores.find? (fun x => x.pkt = some p.id) = some x → s.restoreReady x = true →
       ((s.finishRestore j x).2 = true → Answers (.restore p.id Ev.none) s (fun u =>
         (∃ v, u.hub.task p.key = some v ∧ v.next = (x.step + 1) % 2 ^ 64 ∧ v.st = t.st) ∧ u.hub.pkt p.id = none)) ∧
       ((s.finishRestore j x).2 = false → exec (.restore p.id Ev.none) s = .next ((s.finishRestore j x).1.endPkt p statusCopCorrupt 0))))

/-- The partner folds a log slot only once it holds the step-end record of every cluster, and COPPICE_STEP of the region then
names the step; before that it changes nothing. A commit that has waited too long loses the Coppice and sends no more of it
(R285). A cluster's difference stream sends its next pair, or at its end the step-end record and leaves. No memory of the module
and no task changes; but where the stream begins to overwrite the log slot of COPPICE_STEP, PREV_VALID ends with it (R282, R284,
R285). -/
def Obligations.CoppiceFollowsTheSteps : Prop :=
  (∀ (s : State) (base baseBytes step clusters : Nat) (recs : List LogRec) (key : TaskKey) (t : Task) (p : ParamPlan) (r : StepRec) (j : Job),
     let n := logBytes baseBytes
     let log := logRecords n (Cells.read s.mem (base + copHeader + baseBytes + step % 2 * n) n)
     (logStep step clusters log = some recs → step < 2 ^ 64 → Cells.wf s.mem = true →
       Answers (.coppiceFold base baseBytes step clusters none) s (fun u => (Cells.word u.mem (base + 8)).toNat = step ∧
         u.hub = s.hub ∧ u.clusters = s.clusters ∧ u.jobs = s.jobs)) ∧
     (logStep step clusters log = none → exec (.coppiceFold base baseBytes step clusters none) s = .next s) ∧
     (s.hub.task key = some t → t.active = true → (∃ c ∈ t.cops, c.module = s.me) → s.jobOf key = some j → j.param = some p → p.coppiceEn = true →
       s.hub.srec key.ctx key.job = some r → r.copStep ≠ r.committed →
       Answers (.coppiceWaitExpiry key) s (fun u => u.hub.copLost = true ∧ u.hub.streams = []))) ∧
  (∀ (s : State) (l : Nat) (ev : Ev) (y : DStream) (j : Job) (p : ParamPlan), l < 128 → s.clusters.length = 128 →
     s.hub.streams.find? (fun y => y.cluster = l) = some y → s.job y.ctx y.job = some j → j.param = some p →
     let passes : Bool := match s.hub.srec j.ctx j.handle with | some r => r.overwrites y.step | none => false
     (y.pairs = [] → passes = true → Answers (.differenceStreamRead l ev) s (fun t => ∃ r, t.hub.srec j.ctx j.handle = some r ∧ r.prevValid = false)) ∧
     (y.pairs = [] → passes = false →
       Answers (.differenceStreamRead l ev) s (fun t => t.hub.streams = s.hub.streams.filter (fun q => q ≠ y) ∧
         t.hub.reqs.length = s.hub.reqs.length + (chunks 4096 (stepEndRecord l y.step y.dc)).length ∧ t.mem = s.mem ∧ t.hub.tasks = s.hub.tasks ∧
         t.jobs = s.jobs)) ∧
     (∀ c u sec rest tc tu, passes = false → y.pairs = (c, u, sec) :: rest → j.tensor? c = some tc → j.tensor? u = some tu →
       firstFault s.pages s.poison ev.bad (some l) (tensorAccesses [tc, tu] []) = none →
       Answers (.differenceStreamRead l ev) s (fun t => t.hub.streams = s.hub.streams.map (fun q => if q = y then { y with pairs := rest } else q) ∧
         t.hub.reqs.length = s.hub.reqs.length + sumNat ((pairRecords s.mem tc tu l sec).map (fun r => (chunks 4096 r).length)) ∧
         t.mem = s.mem ∧ t.hub.tasks = s.hub.tasks ∧ t.jobs = s.jobs)))

/-- MM, MM_TA and MM_TB that find Pannier slots, and whose tiles all pass their row checks, store their outputs, through their
chain, computed from memory as it was, and change nothing else. An output tile that fails its first check leaves the entry in
flight for its retry; with a tile that passed on its retry they go on as well, its charge aside; a tile that fails its retry
enters the ladder and aborts the task; an entry that finds no Pannier slot waits (R159, R164, R171, R174, R177). GRAM_L and GRAM_R
do nothing on a step that is no multiple of STAT_EVERY; on another they add their output tiles to the plane, which is OPEN
afterwards, and change nothing else in memory (R167 to R170, R226, R227). -/
def Obligations.MatrixEntriesRun : Prop :=
  (∀ (s : State) (c : Instr) (op : Opcode) (l idx : Nat) (ev : Ev) (x : Site) (a b d : Tensor) (pan : Pannier), l < 128 → s.clusters.length = 128 →
     (op, c) ∈ [(Opcode.mm, Instr.mm l idx ev), (Opcode.mmTa, Instr.mmTa l idx ev), (Opcode.mmTb, Instr.mmTb l idx ev)] →
     s.todo l idx op = some x → x.opa = some a → x.opb = some b → x.opd = some d →
     let acc := bit x.e.w2 0
     let ch := x.job.chain x.e
     let as := tensorAccesses ([a, b] ++ (if acc then [d] else []) ++ (x.job.chainTensors ch).1) (d :: (x.job.chainTensors ch).2)
     let ts := product op (Mat.ofTensor s.mv a) (Mat.ofTensor s.mv b) (bit x.e.w2 1) (fld x.f.til 4 0) acc
       (fun r k => if acc then d.f32 s.mv r k else 0) (x.f.work.cells ev.cells)
     let outs := (applyChain s.mv x.job x.e.rnd (BitVec.ofNat 64 (s.stepOf x.key)) ch d none (fun r k => (productAt ts d.cols r k).hi)).outs
     let ws := outs.flatMap (fun o => o.2.writes)
     let filled := x.passPannier (bit x.e.w2 1) ts (s.cluster l).pan
     let loaded := (s.counted x ev as).updCluster l (fun c => { c with
       pan := pan, til := c.til.load (otileOwner x.e.mask) (orient op (Mat.ofTensor s.mv a) (Mat.ofTensor s.mv b)).2 ts })
     let after := (loaded.countTiles x [(ts, (productShape op a b).2.2.1)] (strokesPerRow a.fmt) true).chargeOtiles x ts
     s.clear x ev as →
     (filled = none → exec c s = .next (s.counted x ev as)) ∧
     (filled = some pan →
     ((∀ t ∈ ts, t.verdict = .pass) → Answers c s (fun t => WorkDone s t x (Cells.writeAll s.mem ws) (rangesOf ws))) ∧
     (x.retries ts = true → exec c s = .next (loaded.awaitRetry x (x.f.work.cells ev.cells) ts) ∧
       (loaded.awaitRetry x (x.f.work.cells ev.cells) ts).mem = s.mem) ∧
     (x.retries ts = false → (∀ t ∈ ts, t.verdict ≠ .fail) → exec c s = .next (after.productOut x d ch ts)) ∧
     (x.retries ts = false → (∃ t ∈ ts, t.verdict = .fail) → exec c s = .next (after.tileFault x ts)))) ∧
  (∀ (s : State) (c : Instr) (op : Opcode) (l idx : Nat) (ev : Ev) (x : Site) (a : Tensor) (g : Slot), l < 128 → s.clusters.length = 128 →
     (op, c) ∈ [(Opcode.gramL, Instr.gramL l idx ev), (Opcode.gramR, Instr.gramR l idx ev)] →
     s.todo l idx op = some x → x.opa = some a → x.job.slots[fld x.e.w2 15 0]? = some g →
     let as := a.accesses false ++ (if g.planeState s.mem = 1 then [⟨g.plane, g.planeBytes, false⟩] else [])
       ++ [⟨g.plane, g.planeBytes, true⟩, ⟨g.state, 8, true⟩]
     let m := orient op (Mat.ofTensor s.mv a) (Mat.ofTensor s.mv a)
     let outs := g.gramTiles.map (fun t => (t, runGram g s.mem m.1 m.2 (fld x.f.til 14 8) (x.f.work.cells ev.cells) t))
     let ws := outs.flatMap (fun o => g.gramWrites o.1 o.2.1) ++ [g.setWord 0 (setFld (g.word s.mem 0) 63 60 1)]
     (s.stepOf x.key % max 1 g.statEvery ≠ 0 → Answers c s (fun t => WorkDone s t x s.mem [])) ∧
     (s.stepOf x.key % max 1 g.statEvery = 0 → s.clear x ev as → (∀ o ∈ outs, o.2.2.verdict = .pass) →
       Answers c s (fun t => WorkDone s t x (Cells.writeAll s.mem ws) (rangesOf ws) ∧ (Cells.wf s.mem = true → g.planeState t.mem = 1))))

/-- CHAIN stores what its program makes of OPA, REDUCE the results of its lines, COPY the converted elements and STREAM its
extents in list order; RELEASE stores nothing. Each is then done and changes nothing else (R187, R201, R207, R381, R383). A SEND
sends the rows that are left as WRITE requests of at most 4,096 bytes, in order, while the cluster has free tags; the last
request, where it is not full, takes the rows of the SENDs that continue it. With the last of them it waits for its acknowledges.
No memory and no other cluster changes (R379, R384, R401). -/
def Obligations.VectorFetchAndSendEntriesRun : Prop :=
  (∀ (s : State) (l idx : Nat) (ev : Ev) (x : Site), l < 128 → s.clusters.length = 128 →
     (∀ (a d : Tensor) (ch : Chain), s.todo l idx .chain = some x → x.solOp = none → x.opa = some a → x.opd = some d → x.job.chain x.e = some ch →
       let ts := x.job.chainTensors (some ch)
       let ws := (applyChain s.mv x.job x.e.rnd (BitVec.ofNat 64 (s.stepOf x.key)) (some ch) d x.opb (fun r k => a.f32 s.mv r k)).outs.flatMap
         (fun o => o.2.writes)
       s.clear x ev (tensorAccesses (a :: (x.opb.toList ++ ts.1)) (d :: ts.2)) →
       Answers (.chain l idx ev) s (fun t => WorkDone s t x (Cells.writeAll s.mem ws) (rangesOf ws))) ∧
     (∀ (a d : Tensor) (r : RedDesc), s.todo l idx .reduce = some x → x.opa = some a → x.opd = some d → x.job.reds[x.e.aux]? = some r →
       let ws := (writeTensor d 0 (fun _ _ => .rne) (fun i j => (redValues s.mv a r).getD (if r.axis = 1 then j else i) (.fin false 0 0))).writes
       s.clear x ev (tensorAccesses [a] [d]) →
       Answers (.reduce l idx ev) s (fun t => WorkDone s t x (Cells.writeAll s.mem ws) (rangesOf ws))) ∧
     (∀ (a d : Tensor), s.todo l idx .copy = some x → x.opa = some a → x.opd = some d →
       let ws := (writeTensor d (d.scaleOf s.mem) (sinkRnd x.e.rnd (s.drawIn x 0) 0 d) (fun r k => a.value s.mv r k)).writes
       s.clear x ev (tensorAccesses [a] [d]) →
       Answers (.copy l idx ev) s (fun t => WorkDone s t x (Cells.writeAll s.mem ws) (rangesOf ws))) ∧
     (∀ (w sl src next list view : Nat) (r : Region), s.todo l idx .stream = some x → x.job.streams[x.e.aux]? = some (.stream w sl src next list view) →
       x.job.regions[w]? = some r →
       let slot := r.base + sl * r.slotBytes
       let es := streamExtents s.mem list next r.slotBytes
       s.clear x ev ((if next = 0 then [] else [⟨list, 16 * next, false⟩]) ++ es.flatMap (fun e => [⟨e.src, e.len, false⟩, ⟨slot + e.dst, e.len, true⟩])) →
       Answers (.stream l idx ev) s (fun t => WorkDone s t x
         (es.foldl (fun m e => Cells.write m (slot + e.dst) (Cells.read m e.src e.len)) s.mem) (es.map (fun e => (slot + e.dst, e.len))))) ∧
     (s.todo l idx .release = some x → Answers (.release l idx) s (fun t => WorkDone s t x s.mem []))) ∧
  (∀ (s : State) (l idx : Nat) (ev : Ev) (x : Site) (a : Tensor) (nrows dst stride : Nat), l < 128 → s.clusters.length = 128 →
     s.todo l idx .send = some x → x.opa = some a → x.job.streams[x.e.aux]? = some (.transfer nrows dst stride) →
     s.clear x ev ((List.range nrows).map (fun r => ⟨a.base + r * a.stride, a.rowBytes, false⟩)) →
     let ps := s.sendPieces x ev.bad
     ps.flatMap (fun p => p.bytes.take p.own) =
       (rowsAfter x.f.sent ((List.range nrows).map (fun r => (a.base + r * a.stride, dst + r * stride, a.rowBytes)))).flatMap
         (fun r => Cells.read s.mem r.1 r.2.2) ∧
     (∀ p ∈ ps, p.bytes.length ≤ 4096) ∧
     Answers (.send l idx ev) s (fun t => ∃ n, n ≤ ps.length ∧
       (t.cluster l).drl.reqs.map (fun r => r.msg.body) =
         (s.cluster l).drl.reqs.map (fun r => r.msg.body) ++ (ps.take n).map (fun p => Body.write (p.dst % 2 ^ 52) p.bytes) ∧
       (n < ps.length → t.freeTag l = none) ∧
       (n = ps.length → ∀ f ∈ (t.cluster l).drl.flights, f.idx = x.f.idx → f.work = .requests) ∧
       (t.cluster l).drl.ctrs = (s.cluster l).drl.ctrs ∧ (t.cluster l).drl.head = (s.cluster l).drl.head ∧ SameClusters s t l ∧
       t = { s with clusters := t.clusters, fab := t.fab, ctr := t.ctr, pages := { s.pages with ce := t.pages.ce } }))

/-- A working CHAIN, FACTOR or SOLVE entry of a solver's generated Cassette does what its place in the cycle says, counts its lane
strokes and is done (R340, R346, R347, R361). A SOL_DELTA whose entries are all valid while no cycle runs is applied and completes
with their number; one with a wrong entry changes no data. During a cycle it is kept in the pending area, where it has room, and
applied after the cycle from the area's bytes. P and A entries set DIRTY in the RECORDs of their problems (R341 to R344). -/
def Obligations.SolverEntriesAndDeltasRun : Prop :=
  (∀ (s : State) (l idx : Nat) (ev : Ev) (x : Site) (p : SolPlan) (o : SolOp) (k : Nat), l < 128 → s.clusters.length = 128 →
     x.job.sol = some p → x.solOp = some o → s.clear x ev (p.accesses x.job l) →
     let done := (((s.counted x ev (p.accesses x.job l)).solWork x p o).count l [(77, p.laneStrokes l o)]).workDone x
     (s.todo l idx .chain = some x → exec (.chain l idx ev) s = .next done) ∧
     (s.todo l idx .topiary = some x → o = .factor k ∨ o = .factorL k → exec (.factor l idx ev) s = .next done) ∧
     (s.todo l idx .topiary = some x → o = .solve k ∨ o = .solveL k → exec (.solve l idx ev) s = .next done ∧ WorkDone s done x s.mem []) ∧
     (∀ c n, s.todo l idx .chain = some x → o = .iter k → p.cls k = some c → p.onCluster k l = [n] → (s.sol.prob (p.first k + n)).frozen = none →
       Answers (.chain l idx ev) s (fun t => WorkDone s t x (Cells.write s.mem (c.blk n).work
         (admmStep c.block c (s.sol.prob (p.first k + n)).rho (c.blk n) (BData.read s.mem (c.blk n) 0) (x.job.factorOf s.mem (c.blk n))
           (Iter.read s.mem (c.blk n).work (c.blk n).n (c.blk n).m)).bytes)
         [((c.blk n).work, (admmStep c.block c (s.sol.prob (p.first k + n)).rho (c.blk n) (BData.read s.mem (c.blk n) 0)
           (x.job.factorOf s.mem (c.blk n)) (Iter.read s.mem (c.blk n).work (c.blk n).n (c.blk n).m)).bytes.length)]))) ∧
  (∀ (s : State) (p : Pkt) (plan all : SolPlan), s.alive = true → s.hub.pkt p.id = some p → p.type = typeDelta →
     s.solverPlan p.ctx = some plan → s.solverPlan 0 = some all → p.pay.length % 16 = 0 → p.pay ≠ [] →
     (∀ ds ws, p.started = false → s.sol.cycleOn = false → s.sol.pend = [] → deltaWrites s.mem plan p.pay = some (ds, ws) →
       let x : Sol := { s.sol with deltaEntries := satAdd 32 s.sol.deltaEntries ds.length }
       let all := ws ++ dirtyRecords plan (Cells.writeAll s.mem ws) ds
       exec (.solDelta p.id) s = .next (({ s.store all with sol := x } : State).endPkt p pktOk (BitVec.ofNat 64 ds.length)) ∧
         SameBytes s (s.store all) (rangesOf all)) ∧
     (p.started = false → s.sol.cycleOn = false → s.sol.pend = [] → deltaWrites s.mem plan p.pay = none →
       exec (.solDelta p.id) s = .next (({ s with sol := { s.sol with deltaRejects := satAdd 32 s.sol.deltaRejects 1 } } : State).endPkt p statusDeltaInvalid 0)) ∧
     (p.started = false → (s.sol.cycleOn = true ∨ s.sol.pend ≠ []) → s.deltaFull p = false → s.lands (plan.pendBase + s.sol.pendBytes) p.pay.length = true →
       Answers (.solDelta p.id) s (fun t => t.sol = { s.sol with pend := s.sol.pend ++ [(p.id, p.pay.length)] } ∧
         (∃ q, t.hub.pkt p.id = some q ∧ q.started = true) ∧ t.mem = Cells.write s.mem (plan.pendBase + s.sol.pendBytes) p.pay ∧
         SameBytes s t [(plan.pendBase + s.sol.pendBytes, p.pay.length)] ∧ t.clusters = s.clusters ∧ t.jobs = s.jobs)) ∧
     (p.started = false → (s.sol.cycleOn = true ∨ s.sol.pend ≠ []) → s.deltaFull p = true ∨ s.lands (plan.pendBase + s.sol.pendBytes) p.pay.length = false → exec (.solDelta p.id) s = .next s) ∧
     (s.sol.cycleOn = true → exec .pendingDeltaApply s = .next s) ∧
     (∀ n, s.sol.cycleOn = false → s.sol.pend = [(p.id, n)] → exec .pendingDeltaApply s =
       .next (({ s with sol := { s.sol with pend := [] } } : State).applyDelta { p with pay := Cells.read s.mem all.pendBase n }) ∧
       Answers .pendingDeltaApply s (fun t => t.sol.pend = [] ∧ t.hub.pkt p.id = none ∧ t.jobs = s.jobs ∧ t.clusters = s.clusters)))

/-- FOLD of a SEALED plane folds it into the statistic, where every value is finite, and leaves it EMPTY; of another plane it does
nothing. EXPORT stores the plane, REFRESH on its phase launches a refresh at the end of the queue in place of one of the same
slot, on the cluster or carried by a suspended task, which begins at once where Topiary is free, FACTOR factorises the blocks that
it lists, and SOLVE stores the solutions. They leave the refreshes that run and wait on the cluster as they are (R226 to R232,
R248, R249). Topiary in the background takes the next block of the refresh that runs at the head of its queue; after the last
block the candidate is READY and the refresh leaves the queue, and the next one begins. A foreground entry holds it back (R232,
R242). -/
def Obligations.TopiaryRunsAndRefreshes : Prop :=
  (∀ (s : State) (l idx : Nat) (ev : Ev) (q : TopSite) (a d : Tensor), l < 128 → s.clusters.length = 128 →
     let x := q.x
     (s.queueRuns l → s.topTodo l idx .fold = some q → s.clear x ev (q.s.foldAccesses s.mem ++ (match q.ten q.t.tenA with | some a => a.accesses false | none => [])) →
       (q.s.planeState s.mem ≠ 2 → Answers (.fold l idx ev) s (fun t => WorkDone s t x s.mem [])) ∧
       (q.s.planeState s.mem = 2 → Cells.wf s.mem = true → Answers (.fold l idx ev) s (fun t => WorkIsDone t x ∧ q.s.planeState t.mem = 0 ∧
         SameClusters s t l ∧ t = { s with mem := t.mem, poison := t.poison, clusters := t.clusters, ctr := t.ctr, pages := { s.pages with ce := t.pages.ce } }))) ∧
     (s.queueRuns l → s.topTodo l idx .export_ = some q → q.ten q.t.tenA = some d → s.clear x ev (q.s.exportAccesses s.mem ++ d.accesses true) →
       let ws := (writeTensor d 0 (fun _ _ => .rne) (fun r k => exportValue s.mem q.s r k)).writes
       Answers (.exportPlane l idx ev) s (fun t => WorkDone s t x (Cells.writeAll s.mem ws) (rangesOf ws))) ∧
     (s.topTodo l idx .refresh = some q →
       let others := (s.cluster l).top.queue.filter (fun r => r.slot ≠ q.t.slot)
       (s.stepOf x.key % max 1 q.s.refreshEvery ≠ q.s.refreshPhase → s.queueRuns l → Answers (.refresh l idx ev) s (fun t => WorkDone s t x s.mem [])) ∧
       (s.stepOf x.key % max 1 q.s.refreshEvery = q.s.refreshPhase → s.clear x ev (q.s.snapAccesses s.mem) → Cells.wf s.mem = true →
         (∀ r rs, others = r :: rs → r.started = true) →
         Answers (.refresh l idx ev) s (fun t => WorkIsDone t x ∧
           (∃ r : Refresh, r.slot = q.t.slot ∧ r.tag = s.stepOf x.key ∧ r.done = 0 ∧ (t.cluster l).top.queue = others ++ [r] ∧
             q.s.candState t.mem = (if r.started then 2 else 1) ∧ (others ≠ [] → r.started = false)) ∧
           (∀ u ∈ t.hub.tasks, u.key.ctx = x.key.ctx → u.key.job = x.key.job → ∀ v ∈ u.saved, q.t.slot ∉ v.slots ∧ ∀ r ∈ v.queue, r.slot ≠ q.t.slot) ∧
           SameClusters s t l ∧ t = { s with mem := t.mem, poison := t.poison, clusters := t.clusters, ctr := t.ctr, pages := { s.pages with ce := t.pages.ce }, hub := { s.hub with tasks := t.hub.tasks } }))) ∧
     (s.queueRuns l → s.topTodo l idx .factor = some q → x.solOp = none → q.ten q.t.tenA = some a → q.ten q.t.tenB = none →
       let as := q.s.factorAccesses s.mem (List.range q.s.nblk) ++ a.accesses false
       s.clear x ev as →
       Answers (.factor l idx ev) s (fun t => t = (s.counted x ev as).factorBody q a ∧ WorkIsDone t x ∧
         SameClusters s t l ∧ t = { s with mem := t.mem, poison := t.poison, clusters := t.clusters, jobs := t.jobs, ctr := t.ctr, pages := { s.pages with ce := t.pages.ce } })) ∧
     (s.queueRuns l → s.topTodo l idx .solve = some q → x.solOp = none → q.ten q.t.tenA = some a → q.ten q.t.tenB = some d →
       s.clear x ev (q.s.solveAccesses s.mem ++ tensorAccesses [a] [d]) →
       let sols := (List.range q.s.nblk).map (solveBlock s.mv x.job q a)
       let ws := (writeTensor d 0 (fun _ _ => .rne) (fun r k => Fp.val (vAt ((sols.getD (r / q.s.block) []).getD k []) (r % q.s.block)))).writes
       Answers (.solve l idx ev) s (fun t => WorkDone s t x (Cells.writeAll s.mem ws) (rangesOf ws)))) ∧
  (∀ (s : State) (l : Nat) (ev : Ev) (k : TaskKey) (r : Refresh) (rs : List Refresh) (g : Slot), l < 128 → s.clusters.length = 128 →
     (s.cluster l).drl.holder = some k → (s.cluster l).top.queue = r :: rs → (s.jobOf k).bind (fun j => j.slots[r.slot]?) = some g →
     (s.topFree l = false ∨ r.started = false → exec (.refreshBlock l ev) s = .next s) ∧
     let as := g.refreshAccesses r.done (r.sel.getD r.done 0) (r.next s.mem g).root.isNone
     (s.topFree l = true → r.started = true → firstFault s.pages s.poison ev.bad (some l) as = none →
       writesWait s.pages as = false → s.reaches as = true → Cells.wf s.mem = true →
       let b := r.done
       let sel := r.sel.getD b 0
       let o := refreshBlock g b (readBlock s.mem g (g.roots.getD (1 - sel) 0) b) (readBlock s.mem g (g.roots.getD sel 0) b)
         (r.damp10.getD b false) (r.fails.getD b 0)
       let ws := candWrites s.mem g b sel o ++ blockOutWords g s.mem b o
       (r.done + 1 < g.nblk → Answers (.refreshBlock l ev) s (fun t => t.mem = Cells.writeAll s.mem ws ∧
         (t.cluster l).top.queue = { r with done := r.done + 1 } :: rs ∧ (t.cluster l).drl = (s.cluster l).drl ∧
         SameClusters s t l ∧ t = { s with mem := t.mem, poison := t.poison, clusters := t.clusters, ctr := t.ctr, pages := { s.pages with ce := t.pages.ce } })) ∧
       (g.nblk ≤ r.done + 1 → Answers (.refreshBlock l ev) s (fun t =>
         (rs = [] → g.candState t.mem = 3 ∧ t.mem = Cells.writeAll s.mem (ws ++ [g.setWord 0 (setFld (g.word s.mem 0) 59 56 3)])) ∧
         (t.cluster l).top.queue = (match rs with | [] => [] | q :: qs => { q with started := true } :: qs) ∧
         (t.cluster l).drl = (s.cluster l).drl ∧
         SameClusters s t l ∧ t = { s with mem := t.mem, poison := t.poison, clusters := t.clusters, ctr := t.ctr, pages := { s.pages with ce := t.pages.ce } }))))

/-- A COLLECTIVE of a group of one stores its own result and is done; one of more members waits as the collective that its start
makes. In both the descriptor's count of occurrences rises, and other clusters of the module change in their step's magnitudes
alone (R414 to R419). PART, RESULT and CARRY reach the collective of their occurrence that is in progress: a PART's values land in
the half of STAGE that its occurrence takes, the collective goes on with what they bring, and is done, with its result stored,
once it has everything. Of an occurrence that its cluster has not issued they are kept (R415, R418, R419). -/
def Obligations.CollectivesCombineAndComplete : Prop :=
  (∀ (s : State) (l idx : Nat) (ev : Ev) (x : Site) (r : RedDesc) (a d : Tensor), l < 128 → s.clusters.length = 128 →
     s.todo l idx .collective = some x → x.job.reds[x.e.aux]? = some r → x.opa = some a → x.opd = some d →
     s.clear x ev (tensorAccesses (a :: (x.ten r.amaxList).toList) (d :: (x.ten r.stage).toList)) →
     (∀ m ∈ (s.cluster l).drl.early, m.body.occ ≠ some (x.e.aux, (s.cluster l).drl.occ x.e.aux)) →
     let c := s.collOf x r a d
     let q := c.start (s.carryOf x r) (if r.op = 5 then gatherBlock s.mem a else [])
     let ws := q.1.results.flatMap (fun k => if r.op = 5 then gatherWrites r a d k.1 k.2 else chunkWrites r a d c.n k.1 k.2)
     let bumped (t : State) : Prop := (t.cluster l).drl.occ x.e.aux = ((s.cluster l).drl.occ x.e.aux + 1) % 65536 ∧
       (t.cluster l).drl.ctrs = (s.cluster l).drl.ctrs ∧ (t.cluster l).drl.head = (s.cluster l).drl.head ∧ t.hub = s.hub ∧ t.jobs = s.jobs ∧
       ∀ k, k ≠ l → t.cluster k = { s.cluster k with drl := { (s.cluster k).drl with amaxs := (t.cluster k).drl.amaxs }, under := (t.cluster k).under }
     (x.job.members s.me x.e = [s.me] → Answers (.collective l idx ev) s (fun t => WorkIsDone t x ∧ t.mem = Cells.writeAll s.mem ws ∧
       SameBytes s t (rangesOf ws) ∧ bumped t ∧ t.fab = s.fab)) ∧
     (q.1.complete = false → Answers (.collective l idx ev) s (fun t => t.mem = s.mem ∧ bumped t ∧ SameClusters s t l ∧
       ∀ f ∈ (t.cluster l).drl.flights, f.idx = x.f.idx → f.work = .coll q.1))) ∧
  (∀ (s : State) (rx : Rx) (m : Instr) (b : Body) (desc occ chunk lo level rank : Nat) (vals : Piece) (nf final : Bool) (amax : List Nat)
     (k : TaskKey) (l : Nat), s.hears rx = true → s.barred rx.ctx = false → s.clusters.length = 128 → l < 128 →
     (m, b) ∈ [(Instr.part rx desc occ chunk lo level vals, Body.part desc occ chunk lo level vals),
       (.result rx desc occ chunk rank vals, .result desc occ chunk rank vals),
       (.carry rx desc occ lo level nf amax final, .carry desc occ lo level nf amax final)] →
     s.groupHome rx .collective desc = some (k, l) → (s.cluster l).drl.holder = some k →
     (∀ (x : Site) (c : Coll) (r : RedDesc) (a d : Tensor), s.collAt l desc occ = some (x, c) → x.job.reds[x.e.aux]? = some r → x.opa = some a →
       x.opd = some d →
       ((c.take b).1.complete = false → Answers m s (fun t => t.mem = (s.stagePart x c b).mem ∧ SameClusters s t l ∧ t.hub = s.hub ∧ t.jobs = s.jobs ∧
         ∀ f ∈ (t.cluster l).drl.flights, f.idx = x.f.idx → f.work = .coll (c.take b).1)) ∧
       ((c.take b).1.complete = true → writesWait s.pages (d.accesses true) = false → Answers m s (fun t => WorkIsDone t x ∧
         (∀ k, k ≠ l → t.cluster k = { s.cluster k with drl := { (s.cluster k).drl with amaxs := (t.cluster k).drl.amaxs }, under := (t.cluster k).under }) ∧
         t.hub = s.hub ∧ t.jobs = s.jobs ∧
         t.mem = Cells.writeAll (s.stagePart x c b).mem ((c.take b).1.results.flatMap (fun q => if c.op = 5 then gatherWrites r a d q.1 q.2
           else if c.op = 6 then (if q.1 = c.rank then chunkWrites r a d c.n q.1 q.2 else []) else chunkWrites r a d c.n q.1 q.2))))) ∧
     (s.collAt l desc occ = none → (occ + 65536 - (s.cluster l).drl.occ desc % 65536) % 65536 < 32768 →
       Answers m s (fun t => (t.cluster l).drl = { (s.cluster l).drl with early := (s.cluster l).drl.early ++ [msgOf rx b] } ∧
         SameClusters s t l ∧ t.mem = s.mem ∧ t.hub = s.hub ∧ t.jobs = s.jobs)))

/-- An EXCHANGE that starts counts its occurrence and is then in progress or waits for its acknowledges; a COUNT of a member of
its group is heard by it. Neither changes another cluster, the hub or the jobs (R318 to R324). -/
def Obligations.ExchangesGoOn : Prop :=
  ∀ (s : State) (l idx : Nat) (ev : Ev) (x : Site) (d : ExchDesc) (p : ShardPlan) (a o pl : Tensor), l < 128 → s.clusters.length = 128 →
    x.job.exchs[x.e.aux]? = some d → x.job.shard = some p → x.opa = some a → x.opd = some o → x.ten d.place = some pl →
    let goesOn (t : State) : Prop := (∀ f ∈ (t.cluster l).drl.flights, f.idx = x.f.idx → f.work = .requests ∨ ∃ e, f.work = .exch e) ∧
      (t.cluster l).drl.ctrs = (s.cluster l).drl.ctrs ∧ (t.cluster l).drl.head = (s.cluster l).drl.head ∧ SameClusters s t l ∧
      t = { s with mem := t.mem, tags := t.tags, poison := t.poison, clusters := t.clusters, fab := t.fab, ctr := t.ctr, pages := { s.pages with ce := t.pages.ce } }
    let as := if d.dir = 1 then tensorAccesses (a :: (x.ten d.route).toList) (o :: pl :: (x.ten d.stats).toList) else tensorAccesses [a, pl] [o]
    (s.todo l idx .exchange = some x → s.clear x ev as →
      exec (.exchange l idx ev) s = .next ((s.counted x ev as).startExch x d p pl a o) ∧
      Answers (.exchange l idx ev) s (fun t => goesOn t ∧ (t.cluster l).drl.occ x.e.aux = ((s.cluster l).drl.occ x.e.aux + 1) % 65536)) ∧
    (∀ (rx : Rx) (k : TaskKey) (e : Exch) (desc occ phase i : Nat) (cs : List (Nat × Nat × Nat)), s.hears rx = true → s.barred rx.ctx = false →
      s.groupHome rx .exchange desc = some (k, l) → (s.cluster l).drl.holder = some k → s.exchAt l desc occ = some (x, e) →
      e.group.findIdx? (· = rx.src) = some i →
      let b : Body := .count desc occ phase cs
      let u := ((s.received rx b).count l [(ctMsgRecv, 1), (ctBytesRecv, b.payBytes)]).settleExch x a o (e.hear a o i phase cs)
      exec (.count rx desc occ phase cs) s = .next (u.portDone rx b) ∧
      Answers (.count rx desc occ phase cs) s goesOn)

/-- OPTIMISE, where its products find Pannier slots and every tile of them passes, stores the U tensors and SCR that the update
makes of the C tensors and the gradient; DIGEST raises the cluster's step sum by the hash of the layer's U tensors and stores
nothing. An OPTIMISE whose H16 products find no slot waits (R177, R267, R268, R270). A sample of the working-copy checker that
agrees with the committed master counts itself alone; one that differs raises OPT_STATUS.WC_MISMATCH and marks the cluster's vote
(R263). -/
def Obligations.UpdatesDigestsAndChecksRun : Prop :=
  (∀ (s : State) (l idx : Nat) (ev : Ev) (x : Site) (q : OptSite), l < 128 → s.clusters.length = 128 →
     (s.todo l idx .optimise = some x → s.optSite x = some q → s.clear x ev (q.accesses s.mem) →
       let p := q.pre s.mv (x.f.work.cells ev.cells)
       let ts := match p with | some r => r.2.2.flatMap (fun m => m.ts) | none => []
       let ws := (q.writes s.mv (p.map (fun r => r.1)) (p.map (fun r => r.2.1))).flatMap (fun w => w.writes)
       (x.passPannier false ts (s.cluster l).pan = none → exec (.optimise l idx ev) s = .next (s.counted x ev (q.accesses s.mem))) ∧
       ((x.passPannier false ts (s.cluster l).pan).isSome = true → (∀ t ∈ ts, t.verdict = .pass) →
       Answers (.optimise l idx ev) s (fun t => WorkDone s t x (Cells.writeAll s.mem ws) (rangesOf ws)))) ∧
     (s.todo l idx .digest = some x → s.clear x ev (tensorAccesses x.uncommitted []) →
       Answers (.digest l idx ev) s (fun t => WorkIsDone t x ∧
         (t.cluster l).drl.digest = (s.cluster l).drl.digest + x.uncommitted.foldl (fun acc t => acc + digestTensor s.mem t) 0 ∧
         (t.cluster l).drl.ctrs = (s.cluster l).drl.ctrs ∧ SameClusters s t l ∧ t = { s with clusters := t.clusters, ctr := t.ctr, pages := { s.pages with ce := t.pages.ce } }))) ∧
  (∀ (s : State) (l idx row col : Nat) (seen : Option Nat) (j : Job) (c w : Tensor), l < 128 → s.clusters.length = 128 →
     s.workingCopy l idx = some (j, c, w) → fld s.hub.optCfg 2 0 ≠ 0 → s.fetchIdle l = true → row < w.lrows → col < w.lcols →
     (seen.getD (w.codeAt s.mem row col) = workingCode s.mv c w row col →
       exec (.wcCheck l idx row col seen) s = .next (s.count l [(ctChecker, 1)])) ∧
     (seen.getD (w.codeAt s.mem row col) ≠ workingCode s.mv c w row col →
       Answers (.wcCheck l idx row col seen) s (fun t => t.hub.wcMis = satAdd 32 s.hub.wcMis 1 ∧ (t.cluster l).drl.mismatch = true ∧
         (t.cluster l).drl.ctrs = (s.cluster l).drl.ctrs ∧ t.jobs = s.jobs)))

/-- A WRITE that may touch its bytes lands them, and nothing else in memory, and is acknowledged with its address; bits that
software may not write keep their values (R13, R15, R77). It is kept while a page moves or a stack is out. A READ answers with its
bytes as a reader of the window sees them and leaves memory as it is. Out of the context's reach, in the system area or a swap
pair a WRITE is answered RANGE, over part of a poisoned word POISON; a READ of a poisoned word is answered POISON. A request of a
context that was reset, and a row of an exchange that was cut off, are discarded (R111, R261, R332, R387, R411, R515). -/
def Obligations.FabricRequestsAreServed : Prop :=
  ∀ (s : State) (rx : Rx) (addr n : Nat) (bytes : List Byte), s.hears rx = true →
    let reply (b : Body) : Msg := ⟨rx.src, s.me, rx.ctx, rx.tag, rx.scl, b⟩
    let len := bytes.length
    let goes : Prop := s.barred rx.ctx = false ∧ s.deadRow rx.ctx addr len = false
    let may : Prop := s.mayTouch rx.ctx addr len = true ∧ (pagesOf addr len).any inSys = false ∧ s.inPairs rx.ctx addr len = false
    (s.barred rx.ctx = true ∨ s.deadRow rx.ctx addr len = true →
      exec (.write rx addr bytes) s = .next ((s.received rx (.write addr bytes)).portDone rx (.write addr bytes))) ∧
    (s.barred rx.ctx = true → exec (.fabricRead rx addr n Ev.none) s = .next ((s.received rx (.read addr n)).portDone rx (.read addr n))) ∧
    (goes → may → s.poison.partHit addr len = none → s.lands addr len = true → Cells.wf s.mem = true → Answers (.write rx addr bytes) s (fun t =>
      ((∀ i < len, s.softMask ((addr + i) / 8 * 8) = none) → Cells.read t.mem addr len = bytes) ∧
      (∀ w m, w % 8 = 0 → s.softMask w = some m → Cells.word t.mem w &&& ~~~ m = Cells.word s.mem w &&& ~~~ m) ∧
      SameBytes s t [(addr, len)] ∧ t.Queued (reply (.ack addr none)) ∧ t.hub = s.hub ∧ t.jobs = s.jobs ∧
      ∀ l, (t.cluster l).drl.ctrs = (s.cluster l).drl.ctrs)) ∧
    (goes → may → s.poison.partHit addr len = none → s.lands addr len = false → Answers (.write rx addr bytes) s (fun t =>
      t.pages.waiting = s.pages.waiting ++ [⟨addr, bytes, false, .fabric rx.port rx.src rx.ctx rx.tag rx.scl⟩] ∧
      t = { s with fab := t.fab, ctr := t.ctr, pages := { s.pages with waiting := t.pages.waiting } })) ∧
    (goes → ¬ may → Answers (.write rx addr bytes) s (fun t => t.Queued (reply (.nack addr nackRange)) ∧ t = { s with fab := t.fab, ctr := t.ctr })) ∧
    (goes → may → (s.poison.partHit addr len).isSome = true → Answers (.write rx addr bytes) s (fun t =>
      t.Queued (reply (.nack addr nackPoison)) ∧ t = { s with fab := t.fab, ctr := t.ctr })) ∧
    (s.barred rx.ctx = false → s.mayTouch rx.ctx addr n = true →
      (s.reaches [⟨addr, n, false⟩] = false → exec (.fabricRead rx addr n Ev.none) s = .next s) ∧
      (s.reaches [⟨addr, n, false⟩] = true → s.poison.hit addr n = none → Answers (.fabricRead rx addr n Ev.none) s (fun t =>
        t.Queued (reply (.readData addr (s.seen addr n))) ∧ t = { s with fab := t.fab, ctr := t.ctr })) ∧
      (s.reaches [⟨addr, n, false⟩] = true → (s.poison.hit addr n).isSome = true → Answers (.fabricRead rx addr n Ev.none) s
        (fun t => t.Queued (reply (.nack addr nackPoison)) ∧ t = { s with fab := t.fab, ctr := t.ctr }))) ∧
    (s.barred rx.ctx = false → s.mayTouch rx.ctx addr n = false → Answers (.fabricRead rx addr n Ev.none) s (fun t =>
      t.Queued (reply (.nack addr nackRange)) ∧ t = { s with fab := t.fab, ctr := t.ctr }))

/-- A packet that another hub has forwarded runs as the command of its type does on a packet that this hub holds, and its
completion goes back to that hub; where the module's state bars it, it completes with that status. A held packet that comes again
replaces its copy (the model's way to let R454's recheck see the slot, log 59) (R457, R458, R459). -/
def Obligations.ForwardedPacketsRun : Prop :=
  ∀ (s : State) (rx : Rx) (pid : Nat) (words : List Word) (pay : List Byte) (f : PktFind), s.hears rx = true →
    (∀ q ∈ s.hub.pkts, q.id ≠ s.hub.nextPid) →
    let b : Body := .packet pid words pay
    (s.hub.held.any (fun h => h.isFrom rx.src pid) = true → Answers (.packetForward rx pid words pay f) s (fun t =>
      t.hub = { s.hub with held := s.hub.held.map (fun h => if h.isFrom rx.src pid then { h with pkt := { h.pkt with words := words, pay := pay } } else h) } ∧
      t.mem = s.mem ∧ t.clusters = s.clusters ∧ t.jobs = s.jobs)) ∧
    (s.hub.held.any (fun h => h.isFrom rx.src pid) = false →
    let p : Pkt := ⟨s.hub.nextPid, words, pay, .fabric rx.src pid rx.tag, false, 0, 0⟩
    let r := s.received rx b
    let u : State := { r with hub := { r.hub with pkts := r.hub.pkts ++ [p], nextPid := r.hub.nextPid + 1 } }
    (∀ c, s.stateBars p = some c → exec (.packetForward rx pid words pay f) s = .next ((u.endPkt p c 0).portDone rx b)) ∧
    (s.stateBars p = none →
      (∀ (type : Nat) (c : Instr), p.type = type → (type, c) ∈ [(typeNop, Instr.nopPacket p.id), (typeData, .data p.id), (typeRead, .read p.id f.ev),
          (typeLoad, .load p.id), (typeUnload, .unload p.id), (typeRun, .run p.id), (typeSuspend, .suspend p.id), (typeResume, .resume p.id),
          (typeCtlWrite, .ctlWritePacket p.id), (typeCtlRead, .ctlRead p.id), (typeDelta, .solDelta p.id), (typeRestore, .restore p.id f.ev),
          (typeContextReset, .contextReset p.id), (typeRingOpen, .ringOpen p.id), (typeRingClose, .ringClose p.id),
          (typeFwImage, .fwImage p.id f.img), (typeAttest, .attest p.id f.secs f.flashOk)] →
        ∃ v, exec c u = .next v ∧ exec (.packetForward rx pid words pay f) s = .next (v.portDone rx b)) ∧
      (p.type = typeNop → Answers (.packetForward rx pid words pay f) s (fun t =>
        t.Queued ⟨rx.src, s.me, p.ctx, rx.tag, 0, .ack pid (some ⟨pid, true, true, pktOk, 0⟩)⟩ ∧ t.hub.pkts = s.hub.pkts ∧ t.mem = s.mem ∧
        t.clusters = s.clusters ∧ t.jobs = s.jobs))))

/-- ACK and READ_DATA end the request of a cluster that they answer; READ_DATA of a restore brings its bytes, the ACK of a
forwarded packet ends it, and NACK with BUSY marks a signal for its resend. A NACK with another reason enters the ladder and
aborts the entry's task (R286, R388, R410, R411, R458). -/
def Obligations.AnswersReachTheirRequest : Prop :=
  ∀ (s : State) (rx : Rx) (q : Req) (bytes : List Byte) (reason : Nat), s.hears rx = true → s.clusters.length = 128 →
    (s.hub.reqOf rx.tag rx.src = none → (s.cluster rx.scl).drl.reqOf rx.tag rx.src = some q →
      let ended (t : State) : Prop := (t.cluster rx.scl).drl = { (s.cluster rx.scl).drl with reqs := (s.cluster rx.scl).drl.reqs.filter (fun r => r.tag ≠ rx.tag) } ∧
        SameClusters s t rx.scl ∧ t = { s with clusters := t.clusters, fab := t.fab, ctr := t.ctr }
      Answers (.ack rx none) s ended ∧ Answers (.readData rx bytes) s ended ∧
      Answers (.nack rx nackBusy) s (fun t => (t.cluster rx.scl).drl = { (s.cluster rx.scl).drl with
          reqs := (s.cluster rx.scl).drl.reqs.map (fun r => if r.tag = rx.tag then { r with busy := true } else r) } ∧ SameClusters s t rx.scl ∧
        t = { s with clusters := t.clusters, fab := t.fab, ctr := t.ctr }) ∧
      (∀ x tk, reason ≠ nackBusy → q.idx.bind (s.site rx.scl) = some x → s.hub.task x.key = some tk → tk.st ≠ .idle → tk.restoring = false →
        Answers (.nack rx reason) s (fun t => (∃ v, t.hub.task x.key = some v ∧ v.st = .idle ∧ v.next = tk.step) ∧ t.hist.lastRung = 1 ∧
          t.hist.lastEngine = x.e.op.engine ∧ t.jobs = s.jobs))) ∧
    (∀ h c j off y, s.hub.reqOf rx.tag rx.src = some h → h.use = .restore c j off → s.hub.restores = [y] → y.key.ctx = c → y.key.job = j →
      (∀ r ∈ s.hub.reqs, r.tag.isSome = true) →
      Answers (.readData rx bytes) s (fun t => t.hub.restores = [{ y with image := Cells.write y.image off bytes }] ∧
        t.hub.reqs = s.hub.reqs.filter (fun r => r.tag ≠ some rx.tag) ∧ t.mem = s.mem ∧ t.hub.tasks = s.hub.tasks)) ∧
    (∀ (f : Fwd) (e : PktEnd), s.hub.fwds.find? (fun f => f.pid = e.pid ∧ f.dst = rx.src) = some f → e.releases = true →
      Answers (.ack rx (some e)) s (fun t => (∀ g ∈ t.hub.fwds, g.pid ≠ f.pid) ∧ t.hub.tasks = s.hub.tasks ∧ t.jobs = s.jobs ∧ t.clusters = s.clusters))

/-- A port that sees light trains: with an identity that agrees with the map it screens its lanes, with another it shows MISMATCH.
After the screen each direction comes up with at most one failing lane, and fails with more: the port shows what it receives, and
the link is part of the graph once both directions are up. A port that goes down is reset, and its link leaves the graph. RETRAIN
trains a port anew (R396, R397, R421, R424, R428). On a link a failed flit is counted and asked for again, until REPLAY_MAX
failures of one flit in a row take the port down; LINK takes flits that it acknowledges out of the replay buffer, gives credits
back, never above the buffers, and has the flits that it asks for sent again; a bad message is numbered, counted and gives its
credits back (R399, R400, R404, R405, R428). -/
def Obligations.PortsTrainAndRetry : Prop :=
  (∀ (s : State) (p module farPort variant stepping : Nat) (mapId : Word) (rx : Rx) (passed : List Bool), s.alive = true → p < 48 →
     s.fab.ports.length = 48 → s.hub.restores = [] →
     let checked (t : State) : Prop :=
       (s.agrees p module farPort mapId = true → (t.fab.port p).st = .training ∧ (t.fab.port p).train = .screen ∧ (t.fab.port p).farModule = module ∧
         (t.fab.port p).farPort = farPort ∧ (t.fab.port p).agreed = true) ∧
       (s.agrees p module farPort mapId = false → (t.fab.port p).st = .mismatch ∧ (t.fab.port p).agreed = false) ∧
       t.fab.graph = s.fab.graph ∧ t.mem = s.mem ∧ t.jobs = s.jobs ∧ t.clusters = s.clusters
     let link := (⟨s.me, p, (s.fab.port p).farModule, (s.fab.port p).farPort⟩ : Link)
     let rxBad := (badLanes passed 0 false).length
     let txBad := (badLanes passed 9 true).length
     ((s.fab.port p).st ≠ .up → s.mayTrain = true → s.start.edgeUp (.serdes p) = true → Answers (.portTrain p module farPort variant stepping mapId) s checked) ∧
     (rx.port = some p → (s.fab.port p).st = .training → Answers (.ident rx module farPort variant stepping mapId) s checked) ∧
     ((s.fab.port p).train = .screen → s.start.edgeUp (.serdes p) = true →
       (rxBad ≤ 1 → txBad ≤ 1 → Answers (.portUp p passed) s (fun t => (t.fab.port p).st = .up ∧ (t.fab.port p).linked = true ∧
         t.fab.changing = true ∧ link.norm ∈ t.fab.graph)) ∧
       (rxBad ≤ 1 → 1 < txBad → Answers (.portUp p passed) s (fun t => (t.fab.port p).st = .up ∧ (t.fab.port p).linked = false ∧
         t.fab.graph = s.fab.graph)) ∧
       (1 < rxBad → Answers (.portUp p passed) s (fun t => (t.fab.port p).st = .failed ∧ t.fab.graph = s.fab.graph))) ∧
     ((s.fab.port p).st ≠ .down → Answers (.portDown p) s (fun t => t.fab.port p = Port.reset ∧
       ((s.fab.port p).linked = true → t.fab.changing = true ∧ t.fab.graph = s.fab.graph.del s.me p) ∧
       ((s.fab.port p).linked = false → t.fab.graph = s.fab.graph ∧ t.fab.changing = s.fab.changing))) ∧
     Answers (.retrain p) s (fun t => (t.fab.port p).st = .training ∧ (t.fab.port p).train = .wordLock) ∧
     (∀ k, 48 ≤ k → exec (.retrain k) s = .next { s with fab := { s.fab with cmdErr := true } })) ∧
  (∀ (s : State) (p ack : Nat) (req : Option Nat) (credits : List Nat) (bad : BadMsg), s.alive = true → p < 48 → s.fab.ports.length = 48 →
     s.hub.restores = [] → (s.fab.port p).st = .up → (s.fab.port p).linked = true → bad.port = p →
     let q := s.fab.port p
     let row := if q.failRow ≠ 0 ∧ q.failSeq = q.rxSeq then q.failRow + 1 else 1
     let linkOf (n : Nat) (req : Bool) (owed : List Nat) : Option Nat × Msg := (some p, ⟨q.farModule, s.me, 0, 0, 0, .link n n req owed⟩)
     (row < fld s.fab.cfg 23 16 → Answers (.flitReplay p) s (fun t => (t.fab.port p).replays = satAdd 16 q.replays 1 ∧
       (t.fab.port p).st = .up ∧ (t.fab.port p).failRow = row ∧ (t.fab.port p).failSeq = q.rxSeq ∧ (t.fab.port p).rxSeq = q.rxSeq ∧
       (q.unacked < replayFlits → t.fab.sent = s.fab.sent ++ [linkOf q.rxSeq true q.owed]) ∧ t = { s with fab := t.fab, ctr := t.ctr })) ∧
     (fld s.fab.cfg 23 16 ≤ row → Answers (.flitReplay p) s (fun t => (t.fab.port p).st = .down ∧ t.fab.graph = s.fab.graph.del s.me p)) ∧
     (s.fab.waiting = [] → s.fab.due = [] → Answers (.link p ack req credits) s (fun t =>
       (q.flitsFrom ack ≤ q.unacked → (t.fab.port p).ackSeq = ack % 65536 ∧ (t.fab.port p).buffer = (q.acked ack).buffer) ∧
       (t.fab.port p).rxSeq = (q.rxSeq + 1) % 65536 ∧
       t.fab.sent = s.fab.sent ++ (match req with | some n => ((q.acked ack).replayed n).map (fun m => (some p, m)) | none => []) ∧
       (∀ v, v < 4 → (t.fab.port p).credits.getD v 0 = min (q.credits.getD v 0 + credits.getD v 0) (vcBuffers.getD v 0)) ∧
       (∀ k, k ≠ p → t.fab.port k = s.fab.port k) ∧ t = { s with fab := t.fab, ctr := t.ctr })) ∧
     Answers (.badMsg bad) s (fun t => t.fab.badMsg = satAdd 16 s.fab.badMsg 1 ∧ (t.fab.port p).rxSeq = (q.rxSeq + bad.flits) % 65536 ∧
       (q.unacked < replayFlits → t.fab.sent = s.fab.sent ++
         [linkOf ((q.rxSeq + bad.flits) % 65536) false (q.owed.set (bad.vc % 4) (q.owed.getD (bad.vc % 4) 0 + bad.flits))]) ∧
       (∀ k, k ≠ p → t.fab.port k = s.fab.port k) ∧ t = { s with fab := t.fab, ctr := t.ctr }))

/-- JOIN, LEAVE and LINK_STATE that bring a new graph are taken, and a route change begins; one that is known already changes
nothing. The module that has drained tells the root; the root, once it has heard every live module, and another module told by
SWITCH, install the new graph as their routes, by which a leaving module that it excludes is REMOVABLE. The entry module keeps
each port report; LEAVE of a module with jobs is refused (R409, R425, R427). -/
def Obligations.RoutesChangeTogether : Prop :=
  ∀ (s : State) (rx : Rx) (module change : Nat) (ports : List PortRep) (rep : PortRep), s.hears rx = true → s.hub.restores = [] →
    (∀ (c : Instr) (b : Body) (g : Graph), (c, b, g) ∈ [
        (Instr.join rx module ports, Body.join module ports, (repLinks module ports).foldl Graph.add (s.fab.graph.delModule module)),
        (.leave rx module, .leave module, s.fab.graph.delModule module),
        (.linkState rx module rep, .linkState module rep,
          if rep.linked then (s.fab.graph.del module rep.port).add ⟨module, rep.port, rep.farModule, rep.farPort⟩ else s.fab.graph.del module rep.port)] →
      (g.id = s.fab.graph.id → exec c s = .next ((s.received rx b).portDone rx b)) ∧
      (g.id ≠ s.fab.graph.id → Answers c s (fun t => t.fab.graph = g ∧ t.fab.changing = true ∧ t.fab.routes = s.fab.routes ∧ t.fab.drained = [] ∧
        t.jobs = s.jobs ∧ t.clusters = s.clusters))) ∧
    (s.fab.changing = true → s.fab.outside = false → s.fab.graph.root s.me ≠ s.me → Answers .routeDrainDone s (fun t =>
      t.Queued ⟨s.fab.graph.root s.me, s.me, 0, 0, 0, .drained s.me s.fab.graph.id⟩ ∧ t.fab.changing = true ∧ t = { s with fab := t.fab, ctr := t.ctr })) ∧
    (s.fab.changing = true → s.fab.graph.root s.me = s.me →
      ((∀ m ∈ s.fab.graph.part s.me, m = module ∨ m ∈ s.fab.drained) → Answers (.drained rx module s.fab.graph.id) s (fun t =>
        t.fab.routes = s.fab.graph ∧ t.fab.changing = false ∧ t.fab.drained = [])) ∧
      ((∃ m ∈ s.fab.graph.part s.me, m ≠ module ∧ m ∉ s.fab.drained) → Answers (.drained rx module s.fab.graph.id) s (fun t =>
        t.fab.drained = module :: s.fab.drained.filter (fun m => m ≠ module) ∧ t.fab.changing = true ∧ t.fab.routes = s.fab.routes))) ∧
    (s.fab.changing = true → change = s.fab.graph.id → Answers (.switch rx change) s (fun t => t.fab.routes = s.fab.graph ∧ t.fab.graph = s.fab.graph ∧
      t.fab.changing = false ∧ (s.fab.state = .leaving → t.fab.state = (if s.fab.graph.nbrs s.me = [] then .removable else .leaving)) ∧ (s.fab.state = .joining → t.fab.state = .joined))) ∧
    (s.isEntry = true → Answers (.topoReport rx module ports) s (fun t => t.fab.reports.getLast? = some (module, ports) ∧ t.mem = s.mem ∧ t.jobs = s.jobs)) ∧
    (s.jobs = [] → s.hub.remote = [] → Answers .managedLeave s (fun t => t.fab.state = .leaving ∧ t.fab.graph = s.fab.graph.delModule s.me ∧ t.fab.changing = true ∧
      t.mem = s.mem ∧ t.hub = s.hub)) ∧
    (s.jobs ≠ [] → exec .managedLeave s = .next { s with fab := { s.fab with cmdErr := true } })

/-- At the end of a BER window a port without a worn lane keeps its lanes, and one with a free spare begins to swap it for the one
worn lane: it takes no new message until its replay buffer is empty, and the spare carries the lane's words from then on; an
optical engine that fails hands its lanes to the group's free spare engine, and its ports train anew; without a free spare the
ports of its lanes become FAILED, and a DEPLOYED module drains (R397, R398, R422, R502). -/
def Obligations.LanesAndEnginesFailOver : Prop :=
  ∀ (s : State) (p g e : Nat) (counts : List Nat), s.alive = true → p < 48 → s.fab.ports.length = 48 → s.fab.engineFailed.length = 24 →
    s.fab.engineSpare.length = 2 → s.hub.restores = [] →
    let limit := fld s.fab.cfg 31 24 * 10 ^ 11 / 2 ^ fld s.fab.cfg 39 32
    ((s.fab.port p).st = .up →
      ((∀ i, i < 9 → counts.getD i 0 ≤ limit) → Answers (.laneBerWindow p counts) s (fun t => (t.fab.port p).lanes = (s.fab.port p).lanes ∧
        (t.fab.port p).laneWorn = (s.fab.port p).laneWorn ∧ (t.fab.port p).corr = List.replicate 9 0 ∧ t = { s with fab := t.fab, ctr := t.ctr })) ∧
      (∀ w, w ∈ (s.fab.port p).lanes → limit < counts.getD w 0 → (∀ i, i < 9 → i ≠ w → counts.getD i 0 ≤ limit) → (s.fab.port p).spareUsed = false →
        (s.fab.port p).outLane = 0xF → (s.fab.port p).swap = none → Answers (.laneBerWindow p counts) s (fun t =>
          (t.fab.port p).laneWorn = (s.fab.port p).laneWorn ∧
          ((s.fab.port p).unacked = 0 → (t.fab.port p).spareUsed = true ∧ (t.fab.port p).outLane = w ∧ w ∉ (t.fab.port p).lanes) ∧
          ((s.fab.port p).unacked ≠ 0 → (t.fab.port p).swap = some w ∧ (t.fab.port p).lanes = (s.fab.port p).lanes ∧
            (∀ m, (t.fab.port p).canTake m = false) ∧
            ∀ a, (t.fab.port p).flitsFrom a = 0 → w ∉ ((t.fab.port p).acked a).lanes)))) ∧
    (g < 2 → e < 12 → s.fab.engineFailed.getD (12 * g + e) false = false →
      let others (t : State) (ps : List Nat) : Prop := t.fab.engineFailed = s.fab.engineFailed.set (12 * g + e) true ∧
        ∀ k, k < 48 → k ∉ ps → (t.fab.port k).st = (s.fab.port k).st
      (e < 11 → s.spareEngine g = true → Answers (.opticalEngineFailover g e) s (fun t => t.fab.engineSpare.getD g none = some e ∧
        others t (enginePorts g e) ∧ ∀ k ∈ enginePorts g e, (t.fab.port k).st = .training)) ∧
      ((e = 11 ∧ (s.fab.engineSpare.getD g none).isSome = true) ∨ (e < 11 ∧ s.spareEngine g = false) →
        Answers (.opticalEngineFailover g e) s (fun t => others t (s.portsOn g e) ∧ (∀ k ∈ s.portsOn g e, (t.fab.port k).st = .failed) ∧
          t.start.lc ≠ .deployed)) ∧
      (e = 11 → s.spareEngine g = true → exec (.opticalEngineFailover g e) s =
        .next { s with fab := { s.fab with engineFailed := s.fab.engineFailed.set (12 * g + e) true } }))
end

