-- ==== Sys2Proof/Laws/Memory.lean ====
section
/-!
SUPPORT. The laws of memory: a byte reads as what was written there last, a write leaves every other byte alone, and every
operation keeps the canonical form.
-/

namespace Sys2Proof.Machine

/-! ## One byte -/

/-- In a list whose addresses lie above `x`, a lower address is unlisted. -/
theorem Cells.byte_below {m : Cells} {x a : Nat} (h : Cells.wfFrom (some x) m = true) (ha : a ≤ x) : Cells.byte m a = unlisted := by
  induction m generalizing x with
  | nil => rfl
  | cons c l ih =>
    simp only [Cells.wfFrom, Bool.and_eq_true, decide_eq_true_eq] at h
    have hne : c.1 ≠ a := by omega
    simp only [Cells.byte, hne, if_false]
    exact ih h.2 (by omega)

theorem Cells.wfFrom_mono {m : Cells} {x y : Nat} (h : Cells.wfFrom (some x) m = true) (hy : y ≤ x) : Cells.wfFrom (some y) m = true := by
  cases m with
  | nil => rfl
  | cons c l =>
    simp only [Cells.wfFrom, Bool.and_eq_true, decide_eq_true_eq] at h ⊢
    exact ⟨⟨by omega, h.1.2⟩, h.2⟩

theorem Cells.wfFrom_none {m : Cells} {x : Option Nat} (h : Cells.wfFrom x m = true) : Cells.wf m = true := by
  cases m with
  | nil => rfl
  | cons c l => cases x <;> simp_all [Cells.wf, Cells.wfFrom]

/-- A byte written reads back; every other byte stays, whatever the form of the list. -/
theorem Cells.byte_put_other (m : Cells) (a b : Nat) (v : Byte) (h : b ≠ a) : Cells.byte (Cells.put a v m) b = Cells.byte m b := by
  induction m with
  | nil => simp only [Cells.put]; split <;> simp [Cells.byte, h.symm]
  | cons c l ih =>
    simp only [Cells.put]
    split
    · split <;> simp [Cells.byte, h.symm]
    · split
      · rename_i hc
        split <;> simp [Cells.byte, h.symm, ← hc]
      · simp only [Cells.byte, ih]

theorem Cells.byte_put_from {m : Cells} {x : Option Nat} (hm : Cells.wfFrom x m = true) (a : Nat) (v : Byte) :
    Cells.byte (Cells.put a v m) a = v := by
  induction m generalizing x with
  | nil => simp only [Cells.put]; split <;> simp_all [Cells.byte]
  | cons c l ih =>
    simp only [Cells.wfFrom, Bool.and_eq_true] at hm
    simp only [Cells.put]
    split
    · rename_i hlt
      split
      · rename_i hv
        rw [hv]
        simp only [Cells.byte, show c.1 ≠ a by omega, if_false]
        exact Cells.byte_below hm.2 (by omega)
      · simp [Cells.byte]
    · split
      · rename_i hc
        split
        · rename_i hv
          rw [hv]
          exact Cells.byte_below hm.2 (by omega)
        · simp [Cells.byte]
      · rename_i hc
        simp only [Cells.byte, show c.1 ≠ a by omega, if_false]
        exact ih hm.2

/-- A byte reads as what was written there. -/
theorem Cells.byte_put_self {m : Cells} (hm : Cells.wf m = true) (a : Nat) (v : Byte) : Cells.byte (Cells.put a v m) a = v :=
  Cells.byte_put_from hm a v

/-- The read after the write of one byte. -/
theorem Cells.byte_put {m : Cells} (hm : Cells.wf m = true) (a b : Nat) (v : Byte) :
    Cells.byte (Cells.put a v m) b = if b = a then v else Cells.byte m b := by
  split
  · subst b; exact Cells.byte_put_self hm a v
  · exact Cells.byte_put_other m a b v ‹_›

theorem Cells.wfFrom_put {m : Cells} {x : Option Nat} (hm : Cells.wfFrom x m = true) (a : Nat) (v : Byte)
    (ha : ∀ k, x = some k → k < a) : Cells.wfFrom x (Cells.put a v m) = true := by
  induction m generalizing x with
  | nil =>
    simp only [Cells.put]
    split
    · rfl
    · cases x <;> simp_all [Cells.wfFrom]
  | cons c l ih =>
    simp only [Cells.wfFrom, Bool.and_eq_true] at hm
    simp only [Cells.put]
    split
    · split
      · simp [Cells.wfFrom, hm]
      · cases x <;> simp_all [Cells.wfFrom]
    · split
      · rename_i hc
        split
        · have := hm.2
          cases x with
          | none => exact Cells.wfFrom_none this
          | some k => exact Cells.wfFrom_mono this (by have := ha k rfl; omega)
        · subst hc
          cases x <;> simp_all [Cells.wfFrom]
      · simp only [Cells.wfFrom, Bool.and_eq_true]
        exact ⟨hm.1, ih hm.2 (by intro k hk; cases hk; omega)⟩

/-- A write of one byte keeps the canonical form. -/
theorem Cells.wf_put {m : Cells} (hm : Cells.wf m = true) (a : Nat) (v : Byte) : Cells.wf (Cells.put a v m) = true :=
  Cells.wfFrom_put hm a v (by simp)

/-! ## Several bytes -/

theorem Cells.wf_write {m : Cells} (hm : Cells.wf m = true) (a : Nat) (bs : List Byte) : Cells.wf (Cells.write m a bs) = true := by
  induction bs generalizing m a with
  | nil => exact hm
  | cons b bs ih => exact ih (Cells.wf_put hm a b) (a + 1)

theorem Cells.wf_writeAll {m : Cells} (hm : Cells.wf m = true) (ws : List (Nat × List Byte)) : Cells.wf (Cells.writeAll m ws) = true := by
  unfold Cells.writeAll
  induction ws generalizing m with
  | nil => exact hm
  | cons w ws ih => exact ih (Cells.wf_write hm w.1 w.2)

/-- A write leaves every byte outside it alone. -/
theorem Cells.byte_write_other (m : Cells) (a : Nat) (bs : List Byte) (b : Nat) (h : ¬ (a ≤ b ∧ b < a + bs.length)) :
    Cells.byte (Cells.write m a bs) b = Cells.byte m b := by
  induction bs generalizing m a with
  | nil => rfl
  | cons v bs ih =>
    simp only [List.length_cons] at h
    rw [Cells.write, ih _ _ (by omega), Cells.byte_put_other _ _ _ _ (by omega)]

theorem Cells.byte_writeAll_other (m : Cells) (ws : List (Nat × List Byte)) (b : Nat)
    (h : ∀ w ∈ ws, ¬ (w.1 ≤ b ∧ b < w.1 + w.2.length)) : Cells.byte (Cells.writeAll m ws) b = Cells.byte m b := by
  unfold Cells.writeAll
  induction ws generalizing m with
  | nil => rfl
  | cons w ws ih =>
    rw [List.foldl_cons, ih _ (fun v hv => h v (by simp [hv])), Cells.byte_write_other _ _ _ _ (h w (by simp))]

/-- A byte inside a write reads as what was written. -/
theorem Cells.byte_write_self {m : Cells} (hm : Cells.wf m = true) (a : Nat) (bs : List Byte) (i : Nat) (h : i < bs.length) :
    Cells.byte (Cells.write m a bs) (a + i) = bs[i] := by
  induction bs generalizing m a i with
  | nil => simp at h
  | cons v bs ih =>
    rw [Cells.write]
    cases i with
    | zero =>
      rw [Cells.byte_write_other _ _ _ _ (by omega)]
      simpa using Cells.byte_put_self hm a v
    | succ i =>
      have := ih (Cells.wf_put hm a v) (a + 1) i (by simpa using h)
      rw [show a + (i + 1) = a + 1 + i by omega]
      simpa using this

@[simp] theorem Cells.read_length (m : Cells) (a n : Nat) : (Cells.read m a n).length = n := by
  induction n generalizing a with
  | zero => rfl
  | succ n ih => simp [Cells.read, ih]

theorem Cells.read_congr (m m' : Cells) (a n : Nat) (h : ∀ i, i < n → Cells.byte m (a + i) = Cells.byte m' (a + i)) :
    Cells.read m a n = Cells.read m' a n := by
  induction n generalizing a with
  | zero => rfl
  | succ n ih =>
    have h0 := h 0 (by omega)
    simp only [Nat.add_zero] at h0
    rw [Cells.read, Cells.read, h0, ih (a + 1) (fun i hi => by
      have := h (i + 1) (by omega)
      rwa [show a + (i + 1) = a + 1 + i by omega] at this)]

/-- The read after the write of the same range. -/
theorem Cells.read_write_self {m : Cells} (hm : Cells.wf m = true) (a : Nat) (bs : List Byte) :
    Cells.read (Cells.write m a bs) a bs.length = bs := by
  induction bs generalizing m a with
  | nil => rfl
  | cons v bs ih =>
    have h0 := Cells.byte_write_self hm a (v :: bs) 0 (by simp)
    simp only [Nat.add_zero, List.getElem_cons_zero] at h0
    rw [List.length_cons, Cells.read, h0, Cells.write, ih (Cells.wf_put hm a v)]

/-- A read outside a write is as it was. -/
theorem Cells.read_write_other (m : Cells) (a : Nat) (bs : List Byte) (b n : Nat) (h : b + n ≤ a ∨ a + bs.length ≤ b) :
    Cells.read (Cells.write m a bs) b n = Cells.read m b n :=
  Cells.read_congr _ _ _ _ (fun i hi => Cells.byte_write_other _ _ _ _ (by omega))

/-! ## Bytes set to zero -/

theorem Cells.wfFrom_filter {m : Cells} {x : Option Nat} (hm : Cells.wfFrom x m = true) (p : Host.Cell → Bool) :
    Cells.wfFrom x (m.filter p) = true := by
  induction m generalizing x with
  | nil => rfl
  | cons c l ih =>
    simp only [Cells.wfFrom, Bool.and_eq_true] at hm
    rw [List.filter_cons]
    split
    · simp only [Cells.wfFrom, Bool.and_eq_true]
      exact ⟨hm.1, ih hm.2⟩
    · have := ih hm.2
      cases x with
      | none => exact Cells.wfFrom_none this
      | some k =>
        have hk : k < c.1 := by simpa using hm.1.1
        exact Cells.wfFrom_mono this (by omega)

theorem Cells.wf_filter {m : Cells} (hm : Cells.wf m = true) (p : Host.Cell → Bool) : Cells.wf (m.filter p) = true :=
  Cells.wfFrom_filter hm p

theorem Cells.wf_zero {m : Cells} (hm : Cells.wf m = true) (a n : Nat) : Cells.wf (Cells.zero m a n) = true := Cells.wf_filter hm _

/-- Bytes set to zero read as the unlisted byte; the others stay. -/
theorem Cells.byte_zero (m : Cells) (a n b : Nat) :
    Cells.byte (Cells.zero m a n) b = if a ≤ b ∧ b < a + n then unlisted else Cells.byte m b := by
  unfold Cells.zero
  induction m with
  | nil => simp [Cells.byte]
  | cons c l ih =>
    rw [List.filter_cons]
    by_cases hc : a ≤ c.1 ∧ c.1 < a + n
    · simp only [hc.1, hc.2, decide_true, Bool.and_true, Bool.not_true, Bool.false_eq_true, if_false, ih, Cells.byte]
      split
      · rfl
      · rename_i hb
        rw [if_neg (by rintro rfl; exact hb hc)]
    · have hp : (!(decide (a ≤ c.1) && decide (c.1 < a + n))) = true := by
        simp only [Bool.not_eq_true', Bool.and_eq_false_iff, decide_eq_false_iff_not]
        by_contra hx
        exact hc (by omega)
      simp only [hp, if_true, Cells.byte, ih]
      split
      · rename_i hb
        subst hb
        rw [if_neg hc]
      · rfl

/-- The memory after reset lists nothing. -/
theorem Cells.wf_nil : Cells.wf [] = true := rfl

/-- A fold of operations that each keep the canonical form keeps it. -/
theorem Cells.wf_foldl {β : Type} (g : Cells → β → Cells) (h : ∀ m b, Cells.wf m = true → Cells.wf (g m b) = true)
    (l : List β) {m : Cells} (hm : Cells.wf m = true) : Cells.wf (l.foldl g m) = true := by
  induction l generalizing m with
  | nil => exact hm
  | cons b l ih => exact ih (h m b hm)

end Sys2Proof.Machine
end

