-- ==== Sys2Proof/Laws/Parts.lean ====
section
/-!
SUPPORT. What every change of a part of the state keeps: the number of ports, clusters and physical clusters, the module number and
the life-cycle state. A fold keeps whatever each of its steps keeps.
-/

namespace Sys2Proof.Machine

theorem foldl_keeps {α β γ : Type} (p : α → γ) (g : α → β → α) (h : ∀ s b, p (g s b) = p s) (l : List β) (s : α) : p (l.foldl g s) = p s := by
  induction l generalizing s with
  | nil => rfl
  | cons b l ih => simp [ih, h]
@[simp] theorem foldl_pending {β : Type} (g : State → β → State) (h : ∀ s b, (g s b).pending = s.pending) (l : List β) (s : State) : (l.foldl g s).pending = s.pending := foldl_keeps (fun s => s.pending) g h l s
@[simp] theorem foldl_mem {β : Type} (g : State → β → State) (h : ∀ s b, (g s b).mem = s.mem) (l : List β) (s : State) : (l.foldl g s).mem = s.mem := foldl_keeps (fun s => s.mem) g h l s
@[simp] theorem foldl_tags {β : Type} (g : State → β → State) (h : ∀ s b, (g s b).tags = s.tags) (l : List β) (s : State) : (l.foldl g s).tags = s.tags := foldl_keeps (fun s => s.tags) g h l s
@[simp] theorem foldl_poison {β : Type} (g : State → β → State) (h : ∀ s b, (g s b).poison = s.poison) (l : List β) (s : State) : (l.foldl g s).poison = s.poison := foldl_keeps (fun s => s.poison) g h l s
@[simp] theorem foldl_pages {β : Type} (g : State → β → State) (h : ∀ s b, (g s b).pages = s.pages) (l : List β) (s : State) : (l.foldl g s).pages = s.pages := foldl_keeps (fun s => s.pages) g h l s
@[simp] theorem foldl_clusters {β : Type} (g : State → β → State) (h : ∀ s b, (g s b).clusters = s.clusters) (l : List β) (s : State) : (l.foldl g s).clusters = s.clusters := foldl_keeps (fun s => s.clusters) g h l s
@[simp] theorem foldl_jobs {β : Type} (g : State → β → State) (h : ∀ s b, (g s b).jobs = s.jobs) (l : List β) (s : State) : (l.foldl g s).jobs = s.jobs := foldl_keeps (fun s => s.jobs) g h l s
@[simp] theorem foldl_hub {β : Type} (g : State → β → State) (h : ∀ s b, (g s b).hub = s.hub) (l : List β) (s : State) : (l.foldl g s).hub = s.hub := foldl_keeps (fun s => s.hub) g h l s
@[simp] theorem foldl_fab {β : Type} (g : State → β → State) (h : ∀ s b, (g s b).fab = s.fab) (l : List β) (s : State) : (l.foldl g s).fab = s.fab := foldl_keeps (fun s => s.fab) g h l s
@[simp] theorem foldl_sol {β : Type} (g : State → β → State) (h : ∀ s b, (g s b).sol = s.sol) (l : List β) (s : State) : (l.foldl g s).sol = s.sol := foldl_keeps (fun s => s.sol) g h l s
@[simp] theorem foldl_start {β : Type} (g : State → β → State) (h : ∀ s b, (g s b).start = s.start) (l : List β) (s : State) : (l.foldl g s).start = s.start := foldl_keeps (fun s => s.start) g h l s
@[simp] theorem foldl_hist {β : Type} (g : State → β → State) (h : ∀ s b, (g s b).hist = s.hist) (l : List β) (s : State) : (l.foldl g s).hist = s.hist := foldl_keeps (fun s => s.hist) g h l s
@[simp] theorem foldl_ctr {β : Type} (g : State → β → State) (h : ∀ s b, (g s b).ctr = s.ctr) (l : List β) (s : State) : (l.foldl g s).ctr = s.ctr := foldl_keeps (fun s => s.ctr) g h l s
@[simp] theorem foldl_pwr {β : Type} (g : State → β → State) (h : ∀ s b, (g s b).pwr = s.pwr) (l : List β) (s : State) : (l.foldl g s).pwr = s.pwr := foldl_keeps (fun s => s.pwr) g h l s
@[simp] theorem foldl_clusters_length {β : Type} (g : State → β → State) (h : ∀ s b, (g s b).clusters.length = s.clusters.length) (l : List β) (s : State) : (l.foldl g s).clusters.length = s.clusters.length := foldl_keeps (fun s => s.clusters.length) g h l s
@[simp] theorem foldl_ports_length {β : Type} (g : State → β → State) (h : ∀ s b, (g s b).fab.ports.length = s.fab.ports.length) (l : List β) (s : State) : (l.foldl g s).fab.ports.length = s.fab.ports.length := foldl_keeps (fun s => s.fab.ports.length) g h l s
@[simp] theorem foldl_pcl_length {β : Type} (g : State → β → State) (h : ∀ s b, (g s b).start.pcl.length = s.start.pcl.length) (l : List β) (s : State) : (l.foldl g s).start.pcl.length = s.start.pcl.length := foldl_keeps (fun s => s.start.pcl.length) g h l s
@[simp] theorem foldl_xidx {β : Type} (g : State → β → State) (h : ∀ s b, (g s b).start.flash.xidx = s.start.flash.xidx) (l : List β) (s : State) : (l.foldl g s).start.flash.xidx = s.start.flash.xidx := foldl_keeps (fun s => s.start.flash.xidx) g h l s
@[simp] theorem foldl_lc {β : Type} (g : State → β → State) (h : ∀ s b, (g s b).start.lc = s.start.lc) (l : List β) (s : State) : (l.foldl g s).start.lc = s.start.lc := foldl_keeps (fun s => s.start.lc) g h l s
@[simp] theorem foldl_starts {β : Type} (g : State → β → State) (h : ∀ s b, (g s b).start.starts = s.start.starts) (l : List β) (s : State) : (l.foldl g s).start.starts = s.start.starts := foldl_keeps (fun s => s.start.starts) g h l s
@[simp] theorem foldl_module {β : Type} (g : State → β → State) (h : ∀ s b, (g s b).hub.module = s.hub.module) (l : List β) (s : State) : (l.foldl g s).hub.module = s.hub.module := foldl_keeps (fun s => s.hub.module) g h l s

@[simp] theorem updAt_length {α : Type} (l : List α) (i : Nat) (f : α → α) : (updAt l i f).length = l.length := by simp [updAt]

/-! ## The fabric -/

@[simp] theorem Fab.link_ports (f : Fab) (me p : Nat) (req : Bool) : (f.link me p req).ports.length = f.ports.length := by
  unfold Fab.link
  repeat' (first | split | dsimp only)
  all_goals simp
@[simp] theorem Fab.sendPort_ports (f : Fab) (me p : Nat) (m : Msg) : (f.sendPort me p m).ports.length = f.ports.length := by
  unfold Fab.sendPort
  dsimp only
  split <;> simp
@[simp] theorem Fab.owe_ports (f : Fab) (p : Nat) (m : Msg) : (f.owe p m).ports.length = f.ports.length := by
  unfold Fab.owe
  split <;> simp
@[simp] theorem Fab.place_ports (me : Nat) (f : Fab) (w : Wait) : (Fab.place me f w).ports = f.ports := by
  unfold Fab.place
  repeat' (first | split | dsimp only)
theorem Fab.retryOne_ports {f g : Fab} {me : Nat} (h : f.retryOne me = some g) : g.ports.length = f.ports.length := by
  unfold Fab.retryOne at h
  dsimp only at h
  split at h
  · cases h
  · cases h
    split <;> simp
theorem Fab.retryAll_ports (me n : Nat) (f : Fab) : (Fab.retryAll me n f).ports.length = f.ports.length := by
  induction n generalizing f with
  | zero => rfl
  | succ n ih =>
    unfold Fab.retryAll
    split
    · rw [ih, Fab.retryOne_ports ‹_›]
    · rfl
@[simp] theorem Fab.retry_ports (f : Fab) (me : Nat) : (f.retry me).ports.length = f.ports.length := by
  unfold Fab.retry
  dsimp only
  rw [foldl_keeps (fun f : Fab => f.ports.length) _ (fun f p => by simp), Fab.retryAll_ports]
  exact foldl_keeps (fun f : Fab => f.ports.length) _ (fun f w => by simp) _ _
@[simp] theorem Fab.inject_ports (f : Fab) (me : Nat) (m : Msg) (came : Option Nat) : (f.inject me m came).ports.length = f.ports.length := by
  unfold Fab.inject
  split <;> simp
@[simp] theorem Fab.send_ports (f : Fab) (me : Nat) (m : Msg) : (f.send me m).ports.length = f.ports.length := Fab.inject_ports f me m none
@[simp] theorem Fab.flood_ports (f : Fab) (me : Nat) (e : Option Nat) (b : Body) : (f.flood me e b).ports.length = f.ports.length := by
  unfold Fab.flood
  simp
@[simp] theorem Fab.startChange_ports (f : Fab) (g : Graph) : (f.startChange g).ports = f.ports := rfl
@[simp] theorem Fab.switch_ports (f : Fab) (me : Nat) : (f.switch me).ports.length = f.ports.length := by
  unfold Fab.switch
  dsimp only
  (repeat' split) <;> simp
@[simp] theorem Fab.commit_ports (f : Fab) : f.commit.ports = f.ports := by unfold Fab.commit; split <;> rfl

/-! ## The hub -/

@[simp] theorem Hub.setRing_module (h : Hub) (n : Nat) (r : Ring) : (h.setRing n r).module = h.module ∧ (h.setRing n r).tasks = h.tasks := ⟨rfl, rfl⟩
@[simp] theorem Hub.updPkt_module (h : Hub) (id : Nat) (f : Pkt → Pkt) : (h.updPkt id f).module = h.module ∧ (h.updPkt id f).tasks = h.tasks := ⟨rfl, rfl⟩
@[simp] theorem Hub.dropPkt_module (h : Hub) (id : Nat) : (h.dropPkt id).module = h.module ∧ (h.dropPkt id).tasks = h.tasks := ⟨rfl, rfl⟩
@[simp] theorem Hub.updTask_module (h : Hub) (k : TaskKey) (f : Task → Task) : (h.updTask k f).module = h.module := rfl
@[simp] theorem Hub.dropReq_module (h : Hub) (t : Nat) : (h.dropReq t).module = h.module ∧ (h.dropReq t).tasks = h.tasks := ⟨rfl, rfl⟩
@[simp] theorem Hub.noteRemote_module (h : Hub) (f : Fwd) (n : Nat) : (h.noteRemote f n).module = h.module ∧ (h.noteRemote f n).tasks = h.tasks := by
  unfold Hub.noteRemote
  (repeat' split) <;> simp
@[simp] theorem Hub.commitOpt_module (h : Hub) : h.commitOpt.module = h.module ∧ h.commitOpt.tasks = h.tasks := by
  unfold Hub.commitOpt
  split <;> simp
@[simp] theorem Hub.commitHub_module (h : Hub) : h.commitHub.module = h.module ∧ h.commitHub.tasks = h.tasks := by
  unfold Hub.commitHub
  split <;> simp

/-! ## Physical clusters and flash -/

@[simp] theorem Start.upd_keeps (x : Start) (p : Nat) (f : PCl → PCl) :
    (x.upd p f).pcl.length = x.pcl.length ∧ (x.upd p f).lc = x.lc ∧ (x.upd p f).flash = x.flash ∧ (x.upd p f).starts = x.starts := by
  simp [Start.upd]
@[simp] theorem Start.rotate_keeps (x : Start) (p q : Nat) :
    (x.rotate p q).pcl.length = x.pcl.length ∧ (x.rotate p q).lc = x.lc ∧ (x.rotate p q).flash = x.flash ∧ (x.rotate p q).starts = x.starts := by
  simp [Start.rotate]
@[simp] theorem Start.commitTst_keeps (x : Start) :
    x.commitTst.pcl = x.pcl ∧ x.commitTst.lc = x.lc ∧ x.commitTst.flash = x.flash ∧ x.commitTst.starts = x.starts := by
  unfold Start.commitTst
  split <;> simp
@[simp] theorem Flash.clearValid_xidx (f : Flash) (k : Nat) : (f.clearValid k).xidx = f.xidx := rfl
@[simp] theorem Flash.program_xidx (f : Flash) (k : Nat) (i : Image) (wrong : List Nat) : (f.program k i wrong).xidx = f.xidx := rfl
@[simp] theorem Flash.confirm_xidx (f : Flash) (k : Nat) : (f.confirm k).xidx = f.xidx := rfl
@[simp] theorem Flash.stagePut_xidx (f : Flash) (o : Nat) (bs : List Byte) : (f.stagePut o bs).xidx = f.xidx := rfl
@[simp] theorem Flash.takeConf_xidx (f : Flash) : f.takeConf.xidx = f.xidx := rfl

end Sys2Proof.Machine
end

