-- ==== Sys2Proof/Laws/State.lean ====
section
/-!
SUPPORT. The small lemmas of State: for each named update, one lemma for every field that it leaves as it is, and what it does to the
field that it changes. No later proof need unfold a record update.
-/

namespace Sys2Proof.Machine

/-! ### updCluster -/

@[simp] theorem State.updCluster_pending (s : State) (l : Nat) (f : Cluster → Cluster) : (s.updCluster l f).pending = s.pending := by rfl
@[simp] theorem State.updCluster_mem (s : State) (l : Nat) (f : Cluster → Cluster) : (s.updCluster l f).mem = s.mem := by rfl
@[simp] theorem State.updCluster_tags (s : State) (l : Nat) (f : Cluster → Cluster) : (s.updCluster l f).tags = s.tags := by rfl
@[simp] theorem State.updCluster_poison (s : State) (l : Nat) (f : Cluster → Cluster) : (s.updCluster l f).poison = s.poison := by rfl
@[simp] theorem State.updCluster_pages (s : State) (l : Nat) (f : Cluster → Cluster) : (s.updCluster l f).pages = s.pages := by rfl
@[simp] theorem State.updCluster_jobs (s : State) (l : Nat) (f : Cluster → Cluster) : (s.updCluster l f).jobs = s.jobs := by rfl
@[simp] theorem State.updCluster_hub (s : State) (l : Nat) (f : Cluster → Cluster) : (s.updCluster l f).hub = s.hub := by rfl
@[simp] theorem State.updCluster_fab (s : State) (l : Nat) (f : Cluster → Cluster) : (s.updCluster l f).fab = s.fab := by rfl
@[simp] theorem State.updCluster_sol (s : State) (l : Nat) (f : Cluster → Cluster) : (s.updCluster l f).sol = s.sol := by rfl
@[simp] theorem State.updCluster_start (s : State) (l : Nat) (f : Cluster → Cluster) : (s.updCluster l f).start = s.start := by rfl
@[simp] theorem State.updCluster_hist (s : State) (l : Nat) (f : Cluster → Cluster) : (s.updCluster l f).hist = s.hist := by rfl
@[simp] theorem State.updCluster_ctr (s : State) (l : Nat) (f : Cluster → Cluster) : (s.updCluster l f).ctr = s.ctr := by rfl
@[simp] theorem State.updCluster_pwr (s : State) (l : Nat) (f : Cluster → Cluster) : (s.updCluster l f).pwr = s.pwr := by rfl

/-! ### updDrl -/

@[simp] theorem State.updDrl_pending (s : State) (l : Nat) (f : Drl → Drl) : (s.updDrl l f).pending = s.pending := by rfl
@[simp] theorem State.updDrl_mem (s : State) (l : Nat) (f : Drl → Drl) : (s.updDrl l f).mem = s.mem := by rfl
@[simp] theorem State.updDrl_tags (s : State) (l : Nat) (f : Drl → Drl) : (s.updDrl l f).tags = s.tags := by rfl
@[simp] theorem State.updDrl_poison (s : State) (l : Nat) (f : Drl → Drl) : (s.updDrl l f).poison = s.poison := by rfl
@[simp] theorem State.updDrl_pages (s : State) (l : Nat) (f : Drl → Drl) : (s.updDrl l f).pages = s.pages := by rfl
@[simp] theorem State.updDrl_jobs (s : State) (l : Nat) (f : Drl → Drl) : (s.updDrl l f).jobs = s.jobs := by rfl
@[simp] theorem State.updDrl_hub (s : State) (l : Nat) (f : Drl → Drl) : (s.updDrl l f).hub = s.hub := by rfl
@[simp] theorem State.updDrl_fab (s : State) (l : Nat) (f : Drl → Drl) : (s.updDrl l f).fab = s.fab := by rfl
@[simp] theorem State.updDrl_sol (s : State) (l : Nat) (f : Drl → Drl) : (s.updDrl l f).sol = s.sol := by rfl
@[simp] theorem State.updDrl_start (s : State) (l : Nat) (f : Drl → Drl) : (s.updDrl l f).start = s.start := by rfl
@[simp] theorem State.updDrl_hist (s : State) (l : Nat) (f : Drl → Drl) : (s.updDrl l f).hist = s.hist := by rfl
@[simp] theorem State.updDrl_ctr (s : State) (l : Nat) (f : Drl → Drl) : (s.updDrl l f).ctr = s.ctr := by rfl
@[simp] theorem State.updDrl_pwr (s : State) (l : Nat) (f : Drl → Drl) : (s.updDrl l f).pwr = s.pwr := by rfl

/-! ### updJob -/

@[simp] theorem State.updJob_pending (s : State) (ctx handle : Nat) (f : Job → Job) : (s.updJob ctx handle f).pending = s.pending := by rfl
@[simp] theorem State.updJob_mem (s : State) (ctx handle : Nat) (f : Job → Job) : (s.updJob ctx handle f).mem = s.mem := by rfl
@[simp] theorem State.updJob_tags (s : State) (ctx handle : Nat) (f : Job → Job) : (s.updJob ctx handle f).tags = s.tags := by rfl
@[simp] theorem State.updJob_poison (s : State) (ctx handle : Nat) (f : Job → Job) : (s.updJob ctx handle f).poison = s.poison := by rfl
@[simp] theorem State.updJob_pages (s : State) (ctx handle : Nat) (f : Job → Job) : (s.updJob ctx handle f).pages = s.pages := by rfl
@[simp] theorem State.updJob_clusters (s : State) (ctx handle : Nat) (f : Job → Job) : (s.updJob ctx handle f).clusters = s.clusters := by rfl
@[simp] theorem State.updJob_hub (s : State) (ctx handle : Nat) (f : Job → Job) : (s.updJob ctx handle f).hub = s.hub := by rfl
@[simp] theorem State.updJob_fab (s : State) (ctx handle : Nat) (f : Job → Job) : (s.updJob ctx handle f).fab = s.fab := by rfl
@[simp] theorem State.updJob_sol (s : State) (ctx handle : Nat) (f : Job → Job) : (s.updJob ctx handle f).sol = s.sol := by rfl
@[simp] theorem State.updJob_start (s : State) (ctx handle : Nat) (f : Job → Job) : (s.updJob ctx handle f).start = s.start := by rfl
@[simp] theorem State.updJob_hist (s : State) (ctx handle : Nat) (f : Job → Job) : (s.updJob ctx handle f).hist = s.hist := by rfl
@[simp] theorem State.updJob_ctr (s : State) (ctx handle : Nat) (f : Job → Job) : (s.updJob ctx handle f).ctr = s.ctr := by rfl
@[simp] theorem State.updJob_pwr (s : State) (ctx handle : Nat) (f : Job → Job) : (s.updJob ctx handle f).pwr = s.pwr := by rfl

/-! ### updTask -/

@[simp] theorem State.updTask_pending (s : State) (k : TaskKey) (f : Task → Task) : (s.updTask k f).pending = s.pending := by rfl
@[simp] theorem State.updTask_mem (s : State) (k : TaskKey) (f : Task → Task) : (s.updTask k f).mem = s.mem := by rfl
@[simp] theorem State.updTask_tags (s : State) (k : TaskKey) (f : Task → Task) : (s.updTask k f).tags = s.tags := by rfl
@[simp] theorem State.updTask_poison (s : State) (k : TaskKey) (f : Task → Task) : (s.updTask k f).poison = s.poison := by rfl
@[simp] theorem State.updTask_pages (s : State) (k : TaskKey) (f : Task → Task) : (s.updTask k f).pages = s.pages := by rfl
@[simp] theorem State.updTask_clusters (s : State) (k : TaskKey) (f : Task → Task) : (s.updTask k f).clusters = s.clusters := by rfl
@[simp] theorem State.updTask_jobs (s : State) (k : TaskKey) (f : Task → Task) : (s.updTask k f).jobs = s.jobs := by rfl
@[simp] theorem State.updTask_fab (s : State) (k : TaskKey) (f : Task → Task) : (s.updTask k f).fab = s.fab := by rfl
@[simp] theorem State.updTask_sol (s : State) (k : TaskKey) (f : Task → Task) : (s.updTask k f).sol = s.sol := by rfl
@[simp] theorem State.updTask_start (s : State) (k : TaskKey) (f : Task → Task) : (s.updTask k f).start = s.start := by rfl
@[simp] theorem State.updTask_hist (s : State) (k : TaskKey) (f : Task → Task) : (s.updTask k f).hist = s.hist := by rfl
@[simp] theorem State.updTask_ctr (s : State) (k : TaskKey) (f : Task → Task) : (s.updTask k f).ctr = s.ctr := by rfl
@[simp] theorem State.updTask_pwr (s : State) (k : TaskKey) (f : Task → Task) : (s.updTask k f).pwr = s.pwr := by rfl

/-! ### store -/

@[simp] theorem State.store_pending (s : State) (ws : List (Nat × List Byte)) : (s.store ws).pending = s.pending := by rfl
@[simp] theorem State.store_tags (s : State) (ws : List (Nat × List Byte)) : (s.store ws).tags = s.tags := by rfl
@[simp] theorem State.store_pages (s : State) (ws : List (Nat × List Byte)) : (s.store ws).pages = s.pages := by rfl
@[simp] theorem State.store_clusters (s : State) (ws : List (Nat × List Byte)) : (s.store ws).clusters = s.clusters := by rfl
@[simp] theorem State.store_jobs (s : State) (ws : List (Nat × List Byte)) : (s.store ws).jobs = s.jobs := by rfl
@[simp] theorem State.store_hub (s : State) (ws : List (Nat × List Byte)) : (s.store ws).hub = s.hub := by rfl
@[simp] theorem State.store_fab (s : State) (ws : List (Nat × List Byte)) : (s.store ws).fab = s.fab := by rfl
@[simp] theorem State.store_sol (s : State) (ws : List (Nat × List Byte)) : (s.store ws).sol = s.sol := by rfl
@[simp] theorem State.store_start (s : State) (ws : List (Nat × List Byte)) : (s.store ws).start = s.start := by rfl
@[simp] theorem State.store_hist (s : State) (ws : List (Nat × List Byte)) : (s.store ws).hist = s.hist := by rfl
@[simp] theorem State.store_ctr (s : State) (ws : List (Nat × List Byte)) : (s.store ws).ctr = s.ctr := by rfl
@[simp] theorem State.store_pwr (s : State) (ws : List (Nat × List Byte)) : (s.store ws).pwr = s.pwr := by rfl

/-! ### softStore -/

@[simp] theorem State.softStore_pending (s : State) (a : Nat) (bs : List Byte) : (s.softStore a bs).pending = s.pending := by rfl
@[simp] theorem State.softStore_tags (s : State) (a : Nat) (bs : List Byte) : (s.softStore a bs).tags = s.tags := by rfl
@[simp] theorem State.softStore_pages (s : State) (a : Nat) (bs : List Byte) : (s.softStore a bs).pages = s.pages := by rfl
@[simp] theorem State.softStore_clusters (s : State) (a : Nat) (bs : List Byte) : (s.softStore a bs).clusters = s.clusters := by rfl
@[simp] theorem State.softStore_jobs (s : State) (a : Nat) (bs : List Byte) : (s.softStore a bs).jobs = s.jobs := by rfl
@[simp] theorem State.softStore_hub (s : State) (a : Nat) (bs : List Byte) : (s.softStore a bs).hub = s.hub := by rfl
@[simp] theorem State.softStore_fab (s : State) (a : Nat) (bs : List Byte) : (s.softStore a bs).fab = s.fab := by rfl
@[simp] theorem State.softStore_sol (s : State) (a : Nat) (bs : List Byte) : (s.softStore a bs).sol = s.sol := by rfl
@[simp] theorem State.softStore_start (s : State) (a : Nat) (bs : List Byte) : (s.softStore a bs).start = s.start := by rfl
@[simp] theorem State.softStore_hist (s : State) (a : Nat) (bs : List Byte) : (s.softStore a bs).hist = s.hist := by rfl
@[simp] theorem State.softStore_ctr (s : State) (a : Nat) (bs : List Byte) : (s.softStore a bs).ctr = s.ctr := by rfl
@[simp] theorem State.softStore_pwr (s : State) (a : Nat) (bs : List Byte) : (s.softStore a bs).pwr = s.pwr := by rfl

/-! ### retag -/

@[simp] theorem State.retag_pending (s : State) (src dst n : Nat) : (s.retag src dst n).pending = s.pending := by rfl
@[simp] theorem State.retag_mem (s : State) (src dst n : Nat) : (s.retag src dst n).mem = s.mem := by rfl
@[simp] theorem State.retag_poison (s : State) (src dst n : Nat) : (s.retag src dst n).poison = s.poison := by rfl
@[simp] theorem State.retag_pages (s : State) (src dst n : Nat) : (s.retag src dst n).pages = s.pages := by rfl
@[simp] theorem State.retag_clusters (s : State) (src dst n : Nat) : (s.retag src dst n).clusters = s.clusters := by rfl
@[simp] theorem State.retag_jobs (s : State) (src dst n : Nat) : (s.retag src dst n).jobs = s.jobs := by rfl
@[simp] theorem State.retag_hub (s : State) (src dst n : Nat) : (s.retag src dst n).hub = s.hub := by rfl
@[simp] theorem State.retag_fab (s : State) (src dst n : Nat) : (s.retag src dst n).fab = s.fab := by rfl
@[simp] theorem State.retag_sol (s : State) (src dst n : Nat) : (s.retag src dst n).sol = s.sol := by rfl
@[simp] theorem State.retag_start (s : State) (src dst n : Nat) : (s.retag src dst n).start = s.start := by rfl
@[simp] theorem State.retag_hist (s : State) (src dst n : Nat) : (s.retag src dst n).hist = s.hist := by rfl
@[simp] theorem State.retag_ctr (s : State) (src dst n : Nat) : (s.retag src dst n).ctr = s.ctr := by rfl
@[simp] theorem State.retag_pwr (s : State) (src dst n : Nat) : (s.retag src dst n).pwr = s.pwr := by rfl

/-! ### put -/

@[simp] theorem State.put_pending (s : State) (w : Written) : (s.put w).pending = s.pending := by rfl
@[simp] theorem State.put_pages (s : State) (w : Written) : (s.put w).pages = s.pages := by rfl
@[simp] theorem State.put_clusters (s : State) (w : Written) : (s.put w).clusters = s.clusters := by rfl
@[simp] theorem State.put_jobs (s : State) (w : Written) : (s.put w).jobs = s.jobs := by rfl
@[simp] theorem State.put_hub (s : State) (w : Written) : (s.put w).hub = s.hub := by rfl
@[simp] theorem State.put_fab (s : State) (w : Written) : (s.put w).fab = s.fab := by rfl
@[simp] theorem State.put_sol (s : State) (w : Written) : (s.put w).sol = s.sol := by rfl
@[simp] theorem State.put_start (s : State) (w : Written) : (s.put w).start = s.start := by rfl
@[simp] theorem State.put_hist (s : State) (w : Written) : (s.put w).hist = s.hist := by rfl
@[simp] theorem State.put_ctr (s : State) (w : Written) : (s.put w).ctr = s.ctr := by rfl
@[simp] theorem State.put_pwr (s : State) (w : Written) : (s.put w).pwr = s.pwr := by rfl

/-! ### count -/

@[simp] theorem State.count_pending (s : State) (l : Nat) (ws : List (Nat × Nat)) : (s.count l ws).pending = s.pending := by rfl
@[simp] theorem State.count_mem (s : State) (l : Nat) (ws : List (Nat × Nat)) : (s.count l ws).mem = s.mem := by rfl
@[simp] theorem State.count_tags (s : State) (l : Nat) (ws : List (Nat × Nat)) : (s.count l ws).tags = s.tags := by rfl
@[simp] theorem State.count_poison (s : State) (l : Nat) (ws : List (Nat × Nat)) : (s.count l ws).poison = s.poison := by rfl
@[simp] theorem State.count_pages (s : State) (l : Nat) (ws : List (Nat × Nat)) : (s.count l ws).pages = s.pages := by rfl
@[simp] theorem State.count_jobs (s : State) (l : Nat) (ws : List (Nat × Nat)) : (s.count l ws).jobs = s.jobs := by rfl
@[simp] theorem State.count_hub (s : State) (l : Nat) (ws : List (Nat × Nat)) : (s.count l ws).hub = s.hub := by rfl
@[simp] theorem State.count_fab (s : State) (l : Nat) (ws : List (Nat × Nat)) : (s.count l ws).fab = s.fab := by rfl
@[simp] theorem State.count_sol (s : State) (l : Nat) (ws : List (Nat × Nat)) : (s.count l ws).sol = s.sol := by rfl
@[simp] theorem State.count_start (s : State) (l : Nat) (ws : List (Nat × Nat)) : (s.count l ws).start = s.start := by rfl
@[simp] theorem State.count_hist (s : State) (l : Nat) (ws : List (Nat × Nat)) : (s.count l ws).hist = s.hist := by rfl
@[simp] theorem State.count_ctr (s : State) (l : Nat) (ws : List (Nat × Nat)) : (s.count l ws).ctr = s.ctr := by rfl
@[simp] theorem State.count_pwr (s : State) (l : Nat) (ws : List (Nat × Nat)) : (s.count l ws).pwr = s.pwr := by rfl

/-! ### hubCount -/

@[simp] theorem State.hubCount_pending (s : State) (w n : Nat) : (s.hubCount w n).pending = s.pending := by rfl
@[simp] theorem State.hubCount_mem (s : State) (w n : Nat) : (s.hubCount w n).mem = s.mem := by rfl
@[simp] theorem State.hubCount_tags (s : State) (w n : Nat) : (s.hubCount w n).tags = s.tags := by rfl
@[simp] theorem State.hubCount_poison (s : State) (w n : Nat) : (s.hubCount w n).poison = s.poison := by rfl
@[simp] theorem State.hubCount_pages (s : State) (w n : Nat) : (s.hubCount w n).pages = s.pages := by rfl
@[simp] theorem State.hubCount_clusters (s : State) (w n : Nat) : (s.hubCount w n).clusters = s.clusters := by rfl
@[simp] theorem State.hubCount_jobs (s : State) (w n : Nat) : (s.hubCount w n).jobs = s.jobs := by rfl
@[simp] theorem State.hubCount_hub (s : State) (w n : Nat) : (s.hubCount w n).hub = s.hub := by rfl
@[simp] theorem State.hubCount_fab (s : State) (w n : Nat) : (s.hubCount w n).fab = s.fab := by rfl
@[simp] theorem State.hubCount_sol (s : State) (w n : Nat) : (s.hubCount w n).sol = s.sol := by rfl
@[simp] theorem State.hubCount_start (s : State) (w n : Nat) : (s.hubCount w n).start = s.start := by rfl
@[simp] theorem State.hubCount_hist (s : State) (w n : Nat) : (s.hubCount w n).hist = s.hist := by rfl
@[simp] theorem State.hubCount_pwr (s : State) (w n : Nat) : (s.hubCount w n).pwr = s.pwr := by rfl

/-! ### withFab -/

@[simp] theorem State.withFab_pending (s : State) (f : Fab) : (s.withFab f).pending = s.pending := by rfl
@[simp] theorem State.withFab_mem (s : State) (f : Fab) : (s.withFab f).mem = s.mem := by rfl
@[simp] theorem State.withFab_tags (s : State) (f : Fab) : (s.withFab f).tags = s.tags := by rfl
@[simp] theorem State.withFab_poison (s : State) (f : Fab) : (s.withFab f).poison = s.poison := by rfl
@[simp] theorem State.withFab_pages (s : State) (f : Fab) : (s.withFab f).pages = s.pages := by rfl
@[simp] theorem State.withFab_clusters (s : State) (f : Fab) : (s.withFab f).clusters = s.clusters := by rfl
@[simp] theorem State.withFab_jobs (s : State) (f : Fab) : (s.withFab f).jobs = s.jobs := by rfl
@[simp] theorem State.withFab_hub (s : State) (f : Fab) : (s.withFab f).hub = s.hub := by rfl
@[simp] theorem State.withFab_sol (s : State) (f : Fab) : (s.withFab f).sol = s.sol := by rfl
@[simp] theorem State.withFab_start (s : State) (f : Fab) : (s.withFab f).start = s.start := by rfl
@[simp] theorem State.withFab_hist (s : State) (f : Fab) : (s.withFab f).hist = s.hist := by rfl
@[simp] theorem State.withFab_pwr (s : State) (f : Fab) : (s.withFab f).pwr = s.pwr := by rfl

/-! ### updPort -/

@[simp] theorem State.updPort_pending (s : State) (p : Nat) (f : Port → Port) : (s.updPort p f).pending = s.pending := by rfl
@[simp] theorem State.updPort_mem (s : State) (p : Nat) (f : Port → Port) : (s.updPort p f).mem = s.mem := by rfl
@[simp] theorem State.updPort_tags (s : State) (p : Nat) (f : Port → Port) : (s.updPort p f).tags = s.tags := by rfl
@[simp] theorem State.updPort_poison (s : State) (p : Nat) (f : Port → Port) : (s.updPort p f).poison = s.poison := by rfl
@[simp] theorem State.updPort_pages (s : State) (p : Nat) (f : Port → Port) : (s.updPort p f).pages = s.pages := by rfl
@[simp] theorem State.updPort_clusters (s : State) (p : Nat) (f : Port → Port) : (s.updPort p f).clusters = s.clusters := by rfl
@[simp] theorem State.updPort_jobs (s : State) (p : Nat) (f : Port → Port) : (s.updPort p f).jobs = s.jobs := by rfl
@[simp] theorem State.updPort_hub (s : State) (p : Nat) (f : Port → Port) : (s.updPort p f).hub = s.hub := by rfl
@[simp] theorem State.updPort_sol (s : State) (p : Nat) (f : Port → Port) : (s.updPort p f).sol = s.sol := by rfl
@[simp] theorem State.updPort_start (s : State) (p : Nat) (f : Port → Port) : (s.updPort p f).start = s.start := by rfl
@[simp] theorem State.updPort_hist (s : State) (p : Nat) (f : Port → Port) : (s.updPort p f).hist = s.hist := by rfl
@[simp] theorem State.updPort_ctr (s : State) (p : Nat) (f : Port → Port) : (s.updPort p f).ctr = s.ctr := by rfl
@[simp] theorem State.updPort_pwr (s : State) (p : Nat) (f : Port → Port) : (s.updPort p f).pwr = s.pwr := by rfl

/-! ### climb -/

@[simp] theorem State.climb_pending (s : State) (rung l engine unit : Nat) : (s.climb rung l engine unit).pending = s.pending := by rfl
@[simp] theorem State.climb_mem (s : State) (rung l engine unit : Nat) : (s.climb rung l engine unit).mem = s.mem := by rfl
@[simp] theorem State.climb_tags (s : State) (rung l engine unit : Nat) : (s.climb rung l engine unit).tags = s.tags := by rfl
@[simp] theorem State.climb_poison (s : State) (rung l engine unit : Nat) : (s.climb rung l engine unit).poison = s.poison := by rfl
@[simp] theorem State.climb_pages (s : State) (rung l engine unit : Nat) : (s.climb rung l engine unit).pages = s.pages := by rfl
@[simp] theorem State.climb_clusters (s : State) (rung l engine unit : Nat) : (s.climb rung l engine unit).clusters = s.clusters := by rfl
@[simp] theorem State.climb_jobs (s : State) (rung l engine unit : Nat) : (s.climb rung l engine unit).jobs = s.jobs := by rfl
@[simp] theorem State.climb_hub (s : State) (rung l engine unit : Nat) : (s.climb rung l engine unit).hub = s.hub := by rfl
@[simp] theorem State.climb_fab (s : State) (rung l engine unit : Nat) : (s.climb rung l engine unit).fab = s.fab := by rfl
@[simp] theorem State.climb_sol (s : State) (rung l engine unit : Nat) : (s.climb rung l engine unit).sol = s.sol := by rfl
@[simp] theorem State.climb_start (s : State) (rung l engine unit : Nat) : (s.climb rung l engine unit).start = s.start := by rfl
@[simp] theorem State.climb_ctr (s : State) (rung l engine unit : Nat) : (s.climb rung l engine unit).ctr = s.ctr := by rfl
@[simp] theorem State.climb_pwr (s : State) (rung l engine unit : Nat) : (s.climb rung l engine unit).pwr = s.pwr := by rfl

/-! ### alert -/

@[simp] theorem State.alert_pending (s : State) : (s.alert).pending = s.pending := by rfl
@[simp] theorem State.alert_mem (s : State) : (s.alert).mem = s.mem := by rfl
@[simp] theorem State.alert_tags (s : State) : (s.alert).tags = s.tags := by rfl
@[simp] theorem State.alert_poison (s : State) : (s.alert).poison = s.poison := by rfl
@[simp] theorem State.alert_pages (s : State) : (s.alert).pages = s.pages := by rfl
@[simp] theorem State.alert_clusters (s : State) : (s.alert).clusters = s.clusters := by rfl
@[simp] theorem State.alert_jobs (s : State) : (s.alert).jobs = s.jobs := by rfl
@[simp] theorem State.alert_hub (s : State) : (s.alert).hub = s.hub := by rfl
@[simp] theorem State.alert_fab (s : State) : (s.alert).fab = s.fab := by rfl
@[simp] theorem State.alert_sol (s : State) : (s.alert).sol = s.sol := by rfl
@[simp] theorem State.alert_start (s : State) : (s.alert).start = s.start := by rfl
@[simp] theorem State.alert_hist (s : State) : (s.alert).hist = s.hist := by rfl
@[simp] theorem State.alert_ctr (s : State) : (s.alert).ctr = s.ctr := by rfl

/-! ### tstErr -/

@[simp] theorem State.tstErr_pending (s : State) : (s.tstErr).pending = s.pending := by rfl
@[simp] theorem State.tstErr_mem (s : State) : (s.tstErr).mem = s.mem := by rfl
@[simp] theorem State.tstErr_tags (s : State) : (s.tstErr).tags = s.tags := by rfl
@[simp] theorem State.tstErr_poison (s : State) : (s.tstErr).poison = s.poison := by rfl
@[simp] theorem State.tstErr_pages (s : State) : (s.tstErr).pages = s.pages := by rfl
@[simp] theorem State.tstErr_clusters (s : State) : (s.tstErr).clusters = s.clusters := by rfl
@[simp] theorem State.tstErr_jobs (s : State) : (s.tstErr).jobs = s.jobs := by rfl
@[simp] theorem State.tstErr_hub (s : State) : (s.tstErr).hub = s.hub := by rfl
@[simp] theorem State.tstErr_fab (s : State) : (s.tstErr).fab = s.fab := by rfl
@[simp] theorem State.tstErr_sol (s : State) : (s.tstErr).sol = s.sol := by rfl
@[simp] theorem State.tstErr_hist (s : State) : (s.tstErr).hist = s.hist := by rfl
@[simp] theorem State.tstErr_ctr (s : State) : (s.tstErr).ctr = s.ctr := by rfl
@[simp] theorem State.tstErr_pwr (s : State) : (s.tstErr).pwr = s.pwr := by rfl

/-! ### tuneErr -/

@[simp] theorem State.tuneErr_pending (s : State) : (s.tuneErr).pending = s.pending := by rfl
@[simp] theorem State.tuneErr_mem (s : State) : (s.tuneErr).mem = s.mem := by rfl
@[simp] theorem State.tuneErr_tags (s : State) : (s.tuneErr).tags = s.tags := by rfl
@[simp] theorem State.tuneErr_poison (s : State) : (s.tuneErr).poison = s.poison := by rfl
@[simp] theorem State.tuneErr_pages (s : State) : (s.tuneErr).pages = s.pages := by rfl
@[simp] theorem State.tuneErr_clusters (s : State) : (s.tuneErr).clusters = s.clusters := by rfl
@[simp] theorem State.tuneErr_jobs (s : State) : (s.tuneErr).jobs = s.jobs := by rfl
@[simp] theorem State.tuneErr_hub (s : State) : (s.tuneErr).hub = s.hub := by rfl
@[simp] theorem State.tuneErr_fab (s : State) : (s.tuneErr).fab = s.fab := by rfl
@[simp] theorem State.tuneErr_sol (s : State) : (s.tuneErr).sol = s.sol := by rfl
@[simp] theorem State.tuneErr_start (s : State) : (s.tuneErr).start = s.start := by rfl
@[simp] theorem State.tuneErr_ctr (s : State) : (s.tuneErr).ctr = s.ctr := by rfl
@[simp] theorem State.tuneErr_pwr (s : State) : (s.tuneErr).pwr = s.pwr := by rfl

/-! ### setWork -/

@[simp] theorem State.setWork_pending (s : State) (x : Site) (w : Work) : (s.setWork x w).pending = s.pending := by rfl
@[simp] theorem State.setWork_mem (s : State) (x : Site) (w : Work) : (s.setWork x w).mem = s.mem := by rfl
@[simp] theorem State.setWork_tags (s : State) (x : Site) (w : Work) : (s.setWork x w).tags = s.tags := by rfl
@[simp] theorem State.setWork_poison (s : State) (x : Site) (w : Work) : (s.setWork x w).poison = s.poison := by rfl
@[simp] theorem State.setWork_pages (s : State) (x : Site) (w : Work) : (s.setWork x w).pages = s.pages := by rfl
@[simp] theorem State.setWork_jobs (s : State) (x : Site) (w : Work) : (s.setWork x w).jobs = s.jobs := by rfl
@[simp] theorem State.setWork_hub (s : State) (x : Site) (w : Work) : (s.setWork x w).hub = s.hub := by rfl
@[simp] theorem State.setWork_fab (s : State) (x : Site) (w : Work) : (s.setWork x w).fab = s.fab := by rfl
@[simp] theorem State.setWork_sol (s : State) (x : Site) (w : Work) : (s.setWork x w).sol = s.sol := by rfl
@[simp] theorem State.setWork_start (s : State) (x : Site) (w : Work) : (s.setWork x w).start = s.start := by rfl
@[simp] theorem State.setWork_hist (s : State) (x : Site) (w : Work) : (s.setWork x w).hist = s.hist := by rfl
@[simp] theorem State.setWork_ctr (s : State) (x : Site) (w : Work) : (s.setWork x w).ctr = s.ctr := by rfl
@[simp] theorem State.setWork_pwr (s : State) (x : Site) (w : Work) : (s.setWork x w).pwr = s.pwr := by rfl

/-! ### setPCl -/

@[simp] theorem State.setPCl_pending (s : State) (p : Nat) (f : PCl → PCl) : (s.setPCl p f).pending = s.pending := rfl
@[simp] theorem State.setPCl_mem (s : State) (p : Nat) (f : PCl → PCl) : (s.setPCl p f).mem = s.mem := rfl
@[simp] theorem State.setPCl_tags (s : State) (p : Nat) (f : PCl → PCl) : (s.setPCl p f).tags = s.tags := rfl
@[simp] theorem State.setPCl_poison (s : State) (p : Nat) (f : PCl → PCl) : (s.setPCl p f).poison = s.poison := rfl
@[simp] theorem State.setPCl_pages (s : State) (p : Nat) (f : PCl → PCl) : (s.setPCl p f).pages = s.pages := rfl
@[simp] theorem State.setPCl_clusters (s : State) (p : Nat) (f : PCl → PCl) : (s.setPCl p f).clusters = s.clusters := rfl
@[simp] theorem State.setPCl_jobs (s : State) (p : Nat) (f : PCl → PCl) : (s.setPCl p f).jobs = s.jobs := rfl
@[simp] theorem State.setPCl_hub (s : State) (p : Nat) (f : PCl → PCl) : (s.setPCl p f).hub = s.hub := rfl
@[simp] theorem State.setPCl_fab (s : State) (p : Nat) (f : PCl → PCl) : (s.setPCl p f).fab = s.fab := rfl
@[simp] theorem State.setPCl_sol (s : State) (p : Nat) (f : PCl → PCl) : (s.setPCl p f).sol = s.sol := rfl
@[simp] theorem State.setPCl_ctr (s : State) (p : Nat) (f : PCl → PCl) : (s.setPCl p f).ctr = s.ctr := rfl
@[simp] theorem State.setPCl_pwr (s : State) (p : Nat) (f : PCl → PCl) : (s.setPCl p f).pwr = s.pwr := rfl
@[simp] theorem State.setPCl_start (s : State) (p : Nat) (f : PCl → PCl) : (s.setPCl p f).start = s.start.upd p f := rfl
@[simp] theorem State.setPCl_hist (s : State) (p : Nat) (f : PCl → PCl) :
    (s.setPCl p f).hist = s.hist.append (.cluster p ((s.start.upd p f).cluster p).trace) := rfl

/-! ## The field that an update changes -/

theorem State.updCluster_clusters (s : State) (l : Nat) (f : Cluster → Cluster) : (s.updCluster l f).clusters = s.clusters.modify l f := rfl
theorem State.updTask_hub (s : State) (k : TaskKey) (f : Task → Task) : (s.updTask k f).hub = s.hub.updTask k f := rfl
theorem State.store_mem (s : State) (ws : List (Nat × List Byte)) : (s.store ws).mem = Cells.writeAll s.mem ws := rfl
theorem State.put_mem (s : State) (w : Written) : (s.put w).mem = Cells.writeAll s.mem w.writes := rfl
theorem State.hubCount_ctr (s : State) (w n : Nat) : (s.hubCount w n).ctr = s.ctr.hubAdd w n := rfl
@[simp] theorem State.withFab_fab (s : State) (f : Fab) : (s.withFab f).fab = f := by rfl
theorem State.updPort_fab (s : State) (p : Nat) (f : Port → Port) : (s.updPort p f).fab = { s.fab with ports := updAt s.fab.ports p f } := rfl

/-- An update of one cluster keeps their number. -/
@[simp] theorem State.updCluster_length (s : State) (l : Nat) (f : Cluster → Cluster) : (s.updCluster l f).clusters.length = s.clusters.length :=
  List.length_modify ..
@[simp] theorem State.updDrl_length (s : State) (l : Nat) (f : Drl → Drl) : (s.updDrl l f).clusters.length = s.clusters.length :=
  List.length_modify ..

/-- An update of one cluster changes that one alone. -/
theorem State.cluster_updCluster (s : State) (l k : Nat) (f : Cluster → Cluster) (h : l < s.clusters.length) :
    (s.updCluster l f).cluster k = if k = l then f (s.cluster k) else s.cluster k := by
  simp only [State.cluster, State.updCluster, List.getD_eq_getElem?_getD, List.getElem?_modify]
  split
  · subst k
    simp [h]
  · simp [Ne.symm ‹_›]
@[simp] theorem State.cluster_updCluster_self (s : State) (l : Nat) (f : Cluster → Cluster) (h : l < s.clusters.length) :
    (s.updCluster l f).cluster l = f (s.cluster l) := by simp [State.cluster_updCluster s l l f h]
@[simp] theorem State.cluster_updCluster_other (s : State) (l k : Nat) (f : Cluster → Cluster) (h : k ≠ l) :
    (s.updCluster l f).cluster k = s.cluster k := by
  simp [State.cluster, State.updCluster, Ne.symm h]
@[simp] theorem State.updDrl_self (s : State) (l : Nat) (f : Drl → Drl) (h : l < s.clusters.length) :
    (s.updDrl l f).cluster l = { s.cluster l with drl := f (s.cluster l).drl } := State.cluster_updCluster_self s l _ h
@[simp] theorem State.updDrl_other (s : State) (l k : Nat) (f : Drl → Drl) (h : k ≠ l) : (s.updDrl l f).cluster k = s.cluster k :=
  State.cluster_updCluster_other s l k _ h

/-! ## Memory -/

/-- Every memory operation of State keeps the canonical form, and reset has it. -/
theorem State.store_wf (s : State) (ws : List (Nat × List Byte)) (h : Cells.wf s.mem = true) : Cells.wf (s.store ws).mem = true :=
  Cells.wf_writeAll h ws
theorem State.put_wf (s : State) (w : Written) (h : Cells.wf s.mem = true) : Cells.wf (s.put w).mem = true := Cells.wf_writeAll h w.writes
theorem State.softStore_wf (s : State) (a : Nat) (bs : List Byte) (h : Cells.wf s.mem = true) : Cells.wf (s.softStore a bs).mem = true :=
  Cells.wf_writeAll (Cells.wf_writeAll h _) _
theorem State.storeHdm_wf (s : State) (ws : List (Nat × List Byte)) (h : Cells.wf s.mem = true) : Cells.wf (s.storeHdm ws).mem = true :=
  Cells.wf_writeAll h _
theorem State.reset_mem_wf : Cells.wf State.reset.mem = true := rfl

/-- A store leaves every byte outside its ranges. -/
theorem State.store_byte_other (s : State) (ws : List (Nat × List Byte)) (b : Nat)
    (h : ∀ w ∈ ws, ¬ (w.1 ≤ b ∧ b < w.1 + w.2.length)) : Cells.byte (s.store ws).mem b = Cells.byte s.mem b :=
  Cells.byte_writeAll_other s.mem ws b h

end Sys2Proof.Machine
end

