-- ==== Sys2Proof/Laws/Ops.lean ====
section
/-!
SUPPORT. One lemma for each operation, which says every part of the state that it keeps. Here: the shared operations: what each keeps of the state whatever it does.
-/

namespace Sys2Proof.Machine

/-! ## Ops -/

@[simp] theorem State.updCluster_keeps (s : State) (l : Nat) (f : Cluster → Cluster) : (State.updCluster s l f).pending = s.pending ∧
    (State.updCluster s l f).mem = s.mem ∧ (State.updCluster s l f).tags = s.tags ∧ (State.updCluster s l f).poison = s.poison ∧
    (State.updCluster s l f).pages = s.pages ∧ (State.updCluster s l f).jobs = s.jobs ∧ (State.updCluster s l f).hub = s.hub ∧
    (State.updCluster s l f).fab = s.fab ∧ (State.updCluster s l f).sol = s.sol ∧ (State.updCluster s l f).start = s.start ∧
    (State.updCluster s l f).hist = s.hist ∧ (State.updCluster s l f).ctr = s.ctr ∧ (State.updCluster s l f).pwr = s.pwr ∧
    (State.updCluster s l f).clusters.length = s.clusters.length := by
  simp [State.updCluster]
@[simp] theorem State.updDrl_keeps (s : State) (l : Nat) (f : Drl → Drl) : (State.updDrl s l f).pending = s.pending ∧
    (State.updDrl s l f).mem = s.mem ∧ (State.updDrl s l f).tags = s.tags ∧ (State.updDrl s l f).poison = s.poison ∧
    (State.updDrl s l f).pages = s.pages ∧ (State.updDrl s l f).jobs = s.jobs ∧ (State.updDrl s l f).hub = s.hub ∧
    (State.updDrl s l f).fab = s.fab ∧ (State.updDrl s l f).sol = s.sol ∧ (State.updDrl s l f).start = s.start ∧
    (State.updDrl s l f).hist = s.hist ∧ (State.updDrl s l f).ctr = s.ctr ∧ (State.updDrl s l f).pwr = s.pwr ∧
    (State.updDrl s l f).clusters.length = s.clusters.length := by
  simp [State.updDrl]
@[simp] theorem State.updJob_keeps (s : State) (ctx : Nat) (handle : Nat) (f : Job → Job) : (State.updJob s ctx handle f).pending = s.pending ∧
    (State.updJob s ctx handle f).mem = s.mem ∧ (State.updJob s ctx handle f).tags = s.tags ∧ (State.updJob s ctx handle f).poison = s.poison ∧
    (State.updJob s ctx handle f).pages = s.pages ∧ (State.updJob s ctx handle f).clusters = s.clusters ∧
    (State.updJob s ctx handle f).hub = s.hub ∧ (State.updJob s ctx handle f).fab = s.fab ∧ (State.updJob s ctx handle f).sol = s.sol ∧
    (State.updJob s ctx handle f).start = s.start ∧ (State.updJob s ctx handle f).hist = s.hist ∧ (State.updJob s ctx handle f).ctr = s.ctr ∧
    (State.updJob s ctx handle f).pwr = s.pwr := by
  simp [State.updJob]
@[simp] theorem State.updTask_keeps (s : State) (k : TaskKey) (f : Task → Task) : (State.updTask s k f).pending = s.pending ∧
    (State.updTask s k f).mem = s.mem ∧ (State.updTask s k f).tags = s.tags ∧ (State.updTask s k f).poison = s.poison ∧
    (State.updTask s k f).pages = s.pages ∧ (State.updTask s k f).clusters = s.clusters ∧ (State.updTask s k f).jobs = s.jobs ∧
    (State.updTask s k f).fab = s.fab ∧ (State.updTask s k f).sol = s.sol ∧ (State.updTask s k f).start = s.start ∧
    (State.updTask s k f).hist = s.hist ∧ (State.updTask s k f).ctr = s.ctr ∧ (State.updTask s k f).pwr = s.pwr ∧
    (State.updTask s k f).hub.module = s.hub.module := by
  simp [State.updTask]
@[simp] theorem State.store_keeps (s : State) (ws : List (Nat × List Byte)) : (State.store s ws).pending = s.pending ∧
    (State.store s ws).tags = s.tags ∧ (State.store s ws).pages = s.pages ∧ (State.store s ws).clusters = s.clusters ∧
    (State.store s ws).jobs = s.jobs ∧ (State.store s ws).hub = s.hub ∧ (State.store s ws).fab = s.fab ∧ (State.store s ws).sol = s.sol ∧
    (State.store s ws).start = s.start ∧ (State.store s ws).hist = s.hist ∧ (State.store s ws).ctr = s.ctr ∧
    (State.store s ws).pwr = s.pwr := by
  simp [State.store]
@[simp] theorem State.softStore_keeps (s : State) (a : Nat) (bs : List Byte) : (State.softStore s a bs).pending = s.pending ∧
    (State.softStore s a bs).tags = s.tags ∧ (State.softStore s a bs).pages = s.pages ∧ (State.softStore s a bs).clusters = s.clusters ∧
    (State.softStore s a bs).jobs = s.jobs ∧ (State.softStore s a bs).hub = s.hub ∧ (State.softStore s a bs).fab = s.fab ∧
    (State.softStore s a bs).sol = s.sol ∧ (State.softStore s a bs).start = s.start ∧ (State.softStore s a bs).hist = s.hist ∧
    (State.softStore s a bs).ctr = s.ctr ∧ (State.softStore s a bs).pwr = s.pwr := by
  simp [State.softStore]
@[simp] theorem State.retag_keeps (s : State) (src : Nat) (dst : Nat) (n : Nat) : (State.retag s src dst n).pending = s.pending ∧
    (State.retag s src dst n).mem = s.mem ∧ (State.retag s src dst n).poison = s.poison ∧ (State.retag s src dst n).pages = s.pages ∧
    (State.retag s src dst n).clusters = s.clusters ∧ (State.retag s src dst n).jobs = s.jobs ∧ (State.retag s src dst n).hub = s.hub ∧
    (State.retag s src dst n).fab = s.fab ∧ (State.retag s src dst n).sol = s.sol ∧ (State.retag s src dst n).start = s.start ∧
    (State.retag s src dst n).hist = s.hist ∧ (State.retag s src dst n).ctr = s.ctr ∧ (State.retag s src dst n).pwr = s.pwr := by
  simp [State.retag]
@[simp] theorem State.put_keeps (s : State) (w : Written) : (State.put s w).pending = s.pending ∧ (State.put s w).pages = s.pages ∧
    (State.put s w).clusters = s.clusters ∧ (State.put s w).jobs = s.jobs ∧ (State.put s w).hub = s.hub ∧ (State.put s w).fab = s.fab ∧
    (State.put s w).sol = s.sol ∧ (State.put s w).start = s.start ∧ (State.put s w).hist = s.hist ∧ (State.put s w).ctr = s.ctr ∧
    (State.put s w).pwr = s.pwr := by
  simp [State.put]
@[simp] theorem State.hubStore_keeps (s : State) (ws : List (Nat × List Byte)) : (State.hubStore s ws).pending = s.pending ∧
    (State.hubStore s ws).tags = s.tags ∧ (State.hubStore s ws).clusters = s.clusters ∧ (State.hubStore s ws).jobs = s.jobs ∧
    (State.hubStore s ws).hub = s.hub ∧ (State.hubStore s ws).fab = s.fab ∧ (State.hubStore s ws).sol = s.sol ∧
    (State.hubStore s ws).start = s.start ∧ (State.hubStore s ws).hist = s.hist ∧ (State.hubStore s ws).ctr = s.ctr ∧
    (State.hubStore s ws).pwr = s.pwr := by
  simp [State.hubStore]
@[simp] theorem State.storeHdm_keeps (s : State) (ws : List (Nat × List Byte)) : (State.storeHdm s ws).pending = s.pending ∧
    (State.storeHdm s ws).tags = s.tags ∧ (State.storeHdm s ws).clusters = s.clusters ∧ (State.storeHdm s ws).jobs = s.jobs ∧
    (State.storeHdm s ws).hub = s.hub ∧ (State.storeHdm s ws).fab = s.fab ∧ (State.storeHdm s ws).sol = s.sol ∧
    (State.storeHdm s ws).start = s.start ∧ (State.storeHdm s ws).hist = s.hist ∧ (State.storeHdm s ws).ctr = s.ctr ∧
    (State.storeHdm s ws).pwr = s.pwr := by
  simp [State.storeHdm]
@[simp] theorem State.count_keeps (s : State) (l : Nat) (ws : List (Nat × Nat)) : (State.count s l ws).pending = s.pending ∧
    (State.count s l ws).mem = s.mem ∧ (State.count s l ws).tags = s.tags ∧ (State.count s l ws).poison = s.poison ∧
    (State.count s l ws).pages = s.pages ∧ (State.count s l ws).jobs = s.jobs ∧ (State.count s l ws).hub = s.hub ∧
    (State.count s l ws).fab = s.fab ∧ (State.count s l ws).sol = s.sol ∧ (State.count s l ws).start = s.start ∧
    (State.count s l ws).hist = s.hist ∧ (State.count s l ws).ctr = s.ctr ∧ (State.count s l ws).pwr = s.pwr ∧
    (State.count s l ws).clusters.length = s.clusters.length := by
  simp [State.count]
@[simp] theorem State.hubCount_keeps (s : State) (w : Nat) (n : Nat) : (State.hubCount s w n).pending = s.pending ∧
    (State.hubCount s w n).mem = s.mem ∧ (State.hubCount s w n).tags = s.tags ∧ (State.hubCount s w n).poison = s.poison ∧
    (State.hubCount s w n).pages = s.pages ∧ (State.hubCount s w n).clusters = s.clusters ∧ (State.hubCount s w n).jobs = s.jobs ∧
    (State.hubCount s w n).hub = s.hub ∧ (State.hubCount s w n).fab = s.fab ∧ (State.hubCount s w n).sol = s.sol ∧
    (State.hubCount s w n).start = s.start ∧ (State.hubCount s w n).hist = s.hist ∧ (State.hubCount s w n).pwr = s.pwr := by
  simp [State.hubCount]
@[simp] theorem State.pace_keeps (s : State) (l : Nat) (ws : List (Nat × Nat)) : (State.pace s l ws).pending = s.pending ∧
    (State.pace s l ws).mem = s.mem ∧ (State.pace s l ws).tags = s.tags ∧ (State.pace s l ws).poison = s.poison ∧
    (State.pace s l ws).pages = s.pages ∧ (State.pace s l ws).jobs = s.jobs ∧ (State.pace s l ws).hub = s.hub ∧
    (State.pace s l ws).fab = s.fab ∧ (State.pace s l ws).sol = s.sol ∧ (State.pace s l ws).start = s.start ∧
    (State.pace s l ws).hist = s.hist ∧ (State.pace s l ws).pwr = s.pwr ∧ (State.pace s l ws).clusters.length = s.clusters.length := by
  simp [State.pace]
@[simp] theorem State.withFab_keeps (s : State) (f : Fab) : (s.withFab f).pending = s.pending ∧ (s.withFab f).mem = s.mem ∧
    (s.withFab f).tags = s.tags ∧ (s.withFab f).poison = s.poison ∧ (s.withFab f).pages = s.pages ∧ (s.withFab f).clusters = s.clusters ∧
    (s.withFab f).jobs = s.jobs ∧ (s.withFab f).hub = s.hub ∧ (s.withFab f).sol = s.sol ∧ (s.withFab f).start = s.start ∧
    (s.withFab f).hist = s.hist ∧ (s.withFab f).pwr = s.pwr := by simp [State.withFab]
@[simp] theorem State.trace_keeps (s : State) (l : Nat) (f : Flight) (op : Opcode) (step : Nat) (event : Nat) (unit : Nat) (lt : Nat) (detail : Word) :
    (State.trace s l f op step event unit lt detail).pending = s.pending ∧
    (State.trace s l f op step event unit lt detail).tags = s.tags ∧ (State.trace s l f op step event unit lt detail).jobs = s.jobs ∧
    (State.trace s l f op step event unit lt detail).hub = s.hub ∧ (State.trace s l f op step event unit lt detail).fab = s.fab ∧
    (State.trace s l f op step event unit lt detail).sol = s.sol ∧ (State.trace s l f op step event unit lt detail).start = s.start ∧
    (State.trace s l f op step event unit lt detail).hist = s.hist ∧ (State.trace s l f op step event unit lt detail).ctr = s.ctr ∧
    (State.trace s l f op step event unit lt detail).pwr = s.pwr ∧
    (State.trace s l f op step event unit lt detail).clusters.length = s.clusters.length := by
  unfold State.trace
  (repeat' split) <;> simp
@[simp] theorem State.send_keeps (s : State) (m : Msg) : (State.send s m).pending = s.pending ∧ (State.send s m).mem = s.mem ∧
    (State.send s m).tags = s.tags ∧ (State.send s m).poison = s.poison ∧ (State.send s m).pages = s.pages ∧
    (State.send s m).clusters = s.clusters ∧ (State.send s m).jobs = s.jobs ∧ (State.send s m).hub = s.hub ∧ (State.send s m).sol = s.sol ∧
    (State.send s m).start = s.start ∧ (State.send s m).hist = s.hist ∧ (State.send s m).pwr = s.pwr ∧
    (State.send s m).fab.ports.length = s.fab.ports.length := by
  simp [State.send]
@[simp] theorem State.sendRaw_keeps (s : State) (p : Nat) (m : Msg) : (State.sendRaw s p m).pending = s.pending ∧
    (State.sendRaw s p m).mem = s.mem ∧ (State.sendRaw s p m).tags = s.tags ∧ (State.sendRaw s p m).poison = s.poison ∧
    (State.sendRaw s p m).pages = s.pages ∧ (State.sendRaw s p m).clusters = s.clusters ∧ (State.sendRaw s p m).jobs = s.jobs ∧
    (State.sendRaw s p m).hub = s.hub ∧ (State.sendRaw s p m).sol = s.sol ∧ (State.sendRaw s p m).start = s.start ∧
    (State.sendRaw s p m).hist = s.hist ∧ (State.sendRaw s p m).pwr = s.pwr ∧
    (State.sendRaw s p m).fab.ports.length = s.fab.ports.length := by
  simp [State.sendRaw]
@[simp] theorem State.sendHub_keeps (s : State) (dst : Nat) (ctx : Nat) (b : Body) : (State.sendHub s dst ctx b).pending = s.pending ∧
    (State.sendHub s dst ctx b).mem = s.mem ∧ (State.sendHub s dst ctx b).tags = s.tags ∧ (State.sendHub s dst ctx b).poison = s.poison ∧
    (State.sendHub s dst ctx b).pages = s.pages ∧ (State.sendHub s dst ctx b).clusters = s.clusters ∧
    (State.sendHub s dst ctx b).jobs = s.jobs ∧ (State.sendHub s dst ctx b).hub = s.hub ∧ (State.sendHub s dst ctx b).sol = s.sol ∧
    (State.sendHub s dst ctx b).start = s.start ∧ (State.sendHub s dst ctx b).hist = s.hist ∧ (State.sendHub s dst ctx b).pwr = s.pwr ∧
    (State.sendHub s dst ctx b).fab.ports.length = s.fab.ports.length := by
  simp [State.sendHub]
@[simp] theorem State.sendChunk_keeps (s : State) (dst : Nat) (hall : Bool) (seq : Nat) (chunk : Nat) (bytes : List Byte) :
    (State.sendChunk s dst hall seq chunk bytes).pending = s.pending ∧
    (State.sendChunk s dst hall seq chunk bytes).mem = s.mem ∧ (State.sendChunk s dst hall seq chunk bytes).tags = s.tags ∧
    (State.sendChunk s dst hall seq chunk bytes).poison = s.poison ∧ (State.sendChunk s dst hall seq chunk bytes).pages = s.pages ∧
    (State.sendChunk s dst hall seq chunk bytes).clusters = s.clusters ∧ (State.sendChunk s dst hall seq chunk bytes).jobs = s.jobs ∧
    (State.sendChunk s dst hall seq chunk bytes).hub = s.hub ∧ (State.sendChunk s dst hall seq chunk bytes).sol = s.sol ∧
    (State.sendChunk s dst hall seq chunk bytes).start = s.start ∧ (State.sendChunk s dst hall seq chunk bytes).hist = s.hist ∧
    (State.sendChunk s dst hall seq chunk bytes).pwr = s.pwr ∧
    (State.sendChunk s dst hall seq chunk bytes).fab.ports.length = s.fab.ports.length := by
  simp [State.sendChunk]
@[simp] theorem State.loseCoppice_keeps (s : State) : (State.loseCoppice s).pending = s.pending ∧ (State.loseCoppice s).mem = s.mem ∧
    (State.loseCoppice s).tags = s.tags ∧ (State.loseCoppice s).poison = s.poison ∧ (State.loseCoppice s).pages = s.pages ∧
    (State.loseCoppice s).clusters = s.clusters ∧ (State.loseCoppice s).jobs = s.jobs ∧ (State.loseCoppice s).sol = s.sol ∧
    (State.loseCoppice s).start = s.start ∧ (State.loseCoppice s).hist = s.hist ∧ (State.loseCoppice s).pwr = s.pwr ∧
    (State.loseCoppice s).fab.ports.length = s.fab.ports.length ∧ (State.loseCoppice s).hub.module = s.hub.module := by
  simp [State.loseCoppice]
@[simp] theorem State.hubIssue_keeps (s : State) (r : HubReq) : (State.hubIssue s r).pending = s.pending ∧ (State.hubIssue s r).mem = s.mem ∧
    (State.hubIssue s r).tags = s.tags ∧ (State.hubIssue s r).poison = s.poison ∧ (State.hubIssue s r).pages = s.pages ∧
    (State.hubIssue s r).clusters = s.clusters ∧ (State.hubIssue s r).jobs = s.jobs ∧ (State.hubIssue s r).sol = s.sol ∧
    (State.hubIssue s r).start = s.start ∧ (State.hubIssue s r).hist = s.hist ∧ (State.hubIssue s r).pwr = s.pwr ∧
    (State.hubIssue s r).fab.ports.length = s.fab.ports.length ∧ (State.hubIssue s r).hub.module = s.hub.module := by
  unfold State.hubIssue
  (repeat' split) <;> simp
@[simp] theorem State.hubFlush_keeps (s : State) : (State.hubFlush s).pending = s.pending ∧ (State.hubFlush s).mem = s.mem ∧
    (State.hubFlush s).tags = s.tags ∧ (State.hubFlush s).poison = s.poison ∧ (State.hubFlush s).pages = s.pages ∧
    (State.hubFlush s).clusters = s.clusters ∧ (State.hubFlush s).jobs = s.jobs ∧ (State.hubFlush s).sol = s.sol ∧
    (State.hubFlush s).start = s.start ∧ (State.hubFlush s).hist = s.hist ∧ (State.hubFlush s).pwr = s.pwr ∧
    (State.hubFlush s).fab.ports.length = s.fab.ports.length ∧ (State.hubFlush s).hub.module = s.hub.module := by
  simp [State.hubFlush]
@[simp] theorem State.hubRequest_keeps (s : State) (dst : Nat) (ctx : Nat) (use : HubUse) (b : Body) :
    (State.hubRequest s dst ctx use b).pending = s.pending ∧
    (State.hubRequest s dst ctx use b).mem = s.mem ∧ (State.hubRequest s dst ctx use b).tags = s.tags ∧
    (State.hubRequest s dst ctx use b).poison = s.poison ∧ (State.hubRequest s dst ctx use b).pages = s.pages ∧
    (State.hubRequest s dst ctx use b).clusters = s.clusters ∧ (State.hubRequest s dst ctx use b).jobs = s.jobs ∧
    (State.hubRequest s dst ctx use b).sol = s.sol ∧ (State.hubRequest s dst ctx use b).start = s.start ∧
    (State.hubRequest s dst ctx use b).hist = s.hist ∧ (State.hubRequest s dst ctx use b).pwr = s.pwr ∧
    (State.hubRequest s dst ctx use b).fab.ports.length = s.fab.ports.length ∧
    (State.hubRequest s dst ctx use b).hub.module = s.hub.module := by
  simp [State.hubRequest]
@[simp] theorem State.writeGlobal_keeps (s : State) (ctx : Nat) (use : HubUse) (addr : Nat) (bytes : List Byte) :
    (State.writeGlobal s ctx use addr bytes).pending = s.pending ∧
    (State.writeGlobal s ctx use addr bytes).tags = s.tags ∧ (State.writeGlobal s ctx use addr bytes).clusters = s.clusters ∧
    (State.writeGlobal s ctx use addr bytes).jobs = s.jobs ∧ (State.writeGlobal s ctx use addr bytes).sol = s.sol ∧
    (State.writeGlobal s ctx use addr bytes).start = s.start ∧ (State.writeGlobal s ctx use addr bytes).hist = s.hist ∧
    (State.writeGlobal s ctx use addr bytes).pwr = s.pwr ∧ (State.writeGlobal s ctx use addr bytes).fab.ports.length = s.fab.ports.length ∧
    (State.writeGlobal s ctx use addr bytes).hub.module = s.hub.module := by
  unfold State.writeGlobal
  (repeat' split) <;> simp
@[simp] theorem State.endCycle_keeps (s : State) (k : TaskKey) (p : SolPlan) (aborted : Bool) : (State.endCycle s k p aborted).pending = s.pending ∧
    (State.endCycle s k p aborted).tags = s.tags ∧ (State.endCycle s k p aborted).clusters = s.clusters ∧
    (State.endCycle s k p aborted).jobs = s.jobs ∧ (State.endCycle s k p aborted).sol = s.sol ∧ (State.endCycle s k p aborted).start = s.start ∧
    (State.endCycle s k p aborted).hist = s.hist ∧ (State.endCycle s k p aborted).pwr = s.pwr ∧
    (State.endCycle s k p aborted).fab.ports.length = s.fab.ports.length ∧ (State.endCycle s k p aborted).hub.module = s.hub.module := by
  unfold State.endCycle
  (repeat' split) <;> simp
theorem State.request_keeps {s : State} {l : Nat} {idx : Option Nat} {dst ctx : Nat} {b : Body} {also : List Nat} {t : State} (h : s.request l idx dst ctx b also = some t) :
    t.pending = s.pending ∧
    t.mem = s.mem ∧ t.tags = s.tags ∧ t.poison = s.poison ∧ t.pages = s.pages ∧ t.jobs = s.jobs ∧ t.sol = s.sol ∧ t.start = s.start ∧
    t.hist = s.hist ∧ t.pwr = s.pwr ∧ t.clusters.length = s.clusters.length ∧ t.hub = s.hub ∧ t.fab.ports.length = s.fab.ports.length := by
  unfold State.request at h
  split at h
  · cases h
  · cases h
    simp
@[simp] theorem State.ringEnd_keeps (s : State) (n : Nat) (slot : Nat) (releases : Bool) (c : Option Cqe) :
    (State.ringEnd s n slot releases c).pending = s.pending ∧
    (State.ringEnd s n slot releases c).tags = s.tags ∧ (State.ringEnd s n slot releases c).clusters = s.clusters ∧
    (State.ringEnd s n slot releases c).jobs = s.jobs ∧ (State.ringEnd s n slot releases c).fab = s.fab ∧
    (State.ringEnd s n slot releases c).sol = s.sol ∧ (State.ringEnd s n slot releases c).start = s.start ∧
    (State.ringEnd s n slot releases c).hist = s.hist ∧ (State.ringEnd s n slot releases c).pwr = s.pwr ∧
    (State.ringEnd s n slot releases c).hub.module = s.hub.module := by
  unfold State.ringEnd
  (repeat' split) <;> simp
@[simp] theorem State.endPkt_keeps (s : State) (p : Pkt) (status : Nat) (value : Word) (releases : Bool) :
    (State.endPkt s p status value releases).pending = s.pending ∧
    (State.endPkt s p status value releases).tags = s.tags ∧ (State.endPkt s p status value releases).clusters = s.clusters ∧
    (State.endPkt s p status value releases).jobs = s.jobs ∧ (State.endPkt s p status value releases).sol = s.sol ∧
    (State.endPkt s p status value releases).start = s.start ∧ (State.endPkt s p status value releases).hist = s.hist ∧
    (State.endPkt s p status value releases).pwr = s.pwr ∧ (State.endPkt s p status value releases).fab.ports.length = s.fab.ports.length ∧
    (State.endPkt s p status value releases).hub.module = s.hub.module := by
  unfold State.endPkt
  (repeat' split) <;> simp
@[simp] theorem State.freeHeld_keeps (s : State) (h : Held) : (State.freeHeld s h).pending = s.pending ∧ (State.freeHeld s h).tags = s.tags ∧
    (State.freeHeld s h).clusters = s.clusters ∧ (State.freeHeld s h).jobs = s.jobs ∧ (State.freeHeld s h).sol = s.sol ∧
    (State.freeHeld s h).start = s.start ∧ (State.freeHeld s h).hist = s.hist ∧ (State.freeHeld s h).pwr = s.pwr ∧
    (State.freeHeld s h).fab.ports.length = s.fab.ports.length ∧ (State.freeHeld s h).hub.module = s.hub.module := by
  unfold State.freeHeld
  (repeat' split) <;> simp
@[simp] theorem State.freeHelds_keeps (s : State) (f : Held → Bool) : (State.freeHelds s f).pending = s.pending ∧
    (State.freeHelds s f).tags = s.tags ∧ (State.freeHelds s f).clusters = s.clusters ∧ (State.freeHelds s f).jobs = s.jobs ∧
    (State.freeHelds s f).sol = s.sol ∧ (State.freeHelds s f).start = s.start ∧ (State.freeHelds s f).hist = s.hist ∧
    (State.freeHelds s f).pwr = s.pwr ∧ (State.freeHelds s f).fab.ports.length = s.fab.ports.length ∧
    (State.freeHelds s f).hub.module = s.hub.module := by
  simp [State.freeHelds]
@[simp] theorem State.endPktId_keeps (s : State) (id : Option Nat) (status : Nat) (value : Word) :
    (State.endPktId s id status value).pending = s.pending ∧
    (State.endPktId s id status value).tags = s.tags ∧ (State.endPktId s id status value).clusters = s.clusters ∧
    (State.endPktId s id status value).jobs = s.jobs ∧ (State.endPktId s id status value).sol = s.sol ∧
    (State.endPktId s id status value).start = s.start ∧ (State.endPktId s id status value).hist = s.hist ∧
    (State.endPktId s id status value).pwr = s.pwr ∧ (State.endPktId s id status value).fab.ports.length = s.fab.ports.length ∧
    (State.endPktId s id status value).hub.module = s.hub.module := by
  unfold State.endPktId
  (repeat' split) <;> simp
@[simp] theorem State.setPCl_keeps (s : State) (p : Nat) (f : PCl → PCl) : (State.setPCl s p f).pending = s.pending ∧
    (State.setPCl s p f).mem = s.mem ∧ (State.setPCl s p f).tags = s.tags ∧ (State.setPCl s p f).poison = s.poison ∧
    (State.setPCl s p f).pages = s.pages ∧ (State.setPCl s p f).clusters = s.clusters ∧ (State.setPCl s p f).jobs = s.jobs ∧
    (State.setPCl s p f).hub = s.hub ∧ (State.setPCl s p f).fab = s.fab ∧ (State.setPCl s p f).sol = s.sol ∧ (State.setPCl s p f).ctr = s.ctr ∧
    (State.setPCl s p f).pwr = s.pwr ∧ (State.setPCl s p f).start.pcl.length = s.start.pcl.length ∧
    (State.setPCl s p f).start.flash.xidx = s.start.flash.xidx ∧ (State.setPCl s p f).start.lc = s.start.lc ∧
    (State.setPCl s p f).start.starts = s.start.starts := by
  simp [State.setPCl]
@[simp] theorem State.settleSubst_keeps (s : State) (l : Nat) : (State.settleSubst s l).pending = s.pending ∧
    (State.settleSubst s l).mem = s.mem ∧ (State.settleSubst s l).tags = s.tags ∧ (State.settleSubst s l).poison = s.poison ∧
    (State.settleSubst s l).pages = s.pages ∧ (State.settleSubst s l).jobs = s.jobs ∧ (State.settleSubst s l).hub = s.hub ∧
    (State.settleSubst s l).fab = s.fab ∧ (State.settleSubst s l).sol = s.sol ∧ (State.settleSubst s l).ctr = s.ctr ∧
    (State.settleSubst s l).pwr = s.pwr ∧ (State.settleSubst s l).clusters.length = s.clusters.length ∧
    (State.settleSubst s l).start.pcl.length = s.start.pcl.length ∧ (State.settleSubst s l).start.flash.xidx = s.start.flash.xidx ∧
    (State.settleSubst s l).start.lc = s.start.lc ∧ (State.settleSubst s l).start.starts = s.start.starts := by
  unfold State.settleSubst
  repeat' (first | split | dsimp only)
  all_goals simp
@[simp] theorem State.zeroStores_keeps (s : State) (l : Nat) : (State.zeroStores s l).pending = s.pending ∧
    (State.zeroStores s l).pages = s.pages ∧ (State.zeroStores s l).clusters = s.clusters ∧ (State.zeroStores s l).jobs = s.jobs ∧
    (State.zeroStores s l).hub = s.hub ∧ (State.zeroStores s l).fab = s.fab ∧ (State.zeroStores s l).sol = s.sol ∧
    (State.zeroStores s l).start = s.start ∧ (State.zeroStores s l).hist = s.hist ∧ (State.zeroStores s l).ctr = s.ctr ∧
    (State.zeroStores s l).pwr = s.pwr := by
  simp [State.zeroStores]
@[simp] theorem State.copyRange_keeps (s : State) (src : Nat) (dst : Nat) (n : Nat) : (State.copyRange s src dst n).pending = s.pending ∧
    (State.copyRange s src dst n).pages = s.pages ∧ (State.copyRange s src dst n).clusters = s.clusters ∧
    (State.copyRange s src dst n).jobs = s.jobs ∧ (State.copyRange s src dst n).hub = s.hub ∧ (State.copyRange s src dst n).fab = s.fab ∧
    (State.copyRange s src dst n).sol = s.sol ∧ (State.copyRange s src dst n).start = s.start ∧ (State.copyRange s src dst n).hist = s.hist ∧
    (State.copyRange s src dst n).ctr = s.ctr ∧ (State.copyRange s src dst n).pwr = s.pwr := by
  simp [State.copyRange]
@[simp] theorem State.writeSlot_keeps (s : State) (k : TaskKey) (l : Nat) (d : Drl) (full : Bool) (cfg : Word) (shadow : Word) :
    (State.writeSlot s k l d full cfg shadow).pending = s.pending ∧
    (State.writeSlot s k l d full cfg shadow).tags = s.tags ∧ (State.writeSlot s k l d full cfg shadow).pages = s.pages ∧
    (State.writeSlot s k l d full cfg shadow).clusters = s.clusters ∧ (State.writeSlot s k l d full cfg shadow).jobs = s.jobs ∧
    (State.writeSlot s k l d full cfg shadow).hub = s.hub ∧ (State.writeSlot s k l d full cfg shadow).fab = s.fab ∧
    (State.writeSlot s k l d full cfg shadow).sol = s.sol ∧ (State.writeSlot s k l d full cfg shadow).start = s.start ∧
    (State.writeSlot s k l d full cfg shadow).hist = s.hist ∧ (State.writeSlot s k l d full cfg shadow).ctr = s.ctr ∧
    (State.writeSlot s k l d full cfg shadow).pwr = s.pwr := by
  simp [State.writeSlot]
@[simp] theorem State.settlePause_keeps (s : State) (l : Nat) : (State.settlePause s l).pending = s.pending ∧
    (State.settlePause s l).mem = s.mem ∧ (State.settlePause s l).tags = s.tags ∧ (State.settlePause s l).poison = s.poison ∧
    (State.settlePause s l).pages = s.pages ∧ (State.settlePause s l).jobs = s.jobs ∧ (State.settlePause s l).hub = s.hub ∧
    (State.settlePause s l).fab = s.fab ∧ (State.settlePause s l).sol = s.sol ∧ (State.settlePause s l).start = s.start ∧
    (State.settlePause s l).hist = s.hist ∧ (State.settlePause s l).ctr = s.ctr ∧ (State.settlePause s l).pwr = s.pwr ∧
    (State.settlePause s l).clusters.length = s.clusters.length := by
  unfold State.settlePause
  repeat' (first | split | dsimp only)
  all_goals simp
@[simp] theorem State.leaveCluster_keeps (s : State) (k : TaskKey) (status : Nat) (l : Nat) : (State.leaveCluster s k status l).pending = s.pending ∧
    (State.leaveCluster s k status l).pages = s.pages ∧ (State.leaveCluster s k status l).jobs = s.jobs ∧
    (State.leaveCluster s k status l).hub = s.hub ∧ (State.leaveCluster s k status l).fab = s.fab ∧
    (State.leaveCluster s k status l).sol = s.sol ∧ (State.leaveCluster s k status l).ctr = s.ctr ∧
    (State.leaveCluster s k status l).pwr = s.pwr ∧ (State.leaveCluster s k status l).clusters.length = s.clusters.length ∧
    (State.leaveCluster s k status l).start.pcl.length = s.start.pcl.length ∧
    (State.leaveCluster s k status l).start.flash.xidx = s.start.flash.xidx ∧ (State.leaveCluster s k status l).start.lc = s.start.lc ∧
    (State.leaveCluster s k status l).start.starts = s.start.starts := by
  unfold State.leaveCluster
  repeat' (first | split | dsimp only)
  all_goals simp
@[simp] theorem State.endTask_keeps (s : State) (k : TaskKey) (status : Nat) (next : Nat) : (State.endTask s k status next).pending = s.pending ∧
    (State.endTask s k status next).jobs = s.jobs ∧ (State.endTask s k status next).sol = s.sol ∧ (State.endTask s k status next).pwr = s.pwr ∧
    (State.endTask s k status next).clusters.length = s.clusters.length ∧
    (State.endTask s k status next).fab.ports.length = s.fab.ports.length ∧
    (State.endTask s k status next).start.pcl.length = s.start.pcl.length ∧
    (State.endTask s k status next).start.flash.xidx = s.start.flash.xidx ∧ (State.endTask s k status next).start.lc = s.start.lc ∧
    (State.endTask s k status next).start.starts = s.start.starts ∧ (State.endTask s k status next).hub.module = s.hub.module := by
  unfold State.endTask
  (repeat' split) <;> simp
@[simp] theorem State.closeCycle_keeps (s : State) (k : TaskKey) (p : SolPlan) : (State.closeCycle s k p).pending = s.pending ∧
    (State.closeCycle s k p).jobs = s.jobs ∧ (State.closeCycle s k p).pwr = s.pwr ∧
    (State.closeCycle s k p).clusters.length = s.clusters.length ∧ (State.closeCycle s k p).fab.ports.length = s.fab.ports.length ∧
    (State.closeCycle s k p).start.pcl.length = s.start.pcl.length ∧ (State.closeCycle s k p).start.flash.xidx = s.start.flash.xidx ∧
    (State.closeCycle s k p).start.lc = s.start.lc ∧ (State.closeCycle s k p).start.starts = s.start.starts ∧
    (State.closeCycle s k p).hub.module = s.hub.module := by
  unfold State.closeCycle
  repeat' (first | split | dsimp only)
  all_goals simp
@[simp] theorem State.traceCut_keeps (s : State) (k : TaskKey) (j : Job) (step : Nat) (status : Nat) (l : Nat) :
    (State.traceCut s k j step status l).pending = s.pending ∧
    (State.traceCut s k j step status l).tags = s.tags ∧ (State.traceCut s k j step status l).jobs = s.jobs ∧
    (State.traceCut s k j step status l).hub = s.hub ∧ (State.traceCut s k j step status l).fab = s.fab ∧
    (State.traceCut s k j step status l).sol = s.sol ∧ (State.traceCut s k j step status l).start = s.start ∧
    (State.traceCut s k j step status l).hist = s.hist ∧ (State.traceCut s k j step status l).ctr = s.ctr ∧
    (State.traceCut s k j step status l).pwr = s.pwr ∧ (State.traceCut s k j step status l).clusters.length = s.clusters.length := by
  unfold State.traceCut
  repeat' (first | split | dsimp only)
  all_goals (repeat' apply And.intro)
  all_goals (try simp; done)
  all_goals ((first | apply foldl_pending | apply foldl_tags | apply foldl_jobs | apply foldl_hub | apply foldl_fab | apply foldl_sol | apply foldl_start | apply foldl_hist | apply foldl_ctr | apply foldl_pwr | apply foldl_clusters_length) <;> (intros; (repeat' (first | split | dsimp only)) <;> simp))
@[simp] theorem State.locateTile_keeps (s : State) (l : Nat) (lt : Nat) (rows : List Nat) (cols : List Nat) :
    (State.locateTile s l lt rows cols).pending = s.pending ∧
    (State.locateTile s l lt rows cols).mem = s.mem ∧ (State.locateTile s l lt rows cols).tags = s.tags ∧
    (State.locateTile s l lt rows cols).poison = s.poison ∧ (State.locateTile s l lt rows cols).pages = s.pages ∧
    (State.locateTile s l lt rows cols).clusters = s.clusters ∧ (State.locateTile s l lt rows cols).jobs = s.jobs ∧
    (State.locateTile s l lt rows cols).hub = s.hub ∧ (State.locateTile s l lt rows cols).fab = s.fab ∧
    (State.locateTile s l lt rows cols).sol = s.sol ∧ (State.locateTile s l lt rows cols).start = s.start ∧
    (State.locateTile s l lt rows cols).ctr = s.ctr ∧ (State.locateTile s l lt rows cols).pwr = s.pwr := by
  unfold State.locateTile
  (repeat' split) <;> simp
@[simp] theorem State.locateRetry_keeps (s : State) (l : Nat) (f : Flight) : (State.locateRetry s l f).pending = s.pending ∧
    (State.locateRetry s l f).mem = s.mem ∧ (State.locateRetry s l f).tags = s.tags ∧ (State.locateRetry s l f).poison = s.poison ∧
    (State.locateRetry s l f).pages = s.pages ∧ (State.locateRetry s l f).clusters = s.clusters ∧ (State.locateRetry s l f).jobs = s.jobs ∧
    (State.locateRetry s l f).hub = s.hub ∧ (State.locateRetry s l f).fab = s.fab ∧ (State.locateRetry s l f).sol = s.sol ∧
    (State.locateRetry s l f).start = s.start ∧ (State.locateRetry s l f).ctr = s.ctr ∧ (State.locateRetry s l f).pwr = s.pwr := by
  unfold State.locateRetry
  (repeat' split) <;> simp
@[simp] theorem State.reportRetries_keeps (s : State) (k : TaskKey) : (State.reportRetries s k).pending = s.pending ∧
    (State.reportRetries s k).mem = s.mem ∧ (State.reportRetries s k).tags = s.tags ∧ (State.reportRetries s k).poison = s.poison ∧
    (State.reportRetries s k).pages = s.pages ∧ (State.reportRetries s k).clusters = s.clusters ∧ (State.reportRetries s k).jobs = s.jobs ∧
    (State.reportRetries s k).hub = s.hub ∧ (State.reportRetries s k).fab = s.fab ∧ (State.reportRetries s k).sol = s.sol ∧
    (State.reportRetries s k).start = s.start ∧ (State.reportRetries s k).ctr = s.ctr ∧ (State.reportRetries s k).pwr = s.pwr := by
  unfold State.reportRetries
  repeat' (first | split | dsimp only)
  all_goals (repeat' apply And.intro)
  all_goals (try simp; done)
  all_goals ((first | apply foldl_pending | apply foldl_mem | apply foldl_tags | apply foldl_poison | apply foldl_pages | apply foldl_clusters | apply foldl_jobs | apply foldl_hub | apply foldl_fab | apply foldl_sol | apply foldl_start | apply foldl_ctr | apply foldl_pwr) <;> (intros; (repeat' (first | split | dsimp only)) <;> simp))
@[simp] theorem State.dropRequests_keeps (s : State) (k : TaskKey) : (State.dropRequests s k).pending = s.pending ∧
    (State.dropRequests s k).mem = s.mem ∧ (State.dropRequests s k).tags = s.tags ∧ (State.dropRequests s k).poison = s.poison ∧
    (State.dropRequests s k).pages = s.pages ∧ (State.dropRequests s k).clusters = s.clusters ∧ (State.dropRequests s k).jobs = s.jobs ∧
    (State.dropRequests s k).hub = s.hub ∧ (State.dropRequests s k).sol = s.sol ∧ (State.dropRequests s k).start = s.start ∧
    (State.dropRequests s k).hist = s.hist ∧ (State.dropRequests s k).ctr = s.ctr ∧ (State.dropRequests s k).pwr = s.pwr ∧
    (State.dropRequests s k).fab.ports.length = s.fab.ports.length := by
  simp [State.dropRequests]
@[simp] theorem State.abortNow_keeps (s : State) (k : TaskKey) (status : Nat) : (State.abortNow s k status).pending = s.pending ∧
    (State.abortNow s k status).jobs = s.jobs ∧ (State.abortNow s k status).pwr = s.pwr ∧
    (State.abortNow s k status).clusters.length = s.clusters.length ∧ (State.abortNow s k status).fab.ports.length = s.fab.ports.length ∧
    (State.abortNow s k status).start.pcl.length = s.start.pcl.length ∧ (State.abortNow s k status).start.flash.xidx = s.start.flash.xidx ∧
    (State.abortNow s k status).start.lc = s.start.lc ∧ (State.abortNow s k status).start.starts = s.start.starts ∧
    (State.abortNow s k status).hub.module = s.hub.module := by
  unfold State.abortNow
  repeat' (first | split | dsimp only)
  all_goals simp
@[simp] theorem State.abortHere_keeps (s : State) (k : TaskKey) (status : Nat) : (State.abortHere s k status).pending = s.pending ∧
    (State.abortHere s k status).jobs = s.jobs ∧ (State.abortHere s k status).pwr = s.pwr ∧
    (State.abortHere s k status).clusters.length = s.clusters.length ∧ (State.abortHere s k status).fab.ports.length = s.fab.ports.length ∧
    (State.abortHere s k status).start.pcl.length = s.start.pcl.length ∧ (State.abortHere s k status).start.flash.xidx = s.start.flash.xidx ∧
    (State.abortHere s k status).start.lc = s.start.lc ∧ (State.abortHere s k status).start.starts = s.start.starts ∧
    (State.abortHere s k status).hub.module = s.hub.module := by
  unfold State.abortHere
  (repeat' split) <;> simp
@[simp] theorem State.abortTask_keeps (s : State) (k : TaskKey) (status : Nat) : (State.abortTask s k status).pending = s.pending ∧
    (State.abortTask s k status).jobs = s.jobs ∧ (State.abortTask s k status).pwr = s.pwr ∧
    (State.abortTask s k status).clusters.length = s.clusters.length ∧ (State.abortTask s k status).fab.ports.length = s.fab.ports.length ∧
    (State.abortTask s k status).start.pcl.length = s.start.pcl.length ∧ (State.abortTask s k status).start.flash.xidx = s.start.flash.xidx ∧
    (State.abortTask s k status).start.lc = s.start.lc ∧ (State.abortTask s k status).start.starts = s.start.starts ∧
    (State.abortTask s k status).hub.module = s.hub.module := by
  unfold State.abortTask
  (repeat' split) <;> simp
@[simp] theorem State.failRestore_keeps (s : State) (k : TaskKey) (status : Nat) : (State.failRestore s k status).pending = s.pending ∧
    (State.failRestore s k status).jobs = s.jobs ∧ (State.failRestore s k status).pwr = s.pwr ∧
    (State.failRestore s k status).clusters.length = s.clusters.length ∧ (State.failRestore s k status).fab.ports.length = s.fab.ports.length ∧
    (State.failRestore s k status).start.pcl.length = s.start.pcl.length ∧
    (State.failRestore s k status).start.flash.xidx = s.start.flash.xidx ∧ (State.failRestore s k status).start.lc = s.start.lc ∧
    (State.failRestore s k status).start.starts = s.start.starts ∧ (State.failRestore s k status).hub.module = s.hub.module := by
  simp [State.failRestore]
@[simp] theorem State.climb_keeps (s : State) (rung : Nat) (l : Nat) (engine : Nat) (unit : Nat) :
    (State.climb s rung l engine unit).pending = s.pending ∧
    (State.climb s rung l engine unit).mem = s.mem ∧ (State.climb s rung l engine unit).tags = s.tags ∧
    (State.climb s rung l engine unit).poison = s.poison ∧ (State.climb s rung l engine unit).pages = s.pages ∧
    (State.climb s rung l engine unit).clusters = s.clusters ∧ (State.climb s rung l engine unit).jobs = s.jobs ∧
    (State.climb s rung l engine unit).hub = s.hub ∧ (State.climb s rung l engine unit).fab = s.fab ∧
    (State.climb s rung l engine unit).sol = s.sol ∧ (State.climb s rung l engine unit).start = s.start ∧
    (State.climb s rung l engine unit).ctr = s.ctr ∧ (State.climb s rung l engine unit).pwr = s.pwr := by
  simp [State.climb]
@[simp] theorem State.drain_keeps (s : State) (cause : Nat) : (State.drain s cause).pending = s.pending ∧ (State.drain s cause).mem = s.mem ∧
    (State.drain s cause).tags = s.tags ∧ (State.drain s cause).poison = s.poison ∧ (State.drain s cause).pages = s.pages ∧
    (State.drain s cause).clusters = s.clusters ∧ (State.drain s cause).jobs = s.jobs ∧ (State.drain s cause).hub = s.hub ∧
    (State.drain s cause).fab = s.fab ∧ (State.drain s cause).sol = s.sol ∧ (State.drain s cause).ctr = s.ctr ∧
    (State.drain s cause).start.pcl.length = s.start.pcl.length ∧ (State.drain s cause).start.flash.xidx = s.start.flash.xidx ∧
    (State.drain s cause).start.starts = s.start.starts := by
  unfold State.drain
  (repeat' split) <;> simp
@[simp] theorem State.takeSpare_keeps (s : State) (l : Nat) (p : Nat) (q : Nat) (full : Bool) : (State.takeSpare s l p q full).pending = s.pending ∧
    (State.takeSpare s l p q full).pages = s.pages ∧ (State.takeSpare s l p q full).jobs = s.jobs ∧ (State.takeSpare s l p q full).hub = s.hub ∧
    (State.takeSpare s l p q full).fab = s.fab ∧ (State.takeSpare s l p q full).sol = s.sol ∧ (State.takeSpare s l p q full).ctr = s.ctr ∧
    (State.takeSpare s l p q full).pwr = s.pwr ∧ (State.takeSpare s l p q full).clusters.length = s.clusters.length ∧
    (State.takeSpare s l p q full).start.pcl.length = s.start.pcl.length ∧
    (State.takeSpare s l p q full).start.flash.xidx = s.start.flash.xidx ∧ (State.takeSpare s l p q full).start.lc = s.start.lc ∧
    (State.takeSpare s l p q full).start.starts = s.start.starts := by
  unfold State.takeSpare
  (repeat' split) <;> simp
@[simp] theorem State.wantRotation_keeps (s : State) (l : Nat) (p : Nat) : (State.wantRotation s l p).pending = s.pending ∧
    (State.wantRotation s l p).mem = s.mem ∧ (State.wantRotation s l p).tags = s.tags ∧ (State.wantRotation s l p).poison = s.poison ∧
    (State.wantRotation s l p).pages = s.pages ∧ (State.wantRotation s l p).jobs = s.jobs ∧ (State.wantRotation s l p).hub = s.hub ∧
    (State.wantRotation s l p).fab = s.fab ∧ (State.wantRotation s l p).sol = s.sol ∧ (State.wantRotation s l p).hist = s.hist ∧
    (State.wantRotation s l p).ctr = s.ctr ∧ (State.wantRotation s l p).pwr = s.pwr ∧
    (State.wantRotation s l p).clusters.length = s.clusters.length ∧ (State.wantRotation s l p).start.pcl.length = s.start.pcl.length ∧
    (State.wantRotation s l p).start.flash.xidx = s.start.flash.xidx ∧ (State.wantRotation s l p).start.lc = s.start.lc ∧
    (State.wantRotation s l p).start.starts = s.start.starts := by
  simp [State.wantRotation]
@[simp] theorem State.rotation_keeps (s : State) (p : Nat) : (State.rotation s p).pending = s.pending ∧ (State.rotation s p).pages = s.pages ∧
    (State.rotation s p).jobs = s.jobs ∧ (State.rotation s p).hub = s.hub ∧ (State.rotation s p).fab = s.fab ∧
    (State.rotation s p).sol = s.sol ∧ (State.rotation s p).ctr = s.ctr ∧ (State.rotation s p).clusters.length = s.clusters.length ∧
    (State.rotation s p).start.pcl.length = s.start.pcl.length ∧ (State.rotation s p).start.flash.xidx = s.start.flash.xidx ∧
    (State.rotation s p).start.starts = s.start.starts := by
  unfold State.rotation
  (repeat' split) <;> simp
@[simp] theorem State.requestSubst_keeps (s : State) (l : Nat) (t : Nat) : (State.requestSubst s l t).pending = s.pending ∧
    (State.requestSubst s l t).mem = s.mem ∧ (State.requestSubst s l t).tags = s.tags ∧ (State.requestSubst s l t).poison = s.poison ∧
    (State.requestSubst s l t).pages = s.pages ∧ (State.requestSubst s l t).jobs = s.jobs ∧ (State.requestSubst s l t).hub = s.hub ∧
    (State.requestSubst s l t).fab = s.fab ∧ (State.requestSubst s l t).sol = s.sol ∧ (State.requestSubst s l t).ctr = s.ctr ∧
    (State.requestSubst s l t).pwr = s.pwr ∧ (State.requestSubst s l t).clusters.length = s.clusters.length ∧
    (State.requestSubst s l t).start.pcl.length = s.start.pcl.length ∧ (State.requestSubst s l t).start.flash.xidx = s.start.flash.xidx ∧
    (State.requestSubst s l t).start.lc = s.start.lc ∧ (State.requestSubst s l t).start.starts = s.start.starts := by
  unfold State.requestSubst
  repeat' (first | split | dsimp only)
  all_goals simp
@[simp] theorem State.spareGone_keeps (s : State) (p : Nat) : (State.spareGone s p).pending = s.pending ∧
    (State.spareGone s p).pages = s.pages ∧ (State.spareGone s p).jobs = s.jobs ∧ (State.spareGone s p).hub = s.hub ∧
    (State.spareGone s p).fab = s.fab ∧ (State.spareGone s p).sol = s.sol ∧ (State.spareGone s p).ctr = s.ctr ∧
    (State.spareGone s p).clusters.length = s.clusters.length ∧ (State.spareGone s p).start.pcl.length = s.start.pcl.length ∧
    (State.spareGone s p).start.flash.xidx = s.start.flash.xidx ∧ (State.spareGone s p).start.starts = s.start.starts := by
  unfold State.spareGone
  repeat' (first | split | dsimp only)
  all_goals simp
@[simp] theorem State.suspectRows_keeps (s : State) (p : Nat) (t : Option Nat) : (State.suspectRows s p t).pending = s.pending ∧
    (State.suspectRows s p t).pages = s.pages ∧ (State.suspectRows s p t).jobs = s.jobs ∧ (State.suspectRows s p t).hub = s.hub ∧
    (State.suspectRows s p t).fab = s.fab ∧ (State.suspectRows s p t).sol = s.sol ∧ (State.suspectRows s p t).ctr = s.ctr ∧
    (State.suspectRows s p t).clusters.length = s.clusters.length ∧ (State.suspectRows s p t).start.pcl.length = s.start.pcl.length ∧
    (State.suspectRows s p t).start.flash.xidx = s.start.flash.xidx ∧ (State.suspectRows s p t).start.starts = s.start.starts := by
  unfold State.suspectRows
  repeat' (first | split | dsimp only)
  all_goals simp
@[simp] theorem State.charge_keeps (s : State) (kind : Nat) (index : Nat) (cause : Nat) : (State.charge s kind index cause).pending = s.pending ∧
    (State.charge s kind index cause).pages = s.pages ∧ (State.charge s kind index cause).jobs = s.jobs ∧
    (State.charge s kind index cause).hub = s.hub ∧ (State.charge s kind index cause).fab = s.fab ∧
    (State.charge s kind index cause).sol = s.sol ∧ (State.charge s kind index cause).ctr = s.ctr ∧
    (State.charge s kind index cause).clusters.length = s.clusters.length ∧
    (State.charge s kind index cause).start.pcl.length = s.start.pcl.length ∧
    (State.charge s kind index cause).start.flash.xidx = s.start.flash.xidx ∧
    (State.charge s kind index cause).start.starts = s.start.starts := by
  unfold State.charge
  (repeat' split) <;> simp
@[simp] theorem State.chargeCluster_keeps (s : State) (l : Nat) (cause : Nat) : (State.chargeCluster s l cause).pending = s.pending ∧
    (State.chargeCluster s l cause).pages = s.pages ∧ (State.chargeCluster s l cause).jobs = s.jobs ∧
    (State.chargeCluster s l cause).hub = s.hub ∧ (State.chargeCluster s l cause).fab = s.fab ∧ (State.chargeCluster s l cause).sol = s.sol ∧
    (State.chargeCluster s l cause).ctr = s.ctr ∧ (State.chargeCluster s l cause).clusters.length = s.clusters.length ∧
    (State.chargeCluster s l cause).start.pcl.length = s.start.pcl.length ∧
    (State.chargeCluster s l cause).start.flash.xidx = s.start.flash.xidx ∧
    (State.chargeCluster s l cause).start.starts = s.start.starts := by
  unfold State.chargeCluster
  (repeat' split) <;> simp
@[simp] theorem State.chargeTile_keeps (s : State) (l : Nat) (lt : Nat) (cause : Nat) : (State.chargeTile s l lt cause).pending = s.pending ∧
    (State.chargeTile s l lt cause).pages = s.pages ∧ (State.chargeTile s l lt cause).jobs = s.jobs ∧
    (State.chargeTile s l lt cause).hub = s.hub ∧ (State.chargeTile s l lt cause).fab = s.fab ∧ (State.chargeTile s l lt cause).sol = s.sol ∧
    (State.chargeTile s l lt cause).ctr = s.ctr ∧ (State.chargeTile s l lt cause).clusters.length = s.clusters.length ∧
    (State.chargeTile s l lt cause).start.pcl.length = s.start.pcl.length ∧
    (State.chargeTile s l lt cause).start.flash.xidx = s.start.flash.xidx ∧
    (State.chargeTile s l lt cause).start.starts = s.start.starts := by
  unfold State.chargeTile
  (repeat' split) <;> simp
@[simp] theorem State.chargeWord_keeps (s : State) (a : Nat) : (State.chargeWord s a).pending = s.pending ∧
    (State.chargeWord s a).pages = s.pages ∧ (State.chargeWord s a).jobs = s.jobs ∧ (State.chargeWord s a).hub = s.hub ∧
    (State.chargeWord s a).fab = s.fab ∧ (State.chargeWord s a).sol = s.sol ∧ (State.chargeWord s a).ctr = s.ctr ∧
    (State.chargeWord s a).clusters.length = s.clusters.length ∧ (State.chargeWord s a).start.pcl.length = s.start.pcl.length ∧
    (State.chargeWord s a).start.flash.xidx = s.start.flash.xidx ∧ (State.chargeWord s a).start.starts = s.start.starts := by
  unfold State.chargeWord
  (repeat' split) <;> simp
@[simp] theorem State.poisonWord_keeps (s : State) (a : Nat) : (State.poisonWord s a).pending = s.pending ∧
    (State.poisonWord s a).pages = s.pages ∧ (State.poisonWord s a).jobs = s.jobs ∧ (State.poisonWord s a).hub = s.hub ∧
    (State.poisonWord s a).fab = s.fab ∧ (State.poisonWord s a).sol = s.sol ∧ (State.poisonWord s a).ctr = s.ctr ∧
    (State.poisonWord s a).clusters.length = s.clusters.length ∧ (State.poisonWord s a).start.pcl.length = s.start.pcl.length ∧
    (State.poisonWord s a).start.flash.xidx = s.start.flash.xidx ∧ (State.poisonWord s a).start.starts = s.start.starts := by
  unfold State.poisonWord
  repeat' (first | split | dsimp only)
  all_goals simp
@[simp] theorem State.latchFault_keeps (s : State) (x : Site) (kind : FaultKind) (module : Nat) (addr : Nat) :
    (State.latchFault s x kind module addr).pending = s.pending ∧
    (State.latchFault s x kind module addr).jobs = s.jobs ∧ (State.latchFault s x kind module addr).hub = s.hub ∧
    (State.latchFault s x kind module addr).fab = s.fab ∧ (State.latchFault s x kind module addr).sol = s.sol ∧
    (State.latchFault s x kind module addr).ctr = s.ctr ∧ (State.latchFault s x kind module addr).clusters.length = s.clusters.length ∧
    (State.latchFault s x kind module addr).start.pcl.length = s.start.pcl.length ∧
    (State.latchFault s x kind module addr).start.flash.xidx = s.start.flash.xidx ∧
    (State.latchFault s x kind module addr).start.starts = s.start.starts := by
  unfold State.latchFault
  (repeat' split) <;> simp
@[simp] theorem State.entryFault_keeps (s : State) (x : Site) (kind : FaultKind) (module : Nat) (addr : Nat) (more : List (FaultKind × Nat)) :
    (State.entryFault s x kind module addr more).pending = s.pending ∧
    (State.entryFault s x kind module addr more).jobs = s.jobs ∧
    (State.entryFault s x kind module addr more).clusters.length = s.clusters.length ∧
    (State.entryFault s x kind module addr more).fab.ports.length = s.fab.ports.length ∧
    (State.entryFault s x kind module addr more).start.pcl.length = s.start.pcl.length ∧
    (State.entryFault s x kind module addr more).start.flash.xidx = s.start.flash.xidx ∧
    (State.entryFault s x kind module addr more).start.starts = s.start.starts ∧
    (State.entryFault s x kind module addr more).hub.module = s.hub.module := by
  simp [State.entryFault]
@[simp] theorem State.countCe_keeps (s : State) (f : Frame) (n : Nat) : (State.countCe s f n).pending = s.pending ∧
    (State.countCe s f n).mem = s.mem ∧ (State.countCe s f n).tags = s.tags ∧ (State.countCe s f n).poison = s.poison ∧
    (State.countCe s f n).clusters = s.clusters ∧ (State.countCe s f n).jobs = s.jobs ∧ (State.countCe s f n).hub = s.hub ∧
    (State.countCe s f n).fab = s.fab ∧ (State.countCe s f n).sol = s.sol ∧ (State.countCe s f n).start = s.start ∧
    (State.countCe s f n).hist = s.hist ∧ (State.countCe s f n).pwr = s.pwr := by
  unfold State.countCe
  (repeat' split) <;> simp
@[simp] theorem State.corrected_keeps (s : State) (fixed : List Nat) (as : List Access) : (State.corrected s fixed as).pending = s.pending ∧
    (State.corrected s fixed as).mem = s.mem ∧ (State.corrected s fixed as).tags = s.tags ∧ (State.corrected s fixed as).poison = s.poison ∧
    (State.corrected s fixed as).clusters = s.clusters ∧ (State.corrected s fixed as).jobs = s.jobs ∧ (State.corrected s fixed as).hub = s.hub ∧
    (State.corrected s fixed as).fab = s.fab ∧ (State.corrected s fixed as).sol = s.sol ∧ (State.corrected s fixed as).start = s.start ∧
    (State.corrected s fixed as).hist = s.hist ∧ (State.corrected s fixed as).pwr = s.pwr := by
  unfold State.corrected
  repeat' (first | split | dsimp only)
  all_goals (repeat' apply And.intro)
  all_goals (try simp; done)
  all_goals ((first | apply foldl_pending | apply foldl_mem | apply foldl_tags | apply foldl_poison | apply foldl_clusters | apply foldl_jobs | apply foldl_hub | apply foldl_fab | apply foldl_sol | apply foldl_start | apply foldl_hist | apply foldl_pwr) <;> (intros; (repeat' (first | split | dsimp only)) <;> simp))
@[simp] theorem State.countBytes_keeps (s : State) (from' : Option Nat) (as : List Access) : (State.countBytes s from' as).pending = s.pending ∧
    (State.countBytes s from' as).mem = s.mem ∧ (State.countBytes s from' as).tags = s.tags ∧ (State.countBytes s from' as).poison = s.poison ∧
    (State.countBytes s from' as).pages = s.pages ∧ (State.countBytes s from' as).clusters = s.clusters ∧
    (State.countBytes s from' as).jobs = s.jobs ∧ (State.countBytes s from' as).hub = s.hub ∧ (State.countBytes s from' as).fab = s.fab ∧
    (State.countBytes s from' as).sol = s.sol ∧ (State.countBytes s from' as).start = s.start ∧ (State.countBytes s from' as).hist = s.hist ∧
    (State.countBytes s from' as).pwr = s.pwr := by
  simp [State.countBytes]
@[simp] theorem State.guard_pending (s : State) (x : Site) (ev : Ev) (as : List Access) (go : State → State) (h : ∀ s, (go s).pending = s.pending) :
    (s.guard x ev as go).pending = s.pending := by
  unfold State.guard
  (repeat' split) <;> simp [h]
@[simp] theorem State.guard_jobs (s : State) (x : Site) (ev : Ev) (as : List Access) (go : State → State) (h : ∀ s, (go s).jobs = s.jobs) :
    (s.guard x ev as go).jobs = s.jobs := by
  unfold State.guard
  (repeat' split) <;> simp [h]
@[simp] theorem State.guard_clusters_length (s : State) (x : Site) (ev : Ev) (as : List Access) (go : State → State) (h : ∀ s, (go s).clusters.length = s.clusters.length) :
    (s.guard x ev as go).clusters.length = s.clusters.length := by
  unfold State.guard
  (repeat' split) <;> simp [h]
@[simp] theorem State.guard_ports_length (s : State) (x : Site) (ev : Ev) (as : List Access) (go : State → State) (h : ∀ s, (go s).fab.ports.length = s.fab.ports.length) :
    (s.guard x ev as go).fab.ports.length = s.fab.ports.length := by
  unfold State.guard
  (repeat' split) <;> simp [h]
@[simp] theorem State.guard_pcl_length (s : State) (x : Site) (ev : Ev) (as : List Access) (go : State → State) (h : ∀ s, (go s).start.pcl.length = s.start.pcl.length) :
    (s.guard x ev as go).start.pcl.length = s.start.pcl.length := by
  unfold State.guard
  (repeat' split) <;> simp [h]
@[simp] theorem State.guard_xidx (s : State) (x : Site) (ev : Ev) (as : List Access) (go : State → State) (h : ∀ s, (go s).start.flash.xidx = s.start.flash.xidx) :
    (s.guard x ev as go).start.flash.xidx = s.start.flash.xidx := by
  unfold State.guard
  (repeat' split) <;> simp [h]
@[simp] theorem State.guard_starts (s : State) (x : Site) (ev : Ev) (as : List Access) (go : State → State) (h : ∀ s, (go s).start.starts = s.start.starts) :
    (s.guard x ev as go).start.starts = s.start.starts := by
  unfold State.guard
  (repeat' split) <;> simp [h]
@[simp] theorem State.guard_module (s : State) (x : Site) (ev : Ev) (as : List Access) (go : State → State) (h : ∀ s, (go s).hub.module = s.hub.module) :
    (s.guard x ev as go).hub.module = s.hub.module := by
  unfold State.guard
  (repeat' split) <;> simp [h]
@[simp] theorem State.workDone_keeps (s : State) (x : Site) (fl : Flags) : (State.workDone s x fl).pending = s.pending ∧
    (State.workDone s x fl).mem = s.mem ∧ (State.workDone s x fl).tags = s.tags ∧ (State.workDone s x fl).poison = s.poison ∧
    (State.workDone s x fl).pages = s.pages ∧ (State.workDone s x fl).jobs = s.jobs ∧ (State.workDone s x fl).hub = s.hub ∧
    (State.workDone s x fl).fab = s.fab ∧ (State.workDone s x fl).sol = s.sol ∧ (State.workDone s x fl).start = s.start ∧
    (State.workDone s x fl).hist = s.hist ∧ (State.workDone s x fl).ctr = s.ctr ∧ (State.workDone s x fl).pwr = s.pwr ∧
    (State.workDone s x fl).clusters.length = s.clusters.length := by
  simp [State.workDone]
@[simp] theorem State.setWork_keeps (s : State) (x : Site) (w : Work) : (State.setWork s x w).pending = s.pending ∧
    (State.setWork s x w).mem = s.mem ∧ (State.setWork s x w).tags = s.tags ∧ (State.setWork s x w).poison = s.poison ∧
    (State.setWork s x w).pages = s.pages ∧ (State.setWork s x w).jobs = s.jobs ∧ (State.setWork s x w).hub = s.hub ∧
    (State.setWork s x w).fab = s.fab ∧ (State.setWork s x w).sol = s.sol ∧ (State.setWork s x w).start = s.start ∧
    (State.setWork s x w).hist = s.hist ∧ (State.setWork s x w).ctr = s.ctr ∧ (State.setWork s x w).pwr = s.pwr ∧
    (State.setWork s x w).clusters.length = s.clusters.length := by
  simp [State.setWork]
@[simp] theorem State.addConv_keeps (s : State) (l : Nat) (t : Tensor) (st : ConvStat) : (State.addConv s l t st).pending = s.pending ∧
    (State.addConv s l t st).mem = s.mem ∧ (State.addConv s l t st).tags = s.tags ∧ (State.addConv s l t st).poison = s.poison ∧
    (State.addConv s l t st).pages = s.pages ∧ (State.addConv s l t st).jobs = s.jobs ∧ (State.addConv s l t st).hub = s.hub ∧
    (State.addConv s l t st).fab = s.fab ∧ (State.addConv s l t st).sol = s.sol ∧ (State.addConv s l t st).start = s.start ∧
    (State.addConv s l t st).hist = s.hist ∧ (State.addConv s l t st).ctr = s.ctr ∧ (State.addConv s l t st).pwr = s.pwr ∧
    (State.addConv s l t st).clusters.length = s.clusters.length := by
  unfold State.addConv
  (repeat' split) <;> simp

/-! ## Operands -/

@[simp] theorem State.putAll_keeps (s : State) (l : Nat) (outs : List (Tensor × Written)) : (State.putAll s l outs).pending = s.pending ∧
    (State.putAll s l outs).pages = s.pages ∧ (State.putAll s l outs).jobs = s.jobs ∧ (State.putAll s l outs).hub = s.hub ∧
    (State.putAll s l outs).fab = s.fab ∧ (State.putAll s l outs).sol = s.sol ∧ (State.putAll s l outs).start = s.start ∧
    (State.putAll s l outs).hist = s.hist ∧ (State.putAll s l outs).ctr = s.ctr ∧ (State.putAll s l outs).pwr = s.pwr ∧
    (State.putAll s l outs).clusters.length = s.clusters.length := by
  simp [State.putAll]

/-! ## Flags -/

@[simp] theorem State.latchFlags_keeps (s : State) (x : Site) : (State.latchFlags s x).pending = s.pending ∧
    (State.latchFlags s x).mem = s.mem ∧ (State.latchFlags s x).tags = s.tags ∧ (State.latchFlags s x).poison = s.poison ∧
    (State.latchFlags s x).pages = s.pages ∧ (State.latchFlags s x).jobs = s.jobs ∧ (State.latchFlags s x).hub = s.hub ∧
    (State.latchFlags s x).fab = s.fab ∧ (State.latchFlags s x).sol = s.sol ∧ (State.latchFlags s x).start = s.start ∧
    (State.latchFlags s x).hist = s.hist ∧ (State.latchFlags s x).ctr = s.ctr ∧ (State.latchFlags s x).pwr = s.pwr ∧
    (State.latchFlags s x).clusters.length = s.clusters.length := by
  unfold State.latchFlags
  (repeat' split) <;> simp

/-! ## Controls -/

@[simp] theorem State.commitCtrc_keeps (s : State) (l : Nat) (ctx : Nat) : (State.commitCtrc s l ctx).pending = s.pending ∧
    (State.commitCtrc s l ctx).mem = s.mem ∧ (State.commitCtrc s l ctx).tags = s.tags ∧ (State.commitCtrc s l ctx).poison = s.poison ∧
    (State.commitCtrc s l ctx).pages = s.pages ∧ (State.commitCtrc s l ctx).jobs = s.jobs ∧ (State.commitCtrc s l ctx).hub = s.hub ∧
    (State.commitCtrc s l ctx).fab = s.fab ∧ (State.commitCtrc s l ctx).sol = s.sol ∧ (State.commitCtrc s l ctx).start = s.start ∧
    (State.commitCtrc s l ctx).hist = s.hist ∧ (State.commitCtrc s l ctx).pwr = s.pwr ∧
    (State.commitCtrc s l ctx).clusters.length = s.clusters.length := by
  unfold State.commitCtrc
  (repeat' split) <;> simp
@[simp] theorem State.pause_keeps (s : State) (l : Nat) : (State.pause s l).pending = s.pending ∧ (State.pause s l).mem = s.mem ∧
    (State.pause s l).tags = s.tags ∧ (State.pause s l).poison = s.poison ∧ (State.pause s l).pages = s.pages ∧
    (State.pause s l).jobs = s.jobs ∧ (State.pause s l).hub = s.hub ∧ (State.pause s l).fab = s.fab ∧ (State.pause s l).sol = s.sol ∧
    (State.pause s l).start = s.start ∧ (State.pause s l).hist = s.hist ∧ (State.pause s l).ctr = s.ctr ∧ (State.pause s l).pwr = s.pwr ∧
    (State.pause s l).clusters.length = s.clusters.length := by
  simp [State.pause]
@[simp] theorem State.pageMove_keeps (s : State) (value : Word) (ctx : Nat) : (State.pageMove s value ctx).pending = s.pending ∧
    (State.pageMove s value ctx).mem = s.mem ∧ (State.pageMove s value ctx).tags = s.tags ∧ (State.pageMove s value ctx).poison = s.poison ∧
    (State.pageMove s value ctx).clusters = s.clusters ∧ (State.pageMove s value ctx).jobs = s.jobs ∧ (State.pageMove s value ctx).hub = s.hub ∧
    (State.pageMove s value ctx).fab = s.fab ∧ (State.pageMove s value ctx).sol = s.sol ∧ (State.pageMove s value ctx).start = s.start ∧
    (State.pageMove s value ctx).hist = s.hist ∧ (State.pageMove s value ctx).ctr = s.ctr ∧ (State.pageMove s value ctx).pwr = s.pwr := by
  unfold State.pageMove
  simp only []
  (repeat' split) <;> simp [*]
@[simp] theorem State.pageCmd_keeps (s : State) (value : Word) (ctx : Nat) : (State.pageCmd s value ctx).pending = s.pending ∧
    (State.pageCmd s value ctx).mem = s.mem ∧ (State.pageCmd s value ctx).tags = s.tags ∧ (State.pageCmd s value ctx).poison = s.poison ∧
    (State.pageCmd s value ctx).clusters = s.clusters ∧ (State.pageCmd s value ctx).jobs = s.jobs ∧ (State.pageCmd s value ctx).hub = s.hub ∧
    (State.pageCmd s value ctx).fab = s.fab ∧ (State.pageCmd s value ctx).sol = s.sol ∧ (State.pageCmd s value ctx).start = s.start ∧
    (State.pageCmd s value ctx).hist = s.hist ∧ (State.pageCmd s value ctx).ctr = s.ctr ∧ (State.pageCmd s value ctx).pwr = s.pwr := by
  unfold State.pageCmd
  (repeat' split) <;> simp
@[simp] theorem State.pageCmds_keeps (x0 : Nat) (x1 : State) : (State.pageCmds x0 x1).pending = x1.pending ∧
    (State.pageCmds x0 x1).mem = x1.mem ∧ (State.pageCmds x0 x1).tags = x1.tags ∧ (State.pageCmds x0 x1).poison = x1.poison ∧
    (State.pageCmds x0 x1).clusters = x1.clusters ∧ (State.pageCmds x0 x1).jobs = x1.jobs ∧ (State.pageCmds x0 x1).hub = x1.hub ∧
    (State.pageCmds x0 x1).fab = x1.fab ∧ (State.pageCmds x0 x1).sol = x1.sol ∧ (State.pageCmds x0 x1).start = x1.start ∧
    (State.pageCmds x0 x1).hist = x1.hist ∧ (State.pageCmds x0 x1).ctr = x1.ctr ∧ (State.pageCmds x0 x1).pwr = x1.pwr := by
  induction x0 generalizing x1 with
  | zero => simp [State.pageCmds]
  | succ n ih =>
    unfold State.pageCmds
    (repeat' split) <;> simp [ih]
@[simp] theorem State.readyFollow_keeps (s : State) : (State.readyFollow s).pending = s.pending ∧ (State.readyFollow s).mem = s.mem ∧
    (State.readyFollow s).tags = s.tags ∧ (State.readyFollow s).poison = s.poison ∧ (State.readyFollow s).pages = s.pages ∧
    (State.readyFollow s).clusters = s.clusters ∧ (State.readyFollow s).jobs = s.jobs ∧ (State.readyFollow s).hub = s.hub ∧
    (State.readyFollow s).fab = s.fab ∧ (State.readyFollow s).sol = s.sol ∧ (State.readyFollow s).hist = s.hist ∧
    (State.readyFollow s).ctr = s.ctr ∧ (State.readyFollow s).pwr = s.pwr ∧ (State.readyFollow s).start.pcl.length = s.start.pcl.length ∧
    (State.readyFollow s).start.flash.xidx = s.start.flash.xidx ∧ (State.readyFollow s).start.lc = s.start.lc ∧
    (State.readyFollow s).start.starts = s.start.starts := by
  unfold State.readyFollow
  (repeat' split) <;> simp
@[simp] theorem State.reportPorts_keeps (s : State) : (State.reportPorts s).pending = s.pending ∧ (State.reportPorts s).mem = s.mem ∧
    (State.reportPorts s).tags = s.tags ∧ (State.reportPorts s).poison = s.poison ∧ (State.reportPorts s).pages = s.pages ∧
    (State.reportPorts s).clusters = s.clusters ∧ (State.reportPorts s).jobs = s.jobs ∧ (State.reportPorts s).hub = s.hub ∧
    (State.reportPorts s).sol = s.sol ∧ (State.reportPorts s).hist = s.hist ∧ (State.reportPorts s).pwr = s.pwr ∧
    (State.reportPorts s).fab.ports.length = s.fab.ports.length ∧ (State.reportPorts s).start.pcl.length = s.start.pcl.length ∧
    (State.reportPorts s).start.flash.xidx = s.start.flash.xidx ∧ (State.reportPorts s).start.lc = s.start.lc ∧
    (State.reportPorts s).start.starts = s.start.starts := by
  unfold State.reportPorts
  (repeat' split) <;> simp
@[simp] theorem State.loseRestore_keeps (s : State) (r : Restore) : (State.loseRestore s r).pending = s.pending ∧
    (State.loseRestore s r).jobs = s.jobs ∧ (State.loseRestore s r).pwr = s.pwr ∧ (State.loseRestore s r).clusters.length = s.clusters.length ∧
    (State.loseRestore s r).fab.ports.length = s.fab.ports.length ∧ (State.loseRestore s r).start.pcl.length = s.start.pcl.length ∧
    (State.loseRestore s r).start.flash.xidx = s.start.flash.xidx ∧ (State.loseRestore s r).start.lc = s.start.lc ∧
    (State.loseRestore s r).start.starts = s.start.starts ∧ (State.loseRestore s r).hub.module = s.hub.module := by
  unfold State.loseRestore
  (repeat' split) <;> simp
@[simp] theorem State.fwDrop_keeps (s : State) (gone : Nat → Bool) : (State.fwDrop s gone).pending = s.pending ∧
    (State.fwDrop s gone).mem = s.mem ∧ (State.fwDrop s gone).tags = s.tags ∧ (State.fwDrop s gone).poison = s.poison ∧
    (State.fwDrop s gone).pages = s.pages ∧ (State.fwDrop s gone).clusters = s.clusters ∧ (State.fwDrop s gone).jobs = s.jobs ∧
    (State.fwDrop s gone).hub = s.hub ∧ (State.fwDrop s gone).sol = s.sol ∧ (State.fwDrop s gone).start = s.start ∧
    (State.fwDrop s gone).hist = s.hist ∧ (State.fwDrop s gone).pwr = s.pwr ∧
    (State.fwDrop s gone).fab.ports.length = s.fab.ports.length := by
  unfold State.fwDrop
  repeat' (first | split | dsimp only)
  all_goals simp
@[simp] theorem State.pairDone_keeps (s : State) (p : Pkt) : (State.pairDone s p).pending = s.pending ∧ (State.pairDone s p).mem = s.mem ∧
    (State.pairDone s p).tags = s.tags ∧ (State.pairDone s p).poison = s.poison ∧ (State.pairDone s p).pages = s.pages ∧
    (State.pairDone s p).clusters = s.clusters ∧ (State.pairDone s p).jobs = s.jobs ∧ (State.pairDone s p).hub = s.hub ∧
    (State.pairDone s p).sol = s.sol ∧ (State.pairDone s p).start = s.start ∧ (State.pairDone s p).hist = s.hist ∧
    (State.pairDone s p).pwr = s.pwr ∧ (State.pairDone s p).fab.ports.length = s.fab.ports.length := by
  unfold State.pairDone
  repeat' (first | split | dsimp only)
  all_goals (repeat' apply And.intro)
  all_goals (try simp; done)
  all_goals ((first | apply foldl_pending | apply foldl_mem | apply foldl_tags | apply foldl_poison | apply foldl_pages | apply foldl_clusters | apply foldl_jobs | apply foldl_hub | apply foldl_sol | apply foldl_start | apply foldl_hist | apply foldl_pwr | apply foldl_ports_length) <;> (intros; (repeat' (first | split | dsimp only)) <;> simp))
@[simp] theorem State.dropReads_keeps (s : State) (gone : Nat → Bool) : (State.dropReads s gone).pending = s.pending ∧
    (State.dropReads s gone).mem = s.mem ∧ (State.dropReads s gone).tags = s.tags ∧ (State.dropReads s gone).poison = s.poison ∧
    (State.dropReads s gone).pages = s.pages ∧ (State.dropReads s gone).clusters = s.clusters ∧ (State.dropReads s gone).jobs = s.jobs ∧
    (State.dropReads s gone).sol = s.sol ∧ (State.dropReads s gone).start = s.start ∧ (State.dropReads s gone).hist = s.hist ∧
    (State.dropReads s gone).pwr = s.pwr ∧ (State.dropReads s gone).fab.ports.length = s.fab.ports.length ∧
    (State.dropReads s gone).hub.module = s.hub.module := by
  simp [State.dropReads]
@[simp] theorem State.graphChanged_keeps (s : State) : (State.graphChanged s).pending = s.pending ∧ (State.graphChanged s).jobs = s.jobs ∧
    (State.graphChanged s).pwr = s.pwr ∧ (State.graphChanged s).clusters.length = s.clusters.length ∧
    (State.graphChanged s).fab.ports.length = s.fab.ports.length ∧ (State.graphChanged s).start.pcl.length = s.start.pcl.length ∧
    (State.graphChanged s).start.flash.xidx = s.start.flash.xidx ∧ (State.graphChanged s).start.lc = s.start.lc ∧
    (State.graphChanged s).start.starts = s.start.starts ∧ (State.graphChanged s).hub.module = s.hub.module := by
  unfold State.graphChanged
  repeat' (first | split | dsimp only)
  all_goals simp
@[simp] theorem State.linkGone_keeps (s : State) (p : Nat) (was : Port) : (State.linkGone s p was).pending = s.pending ∧
    (State.linkGone s p was).jobs = s.jobs ∧ (State.linkGone s p was).pwr = s.pwr ∧
    (State.linkGone s p was).clusters.length = s.clusters.length ∧ (State.linkGone s p was).fab.ports.length = s.fab.ports.length ∧
    (State.linkGone s p was).start.pcl.length = s.start.pcl.length ∧ (State.linkGone s p was).start.flash.xidx = s.start.flash.xidx ∧
    (State.linkGone s p was).start.lc = s.start.lc ∧ (State.linkGone s p was).start.starts = s.start.starts ∧
    (State.linkGone s p was).hub.module = s.hub.module := by
  unfold State.linkGone
  (repeat' split) <;> simp
@[simp] theorem State.updPort_keeps (s : State) (p : Nat) (f : Port → Port) : (State.updPort s p f).pending = s.pending ∧
    (State.updPort s p f).mem = s.mem ∧ (State.updPort s p f).tags = s.tags ∧ (State.updPort s p f).poison = s.poison ∧
    (State.updPort s p f).pages = s.pages ∧ (State.updPort s p f).clusters = s.clusters ∧ (State.updPort s p f).jobs = s.jobs ∧
    (State.updPort s p f).hub = s.hub ∧ (State.updPort s p f).sol = s.sol ∧ (State.updPort s p f).start = s.start ∧
    (State.updPort s p f).hist = s.hist ∧ (State.updPort s p f).ctr = s.ctr ∧ (State.updPort s p f).pwr = s.pwr ∧
    (State.updPort s p f).fab.ports.length = s.fab.ports.length := by
  simp [State.updPort]
@[simp] theorem State.downPort_keeps (s : State) (p : Nat) : (State.downPort s p).pending = s.pending ∧ (State.downPort s p).jobs = s.jobs ∧
    (State.downPort s p).pwr = s.pwr ∧ (State.downPort s p).clusters.length = s.clusters.length ∧
    (State.downPort s p).fab.ports.length = s.fab.ports.length ∧ (State.downPort s p).start.pcl.length = s.start.pcl.length ∧
    (State.downPort s p).start.flash.xidx = s.start.flash.xidx ∧ (State.downPort s p).start.lc = s.start.lc ∧
    (State.downPort s p).start.starts = s.start.starts ∧ (State.downPort s p).hub.module = s.hub.module := by
  simp [State.downPort]
@[simp] theorem State.retrainPort_keeps (s : State) (p : Nat) : (State.retrainPort s p).pending = s.pending ∧
    (State.retrainPort s p).jobs = s.jobs ∧ (State.retrainPort s p).pwr = s.pwr ∧ (State.retrainPort s p).clusters.length = s.clusters.length ∧
    (State.retrainPort s p).fab.ports.length = s.fab.ports.length ∧ (State.retrainPort s p).start.pcl.length = s.start.pcl.length ∧
    (State.retrainPort s p).start.flash.xidx = s.start.flash.xidx ∧ (State.retrainPort s p).start.lc = s.start.lc ∧
    (State.retrainPort s p).start.starts = s.start.starts ∧ (State.retrainPort s p).hub.module = s.hub.module := by
  simp [State.retrainPort]
@[simp] theorem State.managedLeave_keeps (s : State) : (State.managedLeave s).pending = s.pending ∧ (State.managedLeave s).mem = s.mem ∧
    (State.managedLeave s).tags = s.tags ∧ (State.managedLeave s).poison = s.poison ∧ (State.managedLeave s).pages = s.pages ∧
    (State.managedLeave s).clusters = s.clusters ∧ (State.managedLeave s).jobs = s.jobs ∧ (State.managedLeave s).hub = s.hub ∧
    (State.managedLeave s).sol = s.sol ∧ (State.managedLeave s).start = s.start ∧ (State.managedLeave s).hist = s.hist ∧
    (State.managedLeave s).pwr = s.pwr ∧ (State.managedLeave s).fab.ports.length = s.fab.ports.length := by
  unfold State.managedLeave
  repeat' (first | split | dsimp only)
  all_goals simp
@[simp] theorem State.hdgCmd_keeps (s : State) (v : Word) : (State.hdgCmd s v).pending = s.pending ∧ (State.hdgCmd s v).jobs = s.jobs ∧
    (State.hdgCmd s v).pwr = s.pwr ∧ (State.hdgCmd s v).clusters.length = s.clusters.length ∧
    (State.hdgCmd s v).fab.ports.length = s.fab.ports.length ∧ (State.hdgCmd s v).start.pcl.length = s.start.pcl.length ∧
    (State.hdgCmd s v).start.flash.xidx = s.start.flash.xidx ∧ (State.hdgCmd s v).start.lc = s.start.lc ∧
    (State.hdgCmd s v).start.starts = s.start.starts ∧ (State.hdgCmd s v).hub.module = s.hub.module := by
  unfold State.hdgCmd
  (repeat' split) <;> simp
@[simp] theorem State.dropAll_keeps (s : State) : (State.dropAll s).pending = s.pending ∧ (State.dropAll s).start = s.start ∧
    (State.dropAll s).hub.module = s.hub.module := by simp [State.dropAll]
/-- A module reset leaves the units in their numbers. -/
@[simp] theorem State.dropAll_sizes (s : State) : s.dropAll.clusters.length = 128 ∧ s.dropAll.fab.ports.length = 48 := by
  simp [State.dropAll, Fab.reset]
@[simp] theorem State.alert_keeps (s : State) : (State.alert s).pending = s.pending ∧ (State.alert s).mem = s.mem ∧
    (State.alert s).tags = s.tags ∧ (State.alert s).poison = s.poison ∧ (State.alert s).pages = s.pages ∧
    (State.alert s).clusters = s.clusters ∧ (State.alert s).jobs = s.jobs ∧ (State.alert s).hub = s.hub ∧ (State.alert s).fab = s.fab ∧
    (State.alert s).sol = s.sol ∧ (State.alert s).start = s.start ∧ (State.alert s).hist = s.hist ∧ (State.alert s).ctr = s.ctr := by
  simp [State.alert]
@[simp] theorem State.moduleReset_keeps (s : State) : (State.moduleReset s).pending = s.pending ∧
    (State.moduleReset s).start.pcl.length = s.start.pcl.length ∧ (State.moduleReset s).start.flash.xidx = s.start.flash.xidx ∧
    (State.moduleReset s).start.lc = s.start.lc ∧ (State.moduleReset s).start.starts = s.start.starts ∧
    (State.moduleReset s).hub.module = s.hub.module := by
  simp [State.moduleReset]
@[simp] theorem State.haltWith_keeps (s : State) (cause : Nat) : (State.haltWith s cause).pending = s.pending ∧
    (State.haltWith s cause).start.pcl.length = s.start.pcl.length ∧ (State.haltWith s cause).start.flash.xidx = s.start.flash.xidx ∧
    (State.haltWith s cause).start.lc = s.start.lc ∧ (State.haltWith s cause).start.starts = s.start.starts ∧
    (State.haltWith s cause).hub.module = s.hub.module := by
  simp [State.haltWith]
@[simp] theorem State.tstErr_keeps (s : State) : (State.tstErr s).pending = s.pending ∧ (State.tstErr s).mem = s.mem ∧
    (State.tstErr s).tags = s.tags ∧ (State.tstErr s).poison = s.poison ∧ (State.tstErr s).pages = s.pages ∧
    (State.tstErr s).clusters = s.clusters ∧ (State.tstErr s).jobs = s.jobs ∧ (State.tstErr s).hub = s.hub ∧ (State.tstErr s).fab = s.fab ∧
    (State.tstErr s).sol = s.sol ∧ (State.tstErr s).hist = s.hist ∧ (State.tstErr s).ctr = s.ctr ∧ (State.tstErr s).pwr = s.pwr ∧
    (State.tstErr s).start.pcl.length = s.start.pcl.length ∧ (State.tstErr s).start.flash.xidx = s.start.flash.xidx ∧
    (State.tstErr s).start.lc = s.start.lc ∧ (State.tstErr s).start.starts = s.start.starts := by
  simp [State.tstErr]
@[simp] theorem State.tuneErr_keeps (s : State) : (State.tuneErr s).pending = s.pending ∧ (State.tuneErr s).mem = s.mem ∧
    (State.tuneErr s).tags = s.tags ∧ (State.tuneErr s).poison = s.poison ∧ (State.tuneErr s).pages = s.pages ∧
    (State.tuneErr s).clusters = s.clusters ∧ (State.tuneErr s).jobs = s.jobs ∧ (State.tuneErr s).hub = s.hub ∧ (State.tuneErr s).fab = s.fab ∧
    (State.tuneErr s).sol = s.sol ∧ (State.tuneErr s).start = s.start ∧ (State.tuneErr s).ctr = s.ctr ∧ (State.tuneErr s).pwr = s.pwr := by
  simp [State.tuneErr]
@[simp] theorem State.enterService_keeps (s : State) : (State.enterService s).pending = s.pending ∧ (State.enterService s).mem = s.mem ∧
    (State.enterService s).tags = s.tags ∧ (State.enterService s).poison = s.poison ∧ (State.enterService s).pages = s.pages ∧
    (State.enterService s).clusters = s.clusters ∧ (State.enterService s).jobs = s.jobs ∧ (State.enterService s).hub = s.hub ∧
    (State.enterService s).fab = s.fab ∧ (State.enterService s).sol = s.sol ∧ (State.enterService s).ctr = s.ctr ∧
    (State.enterService s).start.pcl.length = s.start.pcl.length ∧ (State.enterService s).start.flash.xidx = s.start.flash.xidx ∧
    (State.enterService s).start.starts = s.start.starts := by
  unfold State.enterService
  (repeat' split) <;> simp
@[simp] theorem State.leaveService_keeps (s : State) : (State.leaveService s).pending = s.pending ∧
    (State.leaveService s).start.pcl.length = s.start.pcl.length ∧ (State.leaveService s).start.flash.xidx = s.start.flash.xidx ∧
    (State.leaveService s).start.lc = s.start.lc ∧ (State.leaveService s).start.starts = s.start.starts ∧
    (State.leaveService s).hub.module = s.hub.module := by
  unfold State.leaveService
  (repeat' split) <;> simp
@[simp] theorem State.fuseProposed_keeps (s : State) : (State.fuseProposed s).pending = s.pending ∧ (State.fuseProposed s).mem = s.mem ∧
    (State.fuseProposed s).tags = s.tags ∧ (State.fuseProposed s).poison = s.poison ∧ (State.fuseProposed s).pages = s.pages ∧
    (State.fuseProposed s).clusters = s.clusters ∧ (State.fuseProposed s).jobs = s.jobs ∧ (State.fuseProposed s).hub = s.hub ∧
    (State.fuseProposed s).fab = s.fab ∧ (State.fuseProposed s).sol = s.sol ∧ (State.fuseProposed s).ctr = s.ctr ∧
    (State.fuseProposed s).pwr = s.pwr ∧ (State.fuseProposed s).start.pcl.length = s.start.pcl.length ∧
    (State.fuseProposed s).start.flash.xidx = s.start.flash.xidx ∧ (State.fuseProposed s).start.lc = s.start.lc ∧
    (State.fuseProposed s).start.starts = s.start.starts := by
  unfold State.fuseProposed
  (repeat' split) <;> simp
@[simp] theorem State.fuseSvn_keeps (s : State) : (State.fuseSvn s).pending = s.pending ∧ (State.fuseSvn s).mem = s.mem ∧
    (State.fuseSvn s).tags = s.tags ∧ (State.fuseSvn s).poison = s.poison ∧ (State.fuseSvn s).pages = s.pages ∧
    (State.fuseSvn s).clusters = s.clusters ∧ (State.fuseSvn s).jobs = s.jobs ∧ (State.fuseSvn s).hub = s.hub ∧ (State.fuseSvn s).fab = s.fab ∧
    (State.fuseSvn s).sol = s.sol ∧ (State.fuseSvn s).hist = s.hist ∧ (State.fuseSvn s).ctr = s.ctr ∧ (State.fuseSvn s).pwr = s.pwr ∧
    (State.fuseSvn s).start.pcl.length = s.start.pcl.length ∧ (State.fuseSvn s).start.flash.xidx = s.start.flash.xidx ∧
    (State.fuseSvn s).start.lc = s.start.lc ∧ (State.fuseSvn s).start.starts = s.start.starts := by
  unfold State.fuseSvn
  (repeat' split) <;> simp
@[simp] theorem State.recheck_keeps (s : State) (worst : List (Nat × Nat)) : (State.recheck s worst).pending = s.pending ∧
    (State.recheck s worst).pages = s.pages ∧ (State.recheck s worst).jobs = s.jobs ∧ (State.recheck s worst).hub = s.hub ∧
    (State.recheck s worst).sol = s.sol ∧ (State.recheck s worst).ctr = s.ctr ∧ (State.recheck s worst).clusters.length = s.clusters.length ∧
    (State.recheck s worst).fab.ports.length = s.fab.ports.length ∧ (State.recheck s worst).start.pcl.length = s.start.pcl.length ∧
    (State.recheck s worst).start.flash.xidx = s.start.flash.xidx ∧ (State.recheck s worst).start.starts = s.start.starts := by
  unfold State.recheck
  (repeat' split) <;> simp
@[simp] theorem State.recheckCmd_keeps (s : State) : (State.recheckCmd s).pending = s.pending ∧ (State.recheckCmd s).pages = s.pages ∧
    (State.recheckCmd s).jobs = s.jobs ∧ (State.recheckCmd s).hub = s.hub ∧ (State.recheckCmd s).sol = s.sol ∧
    (State.recheckCmd s).ctr = s.ctr ∧ (State.recheckCmd s).clusters.length = s.clusters.length ∧
    (State.recheckCmd s).fab.ports.length = s.fab.ports.length ∧ (State.recheckCmd s).start.pcl.length = s.start.pcl.length ∧
    (State.recheckCmd s).start.flash.xidx = s.start.flash.xidx ∧ (State.recheckCmd s).start.starts = s.start.starts := by
  unfold State.recheckCmd
  (repeat' split) <;> simp
@[simp] theorem State.tstCmd_keeps (s : State) (v : Word) : (State.tstCmd s v).pending = s.pending ∧
    (State.tstCmd s v).start.pcl.length = s.start.pcl.length ∧ (State.tstCmd s v).start.flash.xidx = s.start.flash.xidx ∧
    (State.tstCmd s v).start.starts = s.start.starts ∧ (State.tstCmd s v).hub.module = s.hub.module := by
  unfold State.tstCmd
  (repeat' split) <;> simp
@[simp] theorem State.tuneNow_keeps (s : State) (p : Nat) : (State.tuneNow s p).pending = s.pending ∧ (State.tuneNow s p).mem = s.mem ∧
    (State.tuneNow s p).tags = s.tags ∧ (State.tuneNow s p).poison = s.poison ∧ (State.tuneNow s p).pages = s.pages ∧
    (State.tuneNow s p).clusters = s.clusters ∧ (State.tuneNow s p).jobs = s.jobs ∧ (State.tuneNow s p).hub = s.hub ∧
    (State.tuneNow s p).fab = s.fab ∧ (State.tuneNow s p).sol = s.sol ∧ (State.tuneNow s p).ctr = s.ctr ∧ (State.tuneNow s p).pwr = s.pwr ∧
    (State.tuneNow s p).start.pcl.length = s.start.pcl.length ∧ (State.tuneNow s p).start.flash.xidx = s.start.flash.xidx ∧
    (State.tuneNow s p).start.starts = s.start.starts := by
  unfold State.tuneNow
  (repeat' split) <;> simp
@[simp] theorem State.rotateOut_keeps (s : State) (p : Nat) : (State.rotateOut s p).pending = s.pending ∧
    (State.rotateOut s p).pages = s.pages ∧ (State.rotateOut s p).jobs = s.jobs ∧ (State.rotateOut s p).hub = s.hub ∧
    (State.rotateOut s p).fab = s.fab ∧ (State.rotateOut s p).sol = s.sol ∧ (State.rotateOut s p).ctr = s.ctr ∧
    (State.rotateOut s p).clusters.length = s.clusters.length ∧ (State.rotateOut s p).start.pcl.length = s.start.pcl.length ∧
    (State.rotateOut s p).start.flash.xidx = s.start.flash.xidx ∧ (State.rotateOut s p).start.starts = s.start.starts := by
  unfold State.rotateOut
  (repeat' split) <;> simp
@[simp] theorem State.clearRail_keeps (s : State) (p : Nat) : (State.clearRail s p).pending = s.pending ∧ (State.clearRail s p).mem = s.mem ∧
    (State.clearRail s p).tags = s.tags ∧ (State.clearRail s p).poison = s.poison ∧ (State.clearRail s p).pages = s.pages ∧
    (State.clearRail s p).clusters = s.clusters ∧ (State.clearRail s p).jobs = s.jobs ∧ (State.clearRail s p).hub = s.hub ∧
    (State.clearRail s p).fab = s.fab ∧ (State.clearRail s p).sol = s.sol ∧ (State.clearRail s p).ctr = s.ctr ∧
    (State.clearRail s p).pwr = s.pwr ∧ (State.clearRail s p).start.pcl.length = s.start.pcl.length ∧
    (State.clearRail s p).start.flash.xidx = s.start.flash.xidx ∧ (State.clearRail s p).start.starts = s.start.starts := by
  unfold State.clearRail
  (repeat' split) <;> simp
@[simp] theorem State.tuneCmd_keeps (s : State) (v : Word) : (State.tuneCmd s v).pending = s.pending ∧ (State.tuneCmd s v).pages = s.pages ∧
    (State.tuneCmd s v).jobs = s.jobs ∧ (State.tuneCmd s v).hub = s.hub ∧ (State.tuneCmd s v).fab = s.fab ∧ (State.tuneCmd s v).sol = s.sol ∧
    (State.tuneCmd s v).ctr = s.ctr ∧ (State.tuneCmd s v).clusters.length = s.clusters.length ∧
    (State.tuneCmd s v).start.pcl.length = s.start.pcl.length ∧ (State.tuneCmd s v).start.flash.xidx = s.start.flash.xidx ∧
    (State.tuneCmd s v).start.starts = s.start.starts := by
  unfold State.tuneCmd
  repeat' (first | split | dsimp only)
  all_goals simp
@[simp] theorem State.fhQuery_keeps (s : State) (kind : Nat) (index : Nat) : (State.fhQuery s kind index).pending = s.pending ∧
    (State.fhQuery s kind index).mem = s.mem ∧ (State.fhQuery s kind index).tags = s.tags ∧ (State.fhQuery s kind index).poison = s.poison ∧
    (State.fhQuery s kind index).pages = s.pages ∧ (State.fhQuery s kind index).clusters = s.clusters ∧
    (State.fhQuery s kind index).jobs = s.jobs ∧ (State.fhQuery s kind index).hub = s.hub ∧ (State.fhQuery s kind index).fab = s.fab ∧
    (State.fhQuery s kind index).sol = s.sol ∧ (State.fhQuery s kind index).start = s.start ∧ (State.fhQuery s kind index).ctr = s.ctr ∧
    (State.fhQuery s kind index).pwr = s.pwr := by
  simp [State.fhQuery]
@[simp] theorem State.snap_keeps (s : State) (domain : Bool) : (State.snap s domain).pending = s.pending ∧ (State.snap s domain).tags = s.tags ∧
    (State.snap s domain).jobs = s.jobs ∧ (State.snap s domain).sol = s.sol ∧ (State.snap s domain).start = s.start ∧
    (State.snap s domain).hist = s.hist ∧ (State.snap s domain).pwr = s.pwr ∧ (State.snap s domain).clusters.length = s.clusters.length ∧
    (State.snap s domain).fab.ports.length = s.fab.ports.length ∧ (State.snap s domain).hub.module = s.hub.module := by
  unfold State.snap
  dsimp only
  (repeat' split) <;> simp [-List.foldl_reverse]
@[simp] theorem State.ctrCmd_keeps (s : State) (v : Word) : (State.ctrCmd s v).pending = s.pending ∧ (State.ctrCmd s v).tags = s.tags ∧
    (State.ctrCmd s v).jobs = s.jobs ∧ (State.ctrCmd s v).sol = s.sol ∧ (State.ctrCmd s v).start = s.start ∧ (State.ctrCmd s v).hist = s.hist ∧
    (State.ctrCmd s v).pwr = s.pwr ∧ (State.ctrCmd s v).clusters.length = s.clusters.length ∧
    (State.ctrCmd s v).fab.ports.length = s.fab.ports.length ∧ (State.ctrCmd s v).hub.module = s.hub.module := by
  unfold State.ctrCmd
  (repeat' split) <;> simp

/-! ## Words -/

@[simp] theorem State.attGo_keeps (s : State) (v : Word) : (State.attGo s v).pending = s.pending ∧ (State.attGo s v).mem = s.mem ∧
    (State.attGo s v).tags = s.tags ∧ (State.attGo s v).poison = s.poison ∧ (State.attGo s v).pages = s.pages ∧
    (State.attGo s v).clusters = s.clusters ∧ (State.attGo s v).jobs = s.jobs ∧ (State.attGo s v).fab = s.fab ∧ (State.attGo s v).sol = s.sol ∧
    (State.attGo s v).start = s.start ∧ (State.attGo s v).hist = s.hist ∧ (State.attGo s v).ctr = s.ctr ∧ (State.attGo s v).pwr = s.pwr ∧
    (State.attGo s v).hub.module = s.hub.module := by
  unfold State.attGo
  repeat' (first | split | dsimp only)
  all_goals simp
@[simp] theorem State.writeReg_keeps (s : State) (r : Reg) (v : Word) (ctx : Nat) : (State.writeReg s r v ctx).pending = s.pending ∧
    (State.writeReg s r v ctx).start.pcl.length = s.start.pcl.length ∧ (State.writeReg s r v ctx).start.flash.xidx = s.start.flash.xidx ∧
    (State.writeReg s r v ctx).start.starts = s.start.starts ∧ (State.writeReg s r v ctx).hub.module = s.hub.module := by
  unfold State.writeReg
  (repeat' split) <;> simp

/-! ## MemoryOps -/

@[simp] theorem State.tagLanded_keeps (s : State) (a : Nat) (n : Nat) : (State.tagLanded s a n).pending = s.pending ∧
    (State.tagLanded s a n).mem = s.mem ∧ (State.tagLanded s a n).poison = s.poison ∧ (State.tagLanded s a n).pages = s.pages ∧
    (State.tagLanded s a n).clusters = s.clusters ∧ (State.tagLanded s a n).jobs = s.jobs ∧ (State.tagLanded s a n).hub = s.hub ∧
    (State.tagLanded s a n).fab = s.fab ∧ (State.tagLanded s a n).sol = s.sol ∧ (State.tagLanded s a n).start = s.start ∧
    (State.tagLanded s a n).hist = s.hist ∧ (State.tagLanded s a n).ctr = s.ctr ∧ (State.tagLanded s a n).pwr = s.pwr := by
  unfold State.tagLanded
  (repeat' split) <;> simp
@[simp] theorem State.rowsLanded_keeps (s : State) (ctx : Nat) (a : Nat) (n : Nat) : (State.rowsLanded s ctx a n).pending = s.pending ∧
    (State.rowsLanded s ctx a n).mem = s.mem ∧ (State.rowsLanded s ctx a n).tags = s.tags ∧ (State.rowsLanded s ctx a n).poison = s.poison ∧
    (State.rowsLanded s ctx a n).pages = s.pages ∧ (State.rowsLanded s ctx a n).jobs = s.jobs ∧ (State.rowsLanded s ctx a n).hub = s.hub ∧
    (State.rowsLanded s ctx a n).fab = s.fab ∧ (State.rowsLanded s ctx a n).sol = s.sol ∧ (State.rowsLanded s ctx a n).start = s.start ∧
    (State.rowsLanded s ctx a n).hist = s.hist ∧ (State.rowsLanded s ctx a n).ctr = s.ctr ∧ (State.rowsLanded s ctx a n).pwr = s.pwr ∧
    (State.rowsLanded s ctx a n).clusters.length = s.clusters.length := by
  simp [State.rowsLanded]
@[simp] theorem State.consumed_keeps (s : State) (p : Nat) (b : Body) : (State.consumed s p b).pending = s.pending ∧
    (State.consumed s p b).mem = s.mem ∧ (State.consumed s p b).tags = s.tags ∧ (State.consumed s p b).poison = s.poison ∧
    (State.consumed s p b).pages = s.pages ∧ (State.consumed s p b).clusters = s.clusters ∧ (State.consumed s p b).jobs = s.jobs ∧
    (State.consumed s p b).hub = s.hub ∧ (State.consumed s p b).sol = s.sol ∧ (State.consumed s p b).start = s.start ∧
    (State.consumed s p b).hist = s.hist ∧ (State.consumed s p b).pwr = s.pwr ∧
    (State.consumed s p b).fab.ports.length = s.fab.ports.length := by
  simp [State.consumed]
@[simp] theorem State.echoHelds_keeps (s : State) (a : Nat) (n : Nat) : (State.echoHelds s a n).pending = s.pending ∧
    (State.echoHelds s a n).mem = s.mem ∧ (State.echoHelds s a n).tags = s.tags ∧ (State.echoHelds s a n).poison = s.poison ∧
    (State.echoHelds s a n).pages = s.pages ∧ (State.echoHelds s a n).clusters = s.clusters ∧ (State.echoHelds s a n).jobs = s.jobs ∧
    (State.echoHelds s a n).hub = s.hub ∧ (State.echoHelds s a n).sol = s.sol ∧ (State.echoHelds s a n).start = s.start ∧
    (State.echoHelds s a n).hist = s.hist ∧ (State.echoHelds s a n).pwr = s.pwr ∧
    (State.echoHelds s a n).fab.ports.length = s.fab.ports.length := by
  simp [State.echoHelds]
@[simp] theorem State.landWrite_keeps (s : State) (w : HeldWrite) : (State.landWrite s w).pending = s.pending ∧
    (State.landWrite s w).pages = s.pages ∧ (State.landWrite s w).jobs = s.jobs ∧ (State.landWrite s w).sol = s.sol ∧
    (State.landWrite s w).start = s.start ∧ (State.landWrite s w).hist = s.hist ∧ (State.landWrite s w).pwr = s.pwr ∧
    (State.landWrite s w).clusters.length = s.clusters.length ∧ (State.landWrite s w).fab.ports.length = s.fab.ports.length ∧
    (State.landWrite s w).hub.module = s.hub.module := by
  unfold State.landWrite
  (repeat' split) <;> simp
@[simp] theorem State.memWrite_keeps (s : State) (w : HeldWrite) : (State.memWrite s w).pending = s.pending ∧
    (State.memWrite s w).jobs = s.jobs ∧ (State.memWrite s w).sol = s.sol ∧ (State.memWrite s w).start = s.start ∧
    (State.memWrite s w).hist = s.hist ∧ (State.memWrite s w).pwr = s.pwr ∧ (State.memWrite s w).clusters.length = s.clusters.length ∧
    (State.memWrite s w).fab.ports.length = s.fab.ports.length ∧ (State.memWrite s w).hub.module = s.hub.module := by
  unfold State.memWrite
  (repeat' split) <;> simp
@[simp] theorem State.windowStore_keeps (s : State) (dst : Nat) (bytes : List Byte) : (State.windowStore s dst bytes).pending = s.pending ∧
    (State.windowStore s dst bytes).jobs = s.jobs ∧ (State.windowStore s dst bytes).sol = s.sol ∧
    (State.windowStore s dst bytes).start = s.start ∧ (State.windowStore s dst bytes).hist = s.hist ∧
    (State.windowStore s dst bytes).pwr = s.pwr ∧ (State.windowStore s dst bytes).clusters.length = s.clusters.length ∧
    (State.windowStore s dst bytes).fab.ports.length = s.fab.ports.length ∧ (State.windowStore s dst bytes).hub.module = s.hub.module := by
  simp [State.windowStore]
@[simp] theorem State.landWrites_keeps (s : State) : (State.landWrites s).pending = s.pending ∧ (State.landWrites s).jobs = s.jobs ∧
    (State.landWrites s).sol = s.sol ∧ (State.landWrites s).start = s.start ∧ (State.landWrites s).hist = s.hist ∧
    (State.landWrites s).pwr = s.pwr ∧ (State.landWrites s).clusters.length = s.clusters.length ∧
    (State.landWrites s).fab.ports.length = s.fab.ports.length ∧ (State.landWrites s).hub.module = s.hub.module := by
  simp [State.landWrites]
@[simp] theorem State.poisonWords_keeps (s : State) (page : Nat) (bad : List Nat) : (State.poisonWords s page bad).pending = s.pending ∧
    (State.poisonWords s page bad).pages = s.pages ∧ (State.poisonWords s page bad).jobs = s.jobs ∧ (State.poisonWords s page bad).hub = s.hub ∧
    (State.poisonWords s page bad).fab = s.fab ∧ (State.poisonWords s page bad).sol = s.sol ∧ (State.poisonWords s page bad).ctr = s.ctr ∧
    (State.poisonWords s page bad).clusters.length = s.clusters.length ∧ (State.poisonWords s page bad).start.pcl.length = s.start.pcl.length ∧
    (State.poisonWords s page bad).start.flash.xidx = s.start.flash.xidx ∧ (State.poisonWords s page bad).start.starts = s.start.starts := by
  simp [State.poisonWords]
@[simp] theorem State.poisonAll_keeps (s : State) (bad : List Nat) : (State.poisonAll s bad).pending = s.pending ∧
    (State.poisonAll s bad).pages = s.pages ∧ (State.poisonAll s bad).jobs = s.jobs ∧ (State.poisonAll s bad).hub = s.hub ∧
    (State.poisonAll s bad).fab = s.fab ∧ (State.poisonAll s bad).sol = s.sol ∧ (State.poisonAll s bad).ctr = s.ctr ∧
    (State.poisonAll s bad).clusters.length = s.clusters.length ∧ (State.poisonAll s bad).start.pcl.length = s.start.pcl.length ∧
    (State.poisonAll s bad).start.flash.xidx = s.start.flash.xidx ∧ (State.poisonAll s bad).start.starts = s.start.starts := by
  simp [State.poisonAll]
@[simp] theorem State.faultMove_keeps (s : State) (page : Nat) (f : Frame) : (State.faultMove s page f).pending = s.pending ∧
    (State.faultMove s page f).jobs = s.jobs ∧ (State.faultMove s page f).hub = s.hub ∧ (State.faultMove s page f).fab = s.fab ∧
    (State.faultMove s page f).sol = s.sol ∧ (State.faultMove s page f).ctr = s.ctr ∧
    (State.faultMove s page f).clusters.length = s.clusters.length ∧ (State.faultMove s page f).start.pcl.length = s.start.pcl.length ∧
    (State.faultMove s page f).start.flash.xidx = s.start.flash.xidx ∧ (State.faultMove s page f).start.starts = s.start.starts := by
  unfold State.faultMove
  (repeat' split) <;> simp
@[simp] theorem State.applyDelta_keeps (s : State) (p : Pkt) : (State.applyDelta s p).pending = s.pending ∧
    (State.applyDelta s p).tags = s.tags ∧ (State.applyDelta s p).clusters = s.clusters ∧ (State.applyDelta s p).jobs = s.jobs ∧
    (State.applyDelta s p).start = s.start ∧ (State.applyDelta s p).hist = s.hist ∧ (State.applyDelta s p).pwr = s.pwr ∧
    (State.applyDelta s p).fab.ports.length = s.fab.ports.length ∧ (State.applyDelta s p).hub.module = s.hub.module := by
  unfold State.applyDelta
  (repeat' split) <;> simp
@[simp] theorem State.applyPending_keeps (base off : Nat) (xs : List (Nat × Nat)) (s : State) :
    (State.applyPending base off xs s).pending = s.pending ∧
    (State.applyPending base off xs s).tags = s.tags ∧ (State.applyPending base off xs s).clusters = s.clusters ∧
    (State.applyPending base off xs s).jobs = s.jobs ∧ (State.applyPending base off xs s).start = s.start ∧
    (State.applyPending base off xs s).hist = s.hist ∧ (State.applyPending base off xs s).pwr = s.pwr ∧
    (State.applyPending base off xs s).fab.ports.length = s.fab.ports.length ∧
    (State.applyPending base off xs s).hub.module = s.hub.module := by
  induction xs generalizing off s with
  | nil => simp [State.applyPending]
  | cons x xs ih =>
    have hk : ∀ u, u = (match s.hub.pkt x.1 with
      | some p => s.applyDelta { p with pay := Cells.read s.mem (base + off) x.2 }
      | none => s) → u.pending = s.pending ∧ u.tags = s.tags ∧ u.clusters = s.clusters ∧ u.jobs = s.jobs ∧ u.start = s.start ∧ u.hist = s.hist ∧
          u.pwr = s.pwr ∧ u.fab.ports.length = s.fab.ports.length ∧ u.hub.module = s.hub.module := by
      rintro _ rfl
      split <;> simp
    obtain ⟨k0, k1, k3, k4, k5, k6, k7, k8, k9⟩ := hk _ rfl
    obtain ⟨h0, h1, h3, h4, h5, h6, h7, h8, h9⟩ := ih (off + x.2) (match s.hub.pkt x.1 with
      | some p => s.applyDelta { p with pay := Cells.read s.mem (base + off) x.2 }
      | none => s)
    exact ⟨h0.trans k0, h1.trans k1, h3.trans k3, h4.trans k4, h5.trans k5, h6.trans k6, h7.trans k7, h8.trans k8, h9.trans k9⟩

end Sys2Proof.Machine
end

