-- ==== Sys2Proof/Laws/Hub.lean ====
section
/-!
SUPPORT. One lemma for each operation, which says every part of the state that it keeps. Here: the hub: requests, packets, tasks, loading, attestation, commits and the host link.
-/

namespace Sys2Proof.Machine

/-! ## Requests -/

@[simp] theorem State.flushRing_keeps (s : State) (n : Nat) (status : Nat) : (State.flushRing s n status).pending = s.pending ∧
    (State.flushRing s n status).tags = s.tags ∧ (State.flushRing s n status).clusters = s.clusters ∧
    (State.flushRing s n status).jobs = s.jobs ∧ (State.flushRing s n status).fab = s.fab ∧ (State.flushRing s n status).sol = s.sol ∧
    (State.flushRing s n status).start = s.start ∧ (State.flushRing s n status).hist = s.hist ∧ (State.flushRing s n status).pwr = s.pwr ∧
    (State.flushRing s n status).hub.module = s.hub.module := by
  simp [State.flushRing]
@[simp] theorem State.resetTask_keeps (s : State) (k : TaskKey) : (State.resetTask s k).pending = s.pending ∧
    (State.resetTask s k).jobs = s.jobs ∧ (State.resetTask s k).pwr = s.pwr ∧ (State.resetTask s k).clusters.length = s.clusters.length ∧
    (State.resetTask s k).fab.ports.length = s.fab.ports.length ∧ (State.resetTask s k).start.pcl.length = s.start.pcl.length ∧
    (State.resetTask s k).start.flash.xidx = s.start.flash.xidx ∧ (State.resetTask s k).start.lc = s.start.lc ∧
    (State.resetTask s k).start.starts = s.start.starts ∧ (State.resetTask s k).hub.module = s.hub.module := by
  simp [State.resetTask]
@[simp] theorem State.resetHere_keeps (s : State) (n : Nat) : (State.resetHere s n).pending = s.pending ∧ (State.resetHere s n).jobs = s.jobs ∧
    (State.resetHere s n).pwr = s.pwr ∧ (State.resetHere s n).clusters.length = s.clusters.length ∧
    (State.resetHere s n).fab.ports.length = s.fab.ports.length ∧ (State.resetHere s n).start.pcl.length = s.start.pcl.length ∧
    (State.resetHere s n).start.flash.xidx = s.start.flash.xidx ∧ (State.resetHere s n).start.lc = s.start.lc ∧
    (State.resetHere s n).start.starts = s.start.starts ∧ (State.resetHere s n).hub.module = s.hub.module := by
  unfold State.resetHere
  extract_lets s1 s2 s3 s4 b a
  have h1 : s1.pending = s.pending ∧ s1.jobs = s.jobs ∧ s1.pwr = s.pwr ∧ s1.clusters.length = s.clusters.length ∧
      s1.fab.ports.length = s.fab.ports.length ∧ s1.start.pcl.length = s.start.pcl.length ∧ s1.start.flash.xidx = s.start.flash.xidx ∧
      s1.start.lc = s.start.lc ∧ s1.start.starts = s.start.starts ∧ s1.hub.module = s.hub.module := by simp [s1]
  obtain ⟨g, hg⟩ : ∃ g : State → Nat × Ring → State, g = fun s r => s.flushRing r.1 statusContextReset := ⟨_, rfl⟩
  have hf : ∀ s r, g s r = s.flushRing r.1 statusContextReset := by subst hg; intros; rfl
  have h2 : s2.pending = s1.pending ∧ s2.jobs = s1.jobs ∧ s2.pwr = s1.pwr ∧ s2.clusters.length = s1.clusters.length ∧
      s2.fab.ports.length = s1.fab.ports.length ∧ s2.start.pcl.length = s1.start.pcl.length ∧ s2.start.flash.xidx = s1.start.flash.xidx ∧
      s2.start.lc = s1.start.lc ∧ s2.start.starts = s1.start.starts ∧ s2.hub.module = s1.hub.module := by
    simp only [s2, ← hg]
    clear_value s1
    clear hg
    simp [hf]
  have h3 : s3.pending = s2.pending ∧ s3.jobs = s2.jobs ∧ s3.pwr = s2.pwr ∧ s3.clusters.length = s2.clusters.length ∧
      s3.fab.ports.length = s2.fab.ports.length ∧ s3.start.pcl.length = s2.start.pcl.length ∧ s3.start.flash.xidx = s2.start.flash.xidx ∧
      s3.start.lc = s2.start.lc ∧ s3.start.starts = s2.start.starts ∧ s3.hub.module = s2.hub.module := by simp [s3]
  have h4 : s4.pending = s3.pending ∧ s4.jobs = s3.jobs ∧ s4.pwr = s3.pwr ∧ s4.clusters.length = s3.clusters.length ∧
      s4.fab.ports.length = s3.fab.ports.length ∧ s4.start.pcl.length = s3.start.pcl.length ∧ s4.start.flash.xidx = s3.start.flash.xidx ∧
      s4.start.lc = s3.start.lc ∧ s4.start.starts = s3.start.starts ∧ s4.hub.module = s3.hub.module := by simp [s4]
  have ha : a = s4.fab := rfl
  have hb : b = s4.hub := rfl
  clear_value a b s4 s3 s2 s1
  simp [ha, hb, h1, h2, h3, h4]
@[simp] theorem State.resetDomain_keeps (s : State) (n : Nat) (use : HubUse) : ((State.resetDomain s n use).1).pending = s.pending ∧
    ((State.resetDomain s n use).1).jobs = s.jobs ∧ ((State.resetDomain s n use).1).pwr = s.pwr ∧
    ((State.resetDomain s n use).1).clusters.length = s.clusters.length ∧
    ((State.resetDomain s n use).1).fab.ports.length = s.fab.ports.length ∧
    ((State.resetDomain s n use).1).start.pcl.length = s.start.pcl.length ∧
    ((State.resetDomain s n use).1).start.flash.xidx = s.start.flash.xidx ∧ ((State.resetDomain s n use).1).start.lc = s.start.lc ∧
    ((State.resetDomain s n use).1).start.starts = s.start.starts ∧ ((State.resetDomain s n use).1).hub.module = s.hub.module := by
  simp [State.resetDomain]
@[simp] theorem State.dropJob_keeps (s : State) (j : Job) : (State.dropJob s j).pending = s.pending ∧
    (State.dropJob s j).clusters = s.clusters ∧ (State.dropJob s j).start = s.start ∧ (State.dropJob s j).hist = s.hist ∧
    (State.dropJob s j).pwr = s.pwr ∧ (State.dropJob s j).fab.ports.length = s.fab.ports.length ∧
    (State.dropJob s j).hub.module = s.hub.module := by
  simp [State.dropJob]
@[simp] theorem State.doorbell_keeps (s : State) (n : Nat) (v : Word) (tail : Bool) (cq : Bool) : (State.doorbell s n v tail cq).pending = s.pending ∧
    (State.doorbell s n v tail cq).tags = s.tags ∧ (State.doorbell s n v tail cq).clusters = s.clusters ∧
    (State.doorbell s n v tail cq).jobs = s.jobs ∧ (State.doorbell s n v tail cq).fab = s.fab ∧ (State.doorbell s n v tail cq).sol = s.sol ∧
    (State.doorbell s n v tail cq).start = s.start ∧ (State.doorbell s n v tail cq).hist = s.hist ∧ (State.doorbell s n v tail cq).pwr = s.pwr ∧
    (State.doorbell s n v tail cq).hub.module = s.hub.module := by
  simp [State.doorbell]

/-! ## Coppice -/

@[simp] theorem State.beginRestore_keeps (s : State) (j : Job) (p : ParamPlan) (r : Restore) : (State.beginRestore s j p r).pending = s.pending ∧
    (State.beginRestore s j p r).mem = s.mem ∧ (State.beginRestore s j p r).tags = s.tags ∧ (State.beginRestore s j p r).poison = s.poison ∧
    (State.beginRestore s j p r).pages = s.pages ∧ (State.beginRestore s j p r).clusters = s.clusters ∧
    (State.beginRestore s j p r).jobs = s.jobs ∧ (State.beginRestore s j p r).sol = s.sol ∧ (State.beginRestore s j p r).start = s.start ∧
    (State.beginRestore s j p r).hist = s.hist ∧ (State.beginRestore s j p r).pwr = s.pwr ∧
    (State.beginRestore s j p r).fab.ports.length = s.fab.ports.length ∧ (State.beginRestore s j p r).hub.module = s.hub.module := by
  simp [State.beginRestore]
@[simp] theorem State.finishRestore_keeps (s : State) (j : Job) (r : Restore) : ((State.finishRestore s j r).1).pending = s.pending ∧
    ((State.finishRestore s j r).1).tags = s.tags ∧ ((State.finishRestore s j r).1).pages = s.pages ∧
    ((State.finishRestore s j r).1).clusters = s.clusters ∧ ((State.finishRestore s j r).1).jobs = s.jobs ∧
    ((State.finishRestore s j r).1).fab = s.fab ∧ ((State.finishRestore s j r).1).sol = s.sol ∧
    ((State.finishRestore s j r).1).start = s.start ∧ ((State.finishRestore s j r).1).hist = s.hist ∧
    ((State.finishRestore s j r).1).ctr = s.ctr ∧ ((State.finishRestore s j r).1).pwr = s.pwr ∧
    ((State.finishRestore s j r).1).hub.module = s.hub.module := by
  simp [State.finishRestore]

/-! ## Packets -/

@[simp] theorem State.doNop_keeps (s : State) (p : Pkt) : (State.doNop s p).pending = s.pending ∧ (State.doNop s p).tags = s.tags ∧
    (State.doNop s p).clusters = s.clusters ∧ (State.doNop s p).jobs = s.jobs ∧ (State.doNop s p).sol = s.sol ∧
    (State.doNop s p).start = s.start ∧ (State.doNop s p).hist = s.hist ∧ (State.doNop s p).pwr = s.pwr ∧
    (State.doNop s p).fab.ports.length = s.fab.ports.length ∧ (State.doNop s p).hub.module = s.hub.module := by
  simp [State.doNop]
@[simp] theorem State.landData_keeps (s : State) (p : Pkt) : (State.landData s p).pending = s.pending ∧
    (State.landData s p).clusters = s.clusters ∧ (State.landData s p).jobs = s.jobs ∧ (State.landData s p).hub = s.hub ∧
    (State.landData s p).fab = s.fab ∧ (State.landData s p).sol = s.sol ∧ (State.landData s p).start = s.start ∧
    (State.landData s p).hist = s.hist ∧ (State.landData s p).ctr = s.ctr ∧ (State.landData s p).pwr = s.pwr := by
  unfold State.landData
  repeat' (first | split | dsimp only)
  all_goals simp
@[simp] theorem State.doData_keeps (s : State) (p : Pkt) : (State.doData s p).pending = s.pending ∧ (State.doData s p).clusters = s.clusters ∧
    (State.doData s p).jobs = s.jobs ∧ (State.doData s p).sol = s.sol ∧ (State.doData s p).start = s.start ∧ (State.doData s p).hist = s.hist ∧
    (State.doData s p).pwr = s.pwr ∧ (State.doData s p).fab.ports.length = s.fab.ports.length ∧
    (State.doData s p).hub.module = s.hub.module := by
  unfold State.doData
  (repeat' split) <;> simp
@[simp] theorem State.doRead_keeps (s : State) (p : Pkt) (ev : Ev) : (State.doRead s p ev).pending = s.pending ∧
    (State.doRead s p ev).jobs = s.jobs ∧ (State.doRead s p ev).sol = s.sol ∧ (State.doRead s p ev).clusters.length = s.clusters.length ∧
    (State.doRead s p ev).fab.ports.length = s.fab.ports.length ∧ (State.doRead s p ev).start.pcl.length = s.start.pcl.length ∧
    (State.doRead s p ev).start.flash.xidx = s.start.flash.xidx ∧ (State.doRead s p ev).start.starts = s.start.starts ∧
    (State.doRead s p ev).hub.module = s.hub.module := by
  unfold State.doRead
  repeat' (first | split | dsimp only)
  all_goals simp
@[simp] theorem State.doUnload_keeps (s : State) (p : Pkt) : (State.doUnload s p).pending = s.pending ∧
    (State.doUnload s p).clusters = s.clusters ∧ (State.doUnload s p).start = s.start ∧ (State.doUnload s p).hist = s.hist ∧
    (State.doUnload s p).pwr = s.pwr ∧ (State.doUnload s p).fab.ports.length = s.fab.ports.length ∧
    (State.doUnload s p).hub.module = s.hub.module := by
  unfold State.doUnload
  (repeat' split) <;> simp
@[simp] theorem State.doCtlWrite_keeps (s : State) (p : Pkt) : (State.doCtlWrite s p).pending = s.pending ∧
    (State.doCtlWrite s p).start.pcl.length = s.start.pcl.length ∧ (State.doCtlWrite s p).start.flash.xidx = s.start.flash.xidx ∧
    (State.doCtlWrite s p).start.starts = s.start.starts ∧ (State.doCtlWrite s p).hub.module = s.hub.module := by
  unfold State.doCtlWrite
  repeat' (first | split | dsimp only)
  all_goals simp
@[simp] theorem State.doCtlRead_keeps (s : State) (p : Pkt) : (State.doCtlRead s p).pending = s.pending ∧ (State.doCtlRead s p).tags = s.tags ∧
    (State.doCtlRead s p).clusters = s.clusters ∧ (State.doCtlRead s p).jobs = s.jobs ∧ (State.doCtlRead s p).sol = s.sol ∧
    (State.doCtlRead s p).start = s.start ∧ (State.doCtlRead s p).hist = s.hist ∧ (State.doCtlRead s p).pwr = s.pwr ∧
    (State.doCtlRead s p).hub.module = s.hub.module := by
  unfold State.doCtlRead
  repeat' (first | split | dsimp only)
  all_goals simp
@[simp] theorem State.doDelta_keeps (s : State) (p : Pkt) : (State.doDelta s p).pending = s.pending ∧ (State.doDelta s p).tags = s.tags ∧
    (State.doDelta s p).clusters = s.clusters ∧ (State.doDelta s p).jobs = s.jobs ∧ (State.doDelta s p).start = s.start ∧
    (State.doDelta s p).hist = s.hist ∧ (State.doDelta s p).pwr = s.pwr ∧ (State.doDelta s p).fab.ports.length = s.fab.ports.length ∧
    (State.doDelta s p).hub.module = s.hub.module := by
  unfold State.doDelta
  (repeat' split) <;> simp
@[simp] theorem State.doRestore_keeps (s : State) (p : Pkt) (ev : Ev) : (State.doRestore s p ev).pending = s.pending ∧
    (State.doRestore s p ev).jobs = s.jobs ∧ (State.doRestore s p ev).sol = s.sol ∧
    (State.doRestore s p ev).clusters.length = s.clusters.length ∧ (State.doRestore s p ev).fab.ports.length = s.fab.ports.length ∧
    (State.doRestore s p ev).start.pcl.length = s.start.pcl.length ∧ (State.doRestore s p ev).start.flash.xidx = s.start.flash.xidx ∧
    (State.doRestore s p ev).start.starts = s.start.starts ∧ (State.doRestore s p ev).hub.module = s.hub.module := by
  unfold State.doRestore
  repeat' (first | split | dsimp only)
  all_goals simp
@[simp] theorem State.doContextReset_keeps (s : State) (p : Pkt) : (State.doContextReset s p).pending = s.pending ∧
    (State.doContextReset s p).jobs = s.jobs ∧ (State.doContextReset s p).pwr = s.pwr ∧
    (State.doContextReset s p).clusters.length = s.clusters.length ∧ (State.doContextReset s p).fab.ports.length = s.fab.ports.length ∧
    (State.doContextReset s p).start.pcl.length = s.start.pcl.length ∧ (State.doContextReset s p).start.flash.xidx = s.start.flash.xidx ∧
    (State.doContextReset s p).start.lc = s.start.lc ∧ (State.doContextReset s p).start.starts = s.start.starts ∧
    (State.doContextReset s p).hub.module = s.hub.module := by
  unfold State.doContextReset
  repeat' (first | split | dsimp only)
  all_goals simp
@[simp] theorem State.doRingOpen_keeps (s : State) (p : Pkt) : (State.doRingOpen s p).pending = s.pending ∧
    (State.doRingOpen s p).tags = s.tags ∧ (State.doRingOpen s p).clusters = s.clusters ∧ (State.doRingOpen s p).jobs = s.jobs ∧
    (State.doRingOpen s p).sol = s.sol ∧ (State.doRingOpen s p).start = s.start ∧ (State.doRingOpen s p).hist = s.hist ∧
    (State.doRingOpen s p).pwr = s.pwr ∧ (State.doRingOpen s p).fab.ports.length = s.fab.ports.length ∧
    (State.doRingOpen s p).hub.module = s.hub.module := by
  unfold State.doRingOpen
  repeat' (first | split | dsimp only)
  all_goals simp
@[simp] theorem State.doRingClose_keeps (s : State) (p : Pkt) : (State.doRingClose s p).pending = s.pending ∧
    (State.doRingClose s p).tags = s.tags ∧ (State.doRingClose s p).clusters = s.clusters ∧ (State.doRingClose s p).jobs = s.jobs ∧
    (State.doRingClose s p).sol = s.sol ∧ (State.doRingClose s p).start = s.start ∧ (State.doRingClose s p).hist = s.hist ∧
    (State.doRingClose s p).pwr = s.pwr ∧ (State.doRingClose s p).fab.ports.length = s.fab.ports.length ∧
    (State.doRingClose s p).hub.module = s.hub.module := by
  unfold State.doRingClose
  repeat' (first | split | dsimp only)
  all_goals simp
@[simp] theorem State.stageWhole_keeps (s : State) (pay : List Byte) : (State.stageWhole s pay).pending = s.pending ∧
    (State.stageWhole s pay).mem = s.mem ∧ (State.stageWhole s pay).tags = s.tags ∧ (State.stageWhole s pay).poison = s.poison ∧
    (State.stageWhole s pay).pages = s.pages ∧ (State.stageWhole s pay).clusters = s.clusters ∧ (State.stageWhole s pay).jobs = s.jobs ∧
    (State.stageWhole s pay).hub = s.hub ∧ (State.stageWhole s pay).fab = s.fab ∧ (State.stageWhole s pay).sol = s.sol ∧
    (State.stageWhole s pay).hist = s.hist ∧ (State.stageWhole s pay).ctr = s.ctr ∧ (State.stageWhole s pay).pwr = s.pwr ∧
    (State.stageWhole s pay).start.pcl.length = s.start.pcl.length ∧ (State.stageWhole s pay).start.flash.xidx = s.start.flash.xidx ∧
    (State.stageWhole s pay).start.lc = s.start.lc ∧ (State.stageWhole s pay).start.starts = s.start.starts := by
  simp [State.stageWhole]
@[simp] theorem State.program_keeps (s : State) (img : ImageIn) (i : Image) : (State.program s img i).pending = s.pending ∧
    (State.program s img i).mem = s.mem ∧ (State.program s img i).tags = s.tags ∧ (State.program s img i).poison = s.poison ∧
    (State.program s img i).pages = s.pages ∧ (State.program s img i).clusters = s.clusters ∧ (State.program s img i).jobs = s.jobs ∧
    (State.program s img i).hub = s.hub ∧ (State.program s img i).fab = s.fab ∧ (State.program s img i).sol = s.sol ∧
    (State.program s img i).hist = s.hist ∧ (State.program s img i).ctr = s.ctr ∧ (State.program s img i).pwr = s.pwr ∧
    (State.program s img i).start.pcl.length = s.start.pcl.length ∧ (State.program s img i).start.flash.xidx = s.start.flash.xidx ∧
    (State.program s img i).start.lc = s.start.lc ∧ (State.program s img i).start.starts = s.start.starts := by
  unfold State.program
  (repeat' split) <;> simp
@[simp] theorem State.installImage_keeps (s : State) (img : ImageIn) : ((State.installImage s img).1).pending = s.pending ∧
    ((State.installImage s img).1).mem = s.mem ∧ ((State.installImage s img).1).tags = s.tags ∧
    ((State.installImage s img).1).poison = s.poison ∧ ((State.installImage s img).1).pages = s.pages ∧
    ((State.installImage s img).1).clusters = s.clusters ∧ ((State.installImage s img).1).jobs = s.jobs ∧
    ((State.installImage s img).1).hub = s.hub ∧ ((State.installImage s img).1).fab = s.fab ∧ ((State.installImage s img).1).sol = s.sol ∧
    ((State.installImage s img).1).hist = s.hist ∧ ((State.installImage s img).1).ctr = s.ctr ∧ ((State.installImage s img).1).pwr = s.pwr ∧
    ((State.installImage s img).1).start.pcl.length = s.start.pcl.length ∧
    ((State.installImage s img).1).start.flash.xidx = s.start.flash.xidx ∧ ((State.installImage s img).1).start.lc = s.start.lc ∧
    ((State.installImage s img).1).start.starts = s.start.starts := by
  unfold State.installImage
  repeat' (first | split | dsimp only)
  all_goals simp
@[simp] theorem State.leaveMinimal_keeps (s : State) : (State.leaveMinimal s).pending = s.pending ∧
    (State.leaveMinimal s).start.pcl.length = s.start.pcl.length ∧ (State.leaveMinimal s).start.flash.xidx = s.start.flash.xidx ∧
    (State.leaveMinimal s).start.lc = s.start.lc ∧ (State.leaveMinimal s).start.starts = s.start.starts ∧
    (State.leaveMinimal s).hub.module = s.hub.module := by
  unfold State.leaveMinimal
  (repeat' split) <;> simp
@[simp] theorem State.fwSend_keeps (s : State) (pay : List Byte) : (State.fwSend s pay).pending = s.pending ∧ (State.fwSend s pay).mem = s.mem ∧
    (State.fwSend s pay).tags = s.tags ∧ (State.fwSend s pay).poison = s.poison ∧ (State.fwSend s pay).pages = s.pages ∧
    (State.fwSend s pay).clusters = s.clusters ∧ (State.fwSend s pay).jobs = s.jobs ∧ (State.fwSend s pay).hub = s.hub ∧
    (State.fwSend s pay).sol = s.sol ∧ (State.fwSend s pay).start = s.start ∧ (State.fwSend s pay).hist = s.hist ∧
    (State.fwSend s pay).pwr = s.pwr ∧ (State.fwSend s pay).fab.ports.length = s.fab.ports.length := by
  unfold State.fwSend
  (repeat' split) <;> simp
@[simp] theorem State.doFwImage_keeps (s : State) (p : Pkt) (img : ImageIn) : (State.doFwImage s p img).pending = s.pending ∧
    (State.doFwImage s p img).start.pcl.length = s.start.pcl.length ∧ (State.doFwImage s p img).start.flash.xidx = s.start.flash.xidx ∧
    (State.doFwImage s p img).start.lc = s.start.lc ∧ (State.doFwImage s p img).start.starts = s.start.starts ∧
    (State.doFwImage s p img).hub.module = s.hub.module := by
  unfold State.doFwImage
  repeat' (first | split | dsimp only)
  all_goals simp

/-! ## Tasks -/

@[simp] theorem State.writeRec_keeps (s : State) (j : Job) : (State.writeRec s j).pending = s.pending ∧ (State.writeRec s j).tags = s.tags ∧
    (State.writeRec s j).clusters = s.clusters ∧ (State.writeRec s j).jobs = s.jobs ∧ (State.writeRec s j).hub = s.hub ∧
    (State.writeRec s j).fab = s.fab ∧ (State.writeRec s j).sol = s.sol ∧ (State.writeRec s j).start = s.start ∧
    (State.writeRec s j).hist = s.hist ∧ (State.writeRec s j).ctr = s.ctr ∧ (State.writeRec s j).pwr = s.pwr := by
  unfold State.writeRec
  (repeat' split) <;> simp
@[simp] theorem State.updRec_keeps (s : State) (j : Job) (f : StepRec → StepRec) : (State.updRec s j f).pending = s.pending ∧
    (State.updRec s j f).tags = s.tags ∧ (State.updRec s j f).clusters = s.clusters ∧ (State.updRec s j f).jobs = s.jobs ∧
    (State.updRec s j f).fab = s.fab ∧ (State.updRec s j f).sol = s.sol ∧ (State.updRec s j f).start = s.start ∧
    (State.updRec s j f).hist = s.hist ∧ (State.updRec s j f).ctr = s.ctr ∧ (State.updRec s j f).pwr = s.pwr ∧
    (State.updRec s j f).hub.module = s.hub.module := by
  unfold State.updRec
  (repeat' split) <;> simp
@[simp] theorem State.startTask_keeps (s : State) (p : Pkt) (j : Job) (d : TaskDesc) (t : Task) (lender : Option Nat) :
    (State.startTask s p j d t lender).pending = s.pending ∧
    (State.startTask s p j d t lender).jobs = s.jobs ∧ (State.startTask s p j d t lender).start = s.start ∧
    (State.startTask s p j d t lender).hist = s.hist ∧ (State.startTask s p j d t lender).pwr = s.pwr ∧
    (State.startTask s p j d t lender).clusters.length = s.clusters.length ∧
    (State.startTask s p j d t lender).fab.ports.length = s.fab.ports.length ∧
    (State.startTask s p j d t lender).hub.module = s.hub.module := by
  unfold State.startTask
  (repeat' split) <;> simp
@[simp] theorem State.doRun_keeps (s : State) (p : Pkt) : (State.doRun s p).pending = s.pending ∧ (State.doRun s p).jobs = s.jobs ∧
    (State.doRun s p).start = s.start ∧ (State.doRun s p).hist = s.hist ∧ (State.doRun s p).pwr = s.pwr ∧
    (State.doRun s p).clusters.length = s.clusters.length ∧ (State.doRun s p).fab.ports.length = s.fab.ports.length ∧
    (State.doRun s p).hub.module = s.hub.module := by
  unfold State.doRun
  repeat' (first | split | dsimp only)
  all_goals simp
@[simp] theorem State.doSuspend_keeps (s : State) (p : Pkt) : (State.doSuspend s p).pending = s.pending ∧ (State.doSuspend s p).tags = s.tags ∧
    (State.doSuspend s p).jobs = s.jobs ∧ (State.doSuspend s p).sol = s.sol ∧ (State.doSuspend s p).start = s.start ∧
    (State.doSuspend s p).hist = s.hist ∧ (State.doSuspend s p).pwr = s.pwr ∧ (State.doSuspend s p).clusters.length = s.clusters.length ∧
    (State.doSuspend s p).fab.ports.length = s.fab.ports.length ∧ (State.doSuspend s p).hub.module = s.hub.module := by
  unfold State.doSuspend
  (repeat' split) <;> simp
@[simp] theorem State.restoreCluster_keeps (s : State) (k : TaskKey) (x : Saved) : (State.restoreCluster s k x).pending = s.pending ∧
    (State.restoreCluster s k x).pages = s.pages ∧ (State.restoreCluster s k x).jobs = s.jobs ∧ (State.restoreCluster s k x).hub = s.hub ∧
    (State.restoreCluster s k x).fab = s.fab ∧ (State.restoreCluster s k x).sol = s.sol ∧ (State.restoreCluster s k x).start = s.start ∧
    (State.restoreCluster s k x).hist = s.hist ∧ (State.restoreCluster s k x).ctr = s.ctr ∧ (State.restoreCluster s k x).pwr = s.pwr ∧
    (State.restoreCluster s k x).clusters.length = s.clusters.length := by
  unfold State.restoreCluster
  repeat' (first | split | dsimp only)
  all_goals simp
@[simp] theorem State.doResume_keeps (s : State) (p : Pkt) : (State.doResume s p).pending = s.pending ∧ (State.doResume s p).jobs = s.jobs ∧
    (State.doResume s p).sol = s.sol ∧ (State.doResume s p).start = s.start ∧ (State.doResume s p).hist = s.hist ∧
    (State.doResume s p).pwr = s.pwr ∧ (State.doResume s p).clusters.length = s.clusters.length ∧
    (State.doResume s p).fab.ports.length = s.fab.ports.length ∧ (State.doResume s p).hub.module = s.hub.module := by
  unfold State.doResume
  (repeat' split) <;> simp

/-! ## LoadPlace -/

@[simp] theorem State.landJob_keeps (s : State) (b : Back) (cs : List Cassette) (items : List (Nat × List Byte)) :
    (State.landJob s b cs items).pending = s.pending ∧
    (State.landJob s b cs items).clusters = s.clusters ∧ (State.landJob s b cs items).jobs = s.jobs ∧ (State.landJob s b cs items).hub = s.hub ∧
    (State.landJob s b cs items).fab = s.fab ∧ (State.landJob s b cs items).sol = s.sol ∧ (State.landJob s b cs items).start = s.start ∧
    (State.landJob s b cs items).hist = s.hist ∧ (State.landJob s b cs items).ctr = s.ctr ∧ (State.landJob s b cs items).pwr = s.pwr := by
  simp [State.landJob]
theorem Ld.bind_ok {α β : Type} {x : Ld α} {f : α → Ld β} {r : β} (h : (x >>= f) = .ok r) : ∃ a, x = .ok a ∧ f a = .ok r := by
  cases x with
  | error e => cases h
  | ok a => exact ⟨a, rfl, h⟩
theorem State.placeJob_keeps {s : State} {p : Pkg} {cs : List Cassette} {r : State × Back} (h : s.placeJob p cs = .ok r) : r.1.pending = s.pending ∧
    r.1.clusters = s.clusters ∧ r.1.jobs = s.jobs ∧ r.1.hub = s.hub ∧ r.1.fab = s.fab ∧ r.1.sol = s.sol ∧ r.1.start = s.start ∧
    r.1.hist = s.hist ∧ r.1.ctr = s.ctr ∧ r.1.pwr = s.pwr := by
  unfold State.placeJob at h
  obtain ⟨_, -, h⟩ := Ld.bind_ok h
  obtain ⟨b, -, h⟩ := Ld.bind_ok h
  obtain ⟨_, -, h⟩ := Ld.bind_ok h
  cases h
  simp

/-! ## Loading -/

@[simp] theorem State.writeLs_keeps (s : State) (j : Job) (e : ℤ) : (State.writeLs s j e).pending = s.pending ∧
    (State.writeLs s j e).pages = s.pages ∧ (State.writeLs s j e).clusters = s.clusters ∧ (State.writeLs s j e).jobs = s.jobs ∧
    (State.writeLs s j e).hub = s.hub ∧ (State.writeLs s j e).fab = s.fab ∧ (State.writeLs s j e).sol = s.sol ∧
    (State.writeLs s j e).start = s.start ∧ (State.writeLs s j e).hist = s.hist ∧ (State.writeLs s j e).ctr = s.ctr ∧
    (State.writeLs s j e).pwr = s.pwr := by
  unfold State.writeLs
  (repeat' split) <;> simp
@[simp] theorem State.initJob_keeps (s : State) (j : Job) : (State.initJob s j).pending = s.pending ∧
    (State.initJob s j).clusters = s.clusters ∧ (State.initJob s j).fab = s.fab ∧ (State.initJob s j).start = s.start ∧
    (State.initJob s j).hist = s.hist ∧ (State.initJob s j).ctr = s.ctr ∧ (State.initJob s j).pwr = s.pwr ∧
    (State.initJob s j).hub.module = s.hub.module := by
  unfold State.initJob
  repeat' (first | split | dsimp only)
  all_goals simp
theorem State.load_keeps {s : State} {ctx handle : Nat} {pay : List Byte} {r : State × Job × Back} (h : s.load ctx handle pay = .ok r) :
    r.1.pending = s.pending ∧
    r.1.clusters = s.clusters ∧ r.1.fab = s.fab ∧ r.1.start = s.start ∧ r.1.hist = s.hist ∧ r.1.ctr = s.ctr ∧ r.1.pwr = s.pwr ∧
    r.1.hub.module = s.hub.module := by
  unfold State.load at h
  obtain ⟨p, -, h⟩ := Ld.bind_ok h
  obtain ⟨b, hb, h⟩ := Ld.bind_ok h
  obtain ⟨j, -, h⟩ := Ld.bind_ok h
  dsimp only at h
  obtain ⟨_, -, h⟩ := Ld.bind_ok h
  obtain ⟨j2, -, h⟩ := Ld.bind_ok h
  obtain ⟨_, -, h⟩ := Ld.bind_ok h
  obtain ⟨g, -, h⟩ := Ld.bind_ok h
  have hp := State.placeJob_keeps hb
  cases h
  simp [hp]
@[simp] theorem State.doLoad_keeps (s : State) (p : Pkt) : (State.doLoad s p).pending = s.pending ∧ (State.doLoad s p).start = s.start ∧
    (State.doLoad s p).hist = s.hist ∧ (State.doLoad s p).pwr = s.pwr ∧ (State.doLoad s p).clusters.length = s.clusters.length ∧
    (State.doLoad s p).fab.ports.length = s.fab.ports.length ∧ (State.doLoad s p).hub.module = s.hub.module := by
  unfold State.doLoad
  repeat' (first | split | dsimp only)
  all_goals (try have hl := State.load_keeps ‹_›)
  all_goals (try simp only at hl)
  all_goals (first | simp [hl] | simp)

/-! ## Attestation -/

@[simp] theorem State.attPop_keeps (s : State) : (State.attPop s).pending = s.pending ∧ (State.attPop s).mem = s.mem ∧
    (State.attPop s).tags = s.tags ∧ (State.attPop s).poison = s.poison ∧ (State.attPop s).pages = s.pages ∧
    (State.attPop s).clusters = s.clusters ∧ (State.attPop s).jobs = s.jobs ∧ (State.attPop s).fab = s.fab ∧ (State.attPop s).sol = s.sol ∧
    (State.attPop s).start = s.start ∧ (State.attPop s).hist = s.hist ∧ (State.attPop s).ctr = s.ctr ∧ (State.attPop s).pwr = s.pwr ∧
    (State.attPop s).hub.module = s.hub.module := by simp [State.attPop]
@[simp] theorem State.attAnswer_keeps (s : State) (q : List Byte) (n : Nat) (f : Bool) : (s.attAnswer q n f).s.pending = s.pending ∧
    (s.attAnswer q n f).s.mem = s.mem ∧ (s.attAnswer q n f).s.tags = s.tags ∧ (s.attAnswer q n f).s.poison = s.poison ∧
    (s.attAnswer q n f).s.pages = s.pages ∧ (s.attAnswer q n f).s.clusters = s.clusters ∧ (s.attAnswer q n f).s.jobs = s.jobs ∧
    (s.attAnswer q n f).s.fab = s.fab ∧ (s.attAnswer q n f).s.sol = s.sol ∧ (s.attAnswer q n f).s.hist = s.hist ∧
    (s.attAnswer q n f).s.ctr = s.ctr ∧ (s.attAnswer q n f).s.pwr = s.pwr ∧ (s.attAnswer q n f).s.start.pcl = s.start.pcl ∧
    (s.attAnswer q n f).s.start.starts = s.start.starts ∧ (s.attAnswer q n f).s.start.lc = s.start.lc ∧
    (s.attAnswer q n f).s.hub.module = s.hub.module ∧ (s.attAnswer q n f).s.hub.tasks = s.hub.tasks := by
  unfold State.attAnswer State.attSign
  dsimp only
  (repeat' split) <;> simp
@[simp] theorem State.attServe_keeps (s : State) (doe : Bool) (code : Nat) (req : List Byte) (secs : Nat) (flashOk : Bool) :
    (State.attServe s doe code req secs flashOk).pending = s.pending ∧
    (State.attServe s doe code req secs flashOk).mem = s.mem ∧ (State.attServe s doe code req secs flashOk).tags = s.tags ∧
    (State.attServe s doe code req secs flashOk).poison = s.poison ∧ (State.attServe s doe code req secs flashOk).pages = s.pages ∧
    (State.attServe s doe code req secs flashOk).clusters = s.clusters ∧ (State.attServe s doe code req secs flashOk).jobs = s.jobs ∧
    (State.attServe s doe code req secs flashOk).fab = s.fab ∧ (State.attServe s doe code req secs flashOk).sol = s.sol ∧
    (State.attServe s doe code req secs flashOk).hist = s.hist ∧ (State.attServe s doe code req secs flashOk).ctr = s.ctr ∧
    (State.attServe s doe code req secs flashOk).pwr = s.pwr ∧
    (State.attServe s doe code req secs flashOk).start.pcl.length = s.start.pcl.length ∧
    (State.attServe s doe code req secs flashOk).start.lc = s.start.lc ∧
    (State.attServe s doe code req secs flashOk).start.starts = s.start.starts ∧
    (State.attServe s doe code req secs flashOk).hub.module = s.hub.module := by
  unfold State.attServe
  repeat' (first | split | dsimp only)
  all_goals simp [AttAns.intoDoe, AttAns.intoMail]
@[simp] theorem State.doAttest_keeps (s : State) (p : Pkt) (secs : Nat) (flashOk : Bool) : (State.doAttest s p secs flashOk).pending = s.pending ∧
    (State.doAttest s p secs flashOk).jobs = s.jobs ∧ (State.doAttest s p secs flashOk).sol = s.sol ∧
    (State.doAttest s p secs flashOk).hist = s.hist ∧ (State.doAttest s p secs flashOk).pwr = s.pwr ∧
    (State.doAttest s p secs flashOk).clusters.length = s.clusters.length ∧
    (State.doAttest s p secs flashOk).fab.ports.length = s.fab.ports.length ∧
    (State.doAttest s p secs flashOk).start.pcl.length = s.start.pcl.length ∧ (State.doAttest s p secs flashOk).start.lc = s.start.lc ∧
    (State.doAttest s p secs flashOk).start.starts = s.start.starts ∧ (State.doAttest s p secs flashOk).hub.module = s.hub.module := by
  unfold State.doAttest
  dsimp only
  (repeat' split) <;> simp

/-! ## Boundaries -/

@[simp] theorem State.moveTo_keeps (s : State) (l : Nat) (p : Nat) (q : Nat) (full : Bool) (tune : Bool) :
    (State.moveTo s l p q full tune).pending = s.pending ∧
    (State.moveTo s l p q full tune).pages = s.pages ∧ (State.moveTo s l p q full tune).jobs = s.jobs ∧
    (State.moveTo s l p q full tune).hub = s.hub ∧ (State.moveTo s l p q full tune).fab = s.fab ∧ (State.moveTo s l p q full tune).sol = s.sol ∧
    (State.moveTo s l p q full tune).ctr = s.ctr ∧ (State.moveTo s l p q full tune).pwr = s.pwr ∧
    (State.moveTo s l p q full tune).clusters.length = s.clusters.length ∧
    (State.moveTo s l p q full tune).start.pcl.length = s.start.pcl.length ∧
    (State.moveTo s l p q full tune).start.flash.xidx = s.start.flash.xidx ∧ (State.moveTo s l p q full tune).start.lc = s.start.lc ∧
    (State.moveTo s l p q full tune).start.starts = s.start.starts := by
  unfold State.moveTo
  (repeat' split) <;> simp
@[simp] theorem State.migrate_keeps (s : State) (l : Nat) : (State.migrate s l).pending = s.pending ∧ (State.migrate s l).pages = s.pages ∧
    (State.migrate s l).jobs = s.jobs ∧ (State.migrate s l).hub = s.hub ∧ (State.migrate s l).fab = s.fab ∧ (State.migrate s l).sol = s.sol ∧
    (State.migrate s l).ctr = s.ctr ∧ (State.migrate s l).clusters.length = s.clusters.length ∧
    (State.migrate s l).start.pcl.length = s.start.pcl.length ∧ (State.migrate s l).start.flash.xidx = s.start.flash.xidx ∧
    (State.migrate s l).start.starts = s.start.starts := by
  unfold State.migrate
  repeat' (first | split | dsimp only)
  all_goals simp
@[simp] theorem State.allSaved_keeps (s : State) (k : TaskKey) : (State.allSaved s k).pending = s.pending ∧ (State.allSaved s k).tags = s.tags ∧
    (State.allSaved s k).clusters = s.clusters ∧ (State.allSaved s k).jobs = s.jobs ∧ (State.allSaved s k).sol = s.sol ∧
    (State.allSaved s k).start = s.start ∧ (State.allSaved s k).hist = s.hist ∧ (State.allSaved s k).pwr = s.pwr ∧
    (State.allSaved s k).fab.ports.length = s.fab.ports.length ∧ (State.allSaved s k).hub.module = s.hub.module := by
  unfold State.allSaved
  (repeat' split) <;> simp
@[simp] theorem State.saveState_keeps (s : State) (k : TaskKey) (l : Nat) : (State.saveState s k l).pending = s.pending ∧
    (State.saveState s k l).pages = s.pages ∧ (State.saveState s k l).clusters = s.clusters ∧ (State.saveState s k l).jobs = s.jobs ∧
    (State.saveState s k l).hub = s.hub ∧ (State.saveState s k l).fab = s.fab ∧ (State.saveState s k l).sol = s.sol ∧
    (State.saveState s k l).start = s.start ∧ (State.saveState s k l).hist = s.hist ∧ (State.saveState s k l).ctr = s.ctr ∧
    (State.saveState s k l).pwr = s.pwr := by
  unfold State.saveState
  repeat' (first | split | dsimp only)
  all_goals simp
@[simp] theorem State.saveCluster_keeps (s : State) (l : Nat) : (State.saveCluster s l).pending = s.pending ∧
    (State.saveCluster s l).jobs = s.jobs ∧ (State.saveCluster s l).sol = s.sol ∧ (State.saveCluster s l).start = s.start ∧
    (State.saveCluster s l).hist = s.hist ∧ (State.saveCluster s l).pwr = s.pwr ∧ (State.saveCluster s l).clusters.length = s.clusters.length ∧
    (State.saveCluster s l).fab.ports.length = s.fab.ports.length ∧ (State.saveCluster s l).hub.module = s.hub.module := by
  unfold State.saveCluster
  repeat' (first | split | dsimp only)
  all_goals simp

/-! ## Bus -/

@[simp] theorem State.blockRead_keeps (s : State) (w : Word) : (State.blockRead s w).pending = s.pending ∧ (State.blockRead s w).mem = s.mem ∧
    (State.blockRead s w).tags = s.tags ∧ (State.blockRead s w).poison = s.poison ∧ (State.blockRead s w).pages = s.pages ∧
    (State.blockRead s w).clusters = s.clusters ∧ (State.blockRead s w).jobs = s.jobs ∧ (State.blockRead s w).fab = s.fab ∧
    (State.blockRead s w).sol = s.sol ∧ (State.blockRead s w).start = s.start ∧ (State.blockRead s w).hist = s.hist ∧
    (State.blockRead s w).ctr = s.ctr ∧ (State.blockRead s w).pwr = s.pwr ∧ (State.blockRead s w).hub.module = s.hub.module := by
  unfold State.blockRead
  (repeat' split) <;> simp

/-! ## Commits -/

@[simp] theorem State.barWrite_keeps (s : State) (off : Nat) (bytes : Nat) (value : Word) : (State.barWrite s off bytes value).pending = s.pending ∧
    (State.barWrite s off bytes value).start.pcl.length = s.start.pcl.length ∧
    (State.barWrite s off bytes value).start.flash.xidx = s.start.flash.xidx ∧
    (State.barWrite s off bytes value).start.starts = s.start.starts ∧ (State.barWrite s off bytes value).hub.module = s.hub.module := by
  unfold State.barWrite
  (repeat' split) <;> simp

/-! ## HostLink -/

@[simp] theorem State.ringBell_keeps (s : State) (n : Nat) (v : Word) (enables : Nat) (poison : Bool) :
    (State.ringBell s n v enables poison).pending = s.pending ∧
    (State.ringBell s n v enables poison).tags = s.tags ∧ (State.ringBell s n v enables poison).clusters = s.clusters ∧
    (State.ringBell s n v enables poison).jobs = s.jobs ∧ (State.ringBell s n v enables poison).fab = s.fab ∧
    (State.ringBell s n v enables poison).sol = s.sol ∧ (State.ringBell s n v enables poison).start = s.start ∧
    (State.ringBell s n v enables poison).hist = s.hist ∧ (State.ringBell s n v enables poison).pwr = s.pwr ∧
    (State.ringBell s n v enables poison).hub.module = s.hub.module := by
  unfold State.ringBell
  repeat' (first | split | dsimp only)
  all_goals simp
@[simp] theorem State.take_keeps (s : State) (n : Nat) : (State.take s n).pending = s.pending ∧ (State.take s n).tags = s.tags ∧
    (State.take s n).clusters = s.clusters ∧ (State.take s n).jobs = s.jobs ∧ (State.take s n).sol = s.sol ∧ (State.take s n).start = s.start ∧
    (State.take s n).hist = s.hist ∧ (State.take s n).pwr = s.pwr ∧ (State.take s n).fab.ports.length = s.fab.ports.length ∧
    (State.take s n).hub.module = s.hub.module := by
  unfold State.take
  repeat' (first | split | dsimp only)
  all_goals simp
@[simp] theorem State.hubOver_keeps (s : State) : (State.hubOver s).pending = s.pending ∧ (State.hubOver s).mem = s.mem ∧
    (State.hubOver s).tags = s.tags ∧ (State.hubOver s).poison = s.poison ∧ (State.hubOver s).pages = s.pages ∧
    (State.hubOver s).clusters = s.clusters ∧ (State.hubOver s).jobs = s.jobs ∧ (State.hubOver s).hub = s.hub ∧ (State.hubOver s).fab = s.fab ∧
    (State.hubOver s).sol = s.sol ∧ (State.hubOver s).start = s.start ∧ (State.hubOver s).hist = s.hist ∧ (State.hubOver s).pwr = s.pwr := by
  simp [State.hubOver]
@[simp] theorem State.hostWrite_keeps (s : State) (o : Nat) (bytes : List Byte) (enables : List Bool) (poison : Bool) :
    (State.hostWrite s o bytes enables poison).pending = s.pending ∧
    (State.hostWrite s o bytes enables poison).jobs = s.jobs ∧ (State.hostWrite s o bytes enables poison).sol = s.sol ∧
    (State.hostWrite s o bytes enables poison).start = s.start ∧ (State.hostWrite s o bytes enables poison).hist = s.hist ∧
    (State.hostWrite s o bytes enables poison).pwr = s.pwr ∧ (State.hostWrite s o bytes enables poison).clusters.length = s.clusters.length ∧
    (State.hostWrite s o bytes enables poison).fab.ports.length = s.fab.ports.length ∧
    (State.hostWrite s o bytes enables poison).hub.module = s.hub.module := by
  unfold State.hostWrite
  repeat' (first | split | dsimp only)
  all_goals (repeat' apply And.intro)
  all_goals (try simp; done)
  all_goals ((first | apply foldl_pending | apply foldl_jobs | apply foldl_sol | apply foldl_start | apply foldl_hist | apply foldl_pwr | apply foldl_clusters_length | apply foldl_ports_length | apply foldl_module) <;> (intros; (repeat' (first | split | dsimp only)) <;> simp))

end Sys2Proof.Machine
end

