-- ==== Sys2Proof/Laws/Fabric.lean ====
section
/-!
SUPPORT. One lemma for each operation, which says every part of the state that it keeps. Here: the fabric and the topology.
-/

namespace Sys2Proof.Machine

/-! ## FabricOps -/

@[simp] theorem State.rxPort_keeps (s : State) (p : Nat) (m : Msg) : (State.rxPort s p m).pending = s.pending ∧
    (State.rxPort s p m).mem = s.mem ∧ (State.rxPort s p m).tags = s.tags ∧ (State.rxPort s p m).poison = s.poison ∧
    (State.rxPort s p m).pages = s.pages ∧ (State.rxPort s p m).clusters = s.clusters ∧ (State.rxPort s p m).jobs = s.jobs ∧
    (State.rxPort s p m).hub = s.hub ∧ (State.rxPort s p m).sol = s.sol ∧ (State.rxPort s p m).start = s.start ∧
    (State.rxPort s p m).hist = s.hist ∧ (State.rxPort s p m).pwr = s.pwr ∧ (State.rxPort s p m).fab.ports.length = s.fab.ports.length := by
  simp [State.rxPort]
@[simp] theorem State.forward_keeps (s : State) (p : Nat) (m : Msg) : (State.forward s p m).pending = s.pending ∧
    (State.forward s p m).mem = s.mem ∧ (State.forward s p m).tags = s.tags ∧ (State.forward s p m).poison = s.poison ∧
    (State.forward s p m).pages = s.pages ∧ (State.forward s p m).clusters = s.clusters ∧ (State.forward s p m).jobs = s.jobs ∧
    (State.forward s p m).hub = s.hub ∧ (State.forward s p m).sol = s.sol ∧ (State.forward s p m).start = s.start ∧
    (State.forward s p m).hist = s.hist ∧ (State.forward s p m).pwr = s.pwr ∧
    (State.forward s p m).fab.ports.length = s.fab.ports.length := by
  unfold State.forward
  (repeat' split) <;> simp
@[simp] theorem State.received_keeps (s : State) (rx : Rx) (b : Body) : (State.received s rx b).pending = s.pending ∧
    (State.received s rx b).mem = s.mem ∧ (State.received s rx b).tags = s.tags ∧ (State.received s rx b).poison = s.poison ∧
    (State.received s rx b).pages = s.pages ∧ (State.received s rx b).clusters = s.clusters ∧ (State.received s rx b).jobs = s.jobs ∧
    (State.received s rx b).hub = s.hub ∧ (State.received s rx b).sol = s.sol ∧ (State.received s rx b).start = s.start ∧
    (State.received s rx b).hist = s.hist ∧ (State.received s rx b).pwr = s.pwr ∧
    (State.received s rx b).fab.ports.length = s.fab.ports.length := by
  unfold State.received
  (repeat' split) <;> simp
@[simp] theorem State.answer_keeps (s : State) (rx : Rx) (b : Body) : (State.answer s rx b).pending = s.pending ∧
    (State.answer s rx b).mem = s.mem ∧ (State.answer s rx b).tags = s.tags ∧ (State.answer s rx b).poison = s.poison ∧
    (State.answer s rx b).pages = s.pages ∧ (State.answer s rx b).clusters = s.clusters ∧ (State.answer s rx b).jobs = s.jobs ∧
    (State.answer s rx b).hub = s.hub ∧ (State.answer s rx b).sol = s.sol ∧ (State.answer s rx b).start = s.start ∧
    (State.answer s rx b).hist = s.hist ∧ (State.answer s rx b).pwr = s.pwr ∧
    (State.answer s rx b).fab.ports.length = s.fab.ports.length := by
  simp [State.answer]
@[simp] theorem State.fabWrite_keeps (s : State) (rx : Rx) (addr : Nat) (bytes : List Byte) : (State.fabWrite s rx addr bytes).pending = s.pending ∧
    (State.fabWrite s rx addr bytes).jobs = s.jobs ∧ (State.fabWrite s rx addr bytes).sol = s.sol ∧
    (State.fabWrite s rx addr bytes).start = s.start ∧ (State.fabWrite s rx addr bytes).hist = s.hist ∧
    (State.fabWrite s rx addr bytes).pwr = s.pwr ∧ (State.fabWrite s rx addr bytes).clusters.length = s.clusters.length ∧
    (State.fabWrite s rx addr bytes).fab.ports.length = s.fab.ports.length ∧ (State.fabWrite s rx addr bytes).hub.module = s.hub.module := by
  unfold State.fabWrite
  (repeat' split) <;> simp
@[simp] theorem State.tookFrom_keeps (s : State) (t : State) (p : Nat) (rx : Rx) (b : Body) : (State.tookFrom s t p rx b).pending = s.pending ∧
    (State.tookFrom s t p rx b).mem = s.mem ∧ (State.tookFrom s t p rx b).tags = s.tags ∧ (State.tookFrom s t p rx b).poison = s.poison ∧
    (State.tookFrom s t p rx b).pages = s.pages ∧ (State.tookFrom s t p rx b).clusters = s.clusters ∧
    (State.tookFrom s t p rx b).jobs = s.jobs ∧ (State.tookFrom s t p rx b).hub = s.hub ∧ (State.tookFrom s t p rx b).sol = s.sol ∧
    (State.tookFrom s t p rx b).start = s.start ∧ (State.tookFrom s t p rx b).hist = s.hist ∧ (State.tookFrom s t p rx b).pwr = s.pwr ∧
    (State.tookFrom s t p rx b).fab.ports.length = s.fab.ports.length := by
  unfold State.tookFrom
  (repeat' split) <;> simp
@[simp] theorem State.fabRead_keeps (s : State) (rx : Rx) (addr : Nat) (n : Nat) (ev : Ev) : (State.fabRead s rx addr n ev).pending = s.pending ∧
    (State.fabRead s rx addr n ev).jobs = s.jobs ∧ (State.fabRead s rx addr n ev).hub = s.hub ∧ (State.fabRead s rx addr n ev).sol = s.sol ∧
    (State.fabRead s rx addr n ev).clusters.length = s.clusters.length ∧ (State.fabRead s rx addr n ev).fab.ports.length = s.fab.ports.length ∧
    (State.fabRead s rx addr n ev).start.pcl.length = s.start.pcl.length ∧
    (State.fabRead s rx addr n ev).start.flash.xidx = s.start.flash.xidx ∧ (State.fabRead s rx addr n ev).start.starts = s.start.starts := by
  unfold State.fabRead
  repeat' (first | split | dsimp only)
  all_goals simp
@[simp] theorem State.setDrlOf_keeps (s : State) (k : TaskKey) (l : Nat) (d : Drl) : (State.setDrlOf s k l d).pending = s.pending ∧
    (State.setDrlOf s k l d).tags = s.tags ∧ (State.setDrlOf s k l d).pages = s.pages ∧ (State.setDrlOf s k l d).jobs = s.jobs ∧
    (State.setDrlOf s k l d).fab = s.fab ∧ (State.setDrlOf s k l d).sol = s.sol ∧ (State.setDrlOf s k l d).start = s.start ∧
    (State.setDrlOf s k l d).hist = s.hist ∧ (State.setDrlOf s k l d).ctr = s.ctr ∧ (State.setDrlOf s k l d).pwr = s.pwr ∧
    (State.setDrlOf s k l d).clusters.length = s.clusters.length ∧ (State.setDrlOf s k l d).hub.module = s.hub.module := by
  unfold State.setDrlOf
  (repeat' split) <;> simp
@[simp] theorem State.takeSignal_keeps (s : State) (rx : Rx) (l : Nat) (ctr : Nat) (gen : Bool) (inc : Nat) :
    (State.takeSignal s rx l ctr gen inc).pending = s.pending ∧
    (State.takeSignal s rx l ctr gen inc).jobs = s.jobs ∧ (State.takeSignal s rx l ctr gen inc).pwr = s.pwr ∧
    (State.takeSignal s rx l ctr gen inc).clusters.length = s.clusters.length ∧
    (State.takeSignal s rx l ctr gen inc).fab.ports.length = s.fab.ports.length ∧
    (State.takeSignal s rx l ctr gen inc).start.pcl.length = s.start.pcl.length ∧
    (State.takeSignal s rx l ctr gen inc).start.flash.xidx = s.start.flash.xidx ∧ (State.takeSignal s rx l ctr gen inc).start.lc = s.start.lc ∧
    (State.takeSignal s rx l ctr gen inc).start.starts = s.start.starts ∧
    (State.takeSignal s rx l ctr gen inc).hub.module = s.hub.module := by
  unfold State.takeSignal
  (repeat' split) <;> simp
theorem keeps_ite {c : Prop} [Decidable c] {K : State → Prop} {a b : State} (ha : K a) (hb : K b) : K (if c then a else b) := by
  split <;> assumption
@[simp] theorem State.runPacket_keeps (s : State) (p : Pkt) (f : PktFind) : (State.runPacket s p f).pending = s.pending ∧
    (State.runPacket s p f).start.pcl.length = s.start.pcl.length ∧ (State.runPacket s p f).start.starts = s.start.starts ∧
    (State.runPacket s p f).hub.module = s.hub.module := by
  let K (t : State) : Prop := t.pending = s.pending ∧ t.start.pcl.length = s.start.pcl.length ∧ t.start.starts = s.start.starts ∧
      t.hub.module = s.hub.module
  show K (State.runPacket s p f)
  unfold State.runPacket
  refine keeps_ite (K := K) ?_ (keeps_ite (K := K) ?_ (keeps_ite (K := K) ?_ (keeps_ite (K := K) ?_ (keeps_ite (K := K) ?_ (keeps_ite (K := K) ?_ (keeps_ite (K := K) ?_ (keeps_ite (K := K) ?_ (keeps_ite (K := K) ?_ (keeps_ite (K := K) ?_ (keeps_ite (K := K) ?_ (keeps_ite (K := K) ?_ (keeps_ite (K := K) ?_ (keeps_ite (K := K) ?_ (keeps_ite (K := K) ?_ (keeps_ite (K := K) ?_ (keeps_ite (K := K) ?_ ?_))))))))))))))))
  all_goals simp [K]
@[simp] theorem State.takeForward_keeps (s : State) (rx : Rx) (pid : Nat) (words : List Word) (pay : List Byte) (f : PktFind) :
    (State.takeForward s rx pid words pay f).pending = s.pending ∧
    (State.takeForward s rx pid words pay f).start.pcl.length = s.start.pcl.length ∧
    (State.takeForward s rx pid words pay f).start.starts = s.start.starts ∧
    (State.takeForward s rx pid words pay f).hub.module = s.hub.module := by
  unfold State.takeForward
  repeat' (first | split | dsimp only)
  all_goals simp
@[simp] theorem State.endForward_keeps (s : State) (f : Fwd) (e : PktEnd) : (State.endForward s f e).pending = s.pending ∧
    (State.endForward s f e).tags = s.tags ∧ (State.endForward s f e).clusters = s.clusters ∧ (State.endForward s f e).jobs = s.jobs ∧
    (State.endForward s f e).sol = s.sol ∧ (State.endForward s f e).start = s.start ∧ (State.endForward s f e).hist = s.hist ∧
    (State.endForward s f e).pwr = s.pwr ∧ (State.endForward s f e).fab.ports.length = s.fab.ports.length ∧
    (State.endForward s f e).hub.module = s.hub.module := by
  unfold State.endForward
  (repeat' split) <;> simp
@[simp] theorem State.packetAck_keeps (s : State) (pid : Nat) : (State.packetAck s pid).pending = s.pending ∧
    (State.packetAck s pid).tags = s.tags ∧ (State.packetAck s pid).clusters = s.clusters ∧ (State.packetAck s pid).jobs = s.jobs ∧
    (State.packetAck s pid).sol = s.sol ∧ (State.packetAck s pid).start = s.start ∧ (State.packetAck s pid).hist = s.hist ∧
    (State.packetAck s pid).pwr = s.pwr ∧ (State.packetAck s pid).fab.ports.length = s.fab.ports.length ∧
    (State.packetAck s pid).hub.module = s.hub.module := by
  unfold State.packetAck
  (repeat' split) <;> simp
@[simp] theorem State.dropReq_keeps (s : State) (tag : Nat) : (State.dropReq s tag).pending = s.pending ∧ (State.dropReq s tag).mem = s.mem ∧
    (State.dropReq s tag).tags = s.tags ∧ (State.dropReq s tag).poison = s.poison ∧ (State.dropReq s tag).pages = s.pages ∧
    (State.dropReq s tag).clusters = s.clusters ∧ (State.dropReq s tag).jobs = s.jobs ∧ (State.dropReq s tag).sol = s.sol ∧
    (State.dropReq s tag).start = s.start ∧ (State.dropReq s tag).hist = s.hist ∧ (State.dropReq s tag).pwr = s.pwr ∧
    (State.dropReq s tag).fab.ports.length = s.fab.ports.length ∧ (State.dropReq s tag).hub.module = s.hub.module := by
  simp [State.dropReq]
@[simp] theorem State.endReq_keeps (s : State) (rx : Rx) (bytes : Nat) : (State.endReq s rx bytes).pending = s.pending ∧
    (State.endReq s rx bytes).mem = s.mem ∧ (State.endReq s rx bytes).tags = s.tags ∧ (State.endReq s rx bytes).poison = s.poison ∧
    (State.endReq s rx bytes).pages = s.pages ∧ (State.endReq s rx bytes).jobs = s.jobs ∧ (State.endReq s rx bytes).hub = s.hub ∧
    (State.endReq s rx bytes).fab = s.fab ∧ (State.endReq s rx bytes).sol = s.sol ∧ (State.endReq s rx bytes).start = s.start ∧
    (State.endReq s rx bytes).hist = s.hist ∧ (State.endReq s rx bytes).ctr = s.ctr ∧ (State.endReq s rx bytes).pwr = s.pwr ∧
    (State.endReq s rx bytes).clusters.length = s.clusters.length := by
  simp [State.endReq]
@[simp] theorem State.takeAck_keeps (s : State) (rx : Rx) (e : Option PktEnd) : (State.takeAck s rx e).pending = s.pending ∧
    (State.takeAck s rx e).jobs = s.jobs ∧ (State.takeAck s rx e).pwr = s.pwr ∧ (State.takeAck s rx e).clusters.length = s.clusters.length ∧
    (State.takeAck s rx e).fab.ports.length = s.fab.ports.length ∧ (State.takeAck s rx e).start.pcl.length = s.start.pcl.length ∧
    (State.takeAck s rx e).start.flash.xidx = s.start.flash.xidx ∧ (State.takeAck s rx e).start.lc = s.start.lc ∧
    (State.takeAck s rx e).start.starts = s.start.starts ∧ (State.takeAck s rx e).hub.module = s.hub.module := by
  unfold State.takeAck
  repeat' (first | split | dsimp only)
  all_goals simp
@[simp] theorem State.takeData_keeps (s : State) (rx : Rx) (bytes : List Byte) : (State.takeData s rx bytes).pending = s.pending ∧
    (State.takeData s rx bytes).mem = s.mem ∧ (State.takeData s rx bytes).tags = s.tags ∧ (State.takeData s rx bytes).poison = s.poison ∧
    (State.takeData s rx bytes).pages = s.pages ∧ (State.takeData s rx bytes).jobs = s.jobs ∧ (State.takeData s rx bytes).sol = s.sol ∧
    (State.takeData s rx bytes).start = s.start ∧ (State.takeData s rx bytes).hist = s.hist ∧ (State.takeData s rx bytes).pwr = s.pwr ∧
    (State.takeData s rx bytes).clusters.length = s.clusters.length ∧ (State.takeData s rx bytes).fab.ports.length = s.fab.ports.length ∧
    (State.takeData s rx bytes).hub.module = s.hub.module := by
  unfold State.takeData
  (repeat' split) <;> simp
@[simp] theorem State.hubNack_keeps (s : State) (u : HubUse) : (State.hubNack s u).pending = s.pending ∧ (State.hubNack s u).jobs = s.jobs ∧
    (State.hubNack s u).pwr = s.pwr ∧ (State.hubNack s u).clusters.length = s.clusters.length ∧
    (State.hubNack s u).fab.ports.length = s.fab.ports.length ∧ (State.hubNack s u).start.pcl.length = s.start.pcl.length ∧
    (State.hubNack s u).start.flash.xidx = s.start.flash.xidx ∧ (State.hubNack s u).start.lc = s.start.lc ∧
    (State.hubNack s u).start.starts = s.start.starts ∧ (State.hubNack s u).hub.module = s.hub.module := by
  unfold State.hubNack
  (repeat' split) <;> simp
@[simp] theorem State.entryNack_keeps (s : State) (rx : Rx) (r : Req) (reason : Nat) : (State.entryNack s rx r reason).pending = s.pending ∧
    (State.entryNack s rx r reason).jobs = s.jobs ∧ (State.entryNack s rx r reason).pwr = s.pwr ∧
    (State.entryNack s rx r reason).clusters.length = s.clusters.length ∧
    (State.entryNack s rx r reason).fab.ports.length = s.fab.ports.length ∧
    (State.entryNack s rx r reason).start.pcl.length = s.start.pcl.length ∧
    (State.entryNack s rx r reason).start.flash.xidx = s.start.flash.xidx ∧ (State.entryNack s rx r reason).start.lc = s.start.lc ∧
    (State.entryNack s rx r reason).start.starts = s.start.starts ∧ (State.entryNack s rx r reason).hub.module = s.hub.module := by
  unfold State.entryNack
  repeat' (first | split | dsimp only)
  all_goals simp
@[simp] theorem State.takeNack_keeps (s : State) (rx : Rx) (reason : Nat) : (State.takeNack s rx reason).pending = s.pending ∧
    (State.takeNack s rx reason).jobs = s.jobs ∧ (State.takeNack s rx reason).pwr = s.pwr ∧
    (State.takeNack s rx reason).clusters.length = s.clusters.length ∧ (State.takeNack s rx reason).fab.ports.length = s.fab.ports.length ∧
    (State.takeNack s rx reason).start.pcl.length = s.start.pcl.length ∧ (State.takeNack s rx reason).start.flash.xidx = s.start.flash.xidx ∧
    (State.takeNack s rx reason).start.lc = s.start.lc ∧ (State.takeNack s rx reason).start.starts = s.start.starts ∧
    (State.takeNack s rx reason).hub.module = s.hub.module := by
  unfold State.takeNack
  (repeat' split) <;> simp
@[simp] theorem State.takeLink_keeps (s : State) (p : Nat) (ack : Nat) (req : Option Nat) (credits : List Nat) :
    (State.takeLink s p ack req credits).pending = s.pending ∧
    (State.takeLink s p ack req credits).mem = s.mem ∧ (State.takeLink s p ack req credits).tags = s.tags ∧
    (State.takeLink s p ack req credits).poison = s.poison ∧ (State.takeLink s p ack req credits).pages = s.pages ∧
    (State.takeLink s p ack req credits).clusters = s.clusters ∧ (State.takeLink s p ack req credits).jobs = s.jobs ∧
    (State.takeLink s p ack req credits).hub = s.hub ∧ (State.takeLink s p ack req credits).sol = s.sol ∧
    (State.takeLink s p ack req credits).start = s.start ∧ (State.takeLink s p ack req credits).hist = s.hist ∧
    (State.takeLink s p ack req credits).pwr = s.pwr ∧ (State.takeLink s p ack req credits).fab.ports.length = s.fab.ports.length := by
  simp [State.takeLink]
@[simp] theorem State.flitReplay_keeps (s : State) (p : Nat) : (State.flitReplay s p).pending = s.pending ∧
    (State.flitReplay s p).jobs = s.jobs ∧ (State.flitReplay s p).pwr = s.pwr ∧ (State.flitReplay s p).clusters.length = s.clusters.length ∧
    (State.flitReplay s p).fab.ports.length = s.fab.ports.length ∧ (State.flitReplay s p).start.pcl.length = s.start.pcl.length ∧
    (State.flitReplay s p).start.flash.xidx = s.start.flash.xidx ∧ (State.flitReplay s p).start.lc = s.start.lc ∧
    (State.flitReplay s p).start.starts = s.start.starts ∧ (State.flitReplay s p).hub.module = s.hub.module := by
  unfold State.flitReplay
  repeat' (first | split | dsimp only)
  all_goals simp

/-! ## Topology -/

@[simp] theorem State.checkIdent_keeps (s : State) (p : Nat) (module : Nat) (farPort : Nat) (mapId : Word) :
    (State.checkIdent s p module farPort mapId).pending = s.pending ∧
    (State.checkIdent s p module farPort mapId).mem = s.mem ∧ (State.checkIdent s p module farPort mapId).tags = s.tags ∧
    (State.checkIdent s p module farPort mapId).poison = s.poison ∧ (State.checkIdent s p module farPort mapId).pages = s.pages ∧
    (State.checkIdent s p module farPort mapId).clusters = s.clusters ∧ (State.checkIdent s p module farPort mapId).jobs = s.jobs ∧
    (State.checkIdent s p module farPort mapId).hub = s.hub ∧ (State.checkIdent s p module farPort mapId).sol = s.sol ∧
    (State.checkIdent s p module farPort mapId).hist = s.hist ∧ (State.checkIdent s p module farPort mapId).pwr = s.pwr ∧
    (State.checkIdent s p module farPort mapId).fab.ports.length = s.fab.ports.length ∧
    (State.checkIdent s p module farPort mapId).start.pcl.length = s.start.pcl.length ∧
    (State.checkIdent s p module farPort mapId).start.flash.xidx = s.start.flash.xidx ∧
    (State.checkIdent s p module farPort mapId).start.lc = s.start.lc ∧
    (State.checkIdent s p module farPort mapId).start.starts = s.start.starts := by
  unfold State.checkIdent
  (repeat' split) <;> simp
@[simp] theorem State.sendIdent_keeps (s : State) (p : Nat) (far : Nat) : (State.sendIdent s p far).pending = s.pending ∧
    (State.sendIdent s p far).mem = s.mem ∧ (State.sendIdent s p far).tags = s.tags ∧ (State.sendIdent s p far).poison = s.poison ∧
    (State.sendIdent s p far).pages = s.pages ∧ (State.sendIdent s p far).clusters = s.clusters ∧ (State.sendIdent s p far).jobs = s.jobs ∧
    (State.sendIdent s p far).hub = s.hub ∧ (State.sendIdent s p far).sol = s.sol ∧ (State.sendIdent s p far).start = s.start ∧
    (State.sendIdent s p far).hist = s.hist ∧ (State.sendIdent s p far).pwr = s.pwr ∧
    (State.sendIdent s p far).fab.ports.length = s.fab.ports.length := by
  simp [State.sendIdent]
@[simp] theorem State.newGraph_keeps (s : State) (g : Graph) : (State.newGraph s g).pending = s.pending ∧ (State.newGraph s g).jobs = s.jobs ∧
    (State.newGraph s g).pwr = s.pwr ∧ (State.newGraph s g).clusters.length = s.clusters.length ∧
    (State.newGraph s g).fab.ports.length = s.fab.ports.length ∧ (State.newGraph s g).start.pcl.length = s.start.pcl.length ∧
    (State.newGraph s g).start.flash.xidx = s.start.flash.xidx ∧ (State.newGraph s g).start.lc = s.start.lc ∧
    (State.newGraph s g).start.starts = s.start.starts ∧ (State.newGraph s g).hub.module = s.hub.module := by
  simp [State.newGraph]
@[simp] theorem State.tellGraph_keeps (s : State) (g : Graph) (p : Nat) (far : Nat) : (State.tellGraph s g p far).pending = s.pending ∧
    (State.tellGraph s g p far).mem = s.mem ∧ (State.tellGraph s g p far).tags = s.tags ∧ (State.tellGraph s g p far).poison = s.poison ∧
    (State.tellGraph s g p far).pages = s.pages ∧ (State.tellGraph s g p far).clusters = s.clusters ∧
    (State.tellGraph s g p far).jobs = s.jobs ∧ (State.tellGraph s g p far).hub = s.hub ∧ (State.tellGraph s g p far).sol = s.sol ∧
    (State.tellGraph s g p far).start = s.start ∧ (State.tellGraph s g p far).hist = s.hist ∧ (State.tellGraph s g p far).pwr = s.pwr ∧
    (State.tellGraph s g p far).fab.ports.length = s.fab.ports.length := by
  unfold State.tellGraph
  (repeat' split) <;> simp
@[simp] theorem State.linkUp_keeps (s : State) (p : Nat) : (State.linkUp s p).pending = s.pending ∧ (State.linkUp s p).jobs = s.jobs ∧
    (State.linkUp s p).pwr = s.pwr ∧ (State.linkUp s p).clusters.length = s.clusters.length ∧
    (State.linkUp s p).fab.ports.length = s.fab.ports.length ∧ (State.linkUp s p).start.pcl.length = s.start.pcl.length ∧
    (State.linkUp s p).start.flash.xidx = s.start.flash.xidx ∧ (State.linkUp s p).start.lc = s.start.lc ∧
    (State.linkUp s p).start.starts = s.start.starts ∧ (State.linkUp s p).hub.module = s.hub.module := by
  unfold State.linkUp
  repeat' (first | split | dsimp only)
  all_goals simp
@[simp] theorem State.takeFlood_keeps (s : State) (rx : Rx) (g : Graph) (b : Body) : (State.takeFlood s rx g b).pending = s.pending ∧
    (State.takeFlood s rx g b).jobs = s.jobs ∧ (State.takeFlood s rx g b).pwr = s.pwr ∧
    (State.takeFlood s rx g b).clusters.length = s.clusters.length ∧ (State.takeFlood s rx g b).fab.ports.length = s.fab.ports.length ∧
    (State.takeFlood s rx g b).start.pcl.length = s.start.pcl.length ∧ (State.takeFlood s rx g b).start.flash.xidx = s.start.flash.xidx ∧
    (State.takeFlood s rx g b).start.lc = s.start.lc ∧ (State.takeFlood s rx g b).start.starts = s.start.starts ∧
    (State.takeFlood s rx g b).hub.module = s.hub.module := by
  unfold State.takeFlood
  (repeat' split) <;> simp
@[simp] theorem State.install_keeps (s : State) : (State.install s).pending = s.pending ∧ (State.install s).jobs = s.jobs ∧
    (State.install s).pwr = s.pwr ∧ (State.install s).clusters.length = s.clusters.length ∧
    (State.install s).fab.ports.length = s.fab.ports.length ∧ (State.install s).start.pcl.length = s.start.pcl.length ∧
    (State.install s).start.flash.xidx = s.start.flash.xidx ∧ (State.install s).start.lc = s.start.lc ∧
    (State.install s).start.starts = s.start.starts ∧ (State.install s).hub.module = s.hub.module := by
  simp [State.install]
@[simp] theorem State.takeDrained_keeps (s : State) (m : Nat) : (State.takeDrained s m).pending = s.pending ∧
    (State.takeDrained s m).jobs = s.jobs ∧ (State.takeDrained s m).pwr = s.pwr ∧ (State.takeDrained s m).clusters.length = s.clusters.length ∧
    (State.takeDrained s m).fab.ports.length = s.fab.ports.length ∧ (State.takeDrained s m).start.pcl.length = s.start.pcl.length ∧
    (State.takeDrained s m).start.flash.xidx = s.start.flash.xidx ∧ (State.takeDrained s m).start.lc = s.start.lc ∧
    (State.takeDrained s m).start.starts = s.start.starts ∧ (State.takeDrained s m).hub.module = s.hub.module := by
  unfold State.takeDrained
  repeat' (first | split | dsimp only)
  all_goals simp
@[simp] theorem State.failPort_keeps (s : State) (p : Nat) : (State.failPort s p).pending = s.pending ∧ (State.failPort s p).jobs = s.jobs ∧
    (State.failPort s p).pwr = s.pwr ∧ (State.failPort s p).clusters.length = s.clusters.length ∧
    (State.failPort s p).fab.ports.length = s.fab.ports.length ∧ (State.failPort s p).start.pcl.length = s.start.pcl.length ∧
    (State.failPort s p).start.flash.xidx = s.start.flash.xidx ∧ (State.failPort s p).start.lc = s.start.lc ∧
    (State.failPort s p).start.starts = s.start.starts ∧ (State.failPort s p).hub.module = s.hub.module := by
  simp [State.failPort]
@[simp] theorem State.engineFails_keeps (s : State) (group : Nat) (engine : Nat) : (State.engineFails s group engine).pending = s.pending ∧
    (State.engineFails s group engine).jobs = s.jobs ∧ (State.engineFails s group engine).clusters.length = s.clusters.length ∧
    (State.engineFails s group engine).fab.ports.length = s.fab.ports.length ∧
    (State.engineFails s group engine).start.pcl.length = s.start.pcl.length ∧
    (State.engineFails s group engine).start.flash.xidx = s.start.flash.xidx ∧
    (State.engineFails s group engine).start.starts = s.start.starts ∧ (State.engineFails s group engine).hub.module = s.hub.module := by
  unfold State.engineFails
  repeat' (first | split | dsimp only)
  all_goals simp
@[simp] theorem State.fwUp_keeps (s : State) (b : Broadcast) (chunk : Nat) : (State.fwUp s b chunk).pending = s.pending ∧
    (State.fwUp s b chunk).mem = s.mem ∧ (State.fwUp s b chunk).tags = s.tags ∧ (State.fwUp s b chunk).poison = s.poison ∧
    (State.fwUp s b chunk).pages = s.pages ∧ (State.fwUp s b chunk).clusters = s.clusters ∧ (State.fwUp s b chunk).jobs = s.jobs ∧
    (State.fwUp s b chunk).hub = s.hub ∧ (State.fwUp s b chunk).sol = s.sol ∧ (State.fwUp s b chunk).start = s.start ∧
    (State.fwUp s b chunk).hist = s.hist ∧ (State.fwUp s b chunk).pwr = s.pwr ∧
    (State.fwUp s b chunk).fab.ports.length = s.fab.ports.length := by
  unfold State.fwUp
  (repeat' split) <;> simp
@[simp] theorem State.fwFinish_keeps (s : State) : (State.fwFinish s).pending = s.pending ∧ (State.fwFinish s).mem = s.mem ∧
    (State.fwFinish s).tags = s.tags ∧ (State.fwFinish s).poison = s.poison ∧ (State.fwFinish s).pages = s.pages ∧
    (State.fwFinish s).clusters = s.clusters ∧ (State.fwFinish s).jobs = s.jobs ∧ (State.fwFinish s).hub = s.hub ∧
    (State.fwFinish s).sol = s.sol ∧ (State.fwFinish s).start = s.start ∧ (State.fwFinish s).hist = s.hist ∧ (State.fwFinish s).ctr = s.ctr ∧
    (State.fwFinish s).pwr = s.pwr ∧ (State.fwFinish s).fab.ports.length = s.fab.ports.length := by
  unfold State.fwFinish
  (repeat' split) <;> simp
@[simp] theorem State.takeChunk_keeps (s : State) (rx : Rx) (seq : Nat) (chunk : Nat) (bytes : List Byte) (img : ImageIn) :
    (State.takeChunk s rx seq chunk bytes img).pending = s.pending ∧
    (State.takeChunk s rx seq chunk bytes img).start.pcl.length = s.start.pcl.length ∧
    (State.takeChunk s rx seq chunk bytes img).start.flash.xidx = s.start.flash.xidx ∧
    (State.takeChunk s rx seq chunk bytes img).start.lc = s.start.lc ∧
    (State.takeChunk s rx seq chunk bytes img).start.starts = s.start.starts ∧
    (State.takeChunk s rx seq chunk bytes img).hub.module = s.hub.module := by
  unfold State.takeChunk
  repeat' (first | split | dsimp only)
  all_goals simp
@[simp] theorem State.takeFwAck_keeps (s : State) (rx : Rx) (seq : Nat) (chunk : Nat) : (State.takeFwAck s rx seq chunk).pending = s.pending ∧
    (State.takeFwAck s rx seq chunk).mem = s.mem ∧ (State.takeFwAck s rx seq chunk).tags = s.tags ∧
    (State.takeFwAck s rx seq chunk).poison = s.poison ∧ (State.takeFwAck s rx seq chunk).pages = s.pages ∧
    (State.takeFwAck s rx seq chunk).clusters = s.clusters ∧ (State.takeFwAck s rx seq chunk).jobs = s.jobs ∧
    (State.takeFwAck s rx seq chunk).hub = s.hub ∧ (State.takeFwAck s rx seq chunk).sol = s.sol ∧
    (State.takeFwAck s rx seq chunk).start = s.start ∧ (State.takeFwAck s rx seq chunk).hist = s.hist ∧
    (State.takeFwAck s rx seq chunk).pwr = s.pwr ∧ (State.takeFwAck s rx seq chunk).fab.ports.length = s.fab.ports.length := by
  unfold State.takeFwAck
  repeat' (first | split | dsimp only)
  all_goals simp

end Sys2Proof.Machine
end

