-- ==== Sys2Proof/Laws/Engines.lean ====
section
/-!
SUPPORT. One lemma for each operation, which says every part of the state that it keeps. Here: the engines of a cluster: the Derailleur, matrices, the Chainline, the solver cycle, curvature, movement, groups and parameters.
-/

namespace Sys2Proof.Machine

/-! ## Derailleur -/

@[simp] theorem State.complete_keeps (s : State) (x : Site) : (State.complete s x).pending = s.pending ∧ (State.complete s x).jobs = s.jobs ∧
    (State.complete s x).pwr = s.pwr ∧ (State.complete s x).clusters.length = s.clusters.length ∧
    (State.complete s x).fab.ports.length = s.fab.ports.length ∧ (State.complete s x).start.pcl.length = s.start.pcl.length ∧
    (State.complete s x).start.flash.xidx = s.start.flash.xidx ∧ (State.complete s x).start.lc = s.start.lc ∧
    (State.complete s x).start.starts = s.start.starts ∧ (State.complete s x).hub.module = s.hub.module := by
  unfold State.complete
  repeat' (first | split | dsimp only)
  all_goals simp
@[simp] theorem State.confirm_keeps (s : State) (l : Nat) (idx : Nat) : (State.confirm s l idx).pending = s.pending ∧
    (State.confirm s l idx).mem = s.mem ∧ (State.confirm s l idx).tags = s.tags ∧ (State.confirm s l idx).poison = s.poison ∧
    (State.confirm s l idx).pages = s.pages ∧ (State.confirm s l idx).jobs = s.jobs ∧ (State.confirm s l idx).hub = s.hub ∧
    (State.confirm s l idx).fab = s.fab ∧ (State.confirm s l idx).sol = s.sol ∧ (State.confirm s l idx).ctr = s.ctr ∧
    (State.confirm s l idx).pwr = s.pwr ∧ (State.confirm s l idx).clusters.length = s.clusters.length ∧
    (State.confirm s l idx).start.pcl.length = s.start.pcl.length ∧ (State.confirm s l idx).start.flash.xidx = s.start.flash.xidx ∧
    (State.confirm s l idx).start.lc = s.start.lc ∧ (State.confirm s l idx).start.starts = s.start.starts := by
  simp [State.confirm]
@[simp] theorem State.issue_keeps (s : State) (l : Nat) (k : Deck) (i : Nat) (e : Entry) : (State.issue s l k i e).pending = s.pending ∧
    (State.issue s l k i e).jobs = s.jobs ∧ (State.issue s l k i e).pwr = s.pwr ∧ (State.issue s l k i e).clusters.length = s.clusters.length ∧
    (State.issue s l k i e).fab.ports.length = s.fab.ports.length ∧ (State.issue s l k i e).start.pcl.length = s.start.pcl.length ∧
    (State.issue s l k i e).start.flash.xidx = s.start.flash.xidx ∧ (State.issue s l k i e).start.starts = s.start.starts ∧
    (State.issue s l k i e).hub.module = s.hub.module := by
  unfold State.issue
  extract_lets f occ s1 s2 s3 step s4 s5
  have h1 : s4.pending = s.pending ∧ s4.jobs = s.jobs ∧ s4.pwr = s.pwr ∧ s4.clusters.length = s.clusters.length ∧
      s4.fab.ports.length = s.fab.ports.length ∧ s4.start.pcl.length = s.start.pcl.length ∧ s4.start.flash.xidx = s.start.flash.xidx ∧
      s4.start.starts = s.start.starts ∧ s4.hub.module = s.hub.module := by simp [s4, s3, s2, s1]
  have h2 : s5.pending = s4.pending ∧ s5.jobs = s4.jobs ∧ s5.pwr = s4.pwr ∧ s5.clusters.length = s4.clusters.length ∧
      s5.fab.ports.length = s4.fab.ports.length ∧ s5.start.pcl.length = s4.start.pcl.length ∧ s5.start.flash.xidx = s4.start.flash.xidx ∧
      s5.start.starts = s4.start.starts ∧ s5.hub.module = s4.hub.module := by
    simp only [s5]
    clear_value s4
    (repeat' apply And.intro) <;> (((first | apply foldl_pending | apply foldl_jobs | apply foldl_pwr | apply foldl_clusters_length | apply foldl_ports_length | apply foldl_pcl_length | apply foldl_xidx | apply foldl_starts | apply foldl_module)) <;> (intros; (repeat' split) <;> (first | (simp; done) | ((first | apply foldl_pending | apply foldl_jobs | apply foldl_pwr | apply foldl_clusters_length | apply foldl_ports_length | apply foldl_pcl_length | apply foldl_xidx | apply foldl_starts | apply foldl_module) <;> (intros; (repeat' split) <;> simp)))))
  clear_value s5 s4
  split <;> simp [h1, h2]
@[simp] theorem State.drlStroke_keeps (s : State) (l : Nat) (go : Bool) : (State.drlStroke s l go).pending = s.pending ∧
    (State.drlStroke s l go).mem = s.mem ∧ (State.drlStroke s l go).tags = s.tags ∧ (State.drlStroke s l go).poison = s.poison ∧
    (State.drlStroke s l go).pages = s.pages ∧ (State.drlStroke s l go).jobs = s.jobs ∧ (State.drlStroke s l go).hub = s.hub ∧
    (State.drlStroke s l go).fab = s.fab ∧ (State.drlStroke s l go).sol = s.sol ∧ (State.drlStroke s l go).start = s.start ∧
    (State.drlStroke s l go).hist = s.hist ∧ (State.drlStroke s l go).ctr = s.ctr ∧ (State.drlStroke s l go).pwr = s.pwr ∧
    (State.drlStroke s l go).clusters.length = s.clusters.length := by
  simp [State.drlStroke]
@[simp] theorem State.stepDecide_keeps (s : State) (l : Nat) : (State.stepDecide s l).pending = s.pending ∧
    (State.stepDecide s l).jobs = s.jobs ∧ (State.stepDecide s l).pwr = s.pwr ∧ (State.stepDecide s l).clusters.length = s.clusters.length ∧
    (State.stepDecide s l).fab.ports.length = s.fab.ports.length ∧ (State.stepDecide s l).start.pcl.length = s.start.pcl.length ∧
    (State.stepDecide s l).start.flash.xidx = s.start.flash.xidx ∧ (State.stepDecide s l).start.starts = s.start.starts ∧
    (State.stepDecide s l).hub.module = s.hub.module := by
  unfold State.stepDecide
  repeat' (first | split | dsimp only)
  all_goals simp
@[simp] theorem State.doSignal_keeps (s : State) (x : Site) : (State.doSignal s x).pending = s.pending ∧ (State.doSignal s x).mem = s.mem ∧
    (State.doSignal s x).tags = s.tags ∧ (State.doSignal s x).poison = s.poison ∧ (State.doSignal s x).pages = s.pages ∧
    (State.doSignal s x).jobs = s.jobs ∧ (State.doSignal s x).hub = s.hub ∧ (State.doSignal s x).sol = s.sol ∧
    (State.doSignal s x).start = s.start ∧ (State.doSignal s x).hist = s.hist ∧ (State.doSignal s x).pwr = s.pwr ∧
    (State.doSignal s x).clusters.length = s.clusters.length ∧ (State.doSignal s x).fab.ports.length = s.fab.ports.length := by
  unfold State.doSignal
  repeat' (first | split | dsimp only)
  all_goals (try have hq := State.request_keeps ‹_›)
  all_goals simp [*]
@[simp] theorem State.doCtlEntry_keeps (s : State) (x : Site) : (State.doCtlEntry s x).pending = s.pending ∧
    (State.doCtlEntry s x).start.pcl.length = s.start.pcl.length ∧ (State.doCtlEntry s x).start.flash.xidx = s.start.flash.xidx ∧
    (State.doCtlEntry s x).start.starts = s.start.starts ∧ (State.doCtlEntry s x).hub.module = s.hub.module := by
  unfold State.doCtlEntry
  (repeat' split) <;> simp
@[simp] theorem State.doIterEnd_keeps (s : State) (x : Site) : (State.doIterEnd s x).pending = s.pending ∧ (State.doIterEnd s x).jobs = s.jobs ∧
    (State.doIterEnd s x).pwr = s.pwr ∧ (State.doIterEnd s x).clusters.length = s.clusters.length ∧
    (State.doIterEnd s x).fab.ports.length = s.fab.ports.length ∧ (State.doIterEnd s x).start.pcl.length = s.start.pcl.length ∧
    (State.doIterEnd s x).start.flash.xidx = s.start.flash.xidx ∧ (State.doIterEnd s x).start.lc = s.start.lc ∧
    (State.doIterEnd s x).start.starts = s.start.starts ∧ (State.doIterEnd s x).hub.module = s.hub.module := by
  unfold State.doIterEnd
  repeat' (first | split | dsimp only)
  all_goals simp
@[simp] theorem State.taskDone_keeps (s : State) (k : TaskKey) : (State.taskDone s k).pending = s.pending ∧ (State.taskDone s k).jobs = s.jobs ∧
    (State.taskDone s k).pwr = s.pwr ∧ (State.taskDone s k).clusters.length = s.clusters.length ∧
    (State.taskDone s k).fab.ports.length = s.fab.ports.length ∧ (State.taskDone s k).start.pcl.length = s.start.pcl.length ∧
    (State.taskDone s k).start.flash.xidx = s.start.flash.xidx ∧ (State.taskDone s k).start.lc = s.start.lc ∧
    (State.taskDone s k).start.starts = s.start.starts ∧ (State.taskDone s k).hub.module = s.hub.module := by
  unfold State.taskDone
  repeat' (first | split | dsimp only)
  all_goals simp
@[simp] theorem State.doHalt_keeps (s : State) (x : Site) : (State.doHalt s x).pending = s.pending ∧ (State.doHalt s x).jobs = s.jobs ∧
    (State.doHalt s x).pwr = s.pwr ∧ (State.doHalt s x).clusters.length = s.clusters.length ∧
    (State.doHalt s x).fab.ports.length = s.fab.ports.length ∧ (State.doHalt s x).start.pcl.length = s.start.pcl.length ∧
    (State.doHalt s x).start.flash.xidx = s.start.flash.xidx ∧ (State.doHalt s x).start.lc = s.start.lc ∧
    (State.doHalt s x).start.starts = s.start.starts ∧ (State.doHalt s x).hub.module = s.hub.module := by
  unfold State.doHalt
  repeat' (first | split | dsimp only)
  all_goals simp

/-! ## Matrix -/

@[simp] theorem State.chargeOtiles_keeps (s : State) (x : Site) (ts : List OTile) : (State.chargeOtiles s x ts).pending = s.pending ∧
    (State.chargeOtiles s x ts).pages = s.pages ∧ (State.chargeOtiles s x ts).jobs = s.jobs ∧ (State.chargeOtiles s x ts).hub = s.hub ∧
    (State.chargeOtiles s x ts).fab = s.fab ∧ (State.chargeOtiles s x ts).sol = s.sol ∧ (State.chargeOtiles s x ts).ctr = s.ctr ∧
    (State.chargeOtiles s x ts).clusters.length = s.clusters.length ∧ (State.chargeOtiles s x ts).start.pcl.length = s.start.pcl.length ∧
    (State.chargeOtiles s x ts).start.flash.xidx = s.start.flash.xidx ∧ (State.chargeOtiles s x ts).start.starts = s.start.starts := by
  unfold State.chargeOtiles
  repeat' (first | split | dsimp only)
  all_goals (repeat' apply And.intro)
  all_goals (try simp; done)
  all_goals ((first | apply foldl_pending | apply foldl_pages | apply foldl_jobs | apply foldl_hub | apply foldl_fab | apply foldl_sol | apply foldl_ctr | apply foldl_clusters_length | apply foldl_pcl_length | apply foldl_xidx | apply foldl_starts) <;> (intros; (repeat' (first | split | dsimp only)) <;> simp))
@[simp] theorem State.countTiles_keeps (s : State) (x : Site) (ps : List (List OTile × Nat)) (strokes : Nat) (product : Bool) :
    (State.countTiles s x ps strokes product).pending = s.pending ∧
    (State.countTiles s x ps strokes product).mem = s.mem ∧ (State.countTiles s x ps strokes product).tags = s.tags ∧
    (State.countTiles s x ps strokes product).poison = s.poison ∧ (State.countTiles s x ps strokes product).pages = s.pages ∧
    (State.countTiles s x ps strokes product).jobs = s.jobs ∧ (State.countTiles s x ps strokes product).hub = s.hub ∧
    (State.countTiles s x ps strokes product).fab = s.fab ∧ (State.countTiles s x ps strokes product).sol = s.sol ∧
    (State.countTiles s x ps strokes product).start = s.start ∧ (State.countTiles s x ps strokes product).hist = s.hist ∧
    (State.countTiles s x ps strokes product).ctr = s.ctr ∧ (State.countTiles s x ps strokes product).pwr = s.pwr ∧
    (State.countTiles s x ps strokes product).clusters.length = s.clusters.length := by
  simp [State.countTiles]
@[simp] theorem State.countBlocks_keeps (s : State) (l : Nat) (blocks : Nat) (strokes : Nat) (flagged : Bool) :
    (State.countBlocks s l blocks strokes flagged).pending = s.pending ∧
    (State.countBlocks s l blocks strokes flagged).mem = s.mem ∧ (State.countBlocks s l blocks strokes flagged).tags = s.tags ∧
    (State.countBlocks s l blocks strokes flagged).poison = s.poison ∧ (State.countBlocks s l blocks strokes flagged).pages = s.pages ∧
    (State.countBlocks s l blocks strokes flagged).jobs = s.jobs ∧ (State.countBlocks s l blocks strokes flagged).hub = s.hub ∧
    (State.countBlocks s l blocks strokes flagged).fab = s.fab ∧ (State.countBlocks s l blocks strokes flagged).sol = s.sol ∧
    (State.countBlocks s l blocks strokes flagged).start = s.start ∧ (State.countBlocks s l blocks strokes flagged).hist = s.hist ∧
    (State.countBlocks s l blocks strokes flagged).ctr = s.ctr ∧ (State.countBlocks s l blocks strokes flagged).pwr = s.pwr ∧
    (State.countBlocks s l blocks strokes flagged).clusters.length = s.clusters.length := by
  simp [State.countBlocks]
@[simp] theorem State.tileFault_keeps (s : State) (x : Site) (ts : List OTile) : (State.tileFault s x ts).pending = s.pending ∧
    (State.tileFault s x ts).jobs = s.jobs ∧ (State.tileFault s x ts).pwr = s.pwr ∧
    (State.tileFault s x ts).clusters.length = s.clusters.length ∧ (State.tileFault s x ts).fab.ports.length = s.fab.ports.length ∧
    (State.tileFault s x ts).start.pcl.length = s.start.pcl.length ∧ (State.tileFault s x ts).start.flash.xidx = s.start.flash.xidx ∧
    (State.tileFault s x ts).start.lc = s.start.lc ∧ (State.tileFault s x ts).start.starts = s.start.starts ∧
    (State.tileFault s x ts).hub.module = s.hub.module := by
  simp [State.tileFault]
@[simp] theorem State.productOut_keeps (s : State) (x : Site) (d : Tensor) (ch : Option Chain) (ts : List OTile) :
    (State.productOut s x d ch ts).pending = s.pending ∧
    (State.productOut s x d ch ts).jobs = s.jobs ∧ (State.productOut s x d ch ts).hub = s.hub ∧ (State.productOut s x d ch ts).fab = s.fab ∧
    (State.productOut s x d ch ts).sol = s.sol ∧ (State.productOut s x d ch ts).start = s.start ∧ (State.productOut s x d ch ts).hist = s.hist ∧
    (State.productOut s x d ch ts).ctr = s.ctr ∧ (State.productOut s x d ch ts).pwr = s.pwr ∧
    (State.productOut s x d ch ts).clusters.length = s.clusters.length := by
  simp [State.productOut]
@[simp] theorem State.awaitRetry_keeps (s : State) (x : Site) (cells : List CellFault) (ts : List OTile) :
    (State.awaitRetry s x cells ts).pending = s.pending ∧
    (State.awaitRetry s x cells ts).mem = s.mem ∧ (State.awaitRetry s x cells ts).tags = s.tags ∧
    (State.awaitRetry s x cells ts).poison = s.poison ∧ (State.awaitRetry s x cells ts).pages = s.pages ∧
    (State.awaitRetry s x cells ts).jobs = s.jobs ∧ (State.awaitRetry s x cells ts).hub = s.hub ∧ (State.awaitRetry s x cells ts).fab = s.fab ∧
    (State.awaitRetry s x cells ts).sol = s.sol ∧ (State.awaitRetry s x cells ts).start = s.start ∧
    (State.awaitRetry s x cells ts).hist = s.hist ∧ (State.awaitRetry s x cells ts).ctr = s.ctr ∧ (State.awaitRetry s x cells ts).pwr = s.pwr ∧
    (State.awaitRetry s x cells ts).clusters.length = s.clusters.length := by
  simp [State.awaitRetry]
@[simp] theorem State.productBody_keeps (s : State) (x : Site) (ev : Ev) (a : Tensor) (b : Tensor) (d : Tensor) (ch : Option Chain) :
    (State.productBody s x ev a b d ch).pending = s.pending ∧
    (State.productBody s x ev a b d ch).jobs = s.jobs ∧ (State.productBody s x ev a b d ch).clusters.length = s.clusters.length ∧
    (State.productBody s x ev a b d ch).fab.ports.length = s.fab.ports.length ∧
    (State.productBody s x ev a b d ch).start.pcl.length = s.start.pcl.length ∧
    (State.productBody s x ev a b d ch).start.flash.xidx = s.start.flash.xidx ∧
    (State.productBody s x ev a b d ch).start.starts = s.start.starts ∧ (State.productBody s x ev a b d ch).hub.module = s.hub.module := by
  unfold State.productBody
  repeat' (first | split | dsimp only)
  all_goals simp
@[simp] theorem State.runProduct_keeps (s : State) (x : Site) (ev : Ev) : (State.runProduct s x ev).pending = s.pending ∧
    (State.runProduct s x ev).jobs = s.jobs ∧ (State.runProduct s x ev).clusters.length = s.clusters.length ∧
    (State.runProduct s x ev).fab.ports.length = s.fab.ports.length ∧ (State.runProduct s x ev).start.pcl.length = s.start.pcl.length ∧
    (State.runProduct s x ev).start.flash.xidx = s.start.flash.xidx ∧ (State.runProduct s x ev).start.starts = s.start.starts ∧
    (State.runProduct s x ev).hub.module = s.hub.module := by
  unfold State.runProduct
  (repeat' split) <;> simp
@[simp] theorem State.gramBody_keeps (s : State) (x : Site) (ev : Ev) (t : Slot) (a : Tensor) : (State.gramBody s x ev t a).pending = s.pending ∧
    (State.gramBody s x ev t a).jobs = s.jobs ∧ (State.gramBody s x ev t a).clusters.length = s.clusters.length ∧
    (State.gramBody s x ev t a).fab.ports.length = s.fab.ports.length ∧ (State.gramBody s x ev t a).start.pcl.length = s.start.pcl.length ∧
    (State.gramBody s x ev t a).start.flash.xidx = s.start.flash.xidx ∧ (State.gramBody s x ev t a).start.starts = s.start.starts ∧
    (State.gramBody s x ev t a).hub.module = s.hub.module := by
  unfold State.gramBody
  repeat' (first | split | dsimp only)
  all_goals simp
@[simp] theorem State.runGramEntry_keeps (s : State) (x : Site) (ev : Ev) : (State.runGramEntry s x ev).pending = s.pending ∧
    (State.runGramEntry s x ev).jobs = s.jobs ∧ (State.runGramEntry s x ev).clusters.length = s.clusters.length ∧
    (State.runGramEntry s x ev).fab.ports.length = s.fab.ports.length ∧ (State.runGramEntry s x ev).start.pcl.length = s.start.pcl.length ∧
    (State.runGramEntry s x ev).start.flash.xidx = s.start.flash.xidx ∧ (State.runGramEntry s x ev).start.starts = s.start.starts ∧
    (State.runGramEntry s x ev).hub.module = s.hub.module := by
  unfold State.runGramEntry
  (repeat' split) <;> simp

/-! ## Vector -/

@[simp] theorem State.chainBody_keeps (s : State) (x : Site) (ch : Chain) (a : Tensor) (d : Tensor) (b : Option Tensor) :
    (State.chainBody s x ch a d b).pending = s.pending ∧
    (State.chainBody s x ch a d b).jobs = s.jobs ∧ (State.chainBody s x ch a d b).hub = s.hub ∧ (State.chainBody s x ch a d b).fab = s.fab ∧
    (State.chainBody s x ch a d b).sol = s.sol ∧ (State.chainBody s x ch a d b).start = s.start ∧ (State.chainBody s x ch a d b).hist = s.hist ∧
    (State.chainBody s x ch a d b).ctr = s.ctr ∧ (State.chainBody s x ch a d b).pwr = s.pwr ∧
    (State.chainBody s x ch a d b).clusters.length = s.clusters.length := by
  simp [State.chainBody]
@[simp] theorem State.runChainEntry_keeps (s : State) (x : Site) (ev : Ev) : (State.runChainEntry s x ev).pending = s.pending ∧
    (State.runChainEntry s x ev).jobs = s.jobs ∧ (State.runChainEntry s x ev).clusters.length = s.clusters.length ∧
    (State.runChainEntry s x ev).fab.ports.length = s.fab.ports.length ∧ (State.runChainEntry s x ev).start.pcl.length = s.start.pcl.length ∧
    (State.runChainEntry s x ev).start.flash.xidx = s.start.flash.xidx ∧ (State.runChainEntry s x ev).start.starts = s.start.starts ∧
    (State.runChainEntry s x ev).hub.module = s.hub.module := by
  unfold State.runChainEntry
  (repeat' split) <;> simp
@[simp] theorem State.reduceBody_keeps (s : State) (x : Site) (r : RedDesc) (a : Tensor) (d : Tensor) :
    (State.reduceBody s x r a d).pending = s.pending ∧
    (State.reduceBody s x r a d).jobs = s.jobs ∧ (State.reduceBody s x r a d).hub = s.hub ∧ (State.reduceBody s x r a d).fab = s.fab ∧
    (State.reduceBody s x r a d).sol = s.sol ∧ (State.reduceBody s x r a d).start = s.start ∧ (State.reduceBody s x r a d).hist = s.hist ∧
    (State.reduceBody s x r a d).ctr = s.ctr ∧ (State.reduceBody s x r a d).pwr = s.pwr ∧
    (State.reduceBody s x r a d).clusters.length = s.clusters.length := by
  simp [State.reduceBody]
@[simp] theorem State.runReduce_keeps (s : State) (x : Site) (ev : Ev) : (State.runReduce s x ev).pending = s.pending ∧
    (State.runReduce s x ev).jobs = s.jobs ∧ (State.runReduce s x ev).clusters.length = s.clusters.length ∧
    (State.runReduce s x ev).fab.ports.length = s.fab.ports.length ∧ (State.runReduce s x ev).start.pcl.length = s.start.pcl.length ∧
    (State.runReduce s x ev).start.flash.xidx = s.start.flash.xidx ∧ (State.runReduce s x ev).start.starts = s.start.starts ∧
    (State.runReduce s x ev).hub.module = s.hub.module := by
  unfold State.runReduce
  (repeat' split) <;> simp

/-! ## Cycle -/

@[simp] theorem State.blockCode_keeps (s : State) (l : Nat) (code : Nat) (restarts : Nat) : (State.blockCode s l code restarts).pending = s.pending ∧
    (State.blockCode s l code restarts).mem = s.mem ∧ (State.blockCode s l code restarts).tags = s.tags ∧
    (State.blockCode s l code restarts).poison = s.poison ∧ (State.blockCode s l code restarts).pages = s.pages ∧
    (State.blockCode s l code restarts).jobs = s.jobs ∧ (State.blockCode s l code restarts).hub = s.hub ∧
    (State.blockCode s l code restarts).fab = s.fab ∧ (State.blockCode s l code restarts).sol = s.sol ∧
    (State.blockCode s l code restarts).start = s.start ∧ (State.blockCode s l code restarts).hist = s.hist ∧
    (State.blockCode s l code restarts).ctr = s.ctr ∧ (State.blockCode s l code restarts).pwr = s.pwr ∧
    (State.blockCode s l code restarts).clusters.length = s.clusters.length := by
  simp [State.blockCode]
@[simp] theorem State.factorOne_keeps (s : State) (l : Nat) (j : Job) (slot : Nat) (b : Nat) (a : BMat) :
    ((State.factorOne s l j slot b a).1).pending = s.pending ∧
    ((State.factorOne s l j slot b a).1).tags = s.tags ∧ ((State.factorOne s l j slot b a).1).pages = s.pages ∧
    ((State.factorOne s l j slot b a).1).hub = s.hub ∧ ((State.factorOne s l j slot b a).1).fab = s.fab ∧
    ((State.factorOne s l j slot b a).1).sol = s.sol ∧ ((State.factorOne s l j slot b a).1).start = s.start ∧
    ((State.factorOne s l j slot b a).1).hist = s.hist ∧ ((State.factorOne s l j slot b a).1).ctr = s.ctr ∧
    ((State.factorOne s l j slot b a).1).pwr = s.pwr ∧ ((State.factorOne s l j slot b a).1).clusters.length = s.clusters.length := by
  unfold State.factorOne
  repeat' (first | split | dsimp only)
  all_goals simp
@[simp] theorem State.updSol_keeps (s : State) (f : Sol → Sol) : (State.updSol s f).pending = s.pending ∧ (State.updSol s f).mem = s.mem ∧
    (State.updSol s f).tags = s.tags ∧ (State.updSol s f).poison = s.poison ∧ (State.updSol s f).pages = s.pages ∧
    (State.updSol s f).clusters = s.clusters ∧ (State.updSol s f).jobs = s.jobs ∧ (State.updSol s f).hub = s.hub ∧
    (State.updSol s f).fab = s.fab ∧ (State.updSol s f).start = s.start ∧ (State.updSol s f).hist = s.hist ∧ (State.updSol s f).ctr = s.ctr ∧
    (State.updSol s f).pwr = s.pwr := by
  simp [State.updSol]
@[simp] theorem State.updProb_keeps (s : State) (b : Blk) (n : Nat) (f : SolProb → SolProb) : (State.updProb s b n f).pending = s.pending ∧
    (State.updProb s b n f).tags = s.tags ∧ (State.updProb s b n f).pages = s.pages ∧ (State.updProb s b n f).clusters = s.clusters ∧
    (State.updProb s b n f).jobs = s.jobs ∧ (State.updProb s b n f).hub = s.hub ∧ (State.updProb s b n f).fab = s.fab ∧
    (State.updProb s b n f).start = s.start ∧ (State.updProb s b n f).hist = s.hist ∧ (State.updProb s b n f).ctr = s.ctr ∧
    (State.updProb s b n f).pwr = s.pwr := by
  simp [State.updProb]
@[simp] theorem State.updLarge_keeps (s : State) (g : SolLarge) (n : Nat) (f : SolProb → SolProb) : (State.updLarge s g n f).pending = s.pending ∧
    (State.updLarge s g n f).tags = s.tags ∧ (State.updLarge s g n f).pages = s.pages ∧ (State.updLarge s g n f).clusters = s.clusters ∧
    (State.updLarge s g n f).jobs = s.jobs ∧ (State.updLarge s g n f).hub = s.hub ∧ (State.updLarge s g n f).fab = s.fab ∧
    (State.updLarge s g n f).start = s.start ∧ (State.updLarge s g n f).hist = s.hist ∧ (State.updLarge s g n f).ctr = s.ctr ∧
    (State.updLarge s g n f).pwr = s.pwr := by
  simp [State.updLarge]
@[simp] theorem State.warmOne_keeps (s : State) (c : SolClass) (b : Blk) : (State.warmOne s c b).pending = s.pending ∧
    (State.warmOne s c b).tags = s.tags ∧ (State.warmOne s c b).pages = s.pages ∧ (State.warmOne s c b).clusters = s.clusters ∧
    (State.warmOne s c b).jobs = s.jobs ∧ (State.warmOne s c b).hub = s.hub ∧ (State.warmOne s c b).fab = s.fab ∧
    (State.warmOne s c b).sol = s.sol ∧ (State.warmOne s c b).start = s.start ∧ (State.warmOne s c b).hist = s.hist ∧
    (State.warmOne s c b).ctr = s.ctr ∧ (State.warmOne s c b).pwr = s.pwr := by
  simp [State.warmOne]
@[simp] theorem State.factorProb_keeps (s : State) (x : Site) (c : SolClass) (n : Nat) (b : Blk) : (State.factorProb s x c n b).pending = s.pending ∧
    (State.factorProb s x c n b).tags = s.tags ∧ (State.factorProb s x c n b).pages = s.pages ∧ (State.factorProb s x c n b).hub = s.hub ∧
    (State.factorProb s x c n b).fab = s.fab ∧ (State.factorProb s x c n b).start = s.start ∧ (State.factorProb s x c n b).hist = s.hist ∧
    (State.factorProb s x c n b).ctr = s.ctr ∧ (State.factorProb s x c n b).pwr = s.pwr ∧
    (State.factorProb s x c n b).clusters.length = s.clusters.length := by
  simp [State.factorProb]
@[simp] theorem State.iterProb_keeps (s : State) (x : Site) (c : SolClass) (n : Nat) (b : Blk) : (State.iterProb s x c n b).pending = s.pending ∧
    (State.iterProb s x c n b).tags = s.tags ∧ (State.iterProb s x c n b).pages = s.pages ∧ (State.iterProb s x c n b).clusters = s.clusters ∧
    (State.iterProb s x c n b).jobs = s.jobs ∧ (State.iterProb s x c n b).hub = s.hub ∧ (State.iterProb s x c n b).fab = s.fab ∧
    (State.iterProb s x c n b).sol = s.sol ∧ (State.iterProb s x c n b).start = s.start ∧ (State.iterProb s x c n b).hist = s.hist ∧
    (State.iterProb s x c n b).ctr = s.ctr ∧ (State.iterProb s x c n b).pwr = s.pwr := by
  unfold State.iterProb
  repeat' (first | split | dsimp only)
  all_goals simp
@[simp] theorem State.checkProb_keeps (s : State) (x : Site) (c : SolClass) (n : Nat) (b : Blk) : (State.checkProb s x c n b).pending = s.pending ∧
    (State.checkProb s x c n b).tags = s.tags ∧ (State.checkProb s x c n b).pages = s.pages ∧
    (State.checkProb s x c n b).clusters = s.clusters ∧ (State.checkProb s x c n b).jobs = s.jobs ∧ (State.checkProb s x c n b).hub = s.hub ∧
    (State.checkProb s x c n b).fab = s.fab ∧ (State.checkProb s x c n b).start = s.start ∧ (State.checkProb s x c n b).hist = s.hist ∧
    (State.checkProb s x c n b).ctr = s.ctr ∧ (State.checkProb s x c n b).pwr = s.pwr := by
  simp [State.checkProb]
@[simp] theorem State.finishProb_keeps (s : State) (x : Site) (c : SolClass) (n : Nat) (j : Nat) (b : Blk) :
    (State.finishProb s x c n j b).pending = s.pending ∧
    (State.finishProb s x c n j b).tags = s.tags ∧ (State.finishProb s x c n j b).clusters = s.clusters ∧
    (State.finishProb s x c n j b).jobs = s.jobs ∧ (State.finishProb s x c n j b).start = s.start ∧
    (State.finishProb s x c n j b).hist = s.hist ∧ (State.finishProb s x c n j b).pwr = s.pwr ∧
    (State.finishProb s x c n j b).hub.module = s.hub.module := by
  simp [State.finishProb]
@[simp] theorem State.eachProb_pending (s : State) (x : Site) (p : SolPlan) (k : Nat) (f : State → SolClass → Nat → Nat → Blk → State) (h : ∀ s c i j b, (f s c i j b).pending = s.pending) :
    (s.eachProb x p k f).pending = s.pending := by
  unfold State.eachProb
  split <;> simp [h]
@[simp] theorem State.eachProb_mem (s : State) (x : Site) (p : SolPlan) (k : Nat) (f : State → SolClass → Nat → Nat → Blk → State) (h : ∀ s c i j b, (f s c i j b).mem = s.mem) :
    (s.eachProb x p k f).mem = s.mem := by
  unfold State.eachProb
  split <;> simp [h]
@[simp] theorem State.eachProb_tags (s : State) (x : Site) (p : SolPlan) (k : Nat) (f : State → SolClass → Nat → Nat → Blk → State) (h : ∀ s c i j b, (f s c i j b).tags = s.tags) :
    (s.eachProb x p k f).tags = s.tags := by
  unfold State.eachProb
  split <;> simp [h]
@[simp] theorem State.eachProb_poison (s : State) (x : Site) (p : SolPlan) (k : Nat) (f : State → SolClass → Nat → Nat → Blk → State) (h : ∀ s c i j b, (f s c i j b).poison = s.poison) :
    (s.eachProb x p k f).poison = s.poison := by
  unfold State.eachProb
  split <;> simp [h]
@[simp] theorem State.eachProb_pages (s : State) (x : Site) (p : SolPlan) (k : Nat) (f : State → SolClass → Nat → Nat → Blk → State) (h : ∀ s c i j b, (f s c i j b).pages = s.pages) :
    (s.eachProb x p k f).pages = s.pages := by
  unfold State.eachProb
  split <;> simp [h]
@[simp] theorem State.eachProb_clusters (s : State) (x : Site) (p : SolPlan) (k : Nat) (f : State → SolClass → Nat → Nat → Blk → State) (h : ∀ s c i j b, (f s c i j b).clusters = s.clusters) :
    (s.eachProb x p k f).clusters = s.clusters := by
  unfold State.eachProb
  split <;> simp [h]
@[simp] theorem State.eachProb_jobs (s : State) (x : Site) (p : SolPlan) (k : Nat) (f : State → SolClass → Nat → Nat → Blk → State) (h : ∀ s c i j b, (f s c i j b).jobs = s.jobs) :
    (s.eachProb x p k f).jobs = s.jobs := by
  unfold State.eachProb
  split <;> simp [h]
@[simp] theorem State.eachProb_hub (s : State) (x : Site) (p : SolPlan) (k : Nat) (f : State → SolClass → Nat → Nat → Blk → State) (h : ∀ s c i j b, (f s c i j b).hub = s.hub) :
    (s.eachProb x p k f).hub = s.hub := by
  unfold State.eachProb
  split <;> simp [h]
@[simp] theorem State.eachProb_fab (s : State) (x : Site) (p : SolPlan) (k : Nat) (f : State → SolClass → Nat → Nat → Blk → State) (h : ∀ s c i j b, (f s c i j b).fab = s.fab) :
    (s.eachProb x p k f).fab = s.fab := by
  unfold State.eachProb
  split <;> simp [h]
@[simp] theorem State.eachProb_sol (s : State) (x : Site) (p : SolPlan) (k : Nat) (f : State → SolClass → Nat → Nat → Blk → State) (h : ∀ s c i j b, (f s c i j b).sol = s.sol) :
    (s.eachProb x p k f).sol = s.sol := by
  unfold State.eachProb
  split <;> simp [h]
@[simp] theorem State.eachProb_start (s : State) (x : Site) (p : SolPlan) (k : Nat) (f : State → SolClass → Nat → Nat → Blk → State) (h : ∀ s c i j b, (f s c i j b).start = s.start) :
    (s.eachProb x p k f).start = s.start := by
  unfold State.eachProb
  split <;> simp [h]
@[simp] theorem State.eachProb_hist (s : State) (x : Site) (p : SolPlan) (k : Nat) (f : State → SolClass → Nat → Nat → Blk → State) (h : ∀ s c i j b, (f s c i j b).hist = s.hist) :
    (s.eachProb x p k f).hist = s.hist := by
  unfold State.eachProb
  split <;> simp [h]
@[simp] theorem State.eachProb_ctr (s : State) (x : Site) (p : SolPlan) (k : Nat) (f : State → SolClass → Nat → Nat → Blk → State) (h : ∀ s c i j b, (f s c i j b).ctr = s.ctr) :
    (s.eachProb x p k f).ctr = s.ctr := by
  unfold State.eachProb
  split <;> simp [h]
@[simp] theorem State.eachProb_pwr (s : State) (x : Site) (p : SolPlan) (k : Nat) (f : State → SolClass → Nat → Nat → Blk → State) (h : ∀ s c i j b, (f s c i j b).pwr = s.pwr) :
    (s.eachProb x p k f).pwr = s.pwr := by
  unfold State.eachProb
  split <;> simp [h]
@[simp] theorem State.eachProb_clusters_length (s : State) (x : Site) (p : SolPlan) (k : Nat) (f : State → SolClass → Nat → Nat → Blk → State) (h : ∀ s c i j b, (f s c i j b).clusters.length = s.clusters.length) :
    (s.eachProb x p k f).clusters.length = s.clusters.length := by
  unfold State.eachProb
  split <;> simp [h]
@[simp] theorem State.eachProb_ports_length (s : State) (x : Site) (p : SolPlan) (k : Nat) (f : State → SolClass → Nat → Nat → Blk → State) (h : ∀ s c i j b, (f s c i j b).fab.ports.length = s.fab.ports.length) :
    (s.eachProb x p k f).fab.ports.length = s.fab.ports.length := by
  unfold State.eachProb
  split <;> simp [h]
@[simp] theorem State.eachProb_pcl_length (s : State) (x : Site) (p : SolPlan) (k : Nat) (f : State → SolClass → Nat → Nat → Blk → State) (h : ∀ s c i j b, (f s c i j b).start.pcl.length = s.start.pcl.length) :
    (s.eachProb x p k f).start.pcl.length = s.start.pcl.length := by
  unfold State.eachProb
  split <;> simp [h]
@[simp] theorem State.eachProb_xidx (s : State) (x : Site) (p : SolPlan) (k : Nat) (f : State → SolClass → Nat → Nat → Blk → State) (h : ∀ s c i j b, (f s c i j b).start.flash.xidx = s.start.flash.xidx) :
    (s.eachProb x p k f).start.flash.xidx = s.start.flash.xidx := by
  unfold State.eachProb
  split <;> simp [h]
@[simp] theorem State.eachProb_lc (s : State) (x : Site) (p : SolPlan) (k : Nat) (f : State → SolClass → Nat → Nat → Blk → State) (h : ∀ s c i j b, (f s c i j b).start.lc = s.start.lc) :
    (s.eachProb x p k f).start.lc = s.start.lc := by
  unfold State.eachProb
  split <;> simp [h]
@[simp] theorem State.eachProb_starts (s : State) (x : Site) (p : SolPlan) (k : Nat) (f : State → SolClass → Nat → Nat → Blk → State) (h : ∀ s c i j b, (f s c i j b).start.starts = s.start.starts) :
    (s.eachProb x p k f).start.starts = s.start.starts := by
  unfold State.eachProb
  split <;> simp [h]
@[simp] theorem State.eachProb_module (s : State) (x : Site) (p : SolPlan) (k : Nat) (f : State → SolClass → Nat → Nat → Blk → State) (h : ∀ s c i j b, (f s c i j b).hub.module = s.hub.module) :
    (s.eachProb x p k f).hub.module = s.hub.module := by
  unfold State.eachProb
  split <;> simp [h]
@[simp] theorem State.warmPart_keeps (s : State) (l : Nat) (g : SolLarge) (c : SolClass) : (State.warmPart s l g c).pending = s.pending ∧
    (State.warmPart s l g c).tags = s.tags ∧ (State.warmPart s l g c).pages = s.pages ∧ (State.warmPart s l g c).clusters = s.clusters ∧
    (State.warmPart s l g c).jobs = s.jobs ∧ (State.warmPart s l g c).hub = s.hub ∧ (State.warmPart s l g c).fab = s.fab ∧
    (State.warmPart s l g c).sol = s.sol ∧ (State.warmPart s l g c).start = s.start ∧ (State.warmPart s l g c).hist = s.hist ∧
    (State.warmPart s l g c).ctr = s.ctr ∧ (State.warmPart s l g c).pwr = s.pwr := by
  unfold State.warmPart
  (repeat' split) <;> simp
@[simp] theorem State.factorPart_keeps (s : State) (x : Site) (n : Nat) (g : SolLarge) (c : SolClass) :
    (State.factorPart s x n g c).pending = s.pending ∧
    (State.factorPart s x n g c).tags = s.tags ∧ (State.factorPart s x n g c).pages = s.pages ∧ (State.factorPart s x n g c).hub = s.hub ∧
    (State.factorPart s x n g c).fab = s.fab ∧ (State.factorPart s x n g c).start = s.start ∧ (State.factorPart s x n g c).hist = s.hist ∧
    (State.factorPart s x n g c).ctr = s.ctr ∧ (State.factorPart s x n g c).pwr = s.pwr ∧
    (State.factorPart s x n g c).clusters.length = s.clusters.length := by
  unfold State.factorPart
  (repeat' split) <;> simp
@[simp] theorem State.iterLarge_keeps (s : State) (x : Site) (n : Nat) (g : SolLarge) (c : SolClass) :
    (State.iterLarge s x n g c).pending = s.pending ∧
    (State.iterLarge s x n g c).tags = s.tags ∧ (State.iterLarge s x n g c).pages = s.pages ∧
    (State.iterLarge s x n g c).clusters = s.clusters ∧ (State.iterLarge s x n g c).jobs = s.jobs ∧ (State.iterLarge s x n g c).hub = s.hub ∧
    (State.iterLarge s x n g c).fab = s.fab ∧ (State.iterLarge s x n g c).sol = s.sol ∧ (State.iterLarge s x n g c).start = s.start ∧
    (State.iterLarge s x n g c).hist = s.hist ∧ (State.iterLarge s x n g c).ctr = s.ctr ∧ (State.iterLarge s x n g c).pwr = s.pwr := by
  unfold State.iterLarge
  repeat' (first | split | dsimp only)
  all_goals simp
@[simp] theorem State.checkLarge_keeps (s : State) (x : Site) (n : Nat) (g : SolLarge) (c : SolClass) :
    (State.checkLarge s x n g c).pending = s.pending ∧
    (State.checkLarge s x n g c).tags = s.tags ∧ (State.checkLarge s x n g c).pages = s.pages ∧
    (State.checkLarge s x n g c).clusters = s.clusters ∧ (State.checkLarge s x n g c).jobs = s.jobs ∧ (State.checkLarge s x n g c).hub = s.hub ∧
    (State.checkLarge s x n g c).fab = s.fab ∧ (State.checkLarge s x n g c).start = s.start ∧ (State.checkLarge s x n g c).hist = s.hist ∧
    (State.checkLarge s x n g c).ctr = s.ctr ∧ (State.checkLarge s x n g c).pwr = s.pwr := by
  simp [State.checkLarge]
@[simp] theorem State.finishLarge_keeps (s : State) (x : Site) (n : Nat) (g : SolLarge) (c : SolClass) :
    (State.finishLarge s x n g c).pending = s.pending ∧
    (State.finishLarge s x n g c).tags = s.tags ∧ (State.finishLarge s x n g c).clusters = s.clusters ∧
    (State.finishLarge s x n g c).jobs = s.jobs ∧ (State.finishLarge s x n g c).start = s.start ∧ (State.finishLarge s x n g c).hist = s.hist ∧
    (State.finishLarge s x n g c).pwr = s.pwr ∧ (State.finishLarge s x n g c).fab.ports.length = s.fab.ports.length ∧
    (State.finishLarge s x n g c).hub.module = s.hub.module := by
  simp [State.finishLarge]
@[simp] theorem State.onLarge_pending (s : State) (x : Site) (p : SolPlan) (n : Nat) (lead : Bool) (f : State → SolLarge → SolClass → State) (h : ∀ s g c, (f s g c).pending = s.pending) :
    (s.onLarge x p n lead f).pending = s.pending := by
  unfold State.onLarge
  (repeat' split) <;> simp [h]
@[simp] theorem State.onLarge_mem (s : State) (x : Site) (p : SolPlan) (n : Nat) (lead : Bool) (f : State → SolLarge → SolClass → State) (h : ∀ s g c, (f s g c).mem = s.mem) :
    (s.onLarge x p n lead f).mem = s.mem := by
  unfold State.onLarge
  (repeat' split) <;> simp [h]
@[simp] theorem State.onLarge_tags (s : State) (x : Site) (p : SolPlan) (n : Nat) (lead : Bool) (f : State → SolLarge → SolClass → State) (h : ∀ s g c, (f s g c).tags = s.tags) :
    (s.onLarge x p n lead f).tags = s.tags := by
  unfold State.onLarge
  (repeat' split) <;> simp [h]
@[simp] theorem State.onLarge_poison (s : State) (x : Site) (p : SolPlan) (n : Nat) (lead : Bool) (f : State → SolLarge → SolClass → State) (h : ∀ s g c, (f s g c).poison = s.poison) :
    (s.onLarge x p n lead f).poison = s.poison := by
  unfold State.onLarge
  (repeat' split) <;> simp [h]
@[simp] theorem State.onLarge_pages (s : State) (x : Site) (p : SolPlan) (n : Nat) (lead : Bool) (f : State → SolLarge → SolClass → State) (h : ∀ s g c, (f s g c).pages = s.pages) :
    (s.onLarge x p n lead f).pages = s.pages := by
  unfold State.onLarge
  (repeat' split) <;> simp [h]
@[simp] theorem State.onLarge_clusters (s : State) (x : Site) (p : SolPlan) (n : Nat) (lead : Bool) (f : State → SolLarge → SolClass → State) (h : ∀ s g c, (f s g c).clusters = s.clusters) :
    (s.onLarge x p n lead f).clusters = s.clusters := by
  unfold State.onLarge
  (repeat' split) <;> simp [h]
@[simp] theorem State.onLarge_jobs (s : State) (x : Site) (p : SolPlan) (n : Nat) (lead : Bool) (f : State → SolLarge → SolClass → State) (h : ∀ s g c, (f s g c).jobs = s.jobs) :
    (s.onLarge x p n lead f).jobs = s.jobs := by
  unfold State.onLarge
  (repeat' split) <;> simp [h]
@[simp] theorem State.onLarge_hub (s : State) (x : Site) (p : SolPlan) (n : Nat) (lead : Bool) (f : State → SolLarge → SolClass → State) (h : ∀ s g c, (f s g c).hub = s.hub) :
    (s.onLarge x p n lead f).hub = s.hub := by
  unfold State.onLarge
  (repeat' split) <;> simp [h]
@[simp] theorem State.onLarge_fab (s : State) (x : Site) (p : SolPlan) (n : Nat) (lead : Bool) (f : State → SolLarge → SolClass → State) (h : ∀ s g c, (f s g c).fab = s.fab) :
    (s.onLarge x p n lead f).fab = s.fab := by
  unfold State.onLarge
  (repeat' split) <;> simp [h]
@[simp] theorem State.onLarge_sol (s : State) (x : Site) (p : SolPlan) (n : Nat) (lead : Bool) (f : State → SolLarge → SolClass → State) (h : ∀ s g c, (f s g c).sol = s.sol) :
    (s.onLarge x p n lead f).sol = s.sol := by
  unfold State.onLarge
  (repeat' split) <;> simp [h]
@[simp] theorem State.onLarge_start (s : State) (x : Site) (p : SolPlan) (n : Nat) (lead : Bool) (f : State → SolLarge → SolClass → State) (h : ∀ s g c, (f s g c).start = s.start) :
    (s.onLarge x p n lead f).start = s.start := by
  unfold State.onLarge
  (repeat' split) <;> simp [h]
@[simp] theorem State.onLarge_hist (s : State) (x : Site) (p : SolPlan) (n : Nat) (lead : Bool) (f : State → SolLarge → SolClass → State) (h : ∀ s g c, (f s g c).hist = s.hist) :
    (s.onLarge x p n lead f).hist = s.hist := by
  unfold State.onLarge
  (repeat' split) <;> simp [h]
@[simp] theorem State.onLarge_ctr (s : State) (x : Site) (p : SolPlan) (n : Nat) (lead : Bool) (f : State → SolLarge → SolClass → State) (h : ∀ s g c, (f s g c).ctr = s.ctr) :
    (s.onLarge x p n lead f).ctr = s.ctr := by
  unfold State.onLarge
  (repeat' split) <;> simp [h]
@[simp] theorem State.onLarge_pwr (s : State) (x : Site) (p : SolPlan) (n : Nat) (lead : Bool) (f : State → SolLarge → SolClass → State) (h : ∀ s g c, (f s g c).pwr = s.pwr) :
    (s.onLarge x p n lead f).pwr = s.pwr := by
  unfold State.onLarge
  (repeat' split) <;> simp [h]
@[simp] theorem State.onLarge_clusters_length (s : State) (x : Site) (p : SolPlan) (n : Nat) (lead : Bool) (f : State → SolLarge → SolClass → State) (h : ∀ s g c, (f s g c).clusters.length = s.clusters.length) :
    (s.onLarge x p n lead f).clusters.length = s.clusters.length := by
  unfold State.onLarge
  (repeat' split) <;> simp [h]
@[simp] theorem State.onLarge_ports_length (s : State) (x : Site) (p : SolPlan) (n : Nat) (lead : Bool) (f : State → SolLarge → SolClass → State) (h : ∀ s g c, (f s g c).fab.ports.length = s.fab.ports.length) :
    (s.onLarge x p n lead f).fab.ports.length = s.fab.ports.length := by
  unfold State.onLarge
  (repeat' split) <;> simp [h]
@[simp] theorem State.onLarge_pcl_length (s : State) (x : Site) (p : SolPlan) (n : Nat) (lead : Bool) (f : State → SolLarge → SolClass → State) (h : ∀ s g c, (f s g c).start.pcl.length = s.start.pcl.length) :
    (s.onLarge x p n lead f).start.pcl.length = s.start.pcl.length := by
  unfold State.onLarge
  (repeat' split) <;> simp [h]
@[simp] theorem State.onLarge_xidx (s : State) (x : Site) (p : SolPlan) (n : Nat) (lead : Bool) (f : State → SolLarge → SolClass → State) (h : ∀ s g c, (f s g c).start.flash.xidx = s.start.flash.xidx) :
    (s.onLarge x p n lead f).start.flash.xidx = s.start.flash.xidx := by
  unfold State.onLarge
  (repeat' split) <;> simp [h]
@[simp] theorem State.onLarge_lc (s : State) (x : Site) (p : SolPlan) (n : Nat) (lead : Bool) (f : State → SolLarge → SolClass → State) (h : ∀ s g c, (f s g c).start.lc = s.start.lc) :
    (s.onLarge x p n lead f).start.lc = s.start.lc := by
  unfold State.onLarge
  (repeat' split) <;> simp [h]
@[simp] theorem State.onLarge_starts (s : State) (x : Site) (p : SolPlan) (n : Nat) (lead : Bool) (f : State → SolLarge → SolClass → State) (h : ∀ s g c, (f s g c).start.starts = s.start.starts) :
    (s.onLarge x p n lead f).start.starts = s.start.starts := by
  unfold State.onLarge
  (repeat' split) <;> simp [h]
@[simp] theorem State.onLarge_module (s : State) (x : Site) (p : SolPlan) (n : Nat) (lead : Bool) (f : State → SolLarge → SolClass → State) (h : ∀ s g c, (f s g c).hub.module = s.hub.module) :
    (s.onLarge x p n lead f).hub.module = s.hub.module := by
  unfold State.onLarge
  (repeat' split) <;> simp [h]
@[simp] theorem State.finishCluster_keeps (s : State) (x : Site) (p : SolPlan) : (State.finishCluster s x p).pending = s.pending ∧
    (State.finishCluster s x p).tags = s.tags ∧ (State.finishCluster s x p).clusters = s.clusters ∧ (State.finishCluster s x p).jobs = s.jobs ∧
    (State.finishCluster s x p).start = s.start ∧ (State.finishCluster s x p).hist = s.hist ∧ (State.finishCluster s x p).pwr = s.pwr ∧
    (State.finishCluster s x p).hub.module = s.hub.module := by
  simp [State.finishCluster]
@[simp] theorem State.solWork_keeps (s : State) (x : Site) (p : SolPlan) (o : SolOp) : (State.solWork s x p o).pending = s.pending ∧
    (State.solWork s x p o).tags = s.tags ∧ (State.solWork s x p o).start = s.start ∧ (State.solWork s x p o).hist = s.hist ∧
    (State.solWork s x p o).pwr = s.pwr ∧ (State.solWork s x p o).hub.module = s.hub.module := by
  unfold State.solWork
  (repeat' split) <;> simp
@[simp] theorem State.runSol_keeps (s : State) (x : Site) (o : SolOp) (ev : Ev) : (State.runSol s x o ev).pending = s.pending ∧
    (State.runSol s x o ev).start.pcl.length = s.start.pcl.length ∧ (State.runSol s x o ev).start.flash.xidx = s.start.flash.xidx ∧
    (State.runSol s x o ev).hub.module = s.hub.module := by
  unfold State.runSol
  (repeat' split) <;> simp

/-! ## Curvature -/

@[simp] theorem State.wakeTop_keeps (s : State) (l : Nat) : (State.wakeTop s l).pending = s.pending ∧ (State.wakeTop s l).tags = s.tags ∧
    (State.wakeTop s l).pages = s.pages ∧ (State.wakeTop s l).jobs = s.jobs ∧ (State.wakeTop s l).hub = s.hub ∧
    (State.wakeTop s l).fab = s.fab ∧ (State.wakeTop s l).sol = s.sol ∧ (State.wakeTop s l).start = s.start ∧
    (State.wakeTop s l).hist = s.hist ∧ (State.wakeTop s l).ctr = s.ctr ∧ (State.wakeTop s l).pwr = s.pwr ∧
    (State.wakeTop s l).clusters.length = s.clusters.length := by
  unfold State.wakeTop
  (repeat' split) <;> simp
@[simp] theorem State.topDone_keeps (s : State) (x : Site) : (State.topDone s x).pending = s.pending ∧ (State.topDone s x).tags = s.tags ∧
    (State.topDone s x).pages = s.pages ∧ (State.topDone s x).jobs = s.jobs ∧ (State.topDone s x).hub = s.hub ∧
    (State.topDone s x).fab = s.fab ∧ (State.topDone s x).sol = s.sol ∧ (State.topDone s x).start = s.start ∧
    (State.topDone s x).hist = s.hist ∧ (State.topDone s x).ctr = s.ctr ∧ (State.topDone s x).pwr = s.pwr ∧
    (State.topDone s x).clusters.length = s.clusters.length := by
  simp [State.topDone]
@[simp] theorem State.foldBody_keeps (s : State) (q : TopSite) : (State.foldBody s q).pending = s.pending ∧ (State.foldBody s q).tags = s.tags ∧
    (State.foldBody s q).pages = s.pages ∧ (State.foldBody s q).jobs = s.jobs ∧ (State.foldBody s q).hub = s.hub ∧
    (State.foldBody s q).fab = s.fab ∧ (State.foldBody s q).sol = s.sol ∧ (State.foldBody s q).start = s.start ∧
    (State.foldBody s q).hist = s.hist ∧ (State.foldBody s q).ctr = s.ctr ∧ (State.foldBody s q).pwr = s.pwr ∧
    (State.foldBody s q).clusters.length = s.clusters.length := by
  unfold State.foldBody
  repeat' (first | split | dsimp only)
  all_goals simp
@[simp] theorem State.runFold_keeps (s : State) (q : TopSite) (ev : Ev) : (State.runFold s q ev).pending = s.pending ∧
    (State.runFold s q ev).jobs = s.jobs ∧ (State.runFold s q ev).clusters.length = s.clusters.length ∧
    (State.runFold s q ev).fab.ports.length = s.fab.ports.length ∧ (State.runFold s q ev).start.pcl.length = s.start.pcl.length ∧
    (State.runFold s q ev).start.flash.xidx = s.start.flash.xidx ∧ (State.runFold s q ev).start.starts = s.start.starts ∧
    (State.runFold s q ev).hub.module = s.hub.module := by
  simp [State.runFold]
@[simp] theorem State.exportBody_keeps (s : State) (q : TopSite) (d : Tensor) : (State.exportBody s q d).pending = s.pending ∧
    (State.exportBody s q d).pages = s.pages ∧ (State.exportBody s q d).jobs = s.jobs ∧ (State.exportBody s q d).hub = s.hub ∧
    (State.exportBody s q d).fab = s.fab ∧ (State.exportBody s q d).sol = s.sol ∧ (State.exportBody s q d).start = s.start ∧
    (State.exportBody s q d).hist = s.hist ∧ (State.exportBody s q d).ctr = s.ctr ∧ (State.exportBody s q d).pwr = s.pwr ∧
    (State.exportBody s q d).clusters.length = s.clusters.length := by
  simp [State.exportBody]
@[simp] theorem State.runExport_keeps (s : State) (q : TopSite) (ev : Ev) : (State.runExport s q ev).pending = s.pending ∧
    (State.runExport s q ev).jobs = s.jobs ∧ (State.runExport s q ev).clusters.length = s.clusters.length ∧
    (State.runExport s q ev).fab.ports.length = s.fab.ports.length ∧ (State.runExport s q ev).start.pcl.length = s.start.pcl.length ∧
    (State.runExport s q ev).start.flash.xidx = s.start.flash.xidx ∧ (State.runExport s q ev).start.starts = s.start.starts ∧
    (State.runExport s q ev).hub.module = s.hub.module := by
  unfold State.runExport
  (repeat' split) <;> simp
@[simp] theorem State.dropCarried_keeps (s : State) (k : TaskKey) (slot : Nat) : (State.dropCarried s k slot).pending = s.pending ∧
    (State.dropCarried s k slot).mem = s.mem ∧ (State.dropCarried s k slot).tags = s.tags ∧ (State.dropCarried s k slot).poison = s.poison ∧
    (State.dropCarried s k slot).pages = s.pages ∧ (State.dropCarried s k slot).clusters = s.clusters ∧
    (State.dropCarried s k slot).jobs = s.jobs ∧ (State.dropCarried s k slot).fab = s.fab ∧ (State.dropCarried s k slot).sol = s.sol ∧
    (State.dropCarried s k slot).start = s.start ∧ (State.dropCarried s k slot).hist = s.hist ∧ (State.dropCarried s k slot).ctr = s.ctr ∧
    (State.dropCarried s k slot).pwr = s.pwr ∧ (State.dropCarried s k slot).hub.module = s.hub.module := by
  simp [State.dropCarried]
@[simp] theorem State.refreshBody_keeps (s : State) (q : TopSite) : (State.refreshBody s q).pending = s.pending ∧
    (State.refreshBody s q).tags = s.tags ∧ (State.refreshBody s q).pages = s.pages ∧ (State.refreshBody s q).jobs = s.jobs ∧
    (State.refreshBody s q).fab = s.fab ∧ (State.refreshBody s q).sol = s.sol ∧ (State.refreshBody s q).start = s.start ∧
    (State.refreshBody s q).hist = s.hist ∧ (State.refreshBody s q).ctr = s.ctr ∧ (State.refreshBody s q).pwr = s.pwr ∧
    (State.refreshBody s q).clusters.length = s.clusters.length ∧ (State.refreshBody s q).hub.module = s.hub.module := by
  simp [State.refreshBody]
@[simp] theorem State.runRefresh_keeps (s : State) (q : TopSite) (ev : Ev) : (State.runRefresh s q ev).pending = s.pending ∧
    (State.runRefresh s q ev).jobs = s.jobs ∧ (State.runRefresh s q ev).clusters.length = s.clusters.length ∧
    (State.runRefresh s q ev).fab.ports.length = s.fab.ports.length ∧ (State.runRefresh s q ev).start.pcl.length = s.start.pcl.length ∧
    (State.runRefresh s q ev).start.flash.xidx = s.start.flash.xidx ∧ (State.runRefresh s q ev).start.starts = s.start.starts ∧
    (State.runRefresh s q ev).hub.module = s.hub.module := by
  unfold State.runRefresh
  (repeat' split) <;> simp
@[simp] theorem State.nextBlock_keeps (s : State) (l : Nat) (t : Slot) (r : Refresh) (o : BlockOut) :
    (State.nextBlock s l t r o).pending = s.pending ∧
    (State.nextBlock s l t r o).tags = s.tags ∧ (State.nextBlock s l t r o).pages = s.pages ∧ (State.nextBlock s l t r o).jobs = s.jobs ∧
    (State.nextBlock s l t r o).hub = s.hub ∧ (State.nextBlock s l t r o).fab = s.fab ∧ (State.nextBlock s l t r o).sol = s.sol ∧
    (State.nextBlock s l t r o).start = s.start ∧ (State.nextBlock s l t r o).hist = s.hist ∧ (State.nextBlock s l t r o).ctr = s.ctr ∧
    (State.nextBlock s l t r o).pwr = s.pwr ∧ (State.nextBlock s l t r o).clusters.length = s.clusters.length := by
  simp [State.nextBlock]
@[simp] theorem State.backgroundFault_keeps (s : State) (k : TaskKey) (l : Nat) (f : FaultKind × Nat) :
    (State.backgroundFault s k l f).pending = s.pending ∧
    (State.backgroundFault s k l f).jobs = s.jobs ∧ (State.backgroundFault s k l f).clusters.length = s.clusters.length ∧
    (State.backgroundFault s k l f).fab.ports.length = s.fab.ports.length ∧
    (State.backgroundFault s k l f).start.pcl.length = s.start.pcl.length ∧
    (State.backgroundFault s k l f).start.flash.xidx = s.start.flash.xidx ∧ (State.backgroundFault s k l f).start.starts = s.start.starts ∧
    (State.backgroundFault s k l f).hub.module = s.hub.module := by
  unfold State.backgroundFault
  (repeat' split) <;> simp
@[simp] theorem State.background_keeps (s : State) (l : Nat) (ev : Ev) : (State.background s l ev).pending = s.pending ∧
    (State.background s l ev).jobs = s.jobs ∧ (State.background s l ev).clusters.length = s.clusters.length ∧
    (State.background s l ev).fab.ports.length = s.fab.ports.length ∧ (State.background s l ev).start.pcl.length = s.start.pcl.length ∧
    (State.background s l ev).start.flash.xidx = s.start.flash.xidx ∧ (State.background s l ev).start.starts = s.start.starts ∧
    (State.background s l ev).hub.module = s.hub.module := by
  unfold State.background
  repeat' (first | split | dsimp only)
  all_goals simp
@[simp] theorem State.factorBody_keeps (s : State) (q : TopSite) (a : Tensor) : (State.factorBody s q a).pending = s.pending ∧
    (State.factorBody s q a).tags = s.tags ∧ (State.factorBody s q a).pages = s.pages ∧ (State.factorBody s q a).hub = s.hub ∧
    (State.factorBody s q a).fab = s.fab ∧ (State.factorBody s q a).sol = s.sol ∧ (State.factorBody s q a).start = s.start ∧
    (State.factorBody s q a).hist = s.hist ∧ (State.factorBody s q a).ctr = s.ctr ∧ (State.factorBody s q a).pwr = s.pwr ∧
    (State.factorBody s q a).clusters.length = s.clusters.length := by
  simp [State.factorBody]
@[simp] theorem State.runFactor_keeps (s : State) (q : TopSite) (ev : Ev) : (State.runFactor s q ev).pending = s.pending ∧
    (State.runFactor s q ev).clusters.length = s.clusters.length ∧ (State.runFactor s q ev).fab.ports.length = s.fab.ports.length ∧
    (State.runFactor s q ev).start.pcl.length = s.start.pcl.length ∧ (State.runFactor s q ev).start.flash.xidx = s.start.flash.xidx ∧
    (State.runFactor s q ev).start.starts = s.start.starts ∧ (State.runFactor s q ev).hub.module = s.hub.module := by
  unfold State.runFactor
  (repeat' split) <;> simp
@[simp] theorem State.solveBody_keeps (s : State) (q : TopSite) (a : Tensor) (d : Tensor) : (State.solveBody s q a d).pending = s.pending ∧
    (State.solveBody s q a d).pages = s.pages ∧ (State.solveBody s q a d).jobs = s.jobs ∧ (State.solveBody s q a d).hub = s.hub ∧
    (State.solveBody s q a d).fab = s.fab ∧ (State.solveBody s q a d).sol = s.sol ∧ (State.solveBody s q a d).start = s.start ∧
    (State.solveBody s q a d).hist = s.hist ∧ (State.solveBody s q a d).ctr = s.ctr ∧ (State.solveBody s q a d).pwr = s.pwr ∧
    (State.solveBody s q a d).clusters.length = s.clusters.length := by
  simp [State.solveBody]
@[simp] theorem State.runSolve_keeps (s : State) (q : TopSite) (ev : Ev) : (State.runSolve s q ev).pending = s.pending ∧
    (State.runSolve s q ev).jobs = s.jobs ∧ (State.runSolve s q ev).clusters.length = s.clusters.length ∧
    (State.runSolve s q ev).fab.ports.length = s.fab.ports.length ∧ (State.runSolve s q ev).start.pcl.length = s.start.pcl.length ∧
    (State.runSolve s q ev).start.flash.xidx = s.start.flash.xidx ∧ (State.runSolve s q ev).start.starts = s.start.starts ∧
    (State.runSolve s q ev).hub.module = s.hub.module := by
  unfold State.runSolve
  (repeat' split) <;> simp

/-! ## Movement -/

@[simp] theorem State.countFetch_keeps (s : State) (l : Nat) (rd : Nat) (wr : Nat) (req : Nat) :
    (State.countFetch s l rd wr req).pending = s.pending ∧
    (State.countFetch s l rd wr req).mem = s.mem ∧ (State.countFetch s l rd wr req).tags = s.tags ∧
    (State.countFetch s l rd wr req).poison = s.poison ∧ (State.countFetch s l rd wr req).pages = s.pages ∧
    (State.countFetch s l rd wr req).jobs = s.jobs ∧ (State.countFetch s l rd wr req).hub = s.hub ∧
    (State.countFetch s l rd wr req).fab = s.fab ∧ (State.countFetch s l rd wr req).sol = s.sol ∧
    (State.countFetch s l rd wr req).start = s.start ∧ (State.countFetch s l rd wr req).hist = s.hist ∧
    (State.countFetch s l rd wr req).ctr = s.ctr ∧ (State.countFetch s l rd wr req).pwr = s.pwr ∧
    (State.countFetch s l rd wr req).clusters.length = s.clusters.length := by
  simp [State.countFetch]
@[simp] theorem State.streamBody_keeps (s : State) (x : Site) (slot : Nat) (es : List Extent) : (State.streamBody s x slot es).pending = s.pending ∧
    (State.streamBody s x slot es).jobs = s.jobs ∧ (State.streamBody s x slot es).hub = s.hub ∧ (State.streamBody s x slot es).fab = s.fab ∧
    (State.streamBody s x slot es).sol = s.sol ∧ (State.streamBody s x slot es).start = s.start ∧ (State.streamBody s x slot es).hist = s.hist ∧
    (State.streamBody s x slot es).ctr = s.ctr ∧ (State.streamBody s x slot es).pwr = s.pwr ∧
    (State.streamBody s x slot es).clusters.length = s.clusters.length := by
  simp [State.streamBody]
@[simp] theorem State.runStream_keeps (s : State) (x : Site) (ev : Ev) : (State.runStream s x ev).pending = s.pending ∧
    (State.runStream s x ev).jobs = s.jobs ∧ (State.runStream s x ev).clusters.length = s.clusters.length ∧
    (State.runStream s x ev).fab.ports.length = s.fab.ports.length ∧ (State.runStream s x ev).start.pcl.length = s.start.pcl.length ∧
    (State.runStream s x ev).start.flash.xidx = s.start.flash.xidx ∧ (State.runStream s x ev).start.starts = s.start.starts ∧
    (State.runStream s x ev).hub.module = s.hub.module := by
  unfold State.runStream
  (repeat' split) <;> simp
@[simp] theorem State.copyBody_keeps (s : State) (x : Site) (a : Tensor) (d : Tensor) : (State.copyBody s x a d).pending = s.pending ∧
    (State.copyBody s x a d).jobs = s.jobs ∧ (State.copyBody s x a d).hub = s.hub ∧ (State.copyBody s x a d).fab = s.fab ∧
    (State.copyBody s x a d).sol = s.sol ∧ (State.copyBody s x a d).start = s.start ∧ (State.copyBody s x a d).hist = s.hist ∧
    (State.copyBody s x a d).ctr = s.ctr ∧ (State.copyBody s x a d).pwr = s.pwr ∧
    (State.copyBody s x a d).clusters.length = s.clusters.length := by
  simp [State.copyBody]
@[simp] theorem State.runCopy_keeps (s : State) (x : Site) (ev : Ev) : (State.runCopy s x ev).pending = s.pending ∧
    (State.runCopy s x ev).jobs = s.jobs ∧ (State.runCopy s x ev).clusters.length = s.clusters.length ∧
    (State.runCopy s x ev).fab.ports.length = s.fab.ports.length ∧ (State.runCopy s x ev).start.pcl.length = s.start.pcl.length ∧
    (State.runCopy s x ev).start.flash.xidx = s.start.flash.xidx ∧ (State.runCopy s x ev).start.starts = s.start.starts ∧
    (State.runCopy s x ev).hub.module = s.hub.module := by
  unfold State.runCopy
  (repeat' split) <;> simp
@[simp] theorem State.sendSome_keeps (s : State) (x : Site) (ps : List SendPiece) : (s.sendSome x ps).1.pending = s.pending ∧
    (s.sendSome x ps).1.mem = s.mem ∧ (s.sendSome x ps).1.tags = s.tags ∧ (s.sendSome x ps).1.poison = s.poison ∧
    (s.sendSome x ps).1.pages = s.pages ∧ (s.sendSome x ps).1.jobs = s.jobs ∧ (s.sendSome x ps).1.sol = s.sol ∧
    (s.sendSome x ps).1.start = s.start ∧ (s.sendSome x ps).1.hist = s.hist ∧ (s.sendSome x ps).1.pwr = s.pwr ∧
    (s.sendSome x ps).1.clusters.length = s.clusters.length ∧ (s.sendSome x ps).1.hub = s.hub ∧
    (s.sendSome x ps).1.fab.ports.length = s.fab.ports.length := by
  induction ps generalizing s with
  | nil => simp [State.sendSome]
  | cons p ps ih =>
    unfold State.sendSome
    split
    · have h := State.request_keeps ‹_›
      simp [ih, h]
    · simp
@[simp] theorem State.sendBody_keeps (s : State) (x : Site) (bad : List Nat) : (State.sendBody s x bad).pending = s.pending ∧
    (State.sendBody s x bad).mem = s.mem ∧ (State.sendBody s x bad).tags = s.tags ∧ (State.sendBody s x bad).poison = s.poison ∧
    (State.sendBody s x bad).pages = s.pages ∧ (State.sendBody s x bad).jobs = s.jobs ∧ (State.sendBody s x bad).hub = s.hub ∧
    (State.sendBody s x bad).sol = s.sol ∧ (State.sendBody s x bad).start = s.start ∧ (State.sendBody s x bad).hist = s.hist ∧
    (State.sendBody s x bad).pwr = s.pwr ∧ (State.sendBody s x bad).clusters.length = s.clusters.length ∧
    (State.sendBody s x bad).fab.ports.length = s.fab.ports.length := by
  unfold State.sendBody
  dsimp only
  split <;> simp
@[simp] theorem State.runSend_keeps (s : State) (x : Site) (ev : Ev) : (State.runSend s x ev).pending = s.pending ∧
    (State.runSend s x ev).jobs = s.jobs ∧ (State.runSend s x ev).clusters.length = s.clusters.length ∧
    (State.runSend s x ev).fab.ports.length = s.fab.ports.length ∧ (State.runSend s x ev).start.pcl.length = s.start.pcl.length ∧
    (State.runSend s x ev).start.flash.xidx = s.start.flash.xidx ∧ (State.runSend s x ev).start.starts = s.start.starts ∧
    (State.runSend s x ev).hub.module = s.hub.module := by
  unfold State.runSend
  (repeat' split) <;> simp

/-! ## Groups -/

@[simp] theorem State.groupSend_keeps (s : State) (l : Nat) (ctx : Nat) (dst : Nat) (b : Body) : (State.groupSend s l ctx dst b).pending = s.pending ∧
    (State.groupSend s l ctx dst b).mem = s.mem ∧ (State.groupSend s l ctx dst b).tags = s.tags ∧
    (State.groupSend s l ctx dst b).poison = s.poison ∧ (State.groupSend s l ctx dst b).pages = s.pages ∧
    (State.groupSend s l ctx dst b).jobs = s.jobs ∧ (State.groupSend s l ctx dst b).hub = s.hub ∧ (State.groupSend s l ctx dst b).sol = s.sol ∧
    (State.groupSend s l ctx dst b).start = s.start ∧ (State.groupSend s l ctx dst b).hist = s.hist ∧
    (State.groupSend s l ctx dst b).pwr = s.pwr ∧ (State.groupSend s l ctx dst b).clusters.length = s.clusters.length ∧
    (State.groupSend s l ctx dst b).fab.ports.length = s.fab.ports.length := by
  simp [State.groupSend]
@[simp] theorem State.keepEarly_keeps (s : State) (k : TaskKey) (l : Nat) (desc : Nat) (occ : Nat) (m : Msg) :
    (State.keepEarly s k l desc occ m).pending = s.pending ∧
    (State.keepEarly s k l desc occ m).tags = s.tags ∧ (State.keepEarly s k l desc occ m).pages = s.pages ∧
    (State.keepEarly s k l desc occ m).jobs = s.jobs ∧ (State.keepEarly s k l desc occ m).fab = s.fab ∧
    (State.keepEarly s k l desc occ m).sol = s.sol ∧ (State.keepEarly s k l desc occ m).start = s.start ∧
    (State.keepEarly s k l desc occ m).hist = s.hist ∧ (State.keepEarly s k l desc occ m).ctr = s.ctr ∧
    (State.keepEarly s k l desc occ m).pwr = s.pwr ∧ (State.keepEarly s k l desc occ m).clusters.length = s.clusters.length ∧
    (State.keepEarly s k l desc occ m).hub.module = s.hub.module := by
  unfold State.keepEarly
  (repeat' split) <;> simp
@[simp] theorem State.groupTake_pending (s : State) (rx : Rx) (op : Opcode) (desc occ : Nat) (b : Body) (take : State → Nat → Option State) (h : ∀ s l t, take s l = some t → t.pending = s.pending) :
    (s.groupTake rx op desc occ b take).pending = s.pending := by
  unfold State.groupTake
  repeat' (first | split | dsimp only)
  all_goals (try simp)
  rename_i _ hq
  split at hq
  · simpa using h _ _ _ hq
  · cases hq
@[simp] theorem State.groupTake_tags (s : State) (rx : Rx) (op : Opcode) (desc occ : Nat) (b : Body) (take : State → Nat → Option State) (h : ∀ s l t, take s l = some t → t.tags = s.tags) :
    (s.groupTake rx op desc occ b take).tags = s.tags := by
  unfold State.groupTake
  repeat' (first | split | dsimp only)
  all_goals (try simp)
  rename_i _ hq
  split at hq
  · simpa using h _ _ _ hq
  · cases hq
@[simp] theorem State.groupTake_pages (s : State) (rx : Rx) (op : Opcode) (desc occ : Nat) (b : Body) (take : State → Nat → Option State) (h : ∀ s l t, take s l = some t → t.pages = s.pages) :
    (s.groupTake rx op desc occ b take).pages = s.pages := by
  unfold State.groupTake
  repeat' (first | split | dsimp only)
  all_goals (try simp)
  rename_i _ hq
  split at hq
  · simpa using h _ _ _ hq
  · cases hq
@[simp] theorem State.groupTake_jobs (s : State) (rx : Rx) (op : Opcode) (desc occ : Nat) (b : Body) (take : State → Nat → Option State) (h : ∀ s l t, take s l = some t → t.jobs = s.jobs) :
    (s.groupTake rx op desc occ b take).jobs = s.jobs := by
  unfold State.groupTake
  repeat' (first | split | dsimp only)
  all_goals (try simp)
  rename_i _ hq
  split at hq
  · simpa using h _ _ _ hq
  · cases hq
@[simp] theorem State.groupTake_fab (s : State) (rx : Rx) (op : Opcode) (desc occ : Nat) (b : Body) (take : State → Nat → Option State) (h : ∀ s l t, take s l = some t → t.fab = s.fab) :
    (s.groupTake rx op desc occ b take).fab = s.fab := by
  unfold State.groupTake
  repeat' (first | split | dsimp only)
  all_goals (try simp)
  rename_i _ hq
  split at hq
  · simpa using h _ _ _ hq
  · cases hq
@[simp] theorem State.groupTake_sol (s : State) (rx : Rx) (op : Opcode) (desc occ : Nat) (b : Body) (take : State → Nat → Option State) (h : ∀ s l t, take s l = some t → t.sol = s.sol) :
    (s.groupTake rx op desc occ b take).sol = s.sol := by
  unfold State.groupTake
  repeat' (first | split | dsimp only)
  all_goals (try simp)
  rename_i _ hq
  split at hq
  · simpa using h _ _ _ hq
  · cases hq
@[simp] theorem State.groupTake_start (s : State) (rx : Rx) (op : Opcode) (desc occ : Nat) (b : Body) (take : State → Nat → Option State) (h : ∀ s l t, take s l = some t → t.start = s.start) :
    (s.groupTake rx op desc occ b take).start = s.start := by
  unfold State.groupTake
  repeat' (first | split | dsimp only)
  all_goals (try simp)
  rename_i _ hq
  split at hq
  · simpa using h _ _ _ hq
  · cases hq
@[simp] theorem State.groupTake_hist (s : State) (rx : Rx) (op : Opcode) (desc occ : Nat) (b : Body) (take : State → Nat → Option State) (h : ∀ s l t, take s l = some t → t.hist = s.hist) :
    (s.groupTake rx op desc occ b take).hist = s.hist := by
  unfold State.groupTake
  repeat' (first | split | dsimp only)
  all_goals (try simp)
  rename_i _ hq
  split at hq
  · simpa using h _ _ _ hq
  · cases hq
@[simp] theorem State.groupTake_pwr (s : State) (rx : Rx) (op : Opcode) (desc occ : Nat) (b : Body) (take : State → Nat → Option State) (h : ∀ s l t, take s l = some t → t.pwr = s.pwr) :
    (s.groupTake rx op desc occ b take).pwr = s.pwr := by
  unfold State.groupTake
  repeat' (first | split | dsimp only)
  all_goals (try simp)
  rename_i _ hq
  split at hq
  · simpa using h _ _ _ hq
  · cases hq
@[simp] theorem State.groupTake_clusters_length (s : State) (rx : Rx) (op : Opcode) (desc occ : Nat) (b : Body) (take : State → Nat → Option State) (h : ∀ s l t, take s l = some t → t.clusters.length = s.clusters.length) :
    (s.groupTake rx op desc occ b take).clusters.length = s.clusters.length := by
  unfold State.groupTake
  repeat' (first | split | dsimp only)
  all_goals (try simp)
  rename_i _ hq
  split at hq
  · simpa using h _ _ _ hq
  · cases hq
@[simp] theorem State.groupTake_module (s : State) (rx : Rx) (op : Opcode) (desc occ : Nat) (b : Body) (take : State → Nat → Option State) (h : ∀ s l t, take s l = some t → t.hub.module = s.hub.module) :
    (s.groupTake rx op desc occ b take).hub.module = s.hub.module := by
  unfold State.groupTake
  repeat' (first | split | dsimp only)
  all_goals (try simp)
  rename_i _ hq
  split at hq
  · simpa using h _ _ _ hq
  · cases hq
@[simp] theorem State.groupTake_ports_length (s : State) (rx : Rx) (op : Opcode) (desc occ : Nat) (b : Body) (take : State → Nat → Option State) (h : ∀ s l t, take s l = some t → t.fab.ports.length = s.fab.ports.length) :
    (s.groupTake rx op desc occ b take).fab.ports.length = s.fab.ports.length := by
  unfold State.groupTake
  repeat' (first | split | dsimp only)
  all_goals (try simp)
  rename_i _ hq
  split at hq
  · simpa using h _ _ _ hq
  · cases hq
@[simp] theorem State.groupTake_pcl_length (s : State) (rx : Rx) (op : Opcode) (desc occ : Nat) (b : Body) (take : State → Nat → Option State) (h : ∀ s l t, take s l = some t → t.start.pcl.length = s.start.pcl.length) :
    (s.groupTake rx op desc occ b take).start.pcl.length = s.start.pcl.length := by
  unfold State.groupTake
  repeat' (first | split | dsimp only)
  all_goals (try simp)
  rename_i _ hq
  split at hq
  · simpa using h _ _ _ hq
  · cases hq
@[simp] theorem State.groupTake_xidx (s : State) (rx : Rx) (op : Opcode) (desc occ : Nat) (b : Body) (take : State → Nat → Option State) (h : ∀ s l t, take s l = some t → t.start.flash.xidx = s.start.flash.xidx) :
    (s.groupTake rx op desc occ b take).start.flash.xidx = s.start.flash.xidx := by
  unfold State.groupTake
  repeat' (first | split | dsimp only)
  all_goals (try simp)
  rename_i _ hq
  split at hq
  · simpa using h _ _ _ hq
  · cases hq
@[simp] theorem State.groupTake_lc (s : State) (rx : Rx) (op : Opcode) (desc occ : Nat) (b : Body) (take : State → Nat → Option State) (h : ∀ s l t, take s l = some t → t.start.lc = s.start.lc) :
    (s.groupTake rx op desc occ b take).start.lc = s.start.lc := by
  unfold State.groupTake
  repeat' (first | split | dsimp only)
  all_goals (try simp)
  rename_i _ hq
  split at hq
  · simpa using h _ _ _ hq
  · cases hq
@[simp] theorem State.groupTake_starts (s : State) (rx : Rx) (op : Opcode) (desc occ : Nat) (b : Body) (take : State → Nat → Option State) (h : ∀ s l t, take s l = some t → t.start.starts = s.start.starts) :
    (s.groupTake rx op desc occ b take).start.starts = s.start.starts := by
  unfold State.groupTake
  repeat' (first | split | dsimp only)
  all_goals (try simp)
  rename_i _ hq
  split at hq
  · simpa using h _ _ _ hq
  · cases hq
@[simp] theorem State.collSend_keeps (s : State) (x : Site) (c : Coll) (ms : List (Nat × Body)) : (State.collSend s x c ms).pending = s.pending ∧
    (State.collSend s x c ms).mem = s.mem ∧ (State.collSend s x c ms).tags = s.tags ∧ (State.collSend s x c ms).poison = s.poison ∧
    (State.collSend s x c ms).pages = s.pages ∧ (State.collSend s x c ms).jobs = s.jobs ∧ (State.collSend s x c ms).hub = s.hub ∧
    (State.collSend s x c ms).sol = s.sol ∧ (State.collSend s x c ms).start = s.start ∧ (State.collSend s x c ms).hist = s.hist ∧
    (State.collSend s x c ms).pwr = s.pwr ∧ (State.collSend s x c ms).clusters.length = s.clusters.length ∧
    (State.collSend s x c ms).fab.ports.length = s.fab.ports.length := by
  simp [State.collSend]
@[simp] theorem State.finishColl_keeps (s : State) (x : Site) (r : RedDesc) (a : Tensor) (d : Tensor) (c : Coll) :
    (State.finishColl s x r a d c).pending = s.pending ∧
    (State.finishColl s x r a d c).pages = s.pages ∧ (State.finishColl s x r a d c).jobs = s.jobs ∧ (State.finishColl s x r a d c).hub = s.hub ∧
    (State.finishColl s x r a d c).fab = s.fab ∧ (State.finishColl s x r a d c).sol = s.sol ∧ (State.finishColl s x r a d c).start = s.start ∧
    (State.finishColl s x r a d c).hist = s.hist ∧ (State.finishColl s x r a d c).ctr = s.ctr ∧ (State.finishColl s x r a d c).pwr = s.pwr ∧
    (State.finishColl s x r a d c).clusters.length = s.clusters.length := by
  unfold State.finishColl
  (repeat' split) <;> simp
@[simp] theorem State.settleColl_keeps (s : State) (x : Site) (c : Coll) : (State.settleColl s x c).pending = s.pending ∧
    (State.settleColl s x c).pages = s.pages ∧ (State.settleColl s x c).jobs = s.jobs ∧ (State.settleColl s x c).hub = s.hub ∧
    (State.settleColl s x c).fab = s.fab ∧ (State.settleColl s x c).sol = s.sol ∧ (State.settleColl s x c).start = s.start ∧
    (State.settleColl s x c).hist = s.hist ∧ (State.settleColl s x c).ctr = s.ctr ∧ (State.settleColl s x c).pwr = s.pwr ∧
    (State.settleColl s x c).clusters.length = s.clusters.length := by
  unfold State.settleColl
  (repeat' split) <;> simp
@[simp] theorem State.stagePart_keeps (s : State) (x : Site) (c : Coll) (b : Body) : (State.stagePart s x c b).pending = s.pending ∧
    (State.stagePart s x c b).tags = s.tags ∧ (State.stagePart s x c b).pages = s.pages ∧ (State.stagePart s x c b).clusters = s.clusters ∧
    (State.stagePart s x c b).jobs = s.jobs ∧ (State.stagePart s x c b).hub = s.hub ∧ (State.stagePart s x c b).fab = s.fab ∧
    (State.stagePart s x c b).sol = s.sol ∧ (State.stagePart s x c b).start = s.start ∧ (State.stagePart s x c b).hist = s.hist ∧
    (State.stagePart s x c b).ctr = s.ctr ∧ (State.stagePart s x c b).pwr = s.pwr := by
  unfold State.stagePart
  (repeat' split) <;> simp
@[simp] theorem State.stepColl_keeps (s : State) (l desc occ : Nat) (b : Body) : ((s.stepColl l desc occ b).getD s).pending = s.pending ∧
    ((s.stepColl l desc occ b).getD s).pages = s.pages ∧ ((s.stepColl l desc occ b).getD s).jobs = s.jobs ∧
    ((s.stepColl l desc occ b).getD s).hub = s.hub ∧ ((s.stepColl l desc occ b).getD s).sol = s.sol ∧
    ((s.stepColl l desc occ b).getD s).start = s.start ∧ ((s.stepColl l desc occ b).getD s).hist = s.hist ∧
    ((s.stepColl l desc occ b).getD s).pwr = s.pwr ∧ ((s.stepColl l desc occ b).getD s).clusters.length = s.clusters.length ∧
    ((s.stepColl l desc occ b).getD s).fab.ports.length = s.fab.ports.length := by
  unfold State.stepColl
  cases s.collAt l desc occ <;> simp
theorem State.stepColl_some {s : State} {l desc occ : Nat} {b : Body} {t : State} (h : s.stepColl l desc occ b = some t) : t.pending = s.pending ∧
    t.pages = s.pages ∧ t.jobs = s.jobs ∧ t.hub = s.hub ∧ t.sol = s.sol ∧ t.start = s.start ∧ t.hist = s.hist ∧ t.pwr = s.pwr ∧
    t.clusters.length = s.clusters.length ∧ t.fab.ports.length = s.fab.ports.length := by
  have := State.stepColl_keeps s l desc occ b
  simpa [h] using this
@[simp] theorem State.takeEarly_keeps (s : State) (l : Nat) (desc : Nat) (occ : Nat) : ((State.takeEarly s l desc occ).1).pending = s.pending ∧
    ((State.takeEarly s l desc occ).1).mem = s.mem ∧ ((State.takeEarly s l desc occ).1).tags = s.tags ∧
    ((State.takeEarly s l desc occ).1).poison = s.poison ∧ ((State.takeEarly s l desc occ).1).pages = s.pages ∧
    ((State.takeEarly s l desc occ).1).jobs = s.jobs ∧ ((State.takeEarly s l desc occ).1).hub = s.hub ∧
    ((State.takeEarly s l desc occ).1).fab = s.fab ∧ ((State.takeEarly s l desc occ).1).sol = s.sol ∧
    ((State.takeEarly s l desc occ).1).start = s.start ∧ ((State.takeEarly s l desc occ).1).hist = s.hist ∧
    ((State.takeEarly s l desc occ).1).ctr = s.ctr ∧ ((State.takeEarly s l desc occ).1).pwr = s.pwr ∧
    ((State.takeEarly s l desc occ).1).clusters.length = s.clusters.length := by
  simp [State.takeEarly]
@[simp] theorem State.startColl_keeps (s : State) (x : Site) (r : RedDesc) (a : Tensor) (d : Tensor) :
    (State.startColl s x r a d).pending = s.pending ∧
    (State.startColl s x r a d).pages = s.pages ∧ (State.startColl s x r a d).jobs = s.jobs ∧ (State.startColl s x r a d).hub = s.hub ∧
    (State.startColl s x r a d).sol = s.sol ∧ (State.startColl s x r a d).start = s.start ∧ (State.startColl s x r a d).hist = s.hist ∧
    (State.startColl s x r a d).pwr = s.pwr ∧ (State.startColl s x r a d).clusters.length = s.clusters.length ∧
    (State.startColl s x r a d).fab.ports.length = s.fab.ports.length := by
  unfold State.startColl
  extract_lets c q s1 s2 s3 e
  have h1 : e.1.pending = s.pending ∧ e.1.pages = s.pages ∧ e.1.jobs = s.jobs ∧ e.1.hub = s.hub ∧ e.1.sol = s.sol ∧ e.1.start = s.start ∧
      e.1.hist = s.hist ∧ e.1.pwr = s.pwr ∧ e.1.clusters.length = s.clusters.length ∧
      e.1.fab.ports.length = s.fab.ports.length := by simp [e, s3, s2, s1]
  clear_value e
  refine ⟨?_, ?_, ?_, ?_, ?_, ?_, ?_, ?_, ?_, ?_⟩
  all_goals simp [h1]
@[simp] theorem State.runColl_keeps (s : State) (x : Site) (ev : Ev) : (State.runColl s x ev).pending = s.pending ∧
    (State.runColl s x ev).jobs = s.jobs ∧ (State.runColl s x ev).clusters.length = s.clusters.length ∧
    (State.runColl s x ev).fab.ports.length = s.fab.ports.length ∧ (State.runColl s x ev).start.pcl.length = s.start.pcl.length ∧
    (State.runColl s x ev).start.flash.xidx = s.start.flash.xidx ∧ (State.runColl s x ev).start.starts = s.start.starts ∧
    (State.runColl s x ev).hub.module = s.hub.module := by
  unfold State.runColl
  (repeat' split) <;> simp
@[simp] theorem State.answerExch_keeps (s : State) (x : Site) (a : Tensor) (d : Tensor) (e : Exch) :
    ((State.answerExch s x a d e).1).pending = s.pending ∧
    ((State.answerExch s x a d e).1).mem = s.mem ∧ ((State.answerExch s x a d e).1).tags = s.tags ∧
    ((State.answerExch s x a d e).1).poison = s.poison ∧ ((State.answerExch s x a d e).1).pages = s.pages ∧
    ((State.answerExch s x a d e).1).jobs = s.jobs ∧ ((State.answerExch s x a d e).1).hub = s.hub ∧
    ((State.answerExch s x a d e).1).sol = s.sol ∧ ((State.answerExch s x a d e).1).start = s.start ∧
    ((State.answerExch s x a d e).1).hist = s.hist ∧ ((State.answerExch s x a d e).1).pwr = s.pwr ∧
    ((State.answerExch s x a d e).1).clusters.length = s.clusters.length ∧
    ((State.answerExch s x a d e).1).fab.ports.length = s.fab.ports.length := by
  unfold State.answerExch
  (repeat' split) <;> simp
@[simp] theorem State.writePlaces_keeps (s : State) (x : Site) (e : Exch) : ((State.writePlaces s x e).1).pending = s.pending ∧
    ((State.writePlaces s x e).1).pages = s.pages ∧ ((State.writePlaces s x e).1).clusters = s.clusters ∧
    ((State.writePlaces s x e).1).jobs = s.jobs ∧ ((State.writePlaces s x e).1).hub = s.hub ∧ ((State.writePlaces s x e).1).fab = s.fab ∧
    ((State.writePlaces s x e).1).sol = s.sol ∧ ((State.writePlaces s x e).1).start = s.start ∧ ((State.writePlaces s x e).1).hist = s.hist ∧
    ((State.writePlaces s x e).1).ctr = s.ctr ∧ ((State.writePlaces s x e).1).pwr = s.pwr := by
  unfold State.writePlaces
  (repeat' split) <;> simp
@[simp] theorem State.sendRows_keeps (s : State) (x : Site) (ps : List (Nat × Nat × Nat × Nat)) : (s.sendRows x ps).1.pending = s.pending ∧
    (s.sendRows x ps).1.mem = s.mem ∧ (s.sendRows x ps).1.tags = s.tags ∧ (s.sendRows x ps).1.poison = s.poison ∧
    (s.sendRows x ps).1.pages = s.pages ∧ (s.sendRows x ps).1.jobs = s.jobs ∧ (s.sendRows x ps).1.sol = s.sol ∧
    (s.sendRows x ps).1.start = s.start ∧ (s.sendRows x ps).1.hist = s.hist ∧ (s.sendRows x ps).1.pwr = s.pwr ∧
    (s.sendRows x ps).1.clusters.length = s.clusters.length ∧ (s.sendRows x ps).1.hub = s.hub ∧
    (s.sendRows x ps).1.fab.ports.length = s.fab.ports.length := by
  induction ps generalizing s with
  | nil => simp [State.sendRows]
  | cons p ps ih =>
    unfold State.sendRows
    split
    · have h := State.request_keeps ‹_›
      simp [ih, h]
    · simp
@[simp] theorem State.settleExch_keeps (s : State) (x : Site) (a : Tensor) (d : Tensor) (e : Exch) :
    (State.settleExch s x a d e).pending = s.pending ∧
    (State.settleExch s x a d e).pages = s.pages ∧ (State.settleExch s x a d e).jobs = s.jobs ∧ (State.settleExch s x a d e).hub = s.hub ∧
    (State.settleExch s x a d e).sol = s.sol ∧ (State.settleExch s x a d e).start = s.start ∧ (State.settleExch s x a d e).hist = s.hist ∧
    (State.settleExch s x a d e).pwr = s.pwr ∧ (State.settleExch s x a d e).clusters.length = s.clusters.length ∧
    (State.settleExch s x a d e).fab.ports.length = s.fab.ports.length := by
  simp [State.settleExch]
@[simp] theorem State.zeroRows_keeps (s : State) (e : Exch) (d : Tensor) : (State.zeroRows s e d).pending = s.pending ∧
    (State.zeroRows s e d).pages = s.pages ∧ (State.zeroRows s e d).clusters = s.clusters ∧ (State.zeroRows s e d).jobs = s.jobs ∧
    (State.zeroRows s e d).hub = s.hub ∧ (State.zeroRows s e d).fab = s.fab ∧ (State.zeroRows s e d).sol = s.sol ∧
    (State.zeroRows s e d).start = s.start ∧ (State.zeroRows s e d).hist = s.hist ∧ (State.zeroRows s e d).ctr = s.ctr ∧
    (State.zeroRows s e d).pwr = s.pwr := by
  unfold State.zeroRows
  repeat' (first | split | dsimp only)
  all_goals (repeat' apply And.intro)
  all_goals (try simp; done)
  all_goals ((first | apply foldl_pending | apply foldl_pages | apply foldl_clusters | apply foldl_jobs | apply foldl_hub | apply foldl_fab | apply foldl_sol | apply foldl_start | apply foldl_hist | apply foldl_ctr | apply foldl_pwr) <;> (intros; (repeat' (first | split | dsimp only)) <;> simp))
@[simp] theorem State.stepExch_keeps (s : State) (l desc occ src phase : Nat) (cs : List (Nat × Nat × Nat)) :
    ((s.stepExch l desc occ src phase cs).getD s).pending = s.pending ∧
    ((s.stepExch l desc occ src phase cs).getD s).pages = s.pages ∧ ((s.stepExch l desc occ src phase cs).getD s).jobs = s.jobs ∧
    ((s.stepExch l desc occ src phase cs).getD s).hub = s.hub ∧ ((s.stepExch l desc occ src phase cs).getD s).sol = s.sol ∧
    ((s.stepExch l desc occ src phase cs).getD s).start = s.start ∧ ((s.stepExch l desc occ src phase cs).getD s).hist = s.hist ∧
    ((s.stepExch l desc occ src phase cs).getD s).pwr = s.pwr ∧
    ((s.stepExch l desc occ src phase cs).getD s).clusters.length = s.clusters.length ∧
    ((s.stepExch l desc occ src phase cs).getD s).fab.ports.length = s.fab.ports.length := by
  unfold State.stepExch
  (repeat' split) <;> simp
theorem State.stepExch_some {s : State} {l desc occ src phase : Nat} {cs : List (Nat × Nat × Nat)} {t : State} (h : s.stepExch l desc occ src phase cs = some t) :
    t.pending = s.pending ∧
    t.pages = s.pages ∧ t.jobs = s.jobs ∧ t.hub = s.hub ∧ t.sol = s.sol ∧ t.start = s.start ∧ t.hist = s.hist ∧ t.pwr = s.pwr ∧
    t.clusters.length = s.clusters.length ∧ t.fab.ports.length = s.fab.ports.length := by
  have := State.stepExch_keeps s l desc occ src phase cs
  simpa [h] using this
@[simp] theorem State.startExch_keeps (s : State) (x : Site) (d : ExchDesc) (p : ShardPlan) (pl : Tensor) (a : Tensor) (o : Tensor) :
    (State.startExch s x d p pl a o).pending = s.pending ∧
    (State.startExch s x d p pl a o).pages = s.pages ∧ (State.startExch s x d p pl a o).jobs = s.jobs ∧
    (State.startExch s x d p pl a o).hub = s.hub ∧ (State.startExch s x d p pl a o).sol = s.sol ∧
    (State.startExch s x d p pl a o).start = s.start ∧ (State.startExch s x d p pl a o).hist = s.hist ∧
    (State.startExch s x d p pl a o).pwr = s.pwr ∧ (State.startExch s x d p pl a o).clusters.length = s.clusters.length ∧
    (State.startExch s x d p pl a o).fab.ports.length = s.fab.ports.length := by
  unfold State.startExch
  extract_lets e s1 s2 s3 s4 s5 q
  have h4 : s4.pending = s.pending ∧ s4.pages = s.pages ∧ s4.jobs = s.jobs ∧ s4.hub = s.hub ∧ s4.sol = s.sol ∧ s4.start = s.start ∧
      s4.hist = s.hist ∧ s4.pwr = s.pwr ∧ s4.clusters.length = s.clusters.length ∧
      s4.fab.ports.length = s.fab.ports.length := by simp [s4, s3, s2, s1]
  have h1 : q.1.pending = s.pending ∧ q.1.pages = s.pages ∧ q.1.jobs = s.jobs ∧ q.1.hub = s.hub ∧ q.1.sol = s.sol ∧ q.1.start = s.start ∧
      q.1.hist = s.hist ∧ q.1.pwr = s.pwr ∧ q.1.clusters.length = s.clusters.length ∧
      q.1.fab.ports.length = s.fab.ports.length := by simp [q, s5, h4]
  clear_value q
  have h2 : ∀ (l : List Msg) (t u : State), l.foldl (fun (s : State) m => (match m.body with
      | .count _ _ phase cs => (s.stepExch x.l x.e.aux e.occ m.src phase cs).getD s
      | _ => s)) t = u → u.pending = t.pending ∧ u.pages = t.pages ∧ u.jobs = t.jobs ∧ u.hub = t.hub ∧ u.sol = t.sol ∧ u.start = t.start ∧
          u.hist = t.hist ∧ u.pwr = t.pwr ∧ u.clusters.length = t.clusters.length ∧ u.fab.ports.length = t.fab.ports.length := by
    rintro l t _ rfl
    (repeat' apply And.intro) <;> ((first | apply foldl_pending | apply foldl_pages | apply foldl_jobs | apply foldl_hub | apply foldl_sol | apply foldl_start | apply foldl_hist | apply foldl_pwr | apply foldl_clusters_length | apply foldl_ports_length) <;> (intros; (repeat' split) <;> simp))
  have h3 := h2 q.2 q.1 _ rfl
  obtain ⟨a0, a1, a2, a3, a4, a5, a6, a7, a8, a9⟩ := h1
  obtain ⟨b0, b1, b2, b3, b4, b5, b6, b7, b8, b9⟩ := h3
  exact ⟨b0.trans a0, b1.trans a1, b2.trans a2, b3.trans a3, b4.trans a4, b5.trans a5, b6.trans a6, b7.trans a7, b8.trans a8, b9.trans a9⟩
@[simp] theorem State.runExch_keeps (s : State) (x : Site) (ev : Ev) : (State.runExch s x ev).pending = s.pending ∧
    (State.runExch s x ev).jobs = s.jobs ∧ (State.runExch s x ev).clusters.length = s.clusters.length ∧
    (State.runExch s x ev).fab.ports.length = s.fab.ports.length ∧ (State.runExch s x ev).start.pcl.length = s.start.pcl.length ∧
    (State.runExch s x ev).start.flash.xidx = s.start.flash.xidx ∧ (State.runExch s x ev).start.starts = s.start.starts ∧
    (State.runExch s x ev).hub.module = s.hub.module := by
  unfold State.runExch
  (repeat' split) <;> simp

/-! ## Parameters -/

@[simp] theorem State.countBeats_keeps (s : State) (l : Nat) (blocks : Nat) (beats : Nat) (strokes : Nat) :
    (State.countBeats s l blocks beats strokes).pending = s.pending ∧
    (State.countBeats s l blocks beats strokes).mem = s.mem ∧ (State.countBeats s l blocks beats strokes).tags = s.tags ∧
    (State.countBeats s l blocks beats strokes).poison = s.poison ∧ (State.countBeats s l blocks beats strokes).pages = s.pages ∧
    (State.countBeats s l blocks beats strokes).jobs = s.jobs ∧ (State.countBeats s l blocks beats strokes).hub = s.hub ∧
    (State.countBeats s l blocks beats strokes).fab = s.fab ∧ (State.countBeats s l blocks beats strokes).sol = s.sol ∧
    (State.countBeats s l blocks beats strokes).start = s.start ∧ (State.countBeats s l blocks beats strokes).hist = s.hist ∧
    (State.countBeats s l blocks beats strokes).ctr = s.ctr ∧ (State.countBeats s l blocks beats strokes).pwr = s.pwr ∧
    (State.countBeats s l blocks beats strokes).clusters.length = s.clusters.length := by
  simp [State.countBeats]
@[simp] theorem State.countProducts_keeps (s : State) (q : OptSite) (ps : List TileMul) : (State.countProducts s q ps).pending = s.pending ∧
    (State.countProducts s q ps).mem = s.mem ∧ (State.countProducts s q ps).tags = s.tags ∧ (State.countProducts s q ps).poison = s.poison ∧
    (State.countProducts s q ps).pages = s.pages ∧ (State.countProducts s q ps).jobs = s.jobs ∧ (State.countProducts s q ps).hub = s.hub ∧
    (State.countProducts s q ps).fab = s.fab ∧ (State.countProducts s q ps).sol = s.sol ∧ (State.countProducts s q ps).start = s.start ∧
    (State.countProducts s q ps).hist = s.hist ∧ (State.countProducts s q ps).ctr = s.ctr ∧ (State.countProducts s q ps).pwr = s.pwr ∧
    (State.countProducts s q ps).clusters.length = s.clusters.length := by
  unfold State.countProducts
  (repeat' split) <;> simp
@[simp] theorem State.optOut_keeps (s : State) (q : OptSite) (m : Mv) (p : Option (Mat × Mat × List TileMul)) :
    (State.optOut s q m p).pending = s.pending ∧
    (State.optOut s q m p).jobs = s.jobs ∧ (State.optOut s q m p).hub = s.hub ∧ (State.optOut s q m p).fab = s.fab ∧
    (State.optOut s q m p).sol = s.sol ∧ (State.optOut s q m p).start = s.start ∧ (State.optOut s q m p).hist = s.hist ∧
    (State.optOut s q m p).ctr = s.ctr ∧ (State.optOut s q m p).pwr = s.pwr ∧ (State.optOut s q m p).clusters.length = s.clusters.length := by
  simp [State.optOut]
@[simp] theorem State.optBody_keeps (s : State) (q : OptSite) (ev : Ev) : (State.optBody s q ev).pending = s.pending ∧
    (State.optBody s q ev).jobs = s.jobs ∧ (State.optBody s q ev).clusters.length = s.clusters.length ∧
    (State.optBody s q ev).fab.ports.length = s.fab.ports.length ∧ (State.optBody s q ev).start.pcl.length = s.start.pcl.length ∧
    (State.optBody s q ev).start.flash.xidx = s.start.flash.xidx ∧ (State.optBody s q ev).start.starts = s.start.starts ∧
    (State.optBody s q ev).hub.module = s.hub.module := by
  unfold State.optBody
  repeat' (first | split | dsimp only)
  all_goals simp
@[simp] theorem State.digestBody_keeps (s : State) (x : Site) (ts : List Tensor) : (State.digestBody s x ts).pending = s.pending ∧
    (State.digestBody s x ts).mem = s.mem ∧ (State.digestBody s x ts).tags = s.tags ∧ (State.digestBody s x ts).poison = s.poison ∧
    (State.digestBody s x ts).pages = s.pages ∧ (State.digestBody s x ts).jobs = s.jobs ∧ (State.digestBody s x ts).hub = s.hub ∧
    (State.digestBody s x ts).fab = s.fab ∧ (State.digestBody s x ts).sol = s.sol ∧ (State.digestBody s x ts).start = s.start ∧
    (State.digestBody s x ts).hist = s.hist ∧ (State.digestBody s x ts).ctr = s.ctr ∧ (State.digestBody s x ts).pwr = s.pwr ∧
    (State.digestBody s x ts).clusters.length = s.clusters.length := by
  simp [State.digestBody]
@[simp] theorem State.wcMismatch_keeps (s : State) (l : Nat) (j : Job) : (State.wcMismatch s l j).pending = s.pending ∧
    (State.wcMismatch s l j).jobs = s.jobs ∧ (State.wcMismatch s l j).fab = s.fab ∧ (State.wcMismatch s l j).sol = s.sol ∧
    (State.wcMismatch s l j).ctr = s.ctr ∧ (State.wcMismatch s l j).clusters.length = s.clusters.length ∧
    (State.wcMismatch s l j).start.pcl.length = s.start.pcl.length ∧ (State.wcMismatch s l j).start.flash.xidx = s.start.flash.xidx ∧
    (State.wcMismatch s l j).start.starts = s.start.starts ∧ (State.wcMismatch s l j).hub.module = s.hub.module := by
  simp [State.wcMismatch]
@[simp] theorem State.checkCopy_keeps (s : State) (l : Nat) (idx : Nat) (row : Nat) (col : Nat) (seen : Option Nat) :
    (State.checkCopy s l idx row col seen).pending = s.pending ∧
    (State.checkCopy s l idx row col seen).jobs = s.jobs ∧ (State.checkCopy s l idx row col seen).fab = s.fab ∧
    (State.checkCopy s l idx row col seen).sol = s.sol ∧ (State.checkCopy s l idx row col seen).ctr = s.ctr ∧
    (State.checkCopy s l idx row col seen).clusters.length = s.clusters.length ∧
    (State.checkCopy s l idx row col seen).start.pcl.length = s.start.pcl.length ∧
    (State.checkCopy s l idx row col seen).start.flash.xidx = s.start.flash.xidx ∧
    (State.checkCopy s l idx row col seen).start.starts = s.start.starts ∧
    (State.checkCopy s l idx row col seen).hub.module = s.hub.module := by
  unfold State.checkCopy
  repeat' (first | split | dsimp only)
  all_goals simp
@[simp] theorem State.endPrev_keeps (s : State) (j : Job) (p : ParamPlan) (step : Nat) : (State.endPrev s j p step).pending = s.pending ∧
    (State.endPrev s j p step).tags = s.tags ∧ (State.endPrev s j p step).clusters = s.clusters ∧ (State.endPrev s j p step).jobs = s.jobs ∧
    (State.endPrev s j p step).sol = s.sol ∧ (State.endPrev s j p step).start = s.start ∧ (State.endPrev s j p step).hist = s.hist ∧
    (State.endPrev s j p step).pwr = s.pwr ∧ (State.endPrev s j p step).fab.ports.length = s.fab.ports.length ∧
    (State.endPrev s j p step).hub.module = s.hub.module := by
  unfold State.endPrev
  (repeat' split) <;> simp
@[simp] theorem State.logWrite_keeps (s : State) (j : Job) (p : ParamPlan) (l : Nat) (step : Nat) (bs : List Byte) :
    (State.logWrite s j p l step bs).pending = s.pending ∧
    (State.logWrite s j p l step bs).tags = s.tags ∧ (State.logWrite s j p l step bs).jobs = s.jobs ∧
    (State.logWrite s j p l step bs).sol = s.sol ∧ (State.logWrite s j p l step bs).start = s.start ∧
    (State.logWrite s j p l step bs).hist = s.hist ∧ (State.logWrite s j p l step bs).pwr = s.pwr ∧
    (State.logWrite s j p l step bs).clusters.length = s.clusters.length ∧
    (State.logWrite s j p l step bs).fab.ports.length = s.fab.ports.length ∧ (State.logWrite s j p l step bs).hub.module = s.hub.module := by
  simp [State.logWrite]
@[simp] theorem State.setStream_keeps (s : State) (x : DStream) (y : Option DStream) : (State.setStream s x y).pending = s.pending ∧
    (State.setStream s x y).mem = s.mem ∧ (State.setStream s x y).tags = s.tags ∧ (State.setStream s x y).poison = s.poison ∧
    (State.setStream s x y).pages = s.pages ∧ (State.setStream s x y).clusters = s.clusters ∧ (State.setStream s x y).jobs = s.jobs ∧
    (State.setStream s x y).fab = s.fab ∧ (State.setStream s x y).sol = s.sol ∧ (State.setStream s x y).start = s.start ∧
    (State.setStream s x y).hist = s.hist ∧ (State.setStream s x y).ctr = s.ctr ∧ (State.setStream s x y).pwr = s.pwr ∧
    (State.setStream s x y).hub.module = s.hub.module := by
  simp [State.setStream]
@[simp] theorem State.streamFault_keeps (s : State) (x : DStream) (f : FaultKind × Nat) : (State.streamFault s x f).pending = s.pending ∧
    (State.streamFault s x f).jobs = s.jobs ∧ (State.streamFault s x f).clusters.length = s.clusters.length ∧
    (State.streamFault s x f).fab.ports.length = s.fab.ports.length ∧ (State.streamFault s x f).start.pcl.length = s.start.pcl.length ∧
    (State.streamFault s x f).start.flash.xidx = s.start.flash.xidx ∧ (State.streamFault s x f).start.starts = s.start.starts ∧
    (State.streamFault s x f).hub.module = s.hub.module := by
  unfold State.streamFault
  repeat' (first | split | dsimp only)
  all_goals simp
@[simp] theorem State.streamPair_keeps (s : State) (x : DStream) (j : Job) (p : ParamPlan) (c : Tensor) (u : Tensor) (sec : Nat) :
    (State.streamPair s x j p c u sec).pending = s.pending ∧
    (State.streamPair s x j p c u sec).tags = s.tags ∧ (State.streamPair s x j p c u sec).jobs = s.jobs ∧
    (State.streamPair s x j p c u sec).sol = s.sol ∧ (State.streamPair s x j p c u sec).start = s.start ∧
    (State.streamPair s x j p c u sec).hist = s.hist ∧ (State.streamPair s x j p c u sec).pwr = s.pwr ∧
    (State.streamPair s x j p c u sec).clusters.length = s.clusters.length ∧
    (State.streamPair s x j p c u sec).fab.ports.length = s.fab.ports.length ∧
    (State.streamPair s x j p c u sec).hub.module = s.hub.module := by
  simp [State.streamPair]
@[simp] theorem State.streamNext_keeps (s : State) (x : DStream) (ev : Ev) : (State.streamNext s x ev).pending = s.pending ∧
    (State.streamNext s x ev).jobs = s.jobs ∧ (State.streamNext s x ev).clusters.length = s.clusters.length ∧
    (State.streamNext s x ev).fab.ports.length = s.fab.ports.length ∧ (State.streamNext s x ev).start.pcl.length = s.start.pcl.length ∧
    (State.streamNext s x ev).start.flash.xidx = s.start.flash.xidx ∧ (State.streamNext s x ev).start.starts = s.start.starts ∧
    (State.streamNext s x ev).hub.module = s.hub.module := by
  unfold State.streamNext
  (repeat' split) <;> simp

end Sys2Proof.Machine
end

