-- ==== Sys2Proof/Laws/Module.lean ====
section
/-!
SUPPORT. One lemma for each operation, which says every part of the state that it keeps. Here: what comes by itself or by time: expiries, power and recovery.
-/

namespace Sys2Proof.Machine

/-! ## Expiries -/

@[simp] theorem State.entryExpired_keeps (s : State) (l : Nat) : (State.entryExpired s l).pending = s.pending ∧
    (State.entryExpired s l).jobs = s.jobs ∧ (State.entryExpired s l).pwr = s.pwr ∧
    (State.entryExpired s l).clusters.length = s.clusters.length ∧ (State.entryExpired s l).fab.ports.length = s.fab.ports.length ∧
    (State.entryExpired s l).start.pcl.length = s.start.pcl.length ∧ (State.entryExpired s l).start.flash.xidx = s.start.flash.xidx ∧
    (State.entryExpired s l).start.lc = s.start.lc ∧ (State.entryExpired s l).start.starts = s.start.starts ∧
    (State.entryExpired s l).hub.module = s.hub.module := by
  unfold State.entryExpired
  (repeat' split) <;> simp
@[simp] theorem State.abandonBlock_keeps (s : State) (l : Nat) (t : Slot) (b : Nat) : (State.abandonBlock s l t b).pending = s.pending ∧
    (State.abandonBlock s l t b).tags = s.tags ∧ (State.abandonBlock s l t b).pages = s.pages ∧ (State.abandonBlock s l t b).jobs = s.jobs ∧
    (State.abandonBlock s l t b).hub = s.hub ∧ (State.abandonBlock s l t b).fab = s.fab ∧ (State.abandonBlock s l t b).sol = s.sol ∧
    (State.abandonBlock s l t b).start = s.start ∧ (State.abandonBlock s l t b).hist = s.hist ∧ (State.abandonBlock s l t b).ctr = s.ctr ∧
    (State.abandonBlock s l t b).pwr = s.pwr ∧ (State.abandonBlock s l t b).clusters.length = s.clusters.length := by
  simp [State.abandonBlock]
@[simp] theorem State.cutFactor_keeps (s : State) (q : TopSite) (n : Nat) : (State.cutFactor s q n).pending = s.pending ∧
    (State.cutFactor s q n).tags = s.tags ∧ (State.cutFactor s q n).pages = s.pages ∧ (State.cutFactor s q n).hub = s.hub ∧
    (State.cutFactor s q n).fab = s.fab ∧ (State.cutFactor s q n).sol = s.sol ∧ (State.cutFactor s q n).start = s.start ∧
    (State.cutFactor s q n).hist = s.hist ∧ (State.cutFactor s q n).ctr = s.ctr ∧ (State.cutFactor s q n).pwr = s.pwr ∧
    (State.cutFactor s q n).clusters.length = s.clusters.length := by
  unfold State.cutFactor
  repeat' (first | split | dsimp only)
  all_goals simp
@[simp] theorem State.cutSolve_keeps (s : State) (q : TopSite) (n : Nat) : (State.cutSolve s q n).pending = s.pending ∧
    (State.cutSolve s q n).pages = s.pages ∧ (State.cutSolve s q n).jobs = s.jobs ∧ (State.cutSolve s q n).hub = s.hub ∧
    (State.cutSolve s q n).fab = s.fab ∧ (State.cutSolve s q n).sol = s.sol ∧ (State.cutSolve s q n).start = s.start ∧
    (State.cutSolve s q n).hist = s.hist ∧ (State.cutSolve s q n).ctr = s.ctr ∧ (State.cutSolve s q n).pwr = s.pwr ∧
    (State.cutSolve s q n).clusters.length = s.clusters.length := by
  unfold State.cutSolve
  (repeat' split) <;> simp
@[simp] theorem State.cutProbs_keeps (s : State) (x : Site) (p : SolPlan) (k : Nat) (n : Nat) : (State.cutProbs s x p k n).pending = s.pending ∧
    (State.cutProbs s x p k n).tags = s.tags ∧ (State.cutProbs s x p k n).pages = s.pages ∧ (State.cutProbs s x p k n).hub = s.hub ∧
    (State.cutProbs s x p k n).fab = s.fab ∧ (State.cutProbs s x p k n).start = s.start ∧ (State.cutProbs s x p k n).hist = s.hist ∧
    (State.cutProbs s x p k n).ctr = s.ctr ∧ (State.cutProbs s x p k n).pwr = s.pwr ∧
    (State.cutProbs s x p k n).clusters.length = s.clusters.length := by
  unfold State.cutProbs
  repeat' (first | split | dsimp only)
  all_goals simp
@[simp] theorem State.cutPart_keeps (s : State) (x : Site) (p : SolPlan) (g : Nat) : (State.cutPart s x p g).pending = s.pending ∧
    (State.cutPart s x p g).tags = s.tags ∧ (State.cutPart s x p g).pages = s.pages ∧ (State.cutPart s x p g).jobs = s.jobs ∧
    (State.cutPart s x p g).hub = s.hub ∧ (State.cutPart s x p g).fab = s.fab ∧ (State.cutPart s x p g).start = s.start ∧
    (State.cutPart s x p g).hist = s.hist ∧ (State.cutPart s x p g).ctr = s.ctr ∧ (State.cutPart s x p g).pwr = s.pwr ∧
    (State.cutPart s x p g).clusters.length = s.clusters.length := by
  unfold State.cutPart
  (repeat' split) <;> simp
@[simp] theorem State.cutEntry_keeps (s : State) (x : Site) (n : Nat) : (State.cutEntry s x n).pending = s.pending ∧
    (State.cutEntry s x n).start = s.start ∧ (State.cutEntry s x n).hist = s.hist ∧ (State.cutEntry s x n).pwr = s.pwr ∧
    (State.cutEntry s x n).hub.module = s.hub.module := by
  unfold State.cutEntry
  (repeat' split) <;> simp
@[simp] theorem State.cutWaiting_keeps (s : State) (x : Site) : (State.cutWaiting s x).pending = s.pending ∧
    (State.cutWaiting s x).tags = s.tags ∧ (State.cutWaiting s x).pages = s.pages ∧ (State.cutWaiting s x).jobs = s.jobs ∧
    (State.cutWaiting s x).hub = s.hub ∧ (State.cutWaiting s x).fab = s.fab ∧ (State.cutWaiting s x).start = s.start ∧
    (State.cutWaiting s x).hist = s.hist ∧ (State.cutWaiting s x).ctr = s.ctr ∧ (State.cutWaiting s x).pwr = s.pwr ∧
    (State.cutWaiting s x).clusters.length = s.clusters.length := by
  unfold State.cutWaiting
  (repeat' split) <;> simp
@[simp] theorem State.cutCluster_keeps (s : State) (l : Nat) (n : Nat) : (State.cutCluster s l n).pending = s.pending ∧
    (State.cutCluster s l n).start = s.start ∧ (State.cutCluster s l n).hist = s.hist ∧ (State.cutCluster s l n).pwr = s.pwr ∧
    (State.cutCluster s l n).hub.module = s.hub.module := by
  unfold State.cutCluster
  (repeat' split) <;> simp
@[simp] theorem State.deadline_keeps (s : State) (k : TaskKey) (blocks : List (Nat × Nat)) : (State.deadline s k blocks).pending = s.pending ∧
    (State.deadline s k blocks).start = s.start ∧ (State.deadline s k blocks).hist = s.hist ∧ (State.deadline s k blocks).pwr = s.pwr ∧
    (State.deadline s k blocks).hub.module = s.hub.module := by
  unfold State.deadline
  (repeat' split) <;> simp
@[simp] theorem State.collExpired_keeps (s : State) (k : TaskKey) : (State.collExpired s k).pending = s.pending ∧
    (State.collExpired s k).jobs = s.jobs ∧ (State.collExpired s k).pwr = s.pwr ∧ (State.collExpired s k).clusters.length = s.clusters.length ∧
    (State.collExpired s k).fab.ports.length = s.fab.ports.length ∧ (State.collExpired s k).start.pcl.length = s.start.pcl.length ∧
    (State.collExpired s k).start.flash.xidx = s.start.flash.xidx ∧ (State.collExpired s k).start.lc = s.start.lc ∧
    (State.collExpired s k).start.starts = s.start.starts ∧ (State.collExpired s k).hub.module = s.hub.module := by
  unfold State.collExpired
  repeat' (first | split | dsimp only)
  all_goals simp
@[simp] theorem State.resend_keeps (s : State) (l : Nat) (tag : Nat) : (State.resend s l tag).pending = s.pending ∧
    (State.resend s l tag).mem = s.mem ∧ (State.resend s l tag).tags = s.tags ∧ (State.resend s l tag).poison = s.poison ∧
    (State.resend s l tag).pages = s.pages ∧ (State.resend s l tag).jobs = s.jobs ∧ (State.resend s l tag).hub = s.hub ∧
    (State.resend s l tag).sol = s.sol ∧ (State.resend s l tag).start = s.start ∧ (State.resend s l tag).hist = s.hist ∧
    (State.resend s l tag).pwr = s.pwr ∧ (State.resend s l tag).clusters.length = s.clusters.length ∧
    (State.resend s l tag).fab.ports.length = s.fab.ports.length := by
  unfold State.resend
  (repeat' split) <;> simp

/-! ## Power -/

@[simp] theorem State.calibrated_keeps (s : State) (f : StartFind) : (State.calibrated s f).pending = s.pending ∧
    (State.calibrated s f).mem = s.mem ∧ (State.calibrated s f).tags = s.tags ∧ (State.calibrated s f).poison = s.poison ∧
    (State.calibrated s f).pages = s.pages ∧ (State.calibrated s f).clusters = s.clusters ∧ (State.calibrated s f).jobs = s.jobs ∧
    (State.calibrated s f).hub = s.hub ∧ (State.calibrated s f).fab = s.fab ∧ (State.calibrated s f).sol = s.sol ∧
    (State.calibrated s f).hist = s.hist ∧ (State.calibrated s f).ctr = s.ctr ∧ (State.calibrated s f).start.pcl.length = s.start.pcl.length ∧
    (State.calibrated s f).start.flash.xidx = s.start.flash.xidx ∧ (State.calibrated s f).start.lc = s.start.lc ∧
    (State.calibrated s f).start.starts = s.start.starts := by
  simp [State.calibrated]
@[simp] theorem State.verified_keeps (s : State) : (State.verified s).pending = s.pending ∧
    (State.verified s).start.pcl.length = s.start.pcl.length ∧ (State.verified s).start.flash.xidx = s.start.flash.xidx ∧
    (State.verified s).hub.module = s.hub.module := by
  simp [State.verified]
@[simp] theorem State.railsUp_keeps (s : State) : (State.railsUp s).pending = s.pending ∧ (State.railsUp s).mem = s.mem ∧
    (State.railsUp s).tags = s.tags ∧ (State.railsUp s).poison = s.poison ∧ (State.railsUp s).pages = s.pages ∧
    (State.railsUp s).clusters = s.clusters ∧ (State.railsUp s).jobs = s.jobs ∧ (State.railsUp s).hub = s.hub ∧ (State.railsUp s).fab = s.fab ∧
    (State.railsUp s).sol = s.sol ∧ (State.railsUp s).hist = s.hist ∧ (State.railsUp s).ctr = s.ctr ∧
    (State.railsUp s).start.pcl.length = s.start.pcl.length ∧ (State.railsUp s).start.flash.xidx = s.start.flash.xidx ∧
    (State.railsUp s).start.lc = s.start.lc ∧ (State.railsUp s).start.starts = s.start.starts := by
  simp [State.railsUp]
@[simp] theorem State.noReference_keeps (s : State) : (State.noReference s).pending = s.pending ∧
    (State.noReference s).start.pcl.length = s.start.pcl.length ∧ (State.noReference s).start.flash.xidx = s.start.flash.xidx ∧
    (State.noReference s).start.lc = s.start.lc ∧ (State.noReference s).start.starts = s.start.starts ∧
    (State.noReference s).hub.module = s.hub.module := by
  simp [State.noReference]
@[simp] theorem State.runStart_keeps (s : State) (f : StartFind) : (State.runStart s f).pending = s.pending ∧
    (State.runStart s f).start.pcl.length = s.start.pcl.length ∧ (State.runStart s f).start.flash.xidx = s.start.flash.xidx ∧
    (State.runStart s f).hub.module = s.hub.module := by
  unfold State.runStart
  (repeat' split) <;> simp
@[simp] theorem State.testsDone_keeps (s : State) : (State.testsDone s).pending = s.pending ∧ (State.testsDone s).mem = s.mem ∧
    (State.testsDone s).tags = s.tags ∧ (State.testsDone s).poison = s.poison ∧ (State.testsDone s).pages = s.pages ∧
    (State.testsDone s).clusters = s.clusters ∧ (State.testsDone s).jobs = s.jobs ∧ (State.testsDone s).hub = s.hub ∧
    (State.testsDone s).fab = s.fab ∧ (State.testsDone s).sol = s.sol ∧ (State.testsDone s).hist = s.hist ∧ (State.testsDone s).ctr = s.ctr ∧
    (State.testsDone s).start.pcl.length = s.start.pcl.length ∧ (State.testsDone s).start.flash.xidx = s.start.flash.xidx := by
  unfold State.testsDone
  (repeat' split) <;> simp
theorem placeLogicals_keeps (x : Start) (n : Nat) : (placeLogicals x n).pcl.length = x.pcl.length ∧ (placeLogicals x n).flash = x.flash := by
  let q : Start → Nat × Flash := fun x => (x.pcl.length, x.flash)
  have hq : q (placeLogicals x n) = q x := by
    unfold placeLogicals
    dsimp only
    iterate 3
      refine (foldl_keeps q _ ?_ _ _).trans ?_
      · intro s b
        (repeat' split) <;> simp [q]
    rfl
  exact Prod.mk.inj hq
theorem placeAll_keeps (l : List Nat) (x : Start) : (l.foldl placeLogicals x).pcl.length = x.pcl.length ∧
    (l.foldl placeLogicals x).flash = x.flash := by
  induction l generalizing x with
  | nil => simp
  | cons p l ih => simp [ih, placeLogicals_keeps]
@[simp] theorem State.admission_keeps (s : State) : (State.admission s).pending = s.pending ∧ (State.admission s).mem = s.mem ∧
    (State.admission s).tags = s.tags ∧ (State.admission s).poison = s.poison ∧ (State.admission s).pages = s.pages ∧
    (State.admission s).jobs = s.jobs ∧ (State.admission s).hub = s.hub ∧ (State.admission s).fab = s.fab ∧ (State.admission s).sol = s.sol ∧
    (State.admission s).ctr = s.ctr ∧ (State.admission s).clusters.length = s.clusters.length ∧
    (State.admission s).start.pcl.length = s.start.pcl.length ∧ (State.admission s).start.flash.xidx = s.start.flash.xidx := by
  unfold State.admission
  extract_lets n hist x0 x y lc z cause hist2 s1
  have hy : y.pcl.length = x.pcl.length ∧ y.flash = x.flash := by
    simp only [y]
    exact placeAll_keeps _ x
  have hx : x.pcl.length = s.start.pcl.length ∧ x.flash = s.start.flash := by simp [x, x0]
  clear_value hist2 cause lc y x hist
  simp +zetaDelta [hx, hy]
@[simp] theorem State.cut_keeps (s : State) : (State.cut s).pending = s.pending ∧ (State.cut s).start.pcl.length = s.start.pcl.length ∧
    (State.cut s).start.flash.xidx = s.start.flash.xidx ∧ (State.cut s).start.lc = s.start.lc ∧ (State.cut s).start.starts = s.start.starts ∧
    (State.cut s).hub.module = s.hub.module := by
  simp [State.cut]
@[simp] theorem State.metered_keeps (s : State) (m : Meter) : (State.metered s m).pending = s.pending ∧ (State.metered s m).mem = s.mem ∧
    (State.metered s m).tags = s.tags ∧ (State.metered s m).poison = s.poison ∧ (State.metered s m).pages = s.pages ∧
    (State.metered s m).clusters = s.clusters ∧ (State.metered s m).jobs = s.jobs ∧ (State.metered s m).hub = s.hub ∧
    (State.metered s m).fab = s.fab ∧ (State.metered s m).sol = s.sol ∧ (State.metered s m).start = s.start ∧
    (State.metered s m).hist = s.hist ∧ (State.metered s m).ctr = s.ctr := by
  simp [State.metered]
@[simp] theorem State.lower_keeps (s : State) (p : Nat) : (State.lower s p).pending = s.pending ∧ (State.lower s p).mem = s.mem ∧
    (State.lower s p).tags = s.tags ∧ (State.lower s p).poison = s.poison ∧ (State.lower s p).pages = s.pages ∧
    (State.lower s p).clusters = s.clusters ∧ (State.lower s p).jobs = s.jobs ∧ (State.lower s p).hub = s.hub ∧ (State.lower s p).fab = s.fab ∧
    (State.lower s p).sol = s.sol ∧ (State.lower s p).hist = s.hist ∧ (State.lower s p).ctr = s.ctr ∧ (State.lower s p).pwr = s.pwr ∧
    (State.lower s p).start.pcl.length = s.start.pcl.length ∧ (State.lower s p).start.flash.xidx = s.start.flash.xidx ∧
    (State.lower s p).start.lc = s.start.lc ∧ (State.lower s p).start.starts = s.start.starts := by
  simp [State.lower]

/-! ## Recovery -/

@[simp] theorem State.abortOn_keeps (s : State) (on : Nat → Bool) (latch : Bool) : (State.abortOn s on latch).pending = s.pending ∧
    (State.abortOn s on latch).jobs = s.jobs ∧ (State.abortOn s on latch).pwr = s.pwr ∧
    (State.abortOn s on latch).clusters.length = s.clusters.length ∧ (State.abortOn s on latch).fab.ports.length = s.fab.ports.length ∧
    (State.abortOn s on latch).start.pcl.length = s.start.pcl.length ∧ (State.abortOn s on latch).start.flash.xidx = s.start.flash.xidx ∧
    (State.abortOn s on latch).start.lc = s.start.lc ∧ (State.abortOn s on latch).start.starts = s.start.starts ∧
    (State.abortOn s on latch).hub.module = s.hub.module := by
  unfold State.abortOn
  generalize List.range 128 = r
  (repeat' apply And.intro) <;> ((first | apply foldl_pending | apply foldl_jobs | apply foldl_pwr | apply foldl_clusters_length | apply foldl_ports_length | apply foldl_pcl_length | apply foldl_xidx | apply foldl_lc | apply foldl_starts | apply foldl_module) <;> (intro s l; (repeat' (first | split | dsimp only)) <;> simp))
@[simp] theorem State.abortOnStack_keeps (s : State) (stack : Nat) (latch : Bool) : (State.abortOnStack s stack latch).pending = s.pending ∧
    (State.abortOnStack s stack latch).jobs = s.jobs ∧ (State.abortOnStack s stack latch).pwr = s.pwr ∧
    (State.abortOnStack s stack latch).clusters.length = s.clusters.length ∧
    (State.abortOnStack s stack latch).fab.ports.length = s.fab.ports.length ∧
    (State.abortOnStack s stack latch).start.pcl.length = s.start.pcl.length ∧
    (State.abortOnStack s stack latch).start.flash.xidx = s.start.flash.xidx ∧ (State.abortOnStack s stack latch).start.lc = s.start.lc ∧
    (State.abortOnStack s stack latch).start.starts = s.start.starts ∧ (State.abortOnStack s stack latch).hub.module = s.hub.module := by
  simp [State.abortOnStack]
@[simp] theorem State.chargePort_keeps (s : State) (p : Nat) : (State.chargePort s p).pending = s.pending ∧
    (State.chargePort s p).pages = s.pages ∧ (State.chargePort s p).jobs = s.jobs ∧ (State.chargePort s p).hub = s.hub ∧
    (State.chargePort s p).fab = s.fab ∧ (State.chargePort s p).sol = s.sol ∧ (State.chargePort s p).ctr = s.ctr ∧
    (State.chargePort s p).clusters.length = s.clusters.length ∧ (State.chargePort s p).start.pcl.length = s.start.pcl.length ∧
    (State.chargePort s p).start.flash.xidx = s.start.flash.xidx ∧ (State.chargePort s p).start.starts = s.start.starts := by
  simp [State.chargePort]
@[simp] theorem State.linkDown_keeps (s : State) : (State.linkDown s).pending = s.pending ∧ (State.linkDown s).mem = s.mem ∧
    (State.linkDown s).tags = s.tags ∧ (State.linkDown s).poison = s.poison ∧ (State.linkDown s).pages = s.pages ∧
    (State.linkDown s).clusters = s.clusters ∧ (State.linkDown s).jobs = s.jobs ∧ (State.linkDown s).fab = s.fab ∧
    (State.linkDown s).sol = s.sol ∧ (State.linkDown s).start = s.start ∧ (State.linkDown s).hist = s.hist ∧ (State.linkDown s).ctr = s.ctr ∧
    (State.linkDown s).pwr = s.pwr ∧ (State.linkDown s).hub.module = s.hub.module := by
  simp [State.linkDown]
@[simp] theorem State.dropWrites_keeps (s : State) (stack : Nat) : (State.dropWrites s stack).pending = s.pending ∧
    (State.dropWrites s stack).mem = s.mem ∧ (State.dropWrites s stack).tags = s.tags ∧ (State.dropWrites s stack).poison = s.poison ∧
    (State.dropWrites s stack).clusters = s.clusters ∧ (State.dropWrites s stack).jobs = s.jobs ∧ (State.dropWrites s stack).hub = s.hub ∧
    (State.dropWrites s stack).fab = s.fab ∧ (State.dropWrites s stack).sol = s.sol ∧ (State.dropWrites s stack).start = s.start ∧
    (State.dropWrites s stack).hist = s.hist ∧ (State.dropWrites s stack).ctr = s.ctr ∧ (State.dropWrites s stack).pwr = s.pwr := by
  simp [State.dropWrites]
@[simp] theorem State.rung_keeps (s : State) (r : Nat) (l : Nat) (engine : Nat) (unit : Nat) : (State.rung s r l engine unit).pending = s.pending ∧
    (State.rung s r l engine unit).pages = s.pages ∧ (State.rung s r l engine unit).jobs = s.jobs ∧ (State.rung s r l engine unit).hub = s.hub ∧
    (State.rung s r l engine unit).fab = s.fab ∧ (State.rung s r l engine unit).sol = s.sol ∧ (State.rung s r l engine unit).ctr = s.ctr ∧
    (State.rung s r l engine unit).clusters.length = s.clusters.length ∧ (State.rung s r l engine unit).start.pcl.length = s.start.pcl.length ∧
    (State.rung s r l engine unit).start.flash.xidx = s.start.flash.xidx ∧ (State.rung s r l engine unit).start.starts = s.start.starts := by
  unfold State.rung
  repeat' (first | split | dsimp only)
  all_goals simp
@[simp] theorem State.abortCluster_keeps (s : State) (l : Nat) : (State.abortCluster s l).pending = s.pending ∧
    (State.abortCluster s l).jobs = s.jobs ∧ (State.abortCluster s l).pwr = s.pwr ∧
    (State.abortCluster s l).clusters.length = s.clusters.length ∧ (State.abortCluster s l).fab.ports.length = s.fab.ports.length ∧
    (State.abortCluster s l).start.pcl.length = s.start.pcl.length ∧ (State.abortCluster s l).start.flash.xidx = s.start.flash.xidx ∧
    (State.abortCluster s l).start.lc = s.start.lc ∧ (State.abortCluster s l).start.starts = s.start.starts ∧
    (State.abortCluster s l).hub.module = s.hub.module := by
  unfold State.abortCluster
  (repeat' split) <;> simp
@[simp] theorem State.abortLender_keeps (s : State) (l engine : Nat) : (s.abortLender l engine).pending = s.pending ∧
    (s.abortLender l engine).jobs = s.jobs ∧ (s.abortLender l engine).pwr = s.pwr ∧
    (s.abortLender l engine).clusters.length = s.clusters.length ∧ (s.abortLender l engine).fab.ports.length = s.fab.ports.length ∧
    (s.abortLender l engine).start.pcl.length = s.start.pcl.length ∧ (s.abortLender l engine).start.flash.xidx = s.start.flash.xidx ∧
    (s.abortLender l engine).start.lc = s.start.lc ∧ (s.abortLender l engine).start.starts = s.start.starts ∧
    (s.abortLender l engine).hub.module = s.hub.module := by
  unfold State.abortLender
  split <;> simp
@[simp] theorem State.engineReset_keeps (s : State) (l engine unit : Nat) : (s.engineReset l engine unit).pending = s.pending ∧
    (s.engineReset l engine unit).jobs = s.jobs ∧ (s.engineReset l engine unit).clusters.length = s.clusters.length ∧
    (s.engineReset l engine unit).fab.ports.length = s.fab.ports.length ∧ (s.engineReset l engine unit).start.pcl.length = s.start.pcl.length ∧
    (s.engineReset l engine unit).start.flash.xidx = s.start.flash.xidx ∧ (s.engineReset l engine unit).start.starts = s.start.starts ∧
    (s.engineReset l engine unit).hub.module = s.hub.module := by
  unfold State.engineReset
  split
  · simp
  · split
    · simp
    · extract_lets s1 s2
      have h1 : s1.pending = s.pending ∧ s1.jobs = s.jobs ∧ s1.clusters.length = s.clusters.length ∧ s1.fab.ports.length = s.fab.ports.length ∧
          s1.start.pcl.length = s.start.pcl.length ∧ s1.start.flash.xidx = s.start.flash.xidx ∧ s1.start.starts = s.start.starts ∧
          s1.hub.module = s.hub.module := by simp [s1]
      have h2 : s2.pending = s1.pending ∧ s2.jobs = s1.jobs ∧ s2.clusters.length = s1.clusters.length ∧
          s2.fab.ports.length = s1.fab.ports.length ∧ s2.start.pcl.length = s1.start.pcl.length ∧ s2.start.flash.xidx = s1.start.flash.xidx ∧
          s2.start.starts = s1.start.starts ∧ s2.hub.module = s1.hub.module := by
        simp only [s2]
        split <;> simp [Start.edgeIn]
      clear_value s1 s2
      split <;> simp +zetaDelta [h1, h2]
@[simp] theorem State.quiesce_keeps (s : State) (l : Nat) : (State.quiesce s l).pending = s.pending ∧ (State.quiesce s l).jobs = s.jobs ∧
    (State.quiesce s l).clusters.length = s.clusters.length ∧ (State.quiesce s l).fab.ports.length = s.fab.ports.length ∧
    (State.quiesce s l).start.pcl.length = s.start.pcl.length ∧ (State.quiesce s l).start.flash.xidx = s.start.flash.xidx ∧
    (State.quiesce s l).start.starts = s.start.starts ∧ (State.quiesce s l).hub.module = s.hub.module := by
  simp [State.quiesce]
theorem edgesIn_keeps (es : List Edge) (x : Start) : (es.foldl Start.edgeIn x).pcl = x.pcl ∧ (es.foldl Start.edgeIn x).flash = x.flash ∧
    (es.foldl Start.edgeIn x).starts = x.starts := by
  induction es generalizing x with
  | nil => simp
  | cons e es ih => simp [ih, Start.edgeIn]
theorem testsAgain_keeps (l : List Nat) (x : Start) (f : PCl → PCl) :
    (l.foldl (fun x p => x.upd p f) x).pcl.length = x.pcl.length ∧ (l.foldl (fun x p => x.upd p f) x).flash.xidx = x.flash.xidx ∧
        (l.foldl (fun x p => x.upd p f) x).starts = x.starts := by
  induction l generalizing x with
  | nil => simp
  | cons p l ih => simp [ih]
@[simp] theorem State.chipletReset_keeps (s : State) (c : Nat) : (s.chipletReset c).pending = s.pending ∧ (s.chipletReset c).jobs = s.jobs ∧
    (s.chipletReset c).clusters.length = s.clusters.length ∧ (s.chipletReset c).fab.ports.length = s.fab.ports.length ∧
    (s.chipletReset c).start.pcl.length = s.start.pcl.length ∧ (s.chipletReset c).start.flash.xidx = s.start.flash.xidx ∧
    (s.chipletReset c).start.starts = s.start.starts ∧ (s.chipletReset c).hub.module = s.hub.module := by
  unfold State.chipletReset
  extract_lets ls op s1 s2 s3 es s4 s5 s6
  have h1 : s1.pending = s.pending ∧ s1.jobs = s.jobs ∧ s1.clusters.length = s.clusters.length ∧ s1.fab.ports.length = s.fab.ports.length ∧
      s1.start.pcl.length = s.start.pcl.length ∧ s1.start.flash.xidx = s.start.flash.xidx ∧ s1.start.starts = s.start.starts ∧
      s1.hub.module = s.hub.module := by simp [s1]
  have h2 : s2.pending = s1.pending ∧ s2.jobs = s1.jobs ∧ s2.clusters.length = s1.clusters.length ∧ s2.fab.ports.length = s1.fab.ports.length ∧
      s2.start.pcl.length = s1.start.pcl.length ∧ s2.start.flash.xidx = s1.start.flash.xidx ∧ s2.start.starts = s1.start.starts ∧
      s2.hub.module = s1.hub.module := by simp [s2]
  have h3 : s3.pending = s2.pending ∧ s3.jobs = s2.jobs ∧ s3.clusters.length = s2.clusters.length ∧ s3.fab.ports.length = s2.fab.ports.length ∧
      s3.start.pcl.length = s2.start.pcl.length ∧ s3.start.flash.xidx = s2.start.flash.xidx ∧ s3.start.starts = s2.start.starts ∧
      s3.hub.module = s2.hub.module := by simp [s3]
  have h4 : s4.pending = s3.pending ∧ s4.jobs = s3.jobs ∧ s4.clusters.length = s3.clusters.length ∧ s4.fab.ports.length = s3.fab.ports.length ∧
      s4.start.pcl.length = s3.start.pcl.length ∧ s4.start.flash.xidx = s3.start.flash.xidx ∧ s4.start.starts = s3.start.starts ∧
      s4.hub.module = s3.hub.module := by simp [s4, edgesIn_keeps]
  have h5 : s5.pending = s4.pending ∧ s5.jobs = s4.jobs ∧ s5.clusters.length = s4.clusters.length ∧ s5.fab.ports.length = s4.fab.ports.length ∧
      s5.start.pcl.length = s4.start.pcl.length ∧ s5.start.flash.xidx = s4.start.flash.xidx ∧ s5.start.starts = s4.start.starts ∧
      s5.hub.module = s4.hub.module := by simp [s5]
  have h6 : s6.pending = s5.pending ∧ s6.jobs = s5.jobs ∧ s6.clusters.length = s5.clusters.length ∧ s6.fab.ports.length = s5.fab.ports.length ∧
      s6.start.pcl.length = s5.start.pcl.length ∧ s6.start.flash.xidx = s5.start.flash.xidx ∧ s6.start.starts = s5.start.starts ∧
      s6.hub.module = s5.hub.module := by simp [s6]
  clear_value s6 s5 s4 s3 s2 s1
  simp [testsAgain_keeps, h1, h2, h3, h4, h5, h6]
@[simp] theorem State.breakCycles_keeps (x0 : Nat) (x1 : List (TaskKey × TaskKey)) (x2 : State) : (State.breakCycles x0 x1 x2).pending = x2.pending ∧
    (State.breakCycles x0 x1 x2).jobs = x2.jobs ∧ (State.breakCycles x0 x1 x2).pwr = x2.pwr ∧
    (State.breakCycles x0 x1 x2).clusters.length = x2.clusters.length ∧ (State.breakCycles x0 x1 x2).fab.ports.length = x2.fab.ports.length ∧
    (State.breakCycles x0 x1 x2).start.pcl.length = x2.start.pcl.length ∧ (State.breakCycles x0 x1 x2).start.flash.xidx = x2.start.flash.xidx ∧
    (State.breakCycles x0 x1 x2).start.lc = x2.start.lc ∧ (State.breakCycles x0 x1 x2).start.starts = x2.start.starts ∧
    (State.breakCycles x0 x1 x2).hub.module = x2.hub.module := by
  induction x0 generalizing x1 x2 with
  | zero => simp [State.breakCycles]
  | succ n ih =>
    unfold State.breakCycles
    dsimp only
    (repeat' split) <;> simp [ih]
@[simp] theorem State.beginTune_keeps (s : State) (c : Nat) : (State.beginTune s c).pending = s.pending ∧ (State.beginTune s c).mem = s.mem ∧
    (State.beginTune s c).tags = s.tags ∧ (State.beginTune s c).poison = s.poison ∧ (State.beginTune s c).pages = s.pages ∧
    (State.beginTune s c).jobs = s.jobs ∧ (State.beginTune s c).hub = s.hub ∧ (State.beginTune s c).fab = s.fab ∧
    (State.beginTune s c).sol = s.sol ∧ (State.beginTune s c).hist = s.hist ∧ (State.beginTune s c).ctr = s.ctr ∧
    (State.beginTune s c).pwr = s.pwr ∧ (State.beginTune s c).clusters.length = s.clusters.length ∧
    (State.beginTune s c).start.pcl.length = s.start.pcl.length ∧ (State.beginTune s c).start.flash.xidx = s.start.flash.xidx ∧
    (State.beginTune s c).start.starts = s.start.starts := by
  unfold State.beginTune
  repeat' (first | split | dsimp only)
  all_goals simp
@[simp] theorem State.tuneOut_keeps (s : State) (p : Nat) : (State.tuneOut s p).pending = s.pending ∧ (State.tuneOut s p).pages = s.pages ∧
    (State.tuneOut s p).jobs = s.jobs ∧ (State.tuneOut s p).hub = s.hub ∧ (State.tuneOut s p).fab = s.fab ∧ (State.tuneOut s p).sol = s.sol ∧
    (State.tuneOut s p).ctr = s.ctr ∧ (State.tuneOut s p).clusters.length = s.clusters.length ∧
    (State.tuneOut s p).start.pcl.length = s.start.pcl.length ∧ (State.tuneOut s p).start.flash.xidx = s.start.flash.xidx ∧
    (State.tuneOut s p).start.starts = s.start.starts := by
  simp [State.tuneOut]
@[simp] theorem State.tuneComplete_keeps (s : State) (p : Nat) (found : TuneFind) (badTiles : Nat) :
    (State.tuneComplete s p found badTiles).pending = s.pending ∧
    (State.tuneComplete s p found badTiles).pages = s.pages ∧ (State.tuneComplete s p found badTiles).jobs = s.jobs ∧
    (State.tuneComplete s p found badTiles).hub = s.hub ∧ (State.tuneComplete s p found badTiles).fab = s.fab ∧
    (State.tuneComplete s p found badTiles).sol = s.sol ∧ (State.tuneComplete s p found badTiles).ctr = s.ctr ∧
    (State.tuneComplete s p found badTiles).clusters.length = s.clusters.length ∧
    (State.tuneComplete s p found badTiles).start.pcl.length = s.start.pcl.length ∧
    (State.tuneComplete s p found badTiles).start.flash.xidx = s.start.flash.xidx ∧
    (State.tuneComplete s p found badTiles).start.starts = s.start.starts := by
  unfold State.tuneComplete
  repeat' (first | split | dsimp only)
  all_goals simp

end Sys2Proof.Machine
end

