-- ==== Sys2Proof/Laws/PerInstr.lean ====
section
/-!
SUPPORT. What holds of every command as syntax, shown command by command: a well-formed command names only clusters, ports, modules and
contexts that exist (R26, R397, R403, R446).
-/

namespace Sys2Proof.Laws.Units

/-- The units that a command names: logical clusters, ports, modules and contexts, those of a message's header included. -/
structure Named where
  clusters : List Nat := []
  ports : List Nat := []
  modules : List Nat := []
  contexts : List Nat := []

/-- The units of a message's header (R401). -/
def ofRx (r : Rx) : Named := ⟨[r.scl], r.port.toList, [r.dst, r.src], [r.ctx]⟩

/-- Two lists of units together. -/
def Named.and (a b : Named) : Named :=
  ⟨a.clusters ++ b.clusters, a.ports ++ b.ports, a.modules ++ b.modules, a.contexts ++ b.contexts⟩

/-- Every unit of the lists exists. -/
def Named.exist (n : Named) : Prop :=
  (∀ l ∈ n.clusters, l < 128) ∧ (∀ p ∈ n.ports, p < 48) ∧ (∀ m ∈ n.modules, m < 4096) ∧ (∀ c ∈ n.contexts, c < 4096)

/-- The units that a command names. -/
def named : Instr → Named
  | .nopPacket _ => {}
  | .data _ => {}
  | .read _ _ => {}
  | .load _ => {}
  | .unload _ => {}
  | .run _ => {}
  | .suspend _ => {}
  | .resume _ => {}
  | .ctlWritePacket _ => {}
  | .ctlRead _ => {}
  | .solDelta _ => {}
  | .restore _ _ => {}
  | .contextReset _ => {}
  | .ringOpen _ => {}
  | .ringClose _ => {}
  | .fwImage _ _ => {}
  | .attest _ _ _ => {}
  | .doorbellWrite _ _ _ => {}
  | .packetIntake => {}
  | .issueDecision l => { clusters := [l] }
  | .entryComplete l _ => { clusters := [l] }
  | .signal l _ => { clusters := [l] }
  | .ctlWrite l _ => { clusters := [l] }
  | .iterEnd l _ => { clusters := [l] }
  | .stepEnd l _ => { clusters := [l] }
  | .halt l _ => { clusters := [l] }
  | .mm l _ _ => { clusters := [l] }
  | .mmTa l _ _ => { clusters := [l] }
  | .mmTb l _ _ => { clusters := [l] }
  | .gramL l _ _ => { clusters := [l] }
  | .gramR l _ _ => { clusters := [l] }
  | .chain l _ _ => { clusters := [l] }
  | .reduce l _ _ => { clusters := [l] }
  | .fold l _ _ => { clusters := [l] }
  | .exportPlane l _ _ => { clusters := [l] }
  | .refresh l _ _ => { clusters := [l] }
  | .factor l _ _ => { clusters := [l] }
  | .solve l _ _ => { clusters := [l] }
  | .refreshBlock l _ => { clusters := [l] }
  | .stream l _ _ => { clusters := [l] }
  | .copy l _ _ => { clusters := [l] }
  | .release l _ => { clusters := [l] }
  | .send l _ _ => { clusters := [l] }
  | .collective l _ _ => { clusters := [l] }
  | .exchange l _ _ => { clusters := [l] }
  | .optimise l _ _ => { clusters := [l] }
  | .digest l _ _ => { clusters := [l] }
  | .wcCheck l _ _ _ _ => { clusters := [l] }
  | .vote rx key _ _ _ => (ofRx rx).and { contexts := [key.ctx] }
  | .outcome rx key _ _ _ _ => (ofRx rx).and { contexts := [key.ctx] }
  | .restoreInStep key _ => { contexts := [key.ctx] }
  | .coppiceFold _ _ _ _ _ => {}
  | .coppiceWaitExpiry key => { contexts := [key.ctx] }
  | .entryTimeout l => { clusters := [l] }
  | .deadlineExpiry key _ => { contexts := [key.ctx] }
  | .collectiveTimeout key => { contexts := [key.ctx] }
  | .signalResend l _ => { clusters := [l] }
  | .migration l => { clusters := [l] }
  | .forcedMigration l => { clusters := [l] }
  | .suspendAtBoundary l => { clusters := [l] }
  | .suspendWinExpiry key => { contexts := [key.ctx] }
  | .pause l => { clusters := [l] }
  | .drlCmdResume l => { clusters := [l] }
  | .subst l _ => { clusters := [l] }
  | .drlCommit l => { clusters := [l] }
  | .tilCommit l => { clusters := [l] }
  | .chnCommit l => { clusters := [l] }
  | .optCommit => {}
  | .solCommit => {}
  | .memCommit => {}
  | .hdgCommit => {}
  | .hubCommit => {}
  | .tstCommit => {}
  | .tstTuneCommit => {}
  | .ctrCommit => {}
  | .ctrClCommit l ctx => { clusters := [l], contexts := [ctx] }
  | .pwrCommit => {}
  | .registerWrite _ _ _ => {}
  | .memPageCmd _ ctx => { contexts := [ctx] }
  | .pageMoveComplete _ _ => {}
  | .faultDrivenMove _ _ _ => {}
  | .scrubRead _ _ _ => {}
  | .pendingDeltaApply => {}
  | .managedLeave => {}
  | .retrain _ => {}
  | .enterService => {}
  | .leaveService _ => {}
  | .fuseProposed => {}
  | .fuseSvn => {}
  | .recheck _ => {}
  | .tuneNow _ => {}
  | .rotateOut _ => {}
  | .clearRail _ => {}
  | .fhQuery _ _ => {}
  | .snap => {}
  | .snapDomain => {}
  | .clear => {}
  | .periodicDump => {}
  | .getIdentity _ => {}
  | .getMeasurements _ => {}
  | .attestRequest _ _ _ _ => {}
  | .getBudget _ => {}
  | .memRd _ _ => {}
  | .memSpecRd _ => {}
  | .memInv _ => {}
  | .memWr _ _ _ _ => {}
  | .linkReset _ _ _ => {}
  | .flr => {}
  | .cxlReset => {}
  | .write rx _ _ => ofRx rx
  | .fabricRead rx _ _ _ => ofRx rx
  | .signalMessage rx cluster _ _ _ => (ofRx rx).and { clusters := [cluster] }
  | .packetForward rx _ _ _ _ => ofRx rx
  | .ack rx _ => ofRx rx
  | .readData rx _ => ofRx rx
  | .nack rx _ => ofRx rx
  | .part rx _ _ _ _ _ _ => ofRx rx
  | .result rx _ _ _ _ _ => ofRx rx
  | .carry rx _ _ _ _ _ _ _ => ofRx rx
  | .count rx _ _ _ _ => ofRx rx
  | .abort rx key _ => (ofRx rx).and { contexts := [key.ctx] }
  | .ident rx module farPort _ _ _ => (ofRx rx).and { ports := [farPort], modules := [module] }
  | .topoReport rx module _ => (ofRx rx).and { modules := [module] }
  | .join rx module _ => (ofRx rx).and { modules := [module] }
  | .leave rx module => (ofRx rx).and { modules := [module] }
  | .linkState rx module _ => (ofRx rx).and { modules := [module] }
  | .routeDrainDone => {}
  | .drained rx module _ => (ofRx rx).and { modules := [module] }
  | .switch rx _ => ofRx rx
  | .fwChunk rx _ _ _ _ => ofRx rx
  | .fwAck rx _ _ => ofRx rx
  | .link port _ _ _ => { ports := [port] }
  | .badMsg bad => { ports := [bad.port] }
  | .flitReplay port => { ports := [port] }
  | .portTrain port module farPort _ _ _ => { ports := [port, farPort], modules := [module] }
  | .portUp port _ => { ports := [port] }
  | .portDown port => { ports := [port] }
  | .laneBerWindow port _ => { ports := [port] }
  | .opticalEngineFailover _ _ => {}
  | .edgeWindowExpiry _ => {}
  | .engineReset l _ _ => { clusters := [l] }
  | .clusterQuiesce l => { clusters := [l] }
  | .chipletReset _ => {}
  | .moduleReset _ => {}
  | .moduleResetTimeout => {}
  | .deadlockScan _ => {}
  | .tuneUpDue _ _ => {}
  | .tuneUpComplete _ _ _ => {}
  | .start _ => {}
  | .referenceMissing => {}
  | .temperatureWait _ => {}
  | .stage6Timeout => {}
  | .scanSelfTest _ => {}
  | .memorySelfTest _ => {}
  | .admission => {}
  | .pwrFail _ => {}
  | .interlockBreak => {}
  | .capEffUpdate _ _ _ => {}
  | .flowTrip _ => {}
  | .junctionTrip _ _ => {}
  | .governorLower _ => {}
  | .governorRaise _ => {}
  | .issueGating _ => {}
  | .thermalLower _ _ => {}
  | .hubMgmtStateRead => {}
  | .pwrStatusRead => {}
  | .pwrInputRead => {}
  | .pwrThermalRead => {}
  | .hubIdentRead _ => {}
  | .smbAlertResponse => {}
  | .smbClkTimeout => {}
  | .edgeClockResume _ => {}
  | .regulatorPhaseFailure _ => {}
  | .readinessWindowEnd _ => {}
  | .chargeWindowExpiry _ _ _ => {}
  | .differenceStreamRead l _ => { clusters := [l] }

/-- A well-formed command names only units that exist. -/
def Statement (i : Instr) : Prop := i.wf = true → (named i).exist

/-! ## Checks as bounds -/

theorem fst {a b : Bool} (h : (a && b) = true) : a = true := (Bool.and_eq_true_iff.mp h).1
theorem snd {a b : Bool} (h : (a && b) = true) : b = true := (Bool.and_eq_true_iff.mp h).2
theorem no {n : Nat} : ∀ x ∈ ([] : List Nat), x < n := by simp
theorem one {n x : Nat} (h : decide (x < n) = true) : ∀ y ∈ [x], y < n := by simpa using h
theorem two {n x z : Nat} (h : decide (x < n) = true) (g : decide (z < n) = true) : ∀ y ∈ [x, z], y < n := by simpa using ⟨of_decide_eq_true h, of_decide_eq_true g⟩
theorem rx_exist {r : Rx} (h : okRx r = true) : (ofRx r).exist := by
  cases r with
  | mk port dst src ctx tag scl =>
    cases port <;> simp_all [okRx, ofRx, Named.exist, okPort, okModule, okContext]
theorem and_exist {a b : Named} (ha : a.exist) (hb : b.exist) : (a.and b).exist := by
  simp only [Named.exist, Named.and, List.mem_append] at *
  refine ⟨?_, ?_, ?_, ?_⟩ <;> rintro x (h | h)
  all_goals first | exact ha.1 x h | exact hb.1 x h | exact ha.2.1 x h | exact hb.2.1 x h | exact ha.2.2.1 x h | exact hb.2.2.1 x h | exact ha.2.2.2 x h | exact hb.2.2.2 x h

/-! ## Command by command -/

theorem nopPacket (id : Nat) : Statement (.nopPacket id) := fun _ => ⟨no, no, no, no⟩
theorem data (id : Nat) : Statement (.data id) := fun _ => ⟨no, no, no, no⟩
theorem read (id : Nat) (ev : Ev) : Statement (.read id ev) := fun _ => ⟨no, no, no, no⟩
theorem load (id : Nat) : Statement (.load id) := fun _ => ⟨no, no, no, no⟩
theorem unload (id : Nat) : Statement (.unload id) := fun _ => ⟨no, no, no, no⟩
theorem run (id : Nat) : Statement (.run id) := fun _ => ⟨no, no, no, no⟩
theorem suspend (id : Nat) : Statement (.suspend id) := fun _ => ⟨no, no, no, no⟩
theorem resume (id : Nat) : Statement (.resume id) := fun _ => ⟨no, no, no, no⟩
theorem ctlWritePacket (id : Nat) : Statement (.ctlWritePacket id) := fun _ => ⟨no, no, no, no⟩
theorem ctlRead (id : Nat) : Statement (.ctlRead id) := fun _ => ⟨no, no, no, no⟩
theorem solDelta (id : Nat) : Statement (.solDelta id) := fun _ => ⟨no, no, no, no⟩
theorem restore (id : Nat) (ev : Ev) : Statement (.restore id ev) := fun _ => ⟨no, no, no, no⟩
theorem contextReset (id : Nat) : Statement (.contextReset id) := fun _ => ⟨no, no, no, no⟩
theorem ringOpen (id : Nat) : Statement (.ringOpen id) := fun _ => ⟨no, no, no, no⟩
theorem ringClose (id : Nat) : Statement (.ringClose id) := fun _ => ⟨no, no, no, no⟩
theorem fwImage (id : Nat) (img : ImageIn) : Statement (.fwImage id img) := fun _ => ⟨no, no, no, no⟩
theorem attest (id : Nat) (secs : Nat) (flashOk : Bool) : Statement (.attest id secs flashOk) := fun _ => ⟨no, no, no, no⟩
theorem doorbellWrite (ring : Nat) (value : Word) (enables : Nat) : Statement (.doorbellWrite ring value enables) := fun _ => ⟨no, no, no, no⟩
theorem packetIntake : Statement (.packetIntake) := fun _ => ⟨no, no, no, no⟩
theorem issueDecision (l : Nat) : Statement (.issueDecision l) := fun h => ⟨one h, no, no, no⟩
theorem entryComplete (l : Nat) (idx : Nat) : Statement (.entryComplete l idx) := fun h => ⟨one (fst h), no, no, no⟩
theorem signal (l : Nat) (idx : Nat) : Statement (.signal l idx) := fun h => ⟨one (fst h), no, no, no⟩
theorem ctlWrite (l : Nat) (idx : Nat) : Statement (.ctlWrite l idx) := fun h => ⟨one (fst h), no, no, no⟩
theorem iterEnd (l : Nat) (idx : Nat) : Statement (.iterEnd l idx) := fun h => ⟨one (fst h), no, no, no⟩
theorem stepEnd (l : Nat) (idx : Nat) : Statement (.stepEnd l idx) := fun h => ⟨one (fst h), no, no, no⟩
theorem halt (l : Nat) (idx : Nat) : Statement (.halt l idx) := fun h => ⟨one (fst h), no, no, no⟩
theorem mm (l : Nat) (idx : Nat) (ev : Ev) : Statement (.mm l idx ev) := fun h => ⟨one (fst h), no, no, no⟩
theorem mmTa (l : Nat) (idx : Nat) (ev : Ev) : Statement (.mmTa l idx ev) := fun h => ⟨one (fst h), no, no, no⟩
theorem mmTb (l : Nat) (idx : Nat) (ev : Ev) : Statement (.mmTb l idx ev) := fun h => ⟨one (fst h), no, no, no⟩
theorem gramL (l : Nat) (idx : Nat) (ev : Ev) : Statement (.gramL l idx ev) := fun h => ⟨one (fst h), no, no, no⟩
theorem gramR (l : Nat) (idx : Nat) (ev : Ev) : Statement (.gramR l idx ev) := fun h => ⟨one (fst h), no, no, no⟩
theorem chain (l : Nat) (idx : Nat) (ev : Ev) : Statement (.chain l idx ev) := fun h => ⟨one (fst h), no, no, no⟩
theorem reduce (l : Nat) (idx : Nat) (ev : Ev) : Statement (.reduce l idx ev) := fun h => ⟨one (fst h), no, no, no⟩
theorem fold (l : Nat) (idx : Nat) (ev : Ev) : Statement (.fold l idx ev) := fun h => ⟨one (fst h), no, no, no⟩
theorem exportPlane (l : Nat) (idx : Nat) (ev : Ev) : Statement (.exportPlane l idx ev) := fun h => ⟨one (fst h), no, no, no⟩
theorem refresh (l : Nat) (idx : Nat) (ev : Ev) : Statement (.refresh l idx ev) := fun h => ⟨one (fst h), no, no, no⟩
theorem factor (l : Nat) (idx : Nat) (ev : Ev) : Statement (.factor l idx ev) := fun h => ⟨one (fst h), no, no, no⟩
theorem solve (l : Nat) (idx : Nat) (ev : Ev) : Statement (.solve l idx ev) := fun h => ⟨one (fst h), no, no, no⟩
theorem refreshBlock (l : Nat) (ev : Ev) : Statement (.refreshBlock l ev) := fun h => ⟨one h, no, no, no⟩
theorem stream (l : Nat) (idx : Nat) (ev : Ev) : Statement (.stream l idx ev) := fun h => ⟨one (fst h), no, no, no⟩
theorem copy (l : Nat) (idx : Nat) (ev : Ev) : Statement (.copy l idx ev) := fun h => ⟨one (fst h), no, no, no⟩
theorem release (l : Nat) (idx : Nat) : Statement (.release l idx) := fun h => ⟨one (fst h), no, no, no⟩
theorem send (l : Nat) (idx : Nat) (ev : Ev) : Statement (.send l idx ev) := fun h => ⟨one (fst h), no, no, no⟩
theorem collective (l : Nat) (idx : Nat) (ev : Ev) : Statement (.collective l idx ev) := fun h => ⟨one (fst h), no, no, no⟩
theorem exchange (l : Nat) (idx : Nat) (ev : Ev) : Statement (.exchange l idx ev) := fun h => ⟨one (fst h), no, no, no⟩
theorem optimise (l : Nat) (idx : Nat) (ev : Ev) : Statement (.optimise l idx ev) := fun h => ⟨one (fst h), no, no, no⟩
theorem digest (l : Nat) (idx : Nat) (ev : Ev) : Statement (.digest l idx ev) := fun h => ⟨one (fst h), no, no, no⟩
theorem wcCheck (l : Nat) (idx : Nat) (row : Nat) (col : Nat) (seen : Option Nat) : Statement (.wcCheck l idx row col seen) := fun h => ⟨one (fst h), no, no, no⟩
theorem vote (rx : Rx) (key : Machine.TaskKey) (step : Nat) (votes : List Machine.Vote) (cops : List Machine.CopInfo) : Statement (.vote rx key step votes cops) := fun h => and_exist (rx_exist (fst h)) ⟨no, no, no, one (fst (fst (snd h)))⟩
theorem outcome (rx : Rx) (key : Machine.TaskKey) (step : Nat) (o : Machine.Outcome) (suspects : List (Nat × Nat)) (votes : List Machine.Vote) : Statement (.outcome rx key step o suspects votes) := fun h => and_exist (rx_exist (fst h)) ⟨no, no, no, one (fst (fst (snd h)))⟩
theorem restoreInStep (key : Machine.TaskKey) (ev : Ev) : Statement (.restoreInStep key ev) := fun h => ⟨no, no, no, one (fst (fst h))⟩
theorem coppiceFold (base : Nat) (baseBytes : Nat) (step : Nat) (clusters : Nat) (own : Option (Nat × Nat)) : Statement (.coppiceFold base baseBytes step clusters own) := fun _ => ⟨no, no, no, no⟩
theorem coppiceWaitExpiry (key : Machine.TaskKey) : Statement (.coppiceWaitExpiry key) := fun h => ⟨no, no, no, one (fst (fst h))⟩
theorem entryTimeout (l : Nat) : Statement (.entryTimeout l) := fun h => ⟨one h, no, no, no⟩
theorem deadlineExpiry (key : Machine.TaskKey) (blocks : List (Nat × Nat)) : Statement (.deadlineExpiry key blocks) := fun h => ⟨no, no, no, one (fst (fst h))⟩
theorem collectiveTimeout (key : Machine.TaskKey) : Statement (.collectiveTimeout key) := fun h => ⟨no, no, no, one (fst (fst h))⟩
theorem signalResend (l : Nat) (tag : Nat) : Statement (.signalResend l tag) := fun h => ⟨one h, no, no, no⟩
theorem migration (l : Nat) : Statement (.migration l) := fun h => ⟨one h, no, no, no⟩
theorem forcedMigration (l : Nat) : Statement (.forcedMigration l) := fun h => ⟨one h, no, no, no⟩
theorem suspendAtBoundary (l : Nat) : Statement (.suspendAtBoundary l) := fun h => ⟨one h, no, no, no⟩
theorem suspendWinExpiry (key : Machine.TaskKey) : Statement (.suspendWinExpiry key) := fun h => ⟨no, no, no, one (fst (fst h))⟩
theorem pause (l : Nat) : Statement (.pause l) := fun h => ⟨one h, no, no, no⟩
theorem drlCmdResume (l : Nat) : Statement (.drlCmdResume l) := fun h => ⟨one h, no, no, no⟩
theorem subst (l : Nat) (t : Nat) : Statement (.subst l t) := fun h => ⟨one (fst h), no, no, no⟩
theorem drlCommit (l : Nat) : Statement (.drlCommit l) := fun h => ⟨one h, no, no, no⟩
theorem tilCommit (l : Nat) : Statement (.tilCommit l) := fun h => ⟨one h, no, no, no⟩
theorem chnCommit (l : Nat) : Statement (.chnCommit l) := fun h => ⟨one h, no, no, no⟩
theorem optCommit : Statement (.optCommit) := fun _ => ⟨no, no, no, no⟩
theorem solCommit : Statement (.solCommit) := fun _ => ⟨no, no, no, no⟩
theorem memCommit : Statement (.memCommit) := fun _ => ⟨no, no, no, no⟩
theorem hdgCommit : Statement (.hdgCommit) := fun _ => ⟨no, no, no, no⟩
theorem hubCommit : Statement (.hubCommit) := fun _ => ⟨no, no, no, no⟩
theorem tstCommit : Statement (.tstCommit) := fun _ => ⟨no, no, no, no⟩
theorem tstTuneCommit : Statement (.tstTuneCommit) := fun _ => ⟨no, no, no, no⟩
theorem ctrCommit : Statement (.ctrCommit) := fun _ => ⟨no, no, no, no⟩
theorem ctrClCommit (l : Nat) (ctx : Nat) : Statement (.ctrClCommit l ctx) := fun h => ⟨one (fst h), no, no, one (snd h)⟩
theorem pwrCommit : Statement (.pwrCommit) := fun _ => ⟨no, no, no, no⟩
theorem registerWrite (off : Nat) (bytes : Nat) (value : Word) : Statement (.registerWrite off bytes value) := fun _ => ⟨no, no, no, no⟩
theorem memPageCmd (value : Word) (ctx : Nat) : Statement (.memPageCmd value ctx) := fun h => ⟨no, no, no, one h⟩
theorem pageMoveComplete (page : Nat) (ev : Ev) : Statement (.pageMoveComplete page ev) := fun _ => ⟨no, no, no, no⟩
theorem faultDrivenMove (page : Nat) (events : Nat) (ev : Ev) : Statement (.faultDrivenMove page events ev) := fun _ => ⟨no, no, no, no⟩
theorem scrubRead (page : Nat) (fixed : List Nat) (ev : Ev) : Statement (.scrubRead page fixed ev) := fun _ => ⟨no, no, no, no⟩
theorem pendingDeltaApply : Statement (.pendingDeltaApply) := fun _ => ⟨no, no, no, no⟩
theorem managedLeave : Statement (.managedLeave) := fun _ => ⟨no, no, no, no⟩
theorem retrain (port : Nat) : Statement (.retrain port) := fun _ => ⟨no, no, no, no⟩
theorem enterService : Statement (.enterService) := fun _ => ⟨no, no, no, no⟩
theorem leaveService (found : StartFind) : Statement (.leaveService found) := fun _ => ⟨no, no, no, no⟩
theorem fuseProposed : Statement (.fuseProposed) := fun _ => ⟨no, no, no, no⟩
theorem fuseSvn : Statement (.fuseSvn) := fun _ => ⟨no, no, no, no⟩
theorem recheck (worst : List (Nat × Nat)) : Statement (.recheck worst) := fun _ => ⟨no, no, no, no⟩
theorem tuneNow (p : Nat) : Statement (.tuneNow p) := fun _ => ⟨no, no, no, no⟩
theorem rotateOut (p : Nat) : Statement (.rotateOut p) := fun _ => ⟨no, no, no, no⟩
theorem clearRail (p : Nat) : Statement (.clearRail p) := fun _ => ⟨no, no, no, no⟩
theorem fhQuery (kind : Nat) (index : Nat) : Statement (.fhQuery kind index) := fun _ => ⟨no, no, no, no⟩
theorem snap : Statement (.snap) := fun _ => ⟨no, no, no, no⟩
theorem snapDomain : Statement (.snapDomain) := fun _ => ⟨no, no, no, no⟩
theorem clear : Statement (.clear) := fun _ => ⟨no, no, no, no⟩
theorem periodicDump : Statement (.periodicDump) := fun _ => ⟨no, no, no, no⟩
theorem getIdentity (doe : Bool) : Statement (.getIdentity doe) := fun _ => ⟨no, no, no, no⟩
theorem getMeasurements (doe : Bool) : Statement (.getMeasurements doe) := fun _ => ⟨no, no, no, no⟩
theorem attestRequest (doe : Bool) (nonce : List Byte) (secs : Nat) (flashOk : Bool) : Statement (.attestRequest doe nonce secs flashOk) := fun _ => ⟨no, no, no, no⟩
theorem getBudget (doe : Bool) : Statement (.getBudget doe) := fun _ => ⟨no, no, no, no⟩
theorem memRd (off : Nat) (ev : Ev) : Statement (.memRd off ev) := fun _ => ⟨no, no, no, no⟩
theorem memSpecRd (off : Nat) : Statement (.memSpecRd off) := fun _ => ⟨no, no, no, no⟩
theorem memInv (off : Nat) : Statement (.memInv off) := fun _ => ⟨no, no, no, no⟩
theorem memWr (off : Nat) (bytes : List Byte) (enables : List Bool) (poison : Bool) : Statement (.memWr off bytes enables poison) := fun _ => ⟨no, no, no, no⟩
theorem linkReset (width : Nat) (speed : Nat) (ide : Bool) : Statement (.linkReset width speed ide) := fun _ => ⟨no, no, no, no⟩
theorem flr : Statement (.flr) := fun _ => ⟨no, no, no, no⟩
theorem cxlReset : Statement (.cxlReset) := fun _ => ⟨no, no, no, no⟩
theorem write (rx : Rx) (addr : Nat) (bytes : List Byte) : Statement (.write rx addr bytes) := fun h => rx_exist h
theorem fabricRead (rx : Rx) (addr : Nat) (n : Nat) (ev : Ev) : Statement (.fabricRead rx addr n ev) := fun h => rx_exist h
theorem signalMessage (rx : Rx) (cluster : Nat) (ctr : Nat) (gen : Bool) (inc : Nat) : Statement (.signalMessage rx cluster ctr gen inc) := fun h => and_exist (rx_exist (fst h)) ⟨one (snd h), no, no, no⟩
theorem packetForward (rx : Rx) (pid : Nat) (words : List Word) (pay : List Byte) (find : PktFind) : Statement (.packetForward rx pid words pay find) := fun h => rx_exist h
theorem ack (rx : Rx) (e : Option Machine.PktEnd) : Statement (.ack rx e) := fun h => rx_exist h
theorem readData (rx : Rx) (bytes : List Byte) : Statement (.readData rx bytes) := fun h => rx_exist h
theorem nack (rx : Rx) (reason : Nat) : Statement (.nack rx reason) := fun h => rx_exist h
theorem part (rx : Rx) (desc : Nat) (occ : Nat) (chunk : Nat) (lo : Nat) (level : Nat) (vals : Machine.Piece) : Statement (.part rx desc occ chunk lo level vals) := fun h => rx_exist h
theorem result (rx : Rx) (desc : Nat) (occ : Nat) (chunk : Nat) (rank : Nat) (vals : Machine.Piece) : Statement (.result rx desc occ chunk rank vals) := fun h => rx_exist h
theorem carry (rx : Rx) (desc : Nat) (occ : Nat) (lo : Nat) (level : Nat) (nf : Bool) (amax : List Nat) (final : Bool) : Statement (.carry rx desc occ lo level nf amax final) := fun h => rx_exist h
theorem count (rx : Rx) (desc : Nat) (occ : Nat) (phase : Nat) (counts : List (Nat × Nat × Nat)) : Statement (.count rx desc occ phase counts) := fun h => rx_exist h
theorem abort (rx : Rx) (key : Machine.TaskKey) (status : Nat) : Statement (.abort rx key status) := fun h => and_exist (rx_exist (fst h)) ⟨no, no, no, one (fst (fst (snd h)))⟩
theorem ident (rx : Rx) (module : Nat) (farPort : Nat) (variant : Nat) (stepping : Nat) (mapId : Word) : Statement (.ident rx module farPort variant stepping mapId) := fun h => and_exist (rx_exist (fst (fst h))) ⟨no, one (snd h), one (snd (fst h)), no⟩
theorem topoReport (rx : Rx) (module : Nat) (ports : List Machine.PortRep) : Statement (.topoReport rx module ports) := fun h => and_exist (rx_exist (fst h)) ⟨no, no, one (snd h), no⟩
theorem join (rx : Rx) (module : Nat) (ports : List Machine.PortRep) : Statement (.join rx module ports) := fun h => and_exist (rx_exist (fst h)) ⟨no, no, one (snd h), no⟩
theorem leave (rx : Rx) (module : Nat) : Statement (.leave rx module) := fun h => and_exist (rx_exist (fst h)) ⟨no, no, one (snd h), no⟩
theorem linkState (rx : Rx) (module : Nat) (rep : Machine.PortRep) : Statement (.linkState rx module rep) := fun h => and_exist (rx_exist (fst h)) ⟨no, no, one (snd h), no⟩
theorem routeDrainDone : Statement (.routeDrainDone) := fun _ => ⟨no, no, no, no⟩
theorem drained (rx : Rx) (module : Nat) (change : Nat) : Statement (.drained rx module change) := fun h => and_exist (rx_exist (fst h)) ⟨no, no, one (snd h), no⟩
theorem switch (rx : Rx) (change : Nat) : Statement (.switch rx change) := fun h => rx_exist h
theorem fwChunk (rx : Rx) (seq : Nat) (chunk : Nat) (bytes : List Byte) (img : ImageIn) : Statement (.fwChunk rx seq chunk bytes img) := fun h => rx_exist h
theorem fwAck (rx : Rx) (seq : Nat) (chunk : Nat) : Statement (.fwAck rx seq chunk) := fun h => rx_exist h
theorem link (port : Nat) (ack : Nat) (req : Option Nat) (credits : List Nat) : Statement (.link port ack req credits) := fun h => ⟨no, one h, no, no⟩
theorem badMsg (bad : BadMsg) : Statement (.badMsg bad) := fun h => ⟨no, one h, no, no⟩
theorem flitReplay (port : Nat) : Statement (.flitReplay port) := fun h => ⟨no, one h, no, no⟩
theorem portTrain (port : Nat) (module : Nat) (farPort : Nat) (variant : Nat) (stepping : Nat) (mapId : Word) : Statement (.portTrain port module farPort variant stepping mapId) := fun h => ⟨no, two (fst (fst h)) (snd h), one (snd (fst h)), no⟩
theorem portUp (port : Nat) (passed : List Bool) : Statement (.portUp port passed) := fun h => ⟨no, one h, no, no⟩
theorem portDown (port : Nat) : Statement (.portDown port) := fun h => ⟨no, one h, no, no⟩
theorem laneBerWindow (port : Nat) (counts : List Nat) : Statement (.laneBerWindow port counts) := fun h => ⟨no, one h, no, no⟩
theorem opticalEngineFailover (group : Nat) (engine : Nat) : Statement (.opticalEngineFailover group engine) := fun _ => ⟨no, no, no, no⟩
theorem edgeWindowExpiry (edge : Machine.EdgeLoss) : Statement (.edgeWindowExpiry edge) := fun _ => ⟨no, no, no, no⟩
theorem engineReset (l : Nat) (engine : Nat) (unit : Nat) : Statement (.engineReset l engine unit) := fun h => ⟨one (fst (fst h)), no, no, no⟩
theorem clusterQuiesce (l : Nat) : Statement (.clusterQuiesce l) := fun h => ⟨one h, no, no, no⟩
theorem chipletReset (c : Nat) : Statement (.chipletReset c) := fun _ => ⟨no, no, no, no⟩
theorem moduleReset (found : StartFind) : Statement (.moduleReset found) := fun _ => ⟨no, no, no, no⟩
theorem moduleResetTimeout : Statement (.moduleResetTimeout) := fun _ => ⟨no, no, no, no⟩
theorem deadlockScan (queued : List (Machine.TaskKey × Machine.TaskKey)) : Statement (.deadlockScan queued) := fun _ => ⟨no, no, no, no⟩
theorem tuneUpDue (p : Nat) (hours : Nat) : Statement (.tuneUpDue p hours) := fun _ => ⟨no, no, no, no⟩
theorem tuneUpComplete (p : Nat) (found : TuneFind) (badTiles : Nat) : Statement (.tuneUpComplete p found badTiles) := fun _ => ⟨no, no, no, no⟩
theorem start (found : StartFind) : Statement (.start found) := fun _ => ⟨no, no, no, no⟩
theorem referenceMissing : Statement (.referenceMissing) := fun _ => ⟨no, no, no, no⟩
theorem temperatureWait (temps : List Nat) : Statement (.temperatureWait temps) := fun _ => ⟨no, no, no, no⟩
theorem stage6Timeout : Statement (.stage6Timeout) := fun _ => ⟨no, no, no, no⟩
theorem scanSelfTest (scans : List ScanFind) : Statement (.scanSelfTest scans) := fun _ => ⟨no, no, no, no⟩
theorem memorySelfTest (mem : MemFind) : Statement (.memorySelfTest mem) := fun _ => ⟨no, no, no, no⟩
theorem admission : Statement (.admission) := fun _ => ⟨no, no, no, no⟩
theorem pwrFail (cut : Cut) : Statement (.pwrFail cut) := fun _ => ⟨no, no, no, no⟩
theorem interlockBreak : Statement (.interlockBreak) := fun _ => ⟨no, no, no, no⟩
theorem capEffUpdate (flow : Nat) (inlet : Nat) (outlet : Nat) : Statement (.capEffUpdate flow inlet outlet) := fun _ => ⟨no, no, no, no⟩
theorem flowTrip (flow : Nat) : Statement (.flowTrip flow) := fun _ => ⟨no, no, no, no⟩
theorem junctionTrip (p : Option Nat) (tj : Nat) : Statement (.junctionTrip p tj) := fun _ => ⟨no, no, no, no⟩
theorem governorLower (meter : Meter) : Statement (.governorLower meter) := fun _ => ⟨no, no, no, no⟩
theorem governorRaise (meter : Meter) : Statement (.governorRaise meter) := fun _ => ⟨no, no, no, no⟩
theorem issueGating (above : Bool) : Statement (.issueGating above) := fun _ => ⟨no, no, no, no⟩
theorem thermalLower (p : Nat) (tj : Nat) : Statement (.thermalLower p tj) := fun _ => ⟨no, no, no, no⟩
theorem hubMgmtStateRead : Statement (.hubMgmtStateRead) := fun _ => ⟨no, no, no, no⟩
theorem pwrStatusRead : Statement (.pwrStatusRead) := fun _ => ⟨no, no, no, no⟩
theorem pwrInputRead : Statement (.pwrInputRead) := fun _ => ⟨no, no, no, no⟩
theorem pwrThermalRead : Statement (.pwrThermalRead) := fun _ => ⟨no, no, no, no⟩
theorem hubIdentRead (code : Nat) : Statement (.hubIdentRead code) := fun _ => ⟨no, no, no, no⟩
theorem smbAlertResponse : Statement (.smbAlertResponse) := fun _ => ⟨no, no, no, no⟩
theorem smbClkTimeout : Statement (.smbClkTimeout) := fun _ => ⟨no, no, no, no⟩
theorem edgeClockResume (edge : Machine.Edge) : Statement (.edgeClockResume edge) := fun _ => ⟨no, no, no, no⟩
theorem regulatorPhaseFailure (rail : Nat) : Statement (.regulatorPhaseFailure rail) := fun _ => ⟨no, no, no, no⟩
theorem readinessWindowEnd (worst : List (Nat × Nat)) : Statement (.readinessWindowEnd worst) := fun _ => ⟨no, no, no, no⟩
theorem chargeWindowExpiry (kind : Nat) (index : Nat) (hours : Nat) : Statement (.chargeWindowExpiry kind index hours) := fun _ => ⟨no, no, no, no⟩
theorem differenceStreamRead (l : Nat) (ev : Ev) : Statement (.differenceStreamRead l ev) := fun h => ⟨one h, no, no, no⟩

end Sys2Proof.Laws.Units
end

