-- ==== Sys2Proof/Laws/Steps.lean ====
section
/-!
SUPPORT. One lemma for each operation, which says every part of the state that it keeps. Here: the step, its outcomes, restores and the Coppice, and what a command leaves of the queue.
-/

namespace Sys2Proof.Machine

/-! ## Steps -/

@[simp] theorem State.advanceScales_keeps (s : State) (k : TaskKey) (ls : List Nat) (commit : Bool) :
    (State.advanceScales s k ls commit).pending = s.pending ∧
    (State.advanceScales s k ls commit).tags = s.tags ∧ (State.advanceScales s k ls commit).pages = s.pages ∧
    (State.advanceScales s k ls commit).clusters = s.clusters ∧ (State.advanceScales s k ls commit).hub = s.hub ∧
    (State.advanceScales s k ls commit).fab = s.fab ∧ (State.advanceScales s k ls commit).sol = s.sol ∧
    (State.advanceScales s k ls commit).start = s.start ∧ (State.advanceScales s k ls commit).hist = s.hist ∧
    (State.advanceScales s k ls commit).ctr = s.ctr ∧ (State.advanceScales s k ls commit).pwr = s.pwr := by
  unfold State.advanceScales
  (repeat' split) <;> simp
@[simp] theorem State.startStreams_keeps (s : State) (k : TaskKey) (step : Nat) (vs : List Vote) :
    (State.startStreams s k step vs).pending = s.pending ∧
    (State.startStreams s k step vs).mem = s.mem ∧ (State.startStreams s k step vs).tags = s.tags ∧
    (State.startStreams s k step vs).poison = s.poison ∧ (State.startStreams s k step vs).pages = s.pages ∧
    (State.startStreams s k step vs).clusters = s.clusters ∧ (State.startStreams s k step vs).jobs = s.jobs ∧
    (State.startStreams s k step vs).fab = s.fab ∧ (State.startStreams s k step vs).sol = s.sol ∧
    (State.startStreams s k step vs).start = s.start ∧ (State.startStreams s k step vs).hist = s.hist ∧
    (State.startStreams s k step vs).ctr = s.ctr ∧ (State.startStreams s k step vs).pwr = s.pwr ∧
    (State.startStreams s k step vs).hub.module = s.hub.module := by
  unfold State.startStreams
  (repeat' split) <;> simp
@[simp] theorem State.planRec_keeps (s : State) (k : TaskKey) (f : ParamPlan → StepRec → StepRec) : (State.planRec s k f).pending = s.pending ∧
    (State.planRec s k f).tags = s.tags ∧ (State.planRec s k f).clusters = s.clusters ∧ (State.planRec s k f).jobs = s.jobs ∧
    (State.planRec s k f).fab = s.fab ∧ (State.planRec s k f).sol = s.sol ∧ (State.planRec s k f).start = s.start ∧
    (State.planRec s k f).hist = s.hist ∧ (State.planRec s k f).ctr = s.ctr ∧ (State.planRec s k f).pwr = s.pwr ∧
    (State.planRec s k f).hub.module = s.hub.module := by
  unfold State.planRec
  (repeat' split) <;> simp
@[simp] theorem State.trainRec_keeps (s : State) (k : TaskKey) (f : StepRec → StepRec) : (State.trainRec s k f).pending = s.pending ∧
    (State.trainRec s k f).tags = s.tags ∧ (State.trainRec s k f).clusters = s.clusters ∧ (State.trainRec s k f).jobs = s.jobs ∧
    (State.trainRec s k f).fab = s.fab ∧ (State.trainRec s k f).sol = s.sol ∧ (State.trainRec s k f).start = s.start ∧
    (State.trainRec s k f).hist = s.hist ∧ (State.trainRec s k f).ctr = s.ctr ∧ (State.trainRec s k f).pwr = s.pwr ∧
    (State.trainRec s k f).hub.module = s.hub.module := by
  unfold State.trainRec
  (repeat' split) <;> simp
@[simp] theorem State.trainLs_keeps (s : State) (k : TaskKey) : (State.trainLs s k).pending = s.pending ∧ (State.trainLs s k).pages = s.pages ∧
    (State.trainLs s k).clusters = s.clusters ∧ (State.trainLs s k).jobs = s.jobs ∧ (State.trainLs s k).hub = s.hub ∧
    (State.trainLs s k).fab = s.fab ∧ (State.trainLs s k).sol = s.sol ∧ (State.trainLs s k).start = s.start ∧
    (State.trainLs s k).hist = s.hist ∧ (State.trainLs s k).ctr = s.ctr ∧ (State.trainLs s k).pwr = s.pwr := by
  unfold State.trainLs
  (repeat' split) <;> simp
@[simp] theorem State.rewindTask_keeps (s : State) (k : TaskKey) (ls : List Nat) : (State.rewindTask s k ls).pending = s.pending ∧
    (State.rewindTask s k ls).jobs = s.jobs ∧ (State.rewindTask s k ls).pwr = s.pwr ∧
    (State.rewindTask s k ls).clusters.length = s.clusters.length ∧ (State.rewindTask s k ls).fab.ports.length = s.fab.ports.length ∧
    (State.rewindTask s k ls).start.pcl.length = s.start.pcl.length ∧ (State.rewindTask s k ls).start.flash.xidx = s.start.flash.xidx ∧
    (State.rewindTask s k ls).start.lc = s.start.lc ∧ (State.rewindTask s k ls).start.starts = s.start.starts ∧
    (State.rewindTask s k ls).hub.module = s.hub.module := by
  unfold State.rewindTask
  extract_lets s1
  have h1 : s1.pending = s.pending ∧ s1.jobs = s.jobs ∧ s1.pwr = s.pwr ∧ s1.clusters.length = s.clusters.length ∧
      s1.fab.ports.length = s.fab.ports.length ∧ s1.start.pcl.length = s.start.pcl.length ∧ s1.start.flash.xidx = s.start.flash.xidx ∧
      s1.start.lc = s.start.lc ∧ s1.start.starts = s.start.starts ∧ s1.hub.module = s.hub.module := by simp [s1]
  clear_value s1
  split
  · simp [h1]
  · have h2 : ∀ (t u : State), ls.foldl (fun (s : State) l => match (s.drlOf k l).bind Drl.rewind with | some d => (s.setDrlOf k l d).settlePause l | none => s) t = u →
        u.pending = t.pending ∧ u.jobs = t.jobs ∧ u.pwr = t.pwr ∧ u.clusters.length = t.clusters.length ∧
            u.fab.ports.length = t.fab.ports.length ∧ u.start.pcl.length = t.start.pcl.length ∧ u.start.flash.xidx = t.start.flash.xidx ∧
            u.start.lc = t.start.lc ∧ u.start.starts = t.start.starts ∧ u.hub.module = t.hub.module := by
      rintro t _ rfl
      (repeat' apply And.intro) <;> ((first | apply foldl_pending | apply foldl_jobs | apply foldl_pwr | apply foldl_clusters_length | apply foldl_ports_length | apply foldl_pcl_length | apply foldl_xidx | apply foldl_lc | apply foldl_starts | apply foldl_module) <;> (intros; (repeat' split) <;> simp))
    obtain ⟨a0, a1, a2, a3, a4, a5, a6, a7, a8, a9⟩ := h1
    obtain ⟨b0, b1, b2, b3, b4, b5, b6, b7, b8, b9⟩ := h2 s1 _ rfl
    exact ⟨b0.trans a0, b1.trans a1, b2.trans a2, b3.trans a3, b4.trans a4, b5.trans a5, b6.trans a6, b7.trans a7, b8.trans a8, b9.trans a9⟩
@[simp] theorem State.nextStep_keeps (s : State) (k : TaskKey) (t : Task) (ls : List Nat) : (State.nextStep s k t ls).pending = s.pending ∧
    (State.nextStep s k t ls).jobs = s.jobs ∧ (State.nextStep s k t ls).pwr = s.pwr ∧
    (State.nextStep s k t ls).clusters.length = s.clusters.length ∧ (State.nextStep s k t ls).fab.ports.length = s.fab.ports.length ∧
    (State.nextStep s k t ls).start.pcl.length = s.start.pcl.length ∧ (State.nextStep s k t ls).start.flash.xidx = s.start.flash.xidx ∧
    (State.nextStep s k t ls).start.lc = s.start.lc ∧ (State.nextStep s k t ls).start.starts = s.start.starts ∧
    (State.nextStep s k t ls).hub.module = s.hub.module := by
  unfold State.nextStep
  repeat' (first | split | dsimp only)
  all_goals simp
theorem State.reapply_keeps {s : State} {k : TaskKey} {step : Nat} {t : State} (h : s.reapply k step = some t) : t.pending = s.pending ∧
    t.clusters = s.clusters ∧ t.jobs = s.jobs ∧ t.hub = s.hub ∧ t.fab = s.fab ∧ t.sol = s.sol ∧ t.start = s.start ∧ t.hist = s.hist ∧
    t.ctr = s.ctr ∧ t.pwr = s.pwr := by
  unfold State.reapply at h
  dsimp only at h
  split at h
  · cases h
  · cases h
    simp
@[simp] theorem State.retry_keeps (s : State) (k : TaskKey) (step : Nat) (ls : List Nat) : (State.retry s k step ls).pending = s.pending ∧
    (State.retry s k step ls).jobs = s.jobs ∧ (State.retry s k step ls).pwr = s.pwr ∧
    (State.retry s k step ls).clusters.length = s.clusters.length ∧ (State.retry s k step ls).fab.ports.length = s.fab.ports.length ∧
    (State.retry s k step ls).start.pcl.length = s.start.pcl.length ∧ (State.retry s k step ls).start.flash.xidx = s.start.flash.xidx ∧
    (State.retry s k step ls).start.lc = s.start.lc ∧ (State.retry s k step ls).start.starts = s.start.starts ∧
    (State.retry s k step ls).hub.module = s.hub.module := by
  unfold State.retry
  split
  · simp
  · have h := State.reapply_keeps ‹_›
    simp [h]
@[simp] theorem State.commit_keeps (s : State) (k : TaskKey) (t : Task) (ls : List Nat) (vs : List Vote) :
    (State.commit s k t ls vs).pending = s.pending ∧
    (State.commit s k t ls vs).pwr = s.pwr ∧ (State.commit s k t ls vs).clusters.length = s.clusters.length ∧
    (State.commit s k t ls vs).fab.ports.length = s.fab.ports.length ∧ (State.commit s k t ls vs).start.pcl.length = s.start.pcl.length ∧
    (State.commit s k t ls vs).start.flash.xidx = s.start.flash.xidx ∧ (State.commit s k t ls vs).start.lc = s.start.lc ∧
    (State.commit s k t ls vs).start.starts = s.start.starts ∧ (State.commit s k t ls vs).hub.module = s.hub.module := by
  unfold State.commit
  repeat' (first | split | dsimp only)
  all_goals simp
@[simp] theorem State.skip_keeps (s : State) (k : TaskKey) (t : Task) (ls : List Nat) (vs : List Vote) :
    (State.skip s k t ls vs).pending = s.pending ∧
    (State.skip s k t ls vs).pwr = s.pwr ∧ (State.skip s k t ls vs).clusters.length = s.clusters.length ∧
    (State.skip s k t ls vs).fab.ports.length = s.fab.ports.length ∧ (State.skip s k t ls vs).start.pcl.length = s.start.pcl.length ∧
    (State.skip s k t ls vs).start.flash.xidx = s.start.flash.xidx ∧ (State.skip s k t ls vs).start.lc = s.start.lc ∧
    (State.skip s k t ls vs).start.starts = s.start.starts ∧ (State.skip s k t ls vs).hub.module = s.hub.module := by
  unfold State.skip
  repeat' (first | split | dsimp only)
  all_goals simp
@[simp] theorem State.again_keeps (s : State) (k : TaskKey) (t : Task) (ls : List Nat) (o : Outcome) (vs : List Vote) :
    (State.again s k t ls o vs).pending = s.pending ∧
    (State.again s k t ls o vs).tags = s.tags ∧ (State.again s k t ls o vs).clusters = s.clusters ∧ (State.again s k t ls o vs).jobs = s.jobs ∧
    (State.again s k t ls o vs).fab = s.fab ∧ (State.again s k t ls o vs).sol = s.sol ∧ (State.again s k t ls o vs).start = s.start ∧
    (State.again s k t ls o vs).hist = s.hist ∧ (State.again s k t ls o vs).ctr = s.ctr ∧ (State.again s k t ls o vs).pwr = s.pwr ∧
    (State.again s k t ls o vs).hub.module = s.hub.module := by
  unfold State.again
  (repeat' split) <;> simp
@[simp] theorem State.chargeSuspects_keeps (s : State) (sus : List (Nat × Nat)) : (State.chargeSuspects s sus).pending = s.pending ∧
    (State.chargeSuspects s sus).pages = s.pages ∧ (State.chargeSuspects s sus).jobs = s.jobs ∧ (State.chargeSuspects s sus).hub = s.hub ∧
    (State.chargeSuspects s sus).fab = s.fab ∧ (State.chargeSuspects s sus).sol = s.sol ∧ (State.chargeSuspects s sus).ctr = s.ctr ∧
    (State.chargeSuspects s sus).clusters.length = s.clusters.length ∧ (State.chargeSuspects s sus).start.pcl.length = s.start.pcl.length ∧
    (State.chargeSuspects s sus).start.flash.xidx = s.start.flash.xidx ∧ (State.chargeSuspects s sus).start.starts = s.start.starts := by
  unfold State.chargeSuspects
  repeat' (first | split | dsimp only)
  all_goals (repeat' apply And.intro)
  all_goals (try simp; done)
  all_goals ((first | apply foldl_pending | apply foldl_pages | apply foldl_jobs | apply foldl_hub | apply foldl_fab | apply foldl_sol | apply foldl_ctr | apply foldl_clusters_length | apply foldl_pcl_length | apply foldl_xidx | apply foldl_starts) <;> (intros; (repeat' (first | split | dsimp only)) <;> simp))
@[simp] theorem State.noteOutcome_keeps (s : State) (k : TaskKey) (ls : List Nat) (vs : List Vote) :
    (State.noteOutcome s k ls vs).pending = s.pending ∧
    (State.noteOutcome s k ls vs).tags = s.tags ∧ (State.noteOutcome s k ls vs).jobs = s.jobs ∧ (State.noteOutcome s k ls vs).fab = s.fab ∧
    (State.noteOutcome s k ls vs).sol = s.sol ∧ (State.noteOutcome s k ls vs).start = s.start ∧ (State.noteOutcome s k ls vs).hist = s.hist ∧
    (State.noteOutcome s k ls vs).ctr = s.ctr ∧ (State.noteOutcome s k ls vs).pwr = s.pwr ∧
    (State.noteOutcome s k ls vs).clusters.length = s.clusters.length ∧ (State.noteOutcome s k ls vs).hub.module = s.hub.module := by
  simp [State.noteOutcome]
@[simp] theorem State.applyOutcome_keeps (s : State) (k : TaskKey) (t : Task) (j : Job) (o : Outcome) (sus : List (Nat × Nat)) (vs : List Vote) :
    (State.applyOutcome s k t j o sus vs).pending = s.pending ∧
    (State.applyOutcome s k t j o sus vs).clusters.length = s.clusters.length ∧
    (State.applyOutcome s k t j o sus vs).fab.ports.length = s.fab.ports.length ∧
    (State.applyOutcome s k t j o sus vs).start.pcl.length = s.start.pcl.length ∧
    (State.applyOutcome s k t j o sus vs).start.flash.xidx = s.start.flash.xidx ∧
    (State.applyOutcome s k t j o sus vs).start.starts = s.start.starts ∧
    (State.applyOutcome s k t j o sus vs).hub.module = s.hub.module := by
  unfold State.applyOutcome
  repeat' (first | split | dsimp only)
  all_goals simp
@[simp] theorem State.deliver_keeps (s : State) (k : TaskKey) (t : Task) (j : Job) (o : Outcome) (sus : List (Nat × Nat)) (vs : List Vote) :
    (State.deliver s k t j o sus vs).pending = s.pending ∧
    (State.deliver s k t j o sus vs).clusters.length = s.clusters.length ∧
    (State.deliver s k t j o sus vs).fab.ports.length = s.fab.ports.length ∧
    (State.deliver s k t j o sus vs).start.pcl.length = s.start.pcl.length ∧
    (State.deliver s k t j o sus vs).start.flash.xidx = s.start.flash.xidx ∧ (State.deliver s k t j o sus vs).start.starts = s.start.starts ∧
    (State.deliver s k t j o sus vs).hub.module = s.hub.module := by
  simp [State.deliver]
@[simp] theorem State.decideStep_keeps (s : State) (k : TaskKey) : (State.decideStep s k).pending = s.pending ∧
    (State.decideStep s k).clusters.length = s.clusters.length ∧ (State.decideStep s k).fab.ports.length = s.fab.ports.length ∧
    (State.decideStep s k).start.pcl.length = s.start.pcl.length ∧ (State.decideStep s k).start.flash.xidx = s.start.flash.xidx ∧
    (State.decideStep s k).start.starts = s.start.starts ∧ (State.decideStep s k).hub.module = s.hub.module := by
  unfold State.decideStep
  (repeat' split) <;> simp
@[simp] theorem State.passVotes_keeps (s : State) (k : TaskKey) : (State.passVotes s k).pending = s.pending ∧
    (State.passVotes s k).clusters.length = s.clusters.length ∧ (State.passVotes s k).fab.ports.length = s.fab.ports.length ∧
    (State.passVotes s k).start.pcl.length = s.start.pcl.length ∧ (State.passVotes s k).start.flash.xidx = s.start.flash.xidx ∧
    (State.passVotes s k).start.starts = s.start.starts ∧ (State.passVotes s k).hub.module = s.hub.module := by
  unfold State.passVotes
  repeat' (first | split | dsimp only)
  all_goals simp
@[simp] theorem State.doStepEnd_keeps (s : State) (x : Site) : (State.doStepEnd s x).pending = s.pending ∧
    (State.doStepEnd s x).clusters.length = s.clusters.length ∧ (State.doStepEnd s x).fab.ports.length = s.fab.ports.length ∧
    (State.doStepEnd s x).start.pcl.length = s.start.pcl.length ∧ (State.doStepEnd s x).start.flash.xidx = s.start.flash.xidx ∧
    (State.doStepEnd s x).start.starts = s.start.starts ∧ (State.doStepEnd s x).hub.module = s.hub.module := by
  unfold State.doStepEnd
  repeat' (first | split | dsimp only)
  all_goals simp
@[simp] theorem State.takeVote_keeps (s : State) (k : TaskKey) (step : Nat) (vs : List Vote) (cops : List CopInfo) :
    (State.takeVote s k step vs cops).pending = s.pending ∧
    (State.takeVote s k step vs cops).clusters.length = s.clusters.length ∧
    (State.takeVote s k step vs cops).fab.ports.length = s.fab.ports.length ∧
    (State.takeVote s k step vs cops).start.pcl.length = s.start.pcl.length ∧
    (State.takeVote s k step vs cops).start.flash.xidx = s.start.flash.xidx ∧ (State.takeVote s k step vs cops).start.starts = s.start.starts ∧
    (State.takeVote s k step vs cops).hub.module = s.hub.module := by
  unfold State.takeVote
  repeat' (first | split | dsimp only)
  all_goals simp
@[simp] theorem State.takeOutcome_keeps (s : State) (k : TaskKey) (step : Nat) (o : Outcome) (sus : List (Nat × Nat)) (vs : List Vote) :
    (State.takeOutcome s k step o sus vs).pending = s.pending ∧
    (State.takeOutcome s k step o sus vs).clusters.length = s.clusters.length ∧
    (State.takeOutcome s k step o sus vs).fab.ports.length = s.fab.ports.length ∧
    (State.takeOutcome s k step o sus vs).start.pcl.length = s.start.pcl.length ∧
    (State.takeOutcome s k step o sus vs).start.flash.xidx = s.start.flash.xidx ∧
    (State.takeOutcome s k step o sus vs).start.starts = s.start.starts ∧
    (State.takeOutcome s k step o sus vs).hub.module = s.hub.module := by
  unfold State.takeOutcome
  (repeat' split) <;> simp
@[simp] theorem State.rotateNow_keeps (s : State) (l : Nat) : (State.rotateNow s l).pending = s.pending ∧
    (State.rotateNow s l).pages = s.pages ∧ (State.rotateNow s l).jobs = s.jobs ∧ (State.rotateNow s l).hub = s.hub ∧
    (State.rotateNow s l).fab = s.fab ∧ (State.rotateNow s l).sol = s.sol ∧ (State.rotateNow s l).ctr = s.ctr ∧
    (State.rotateNow s l).clusters.length = s.clusters.length ∧ (State.rotateNow s l).start.pcl.length = s.start.pcl.length ∧
    (State.rotateNow s l).start.flash.xidx = s.start.flash.xidx ∧ (State.rotateNow s l).start.starts = s.start.starts := by
  unfold State.rotateNow
  (repeat' split) <;> simp
@[simp] theorem State.endRestore_keeps (s : State) (k : TaskKey) (t : Task) (j : Job) (r : Restore) (sus : List (Nat × Nat)) (ev : Ev) :
    (State.endRestore s k t j r sus ev).pending = s.pending ∧
    (State.endRestore s k t j r sus ev).jobs = s.jobs ∧ (State.endRestore s k t j r sus ev).clusters.length = s.clusters.length ∧
    (State.endRestore s k t j r sus ev).fab.ports.length = s.fab.ports.length ∧
    (State.endRestore s k t j r sus ev).start.pcl.length = s.start.pcl.length ∧
    (State.endRestore s k t j r sus ev).start.flash.xidx = s.start.flash.xidx ∧
    (State.endRestore s k t j r sus ev).start.starts = s.start.starts ∧ (State.endRestore s k t j r sus ev).hub.module = s.hub.module := by
  unfold State.endRestore
  repeat' (first | split | dsimp only)
  all_goals simp
@[simp] theorem State.restoreStep_keeps (s : State) (k : TaskKey) (ev : Ev) : (State.restoreStep s k ev).pending = s.pending ∧
    (State.restoreStep s k ev).jobs = s.jobs ∧ (State.restoreStep s k ev).clusters.length = s.clusters.length ∧
    (State.restoreStep s k ev).fab.ports.length = s.fab.ports.length ∧ (State.restoreStep s k ev).start.pcl.length = s.start.pcl.length ∧
    (State.restoreStep s k ev).start.flash.xidx = s.start.flash.xidx ∧ (State.restoreStep s k ev).start.starts = s.start.starts ∧
    (State.restoreStep s k ev).hub.module = s.hub.module := by
  unfold State.restoreStep
  (repeat' split) <;> simp
@[simp] theorem State.storeFold_keeps (s : State) (base : Nat) (step : Nat) (x3 : Option (List LogRec)) :
    (State.storeFold s base step x3).pending = s.pending ∧
    (State.storeFold s base step x3).tags = s.tags ∧ (State.storeFold s base step x3).pages = s.pages ∧
    (State.storeFold s base step x3).clusters = s.clusters ∧ (State.storeFold s base step x3).jobs = s.jobs ∧
    (State.storeFold s base step x3).hub = s.hub ∧ (State.storeFold s base step x3).fab = s.fab ∧ (State.storeFold s base step x3).sol = s.sol ∧
    (State.storeFold s base step x3).start = s.start ∧ (State.storeFold s base step x3).hist = s.hist ∧
    (State.storeFold s base step x3).ctr = s.ctr ∧ (State.storeFold s base step x3).pwr = s.pwr := by
  unfold State.storeFold
  (repeat' split) <;> simp
@[simp] theorem State.foldLog_keeps (s : State) (base : Nat) (baseBytes : Nat) (step : Nat) (clusters : Nat) :
    (State.foldLog s base baseBytes step clusters).pending = s.pending ∧
    (State.foldLog s base baseBytes step clusters).tags = s.tags ∧ (State.foldLog s base baseBytes step clusters).pages = s.pages ∧
    (State.foldLog s base baseBytes step clusters).clusters = s.clusters ∧ (State.foldLog s base baseBytes step clusters).jobs = s.jobs ∧
    (State.foldLog s base baseBytes step clusters).hub = s.hub ∧ (State.foldLog s base baseBytes step clusters).fab = s.fab ∧
    (State.foldLog s base baseBytes step clusters).sol = s.sol ∧ (State.foldLog s base baseBytes step clusters).start = s.start ∧
    (State.foldLog s base baseBytes step clusters).hist = s.hist ∧ (State.foldLog s base baseBytes step clusters).ctr = s.ctr ∧
    (State.foldLog s base baseBytes step clusters).pwr = s.pwr := by
  rw [State.foldLog]
  simp only [State.storeFold_keeps, and_self]
@[simp] theorem State.copNews_keeps (s : State) (k : TaskKey) : (State.copNews s k).pending = s.pending ∧
    (State.copNews s k).clusters.length = s.clusters.length ∧ (State.copNews s k).fab.ports.length = s.fab.ports.length ∧
    (State.copNews s k).start.pcl.length = s.start.pcl.length ∧ (State.copNews s k).start.flash.xidx = s.start.flash.xidx ∧
    (State.copNews s k).start.starts = s.start.starts ∧ (State.copNews s k).hub.module = s.hub.module := by
  unfold State.copNews
  repeat' (first | split | dsimp only)
  all_goals simp
@[simp] theorem State.foldedOwn_keeps (s : State) (ctx : Nat) (job : Nat) (step : Nat) : (State.foldedOwn s ctx job step).pending = s.pending ∧
    (State.foldedOwn s ctx job step).clusters.length = s.clusters.length ∧
    (State.foldedOwn s ctx job step).fab.ports.length = s.fab.ports.length ∧
    (State.foldedOwn s ctx job step).start.pcl.length = s.start.pcl.length ∧
    (State.foldedOwn s ctx job step).start.flash.xidx = s.start.flash.xidx ∧ (State.foldedOwn s ctx job step).start.starts = s.start.starts ∧
    (State.foldedOwn s ctx job step).hub.module = s.hub.module := by
  unfold State.foldedOwn
  repeat' (first | split | dsimp only)
  all_goals simp
@[simp] theorem State.copExpired_keeps (s : State) (k : TaskKey) : (State.copExpired s k).pending = s.pending ∧
    (State.copExpired s k).mem = s.mem ∧ (State.copExpired s k).tags = s.tags ∧ (State.copExpired s k).poison = s.poison ∧
    (State.copExpired s k).pages = s.pages ∧ (State.copExpired s k).clusters = s.clusters ∧ (State.copExpired s k).jobs = s.jobs ∧
    (State.copExpired s k).sol = s.sol ∧ (State.copExpired s k).start = s.start ∧ (State.copExpired s k).hist = s.hist ∧
    (State.copExpired s k).pwr = s.pwr ∧ (State.copExpired s k).fab.ports.length = s.fab.ports.length ∧
    (State.copExpired s k).hub.module = s.hub.module := by
  unfold State.copExpired
  repeat' (first | split | dsimp only)
  all_goals simp

/-! ## Step -/

@[simp] theorem State.withFetchWord_keeps (s : State) (nbits : Nat) (w : Nat) : (State.withFetchWord s nbits w).mem = s.mem ∧
    (State.withFetchWord s nbits w).tags = s.tags ∧ (State.withFetchWord s nbits w).poison = s.poison ∧
    (State.withFetchWord s nbits w).pages = s.pages ∧ (State.withFetchWord s nbits w).clusters = s.clusters ∧
    (State.withFetchWord s nbits w).jobs = s.jobs ∧ (State.withFetchWord s nbits w).hub = s.hub ∧ (State.withFetchWord s nbits w).fab = s.fab ∧
    (State.withFetchWord s nbits w).sol = s.sol ∧ (State.withFetchWord s nbits w).start = s.start ∧
    (State.withFetchWord s nbits w).hist = s.hist ∧ (State.withFetchWord s nbits w).ctr = s.ctr ∧
    (State.withFetchWord s nbits w).pwr = s.pwr := by
  unfold State.withFetchWord
  (repeat' split) <;> simp

end Sys2Proof.Machine
end

