-- ==== Sys2Proof/Tests/Slice0.lean ====
section
/-!
SUPPORT. The model's own tests: ill-formed commands that WellFormed refuses, a witness for the hypotheses of every statement, clause by
clause, and the worked examples of the spec. A witness bears the name of its statement; the statements that join several shapes have one for
each shape:
CommitsTakeEffectOrAreRefused: wit_CommitPutsTheShadowIntoEffect, wit_CommitOutOfBoundsOnlySetsCommitErr.
ManagementBusServesItsWords: wit_ManagementBusServesItsWords, wit_ManagementStateFields, wit_HaltedHubTakesNoCommand.
SnapWritesOneRecord: wit_SnapWritesOneRecord, wit_ClearIsRemembered.
CapAndGovernorFollowTheReadings: wit_CapFollowsFlowAndInlet, wit_GovernorTakesOneStep.
EdgesRailsAndChargesAge: wit_EdgeWindowsExpireAndResume, wit_RailsAndChargesAge.
TuneUpRunsAsCommanded: wit_TuneUpRunsAndPasses, wit_TuneCommandsAct.
ServiceAndFusesFollowTheLifeCycle: wit_ServiceIsEnteredWithoutJobs, wit_FusesAreProgrammedOnlyWhereAllowed.
HostRequestsAreServed: wit_HostReadsServeMemory, wit_HostWritesItsEnabledBytes, wit_HostSideResets.
PageMovesKeepBytes: wit_PageMovesKeepBytes, wit_HeldWritesLandAfterTheMove.
FaultsMoveFramesAndLatch: wit_FaultsMoveFrames, wit_FirstFaultStaysLatched.
ControlPacketsKeepToTheirContext: wit_ControlPacketsComplete, wit_JobContextsReachTheirOwnWords.
DataAndReadPacketsMoveBytes: wit_DataPacketsLand, wit_ReadPacketsCopy.
SuspendSavesAndResumeRestores: wit_SuspendSavesAndResumeRestores, wit_SaveWordsRoundTrip.
RingsAndContextsClose: wit_RingsOpenAndClose, wit_ContextResetEndsItsTasks.
ImagesTravelAndInstall: wit_ImagesInstallWhereTheyVerify, wit_FirmwareTravelsTheTree.
SignalsReachTheirCounters: wit_SignalsAreSent, wit_SignalMessagesRaiseCounters.
ControlEntriesActAndHaltEnds: wit_ControlEntriesAct, wit_HaltEndsTheTask.
VotesDecideTheStep: wit_VotesAreGathered, wit_OutcomesRewindTheTask.
AbortsFreeTheClusters: wit_AbortFreesTheClusters, wit_WindowsAbortTheTask, wit_DeadlockAbortsTheYounger.
RestoresBeginAndVerify: wit_RestoresBeginAndVerify, wit_RestorePacketsAct.
CoppiceFollowsTheSteps: wit_CoppiceFoldsWholeSteps, wit_StreamsSendTheirPairs.
MatrixEntriesRun: wit_MatrixProductsRun, wit_GramEntriesAdd.
VectorFetchAndSendEntriesRun: wit_VectorAndFetchEntriesRun, wit_SendsArePiecewise.
SolverEntriesAndDeltasRun: wit_SolverEntriesRun, wit_DeltasAreAppliedWhole.
TopiaryRunsAndRefreshes: wit_TopiaryEntriesRun, wit_RefreshBlocksInOrder.
CollectivesCombineAndComplete: wit_CollectivesStart, wit_CollectiveMessagesAreTaken.
UpdatesDigestsAndChecksRun: wit_UpdatesAndDigestsRun, wit_WorkingCopiesAreChecked.
PortsTrainAndRetry: wit_PortsTrainAndFall, wit_LinksRetryAndReturnCredits.
-/

namespace Sys2Proof.Tests
open Sys2Proof.Machine

set_option Elab.async false

/-! ## Small states that the witnesses and tests start from -/

/-- The state after reset. -/
def s0 : State := State.reset

/-- A message header of module 0x040 itself. -/
def rx : Rx := ⟨none, 0x40, 0x40, 0, 0, 0, 0⟩
/-- A task of context 1. -/
def key : TaskKey := ⟨1, 1, 0⟩

/-- An entry that names nothing but its opcode. -/
def entry (op : Opcode) : Entry :=
  { op, reord := false, mig := true, fence := 0, sigOn := false, rnd := 0, waitEn := false, waitCtr := 0, sigCtr := 0, mask := 1, waitVal := 0,
    opa := noIdx, opb := noIdx, opd := noIdx, aux := noIdx, w2 := 0, w3 := 0 }

/-- A flight whose work is still to do. -/
def flight (i : Nat) : Flight :=
  { idx := i, work := .todo, til := tilCfgDefault, chn := 0, tag := none, flags := {}, hyper := [], sent := 0 }

/-- A job of context 1 whose task 0 runs on cluster 0. -/
def job (es : List Entry) : Job :=
  { ctx := 1, handle := 1, seed := 0, drl := none, regions := [], pages := [], tasks := [⟨0, 4, false, 0, 0, 1000, 1000⟩], tensors := [], chains := [],
    reds := [], streams := [], exchs := [], opts := [], slots := [], tops := [], cassettes := [⟨0, 0, es, []⟩], shard := none, param := none,
    pairs := [], curv := none, sol := none, hlens := [], factored := [] }

def task : Task := { Task.load key 0 with st := .running }

/-- The task of a job runs on cluster 0 with the given entries in flight. -/
def runs (j : Job) (fs : List Flight) : State :=
  { s0 with
    jobs := [j], hub := { s0.hub with tasks := [task] }
    clusters := { Cluster.reset with drl := { Drl.start key with flights := fs } } :: List.replicate 127 Cluster.reset }

/-- A tensor of 2 rows and 8 columns of F32 at an address, each of its own hazard. -/
def tensor (base haz : Nat) : Tensor :=
  { fmt := .f32, base, srecEn := false, srec := 0, splane := 0, rows := 2, cols := 8, lrows := 2, lcols := 8, stride := 64, haz, id := 0, fullCols := 8,
    indexBase := 0 }

/-! ## Ill-formed commands are refused -/

theorem test_wf_cluster : (Instr.pause 127).wf = true ∧ (Instr.pause 128).wf = false ∧ (Instr.mm 128 0 Ev.none).wf = false := by decide
theorem test_wf_entry : (Instr.mm 0 65535 Ev.none).wf = true ∧ (Instr.mm 0 65536 Ev.none).wf = false := by decide
theorem test_wf_tile : (Instr.subst 0 7).wf = true ∧ (Instr.subst 0 8).wf = false := by decide
theorem test_wf_phys : (Instr.tuneUpDue 135 0).wf = true ∧ (Instr.tuneUpDue 136 0).wf = false ∧
    (Instr.junctionTrip none 0).wf = true ∧ (Instr.junctionTrip (some 136) 0).wf = false := by decide
theorem test_wf_port : (Instr.badMsg ⟨47, 1, 3⟩).wf = true ∧ (Instr.badMsg ⟨48, 1, 3⟩).wf = false ∧ (Instr.retrain 64).wf = false := by decide
theorem test_wf_chiplet : (Instr.chipletReset 7).wf = true ∧ (Instr.chipletReset 8).wf = false := by decide
theorem test_wf_ring : (Instr.doorbellWrite 262143 0 15).wf = true ∧ (Instr.doorbellWrite 262144 0 15).wf = false := by decide
theorem test_wf_context : (Instr.ctrClCommit 0 4095).wf = true ∧ (Instr.ctrClCommit 0 4096).wf = false := by decide
theorem test_wf_module : (Instr.leave rx 4095).wf = true ∧ (Instr.leave rx 4096).wf = false := by decide
theorem test_wf_word : (Instr.registerWrite 0xFFFFF 8 0).wf = true ∧ (Instr.registerWrite 0x100000 8 0).wf = false := by decide
theorem test_wf_line : (Instr.memInv 0xFFFFFFFC0).wf = true ∧ (Instr.memInv 0x1000000000).wf = false ∧ (Instr.memInv 8).wf = false := by decide
theorem test_wf_line_bytes : (Instr.memWr 0 (List.replicate 64 0) (List.replicate 64 true) false).wf = true ∧
    (Instr.memWr 0 [] (List.replicate 64 true) false).wf = false ∧ (Instr.memWr 0 (List.replicate 64 0) [] false).wf = false := by decide
theorem test_wf_page : (Instr.scrubRead 0x200000 [] Ev.none).wf = true ∧ (Instr.scrubRead 0x1000 [] Ev.none).wf = false := by decide
theorem test_wf_header : (Instr.switch ⟨some 48, 0, 0, 0, 0, 0, 0⟩ 0).wf = false ∧ (Instr.switch ⟨none, 4096, 0, 0, 0, 0, 0⟩ 0).wf = false ∧
    (Instr.switch ⟨none, 0, 4096, 0, 0, 0, 0⟩ 0).wf = false ∧ (Instr.switch ⟨none, 0, 0, 4096, 0, 0, 0⟩ 0).wf = false ∧
    (Instr.switch ⟨none, 0, 0, 0, 128, 0, 0⟩ 0).wf = false ∧ (Instr.switch ⟨none, 0, 0, 0, 0, 128, 0⟩ 0).wf = false ∧
    (Instr.switch ⟨none, 0, 0, 0, 0, 0, 2 ^ 52⟩ 0).wf = false ∧ (Instr.switch rx 0).wf = true := by decide
theorem test_wf_key : (Instr.collectiveTimeout ⟨4096, 0, 0⟩).wf = false ∧ (Instr.collectiveTimeout ⟨0, 65536, 0⟩).wf = false ∧
    (Instr.collectiveTimeout ⟨0, 0, 65536⟩).wf = false ∧ (Instr.collectiveTimeout key).wf = true := by decide
theorem test_wf_edge : (Instr.edgeClockResume (.hbm 24)).wf = false ∧ (Instr.edgeClockResume (.serdes 48)).wf = false ∧
    (Instr.edgeClockResume .host).wf = true ∧ (Instr.edgeWindowExpiry ⟨.hbm 24, true⟩).wf = false := by decide
theorem test_wf_tune : (Instr.tuneNow 255).wf = true ∧ (Instr.tuneNow 256).wf = false ∧ (Instr.rotateOut 256).wf = false ∧
    (Instr.clearRail 256).wf = false := by decide
theorem test_wf_query : (Instr.fhQuery 15 4095).wf = true ∧ (Instr.fhQuery 16 0).wf = false ∧ (Instr.fhQuery 0 4096).wf = false := by decide
theorem test_wf_optics : (Instr.opticalEngineFailover 1 11).wf = true ∧ (Instr.opticalEngineFailover 2 0).wf = false ∧
    (Instr.opticalEngineFailover 0 12).wf = false := by decide
theorem test_wf_engine : (Instr.engineReset 0 15 63).wf = true ∧ (Instr.engineReset 0 16 0).wf = false ∧ (Instr.engineReset 0 0 64).wf = false := by
  decide
theorem test_wf_rail : (Instr.regulatorPhaseFailure 154).wf = true ∧ (Instr.regulatorPhaseFailure 155).wf = false := by decide
theorem test_wf_charge : (Instr.chargeWindowExpiry 2 135 0).wf = true ∧ (Instr.chargeWindowExpiry 2 136 0).wf = false := by decide

/-! ## Witnesses: the step, commits, registers, the bus, snaps -/

/-- Every shadow copy holds zeroes, of which each group's bounds forbid one. -/
def badShadows : State :=
  { s0 with
    clusters := s0.clusters.map (fun c => { c with
      shadow := 0, til := { c.til with shadow := 0 }, ctrcSh := { c.ctrcSh with tag := 0 } })
    hub := { s0.hub with shadow := 0, optShadow := 0 }, pages := { s0.pages with shadow := 0 }, fab := { s0.fab with shadow := 0 }
    start := { s0.start with shadow := 0 }, hist := { s0.hist with shadow := 0 }, ctr := { s0.ctr with shadow := 0 }
    pwr := { s0.pwr with shadow := 0 } }

def halted : State := { s0 with start := { s0.start with stage := .halted } }

theorem wit_StepRunsTheFrontCommand : s0.pending = [] := by decide +kernel
theorem wit_StepKeepsTheShape : s0.Shape ∧ step s0 = .next s0 :=
  ⟨⟨by decide +kernel, by decide +kernel, by decide +kernel, by decide +kernel⟩, rfl⟩
theorem wit_CommitPutsTheShadowIntoEffect : s0.alive = true ∧ s0.clusters.length = 128 ∧
    drlCfgOk (s0.cluster 127).shadow = true ∧ tilCfgOk (s0.cluster 127).til.shadow = true ∧ (s0.cluster 127).ctrcSh.ok (s0.traceRegions 0) = true ∧
    optCfgOk s0.hub.optShadow = true ∧ memCfgOk s0.pages.shadow = true ∧ hdgCfgOk s0.fab.shadow = true ∧ hubCfgOk s0.hub.shadow = true ∧
    tstCfgOk s0.start.shadow = true ∧ tuneCfgOk s0.hist.shadow = true ∧ s0.ctr.ok s0.entryOf s0.allRegions = true ∧
    pwrCfgOk s0.start.flash.conf.limits s0.pwr.shadow = true := by decide +kernel
theorem wit_CommitOutOfBoundsOnlySetsCommitErr : let s := badShadows
    s.alive = true ∧ s.clusters.length = 128 ∧
    drlCfgOk (s.cluster 127).shadow = false ∧ tilCfgOk (s.cluster 127).til.shadow = false ∧ (s.cluster 127).ctrcSh.ok (s.traceRegions 0) = false ∧
    optCfgOk s.hub.optShadow = false ∧ memCfgOk s.pages.shadow = false ∧ hdgCfgOk s.fab.shadow = false ∧ hubCfgOk s.hub.shadow = false ∧
    tstCfgOk s.start.shadow = false ∧ tuneCfgOk s.hist.shadow = false ∧ s.ctr.ok s.entryOf s.allRegions = false ∧
    pwrCfgOk s.start.flash.conf.limits s.pwr.shadow = false := by decide +kernel
/-- The state after reset of a module that is no entry module. -/
def inner : State := { s0 with hub := { s0.hub with module := 0x41 } }
theorem wit_RegisterWriteLandsInTheShadow : inner.hostUp = false ∧ s0.hostUp = true ∧ 127 < 128 ∧ (4 ≠ 8 ∨ 0x20 % 8 ≠ 0) ∧
    (8 ≠ 8 ∨ 0x21 % 8 ≠ 0) := by decide +kernel
theorem wit_PauseResumeAndSubstitute :
    (let s := runs (job []) []
     s.alive = true ∧ s.clusters.length = 128 ∧ (s.cluster 0).drl.st = .running ∧ (s.cluster 0).drl.flights = [] ∧ (s.cluster 0).migDue = false ∧
      (s.cluster 0).drl.suspendReq = false ∧ (s.cluster 0).til.spareFree = true ∧ (s.cluster 0).til.substWaiting = none ∧ s.tileBusy 0 7 = false ∧
      s.start.phys 0 = some 0) ∧
    (let s := runs (job [entry .fence]) [flight 0]
     s.alive = true ∧ (s.cluster 0).drl.st = .running ∧ (s.cluster 0).drl.flights ≠ []) ∧
    (let s := (runs (job []) []).updDrl 0 (fun d => { d with st := .paused })
     s.alive = true ∧ s.clusters.length = 128 ∧ (s.cluster 0).drl.st = .paused ∧ (s.cluster 0).under = none) := by decide +kernel
theorem wit_ManagementBusServesItsWords : s0.pwr.on = true ∧ (4 ≤ 4 ∧ 4 ≤ 6) ∧ (4 ≤ 6 ∧ 6 ≤ 6) := by decide +kernel
theorem wit_HaltedHubTakesNoCommand : halted.alive = false ∧
    Instr.snap ∈ [.drlCommit 127, .tilCommit 127, .chnCommit 127, .ctrClCommit 127 0, .optCommit, .solCommit, .memCommit, .hdgCommit, .hubCommit,
      .tstCommit, .tstTuneCommit, .ctrCommit, .pwrCommit, .registerWrite 0 8 0, .pause 127, .drlCmdResume 127, .subst 127 0, .snap, .snapDomain,
      .clear, .periodicDump, .enterService, .fuseProposed, .fuseSvn, .tuneNow 0, .rotateOut 0, .clearRail 0, .fhQuery 0 0,
      .memPageCmd 0 0] := by decide +kernel
theorem wit_ManagementStateFields : s0.start.halt < 256 ∧ s0.hist.drainCause < 16 := by decide +kernel
/-- The record of a snap can land now. -/
def snapLands (s : State) (domain : Bool) : Bool :=
  s.lands (fld s.ctr.dumpBase 51 0 + s.ctr.dumps % max 1 (fld s.ctr.cfg 55 48) * 0x40000)
    (dumpRecord (if domain then s.entryOf else s.ctr.dumps) s.me domain s.ctr.clear (s.clusters.map (fun k => k.drl.st == .running))
      (s.clusters.map (·.ctr)) s.ctr.chip s.ctr.hub).length

theorem wit_SnapWritesOneRecord : s0.alive = true ∧ Cells.wf s0.mem = true ∧ s0.hub.snapBusy = false ∧ fld s0.ctr.dumpBase 63 52 = s0.me ∧
    s0.isEntry = true ∧ s0.ctr.clear = false ∧
    (let s : State := { s0 with ctr := { s0.ctr with cfg := mkFld 63 63 1 ||| ctrCfgDefault, clear := true } }
     s.alive = true ∧ Cells.wf s.mem = true ∧ s.hub.snapBusy = false ∧ fld s.ctr.dumpBase 63 52 = s.me ∧ bit s.ctr.cfg 63 = true ∧
      s.ctr.clear = true) := by decide +kernel
/-- Where no page moves and every edge is in service, every write lands at once. -/
theorem lands_of_quiet (s : State) (a n : Nat) (hm : s.pages.moves = []) (hs : s.start.stopped = []) (ho : s.start.outEdges = []) :
    s.lands a n = true := by
  simp [State.lands, State.reaches, Pages.moving, hm, hs, ho]
theorem wit_SnapWritesOneRecord_lands : snapLands s0 false = true ∧ snapLands s0 true = true ∧
    snapLands { s0 with ctr := { s0.ctr with cfg := mkFld 63 63 1 ||| ctrCfgDefault, clear := true } } false = true :=
  ⟨lands_of_quiet _ _ _ rfl rfl rfl, lands_of_quiet _ _ _ rfl rfl rfl, lands_of_quiet _ _ _ rfl rfl rfl⟩
theorem wit_ClearIsRemembered : s0.alive = true := by decide +kernel

/-! ## Witnesses: start, halts, power -/

/-- Sound findings of a start: slot straps of module 0x041, whose two ones the parity contact makes three. -/
def found : StartFind :=
  { straps := 0x041, parity := true, refMissing := false, hubOsc := 4194304, hubTj := 40, oscs := List.replicate 136 4194304, tjs := List.replicate 136 40, flashOk := true,
    vin := 48000, iin := 100, watts := 500, flow := 600, inlet := 20, outlet := 25 }

/-- The code partition holds no valid image. -/
def badImage : State := { halted with start := { halted.start with flash := halted.start.flash.clearValid 1 } }

def staged (g : Stage') : State := { s0 with start := { s0.start with stage := g, scanDone := false, memDone := false } }

theorem wit_StageSixWaitsForEveryJunction : (staged .rails).start.stage = .rails ∧ (15 :: List.replicate 136 90).length = 137 := by decide +kernel
theorem wit_StartSamplesTheStraps :
    halted.mayStart = true ∧ (47999 < 48000 ∨ 58000 < 47999) ∧ (48000 ≤ found.vin ∧ found.vin ≤ 58000) ∧ strapsOk found.straps false = false ∧
    strapsOk found.straps found.parity = true ∧ (found.refMissing = false ∧ oscOk found.hubOsc = true ∧ found.flashOk = true ∧ halted.start.flash.takeConf.failMask = 0) ∧
    oscOk 0 = false ∧ badImage.mayStart = true ∧ badImage.start.flash.takeConf.failMask ≠ 0 ∧
    (let s := staged .calibrate
     s.mayStart = false ∧ s.start.stage = .calibrate ∧ s.start.flash.takeConf.failMask = 0) := by decide +kernel
theorem wit_SelfTestsLeadToReady : (staged .test).start.stage = .test ∧ (staged .test).start.scanDone = false ∧ (staged .test).start.memDone = false ∧
    (staged .admission).start.stage = .admission := by decide +kernel
theorem wit_HaltsRemoveTheRails : (staged .rails).start.stage = .rails ∧
    (let s : State := { staged .test with start := { (staged .test).start with quick := true } }
     s.start.stage = .test ∧ s.start.quick = true ∧ s.pwr.on = true) ∧
    (s0.alive = true ∧ 110 ≤ 110) ∧ (s0.alive = true ∧ 2 * 299 < 10 * s0.start.flash.conf.limits.flowMin) := by decide +kernel
/-- The history holds one record. -/
def recorded : State := { s0 with hist := s0.hist.append .moduleReset }
theorem wit_OrderlyCutKeepsFlashAndHistory : recorded.pwr.on = true ∧ (43999 < 44000 ∨ 59500 < 43999) ∧ (59501 < 44000 ∨ 59500 < 59501) ∧
    (⟨43999, true⟩ : Cut).torn = true ∧ (⟨0, false⟩ : Cut).torn = false ∧ (recorded.hist.journal[0]?).isSome = true := by decide +kernel
theorem wit_CapFollowsFlowAndInlet : 10 * s0.start.flash.conf.limits.flowMin ≤ 600 ∧ 45 ≤ 45 := by decide +kernel
/-- Cluster 3 has gone down one step. -/
def lowered : State := { s0 with start := s0.start.upd 3 (fun c => { c with down := 1 }) }
/-- No cluster's rail is on. -/
def dark : State := { s0 with start := { s0.start with pcl := s0.start.pcl.map (fun c => { c with railOn := false }) } }

/-- The rail of logical cluster 127 is the one to lower; cluster 3's the one to raise. -/
theorem wit_GovernorTakesOneStep : s0.alive = true ∧ s0.start.pcl.length = 136 ∧ s0.pwr.capEff < meanOf [4801] ∧ 134 < 136 ∧
    s0.lowerable 134 = true ∧ (135 < 136 ∧ fld s0.pwr.cfg 35 28 < 96 ∧ s0.lowerable 135 = true) := by decide +kernel
theorem wit_GovernorTakesOneStep_lower : ∀ q, q < 136 → s0.lowerable q = true →
    s0.railOf q ≤ s0.railOf 134 ∧ (s0.railOf q = s0.railOf 134 → q ≠ 134 → s0.rankOf q < s0.rankOf 134) := by decide +kernel
theorem wit_GovernorTakesOneStep_raise : lowered.alive = true ∧ lowered.start.pcl.length = 136 ∧ 100 * meanOf [4703] < 98 * lowered.pwr.capEff ∧
    0 < (lowered.start.cluster 3).down ∧ (lowered.start.cluster 3).therm = false := by decide +kernel
theorem wit_GovernorTakesOneStep_raise' : ∀ q, q < 136 → 0 < (lowered.start.cluster q).down → (lowered.start.cluster q).therm = false →
    lowered.railOf 3 ≤ lowered.railOf q ∧ (lowered.railOf 3 = lowered.railOf q → q ≠ 3 → lowered.rankOf 3 < lowered.rankOf q) := by decide +kernel
theorem wit_GovernorTakesOneStep_gate : dark.alive = true ∧ dark.start.pcl.length = 136 ∧ ∀ q, q < 136 → dark.lowerable q = false := by
  decide +kernel

/-! ## Witnesses: edges, the ladder, tests and service -/

def serviced (lc : LifeCycle) : State := { s0 with start := { s0.start with lc } }

theorem wit_EdgeWindowsExpireAndResume : s0.pages.waiting = [] ∧ s0.alive = true ∧ 47 < 48 ∧ s0.fab.ports.length = 48 ∧
    Edge.flash ∉ s0.start.stopped ∧
    (let s : State := { s0 with start := { s0.start with stopped := [.flash], outEdges := [.flash] } }
     s.pages.waiting = [] ∧ s.alive = true ∧ Edge.flash ∈ s.start.stopped ∧ Edge.flash ∈ s.start.outEdges) := by decide +kernel
theorem wit_RungsResetTheirUnits : s0.alive = true ∧ s0.clusters.length = 128 ∧ s0.fab.ports.length = 48 ∧ 127 < 128 ∧ 7 < 8 := by decide +kernel
theorem wit_ModuleResetDropsJobs : s0.alive = true ∧ ({ found with refMissing := true } : StartFind).refMissing = true ∧
    found.refMissing = false ∧ oscOk found.hubOsc = true ∧ found.flashOk = true ∧ s0.start.flash.takeConf.failMask = 0 := by decide +kernel

/-- Two tasks that wait for each other, task 1 the younger. -/
def deadlock : State :=
  let k : TaskKey := ⟨1, 1, 1⟩
  { s0 with
    hub := { s0.hub with tasks := [{ task with order := 1 }, { task with key := k, order := 2 }] }
    hist := { s0.hist with edges := [(key, k), (k, key)] } }

theorem wit_DeadlockAbortsTheYounger : key ≠ ⟨1, 1, 1⟩ ∧ deadlock.hub.task key = some { task with order := 1 } ∧
    deadlock.hub.task ⟨1, 1, 1⟩ = some { task with key := ⟨1, 1, 1⟩, order := 2 } ∧ task.active = true ∧ task.restoring = false ∧ 1 < 2 ∧ deadlock.fab.waiting = [] ∧
    (key, ⟨1, 1, 1⟩) ∈ deadlock.hist.edges ∧ (⟨1, 1, 1⟩, key) ∈ deadlock.hist.edges := by decide +kernel
/-- A Tune-up that finds nothing, or a failing row. -/
def tuned (row : Bool) : TuneFind := ⟨[⟨0, [], 6000, 0⟩, ⟨0, [], 8500, 0⟩], [], true, true, row⟩

theorem wit_TuneUpRunsAndPasses : s0.alive = true ∧ s0.start.pcl.length = 136 ∧ 135 < 136 ∧ (s0.start.cluster 135).testable = true ∧
    bit s0.hist.cfg 0 = true ∧ (s0.start.cluster 135).lastTest + fld s0.hist.cfg 63 52 ≤ max 24 s0.hist.hours ∧
    (let s : State := { s0 with start := s0.start.upd 135 (fun c => { c with tuning := true, was := some 127 }) }
     s.alive = true ∧ (s.start.cluster 135).tuning = true ∧ (s.start.cluster 135).was ≠ none ∧ (tuned true).row = true ∧ (tuned false).row = false ∧
      (tuned false).lanes = true ∧ (tuned false).pipes = true ∧
      ((s.start.cluster 135).tuneRun s.start.flash.pack s.start.flash.stepping (tuned false)).2 = []) ∧
    (let s : State := { s0 with start := s0.start.upd 0 (fun c => { c with tuning := true }) }
     (s.start.cluster 0).tuning = true ∧ (s.start.cluster 0).logical = some 0) := by decide +kernel
theorem wit_RailsAndChargesAge : (154 < 155 ∧ 154 ∉ s0.hist.phases) ∧
    (let s : State := { s0 with hist := { s0.hist with phases := [136, 154] } }
     (136 ≤ 136 ∧ 136 < 155 ∧ 136 ∈ s.hist.phases ∧ s.start.lc = .deployed) ∧ (136 ≤ 154 ∧ 154 < 155 ∧ 154 ∈ s.hist.phases)) ∧
    135 < unitCount 2 ∧ 155 ≤ 155 := by decide +kernel
theorem wit_ServiceIsEnteredWithoutJobs : s0.alive = true ∧ (s0.start.lc = .deployed ∨ s0.start.lc = .drain) ∧ s0.jobs = [] ∧
    (runs (job []) []).jobs ≠ [] ∧
    ((serviced .service).start.lc = .service ∧ found.refMissing = false ∧ oscOk found.hubOsc = true ∧ found.flashOk = true ∧
      (serviced .service).start.flash.takeConf.failMask = 0) ∧ s0.start.lc ≠ .service := by decide +kernel
theorem wit_FusesAreProgrammedOnlyWhereAllowed : (serviced .service).alive = true ∧ (serviced .service).start.lc = .service ∧
    15 ≤ (serviced .service).start.hubTj ∧ (serviced .service).start.hubTj ≤ 100 ∧
    (s0.alive = true ∧ s0.start.lc ≠ .manufacture ∧ s0.start.lc ≠ .service) ∧
    (let s : State := { serviced .service with start := { (serviced .service).start with hubTj := 14 } }
     s.alive = true ∧ s.start.hubTj < 15) := by decide +kernel
theorem wit_TuneCommandsAct : s0.alive = true ∧ s0.mayTune = true ∧ 135 ≤ 135 ∧ s0.start.pcl.length = 136 ∧
    (s0.start.cluster 15).logical = some 15 ∧ s0.start.spareOf (15 / 17) = some 16 ∧ 15 ≠ 16 ∧ s0.idleAt 15 = true ∧
    ((serviced .service).mayTune = false ∨ 135 < 0) ∧ (s0.mayTune = false ∨ 135 < 136) := by decide +kernel

/-! ## Witnesses: rings, host accesses, pages -/

/-- A packet of ring 0, type `t`, for module 0x040, with its two arguments and its payload. -/
def pkt (t : Nat) (ctx : Nat) (a0 a1 : Word) (pay : List Byte) : Pkt :=
  ⟨0, [mkFld 63 56 t ||| mkFld 51 40 0x40 ||| mkFld 39 28 ctx, 0, mkFld 63 32 pay.length ||| 7, mkFld 63 48 ctx, 0, a0, a1, 0], pay, .ring 0 0, false, 0, 0⟩

/-- The words of a NOP packet for module 0x040, with its CRC. -/
def nopWords : List Word :=
  let w := (pkt typeNop 0 0 0 []).words.take 7
  w ++ [BitVec.ofNat 64 (packetCrc w [])]

/-- Ring 0 holds one NOP packet, whose TAIL has been rung. -/
def rung : State :=
  { s0 with mem := Cells.write [] (hdmLocal 0x1200000) (bytesOfWords nopWords), hub := s0.hub.setRing 0 { s0.hub.ring 0 with tailSeen := 1 } }

/-- The page of a job, in HBM frame 5,000 of stack 5. -/
def page1 : Nat := chipStride + hdmPart + pageBytes
def paged : State :=
  { s0 with jobs := [{ job [] with pages := [page1] }], pages := { s0.pages with map := [(page1, .hbm (stackOf page1) 5000)] } }
/-- The page moves to near frame 0 of chiplet 1. -/
def moving : State := { paged with pages := { paged.pages with moves := [⟨page1, .near 1 0, true⟩] } }
/-- A write of 3 bytes waits for the move. -/
def waits : State := { moving with pages := { moving.pages with waiting := [⟨page1 + 5, [1, 2, 3], false, .host⟩] } }

theorem wit_CompletionReachesTheQueue : Cells.wf s0.mem = true ∧ (pkt typeNop 0 0 0 []).origin = .ring 0 0 ∧ (s0.hub.ring 0).st = .opened ∧
    (s0.hub.ring 0).cqRoom = true ∧ (s0.hub.ring 0).waiting = [] ∧
    (let r := s0.hub.ring 0
     let e : Cqe := ⟨false, 0, 0, 0, 5⟩
     ∀ w ∈ hdmPieces (r.cqBase + 16 * (r.cqWritten % r.slots)) (e.bytes r.slots r.cqWritten), s0.lands w.1 w.2.length = true) := by decide +kernel
theorem wit_DoorbellMovesTheTail : 63 < 262144 ∧ s0.hostUp = true ∧ (s0.hub.ring 63).st = .opened ∧ (s0.hub.ring 63).waiting = [] ∧
    s0.poison.contains (hdmLocal (0x1000000 + 8 * 63)) = false ∧
    (let s : State := { s0 with poison := [hdmLocal (0x1000000 + 8 * 63)] }
     s.hostUp = true ∧ (s.hub.ring 63).st = .opened ∧ (s.hub.ring 63).waiting = [] ∧ s.poison.contains (hdmLocal (0x1000000 + 8 * 63)) = true) ∧
    (let r := s0.hub.ring 63
     (sub32 (fld (256 : Word) 31 0) r.tailSeen ≤ 2 ^ 31 ∧ sub32 (fld (256 : Word) 31 0) r.released ≤ r.slots) ∧
      (2 ^ 31 < sub32 (fld (257 : Word) 31 0) r.tailSeen ∨ r.slots < sub32 (fld (257 : Word) 31 0) r.released)) := by decide +kernel
theorem wit_IntakeTakesOnePacket : rung.hostUp = true ∧ rung.start.edgeUp .host = true ∧ rung.hub.intakeOrder.find? rung.canStart = some 0 ∧
    rung.intakeFail 0 (rung.nextPkt 0) = none ∧ rung.intakeBar (rung.nextPkt 0) = none ∧ (rung.nextPkt 0).dst = rung.me ∧
    (rung.hub.ring 0).st = .opened := by decide +kernel
theorem wit_HostReadsServeMemory : s0.hostUp = true ∧
    (0x10000000 < hdmBytes ∧ 0x10000000 % 64 = 0 ∧ windowAt 0x10000000 = .plain ∧ s0.reaches [⟨hdmLocal 0x10000000, 64, false⟩] = true ∧
      ∀ w ∈ s0.poison, ¬ (hdmLocal 0x10000000 ≤ w ∧ w < hdmLocal 0x10000000 + 64)) ∧
    (0 < hdmBytes ∧ 0 % 64 = 0 ∧ windowAt 0 = .block 0) ∧ windowAt 0xFFFFC0 = .block 262143 ∧
    windowAt 0x1000000 = .doorbell ∧ windowAt 0x1340000 = .reserved := by decide +kernel
theorem wit_HostWritesItsEnabledBytes : Cells.wf s0.mem = true ∧ s0.hostUp = true ∧ (List.replicate 64 (1 : Byte)).length = 64 ∧
    (List.replicate 64 true).length = 64 ∧
    (0x10000000 < hdmBytes ∧ 0x10000000 % 64 = 0 ∧ windowAt 0x10000000 = .plain ∧ s0.pages.moving (pageOf (hdmLocal 0x10000000)) = false ∧
      s0.stackUp (pageOf (hdmLocal 0x10000000)) = true ∧
      ∀ k, k < 8 → s0.softMask (hdmLocal 0x10000000 + 8 * k) = none) := by decide +kernel
/-- The reserved ranges begin at 0x134_0000 and 0xA00_0000 (R440). -/
theorem wit_HostWritesItsEnabledBytes_reserved : windowAt 0x1340000 = .reserved ∧ windowAt 0x1FFFFC0 = .reserved ∧ windowAt 0xA000000 = .reserved ∧
    0x1340000 < hdmBytes ∧ 0x1340000 % 64 = 0 := by decide +kernel
/-- Lane masks that give each width. -/
theorem wit_HostSideResets : s0.hostUp = true ∧ 64 ≤ 64 ∧ (∀ i, i < 16 → (0xFFFF : Nat).testBit i = true) ∧
    ((0xFFF : Nat).testBit 15 = false ∧ ∀ i, i < 8 → (0xFFF : Nat).testBit i = true) ∧
    ((0x7F : Nat).testBit 7 = false ∧ ∀ i, i < 4 → (0x7F : Nat).testBit i = true) ∧ (0xFFF7 : Nat).testBit 3 = false ∧
    s0.contexts.any s0.restoringIn = false ∧
    (let s : State := { s0 with jobs := [job []], hub := { s0.hub with tasks := [{ task with outcome := some (.restore, [], []) }] } }
     s.hostUp = true ∧ s.contexts.any s.restoringIn = true) := by decide +kernel
theorem wit_PageMovesKeepBytes :
    (let v : Word := mkFld 63 62 3 ||| mkFld 51 21 (page1 / pageBytes)
     paged.alive = true ∧ bit v 63 = true ∧ bit v 62 = true ∧ page1 = fld v 51 21 * pageBytes ∧ paged.pages.commandedMove = false ∧
      inHdm page1 = false ∧ paged.windowPage page1 = false ∧ placeOf page1 = .chip 1 (hdmPart + pageBytes) ∧ paged.pages.backed page1 = true ∧
      paged.ownsPage 1 page1 = true ∧ paged.pages.moving page1 = false ∧ paged.pages.freeNear (page1 / chipStride) = some (.near 1 0)) ∧
    (moving.pages.moves.find? (fun x => x.page = page1) = some ⟨page1, .near 1 0, true⟩ ∧ moving.pages.waiting = [] ∧
      moving.pages.cmds = [] ∧ moving.pages.frameOf page1 = some (.hbm (stackOf page1) 5000)) := by decide +kernel
theorem wit_HeldWritesLandAfterTheMove : let w : HeldWrite := ⟨page1 + 5, [1, 2, 3], false, .host⟩
    Cells.wf waits.mem = true ∧ waits.pages.moves = [⟨page1, .near 1 0, true⟩] ∧ waits.pages.waiting = [w] ∧ waits.pages.cmds = [] ∧
    waits.start.stopped = [] ∧ waits.start.outEdges = [] ∧ w.who ≠ .hub := by decide +kernel
theorem wit_HeldWritesLandAfterTheMove_soft : ∀ x, x % 8 = 0 → x < page1 + 5 + 3 → page1 + 5 < x + 8 → waits.softMask x = none := by
  intro x h1 h2 h3
  have hp : page1 % 8 = 0 := by decide +kernel
  have : x = page1 := by omega
  subst this
  decide +kernel
theorem wit_FaultsMoveFrames : paged.pages.frameOf page1 = some (.hbm (stackOf page1) 5000) ∧ fld paged.pages.cfg 31 16 ≤ 16 ∧ stackOf page1 < 24 ∧
    paged.pages.poolUsed.length = 24 ∧ paged.pages.poolUsed.getD (stackOf page1) 0 < poolFrames ∧ paged.pages.moving page1 = false ∧
    paged.pages.cmds = [] ∧ inSys page1 = false ∧ inSys sysBase = true ∧
    ({ s0.pages with map := [(sysBase, .hbm 0 4)] } : Pages).frameOf sysBase = some (.hbm 0 4) ∧ (([page1].filter (fun a => pageOf a = page1)).length ≠ 0) := by decide +kernel
theorem wit_FirstFaultStaysLatched : bit s0.pages.faultSrc 63 = false ∧ (4095 < 4096 ∧ 2 ^ 52 - 1 < 2 ^ 52 ∧ 127 < 128 ∧ 65535 < 65536) ∧
    bit (s0.pages.latch .range 0x40 0 0 0 0).faultSrc 63 = true := by decide +kernel

/-! ## Witnesses: packets -/

/-- A packet is in the module. -/
def takes (s : State) (p : Pkt) : State := { s with hub := { s.hub with pkts := [p] } }

/-- A job package of one task whose Cassette on cluster 0 is a HALT (R110, R121, R372, R565): its header, a region of 1 GiB in the host window for the save
area, the task, the directory and the entry. -/
def package : List Byte :=
  let part (k a n : Nat) : List Word := if k = 0 then [BitVec.ofNat 64 a, BitVec.ofNat 64 n] else [BitVec.ofNat 64 a, BitVec.ofNat 64 n]
  let header : List Word := [mkFld 63 32 0x4757504B, 0, 0, 0]
    ++ (List.range 16).flatMap (fun k => if k = 0 then part k 320 16 else if k = 1 then part k 448 64 else if k = 10 then part k 512 16 else [0, 0])
  bytesOfWords (header ++ [0, 0, 0, 0]                                       -- bytes 0 to 319
    ++ [1, 384, 0, 0, 0, 0, 0, 0]                                            -- 320: one region record, at 384
    ++ [mkFld 63 60 3, 0x40000000, 0x40000000, 0, 0, 0, 0, 0]     -- 384: hint HBM, base, bytes
    ++ [0, mkFld 63 32 1, 0, 0x40000000, mkFld 63 32 1000 ||| 1000, 0, 0, 0] -- 448: one step, save area, windows
    ++ [1, 576, 0, 0, 0, 0, 0, 0]                                            -- 512: task 0 on cluster 0, one entry at 576
    ++ [mkFld 63 56 7, 0xFFFFFFFFFFFFFFFF, 0, 0])                            -- 576: HALT

/-- The packets of the witnesses: a CTL_READ and a CTL_WRITE of HUB_CFG, DATA and READ of 64 bytes in the host area. -/
def ctl (t ctx : Nat) : Pkt := pkt t ctx 0x20 5 []
def bytes64 : List Byte := List.replicate 64 7
def dataPkt : Pkt := pkt typeData 0 (mkFld 63 52 0x40 ||| 0x10000000) 0 bytes64
def holdPkt : Pkt := { pkt typeData 1 (mkFld 63 52 0x40 ||| 0x10000000) 0 bytes64 with
  words := [mkFld 63 56 typeData ||| mkFld 54 54 1 ||| mkFld 51 40 0x40 ||| mkFld 39 28 1, 1, mkFld 63 32 64, mkFld 63 48 1, 0,
    mkFld 63 52 0x40 ||| 0x10000000, 0, 0] }
def readPkt : Pkt := pkt typeRead 0 (mkFld 63 52 0x40 ||| 0x10000000) 0x10001000 bytes64

theorem wit_ControlPacketsComplete :
    (let p := pkt typeNop 0 0 0 []
     (takes s0 p).alive = true ∧ (takes s0 p).hub.pkt p.id = some p ∧ p.type = typeNop) ∧
    ((takes s0 (ctl typeCtlRead 0)).hub.pkt 0 = some (ctl typeCtlRead 0) ∧ (ctl typeCtlRead 0).type = typeCtlRead ∧
      fld (ctl typeCtlRead 0).arg0 19 0 % 8 = 0 ∧ regAt (fld (ctl typeCtlRead 0).arg0 19 0) = some .hubCfg ∧ s0.mayReadReg 0 .hubCfg = true ∧
      (ctl typeCtlRead 1).type = typeCtlRead ∧ s0.mayReadReg 1 .hubCfg = false) ∧
    ((ctl typeCtlWrite 0).type = typeCtlWrite ∧ regAt (fld (ctl typeCtlWrite 0).arg0 19 0) = some .hubCfg ∧ s0.mayWriteReg 0 .hubCfg = true ∧
      (ctl typeCtlWrite 1).type = typeCtlWrite ∧ s0.mayWriteReg 1 .hubCfg = false) ∧
    (let p := pkt typeCtlRead 0 0x21 5 []
     (takes s0 p).alive = true ∧ (takes s0 p).hub.pkt p.id = some p ∧ p.type = typeCtlRead ∧ fld p.arg0 19 0 % 8 ≠ 0) ∧
    (let p := pkt typeCtlWrite 0 0x21 5 []
     p.type = typeCtlWrite ∧ fld p.arg0 19 0 % 8 ≠ 0) ∧
    regAt 0xFFFF8 = none ∧ (pkt typeCtlRead 0 0xFFFF8 5 []).type = typeCtlRead ∧ fld (pkt typeCtlRead 0 0xFFFF8 5 []).arg0 19 0 = 0xFFFF8 ∧
    fld (pkt typeCtlWrite 1 0xFFFF8 5 []).arg0 19 0 = 0xFFFF8 ∧ 0xFFFF8 % 8 = 0 := by decide +kernel
theorem wit_JobContextsReachTheirOwnWords : 1 ≠ 0 ∧ (runs (job []) []).ownsCluster 1 1 = false ∧ (runs (job []) []).ownsCluster 1 0 = true := by
  decide +kernel
theorem wit_DataPacketsLand :
    (let s := takes s0 dataPkt
     s.alive = true ∧ s.hub.pkt dataPkt.id = some dataPkt ∧ dataPkt.type = typeData ∧ s.dataRefusal dataPkt = none ∧
      s.lands dataPkt.addr dataPkt.pay.length = true ∧
      dataPkt.hold = false ∧ Cells.wf s.mem = true ∧ ∀ i < dataPkt.pay.length, s.softMask ((dataPkt.addr + i) / 8 * 8) = none) ∧
    (let s := takes (runs { job [] with regions := [⟨.hbm, 0, 0, 0x10000000, pageBytes, 0⟩] } []) holdPkt
     s.alive = true ∧ s.hub.pkt holdPkt.id = some holdPkt ∧ holdPkt.type = typeData ∧ s.dataRefusal holdPkt = none ∧
      s.lands holdPkt.addr holdPkt.pay.length = true ∧
      holdPkt.hold = true ∧ s.pktTask holdPkt = some task ∧ task.current ≤ holdPkt.step ∧ holdPkt.step ≤ task.current + 1) ∧
    (let s (n : Nat) : State := (takes (runs { job [] with regions := [⟨.hbm, 0, 0, 0x10000000, pageBytes, 0⟩] } []) holdPkt).updTask key
       (fun t => { t with step := n, next := n })
     (s 3).hub.pkt holdPkt.id = some holdPkt ∧ (s 3).dataRefusal holdPkt = none ∧ (s 3).lands holdPkt.addr holdPkt.pay.length = true ∧
      ((s 3).pktTask holdPkt).any (fun t => decide (holdPkt.step < t.current)) = true) := by decide +kernel
def earlyPkt : Pkt := { holdPkt with words := holdPkt.words.set 1 9 }
theorem wit_DataPacketsLand_early : let s := takes (runs { job [] with regions := [⟨.hbm, 0, 0, 0x10000000, pageBytes, 0⟩] } []) earlyPkt
    earlyPkt.hold = true ∧ s.alive = true ∧ s.hub.pkt earlyPkt.id = some earlyPkt ∧ earlyPkt.type = typeData ∧ s.dataRefusal earlyPkt = none ∧
    s.lands earlyPkt.addr earlyPkt.pay.length = true ∧ s.pktTask earlyPkt = some task ∧ task.current + 1 < earlyPkt.step := by decide +kernel
theorem wit_ReadPacketsCopy : let s := takes s0 readPkt
    s.alive = true ∧ s.hub.pkt readPkt.id = some readPkt ∧ readPkt.type = typeRead ∧ readPkt.started = false ∧
    s.readSource readPkt = (0x10000000, none) ∧ readPkt.origin = .ring 0 0 ∧ s.poison = [] ∧ s.reaches [⟨0x10000000, readPkt.payLen, false⟩] = true ∧
    Cells.wf s.mem = true ∧ (∀ w ∈ hdmPieces 0x10001000 (s.seen 0x10000000 readPkt.payLen), s.lands w.1 w.2.length = true) ∧
    ∀ i < readPkt.payLen, s.softMask (hdmLocal (0x10001000 + i) / 8 * 8) = none := by decide +kernel

/-- The task of the job is at rest. -/
def atRest (s : State) : State := s.updTask key (fun t => { t with st := .idle })

theorem wit_UnloadZeroesTheFrames :
    (let p := pkt typeUnload 1 0 0 []
     let s := takes (atRest paged) p
     s.alive = true ∧ s.hub.pkt p.id = some p ∧ p.type = typeUnload ∧ s.job p.ctx p.job = some { job [] with pages := [page1] } ∧
      (∀ t ∈ s.hub.tasks, t.key.ctx = 1 → t.key.job = 1 → t.st = .idle) ∧ (∀ m ∈ s.pages.moves, m.page ∉ [page1]) ∧ (job []).sol = none) ∧
    (let p := pkt typeUnload 1 0 0 []
     let s := takes (runs (job []) []) p
     s.hub.pkt p.id = some p ∧ s.job p.ctx p.job = some (job []) ∧ task ∈ s.hub.tasks ∧ task.key.ctx = 1 ∧ task.key.job = 1 ∧ task.st ≠ .idle) ∧
    (let p := pkt typeUnload 1 0 0 []
     let s := takes (atRest moving) p
     s.alive = true ∧ s.hub.pkt p.id = some p ∧ s.job p.ctx p.job = some { job [] with pages := [page1] } ∧
      (∀ t ∈ s.hub.tasks, t.key.ctx = 1 → t.key.job = 1 → t.st = .idle) ∧ ∃ m ∈ s.pages.moves, m.page ∈ [page1]) := by decide +kernel
/-- The domain is ready for loads. -/
def ready : State := { s0 with start := { s0.start with domainReady := true } }

theorem wit_LoadIsAllOrNothing : let p := pkt typeLoad 1 0x10000000 0 package
    let s := takes ready p
    s.alive = true ∧ s.hub.pkt p.id = some p ∧ p.type = typeLoad ∧ p.started = false ∧ s.loadBar p.ctx = none ∧ s.job p.ctx p.job = none ∧
    p.origin = .ring 0 0 ∧ fld p.arg0 51 0 % 8 = 0 ∧ s.isEntry = true := by decide +kernel
/-- The loader takes the package, and its report fits the window. -/
theorem wit_LoadIsAllOrNothing_ok : (match ready.load 1 1 package with
    | .ok x => decide (0x10000000 + (x.2.1.reportBytes ready.me x.2.2).length ≤ hdmBytes ∧ x.2.1.param = none ∧
        ready.windowDenied 1 0x10000000 (x.2.1.reportBytes ready.me x.2.2).length = false ∧
        x.1.reaches (x.2.1.pages.map (fun g => ⟨g, pageBytes, true⟩)) = true)
    | .error _ => false) = true := by decide +kernel
theorem wit_LoadIsAllOrNothing_error : (match ready.load 1 1 [] with | .ok _ => 0 | .error r => r.code) = refusePackage := by decide +kernel
theorem wit_RunStartsEveryCluster :
    (let p := pkt typeRun 1 0 0 []
     let s := takes (atRest { s0 with jobs := [job []], hub := { s0.hub with tasks := [task] } }) p
     s.alive = true ∧ s.hub.pkt p.id = some p ∧ p.type = typeRun ∧ p.started = false ∧ s.job p.ctx p.job = some (job []) ∧
      s.pktTask p = some { task with st := .idle } ∧ (job []).tasks[p.task]? = some ⟨0, 4, false, 0, 0, 1000, 1000⟩ ∧ bit p.arg0 16 = false ∧
      s.clusters.length = 128 ∧ (∀ l ∈ (job []).clusters p.task, l < 128) ∧ task.early = [] ∧
      (∀ l ∈ (job []).clusters p.task, s.clusterFree l = true) ∧ (job []).isSolver p.task = false) ∧
    (let s := atRest (runs (job []) [])
     s.hub.task key = some { task with st := .idle } ∧ 0 ∈ (job []).clusters 0 ∧ s.clusterFree 0 = false) := by decide +kernel

/-- A task whose cluster is to be suspended, and is at a boundary. -/
def suspending : State :=
  (runs (job [entry .halt]) []).updDrl 0 (fun d => { d with suspendReq := true }) |>.updTask key (fun t => { t with st := .suspending })
def saving : State := suspending.updDrl 0 (fun d => { d with st := .saving })
/-- The task is suspended, cluster 0's words in its slot. -/
def suspended : State :=
  { s0 with jobs := [job [entry .halt]], hub := { s0.hub with tasks := [{ task with st := .suspended, saved := [⟨0, Drl.start key, [], []⟩] }] } }

theorem wit_SuspendSavesAndResumeRestores :
    (let p := pkt typeSuspend 1 0 0 []
     let s := takes (runs (job []) []) p
     s.alive = true ∧ s.clusters.length = 128 ∧ 0 < 128 ∧ s.hub.pkt p.id = some p ∧ p.type = typeSuspend ∧ p.started = false ∧
      s.job p.ctx p.job = some (job []) ∧ s.pktTask p = some task ∧ (job []).isSolver 0 = false ∧ task.lender = none ∧ task.st = .running ∧
      (s.cluster 0).drl.holder = some key) ∧
    (suspending.alive = true ∧ (suspending.cluster 0).drl.holder = some key ∧ (suspending.cluster 0).drl.suspendReq = true ∧
      (suspending.cluster 0).under = none ∧ suspending.mayStop 0 false = true ∧ (suspending.cluster 0).migDue = false) ∧
    ((saving.cluster 0).drl.holder = some key ∧ (saving.cluster 0).drl.st = .saving ∧
      saving.hub.task key = some { task with st := .suspending } ∧ Cells.wf saving.mem = true ∧ saving.holders key = [0]) := by decide +kernel
theorem wit_SuspendSavesAndResumeRestores_resume : let p := pkt typeResume 1 0 0 []
    let s := takes suspended p
    s.alive = true ∧ s.clusters.length = 128 ∧ s.hub.pkt p.id = some p ∧ p.type = typeResume ∧ p.started = false ∧
    s.pktTask p = some { task with st := .suspended, saved := [⟨0, Drl.start key, [], []⟩] } ∧ s.clusterFree 0 = true := by decide +kernel
theorem wit_SaveWordsRoundTrip : let d : Drl := { Drl.idle with pend := [(63, 2 ^ 24 - 1)], iter := 2 ^ 24 - 1, head := 65535 }
    d.head < 2 ^ 64 ∧ d.iter < 2 ^ 24 ∧ d.pend.length ≤ 16 ∧ (∀ q ∈ d.pend, q.1 < 64 ∧ q.2 < 2 ^ 32) ∧ d.ctrs.length = 64 ∧
    ∀ c ∈ d.ctrs, c < 2 ^ 64 := by decide +kernel

/-- A ring of 16 slots in the host area, as RING_OPEN's payload gives it (R455). -/
def ringPay : List Byte := bytesOfWords [mkFld 52 48 4 ||| 4096, 0x10000000, 0x10001000, 0x10002000]

theorem wit_RingsOpenAndClose :
    (let p := pkt typeRingOpen 0 64 0 ringPay
     let s := takes s0 p
     s.alive = true ∧ s.hub.pkt p.id = some p ∧ s.isEntry = true ∧ fld p.arg0 17 0 ≠ 0 ∧ p.type = typeRingOpen ∧
      ringOf p.pay = some (Ring.openAs 4 0x10000000 0x10001000 0x10002000 4096) ∧
      s.buffersMeet 64 (Ring.openAs 4 0x10000000 0x10001000 0x10002000 4096) = false ∧ (s.hub.ring (fld p.arg0 17 0)).st = .closed) ∧
    (let p := pkt typeRingClose 0 1 0 []
     let s := takes s0 p
     s.hub.pkt p.id = some p ∧ fld p.arg0 17 0 ≠ 0 ∧ p.type = typeRingClose ∧ p.started = false ∧ p.origin = .ring 0 0 ∧ 0 ≠ fld p.arg0 17 0 ∧
      (s.hub.ring (fld p.arg0 17 0)).st = .opened ∧ (s.hub.ring (fld p.arg0 17 0)).released = (s.hub.ring (fld p.arg0 17 0)).tailSeen ∧
      (s.hub.ring (fld p.arg0 17 0)).waiting = []) := by decide +kernel
theorem wit_ContextResetEndsItsTasks : let p := pkt typeContextReset 0 4095 0 []
    let s := takes { s0 with hub := { s0.hub with module := 0x41 } } p
    s.alive = true ∧ s.hub.pkt p.id = some p ∧ p.type = typeContextReset ∧ p.started = false ∧ fld p.arg0 11 0 ≠ 0 ∧ s.isEntry = false ∧
    s.restoringIn (fld p.arg0 11 0) = false ∧
    (let p := pkt typeContextReset 0 1 0 []
     let s := takes { s0 with hub := { s0.hub with module := 0x41, tasks := [{ task with outcome := some (.restore, [], []) }] } } p
     s.alive = true ∧ s.hub.pkt p.id = some p ∧ p.type = typeContextReset ∧ p.started = false ∧ fld p.arg0 11 0 ≠ 0 ∧ s.isEntry = false ∧
      s.restoringIn (fld p.arg0 11 0) = true) := by decide +kernel

/-- A hub image of SVN 2 whose code is one byte: the header of R475, the body, the key and the signature. -/
def image : List Byte :=
  bytesOfWords [mkFld 63 32 0x47574349 ||| mkFld 31 28 1 ||| 1, 1, mkFld 63 32 2 ||| mkFld 31 24 0xA0 ||| mkFld 23 16 0xFF, mkFld 63 32 2, 0, 0, 0, 0]
    ++ List.replicate 2889 0
def imageFound : ImageIn := ⟨true, none, none, [], 0⟩

theorem wit_ImagesInstallWhereTheyVerify : let p := pkt typeFwImage 0 0 0 image
    let s := takes s0 p
    let i := imageOf imageFound p.pay
    s.alive = true ∧ s.hub.pkt p.id = some p ∧ p.type = typeFwImage ∧ fld p.arg0 1 0 = 0 ∧ s.fab.bcast = none ∧ 
    { s.start.flash with staged := p.pay }.verify i.kind i = none ∧ s.start.edgeUp .flash = true ∧ s.start.stage = .ready ∧
    s.start.flash.parts.length = 4 ∧
    s.start.flash.verify i.kind (imageOf { imageFound with sigOk := false } p.pay) = some refuseImageSig := by decide +kernel
theorem wit_AttestationAnswers : s0.alive = true ∧ s0.start.stage ≠ .minimal ∧ s0.hostUp = true ∧ s0.hub.mail.queue = [] ∧ s0.start.flash.xidx < 65536 ∧
    s0.hub.mail.signed = false ∧ s0.start.edgeUp .flash = true ∧
    (let s : State := { s0 with start := { s0.start with flash := { s0.start.flash with xidx := 65536 } } }
     s.alive = true ∧ s.hostUp = true ∧ 65536 ≤ s.start.flash.xidx) ∧
    (let s : State := { s0 with hub := { s0.hub with mail := { s0.hub.mail with queue := [(.mailbox, [1])] } } }
     s.alive = true ∧ s.hostUp = true ∧ s.hub.mail.queue = (.mailbox, [1]) :: [] ∧ AttFrom.mailbox ≠ .doe) ∧
    (let p := pkt typeAttest 0 0x10000000 0 [4]
     let s := takes s0 p
     s.hub.pkt p.id = some p ∧ p.type = typeAttest ∧ p.started = false ∧ p.pay.headD 0 = 4 ∧ p.origin = .ring 0 0 ∧
      fld p.arg0 51 0 + 8 ≤ hdmBytes) := by decide +kernel

/-- A copy that is not VALID after step 3: of a flash with no partition, so that no digest need be evaluated. -/
theorem wit_ImagesInstallWhereTheyVerify_fails : let p := pkt typeFwImage 0 0 0 image
    let i := imageOf imageFound p.pay
    let f : Flash := { s0.start.flash with staged := p.pay, parts := [] }
    f.verify i.kind i = none ∧ (((f.clearValid i.kind).program i.kind i [100]).confirm i.kind).valid i.kind = false := by decide +kernel

/-! ## Witnesses: the Derailleur, steps, migrations -/

/-- Task 0 stands at entry 0 of its Cassette, nothing in flight. -/
def atHead (es : List Entry) : State := runs (job es) []
def nopSig : Entry := { entry .nop with mig := false }

theorem wit_LowestReadyEntryIssues :
    (let s := atHead [nopSig]
     s.clusters.length = 128 ∧ s.clusterOn 0 = true ∧ s.pwr.gate ≤ (s.cluster 0).strokes + 1 ∧
      (s.deck 0).any (fun k => decide (s.nextIssue 0 k = some 0 ∧ (k.entry 0).any (fun e => e.op == .nop && !e.sigOn) = true)) = true) ∧
    (let s := atHead [entry .halt]
     s.clusterOn 0 = true ∧ (s.deck 0).any (fun k => decide (s.nextIssue 0 k = some 0 ∧ (k.entry 0).any (fun e => e.op != .nop && e.op != .fence) = true ∧
      (s.flightOf 0 k 0 (entry .halt)).tag = none)) = true) ∧
    (let s := runs (job [entry .halt]) [flight 0]
     s.clusterOn 0 = true ∧ (s.deck 0).any (fun k => decide (s.nextIssue 0 k = none)) = true) ∧
    (let s : State := { (atHead [nopSig]).updCluster 0 (fun c => { c with strokes := 0 }) with pwr := { s0.pwr with gate := 2 } }
     s.clusterOn 0 = true ∧ (s.deck 0).isSome = true ∧ (s.cluster 0).strokes + 1 < s.pwr.gate) := by decide +kernel
/-- An aborting cluster, one entry of which is still to end, and the entry's window has passed. -/
def aborting : State :=
  s0.updCluster 0 (fun c => { c with drl := { Drl.idle with st := .aborting, flights := [flight 3] }, gone := [(.entry, some 3)] })

theorem wit_EntriesCompleteAndSignal :
    (s0.clusters.length = 128 ∧ s0.site 0 0 = none ∧ (s0.cluster 0).drl.st ≠ .aborting) ∧
    (aborting.clusters.length = 128 ∧ aborting.site 0 3 = none ∧ (aborting.cluster 0).drl.st = .aborting ∧
      (∀ f ∈ (aborting.cluster 0).drl.flights, f.idx = 3) ∧ (aborting.cluster 0).gone = [(.entry, some 3)]) ∧
    (let s := (runs (job [{ entry .copy with sigOn := true, sigCtr := 63 }]) [{ flight 0 with work := .done }]).updDrl 0
        (fun d => { d with ctrs := d.ctrs.set 63 (2 ^ 24 - 2) })
     s.clusters.length = 128 ∧ (s.site 0 0).any (fun x => decide (s.finished x = true ∧ x.traps = false ∧ x.f.tag = none ∧ x.e.sigOn = true ∧
      (s.cluster 0).drl.ctrs.getD x.e.sigCtr 0 + 1 < 2 ^ 24)) = true) ∧
    (let s := runs (job [entry .copy]) [{ flight 0 with work := .done }]
     (s.site 0 0).any (fun x => decide (s.finished x = true ∧ x.traps = false ∧ x.f.tag = none ∧ x.e.sigOn = false)) = true) := by decide +kernel

/-- A SIGNAL of 3 to counter 5 of cluster 2 on this module (R129). -/
def sigEntry : Entry := { entry .signal with mig := false, mask := 0, w2 := mkFld 63 52 0x40 ||| mkFld 44 38 2 ||| mkFld 37 32 5, w3 := 3 }
def sigMsg : Msg := ⟨0x40, 0x40, 1, 0, 0, .signal 2 5 false 3⟩

theorem wit_SignalsAreSent :
    (let s := runs (job [sigEntry]) [flight 0]
     s.clusters.length = 128 ∧ s.freeTag 0 = some 0 ∧ (s.todo 0 0 .signal).any (fun x => fld x.e.w2 63 52 == s.me) = true) ∧
    (let s := (runs (job [sigEntry]) [{ flight 0 with work := .requests }]).updDrl 0 (fun d => { d with reqs := [⟨0, some 0, sigMsg, true, []⟩] })
     (s.cluster 0).drl.reqs.find? (fun q => q.tag = 0 ∧ q.busy = true) = some ⟨0, some 0, sigMsg, true, []⟩ ∧ sigMsg.dst = s.me) := by decide +kernel
/-- Signals of cluster 0 of this module to itself. -/
def rxSig : Rx := { rx with ctx := 1 }

theorem wit_SignalMessagesRaiseCounters :
    (let s := atHead [entry .halt]
     rxSig.port = none ∧ s.hears rxSig = true ∧ s.clusters.length = 128 ∧ 63 < 64 ∧ 2 ^ 24 - 1 < 2 ^ 24 ∧ s.barred rxSig.ctx = false ∧
      s.sigKey rxSig 0 = some key ∧ (s.cluster 0).drl.holder = some key ∧ (s.cluster 0).drl.ctrs.length = 64 ∧ (s.cluster 0).drl.gen = false ∧
      (s.cluster 0).drl.ctrs.getD 63 0 + (2 ^ 24 - 1) < 2 ^ 24 ∧ true ≠ (s.cluster 0).drl.gen ∧ (s.cluster 0).drl.pend.length < 16) ∧
    (let s := (atHead [entry .halt]).updDrl 0 (fun d => { d with pend := List.replicate 16 (0, 1) })
     s.hears rxSig = true ∧ s.sigKey rxSig 0 = some key ∧ (s.cluster 0).drl.holder = some key ∧ true ≠ (s.cluster 0).drl.gen ∧
      16 ≤ (s.cluster 0).drl.pend.length) ∧
    (let s := (atHead [entry .halt]).updDrl 0 (fun d => { d with ctrs := d.ctrs.set 63 1 })
     s.hears rxSig = true ∧ s.sigKey rxSig 0 = some key ∧ (s.cluster 0).drl.gen = false ∧ (s.cluster 0).drl.ctrs.length = 64 ∧
      2 ^ 24 ≤ (s.cluster 0).drl.ctrs.getD 63 0 + (2 ^ 24 - 1)) := by decide +kernel

/-- An ITER_END of two iterations to entry 0 that clears counter 63 (R133). -/
def iterEntry : Entry := { entry .iterEnd with aux := 0, mask := 0, w2 := 2, w3 := mkFld 63 63 1 }

theorem wit_ControlEntriesAct :
    (let s := runs (job [{ entry .ctlWrite with mask := 0, w2 := 0x80000, w3 := 1 }]) [flight 0]
     s.clusters.length = 128 ∧ (s.todo 0 0 .ctlWrite).any (fun x => (regAt (fld x.e.w2 31 0)).isSome) = true ∧
      (s.deck 0).any (fun k => k.d.flights.any (fun f => f.work == .todo && (k.entry f.idx).any (fun e => e.op == .ctlWrite))) = true) ∧
    (let s := (runs (job [iterEntry]) [flight 0]).updDrl 0 (fun d => { d with iter := 2 })
     (s.deck 0).any (fun k => decide (k.sol = [] ∧ (s.todo 0 0 .iterEnd).any (fun x => decide (x.f.tag = none ∧ x.e.sigOn = false ∧
      (match s.hub.task x.key with | some t => t.expired | none => false) = false ∧ k.d.exits x.e false = true)) = true)) = true) ∧
    (let s := runs (job [iterEntry]) [flight 0]
     (s.deck 0).any (fun k => decide (k.sol = [] ∧ (s.todo 0 0 .iterEnd).any (fun x => decide (x.f.tag = none ∧ x.e.sigOn = false ∧
      k.d.exits x.e false = false)) = true)) = true) := by decide +kernel
theorem wit_HaltEndsTheTask : let s := runs (job [entry .halt]) [flight 0]
    s.clusters.length = 128 ∧ (s.cluster 0).under = none ∧ (s.todo 0 0 .halt).any (fun x => decide (x.f.tag = none ∧ x.e.sigOn = false ∧
      x.job.clusters x.key.task = [0] ∧ x.job.isSolver x.key.task = false ∧ s.hub.task x.key = some task ∧
      ∀ f ∈ (s.cluster 0).drl.flights, f.idx = x.f.idx)) = true := by decide +kernel

/-- A task of two clusters whose Cassettes are a STEP_END. -/
def twoJob : Job := { job [entry .stepEnd] with cassettes := [⟨0, 0, [entry .stepEnd], []⟩, ⟨0, 1, [entry .stepEnd], []⟩] }
def aVote (l : Nat) : Vote := ⟨0x40, l, 0, false, false, []⟩

theorem wit_VotesAreGathered :
    (let s := runs twoJob [flight 0]
     s.clusters.length = 128 ∧ (s.todo 0 0 .stepEnd).any (fun x => decide (x.f.tag = none ∧ x.e.sigOn = false ∧ s.hub.task x.key = some task ∧
      1 ∈ x.job.clusters x.key.task ∧ ∀ v ∈ task.votes, ¬ (v.module = s.me ∧ v.cluster = 1))) = true) ∧
    (let s := runs twoJob []
     rx.port = none ∧ s.hears rx = true ∧ s.hub.task key = some task ∧ s.jobOf key = some twoJob ∧ 0 = task.current ∧ [aVote 0] ≠ [] ∧
      1 ∈ twoJob.clusters key.task ∧ (∀ v ∈ task.votes ++ [aVote 0], ¬ (v.module = s.me ∧ v.cluster = 1)) ∧
      ∀ c ∈ task.cops ++ [], c.module ≠ s.me) := by decide +kernel
theorem wit_OutcomesRewindTheTask : let s := (runs (job [entry .stepEnd]) []).updDrl 0 (fun d => { d with st := .stepWait })
    let j := job [entry .stepEnd]
    rx.port = none ∧ s.hears rx = true ∧ s.clusters.length = 128 ∧ s.hub.task key = some task ∧ s.jobOf key = some j ∧
    j.tasks[key.task]? = some ⟨0, 4, false, 0, 0, 1000, 1000⟩ ∧ task.st = .running ∧ task.outcome = none ∧ s.treeKids j = [] ∧ s.hub.held = [] ∧
    s.pairRead key = false ∧ (j.clusters key.task).Nodup ∧ (∀ l ∈ j.clusters key.task, l < 128 ∧ (s.cluster l).drl.holder = some key ∧
      (s.cluster l).drl.pend = [] ∧ (s.cluster l).drl.pauseReq = false) ∧ task.done + 1 < 4 := by decide +kernel
theorem wit_AbortFreesTheClusters : let s := runs (job [entry .halt]) [flight 0]
    rx.port = none ∧ s.hears rx = true ∧ s.hub.task key = some task ∧ task.st ≠ .idle ∧ task.restoring = false ∧
    s.clusters.length = 128 ∧ (s.cluster 0).drl.holder = some key ∧ (s.cluster 0).under = none ∧ (s.cluster 0).drl.flights ≠ [] ∧
    ((runs (job [entry .halt]) []).cluster 0).drl.flights = [] ∧ 3 ≠ statusContextReset := by decide +kernel
theorem wit_AbortFreesTheClusters_restoring : let t : Task := { task with outcome := some (.restore, [], []) }
    let s := (runs (job [entry .halt]) []).updTask key (fun _ => t)
    rx.port = none ∧ s.hears rx = true ∧ s.hub.task key = some t ∧ t.st ≠ .idle ∧ t.restoring = true := by decide +kernel
/-- Above the 128 clusters a state holds none. -/
theorem cluster_beyond (s : State) (m : Nat) (hs : s.clusters.length = 128) (h : 128 ≤ m) : s.cluster m = Cluster.reset :=
  List.getD_eq_default _ _ (hs ▸ h)
theorem wit_AbortFreesTheClusters_under (l : Nat) (d : Drl) (h : ((runs (job [entry .halt]) [flight 0]).cluster l).under = some d) :
    d.holder ≠ some key := by
  have all : ∀ l, l < 128 → ((runs (job [entry .halt]) [flight 0]).cluster l).under = none := by decide +kernel
  have none' : ((runs (job [entry .halt]) [flight 0]).cluster l).under = none := by
    by_cases hl : l < 128
    · exact all l hl
    · rw [cluster_beyond _ l (by decide +kernel) (Nat.le_of_not_lt hl)]; rfl
  rw [none'] at h; cases h
/-- A task with a deadline, whose entry in flight is a product. -/
def datedTask : Task := { task with dlOn := true }
def dated : State := (runs (job [entry .mm]) [flight 0]).updTask key (fun _ => datedTask)

theorem wit_WindowsAbortTheTask :
    (let s := runs (job [entry .mm]) [flight 0]
     s.clusters.length = 128 ∧ s.hub.task key = some task ∧ task.active = true ∧ task.restoring = false ∧ (s.cluster 0).drl.holder = some key ∧
      s.oldest 0 = some (0, (Opcode.mm).engine) ∧ (s.cluster 0).drl.st = .running) ∧
    (let s := runs (job [entry .collective]) [flight 0]
     (s.cluster 0).drl.holder = some key ∧ s.groupWaits key 0 = true) ∧
    (dated.hub.task key = some datedTask ∧ datedTask.active = true ∧ datedTask.restoring = false ∧ (dated.cluster 0).drl.holder = some key ∧ datedTask.dlOn = true ∧
      datedTask.expired = false) := by decide +kernel
theorem wit_WindowsAbortTheTask_deadline (m : Nat) : dated.abandonable m = [] := by
  have all : ∀ m, m < 128 → dated.abandonable m = [] := by decide +kernel
  by_cases h : m < 128
  · exact all m h
  · unfold State.abandonable
    rw [cluster_beyond _ m (by decide +kernel) (Nat.le_of_not_lt h)]; rfl

/-- The plan of a job with a Coppice on module 0x041, and its record after step 2. -/
def paramPlan : ParamPlan :=
  { coppiceEn := true, lsEn := false, lsInit := 0, lsMin := 0, lsMax := 0, lsGrow := 0, lsVec := 0, copModule := 0x41, copBase := 0x10000000,
    copBytes := 0x1000000, stepRec := 0x10000000, npairs := 0, pairTable := 0 }
def stepRec : StepRec := { StepRec.load paramPlan 0 with copStep := 2, committed := 2 }
def restoreTask : Task := { task with step := 3, outcome := some (.restore, [], []) }
def restoring : State :=
  { s0 with jobs := [{ job [entry .stepEnd] with param := some paramPlan }],
            hub := { s0.hub with tasks := [restoreTask], recs := [((1, 1), stepRec)] } }
/-- The restore of a cluster whose image holds another D_c than the (empty) state's. -/
def badRestore : Restore := ⟨key, 2, false, [0], none, Cells.write [] 64 [1]⟩

theorem wit_RestoresBeginAndVerify :
    (let s := restoring
     s.hub.task key = some restoreTask ∧ s.jobOf key = some { job [entry .stepEnd] with param := some paramPlan } ∧
      s.hub.srec key.ctx key.job = some stepRec ∧ restoreTask.outcome = some (.restore, [], []) ∧ s.hub.restores.find? (fun y => y.key = key) = none ∧
      s.hub.copGone.contains (key.ctx, key.job) = false ∧ stepRec.copStep = stepRec.committed) ∧
    (let s : State := { restoring with hub := { restoring.hub with copGone := [(1, 1)] } }
     s.hub.restores.find? (fun y => y.key = key) = none ∧ s.hub.copGone.contains (key.ctx, key.job) = true) ∧
    (let s : State := { restoring with hub := { restoring.hub with restores := [badRestore] } }
     s.hub.restores.find? (fun y => y.key = key) = some badRestore ∧ s.restoreReady badRestore = true ∧
      (s.finishRestore { job [entry .stepEnd] with param := some paramPlan } badRestore).2 = false) := by decide +kernel
/-- A restore of no cluster of this module, which so verifies, of a task that is to abort. -/
def goodRestore : Restore := { badRestore with clusters := [] }
def dueTask : Task := { restoreTask with abortDue := some 3 }
def restored : State := { restoring with hub := { restoring.hub with tasks := [dueTask], restores := [goodRestore] } }
theorem wit_RestoresBeginAndVerify_abort : restored.hub.task key = some dueTask ∧ dueTask.outcome = some (.restore, [], []) ∧
    restored.hub.restores.find? (fun y => y.key = key) = some goodRestore ∧ restored.restoreReady goodRestore = true ∧
    (restored.finishRestore { job [entry .stepEnd] with param := some paramPlan } goodRestore).2 = true ∧ dueTask.abortDue = some 3 := by
  decide +kernel

/-- The log slot of step 2 in a region at 0x1000_0000 with BASE_BYTES 0x10: the step-end record of one cluster (R284). -/
def folding : State :=
  { s0 with mem := Cells.write [] (0x10000000 + copHeader + 0x10) (stepEndRecord 0 2 5) }

/-- What the fold of step 2 finds in the slot. -/
def foldFinds (s : State) : Option (List LogRec) :=
  logStep 2 1 (logRecords (logBytes 0x10) (Cells.read s.mem (0x10000000 + copHeader + 0x10 + 2 % 2 * logBytes 0x10) (logBytes 0x10)))

theorem wit_CoppiceFoldsWholeSteps : (foldFinds folding).isSome = true ∧ 2 < 2 ^ 64 ∧ Cells.wf folding.mem = true ∧ foldFinds s0 = none :=
  ⟨rfl, by decide, by decide +kernel, rfl⟩
theorem wit_CoppiceFoldsWholeSteps_wait :
    let t : Task := { task with cops := [⟨0x40, true, false, 1⟩] }
    let r : StepRec := { stepRec with copStep := 1 }
    let s : State := { restoring with hub := { restoring.hub with tasks := [t], recs := [((1, 1), r)] } }
    s.hub.task key = some t ∧ t.active = true ∧ (∃ c ∈ t.cops, c.module = s.me) ∧
    s.jobOf key = some { job [entry .stepEnd] with param := some paramPlan } ∧ paramPlan.coppiceEn = true ∧ s.hub.srec key.ctx key.job = some r ∧
    r.copStep ≠ r.committed := by decide +kernel

/-- Cluster 0's migration is due. -/
def migrating (s : State) : State := s.updCluster 0 (fun c => { c with migDue := true })

theorem wit_MigrationsMoveTheCluster :
    (let s := migrating s0
     s.clusters.length = 128 ∧ s.start.pcl.length = 136 ∧ (s.cluster 0).migDue = true ∧ s.start.phys 0 = some 0 ∧ s.start.spareOf (0 / 17) = some 16 ∧
      s.idleAt 0 = true ∧ (s.start.cluster 0).due = false) ∧
    (let s : State := { migrating s0 with start := s0.start.upd 0 (fun c => { c with due := true }) }
     s.start.phys 0 = some 0 ∧ s.idleAt 0 = true ∧ (s.start.cluster 0).due = true ∧ (s.cluster 0).drl.st ≠ .migrating ∧
      (s.cluster 0).drl.pauseReq = false) ∧
    (let s : State := { (migrating (runs (job [entry .halt]) [])).updDrl 0 (fun d => { d with pauseReq := true }) with
       start := (s0.start.upd 0 (fun c => { c with due := true })).upd 16 (fun c => { c with spare := false }) }
     s.clusters.length = 128 ∧ s.start.pcl.length = 136 ∧ (s.cluster 0).migDue = true ∧ s.start.phys 0 = some 0 ∧
      s.start.spareOf (0 / 17) = none ∧ (s.start.cluster 0).due = true ∧ (s.cluster 0).drl.holder = some key ∧ (s.cluster 0).drl.st = .running ∧
      s.mayStop 0 false = true ∧ (s.cluster 0).drl.pauseReq = true ∧ (s.cluster 0).drl.suspendReq = false) ∧
    (let s := migrating (runs (job [entry .halt]) [])
     (s.cluster 0).drl.holder = some key ∧ s.mayStop 0 false = true ∧ s.mayStop 0 true = true ∧ s.start.spareOf (0 / 17) = some 16) ∧
    (let s := (migrating (runs (job [entry .halt]) [])).updDrl 0 (fun d => { d with st := .migrating })
     (s.cluster 0).drl.holder = some key ∧ (s.cluster 0).drl.st = .migrating ∧ (s.cluster 0).drl.pauseReq = false ∧
      (s.cluster 0).drl.atBoundary (s.entriesOf 0 (s.cluster 0).drl) false = true) ∧
    (let s := (migrating (runs (job [entry .halt]) [])).updDrl 0 (fun d => { d with st := .migrating, bound := some false })
     (s.cluster 0).drl.st = .migrating ∧ (s.cluster 0).drl.atBoundary (s.entriesOf 0 (s.cluster 0).drl) false = false) := by decide +kernel

/-! ## Witnesses: tiles, Chainline, fetch, Topiary, solver -/

/-- The three conditions of `State.clear`. -/
def clears (s : State) (x : Site) (ev : Ev) (as : List Access) : Bool :=
  decide (firstFault s.pages s.poison ev.bad (some x.l) as = none ∧ writesWait s.pages as = false ∧ s.reaches as = true)

/-- Tensors of the host area (R366): H16 operands of 2 rows and 2 columns, and F32 results of the same shape. -/
def tA : Tensor := { tensor 0x10000000 1 with fmt := .h16, cols := 2, lcols := 2, fullCols := 2 }
def tB : Tensor := { tA with base := 0x10001000, haz := 2 }
def tD : Tensor := { tensor 0x10002000 3 with cols := 2, lcols := 2, fullCols := 2 }
/-- An entry of operands 0 and 1 and destination 2, without a chain. -/
def opEntry (op : Opcode) : Entry := { entry op with opa := 0, opb := 1, opd := 2 }
def opJob (op : Opcode) : Job := { job [opEntry op] with tensors := [tA, tB, tD] }
def opState (op : Opcode) : State := runs (opJob op) [flight 0]
/-- Another entry holds every Pannier slot, by logical tile 0. -/
def panFull (s : State) : State := s.updCluster 0 (fun c => { c with pan := List.replicate 32 ⟨mkFld 63 48 9, some 0, []⟩ })
/-- A cell that computes wrong on both attempts, and one that does on the first alone. -/
def broken : Ev := { Ev.none with cells := [⟨0, 0, 0, 0, 0x7F000000⟩, ⟨0, 1, 0, 0, 0x7F000000⟩] }
def flaky : Ev := { Ev.none with cells := [⟨0, 0, 0, 0, 0x7F000000⟩] }

/-- The verdicts of a product's tiles, and whether one is to be computed again, where the entry is to do, clear, and finds Pannier slots. -/
def verdicts (s : State) (op : Opcode) (ev : Ev) : Option (List Abft × Bool) :=
  (s.todo 0 0 op).bind (fun x =>
    let ts := product op (Mat.ofTensor s.mv tA) (Mat.ofTensor s.mv tB) (bit x.e.w2 1) (fld x.f.til 4 0) false (fun _ _ => 0) (x.f.work.cells ev.cells)
    if x.opa = some tA ∧ x.opb = some tB ∧ x.opd = some tD ∧ bit x.e.w2 0 = false
        ∧ clears s x ev (tensorAccesses ([tA, tB] ++ (x.job.chainTensors (x.job.chain x.e)).1) (tD :: (x.job.chainTensors (x.job.chain x.e)).2)) = true
        ∧ (x.passPannier (bit x.e.w2 1) ts (s.cluster 0).pan).isSome = true
    then some (ts.map (fun t => t.verdict), x.retries ts) else none)
/-- The tile of the product has failed its first check, and waits for its retry. -/
def again : State := runs (opJob .mm) [{ flight 0 with work := .retry flaky.cells [] }]

theorem wit_MatrixProductsRun : (opState .mm).clusters.length = 128 ∧ verdicts (opState .mm) .mm Ev.none = some ([.pass], false) ∧
    verdicts (opState .mmTa) .mmTa Ev.none = some ([.pass], false) ∧ verdicts (opState .mmTb) .mmTb Ev.none = some ([.pass], false) := by decide +kernel
theorem wit_MatrixProductsRun_retry : verdicts (opState .mm) .mm flaky = some ([.passRetry], true) := by decide +kernel
theorem wit_MatrixProductsRun_passes : verdicts again .mm Ev.none = some ([.passRetry], false) := by decide +kernel
theorem wit_MatrixProductsRun_fail : verdicts again .mm broken = some ([.fail], false) := by decide +kernel
theorem wit_MatrixProductsRun_waits : let s := panFull (opState .mm)
    (s.todo 0 0 .mm).any (fun x => clears s x Ev.none (tensorAccesses [tA, tB] [tD]) && (x.passPannier (bit x.e.w2 1)
      (product .mm (Mat.ofTensor s.mv tA) (Mat.ofTensor s.mv tB) (bit x.e.w2 1) (fld x.f.til 4 0) false (fun _ _ => 0) []) (s.cluster 0).pan).isNone) = true := by
  decide +kernel

/-- A statistic slot of one block of 128, its parts in the host area. -/
def slot : Slot :=
  { owner := 0, side := 0, rootLog := 1, avg := 0, betaShift := 0, repl := false, init := false, applyFmt := 4, block := 128, dim := 128, ldim := 128,
    statEvery := 1, refreshEvery := 2, refreshPhase := 0, maxNewton := 1, warmIter := 1, epsRel := 0, epsAbs := 0x3F800000, tau := 0, convTol := 0,
    resTol := 0, npos := 0, stat := 0x11000000, plane := 0x12000000, roots := [0x13000000, 0x13200000], applies := [0x13400000, 0x13600000],
    state := 0x14000000 }
/-- A Gram entry over slot 0, and a tensor of 128 columns that it multiplies with itself. -/
def tG : Tensor := { tA with rows := 1, lrows := 1, cols := 128, lcols := 128, fullCols := 128, stride := 256 }
def gramJob (op : Opcode) (every : Nat) : Job :=
  { job [{ entry op with opa := 0 }] with tensors := [tG], slots := [{ slot with statEvery := every }] }
/-! A Gram product of zeroes: every accumulator stays cleared, and every row check passes. -/

theorem isZero_eq {v : Val} (h : v.isZero = true) : ∃ s e, v = .fin s 0 e := by
  cases v with
  | fin s m e => exact ⟨s, e, by simp only [Val.isZero, beq_iff_eq] at h; rw [h]⟩
  | _ => cases h
theorem value_zero (r c : Nat) : (tG.value ⟨[], []⟩ r c).isZero = true := by
  have all : ∀ c, c < 128 → (tG.held ⟨[], []⟩ 0 c).isZero = true := by decide +kernel
  unfold Tensor.value; split
  · rename_i h
    have hr : r = 0 := by have := h.1; simp [tG] at this; omega
    subst hr; exact all c h.2
  · rfl
theorem get_map_zero (n k : Nat) (f : Nat → Nat → Val) (hf : ∀ r c, (f r c).isZero = true) (r c : Nat) :
    (Mat.get ⟨n, k, (List.range n).map (fun r => (List.range k).map (fun c => f r c))⟩ r c).isZero = true := by
  simp only [Mat.get, List.getD_eq_getElem?_getD, List.getElem?_map]
  cases (List.range n)[r]? with
  | none => rfl
  | some i =>
    simp only [Option.map_some, Option.getD_some, List.getElem?_map]
    cases (List.range k)[c]? with
    | none => rfl
    | some j => exact hf i j
/-- The additions of Gram mode, as `gramAcc` and `gramRowFails` make them. -/
def addV (a : Acc) (v : Val) : Acc :=
  match v with
  | .fin _ _ _ => let x := accTerm v.dy; a.add x.1 x.2
  | _ => .nonfin
def addA (a b : Acc) : Acc :=
  match b with
  | .cleared => a
  | .nonfin => .nonfin
  | .val p e => a.add p e
def colSum (t : Mat) (j0 n k : Nat) : Acc := (List.range n).foldl (fun a j => addV a (t.get k (j0 + j))) .cleared
def magSum (t : Mat) (j0 n k : Nat) : Acc := (List.range n).foldl (fun a j => addV a (t.get k (j0 + j)).abs) .cleared
def mulSum (f : Nat → Val) (g : Nat → Acc) (ks : List Nat) (a : Acc) : Acc :=
  ks.foldl (fun a k => match g k with
    | .nonfin => Acc.nonfin
    | c => addV a ((f k).mul (Val.ofDy c.dy))) a
theorem gramAcc_eq (a : Acc) (s t : Mat) (i n : Nat) : gramAcc a s t i n = (prods s t i n).foldl addV a := rfl
theorem gramRowFails_eq (tol : Nat) (s t : Mat) (ck : Acc → Acc) (old new : List Acc) (i j0 n : Nat) :
    gramRowFails tol s t ck old new i j0 n =
      (let e := ck (mulSum (fun k => s.get i k) (colSum t j0 n) (List.range s.cols) (old.foldl addA .cleared))
       let u := mulSum (fun k => (s.get i k).abs) (magSum t j0 n) (List.range s.cols) .cleared
       let sum := new.foldl addA .cleared
       if e = Acc.nonfin ∨ u = Acc.nonfin ∨ sum = Acc.nonfin then false else Dy.lt (u.dy.scale (-(tol : Int))) (e.dy.sub sum.dy).abs) := rfl
theorem addZero {v : Val} (h : v.isZero = true) : addV .cleared v = .cleared := by
  obtain ⟨s, e, rfl⟩ := isZero_eq h
  cases s <;> simp [addV, Val.dy, accTerm, Acc.add]
theorem mulZero {v w : Val} (h : v.isZero = true) (g : w.isZero = true) : (v.mul w).isZero = true := by
  obtain ⟨s, e, rfl⟩ := isZero_eq h; obtain ⟨t, f, rfl⟩ := isZero_eq g; simp [Val.mul, Val.isZero]
theorem absZero {v : Val} (h : v.isZero = true) : v.abs.isZero = true := by
  obtain ⟨s, e, rfl⟩ := isZero_eq h; rfl
theorem gramAcc_zero (a b : Mat) (ha : ∀ i k, (a.get i k).isZero = true) (hb : ∀ i k, (b.get i k).isZero = true) (i n : Nat) :
    gramAcc .cleared a b i n = .cleared := by
  rw [gramAcc_eq, prods, List.foldl_map]
  refine List.foldl_fixed' ?_ _; intro k; exact addZero (mulZero (ha i k) (hb k n))
theorem addCleared (l : List Acc) (h : ∀ x ∈ l, x = .cleared) : l.foldl addA .cleared = .cleared := by
  induction l with
  | nil => rfl
  | cons x l ih => rw [List.foldl_cons, h x (List.mem_cons_self ..)]; exact ih (fun y hy => h y (List.mem_cons_of_mem _ hy))
theorem mulSum_zero (f : Nat → Val) (g : Nat → Acc) (hf : ∀ k, (f k).isZero = true) (hg : ∀ k, g k = .cleared) (ks : List Nat) :
    mulSum f g ks .cleared = .cleared := by
  refine List.foldl_fixed' (fun k => ?_) ks
  rw [hg k]; exact addZero (mulZero (hf k) (by decide))
theorem gramRow_zero (a b : Mat) (ha : ∀ i k, (a.get i k).isZero = true) (hb : ∀ i k, (b.get i k).isZero = true) (tol i j n : Nat)
    (old new : List Acc) (ho : ∀ x ∈ old, x = .cleared) (hn : ∀ x ∈ new, x = .cleared) : gramRowFails tol a b id old new i j n = false := by
  have c (k : Nat) : colSum b j n k = .cleared := by
    refine List.foldl_fixed' ?_ _; intro q; exact addZero (hb k _)
  have m (k : Nat) : magSum b j n k = .cleared := by
    refine List.foldl_fixed' ?_ _; intro q; exact addZero (absZero (hb k _))
  rw [gramRowFails_eq, addCleared old ho, addCleared new hn, mulSum_zero _ _ (fun k => ha i k) c, mulSum_zero _ _ (fun k => absZero (ha i k)) m]
  simp [Acc.dy, Dy.lt, Dy.sub, Dy.add, Dy.abs, Dy.neg, Dy.scale, Dy.zero]
theorem runGram_zero (a b : Mat) (ha : ∀ i k, (a.get i k).isZero = true) (hb : ∀ i k, (b.get i k).isZero = true) (tol : Nat) (t : Slot)
    (ht : t.planeState [] ≠ 1) (g : GTile) : (runGram t [] a b tol [] g).2.verdict = .pass := by
  have old : t.gramOld [] g = List.replicate 128 (List.replicate 128 .cleared) := if_neg ht
  unfold runGram
  simp only [old, gramFault, List.foldl_nil]
  rw [if_pos]
  rw [List.isEmpty_iff, List.filter_eq_nil_iff]
  intro r _
  rw [show gramSum [] g.q 0 r = id from rfl, gramRow_zero a b ha hb]
  · decide
  · intro x hx
    rw [List.getD_eq_getElem?_getD, List.getElem?_replicate] at hx
    split at hx
    · exact List.eq_of_mem_replicate hx
    · cases hx
  · intro x hx
    rw [List.getD_eq_getElem?_getD, List.getElem?_map, List.getElem?_zipIdx, List.getElem?_replicate] at hx
    split at hx
    · simp only [Option.map_some, Option.getD_some, List.mem_map] at hx
      obtain ⟨y, hy, rfl⟩ := hx
      have := List.eq_of_mem_replicate (List.fst_mem_of_mem_zipIdx hy)
      rw [this]; exact gramAcc_zero a b ha hb _ _
    · cases hx
theorem tG_get (r c : Nat) : ((Mat.ofTensor ⟨[], []⟩ tG).get r c).isZero = true := get_map_zero _ _ _ value_zero r c
theorem tG_getT (r c : Nat) : ((Mat.ofTensor ⟨[], []⟩ tG).transpose.get r c).isZero = true := get_map_zero _ _ _ (fun r c => tG_get c r) r c

/-- The site of a Gram entry in a state whose memory holds nothing. -/
theorem wit_GramEntriesAdd :
    (let s := runs (gramJob .gramL 1) [flight 0]
     s.clusters.length = 128 ∧ (s.todo 0 0 .gramL).any (fun x => decide (x.opa = some tG ∧ x.job.slots[fld x.e.w2 15 0]? = some { slot with statEvery := 1 } ∧
      s.stepOf x.key % max 1 slot.statEvery = 0 ∧
      slot.planeState s.mem ≠ 1 ∧ clears s x Ev.none (tG.accesses false ++ [⟨slot.plane, slot.planeBytes, true⟩, ⟨slot.state, 8, true⟩]) = true)) = true) ∧
    (let s := runs (gramJob .gramR 1) [flight 0]
     (s.todo 0 0 .gramR).any (fun x => decide (x.opa = some tG ∧ x.job.slots[fld x.e.w2 15 0]? = some { slot with statEvery := 1 } ∧
      slot.planeState s.mem ≠ 1 ∧ clears s x Ev.none (tG.accesses false ++ [⟨slot.plane, slot.planeBytes, true⟩, ⟨slot.state, 8, true⟩]) = true)) = true) ∧
    (let s := (runs (gramJob .gramL 3) [flight 0]).updTask key (fun t => { t with step := 1 })
     (s.todo 0 0 .gramL).any (fun x => decide (x.opa = some tG ∧ x.job.slots[fld x.e.w2 15 0]? = some { slot with statEvery := 3 } ∧
      s.stepOf x.key % max 1 3 ≠ 0)) = true) := by decide +kernel
/-- Every tile of both entries passes. -/
theorem wit_GramEntriesAdd_pass (tol : Nat) (t : GTile) :
    (runGram { slot with statEvery := 1 } [] (Mat.ofTensor ⟨[], []⟩ tG) (Mat.ofTensor ⟨[], []⟩ tG).transpose tol [] t).2.verdict = .pass ∧
    (runGram { slot with statEvery := 1 } [] (Mat.ofTensor ⟨[], []⟩ tG).transpose (Mat.ofTensor ⟨[], []⟩ tG) tol [] t).2.verdict = .pass :=
  ⟨runGram_zero _ _ tG_get tG_getT tol _ (by decide +kernel) t, runGram_zero _ _ tG_getT tG_get tol _ (by decide +kernel) t⟩

/-- A chain of one CLAMP between constants 0 and 1 (R193, R194). -/
def chainWords : List Word :=
  [mkFld 59 56 1, mkFld 63 60 5] ++ List.replicate 15 0 ++ [0xFFFFFFFFFFFFFFFF, mkFld 63 32 0xFFFFFFFF, 0xFFFFFFFFFFFFFFFF, mkFld 63 32 0xFFFFFFFF]
def vecEntry (op : Opcode) : Entry := { entry op with mask := 0, opa := 0, opd := 1, aux := 0 }
/-- F32 tensors of 2 rows and 2 columns, a reduction over both axes, and a window slot with the list of one extent. -/
def vecJob (op : Opcode) : Job :=
  let t := { tD with base := 0x10000000, haz := 1 }
  { job [vecEntry op] with
    tensors := [t, { t with base := 0x10001000, haz := 2 }], chains := [chainWords], reds := [⟨1, 0, false, false, 0, 0, noIdx, noIdx⟩]
    regions := [⟨.window, 0, 1, 0x10200000, pageBytes, 64⟩], streams := [.stream 0 0 9 1 0x10010000 noIdx] }
def vecState (op : Opcode) : State := runs (vecJob op) [flight 0]
/-- The block list holds one extent of 64 bytes (R380). -/
def listed : State := { vecState .stream with mem := Cells.write [] 0x10010000 (bytesOfWords [0x10020000, mkFld 63 32 64]) }

theorem wit_VectorAndFetchEntriesRun :
    ((vecState .chain).todo 0 0 .chain).any (fun x => decide (x.solOp = none ∧ x.opa.isSome ∧ x.opd.isSome ∧ (x.job.chain x.e).isSome ∧
      clears (vecState .chain) x Ev.none (tensorAccesses (x.opa.toList ++ (x.opb.toList ++ (x.job.chainTensors (x.job.chain x.e)).1))
        (x.opd.toList ++ (x.job.chainTensors (x.job.chain x.e)).2)) = true)) = true ∧
    ((vecState .reduce).todo 0 0 .reduce).any (fun x => decide (x.job.reds[x.e.aux]?.isSome ∧ x.opa.isSome ∧ x.opd.isSome ∧
      clears (vecState .reduce) x Ev.none (tensorAccesses x.opa.toList x.opd.toList) = true)) = true ∧
    ((vecState .copy).todo 0 0 .copy).any (fun x => decide (x.opa.isSome ∧ x.opd.isSome ∧
      clears (vecState .copy) x Ev.none (tensorAccesses x.opa.toList x.opd.toList) = true)) = true ∧
    (listed.todo 0 0 .stream).any (fun x => decide (x.job.streams[x.e.aux]? = some (.stream 0 0 9 1 0x10010000 noIdx) ∧
      x.job.regions[0]? = some ⟨.window, 0, 1, 0x10200000, pageBytes, 64⟩ ∧
      streamExtents listed.mem 0x10010000 1 64 = [⟨0x10020000, 64, 0⟩] ∧
      clears listed x Ev.none ([⟨0x10010000, 16, false⟩, ⟨0x10020000, 64, false⟩, ⟨0x10200000, 64, true⟩]) = true)) = true ∧
    ((vecState .release).todo 0 0 .release).isSome = true := by decide +kernel

/-- A solver plan of one class with one problem, on cluster 0. -/
def solClass : SolClass :=
  { n := 2, m := 1, block := 128, slot0 := 0, t := 1, pvar := 0, pcon := 0, np := 1, rho0 := 0x3F800000, sigma := 0x3F800000, alpha := 0x3F800000,
    epsAbs := 0x3F800000, epsRel := 0, accept := 0x3F800000, checkEvery := 1, maxChecks := 1, rhoTrig := 0, rhoRange := 0, eqShift := 0, clusters := [0],
    data := 0x10000000, state := 0x10100000, result := mkFld 63 52 0x40 |>.toNat }
def solPlan : SolPlan :=
  { deadlineUs := 0, classes := [solClass], larges := [], cycleRec := 0, entryWinUs := 1000, pendKib := 1, pendBase := 0x10300000 }
/-- The generated Cassette's entry of a kind, in flight. -/
def solState (op : Opcode) (o : SolOp) : State :=
  runs { job [] with
    cassettes := [⟨0, 0, [{ entry op with mask := 0, aux := 0 }], [o]⟩], sol := some solPlan
    slots := [{ slot with side := 2 }], tops := [⟨if o = .factor 0 then .factor else .solve, 0, noIdx, noIdx⟩] } [flight 0]
def solHyps (op : Opcode) (o : SolOp) : Bool :=
  let s := solState op o
  (s.todo 0 0 op).any (fun x => decide (x.job.sol = some solPlan ∧ x.solOp = some o ∧ clears s x Ev.none (solPlan.accesses x.job 0) = true))

theorem wit_SolverEntriesRun : (solState .chain (.iter 0)).clusters.length = 128 ∧ solHyps .chain (.iter 0) = true ∧ solHyps .chain (.check 0) = true ∧
    solHyps .topiary (.factor 0) = true ∧ solHyps .topiary (.solve 0) = true ∧ solPlan.cls 0 = some solClass ∧ solPlan.onCluster 0 0 = [0] ∧
    ((solState .chain (.iter 0)).sol.prob (solPlan.first 0 + 0)).frozen = none := by decide +kernel

/-- A SEND of the tensor's two rows to module 0x041. -/
def sendState : State :=
  runs { vecJob .send with streams := [.transfer 2 (0x41 * 2 ^ 52 + 0x10000000) 64], cassettes := [⟨0, 0, [vecEntry .send], []⟩] } [flight 0]

theorem wit_SendsArePiecewise : sendState.clusters.length = 128 ∧ (sendState.todo 0 0 .send).any (fun x => decide (x.opa.isSome ∧
      x.job.streams[x.e.aux]? = some (.transfer 2 (0x41 * 2 ^ 52 + 0x10000000) 64) ∧
      clears sendState x Ev.none (x.opa.toList.flatMap (fun a => (List.range 2).map (fun r => ⟨a.base + r * a.stride, a.rowBytes, false⟩))) = true)) = true := by
  decide +kernel

/-- A TOPIARY entry of a kind over slot 0, with tensor 0 or none. -/
def topJob (op : TopOp) (a b : Nat) (g : Slot) : Job :=
  { vecJob .topiary with cassettes := [⟨0, 0, [{ entry .topiary with mask := 0, aux := 0 }], []⟩], slots := [g], tops := [⟨op, 0, a, b⟩] }
def topState (op : TopOp) (a b : Nat) (g : Slot) : State := runs (topJob op a b g) [flight 0]
def topHyps (s : State) (op : TopOp) (as : TopSite → List Access) (f : TopSite → Bool) : Bool :=
  (s.topTodo 0 0 op).any (fun q => clears s q.x Ev.none (as q) && f q)
/-- The plane of slot 0 is SEALED. -/
def sealed (s : State) : State := { s with mem := Cells.write s.mem 0x14000000 (leBytes 8 (mkFld 63 60 2).toNat) }
/-- Slot 0 as a factor set. -/
def factorSlot : Slot := { slot with side := 2 }

theorem wit_TopiaryEntriesRun :
    (let s := topState .fold noIdx noIdx slot
     s.clusters.length = 128 ∧ (s.cluster 0).top.queue = [] ∧ topHyps s .fold (fun q => q.s.foldAccesses s.mem) (fun q => q.ten q.t.tenA == none && q.s.planeState s.mem != 2) = true) ∧
    (let s := sealed (topState .fold noIdx noIdx slot)
     Cells.wf s.mem = true ∧ topHyps s .fold (fun q => q.s.foldAccesses s.mem) (fun q => q.s.planeState s.mem == 2) = true) ∧
    (let s := topState .export_ 0 noIdx slot
     (s.cluster 0).top.queue = [] ∧ topHyps s .export_ (fun q => q.s.exportAccesses s.mem ++ (q.ten q.t.tenA).toList.flatMap (fun d => d.accesses true)) (fun q => (q.ten q.t.tenA).isSome) = true) ∧
    (let s := topState .refresh noIdx noIdx slot
     Cells.wf s.mem = true ∧ (s.cluster 0).top.queue = [] ∧
      topHyps s .refresh (fun q => q.s.snapAccesses s.mem) (fun q => s.stepOf q.x.key % max 1 q.s.refreshEvery == q.s.refreshPhase) = true) ∧
    (let s := topState .refresh noIdx noIdx { slot with refreshPhase := 1 }
     (s.topTodo 0 0 .refresh).any (fun q => s.stepOf q.x.key % max 1 q.s.refreshEvery != q.s.refreshPhase) = true) := by decide +kernel
theorem wit_TopiaryEntriesRun_factors :
    (let s := topState .factor 0 noIdx factorSlot
     s.clusters.length = 128 ∧ (s.cluster 0).top.queue = [] ∧ topHyps s .factor (fun q => q.s.factorAccesses s.mem (List.range q.s.nblk) ++ (q.ten q.t.tenA).toList.flatMap (fun a => a.accesses false))
      (fun q => q.x.solOp == none && (q.ten q.t.tenA).isSome && q.ten q.t.tenB == none) = true) ∧
    (let s := topState .solve 0 1 factorSlot
     (s.cluster 0).top.queue = [] ∧ topHyps s .solve (fun q => q.s.solveAccesses s.mem ++ tensorAccesses (q.ten q.t.tenA).toList (q.ten q.t.tenB).toList)
      (fun q => q.x.solOp == none && (q.ten q.t.tenA).isSome && (q.ten q.t.tenB).isSome) = true) := by decide +kernel

/-- A refresh of slot 0 runs at the head of the queue, of a slot of `n` blocks. -/
def aRefresh (on : Bool) : Refresh := ⟨0, 0, [0, 0], [0, 0], [false, false], 0, on⟩
def refreshing (n : Nat) (on : Bool) : State :=
  (runs { job [entry .halt] with slots := [{ slot with dim := 128 * n }] } []).updCluster 0 (fun c => { c with top := { c.top with queue := [aRefresh on] } })

theorem wit_RefreshBlocksInOrder :
    (let s := refreshing 1 true
     let g : Slot := { slot with dim := 128 }
     s.clusters.length = 128 ∧ (s.cluster 0).drl.holder = some key ∧ (s.cluster 0).top.queue = [aRefresh true] ∧
      (s.jobOf key).bind (fun j => j.slots[0]?) = some g ∧ s.topFree 0 = true ∧ (let as := g.refreshAccesses 0 0 ((aRefresh true).next s.mem g).root.isNone
        firstFault s.pages s.poison [] (some 0) as = none ∧ writesWait s.pages as = false ∧ s.reaches as = true) ∧ Cells.wf s.mem = true ∧ g.nblk ≤ 0 + 1) ∧
    (let s := refreshing 2 true
     let g : Slot := { slot with dim := 256 }
     (s.jobOf key).bind (fun j => j.slots[0]?) = some g ∧ s.topFree 0 = true ∧ (let as := g.refreshAccesses 0 0 ((aRefresh true).next s.mem g).root.isNone
        firstFault s.pages s.poison [] (some 0) as = none ∧ writesWait s.pages as = false ∧ s.reaches as = true) ∧ Cells.wf s.mem = true ∧ 0 + 1 < g.nblk) ∧
    (let s := refreshing 1 false
     (s.cluster 0).top.queue = [aRefresh false] ∧ (aRefresh false).started = false) ∧
    (let s := (topState .fold noIdx noIdx slot).updCluster 0 (fun c => { c with top := { c.top with queue := [aRefresh true] } })
     (s.cluster 0).drl.holder = some key ∧ s.topFree 0 = false) := by decide +kernel

/-! ## Witnesses: groups, updates, Coppice, deltas -/

/-- A plan of one module, and one of two modules in one slice group (R306). -/
def onePlan : ShardPlan := ⟨1, 1, 1, 0, false, 1, [0x40], [⟨0, 2, false, 2, 1, 0⟩]⟩
def twoPlan : ShardPlan := ⟨1, 2, 1, 0, false, 1, [0x40, 0x41], [⟨0, 1, false, 2, 1, 0⟩]⟩
/-- A COLLECTIVE SUM of the tensors of `vecJob`, over the slice group. -/
def collJob (p : Option ShardPlan) : Job :=
  { vecJob .collective with
    shard := p, reds := [⟨1, 0, false, false, 2, 0, noIdx, noIdx⟩], cassettes := [⟨0, 0, [{ vecEntry .collective with mask := 2 }], []⟩] }
def collState (p : Option ShardPlan) : State := runs (collJob p) [flight 0]
/-- The collective of one member as the entry of cluster 0 makes it. -/
def collOfEntry (p : Option ShardPlan) : Option Coll :=
  let s := collState p
  (s.todo 0 0 .collective).bind (fun x => match x.job.reds[x.e.aux]?, x.opa, x.opd with
    | some r, some a, some d => some ((s.collOf x r a d).start (s.carryOf x r) []).1
    | _, _, _ => none)
def collHyps (p : Option ShardPlan) : Bool :=
  let s := collState p
  (s.todo 0 0 .collective).any (fun x => x.job.reds[x.e.aux]?.isSome && x.opa.isSome && x.opd.isSome
    && clears s x Ev.none (tensorAccesses (x.opa.toList ++ match x.ten noIdx with | some t => [t] | none => []) x.opd.toList)
    && (s.cluster 0).drl.early.isEmpty)

theorem wit_CollectivesStart : (collState none).clusters.length = 128 ∧ collHyps none = true ∧ collHyps (some twoPlan) = true ∧
    ((collState none).todo 0 0 .collective).any (fun x => x.job.members (collState none).me x.e == [(collState none).me]) = true ∧
    ((collOfEntry (some twoPlan)).any (fun c => c.complete == false)) = true := by decide +kernel

/-- The collective is in progress on cluster 0, with everything that its start makes. -/
def inColl (c : Coll) : State := runs (collJob (some twoPlan)) [{ flight 0 with work := .coll c }]
def inProgress : State := match collOfEntry (some twoPlan) with | some c => inColl c | none => s0
/-- It waits for the result of chunk 1 alone. -/
def lastChunk : State := match collOfEntry (some twoPlan) with | some c => inColl { c with results := [(0, List.replicate 8 0)] } | none => s0
def takesAt (s : State) (b : Body) : Option Bool := (s.collAt 0 0 0).map (fun q => (q.2.take b).1.complete)

theorem wit_CollectiveMessagesAreTaken : rxSig.port = none ∧ inProgress.hears rxSig = true ∧ inProgress.barred rxSig.ctx = false ∧
    inProgress.clusters.length = 128 ∧ inProgress.groupHome rxSig .collective 0 = some (key, 0) ∧ (inProgress.cluster 0).drl.holder = some key ∧
    takesAt inProgress (.result 0 0 1 1 ⟨0, List.replicate 8 0⟩) = some false ∧ takesAt inProgress (.part 0 0 0 1 0 ⟨0, List.replicate 8 0⟩) = some false ∧
    takesAt inProgress (.carry 0 0 0 0 false [] true) = some false ∧ takesAt lastChunk (.result 0 0 1 1 ⟨0, List.replicate 8 0⟩) = some true ∧
    (lastChunk.collAt 0 0 0).any (fun q => writesWait lastChunk.pages ((q.1.opd.map (fun d => d.accesses true)).getD []) == false) = true ∧
    (let s := runs (collJob (some twoPlan)) []
     s.collAt 0 0 0 = none ∧ (0 + 65536 - (s.cluster 0).drl.occ 0 % 65536) % 65536 < 32768 ∧
      s.groupHome rxSig .collective 0 = some (key, 0) ∧ (32767 + 65536 - (s.cluster 0).drl.occ 0 % 65536) % 65536 < 32768) := by decide +kernel

/-- A DISPATCH of one token to the two experts of a group of one. -/
def exchJob : Job :=
  let t : Tensor := { tensor 0x10000000 1 with fmt := .i32, cols := 4, lcols := 4, fullCols := 4 }
  { job [] with
    shard := some onePlan, exchs := [⟨1, 2, true, 2, 3, 4, 1, 1, 0⟩]
    tensors := [tD, { tD with base := 0x10001000 }, t, { t with base := 0x10003000 }, { t with base := 0x10004000 }]
    cassettes := [⟨0, 0, [{ vecEntry .exchange with mask := 0 }], []⟩] }
def exchState : State := runs exchJob [flight 0]
def exchOfEntry : Option Exch :=
  (exchState.todo 0 0 .exchange).bind (fun x => match x.ten 3, x.opd with
    | some pl, some o => some (exchState.exchOf x ⟨1, 2, true, 2, 3, 4, 1, 1, 0⟩ onePlan pl o)
    | _, _ => none)
def inExch : State := match exchOfEntry with | some e => runs exchJob [{ flight 0 with work := .exch e }] | none => s0

theorem wit_ExchangesGoOn : exchState.clusters.length = 128 ∧ exchJob.exchs[0]? = some ⟨1, 2, true, 2, 3, 4, 1, 1, 0⟩ ∧ exchJob.shard = some onePlan ∧
    (exchState.todo 0 0 .exchange).any (fun x => x.opa.isSome && x.opd.isSome && (x.ten 3).isSome && x.e.aux == 0
      && clears exchState x Ev.none (tensorAccesses (x.opa.toList ++ (x.ten 2).toList) (x.opd.toList ++ (x.ten 3).toList ++ (x.ten 4).toList))) = true ∧
    inExch.hears rxSig = true ∧ inExch.barred rxSig.ctx = false ∧ inExch.groupHome rxSig .exchange 0 = some (key, 0) ∧
    (inExch.cluster 0).drl.holder = some key ∧ (inExch.exchAt 0 0 0).any (fun q => q.2.group.findIdx? (· = rxSig.src) == some 0) = true := by
  decide +kernel

/-- A layer of MODE 4 with its gradient, its master pair and its hyper-parameters (R266). -/
def optLayer : OptLayer := ⟨4, false, false, noIdx, noIdx, 0, 0, 1, 2, noIdx, noIdx, noIdx, noIdx, noIdx, 0x10005000⟩
def optJob (op : Opcode) : Job :=
  let m : Tensor := { tensor 0x10000000 1 with fmt := .mw40, fullCols := 8 }
  { job [] with
    param := some { paramPlan with npairs := 1 }, opts := [optLayer]
    tensors := [m, { m with base := 0x10001000, haz := 2 }, { tensor 0x10002000 3 with fmt := .f32 }]
    cassettes := [⟨0, 0, [{ entry op with mask := 0, aux := 0 }], []⟩] }
def optState (op : Opcode) : State := let s := runs (optJob op) [flight 0]; { s with hub := { s.hub with recs := [((1, 1), stepRec)] } }
/-- A layer of MODE 0, whose products run on tiles. -/
def optMode0 : State :=
  let s := runs { optJob .optimise with
    opts := [{ optLayer with mode := 0, scr := 3 }], tensors := (optJob .optimise).tensors ++ [tensor 0x10006000 4] } [flight 0]
  { s with hub := { s.hub with recs := [((1, 1), stepRec)] } }

/-- A layer whose products with H16 copies run on tiles, of a slot of one block of 2. -/
def optH16 : State :=
  let s := runs { optJob .optimise with
    opts := [{ optLayer with mode := 2, lslot := 0, scr := 3 }], slots := [{ slot with block := 2, dim := 2, ldim := 2 }]
    tensors := (optJob .optimise).tensors ++ [tensor 0x10006000 4] } [flight 0]
  { s with hub := { s.hub with recs := [((1, 1), stepRec)] } }
/-- The output tiles of the update, and whether they find Pannier slots. -/
def updates (s : State) : Option (Nat × Bool × Bool) :=
  (s.todo 0 0 .optimise).bind (fun x => (s.optSite x).bind (fun q =>
    let ts := match q.pre s.mv (x.f.work.cells []) with | some r => r.2.2.flatMap (fun m => m.ts) | none => []
    if clears s x Ev.none (q.accesses s.mem) then
      some (ts.length, (x.passPannier false ts (s.cluster 0).pan).isSome, ts.all (fun t => t.verdict == .pass))
    else none))

theorem wit_UpdatesAndDigestsRun_tiles : optH16.clusters.length = 128 ∧ updates optH16 = some (1, true, true) ∧
    updates (panFull optH16) = some (1, false, true) := by decide +kernel
theorem wit_UpdatesAndDigestsRun : (optState .optimise).clusters.length = 128 ∧
    updates (optState .optimise) = some (0, true, true) ∧ updates optMode0 = some (0, true, true) ∧
    ((optState .digest).todo 0 0 .digest).any (fun x => clears (optState .digest) x Ev.none (tensorAccesses x.uncommitted []) &&
      x.uncommitted.length == 1) = true := by decide +kernel

/-- The working copy of the master tensor, which the COPY of entry 0 has made (R262). -/
def wcJob : Job :=
  { optJob .copy with
    tensors := (optJob .copy).tensors ++ [{ tensor 0x10006000 4 with fmt := .h16, stride := 64 }]
    cassettes := [⟨0, 0, [{ entry .copy with opa := 0, opd := 3 }], []⟩] }
def wcState : State :=
  let s := (runs wcJob []).updDrl 0 (fun d => { d with copied := [0] })
  { s with hub := { s.hub with optCfg := 1 } }
theorem wit_WorkingCopiesAreChecked : wcState.clusters.length = 128 ∧ fld wcState.hub.optCfg 2 0 ≠ 0 ∧ wcState.fetchIdle 0 = true ∧
    (wcState.workingCopy 0 0).any (fun q => decide (1 < q.2.2.lrows ∧ 7 < q.2.2.lcols ∧
      (none : Option Nat).getD (q.2.2.codeAt wcState.mem 1 7) = workingCode wcState.mv q.2.1 q.2.2 1 7 ∧
      (some 1).getD (q.2.2.codeAt wcState.mem 1 7) ≠ workingCode wcState.mv q.2.1 q.2.2 1 7)) = true := by decide +kernel

/-- A stream of the job whose first pair is the master's. -/
def aStream (ps : List (Nat × Nat × Nat)) : DStream := ⟨1, 1, 0, 3, ps, 7⟩
def streaming (ps : List (Nat × Nat × Nat)) : State := let s := runs (optJob .halt) []; { s with hub := { s.hub with streams := [aStream ps] } }
theorem wit_StreamsSendTheirPairs : (streaming []).clusters.length = 128 ∧
    (streaming []).hub.streams.find? (fun y => y.cluster = 0) = some (aStream []) ∧ (streaming []).job 1 1 = some (optJob .halt) ∧
    (optJob .halt).param.isSome = true ∧ (streaming []).hub.srec 1 1 = none ∧
    (let r : StepRec := { stepRec with prevValid := true, copStep := 1 }
     let s : State := { streaming [] with hub := { (streaming []).hub with recs := [((1, 1), r)] } }
     s.hub.streams.find? (fun y => y.cluster = 0) = some (aStream []) ∧ s.hub.srec 1 1 = some r ∧ r.overwrites 3 = true) ∧
    (streaming [(0, 1, 0)]).hub.streams.find? (fun y => y.cluster = 0) = some (aStream [(0, 1, 0)]) ∧
    (match (optJob .halt).tensor? 0, (optJob .halt).tensor? 1 with
     | some c, some u => decide (firstFault (streaming []).pages (streaming []).poison [] (some 0) (tensorAccesses [c, u] []) = none)
     | _, _ => false) = true := by decide +kernel

/-- A delta of one entry: element 0 of q of the solver's problem 0 (R342). -/
def deltaPkt : Pkt := pkt typeDelta 0 0 0 (bytesOfWords [mkFld 62 59 1, 0x3F800000])
def badDelta : Pkt := pkt typeDelta 0 0 0 (bytesOfWords [0xFFFFFFFFFFFFFFFF, 0x3F800000])
/-- The solver job with a packet in the hub. -/
def solIdle (p : Pkt) : State := takes { s0 with jobs := [{ job [] with sol := some solPlan }] } p
def inCycle (p : Pkt) : State := let s := solIdle p; { s with sol := { s.sol with cycleOn := true } }
theorem wit_DeltasAreAppliedWhole :
    (let s := solIdle deltaPkt
     s.alive = true ∧ s.hub.pkt deltaPkt.id = some deltaPkt ∧ deltaPkt.type = typeDelta ∧ s.solverPlan deltaPkt.ctx = some solPlan ∧
      s.solverPlan 0 = some solPlan ∧ deltaPkt.pay.length % 16 = 0 ∧ deltaPkt.pay ≠ [] ∧ deltaPkt.started = false ∧ s.sol.cycleOn = false ∧
      s.sol.pend = [] ∧ (deltaWrites s.mem solPlan deltaPkt.pay).isSome = true) ∧
    (let s := solIdle badDelta
     s.hub.pkt badDelta.id = some badDelta ∧ badDelta.pay.length % 16 = 0 ∧ deltaWrites s.mem solPlan badDelta.pay = none) ∧
    (let s := inCycle deltaPkt
     s.hub.pkt deltaPkt.id = some deltaPkt ∧ s.solverPlan 0 = some solPlan ∧ s.sol.cycleOn = true ∧ s.deltaFull deltaPkt = false ∧
      s.lands (solPlan.pendBase + s.sol.pendBytes) deltaPkt.pay.length = true) ∧
    (let s := inCycle { deltaPkt with pay := List.replicate 1040 0 }
     s.deltaFull { deltaPkt with pay := List.replicate 1040 0 } = true) ∧
    (let s := solIdle deltaPkt
     ({ s with sol := { s.sol with pend := [(deltaPkt.id, 16)] } } : State).sol.pend = [(deltaPkt.id, 16)]) := by decide +kernel

/-- A RESTORE of step 2 of the task, whose job's Coppice holds it. -/
def restorePkt : Pkt := pkt typeRestore 1 2 0 []
def restPlan : ParamPlan := { paramPlan with coppiceEn := true }
def restState (st : TaskSt) (p : Pkt) (rs : List Restore) : State :=
  takes { s0 with
    jobs := [{ job [entry .stepEnd] with param := some restPlan }]
    hub := { s0.hub with tasks := [{ task with st }], recs := [((1, 1), stepRec)], restores := rs } } p
def pktRestore (image : Cells) : Restore := ⟨key, 2, false, [], some 0, image⟩
theorem wit_RestorePacketsAct :
    (let s := restState .idle restorePkt []
     s.alive = true ∧ s.hub.pkt restorePkt.id = some restorePkt ∧ restorePkt.type = typeRestore ∧
      s.job restorePkt.ctx restorePkt.job = some { job [entry .stepEnd] with param := some restPlan } ∧
      s.pktTask restorePkt = some { task with st := .idle } ∧ s.hub.srec 1 1 = some stepRec ∧
      s.hub.restores.find? (fun x => x.pkt = some restorePkt.id) = none ∧
      (stepRec.restorable restorePkt.arg0.toNat).isSome = true ∧ ({ stepRec with copStep := 5 } : StepRec).restorable restorePkt.arg0.toNat = none) ∧
    (let s := restState .running restorePkt []
     s.pktTask restorePkt = some task ∧ task.st ≠ .idle) ∧
    (let s := restState .idle restorePkt [pktRestore []]
     s.hub.restores.find? (fun x => x.pkt = some restorePkt.id) = some (pktRestore []) ∧ s.restoreReady (pktRestore []) = true ∧
      (s.finishRestore { job [entry .stepEnd] with param := some restPlan } (pktRestore [])).2 = true) ∧
    (let s := restState .idle restorePkt [{ badRestore with pkt := some 0 }]
     s.restoreReady { badRestore with pkt := some 0 } = true ∧
      (s.finishRestore { job [entry .stepEnd] with param := some restPlan } { badRestore with pkt := some 0 }).2 = false) := by decide +kernel

/-! ## Witnesses: the fabric, ports, routes, readiness, the life cycle -/

/-- Port 47 is UP to port 3 of module 0x041. -/
def upPort : Port := { Port.reset with st := .up, farModule := 0x41, farPort := 3, agreed := true, tx := ⟨true, 0xF⟩, credits := vcBuffers }
def aLink : Link := ⟨0x40, 47, 0x41, 3⟩
def linked (s : State) : State := { s with fab := { s.fab with ports := s.fab.ports.set 47 upPort, graph := [aLink], routes := [aLink] } }
/-- The optical map agrees on that link (R424). -/
def mapped (s : State) : State :=
  { s with start := { s.start with flash := { s.start.flash with conf :=
      { s.start.flash.conf with map := [⟨0x40, 47, 0x41, 3⟩, ⟨0x41, 3, 0x40, 47⟩] } } } }
/-- Port 47 with a state and a stage of its training. -/
def portAt (st : PortState) (tr : Train) : State :=
  mapped { s0 with fab := { s0.fab with ports := s0.fab.ports.set 47 { Port.reset with st, train := tr, farModule := 0x41, farPort := 3 } } }

/-- The stack of the host area's second page is out of service. -/
def outStack : State := { s0 with start := { s0.start with outEdges := [.hbm (stackOf 0x10000001)] } }
theorem wit_FabricRequestsAreServed : s0.hears rx = true ∧ s0.barred rx.ctx = false ∧ s0.deadRow rx.ctx 0x10000001 3 = false ∧
    ({ s0 with hub := { s0.hub with barred := [0] } } : State).barred rx.ctx = true ∧
    ({ s0 with hub := { s0.hub with dead := [(⟨0, 1, 0⟩, 0x10000000, 64)] } } : State).deadRow rx.ctx 0x10000001 3 = true ∧
    s0.mayTouch rx.ctx 0x10000001 3 = true ∧ (pagesOf 0x10000001 3).any inSys = false ∧ s0.inPairs rx.ctx 0x10000001 3 = false ∧
    s0.poison.partHit 0x10000001 3 = none ∧ s0.lands 0x10000001 3 = true ∧
    Cells.wf s0.mem = true ∧ (∀ i < 3, s0.softMask ((0x10000001 + i) / 8 * 8) = none) ∧ (s0.softMask 0).isSome = true ∧
    s0.mayTouch rx.ctx (2 ^ 41) 3 = false ∧ s0.reaches [⟨0x10000001, 3, false⟩] = true ∧ s0.poison.hit 0x10000001 3 = none := by decide +kernel
theorem wit_FabricRequestsAreServed_waits : outStack.hears rx = true ∧ outStack.barred rx.ctx = false ∧ outStack.deadRow rx.ctx 0x10000001 3 = false ∧
    outStack.mayTouch rx.ctx 0x10000001 3 = true ∧ outStack.poison.partHit 0x10000001 3 = none ∧ outStack.lands 0x10000001 3 = false ∧
    outStack.reaches [⟨0x10000001, 3, false⟩] = false ∧
    (let s : State := { s0 with poison := [0x10000000] }
     s.hears rx = true ∧ s.mayTouch rx.ctx 0x10000001 3 = true ∧ (s.poison.partHit 0x10000001 3).isSome = true ∧
      s.reaches [⟨0x10000001, 3, false⟩] = true ∧ (s.poison.hit 0x10000001 3).isSome = true) := by decide +kernel
theorem wit_ForwardedPacketsRun : s0.hears rx = true ∧ (∀ q ∈ s0.hub.pkts, q.id ≠ s0.hub.nextPid) ∧ s0.stateBars (pkt typeNop 0 0 0 []) = none ∧
    (pkt typeNop 0 0 0 []).type = typeNop ∧
    (let s : State := { s0 with start := { s0.start with stage := .test } }
     s.hears rx = true ∧ s.stateBars (pkt typeRun 1 0 0 []) = some pktState ∧ s.stateBars (pkt typeNop 0 0 0 []) = none) ∧
    s0.hub.held.any (fun h => h.isFrom rx.src 9) = false ∧
    (let s : State := { s0 with hub := { s0.hub with held := [⟨key, 3, { holdPkt with origin := .fabric 0x40 9 0 }, false⟩] } }
     s.hears rx = true ∧ s.hub.held.any (fun h => h.isFrom rx.src 9) = true) := by decide +kernel

/-- Cluster 0's entry waits for the answer to a WRITE with tag 127. -/
def aReq : Req := ⟨127, some 0, ⟨0x40, 0x40, 1, 127, 0, .write 0x10000000 [1]⟩, false, []⟩
def waitsAck : State := (runs (job [entry .send]) [{ flight 0 with work := .requests }]).updDrl 0 (fun d => { d with reqs := [aReq] })
def rxAck : Rx := { rx with ctx := 1, tag := 127 }
/-- The hub waits for the bytes of a restore. -/
def hubReq : HubReq := ⟨some 127, .restore 1 1 0, ⟨0x40, 0x40, 1, 127, 0, .read 0x10000000 64⟩⟩
def readsCop : State := let s := restState .idle restorePkt [pktRestore []]; { s with hub := { s.hub with reqs := [hubReq] } }
def aFwd : Fwd := ⟨9, 0, 0, 0x40, typeNop, 0, 0, 0, false, false, 0, 0⟩

theorem wit_AnswersReachTheirRequest : waitsAck.hears rxAck = true ∧ waitsAck.clusters.length = 128 ∧
    waitsAck.hub.reqOf rxAck.tag rxAck.src = none ∧ (waitsAck.cluster rxAck.scl).drl.reqOf rxAck.tag rxAck.src = some aReq ∧
    nackRange ≠ nackBusy ∧ (aReq.idx.bind (waitsAck.site rxAck.scl)).any (fun x => x.key == key) = true ∧ waitsAck.hub.task key = some task ∧
    task.st ≠ .idle ∧ task.restoring = false ∧
    (readsCop.hears rxAck = true ∧ readsCop.hub.reqOf rxAck.tag rxAck.src = some hubReq ∧ readsCop.hub.restores = [pktRestore []] ∧
      hubReq.use = .restore 1 1 0 ∧ (pktRestore []).key.ctx = 1 ∧ (pktRestore []).key.job = 1 ∧
      ∀ r ∈ readsCop.hub.reqs, r.tag.isSome = true) ∧
    (let s : State := { s0 with hub := { s0.hub with fwds := [aFwd] } }
     let e : PktEnd := ⟨9, true, true, pktOk, 0⟩
     s.hears rx = true ∧ s.hub.fwds.find? (fun f => f.pid = e.pid ∧ f.dst = rx.src) = some aFwd ∧ e.releases = true) := by decide +kernel

theorem wit_PortsTrainAndFall :
    (let s := portAt .training .wordLock
     s.alive = true ∧ 47 < 48 ∧ s.fab.ports.length = 48 ∧ s.hub.restores = [] ∧ (s.fab.port 47).st ≠ .up ∧ (s.fab.port 47).st = .training ∧
      s.mayTrain = true ∧ s.start.edgeUp (.serdes 47) = true ∧ s.agrees 47 0x41 3 s.start.flash.conf.mapId = true ∧ s.agrees 47 0x42 3 0 = false ∧
      (s.fab.port 47).st ≠ .down ∧ 48 ≤ 48) ∧
    (let s := portAt .training .screen
     (s.fab.port 47).train = .screen ∧ s.start.edgeUp (.serdes 47) = true ∧
      (badLanes (List.replicate 8 true) 0 false).length ≤ 1 ∧ (badLanes (List.replicate 8 true) 9 true).length ≤ 1 ∧
      1 < (badLanes (List.replicate 7 true) 0 false).length ∧
      (badLanes (List.replicate 9 true ++ [false, false]) 0 false).length ≤ 1 ∧ 1 < (badLanes (List.replicate 9 true ++ [false, false]) 9 true).length) ∧
    (linked s0).alive = true ∧ ((linked s0).fab.port 47).st = .up ∧ ((linked s0).fab.port 47).linked = true ∧
    ((portAt .training .screen).fab.port 47).linked = false := by decide +kernel
theorem wit_LinksRetryAndReturnCredits : let s := linked s0
    s.alive = true ∧ 47 < 48 ∧ s.fab.ports.length = 48 ∧ s.hub.restores = [] ∧ (s.fab.port 47).st = .up ∧ (s.fab.port 47).linked = true ∧ (s.fab.port 47).failRow = 0 ∧
    1 < fld s.fab.cfg 23 16 ∧ s.fab.waiting = [] ∧ s.fab.due = [] ∧ (⟨47, 1, 3⟩ : BadMsg).port = 47 ∧ (s.fab.port 47).unacked < replayFlits ∧
    (s.fab.port 47).flitsFrom 0 ≤ (s.fab.port 47).unacked ∧
    (let u : State := { s with fab := { s.fab with ports := s.fab.ports.set 47 { upPort with failRow := fld s.fab.cfg 23 16 - 1 } } }
     (u.fab.port 47).failRow ≠ 0 ∧ (u.fab.port 47).failSeq = (u.fab.port 47).rxSeq ∧ fld u.fab.cfg 23 16 ≤ (u.fab.port 47).failRow + 1) := by
  decide +kernel

/-- A route change has begun on a module that has joined a domain. -/
def changing (s : State) : State := { linked s with fab := { (linked s).fab with changing := true } }
/-- The same at module 0x041, the link's other end. -/
def changing41 : State := { changing s0 with hub := { s0.hub with module := 0x41 } }
theorem wit_RoutesChangeTogether :
    (let s := linked s0
     s.hears rx = true ∧ s.hub.restores = [] ∧ (s.fab.graph.delModule 0x41).id ≠ s.fab.graph.id ∧ (s.fab.graph.delModule 0x42).id = s.fab.graph.id ∧
      ((repLinks 0x42 [⟨0, 2, 0x40, 0, true, true⟩]).foldl Graph.add (s.fab.graph.delModule 0x42)).id ≠ s.fab.graph.id ∧
      ((s.fab.graph.del 0x41 3).add ⟨0x41, 3, 0x40, 47⟩).id = s.fab.graph.id ∧ (s.fab.graph.del 0x41 3).id ≠ s.fab.graph.id ∧ s.isEntry = true ∧
      s.jobs = [] ∧ s.hub.remote = [] ∧ (runs (job []) []).jobs ≠ []) ∧
    (let s := changing41
     s.fab.changing = true ∧ s.fab.outside = false ∧ s.fab.graph.root s.me ≠ s.me) ∧
    (let s := changing s0
     s.hears rx = true ∧ s.fab.graph.root s.me = s.me ∧ (∃ m ∈ s.fab.graph.part s.me, m ≠ 0x41 ∧ m ∉ s.fab.drained)) ∧
    (let s : State := { changing s0 with fab := { (changing s0).fab with drained := [0x40] } }
     s.hears rx = true ∧ s.fab.graph.root s.me = s.me ∧ ∀ m ∈ s.fab.graph.part s.me, m = 0x41 ∨ m ∈ s.fab.drained) := by decide +kernel

theorem wit_LanesAndEnginesFailOver :
    (let s := linked s0
     s.alive = true ∧ 47 < 48 ∧ s.fab.ports.length = 48 ∧ s.fab.engineFailed.length = 24 ∧ s.fab.engineSpare.length = 2 ∧ s.hub.restores = [] ∧
      (s.fab.port 47).st = .up ∧ (∀ i, i < 9 → [].getD i 0 ≤ fld s.fab.cfg 31 24 * 10 ^ 11 / 2 ^ fld s.fab.cfg 39 32) ∧
      7 ∈ (s.fab.port 47).lanes ∧ fld s.fab.cfg 31 24 * 10 ^ 11 / 2 ^ fld s.fab.cfg 39 32 < (List.replicate 7 0 ++ [10 ^ 15]).getD 7 0 ∧
      (∀ i, i < 9 → i ≠ 7 → (List.replicate 7 0 ++ [10 ^ 15]).getD i 0 ≤ fld s.fab.cfg 31 24 * 10 ^ 11 / 2 ^ fld s.fab.cfg 39 32) ∧
      (s.fab.port 47).spareUsed = false ∧ (s.fab.port 47).outLane = 0xF ∧ (s.fab.port 47).swap = none ∧ (s.fab.port 47).unacked = 0 ∧ 1 < 2 ∧ 11 < 12 ∧
      s.fab.engineFailed.getD (12 * 1 + 11) false = false ∧ s.fab.engineFailed.getD (12 * 1 + 10) false = false ∧ 10 < 11 ∧ s.spareEngine 1 = true) ∧
    (let s : State := { linked s0 with fab := { (linked s0).fab with engineSpare := [none, some 10] } }
     s.fab.engineSpare.length = 2 ∧ (s.fab.engineSpare.getD 1 none).isSome = true ∧ s.spareEngine 1 = false ∧
      s.fab.engineFailed.getD (12 * 1 + 9) false = false) ∧
    (let s : State := { s0 with fab := { s0.fab with ports := s0.fab.ports.set 47 { upPort with txSeq := 3 } } }
     (s.fab.port 47).st = .up ∧ 7 ∈ (s.fab.port 47).lanes ∧ (s.fab.port 47).spareUsed = false ∧ (s.fab.port 47).outLane = 0xF ∧
      (s.fab.port 47).swap = none ∧ (s.fab.port 47).unacked ≠ 0 ∧ (s.fab.port 47).flitsFrom 3 = 0) := by decide +kernel

/-- Rank `r` of a broadcast to four modules; this module is 0x040. -/
def bcastAt (r : Nat) (held : List Nat) (waiting : List (Nat × List Nat)) : State :=
  { s0 with fab := { s0.fab with bcast := some ⟨7, false, [0x41, 0x42, 0x43, 0x44].insertIdx r 0x40, held, waiting, []⟩ } }
theorem wit_FirmwareTravelsTheTree : [0, 1, 4].all (fun r =>
      let s := bcastAt r [] []
      s.hears rx && s.fab.bcast.any (fun b => b.targets.findIdx (· = 0x40) == r && !(b.held.contains 3) &&
        !(({ s with start := { s.start with flash := s.start.flash.stagePut (4096 * 3) [1] } } : State).staged { b with held := b.held ++ [3] }))) = true ∧
    (bcastAt 1 [3] []).fab.bcast.any (fun b => b.held.contains 3) = true ∧
    [0, 1].all (fun r => (bcastAt r [] [(3, [rx.src])]).fab.bcast.any (fun b => b.waiting == [(3, [rx.src])] &&
      b.targets.findIdx (· = 0x40) == r)) = true := by decide +kernel
/-- Lane 26 of the window has one corrected bit more than the limit; the window runs. -/
def winOpen : State := { s0 with start := { s0.start with winOn := true } }
theorem wit_ReadinessFollowsTheChecks : s0.alive = true ∧ s0.isEntry = true ∧ winOpen.alive = true ∧ winOpen.isEntry = true ∧
    winOpen.start.winOn = true ∧ (∀ w ∈ [(26, winOpen.readyLimit)], w.2 ≤ winOpen.readyLimit) ∧
    (let s : State := { s0 with hub := { s0.hub with module := 0x41 } }
     s.alive = true ∧ s.isEntry = false) ∧ s0.start.winOn = false := by decide +kernel

theorem wit_IdentityAndBudgetPersist : (match exec (.start found) halted with
    | .next t => decide (halted.hub.module ≠ t.hub.module)
    | _ => false) = true := by decide +kernel
/-- The routes of a SWITCH leave a leaving module a neighbour, or none; a module is joining. -/
theorem wit_RoutesChangeTogether_switch :
    (let s : State := { changing s0 with fab := { (changing s0).fab with state := .leaving } }
     s.fab.state = .leaving ∧ s.fab.changing = true ∧ s.fab.graph.nbrs s.me ≠ []) ∧
    (let s : State := { changing s0 with fab := { (changing s0).fab with state := .leaving, graph := [] } }
     s.fab.state = .leaving ∧ s.fab.changing = true ∧ s.fab.graph.nbrs s.me = []) ∧
    (let s : State := { changing s0 with fab := { (changing s0).fab with state := .joining } }
     s.fab.state = .joining ∧ s.fab.changing = true) := by decide +kernel
/-- A record as it is written fits its CRC. -/
theorem record_fits (i : JItem) : (JRec.of i).ok = true := by simp [JRec.ok, JRec.of]
theorem wit_IdentityAndBudgetPersist_recorded : s0.Recorded := by
  have h : s0.hist.journal = [JRec.of (.start 1 ((List.range 136).map (fun p => (PCl.ship p).trace)) (List.replicate 24 0) .deployed 0)] := rfl
  unfold State.Recorded State.replayed replayJournal
  rw [h]
  simp only [List.filter_cons, record_fits, if_true, List.filter_nil, List.map_cons, List.map_nil, List.foldl_cons, List.foldl_nil, Replay.step]
  exact ⟨rfl, rfl⟩
theorem wit_IdentityAndBudgetPersist_torn : ∀ x, Instr.admission = .pwrFail x → x.torn = false := by simp
theorem wit_LifeCycleMovesAsTheTableSays : (match exec .enterService s0 with
    | .next t => decide (s0.start.lc = .deployed ∧ t.start.lc = .service)
    | _ => false) = true := by decide +kernel
/-- The admission that follows LEAVE_SERVICE; the history tells that the module is in SERVICE. -/
def leavingService : State :=
  { s0 with start := { s0.start with stage := .admission, lc := .service, leaving := true }, hist := s0.hist.append (.life .service 0) }
theorem wit_LifeCycleMovesAsTheTableSays_left :
    (match exec .admission leavingService with
     | .next t => decide (t.start.lc = .deployed)
     | _ => false) = true := by decide +kernel
theorem wit_LifeCycleMovesAsTheTableSays_recorded : leavingService.Recorded := by
  have h : leavingService.hist.journal = [JRec.of (.start 1 ((List.range 136).map (fun p => (PCl.ship p).trace)) (List.replicate 24 0) .deployed 0),
      JRec.of (.life .service 0)] := by
    have e (i : JItem) (hn : ¬ FlashPart.hist.size < sumNat (journalDefault.map JRec.size) + (JRec.of i).size) :
        appendJournal journalDefault i = journalDefault ++ [JRec.of i] := by unfold appendJournal; exact congrArg (· ++ [JRec.of i]) (if_neg hn)
    have k : leavingService.hist.journal = appendJournal journalDefault (.life .service 0) := by
      unfold leavingService Hist.append; rw [show s0.hist.journal = journalDefault from rfl]
    rw [k, e _ (by decide +kernel)]
    simp only [journalDefault, List.cons_append, List.nil_append]
  unfold State.Recorded State.replayed replayJournal
  rw [h]
  simp only [List.filter_cons, record_fits, if_true, List.filter_nil, List.map_cons, List.map_nil, List.foldl_cons, List.foldl_nil, Replay.step]
  exact ⟨rfl, rfl⟩

/-! ## Tests: the worked examples of the spec, and values worked out by hand from its rules -/

/-- The block of the example of R50: 10.0, 7.0, 3.1, −0.7 and 0.2 in a tensor of T = 2, and of T = 0. -/
def s4Cells : List Cell1 :=
  [0x41200000, 0x40E00000, 0x40466666, 0xBF333333, 0x3E4CCCCD].map (fun v => some (.rne, Fmt.decode .f32 v))
theorem test_s4_block : (let w := writeS4Block 2 s4Cells; (w.1, w.2.1, w.2.2.flush, w.2.2.ovf)) = (0x80, [6, 6, 3, 9, 0], 1, 0) := by decide +kernel
theorem test_s4_block_capped : (let w := writeS4Block 0 s4Cells; (w.1, w.2.1.take 2, w.2.2.ovf)) = (0x7F, [7, 7], 2) := by decide +kernel
/-- The example of R54: an MW40 master is rounded once. -/
theorem test_mw40_rounds_once : (convElem .h16 .rne (Fmt.decode .mw40 0x3F80800002)).code = 0x3F81 := by decide +kernel
/-- The example of R68: 460 and 470 in S8E. -/
theorem test_s8e_top_of_range : convElem .s8e .rne (.fin false 460 0) = { code := 0x7E } ∧
    convElem .s8e .rne (.fin false 470 0) = { code := 0x7E, ovf := true } ∧ convElem .s8e .rtz (.fin false 470 0) = { code := 0x7E } := by decide +kernel
/-- The example of R58 to R60: 5.0 × 1.5, then 0.75 × 0.5, and the sum written as BX48. -/
theorem test_bx48_sum :
    let a := Acc.cleared.add (0x500000000000 * 0x180000000000) 6
    let b := a.add (0x600000000000 * 0x400000000000) 0
    a.dy.m * 2 = 15 * 2 ^ 88 ∧ a.dy.e = 6 - 94 ∧ bxWrite [(.rne, b.dy)] = .ok (.seg 3 [0x7E0000000000]) := by decide +kernel
theorem test_bx48_flushes_small : bxWrite [(.rne, ⟨5, 0⟩), (.rne, ⟨3, -1⟩), (.rne, ⟨-1, -2⟩), (.rne, ⟨3, -50⟩)] =
    .ok (.seg 3 [0x500000000000, 0x180000000000, -0x40000000000, 0]) := by decide +kernel
/-- The example of R97: a cycle deadline of 60 s. -/
theorem test_window_count : windowCount 4372480 60000000 = 25019531250 ∧ windowOk 4372480 60000000 = true := by decide +kernel
/-- The example of R166: K = 4,096, 128 rows, S8E; tile 3 of mask 0xFF takes tiles 3, 11, 19. -/
theorem test_tile_strokes : tileStrokes 4096 128 (strokesPerRow .s8e) = 8512 ∧ [3, 11, 19].map (otileOwner 0xFF) = [3, 3, 3] := by decide +kernel
/-- The example of R254: warm and cold blocks of 2,048 with n = 2. -/
theorem test_refresh_strokes : (let g : Slot := { slot with block := 2048 }; (g.mmStrokes, g.ewStrokes)) = (8388608, 8192) := by decide +kernel
/-- The example of R369: the 8 pages of a working copy on chiplet 2. -/
theorem test_pages_spread_over_stacks : (List.range 8).map (fun i => stackOf (0x9000000000 + i * 0x200000)) = [8, 6, 7, 8, 6, 7, 8, 6] := by
  decide +kernel
/-- The example of R415: where five members host the nodes of chunk 2, and what they sum. -/
theorem test_sum_tree_hosts : [nodeRank 5 2 0 1, nodeRank 5 2 2 1, nodeRank 5 2 0 2, nodeRank 5 2 4 2, nodeRank 5 2 0 3] = [2, 4, 2, 4, 2] := by
  decide +kernel
theorem test_sum_tree_values :
    let f (x : F32) : CVals := .f32 [x]
    let c := CVals.combine 1
    c (c (c (f 0x3F800000) (f 0x33800000)) (c (f 0x33800000) (f 0x33800000))) (f 0x33800000) = f 0x3F800002 := by decide +kernel
/-- The example of R443: ring 320 has its control block at 0x5000 and its doorbell at 0x0100_0A00. -/
theorem test_ring_windows : windowAt 0x5000 = .block 320 ∧ windowAt 0x1000A00 = .doorbell := by decide +kernel
/-- The check value of R453. -/
theorem test_crc : crc32c [49, 50, 51, 52, 53, 54, 55, 56, 57] = 0xE3069283 := by decide +kernel
/-- The functions of R78, worked out from its text, and the published SHAKE256 of nothing. -/
theorem test_draw : draw 1 2 3 4 5 6 = 0x031252CB9756A376 := by decide +kernel
theorem test_shake : shake256 [] 8 = [0x46, 0xB9, 0xDD, 0x2B, 0x0B, 0xA8, 0x8D, 0x13] := by decide +kernel

/-- What one command leaves of a state. -/
def after {α : Type} (c : Instr) (s : State) (f : State → α) : Option α := match exec c s with | .next t => some (f t) | _ => none

/-- The example of R555: flow falls to 4.5 L/min of the least 6.0. -/
theorem test_flow_derates : after (.capEffUpdate 450 25 30) s0 (fun t => (t.pwr.capEff, t.pwr.derate, t.pwr.alert)) = some (3600, true, true) := by
  decide +kernel
/-- R555: at 50 °C and full flow, CAP_EFF is 0.8 × 4,800 W. -/
theorem test_inlet_derates : after (.capEffUpdate 600 50 60) s0 (fun t => t.pwr.capEff) = some 3840 := by decide +kernel
/-- R443: a doorbell write moves TAIL of its ring. -/
theorem test_doorbell_moves_tail : after (.doorbellWrite 0 3 0xFF) s0 (fun t => (t.hub.ring 0).tailSeen) = some 3 := by decide +kernel
/-- R129, R131: a SIGNAL of the cluster's generation raises its counter; one of the next generation waits. -/
theorem test_signal_counts : after (.signalMessage rxSig 0 63 false 5) (atHead [entry .halt])
    (fun t => ((t.cluster 0).drl.ctrs.getD 63 0, (t.cluster 0).drl.pend)) = some (5, []) := by decide +kernel
theorem test_signal_waits : after (.signalMessage rxSig 0 63 true 5) (atHead [entry .halt])
    (fun t => ((t.cluster 0).drl.ctrs.getD 63 0, (t.cluster 0).drl.pend)) = some (0, [(63, 5)]) := by decide +kernel
/-- R133: the first ITER_END of a loop of two, in iteration 1, goes back to its TARGET and clears the counters of its mask. -/
theorem test_iter_end_loops : after (.iterEnd 0 0) ((runs (job [iterEntry]) [flight 0]).updDrl 0 (fun d => { d with ctrs := d.ctrs.set 63 9 }))
    (fun t => ((t.cluster 0).drl.iter, (t.cluster 0).drl.head, (t.cluster 0).drl.ctrs.getD 63 0)) = some (2, 0, 0) := by decide +kernel
/-- R183: the spare tile takes the place of logical tile 7. -/
theorem test_substitution : after (.subst 0 7) s0 (fun t => ((t.cluster 0).til.spareFree, (t.cluster 0).til.spareLtile)) = some (false, 7) := by
  decide +kernel
/-- R13: a write of HUB_CFG goes to the shadow copy, and HUB_COMMIT puts it into effect. -/
theorem test_shadow_then_commit :
    after (.registerWrite 0x20 8 5) s0 (fun t => (t.hub.cfg == s0.hub.cfg, t.hub.shadow == s0.hub.shadow)) = some (true, false) := by decide +kernel
/-- R548: an input of 43.9 V cuts the rails, and keeps flash. -/
theorem test_power_fail_cuts : after (.pwrFail ⟨43900, false⟩) s0 (fun t => (t.pwr.on, t.start.flash == s0.start.flash)) = some (false, true) := by decide +kernel

end Sys2Proof.Tests
end

section
/-!
Proof, the state's operations: the bytes of a word (R11), what a write of software leaves in memory (R13, R15), and where a message
that the module sends is found (R405, R408).
-/

namespace Sys2Proof.Machine

/-! ## The bytes of a word (R11) -/

theorem leBytes_length (n v : Nat) : (leBytes n v).length = n := by
  induction n generalizing v with
  | zero => rfl
  | succ n ih => simp [leBytes, ih]

/-- Bytes written little-endian give back the number, as far as they hold it. -/
theorem ofLeBytes_leBytes (n v : Nat) : ofLeBytes (leBytes n v) = v % 256 ^ n := by
  induction n generalizing v with
  | zero => simp [leBytes, ofLeBytes, Nat.mod_one]
  | succ n ih =>
    rw [leBytes, ofLeBytes, ih, Nat.pow_succ', Nat.mod_mul, Nat.shiftRight_eq_div_pow]
    simp

/-- Bit `8 i + j` of a little-endian number is bit `j` of its byte `i`. -/
theorem testBit_ofLeBytes (bs : List Byte) (i j : Nat) (hj : j < 8) :
    (ofLeBytes bs).testBit (8 * i + j) = (bs.getD i 0).getLsbD j := by
  induction bs generalizing i with
  | nil => simp [ofLeBytes]
  | cons b bs ih =>
    have hsplit : (ofLeBytes (b :: bs)).testBit (8 * i + j) =
        if 8 * i + j < 8 then b.toNat.testBit (8 * i + j) else (ofLeBytes bs).testBit (8 * i + j - 8) := by
      rw [ofLeBytes, Nat.add_comm]
      exact Nat.testBit_two_pow_mul_add (i := 8) (ofLeBytes bs) b.isLt (8 * i + j)
    rw [hsplit]
    cases i with
    | zero => simp [hj, BitVec.getLsbD]
    | succ i =>
      rw [if_neg (by omega), show 8 * (i + 1) + j - 8 = 8 * i + j by omega, ih]
      simp

theorem Cells.getD_read (m : Cells) (a n i : Nat) (h : i < n) : (Cells.read m a n).getD i 0 = Cells.byte m (a + i) := by
  induction n generalizing a i with
  | zero => omega
  | succ n ih =>
    cases i with
    | zero => simp [Cells.read]
    | succ i => rw [Cells.read, List.getD_cons_succ, ih (a + 1) i (by omega), show a + 1 + i = a + (i + 1) by omega]

/-- Bit `8 i + j` of a word in memory is bit `j` of its byte `i`. -/
theorem Cells.getLsbD_word (m : Cells) (a i j : Nat) (hi : i < 8) (hj : j < 8) :
    (Cells.word m a).getLsbD (8 * i + j) = (Cells.byte m (a + i)).getLsbD j := by
  rw [← Cells.getD_read m a 8 i hi, ← testBit_ofLeBytes _ i j hj, Cells.word, BitVec.getLsbD_ofNat]
  simp [show 8 * i + j < 64 by omega]

/-- A byte is the same in two memories where its word has the same bits there. -/
theorem Cells.byte_eq_of_word (m m' : Cells) (a i : Nat) (hi : i < 8)
    (h : ∀ j < 8, (Cells.word m a).getLsbD (8 * i + j) = (Cells.word m' a).getLsbD (8 * i + j)) :
    Cells.byte m (a + i) = Cells.byte m' (a + i) := by
  refine BitVec.eq_of_getLsbD_eq fun j hj => ?_
  rw [← Cells.getLsbD_word m a i j hi hj, h j hj, Cells.getLsbD_word m' a i j hi hj]

/-- A word reads as it was written. -/
theorem Cells.word_write_self {m : Cells} (hm : Cells.wf m = true) (a : Nat) (w : Word) :
    Cells.word (Cells.write m a (leBytes 8 w.toNat)) a = w := by
  have hread := Cells.read_write_self hm a (leBytes 8 w.toNat)
  rw [leBytes_length] at hread
  rw [Cells.word, hread, ofLeBytes_leBytes]
  have hlt := w.isLt
  exact BitVec.eq_of_toNat_eq (by rw [BitVec.toNat_ofNat]; omega)

/-- A write that does not meet a word leaves it. -/
theorem Cells.word_write_other (m : Cells) (a : Nat) (bs : List Byte) (x : Nat) (h : x + 8 ≤ a ∨ a + bs.length ≤ x) :
    Cells.word (Cells.write m a bs) x = Cells.word m x := by
  rw [Cells.word, Cells.read_write_other m a bs x 8 h, ← Cells.word]

/-- Aligned words written one after another, each with a value that its address gives: those addresses read that value, and every other
aligned word stays. -/
theorem Cells.word_writeAll_aligned (g : Nat → Word) {m : Cells} (hm : Cells.wf m = true) (ws : List (Nat × List Byte))
    (h : ∀ w ∈ ws, w.1 % 8 = 0 ∧ w.2 = leBytes 8 (g w.1).toNat) (x : Nat) (hx : x % 8 = 0) :
    Cells.word (Cells.writeAll m ws) x = if x ∈ ws.map Prod.fst then g x else Cells.word m x := by
  induction ws using List.reverseRecOn with
  | nil => simp [Cells.writeAll]
  | append_singleton ws w ih =>
    obtain ⟨hal, hval⟩ := h w (by simp)
    have hlast : Cells.writeAll m (ws ++ [w]) = Cells.write (Cells.writeAll m ws) w.1 (leBytes 8 (g w.1).toNat) := by
      simp [Cells.writeAll, hval]
    rw [hlast]
    by_cases hw : x = w.1
    · subst hw
      rw [Cells.word_write_self (Cells.wf_writeAll hm ws)]
      simp
    · rw [Cells.word_write_other _ _ _ _ (by rw [leBytes_length]; omega), ih fun v hv => h v (by simp [hv])]
      have hmem : x ∈ (ws ++ [w]).map Prod.fst ↔ x ∈ ws.map Prod.fst := by simp [hw]
      simp only [hmem]

/-! ## A write of software (R13, R15) -/

/-- A word of a memory after a write, with the bits outside a mask as they were before it. -/
def keptWord (old new : Cells) (x : Nat) (k : Word) : Word := (Cells.word old x &&& ~~~ k) ||| (Cells.word new x &&& k)

theorem keptWord_and_not (old new : Cells) (x : Nat) (k : Word) : keptWord old new x k &&& ~~~ k = Cells.word old x &&& ~~~ k := by
  ext i
  simp only [keptWord, BitVec.getElem_and, BitVec.getElem_or, BitVec.getElem_not]
  cases (Cells.word old x)[i] <;> cases k[i] <;> simp

theorem keptWord_allOnes (old new : Cells) (x : Nat) : keptWord old new x (BitVec.allOnes 64) = Cells.word new x := by
  rw [keptWord, BitVec.not_allOnes, BitVec.and_zero, BitVec.zero_or, BitVec.and_allOnes]

/-- Where the write does not change a bit, the mask does not matter. -/
theorem getLsbD_keptWord_of_eq (old new : Cells) (x : Nat) (k : Word) (n : Nat)
    (h : (Cells.word new x).getLsbD n = (Cells.word old x).getLsbD n) :
    (keptWord old new x k).getLsbD n = (Cells.word old x).getLsbD n := by
  by_cases hn : n < 64
  · simp only [keptWord, BitVec.getLsbD_and, BitVec.getLsbD_or, BitVec.getLsbD_not, h, hn, decide_true, Bool.true_and]
    cases (Cells.word old x).getLsbD n <;> cases k.getLsbD n <;> rfl
  · rw [BitVec.getLsbD_of_ge _ _ (by omega), BitVec.getLsbD_of_ge _ _ (by omega)]

theorem keptWord_of_eq (old new : Cells) (x : Nat) (k : Word) (h : Cells.word new x = Cells.word old x) :
    keptWord old new x k = Cells.word old x :=
  BitVec.eq_of_getLsbD_eq fun n _ => getLsbD_keptWord_of_eq old new x k n (by rw [h])

/-- The aligned words that `n` bytes from `a` meet. -/
def wordsMet (a n : Nat) : List Nat := (List.range ((n + a % 8 + 7) / 8)).map (fun k => a / 8 * 8 + 8 * k)

theorem mem_wordsMet_of_meets (a n x : Nat) (hx : x % 8 = 0) (ha : a < x + 8) (hn : x < a + n) : x ∈ wordsMet a n := by
  refine List.mem_map.2 ⟨(x - a / 8 * 8) / 8, List.mem_range.2 ?_, ?_⟩ <;> omega

theorem wordsMet_aligned {a n x : Nat} (h : x ∈ wordsMet a n) : x % 8 = 0 := by
  obtain ⟨k, -, rfl⟩ := List.mem_map.1 h
  omega

/-- The words that a write of software restores in part, each with the value that it is left with. -/
def State.restored (s : State) (a : Nat) (bs : List Byte) : List (Nat × List Byte) :=
  (wordsMet a bs.length).filterMap (fun x =>
    (s.softMask x).map (fun k => (x, leBytes 8 (keptWord s.mem (Cells.write s.mem a bs) x k).toNat)))

theorem State.softStore_mem (s : State) (a : Nat) (bs : List Byte) :
    (s.softStore a bs).mem = Cells.writeAll (Cells.write s.mem a bs) (s.restored a bs) := rfl

theorem State.mem_restored {s : State} {a : Nat} {bs : List Byte} {w : Nat × List Byte} (h : w ∈ s.restored a bs) :
    w.1 ∈ wordsMet a bs.length ∧ ∃ k, s.softMask w.1 = some k ∧
      w.2 = leBytes 8 (keptWord s.mem (Cells.write s.mem a bs) w.1 k).toNat := by
  obtain ⟨x, hx, hw⟩ := List.mem_filterMap.1 h
  obtain ⟨k, hk, rfl⟩ := Option.map_eq_some_iff.1 hw
  exact ⟨hx, k, hk, rfl⟩

/-- An aligned word after a write of software: of one that software may not write in full, the bits outside its mask stay. -/
theorem State.word_softStore (s : State) (a : Nat) (bs : List Byte) (hm : Cells.wf s.mem = true) (x : Nat) (hx : x % 8 = 0) :
    Cells.word (s.softStore a bs).mem x =
      keptWord s.mem (Cells.write s.mem a bs) x ((s.softMask x).getD (BitVec.allOnes 64)) := by
  have hws := Cells.word_writeAll_aligned
    (fun x => keptWord s.mem (Cells.write s.mem a bs) x ((s.softMask x).getD (BitVec.allOnes 64)))
    (Cells.wf_write hm a bs) (s.restored a bs) (fun w hw => by
      obtain ⟨hmet, k, hk, hval⟩ := State.mem_restored hw
      exact ⟨wordsMet_aligned hmet, by rw [hval, hk, Option.getD_some]⟩) x hx
  rw [State.softStore_mem, hws]
  split
  · rfl
  · rename_i hnot
    cases hk : s.softMask x with
    | none => rw [Option.getD_none, keptWord_allOnes]
    | some k =>
      have hout : x + 8 ≤ a ∨ a + bs.length ≤ x := by
        by_contra hmeets
        refine hnot (List.mem_map.2 ⟨(x, leBytes 8 (keptWord s.mem (Cells.write s.mem a bs) x k).toNat), ?_, rfl⟩)
        exact List.mem_filterMap.2 ⟨x, mem_wordsMet_of_meets a bs.length x hx (by omega) (by omega), by rw [hk, Option.map_some]⟩
      have hsame := Cells.word_write_other s.mem a bs x hout
      rw [keptWord_of_eq _ _ _ _ hsame, hsame]

/-- Bits that software may not write keep their values (R13, R15). -/
theorem State.word_softStore_and_not (s : State) (a : Nat) (bs : List Byte) (hm : Cells.wf s.mem = true) (x : Nat) (hx : x % 8 = 0)
    (k : Word) (hk : s.softMask x = some k) :
    Cells.word (s.softStore a bs).mem x &&& ~~~ k = Cells.word s.mem x &&& ~~~ k := by
  rw [State.word_softStore s a bs hm x hx, hk, Option.getD_some, keptWord_and_not]

/-- A write of software leaves every byte outside it. -/
theorem State.byte_softStore_other (s : State) (a : Nat) (bs : List Byte) (hm : Cells.wf s.mem = true) (b : Nat)
    (hb : ¬ (a ≤ b ∧ b < a + bs.length)) : Cells.byte (s.softStore a bs).mem b = Cells.byte s.mem b := by
  have hout := Cells.byte_write_other s.mem a bs b hb
  rw [show b = b / 8 * 8 + b % 8 by omega] at hout ⊢
  refine Cells.byte_eq_of_word _ _ _ _ (by omega) fun j hj => ?_
  rw [State.word_softStore s a bs hm _ (by omega)]
  refine getLsbD_keptWord_of_eq _ _ _ _ _ ?_
  rw [Cells.getLsbD_word _ _ _ _ (by omega) hj, hout, Cells.getLsbD_word _ _ _ _ (by omega) hj]

/-- A byte of a word that software may write in full is what was written. -/
theorem State.byte_softStore_of_open (s : State) (a : Nat) (bs : List Byte) (hm : Cells.wf s.mem = true) (b : Nat)
    (hb : s.softMask (b / 8 * 8) = none) : Cells.byte (s.softStore a bs).mem b = Cells.byte (Cells.write s.mem a bs) b := by
  have hword : Cells.word (s.softStore a bs).mem (b / 8 * 8) = Cells.word (Cells.write s.mem a bs) (b / 8 * 8) := by
    rw [State.word_softStore s a bs hm _ (by omega), hb, Option.getD_none, keptWord_allOnes]
  rw [show b = b / 8 * 8 + b % 8 by omega]
  exact Cells.byte_eq_of_word _ _ _ _ (by omega) fun j _ => by rw [hword]

/-- Bytes that software may all write read back as written. -/
theorem State.read_softStore (s : State) (a : Nat) (bs : List Byte) (hm : Cells.wf s.mem = true)
    (h : ∀ i < bs.length, s.softMask ((a + i) / 8 * 8) = none) : Cells.read (s.softStore a bs).mem a bs.length = bs := by
  rw [Cells.read_congr _ (Cells.write s.mem a bs) a bs.length fun i hi => State.byte_softStore_of_open s a bs hm _ (h i hi)]
  exact Cells.read_write_self hm a bs

/-! ## A message on its way (R405, R408) -/

/-- The fabric part has sent a message, or holds it until it can be sent. -/
def Fab.Holds (f : Fab) (m : Msg) : Prop := (∃ p, (p, m) ∈ f.sent) ∨ ∃ w ∈ f.waiting, w.msg = m

theorem State.queued_iff_holds (t : State) (m : Msg) : t.Queued m ↔ t.fab.Holds m := Iff.rfl

/-- A fabric part that keeps what waits and has sent more holds what it held. -/
theorem Fab.Holds.mono {f g : Fab} {m : Msg} (h : f.Holds m) (hs : ∀ x ∈ f.sent, x ∈ g.sent) (hw : ∀ w ∈ f.waiting, w ∈ g.waiting) :
    g.Holds m :=
  h.imp (fun ⟨p, hp⟩ => ⟨p, hs _ hp⟩) (fun ⟨w, hmem, hmsg⟩ => ⟨w, hw w hmem, hmsg⟩)

theorem Fab.Holds.link {f : Fab} {m : Msg} (h : f.Holds m) (me p : Nat) (req : Bool) : (f.link me p req).Holds m := by
  unfold Fab.link
  dsimp only
  split
  · exact h
  · split
    · exact h
    · exact h.mono (fun x hx => List.mem_append_left _ hx) (fun w hw => hw)

theorem Fab.Holds.owe {f : Fab} {m : Msg} (h : f.Holds m) (p : Nat) (x : Msg) : (f.owe p x).Holds m := by
  unfold Fab.owe
  split
  · exact h
  · exact h

theorem Fab.Holds.sendPort {f : Fab} {m : Msg} (h : f.Holds m) (me p : Nat) (x : Msg) : (f.sendPort me p x).Holds m := by
  unfold Fab.sendPort
  dsimp only
  refine Fab.Holds.mono (f := if (f.port p).sinceLink + x.flits > 127 then f.link me p false else f) ?_
    (fun y hy => List.mem_append_left _ hy) (fun w hw => hw)
  split
  · exact h.link me p false
  · exact h

theorem Fab.sendPort_holds (f : Fab) (me p : Nat) (m : Msg) : (f.sendPort me p m).Holds m :=
  Or.inl ⟨some p, List.mem_append_right _ (List.mem_singleton.2 rfl)⟩

/-- A message that takes its place at a port drops none that waits already. -/
theorem Fab.Holds.place {f : Fab} {m : Msg} (h : f.Holds m) (me : Nat) (w : Wait) : (Fab.place me f w).Holds m := by
  have happend (v : Wait) (ts : List (Nat × Nat)) : Fab.Holds { f with waiting := f.waiting ++ [v], turns := ts } m :=
    h.mono (fun x hx => hx) (fun x hx => List.mem_append_left _ hx)
  unfold Fab.place
  split
  · split
    · exact happend w f.turns
    · exact h
  · split
    · exact happend _ f.turns
    · split
      · exact happend w f.turns
      · split
        · exact happend _ f.turns
        · exact happend _ _

/-- A message that no flood has bound to its port waits on when it takes its place. -/
theorem Fab.place_holds (f : Fab) (me : Nat) (w : Wait) (hw : w.fixed = false) : (Fab.place me f w).Holds w.msg := by
  have happend (v : Wait) (ts : List (Nat × Nat)) (hv : v.msg = w.msg) :
      Fab.Holds { f with waiting := f.waiting ++ [v], turns := ts } w.msg :=
    Or.inr ⟨v, List.mem_append_right _ (List.mem_singleton.2 rfl), hv⟩
  unfold Fab.place
  simp only [hw, Bool.false_eq_true, if_false]
  split
  · exact happend _ f.turns rfl
  · split
    · exact happend w f.turns rfl
    · split
      · exact happend _ f.turns rfl
      · exact happend _ _ rfl

theorem Fab.foldl_place_holds (me : Nat) (m : Msg) (ws : List Wait) (f : Fab)
    (h : f.Holds m ∨ ∃ w ∈ ws, w.msg = m ∧ w.fixed = false) : (ws.foldl (Fab.place me) f).Holds m := by
  induction ws generalizing f with
  | nil => simpa using h
  | cons w ws ih =>
    refine ih _ ?_
    rcases h with h | ⟨v, hv, hmsg, hfix⟩
    · exact Or.inl (h.place me w)
    · rcases List.mem_cons.1 hv with rfl | hv
      · exact Or.inl (hmsg ▸ Fab.place_holds f me v hfix)
      · exact Or.inr ⟨v, hv, hmsg, hfix⟩

/-- A waiting message that is sent has been sent; the others wait on. -/
theorem Fab.Holds.retryOne {f g : Fab} {me : Nat} {m : Msg} (h : f.Holds m) (hg : f.retryOne me = some g) : g.Holds m := by
  unfold Fab.retryOne at hg
  dsimp only at hg
  split at hg
  · cases hg
  · rename_i x _
    have hsent : Fab.Holds (({ f with waiting := f.waiting.erase x.2 } : Fab).sendPort me x.1 x.2.msg) m := by
      rcases h with hs | ⟨w, hw, hmsg⟩
      · exact Fab.Holds.sendPort (f := { f with waiting := f.waiting.erase x.2 }) (Or.inl hs) me x.1 x.2.msg
      · by_cases hwx : w = x.2
        · subst hwx
          exact hmsg ▸ Fab.sendPort_holds _ me x.1 x.2.msg
        · exact Fab.Holds.sendPort (Or.inr ⟨w, (List.mem_erase_of_ne hwx).2 hw, hmsg⟩) me x.1 x.2.msg
    cases hg
    split
    · exact hsent.owe _ _
    · exact hsent

theorem Fab.Holds.retryAll {f : Fab} {m : Msg} (h : f.Holds m) (me n : Nat) : (Fab.retryAll me n f).Holds m := by
  induction n generalizing f with
  | zero => exact h
  | succ n ih =>
    unfold Fab.retryAll
    split
    · exact ih (h.retryOne ‹_›)
    · exact h

theorem Fab.Holds.foldl_link {f : Fab} {m : Msg} (h : f.Holds m) (me : Nat) (ps : List Nat) :
    (ps.foldl (fun f p => f.link me p false) f).Holds m := by
  induction ps generalizing f with
  | nil => exact h
  | cons p ps ih => exact ih (h.link me p false)

/-- A round of the ports loses no message but a flooded one. -/
theorem Fab.retry_holds (f : Fab) (me : Nat) (m : Msg)
    (h : (∃ p, (p, m) ∈ f.sent) ∨ ∃ w ∈ f.waiting, w.msg = m ∧ w.fixed = false) : (f.retry me).Holds m := by
  unfold Fab.retry
  exact ((Fab.foldl_place_holds me m f.waiting { f with waiting := [] } (h.imp_left Or.inl)).retryAll me _).foldl_link me _

/-- A message injected is sent, or waits to be. -/
theorem Fab.inject_holds (f : Fab) (me : Nat) (m : Msg) (came : Option Nat) : (f.inject me m came).Holds m := by
  unfold Fab.inject
  split
  · exact Or.inl ⟨none, List.mem_append_right _ (List.mem_singleton.2 rfl)⟩
  · exact Fab.retry_holds _ me m (Or.inr ⟨⟨m, none, false, came⟩, List.mem_append_right _ (List.mem_singleton.2 rfl), rfl, rfl⟩)

theorem State.send_queued (s : State) (m : Msg) : (s.send m).Queued m := Fab.inject_holds s.fab s.me m none

theorem State.Queued.portDone {t : State} {m : Msg} (h : t.Queued m) (rx : Rx) (b : Body) : (t.portDone rx b).Queued m := by
  rw [State.queued_iff_holds] at h
  unfold State.portDone
  split
  · exact (h.owe _ _).link _ _ _
  · exact h

end Sys2Proof.Machine
end

section
/-!
Proof, commands as they arrive: packets that the module has taken (R455), the words that a context may reach (R443, R444, R446), and
requests of the fabric (R387, R404, R411).
-/

namespace Sys2Proof.Machine

/-! ## The commands' meanings -/

theorem exec_nopPacket_eq (id : Nat) (s : State) : exec (.nopPacket id) s = execNopPacket id s := rfl
theorem exec_ctlRead_eq (id : Nat) (s : State) : exec (.ctlRead id) s = execCtlRead id s := rfl
theorem exec_ctlWritePacket_eq (id : Nat) (s : State) : exec (.ctlWritePacket id) s = execCtlWritePacket id s := rfl
theorem exec_write_eq (rx : Rx) (a : Nat) (bs : List Byte) (s : State) : exec (.write rx a bs) s = execWrite rx a bs s := rfl
theorem exec_fabricRead_eq (rx : Rx) (a n : Nat) (ev : Ev) (s : State) : exec (.fabricRead rx a n ev) s = execFabricRead rx a n ev s := rfl

/-! ## Packets taken (R455) -/

/-- The command of a packet that the module holds does what its type does. -/
theorem onPkt_of_taken {s : State} {p : Pkt} (ha : s.alive = true) (hp : s.hub.pkt p.id = some p) {type : Nat} (ht : p.type = type)
    (f : Pkt → State) : onPkt p.id type s f = .next (f p) := by
  simp [onPkt, ha, hp, ht]

theorem State.doCtlRead_misaligned (s : State) (p : Pkt) (h : fld p.arg0 19 0 % 8 ≠ 0) : s.doCtlRead p = s.endPkt p pktInvalid 0 := by
  simp [State.doCtlRead, h]

theorem State.doCtlRead_reserved (s : State) (p : Pkt) (h : fld p.arg0 19 0 % 8 = 0) (hr : regAt (fld p.arg0 19 0) = none) :
    s.doCtlRead p = s.endPkt p (if p.ctx = 0 then pktOk else pktDenied) 0 := by
  simp [State.doCtlRead, h, hr]

theorem State.doCtlRead_word (s : State) (p : Pkt) {r : Reg} (h : fld p.arg0 19 0 % 8 = 0) (hr : regAt (fld p.arg0 19 0) = some r) :
    s.doCtlRead p = if s.mayReadReg p.ctx r then s.endPkt p pktOk (s.readReg r) else s.endPkt p pktDenied 0 := by
  simp [State.doCtlRead, h, hr]

theorem State.doCtlWrite_misaligned (s : State) (p : Pkt) (h : fld p.arg0 19 0 % 8 ≠ 0) : s.doCtlWrite p = s.endPkt p pktInvalid 0 := by
  simp [State.doCtlWrite, h]

theorem State.doCtlWrite_reserved (s : State) (p : Pkt) (h : fld p.arg0 19 0 % 8 = 0) (hr : regAt (fld p.arg0 19 0) = none) :
    s.doCtlWrite p = s.endPkt p (if p.ctx = 0 then pktOk else pktDenied) 0 := by
  simp [State.doCtlWrite, h, hr]

theorem State.doCtlWrite_word (s : State) (p : Pkt) {r : Reg} (h : fld p.arg0 19 0 % 8 = 0) (hr : regAt (fld p.arg0 19 0) = some r) :
    s.doCtlWrite p = if s.mayWriteReg p.ctx r then (s.writeReg r p.arg1 p.ctx).endPkt p pktOk 0 else s.endPkt p pktDenied 0 := by
  simp [State.doCtlWrite, h, hr]

section
variable {s : State} {p : Pkt} (ha : s.alive = true) (hp : s.hub.pkt p.id = some p)
include ha hp

theorem exec_nopPacket_of_taken (ht : p.type = typeNop) : exec (.nopPacket p.id) s = .next (s.endPkt p pktOk 0) := by
  rw [exec_nopPacket_eq, execNopPacket, onPkt_of_taken ha hp ht, State.doNop]

theorem exec_ctlRead_of_taken (ht : p.type = typeCtlRead) : exec (.ctlRead p.id) s = .next (s.doCtlRead p) := by
  rw [exec_ctlRead_eq, execCtlRead, onPkt_of_taken ha hp ht]

theorem exec_ctlWritePacket_of_taken (ht : p.type = typeCtlWrite) : exec (.ctlWritePacket p.id) s = .next (s.doCtlWrite p) := by
  rw [exec_ctlWritePacket_eq, execCtlWritePacket, onPkt_of_taken ha hp ht]

end

/-! ## The words that a context may reach (R443, R444, R446) -/

theorem State.mayWriteReg_system (s : State) (r : Reg) : s.mayWriteReg 0 r = true := by simp [State.mayWriteReg]

theorem State.mayReadReg_system (s : State) (r : Reg) : s.mayReadReg 0 r = true := by simp [State.mayReadReg]

section
variable (s : State) {ctx : Nat} (hc : ctx ≠ 0)
include hc

/-- The words of a cluster block that the table marks as written are open to the context that owns the cluster. -/
theorem State.mayWriteReg_marked (l : Nat) :
    s.mayWriteReg ctx (.drlCfg l) = s.ownsCluster ctx l ∧ s.mayWriteReg ctx (.drlCommit l) = s.ownsCluster ctx l ∧
    s.mayWriteReg ctx (.drlCmd l) = s.ownsCluster ctx l ∧ s.mayWriteReg ctx (.chnCfg l) = s.ownsCluster ctx l ∧
    s.mayWriteReg ctx (.chnCommit l) = s.ownsCluster ctx l := by
  simp [State.mayWriteReg, hc]

/-- So are the status words that it marks as read. -/
theorem State.mayReadReg_marked (l : Nat) :
    s.mayReadReg ctx (.drlStatus l) = s.ownsCluster ctx l ∧ s.mayReadReg ctx (.chnStatus l) = s.ownsCluster ctx l ∧
    s.mayReadReg ctx (.topStatus l) = s.ownsCluster ctx l := by
  simp [State.mayReadReg, hc]

/-- A job context reads none of the words that are marked as written (R142, R444), not even its own cluster's. -/
theorem State.mayReadReg_forEntry {r : Reg} (hr : r.forEntry = true) : s.mayReadReg ctx r = false := by
  cases r <;> simp_all [Reg.forEntry, State.mayReadReg]

/-- The counter configuration of a cluster is closed to a context that does not own it (R537). -/
theorem State.mayWriteReg_ctrcWord_of_foreign {l : Nat} (ho : s.ownsCluster ctx l = false) (k : Nat) :
    s.mayWriteReg ctx (.ctrcWord l k) = false := by
  simp [State.mayWriteReg, hc, ho]

/-- Words without a mark are the system context's alone. -/
theorem State.mayWriteReg_unmarked : s.mayWriteReg ctx .hubCfg = false ∧ s.mayWriteReg ctx .pwrCfg = false ∧
    s.mayWriteReg ctx .tstCmd = false ∧ s.mayWriteReg ctx .hdgCmd = false := by
  simp [State.mayWriteReg, hc]

theorem State.hdgPort_closed (p : Nat) : s.mayWriteReg ctx (.hdgPort p) = false ∧ s.mayReadReg ctx (.hdgPort p) = false := by
  simp [State.mayWriteReg, State.mayReadReg, hc]

end

/-! ## Changes of the fabric part alone -/

/-- Only the fabric part and the module's counters differ. -/
def OnlyFab (s t : State) : Prop := t = { s with fab := t.fab, ctr := t.ctr }

theorem onlyFab_with (s : State) (f : Fab) (c : Ctr) : OnlyFab s { s with fab := f, ctr := c } := rfl

theorem OnlyFab.trans {s t u : State} (h : OnlyFab s t) (h' : OnlyFab t u) : OnlyFab s u := by
  unfold OnlyFab at h h'
  rw [h', h]
  exact onlyFab_with s u.fab u.ctr

theorem onlyFab_withFab (s : State) (f : Fab) : OnlyFab s (s.withFab f) := onlyFab_with s f _

theorem onlyFab_countBytes (s : State) (k : Option Nat) (as : List Access) : OnlyFab s (s.countBytes k as) := onlyFab_with s s.fab _

theorem onlyFab_answer (s : State) (rx : Rx) (b : Body) : OnlyFab s (s.answer rx b) := onlyFab_withFab s _

theorem onlyFab_received (s : State) (rx : Rx) (b : Body) : OnlyFab s (s.received rx b) := by
  unfold State.received
  split
  · exact onlyFab_with s _ _
  · rfl

theorem onlyFab_portDone (s : State) (rx : Rx) (b : Body) : OnlyFab s (s.portDone rx b) := by
  unfold State.portDone
  split
  · exact onlyFab_withFab s _
  · rfl

section
variable {s t : State} (h : OnlyFab s t)
include h

/-! Reach, poison, bytes and addresses do not depend on the fabric part. -/

theorem OnlyFab.mem : t.mem = s.mem := by rw [h]
theorem OnlyFab.poison : t.poison = s.poison := by rw [h]
theorem OnlyFab.pages : t.pages = s.pages := by rw [h]
theorem OnlyFab.jobs : t.jobs = s.jobs := by rw [h]
theorem OnlyFab.clusters : t.clusters = s.clusters := by rw [h]
theorem OnlyFab.cluster (l : Nat) : t.cluster l = s.cluster l := by rw [State.cluster, h.clusters, State.cluster]
theorem OnlyFab.hub : t.hub = s.hub := by rw [h]
theorem OnlyFab.start : t.start = s.start := by rw [h]
theorem OnlyFab.me : t.me = s.me := by rw [State.me, h.hub, State.me]
theorem OnlyFab.isEntry : t.isEntry = s.isEntry := by rw [State.isEntry, h.start, h.me, State.isEntry]
theorem OnlyFab.barred (ctx : Nat) : t.barred ctx = s.barred ctx := by rw [State.barred, h.hub, State.barred]
theorem OnlyFab.deadRow (ctx a n : Nat) : t.deadRow ctx a n = s.deadRow ctx a n := by rw [State.deadRow, h.hub, State.deadRow]
theorem OnlyFab.inPairs (ctx a n : Nat) : t.inPairs ctx a n = s.inPairs ctx a n := by rw [State.inPairs, h.jobs, State.inPairs]
theorem OnlyFab.mayTouch (ctx a n : Nat) : t.mayTouch ctx a n = s.mayTouch ctx a n := by
  simp only [State.mayTouch, State.regionsOf, h.pages, h.jobs]
theorem OnlyFab.stackUp : t.stackUp = s.stackUp := by
  funext page
  simp only [State.stackUp, h.pages, h.start]
theorem OnlyFab.lands (a n : Nat) : t.lands a n = s.lands a n := by
  simp only [State.lands, State.reaches, h.pages, h.start, h.stackUp]
theorem OnlyFab.hostByte (o : Nat) : t.hostByte o = s.hostByte o := by
  unfold State.hostByte
  rw [h.hub, h.mem]
theorem OnlyFab.seen (a n : Nat) : t.seen a n = s.seen a n := by
  simp only [State.seen, h.isEntry, h.hostByte, h.mem]
theorem OnlyFab.roRecords : t.roRecords = s.roRecords := by rw [State.roRecords, h.jobs, State.roRecords]
theorem OnlyFab.records : t.records = s.records := by rw [State.records, h.jobs, State.records]
theorem OnlyFab.softMask (x : Nat) : t.softMask x = s.softMask x := by
  simp only [State.softMask, h.isEntry, h.roRecords, h.records]
theorem OnlyFab.softStore_mem (a : Nat) (bs : List Byte) : (t.softStore a bs).mem = (s.softStore a bs).mem := by
  simp only [State.softStore_mem, State.restored, h.softMask, h.mem]

theorem OnlyFab.writeFate (rx : Rx) (a : Nat) (bs : List Byte) : t.writeFate rx a bs = s.writeFate rx a bs := by
  simp only [State.writeFate, h.barred, h.deadRow, h.mayTouch, h.inPairs, h.poison, h.lands]

end

/-! ## Arrival (R404 to R406) -/

/-- The module after it has acted on a message, with its port's answer: `t` is the module as it had received the message. -/
def State.settled (u t : State) (rx : Rx) (b : Body) : State :=
  match rx.port with
  | some p => u.tookFrom t p rx b
  | none => u

/-- A message that the module hears is received, acted on, and answered by the port that brought it. -/
theorem State.arrive_of_hears {s : State} {rx : Rx} (h : s.hears rx = true) (b : Body) (f : State → State) :
    s.arrive rx b f = .next ((f (s.received rx b)).settled (s.received rx b) rx b) := by
  unfold State.hears at h
  unfold State.arrive State.received State.settled
  cases hp : rx.port with
  | none => simp_all
  | some p =>
    obtain ⟨⟨⟨halive, hstage⟩, hdst⟩, ⟨hlt, hup⟩, hedge⟩ : ((s.alive = true ∧ s.start.stage ≠ .minimal) ∧ rx.dst = s.me) ∧
        (p < 48 ∧ (s.fab.port p).st = .up) ∧ s.start.edgeUp (.serdes p) = true := by simpa [hp] using h
    simp [onPort, hlt, halive, hup, hedge, hdst, hstage]

/-- Messages of another kind than WRITE give their credits back at once. -/
theorem State.settled_read (u t : State) (rx : Rx) (a n : Nat) : u.settled t rx (.read a n) = u.portDone rx (.read a n) := by
  unfold State.settled State.portDone
  cases rx.port <;> rfl

/-- So does a WRITE that is dropped or refused. -/
theorem State.settled_write_of_dropped (u : State) {t : State} {rx : Rx} {a : Nat} {bs : List Byte} (h : t.writeFate rx a bs = .dropped) :
    u.settled t rx (.write a bs) = u.portDone rx (.write a bs) := by
  unfold State.settled State.portDone State.tookFrom
  cases rx.port <;> simp [h]

theorem State.settled_write_of_refused (u : State) {t : State} {rx : Rx} {a : Nat} {bs : List Byte} {r : Nat}
    (h : t.writeFate rx a bs = .refused r) : u.settled t rx (.write a bs) = u.portDone rx (.write a bs) := by
  unfold State.settled State.portDone State.tookFrom
  cases rx.port <;> simp [h]

/-- A WRITE that has landed has given its credits back. -/
theorem State.settled_write_of_lands (u : State) {t : State} {rx : Rx} {a : Nat} {bs : List Byte} (h : t.writeFate rx a bs = .lands) :
    u.settled t rx (.write a bs) = u := by
  unfold State.settled State.tookFrom
  cases rx.port <;> simp [h]

/-- Of a WRITE that waits the flits alone are acknowledged. -/
theorem State.onlyFab_settled_of_waits (u : State) {t : State} {rx : Rx} {a : Nat} {bs : List Byte} (h : t.writeFate rx a bs = .waits) :
    OnlyFab u (u.settled t rx (.write a bs)) := by
  unfold State.settled State.tookFrom
  cases rx.port with
  | none => rfl
  | some p => simpa [h] using onlyFab_withFab u _

/-! ## WRITE (R387, R404, R411) -/

/-- A WRITE of the fabric as the module keeps it while it waits, with whom its acknowledge goes to (R377, R411). -/
def heldOf (rx : Rx) (a : Nat) (bs : List Byte) : HeldWrite := ⟨a, bs, false, .fabric rx.port rx.src rx.ctx rx.tag rx.scl⟩

section
variable {s : State} {rx : Rx} {a : Nat} {bs : List Byte}

theorem State.writeFate_of_discarded (h : s.barred rx.ctx = true ∨ s.deadRow rx.ctx a bs.length = true) :
    s.writeFate rx a bs = .dropped := by
  simp [State.writeFate, h]

theorem State.writeFate_of_outside (hb : s.barred rx.ctx = false) (hd : s.deadRow rx.ctx a bs.length = false)
    (hm : ¬ (s.mayTouch rx.ctx a bs.length = true ∧ (pagesOf a bs.length).any inSys = false ∧ s.inPairs rx.ctx a bs.length = false)) :
    s.writeFate rx a bs = .refused nackRange := by
  have hout : (!(s.mayTouch rx.ctx a bs.length) || (pagesOf a bs.length).any inSys || s.inPairs rx.ctx a bs.length) = true := by
    by_contra hx
    simp only [Bool.or_eq_true, Bool.not_eq_true', not_or, Bool.not_eq_false, Bool.not_eq_true] at hx
    exact hm ⟨hx.1.1, hx.1.2, hx.2⟩
  simp only [State.writeFate, hb, hd, Bool.or_self, Bool.false_eq_true, if_false, hout, if_true]

theorem State.writeFate_of_inside (hb : s.barred rx.ctx = false) (hd : s.deadRow rx.ctx a bs.length = false)
    (hm : s.mayTouch rx.ctx a bs.length = true ∧ (pagesOf a bs.length).any inSys = false ∧ s.inPairs rx.ctx a bs.length = false) :
    s.writeFate rx a bs = if (s.poison.partHit a bs.length).isSome then .refused nackPoison
      else if s.lands a bs.length then .lands else .waits := by
  obtain ⟨htouch, hsys, hpairs⟩ := hm
  simp [State.writeFate, hb, hd, htouch, hsys, hpairs]

/-- A WRITE that the module hears does what its fate says. -/
theorem exec_write_of_hears (h : s.hears rx = true) :
    exec (.write rx a bs) s =
      .next (((s.received rx (.write a bs)).fabWrite rx a bs).settled (s.received rx (.write a bs)) rx (.write a bs)) := by
  rw [exec_write_eq, execWrite, State.arrive_of_hears h]

theorem exec_write_of_dropped (h : s.hears rx = true) (hf : s.writeFate rx a bs = .dropped) :
    exec (.write rx a bs) s = .next ((s.received rx (.write a bs)).portDone rx (.write a bs)) := by
  have hf' := ((onlyFab_received s rx (.write a bs)).writeFate rx a bs).trans hf
  rw [exec_write_of_hears h, State.settled_write_of_dropped _ hf', State.fabWrite, hf']

theorem answers_write_of_refused (h : s.hears rx = true) {r : Nat} (hf : s.writeFate rx a bs = .refused r) :
    Answers (.write rx a bs) s (fun t => t.Queued ⟨rx.src, s.me, rx.ctx, rx.tag, rx.scl, .nack a r⟩ ∧ OnlyFab s t) := by
  have hrec := onlyFab_received s rx (.write a bs)
  have hf' := (hrec.writeFate rx a bs).trans hf
  refine ⟨_, exec_write_of_hears h, ?_⟩
  rw [State.settled_write_of_refused _ hf', State.fabWrite, hf']
  refine ⟨State.Queued.portDone ?_ rx _, (hrec.trans (onlyFab_answer _ rx _)).trans (onlyFab_portDone _ rx _)⟩
  rw [← hrec.me]
  exact State.send_queued _ _

theorem answers_write_of_waits (h : s.hears rx = true) (hf : s.writeFate rx a bs = .waits) (hl : s.lands a bs.length = false) :
    Answers (.write rx a bs) s (fun t => t.pages.waiting = s.pages.waiting ++ [heldOf rx a bs] ∧
      t = { s with fab := t.fab, ctr := t.ctr, pages := { s.pages with waiting := t.pages.waiting } }) := by
  have hrec := onlyFab_received s rx (.write a bs)
  have hf' := (hrec.writeFate rx a bs).trans hf
  have hl' : (s.received rx (.write a bs)).lands a bs.length = false := (hrec.lands a bs.length).trans hl
  have hheld : (s.received rx (.write a bs)).fabWrite rx a bs =
      { s.received rx (.write a bs) with pages := { (s.received rx (.write a bs)).pages with
        waiting := (s.received rx (.write a bs)).pages.waiting ++ [heldOf rx a bs] } } := by
    simp only [State.fabWrite, hf', State.memWrite, hl', Bool.false_eq_true, if_false, heldOf]
  refine ⟨_, exec_write_of_hears h, ?_⟩
  have hset := State.onlyFab_settled_of_waits ((s.received rx (.write a bs)).fabWrite rx a bs) hf'
  rw [hset, hheld, hrec]
  exact ⟨rfl, rfl⟩

/-- The bytes of a WRITE that lands are in memory, and what depends on them has been told; the acknowledge is still to go. -/
def State.landed (s : State) (ctx a : Nat) (bs : List Byte) : State :=
  ((((s.countBytes none [⟨a, bs.length, true⟩]).softStore a bs).tagLanded a bs.length).echoHelds a bs.length).rowsLanded ctx a bs.length

theorem State.landed_hub (s : State) (ctx a : Nat) (bs : List Byte) : (s.landed ctx a bs).hub = s.hub := by simp [State.landed]

theorem State.landed_jobs (s : State) (ctx a : Nat) (bs : List Byte) : (s.landed ctx a bs).jobs = s.jobs := by simp [State.landed]

theorem State.landed_mem (s : State) (ctx a : Nat) (bs : List Byte) : (s.landed ctx a bs).mem = (s.softStore a bs).mem := by
  rw [← (onlyFab_countBytes s none [⟨a, bs.length, true⟩]).softStore_mem a bs]
  simp [State.landed]

/-- Rows that arrive touch the flights of an exchange, and no counter. -/
theorem State.rowsLanded_ctrs (s : State) (ctx a n l : Nat) : ((s.rowsLanded ctx a n).cluster l).drl.ctrs = (s.cluster l).drl.ctrs := by
  simp only [State.cluster, State.rowsLanded, List.getD_eq_getElem?_getD, List.getElem?_map]
  cases s.clusters[l]? with
  | none => rfl
  | some c =>
    simp only [Option.map_some, Option.getD_some]
    split
    · split <;> rfl
    · rfl

theorem State.landed_ctrs (s : State) (ctx a : Nat) (bs : List Byte) (l : Nat) :
    ((s.landed ctx a bs).cluster l).drl.ctrs = (s.cluster l).drl.ctrs := by
  rw [State.landed, State.rowsLanded_ctrs]
  simp [State.cluster]

/-- A WRITE of the fabric that lands is acknowledged, and its port gives the credits back. -/
theorem State.landWrite_heldOf (s : State) (rx : Rx) (a : Nat) (bs : List Byte) :
    s.landWrite (heldOf rx a bs) = ((s.landed rx.ctx a bs).answer rx (.ack a none)).portDone rx (.write a bs) := by
  have hme : (s.landed rx.ctx a bs).me = s.me := by rw [State.me, State.landed_hub, State.me]
  rw [State.answer, hme]
  cases hp : rx.port <;>
    simp only [State.landWrite, heldOf, hp, Bool.false_eq_true, false_and, if_false, State.landed, State.portDone]

theorem State.fabWrite_of_lands (hf : s.writeFate rx a bs = .lands) (hl : s.lands a bs.length = true) :
    s.fabWrite rx a bs = ((s.landed rx.ctx a bs).answer rx (.ack a none)).portDone rx (.write a bs) := by
  rw [State.fabWrite, hf]
  simp only [State.memWrite, hl, if_true]
  exact State.landWrite_heldOf s rx a bs

/-- The module once a WRITE has landed and its acknowledge is on its way. -/
def State.written (s : State) (rx : Rx) (a : Nat) (bs : List Byte) : State :=
  (((s.received rx (.write a bs)).landed rx.ctx a bs).answer rx (.ack a none)).portDone rx (.write a bs)

theorem exec_write_of_lands (h : s.hears rx = true) (hf : s.writeFate rx a bs = .lands) (hl : s.lands a bs.length = true) :
    exec (.write rx a bs) s = .next (s.written rx a bs) := by
  have hrec := onlyFab_received s rx (.write a bs)
  have hf' := (hrec.writeFate rx a bs).trans hf
  rw [exec_write_of_hears h, State.settled_write_of_lands _ hf', State.fabWrite_of_lands hf' ((hrec.lands a bs.length).trans hl),
    State.written]

end

theorem State.onlyFab_landed_written (s : State) (rx : Rx) (a : Nat) (bs : List Byte) :
    OnlyFab ((s.received rx (.write a bs)).landed rx.ctx a bs) (s.written rx a bs) :=
  (onlyFab_answer _ rx _).trans (onlyFab_portDone _ rx _)

theorem State.written_mem (s : State) (rx : Rx) (a : Nat) (bs : List Byte) : (s.written rx a bs).mem = (s.softStore a bs).mem := by
  rw [(s.onlyFab_landed_written rx a bs).mem, State.landed_mem, (onlyFab_received s rx _).softStore_mem]

theorem State.written_hub (s : State) (rx : Rx) (a : Nat) (bs : List Byte) : (s.written rx a bs).hub = s.hub := by
  rw [(s.onlyFab_landed_written rx a bs).hub, State.landed_hub, (onlyFab_received s rx _).hub]

theorem State.written_jobs (s : State) (rx : Rx) (a : Nat) (bs : List Byte) : (s.written rx a bs).jobs = s.jobs := by
  rw [(s.onlyFab_landed_written rx a bs).jobs, State.landed_jobs, (onlyFab_received s rx _).jobs]

theorem State.written_ctrs (s : State) (rx : Rx) (a : Nat) (bs : List Byte) (l : Nat) :
    ((s.written rx a bs).cluster l).drl.ctrs = (s.cluster l).drl.ctrs := by
  rw [(s.onlyFab_landed_written rx a bs).cluster, State.landed_ctrs, (onlyFab_received s rx _).cluster]

theorem State.written_queued (s : State) (rx : Rx) (a : Nat) (bs : List Byte) :
    (s.written rx a bs).Queued ⟨rx.src, s.me, rx.ctx, rx.tag, rx.scl, .ack a none⟩ := by
  have hme : ((s.received rx (.write a bs)).landed rx.ctx a bs).me = s.me := by
    rw [State.me, State.landed_hub, (onlyFab_received s rx _).hub, State.me]
  rw [← hme]
  exact (State.send_queued _ _).portDone rx _

/-! ## READ (R387, R404, R411) -/

section
variable {s : State} {rx : Rx} {a n : Nat}

theorem State.fabRead_of_barred (hb : s.barred rx.ctx = true) (ev : Ev) : s.fabRead rx a n ev = s := by
  simp [State.fabRead, hb]

theorem State.fabRead_of_outside (hb : s.barred rx.ctx = false) (hm : s.mayTouch rx.ctx a n = false) (ev : Ev) :
    s.fabRead rx a n ev = s.answer rx (.nack a nackRange) := by
  simp [State.fabRead, hb, hm]

/-- A READ that finds no new bad word answers with the bytes, or with POISON where one of their words is poisoned. -/
theorem State.fabRead_of_inside (hb : s.barred rx.ctx = false) (hm : s.mayTouch rx.ctx a n = true) :
    s.fabRead rx a n Ev.none = if (s.poison.hit a n).isSome then s.answer rx (.nack a nackPoison)
      else (s.countBytes none [⟨a, n, false⟩]).answer rx (.readData a (s.seen a n)) := by
  simp [State.fabRead, hb, hm, Ev.none, State.corrected]

/-- A READ whose stack is not reached stays in the receive buffer. -/
theorem exec_fabricRead_of_unreached (h : s.hears rx = true) (hb : s.barred rx.ctx = false) (hm : s.mayTouch rx.ctx a n = true)
    (hr : s.reaches [⟨a, n, false⟩] = false) (ev : Ev) : exec (.fabricRead rx a n ev) s = .next s := by
  simp [exec_fabricRead_eq, execFabricRead, h, hb, hm, hr]

theorem exec_fabricRead_of_hears (h : s.hears rx = true)
    (hgo : s.barred rx.ctx = true ∨ s.mayTouch rx.ctx a n = false ∨ s.reaches [⟨a, n, false⟩] = true) (ev : Ev) :
    exec (.fabricRead rx a n ev) s =
      .next (((s.received rx (.read a n)).fabRead rx a n ev).portDone rx (.read a n)) := by
  have hgo' : (s.hears rx && !(s.barred rx.ctx) && s.mayTouch rx.ctx a n && !(s.reaches [⟨a, n, false⟩])) = false := by
    rcases hgo with hb | hm | hr
    · simp [hb]
    · simp [hm]
    · simp [hr]
  rw [exec_fabricRead_eq, execFabricRead, hgo', if_neg Bool.false_ne_true, State.arrive_of_hears h, State.settled_read]

/-- Where a READ only answers, its answer is on its way and nothing but the fabric part changes. -/
theorem answers_fabricRead_of_answer (h : s.hears rx = true) (hgo : s.mayTouch rx.ctx a n = false ∨ s.reaches [⟨a, n, false⟩] = true)
    {u : State} {b : Body} (hu : OnlyFab (s.received rx (.read a n)) u)
    (hf : (s.received rx (.read a n)).fabRead rx a n Ev.none = u.answer rx b) :
    Answers (.fabricRead rx a n Ev.none) s (fun t => t.Queued ⟨rx.src, s.me, rx.ctx, rx.tag, rx.scl, b⟩ ∧ OnlyFab s t) := by
  have hsu := (onlyFab_received s rx (.read a n)).trans hu
  refine ⟨_, exec_fabricRead_of_hears h (Or.inr hgo) Ev.none, ?_⟩
  rw [hf]
  refine ⟨State.Queued.portDone ?_ rx _, (hsu.trans (onlyFab_answer u rx b)).trans (onlyFab_portDone _ rx _)⟩
  rw [← hsu.me]
  exact State.send_queued _ _

end

end Sys2Proof.Machine
end

section
/-!
Proof, the statements on the step, on control packets and on requests of the fabric.
-/

namespace Sys2Proof.Machine

/-- Settles O1: both clauses are the step's two cases, a queue with a front and an empty one. -/
theorem stepRunsTheFrontCommand : Obligations.StepRunsTheFrontCommand := by
  refine ⟨fun c s => ?_, fun s hempty => ?_⟩
  · rfl
  · rw [step, hempty]

/-- Settles O30: a taken packet runs its type's operation, which goes by the offset, the word and the context's mark on it. -/
theorem controlPacketsKeepToTheirContext : Obligations.ControlPacketsKeepToTheirContext := by
  refine ⟨fun s p r ha hp => ⟨exec_nopPacket_of_taken ha hp, ?_, ?_, ?_, ?_, fun hres hal => ⟨?_, ?_⟩⟩, fun s ctx l hc => ?_⟩
  · intro ht hal hr
    rw [exec_ctlRead_of_taken ha hp ht, State.doCtlRead_word s p hal hr]
    exact ⟨fun hmay => by rw [if_pos hmay], fun hnot => by rw [hnot, if_neg Bool.false_ne_true]⟩
  · intro ht hal hr
    rw [exec_ctlWritePacket_of_taken ha hp ht, State.doCtlWrite_word s p hal hr]
    exact ⟨fun hmay => by rw [if_pos hmay], fun hnot => by rw [hnot, if_neg Bool.false_ne_true]⟩
  · intro ht hmis
    rw [exec_ctlRead_of_taken ha hp ht, State.doCtlRead_misaligned s p hmis]
  · intro ht hmis
    rw [exec_ctlWritePacket_of_taken ha hp ht, State.doCtlWrite_misaligned s p hmis]
  · intro ht
    rw [exec_ctlRead_of_taken ha hp ht, State.doCtlRead_reserved s p hal hres]
  · intro ht
    rw [exec_ctlWritePacket_of_taken ha hp ht, State.doCtlWrite_reserved s p hal hres]
  · have hwrite := s.mayWriteReg_marked hc l
    have hread := s.mayReadReg_marked hc l
    have hclosed {r : Reg} (hr : r.forEntry = true) : s.mayReadReg ctx r = false := s.mayReadReg_forEntry hc hr
    obtain ⟨hhub, hpwr, htst, hhdg⟩ := s.mayWriteReg_unmarked hc
    refine ⟨fun ho => ?_, hclosed rfl, hclosed rfl, hclosed rfl, hclosed rfl, hclosed rfl, fun ho => ?_, s.hdgPort_closed hc,
      hhub, hpwr, htst, hhdg, s.mayWriteReg_system _, s.mayReadReg_system _⟩
    · simp only [hwrite, hread, ho, and_self]
    · simp only [hwrite, hread, ho, s.mayWriteReg_ctrcWord_of_foreign hc ho, and_self]

/-- Settles O55: the fate of a WRITE, and the case of a READ, decide what is sent; the bytes of a WRITE that lands are those of a write of
software. -/
theorem fabricRequestsAreServed : Obligations.FabricRequestsAreServed := by
  intro s rx a n bs h reply len goes may
  refine ⟨fun hdrop => ?_, fun hb => ?_, ?_, ?_, ?_, ?_, fun hb hm => ⟨?_, ?_, ?_⟩, fun hb hm => ?_⟩
  · exact exec_write_of_dropped h (State.writeFate_of_discarded hdrop)
  · rw [exec_fabricRead_of_hears h (Or.inl hb), State.fabRead_of_barred (((onlyFab_received s rx _).barred rx.ctx).trans hb)]
  · rintro ⟨hb, hd⟩ hmay hpart hl hm
    have hf : s.writeFate rx a bs = .lands := by rw [State.writeFate_of_inside hb hd hmay, hpart, hl]; rfl
    refine ⟨_, exec_write_of_lands h hf hl, ?_, ?_, ?_, s.written_queued rx a bs, s.written_hub rx a bs, s.written_jobs rx a bs,
      s.written_ctrs rx a bs⟩
    · intro hopen
      rw [s.written_mem, s.read_softStore a bs hm hopen]
    · intro w k hw hk
      rw [s.written_mem, s.word_softStore_and_not a bs hm w hw k hk]
    · intro b hb
      rw [s.written_mem, s.byte_softStore_other a bs hm b (hb (a, len) (List.mem_singleton.2 rfl))]
  · rintro ⟨hb, hd⟩ hmay hpart hl
    exact answers_write_of_waits h (by rw [State.writeFate_of_inside hb hd hmay, hpart, hl]; rfl) hl
  · rintro ⟨hb, hd⟩ hout
    exact answers_write_of_refused h (State.writeFate_of_outside hb hd hout)
  · rintro ⟨hb, hd⟩ hmay hpart
    exact answers_write_of_refused h (by rw [State.writeFate_of_inside hb hd hmay, if_pos hpart])
  all_goals
    have hrec := onlyFab_received s rx (.read a n)
    have hb' := (hrec.barred rx.ctx).trans hb
    have hm' := (hrec.mayTouch rx.ctx a n).trans hm
  · exact fun hr => exec_fabricRead_of_unreached h hb hm hr Ev.none
  · intro hr hclean
    refine answers_fabricRead_of_answer h (Or.inr hr) (onlyFab_countBytes _ none [⟨a, n, false⟩]) ?_
    rw [State.fabRead_of_inside hb' hm', hrec.poison, hclean, hrec.seen]
    rfl
  · intro hr hbad
    refine answers_fabricRead_of_answer h (Or.inr hr) (u := s.received rx (.read a n)) rfl ?_
    rw [State.fabRead_of_inside hb' hm', hrec.poison, if_pos hbad]
  · refine answers_fabricRead_of_answer h (Or.inl hm) (u := s.received rx (.read a n)) rfl ?_
    rw [State.fabRead_of_outside hb' hm']

end Sys2Proof.Machine
end

section
/-!
Proof, canonical memory: one lemma for each operation of the model that may change a byte of memory, in the order of the model's
files (compare Laws). The memory that the operation leaves is in canonical form when the memory that it finds is. Here the shared
operations, packets, the host and the fabric.
-/

namespace Sys2Proof.Machine

theorem foldl_wf {β : Type} (g : State → β → State) (h : ∀ s b, Cells.wf s.mem = true → Cells.wf (g s b).mem = true) (l : List β)
    {s : State} (hs : Cells.wf s.mem = true) : Cells.wf (l.foldl g s).mem = true := by
  induction l generalizing s with
  | nil => exact hs
  | cons b l ih => exact ih (h s b hs)

section
variable {s : State} (hm : Cells.wf s.mem = true)
include hm

/-! ## Ops -/

@[simp] theorem State.hubStore_wf (ws : List (Nat × List Byte)) : Cells.wf (s.hubStore ws).mem = true := by
  simp [State.hubStore, hm, State.store_wf]

@[simp] theorem State.trace_wf (l : Nat) (f : Flight) (op : Opcode) (step event unit lt : Nat) (detail : Word) :
    Cells.wf (s.trace l f op step event unit lt detail).mem = true := by
  unfold State.trace
  split <;> simp [hm]

@[simp] theorem State.writeGlobal_wf (ctx : Nat) (use : HubUse) (addr : Nat) (bytes : List Byte) :
    Cells.wf (s.writeGlobal ctx use addr bytes).mem = true := by
  unfold State.writeGlobal
  split <;> simp [hm]

@[simp] theorem State.endCycle_wf (k : TaskKey) (p : SolPlan) (aborted : Bool) : Cells.wf (s.endCycle k p aborted).mem = true := by
  unfold State.endCycle
  split <;> simp [hm]

@[simp] theorem State.ringEnd_wf (n slot : Nat) (releases : Bool) (c : Option Cqe) : Cells.wf (s.ringEnd n slot releases c).mem = true := by
  unfold State.ringEnd
  (repeat' split) <;> simp [hm, State.storeHdm_wf]

@[simp] theorem State.endPkt_wf (p : Pkt) (status : Nat) (value : Word) (releases : Bool) :
    Cells.wf (s.endPkt p status value releases).mem = true := by
  unfold State.endPkt
  split <;> simp [hm]

@[simp] theorem State.freeHeld_wf (h : Held) : Cells.wf (s.freeHeld h).mem = true := by
  unfold State.freeHeld
  split <;> simp [hm]

@[simp] theorem State.freeHelds_wf (f : Held → Bool) : Cells.wf (s.freeHelds f).mem = true :=
  foldl_wf _ (fun _ h ht => State.freeHeld_wf ht h) _ hm

@[simp] theorem State.endPktId_wf (id : Option Nat) (status : Nat) (value : Word) : Cells.wf (s.endPktId id status value).mem = true := by
  unfold State.endPktId
  (repeat' split) <;> simp [hm]

@[simp] theorem State.zeroStores_wf (l : Nat) : Cells.wf (s.zeroStores l).mem = true :=
  Cells.wf_zero hm _ _

@[simp] theorem State.copyRange_wf (src dst n : Nat) : Cells.wf (s.copyRange src dst n).mem = true :=
  Cells.wf_foldl _ (fun _ _ h => Cells.wf_put h _ _) _ (Cells.wf_zero hm _ _)

@[simp] theorem State.writeSlot_wf (k : TaskKey) (l : Nat) (d : Drl) (full : Bool) (cfg shadow : Word) :
    Cells.wf (s.writeSlot k l d full cfg shadow).mem = true := by
  simp [State.writeSlot, hm, State.store_wf]

@[simp] theorem State.leaveCluster_wf (k : TaskKey) (status l : Nat) : Cells.wf (s.leaveCluster k status l).mem = true := by
  unfold State.leaveCluster
  repeat' (first | split | dsimp only)
  all_goals simp [hm]

@[simp] theorem State.endTask_wf (k : TaskKey) (status next : Nat) : Cells.wf (s.endTask k status next).mem = true := by
  unfold State.endTask
  split
  · exact hm
  · have hleft := foldl_wf (fun s l => s.leaveCluster k status l) (fun t l ht => State.leaveCluster_wf ht k status l) (s.holders k) hm
    dsimp only
    split <;> simp [hleft]

@[simp] theorem State.closeCycle_wf (k : TaskKey) (p : SolPlan) : Cells.wf (s.closeCycle k p).mem = true := by
  unfold State.closeCycle
  repeat' (first | split | dsimp only)
  all_goals simp [hm]

@[simp] theorem State.traceCut_wf (k : TaskKey) (j : Job) (step status l : Nat) : Cells.wf (s.traceCut k j step status l).mem = true := by
  unfold State.traceCut
  dsimp only
  split
  · refine foldl_wf _ (fun t f ht => ?_) _ hm
    split <;> simp [ht]
  · exact hm

@[simp] theorem State.abortNow_wf (k : TaskKey) (status : Nat) : Cells.wf (s.abortNow k status).mem = true := by
  unfold State.abortNow
  split
  · exact hm
  · split
    · exact hm
    · extract_lets own s1 s2
      have h1 : Cells.wf s1.mem = true := by
        dsimp only [s1]
        split
        · exact State.store_wf _ _ (State.store_wf _ _ (foldl_wf _ (fun t l ht => by simp [ht]) _ hm))
        · exact hm
      have h2 : Cells.wf s2.mem = true := by
        dsimp only [s2]
        (repeat' split) <;> simp [h1]
      simp [h2]

@[simp] theorem State.abortHere_wf (k : TaskKey) (status : Nat) : Cells.wf (s.abortHere k status).mem = true := by
  unfold State.abortHere
  (repeat' split) <;> simp [hm]

@[simp] theorem State.abortTask_wf (k : TaskKey) (status : Nat) : Cells.wf (s.abortTask k status).mem = true := by
  unfold State.abortTask
  (repeat' split) <;> simp [hm]

@[simp] theorem State.failRestore_wf (k : TaskKey) (status : Nat) : Cells.wf (s.failRestore k status).mem = true := by
  simp [State.failRestore, hm]

@[simp] theorem State.takeSpare_wf (l p q : Nat) (full : Bool) : Cells.wf (s.takeSpare l p q full).mem = true := by
  unfold State.takeSpare
  split <;> simp [hm]

@[simp] theorem State.rotation_wf (p : Nat) : Cells.wf (s.rotation p).mem = true := by
  unfold State.rotation
  (repeat' split) <;> simp [hm]

@[simp] theorem State.spareGone_wf (p : Nat) : Cells.wf (s.spareGone p).mem = true := by
  unfold State.spareGone
  repeat' (first | split | dsimp only)
  all_goals simp [hm]

@[simp] theorem State.suspectRows_wf (p : Nat) (t : Option Nat) : Cells.wf (s.suspectRows p t).mem = true := by
  unfold State.suspectRows
  repeat' (first | split | dsimp only)
  all_goals simp [hm]

@[simp] theorem State.charge_wf (kind index cause : Nat) : Cells.wf (s.charge kind index cause).mem = true := by
  unfold State.charge
  (repeat' split) <;> simp [hm]

@[simp] theorem State.chargeCluster_wf (l cause : Nat) : Cells.wf (s.chargeCluster l cause).mem = true := by
  unfold State.chargeCluster
  split <;> simp [hm]

@[simp] theorem State.chargeTile_wf (l lt cause : Nat) : Cells.wf (s.chargeTile l lt cause).mem = true := by
  unfold State.chargeTile
  split <;> simp [hm]

@[simp] theorem State.chargeWord_wf (a : Nat) : Cells.wf (s.chargeWord a).mem = true := by
  unfold State.chargeWord
  (repeat' split) <;> simp [hm]

@[simp] theorem State.poisonWord_wf (a : Nat) : Cells.wf (s.poisonWord a).mem = true := by
  unfold State.poisonWord
  repeat' (first | split | dsimp only)
  all_goals simp [hm]

@[simp] theorem State.latchFault_wf (x : Site) (kind : FaultKind) (module addr : Nat) : Cells.wf (s.latchFault x kind module addr).mem = true := by
  unfold State.latchFault
  split <;> simp [hm]

@[simp] theorem State.entryFault_wf (x : Site) (kind : FaultKind) (module addr : Nat) (more : List (FaultKind × Nat)) :
    Cells.wf (s.entryFault x kind module addr more).mem = true := by
  unfold State.entryFault
  have hall := foldl_wf (fun s f => s.latchFault x f.1 module f.2) (fun t f ht => State.latchFault_wf ht x f.1 module f.2) more
    (State.latchFault_wf hm x kind module addr)
  simp [hall]

theorem State.guard_wf (x : Site) (ev : Ev) (as : List Access) (go : State → State)
    (hgo : ∀ t : State, Cells.wf t.mem = true → Cells.wf (go t).mem = true) : Cells.wf (s.guard x ev as go).mem = true := by
  unfold State.guard
  split
  · simp [hm]
  · split
    · exact hm
    · exact hgo _ (by simp [hm])

/-! ## Operands -/

@[simp] theorem State.putAll_wf (l : Nat) (outs : List (Tensor × Written)) : Cells.wf (s.putAll l outs).mem = true :=
  foldl_wf _ (fun t b ht => by simp [ht, State.put_wf]) _ hm

/-! ## Controls -/

@[simp] theorem State.loseRestore_wf (r : Restore) : Cells.wf (s.loseRestore r).mem = true := by
  unfold State.loseRestore
  split <;> simp [hm]

@[simp] theorem State.graphChanged_wf : Cells.wf s.graphChanged.mem = true := by
  unfold State.graphChanged
  extract_lets live gone lost cop rs fab s1 s2 hub s3 s4 s5
  have h4 : Cells.wf s4.mem = true := by
    simp only [s4, State.dropReads_keeps]
    split <;> simp [s3, s2, s1, hm]
  have h5 : Cells.wf s5.mem = true := foldl_wf _ (fun t f ht => by simp [ht]) _ h4
  exact foldl_wf _ (fun t r ht => by simp [ht]) _ h5

@[simp] theorem State.linkGone_wf (p : Nat) (was : Port) : Cells.wf (s.linkGone p was).mem = true := by
  unfold State.linkGone
  split <;> simp [hm]

@[simp] theorem State.downPort_wf (p : Nat) : Cells.wf (s.downPort p).mem = true := by
  simp [State.downPort, hm]

@[simp] theorem State.retrainPort_wf (p : Nat) : Cells.wf (s.retrainPort p).mem = true := by
  simp [State.retrainPort, hm]

@[simp] theorem State.hdgCmd_wf (v : Word) : Cells.wf (s.hdgCmd v).mem = true := by
  unfold State.hdgCmd
  (repeat' split) <;> simp [hm]

theorem State.clearedMem_wf : Cells.wf s.clearedMem = true :=
  Cells.wf_zero (Cells.wf_zero (Cells.wf_foldl _ (fun _ _ h => Cells.wf_foldl _ (fun _ _ h => Cells.wf_zero h _ _) _ h) _ hm) _ _) _ _

@[simp] theorem State.dropAll_wf : Cells.wf s.dropAll.mem = true :=
  State.clearedMem_wf hm

@[simp] theorem State.moduleReset_wf : Cells.wf s.moduleReset.mem = true := by
  simp [State.moduleReset, hm]

@[simp] theorem State.haltWith_wf (cause : Nat) : Cells.wf (s.haltWith cause).mem = true := by
  simp [State.haltWith, hm]

@[simp] theorem State.leaveService_wf : Cells.wf s.leaveService.mem = true := by
  unfold State.leaveService
  split <;> simp [hm]

@[simp] theorem State.recheck_wf (worst : List (Nat × Nat)) : Cells.wf (s.recheck worst).mem = true := by
  unfold State.recheck
  split
  · simp [hm]
  · exact foldl_wf _ (fun t w ht => by simp [ht]) _ hm

@[simp] theorem State.recheckCmd_wf : Cells.wf s.recheckCmd.mem = true := by
  unfold State.recheckCmd
  split <;> simp [hm]

@[simp] theorem State.tstCmd_wf (v : Word) : Cells.wf (s.tstCmd v).mem = true := by
  unfold State.tstCmd
  split <;> simp [hm]

@[simp] theorem State.rotateOut_wf (p : Nat) : Cells.wf (s.rotateOut p).mem = true := by
  unfold State.rotateOut
  split <;> simp [hm]

@[simp] theorem State.tuneCmd_wf (v : Word) : Cells.wf (s.tuneCmd v).mem = true := by
  unfold State.tuneCmd
  repeat' (first | split | dsimp only)
  all_goals simp [hm]

@[simp] theorem State.snap_wf (domain : Bool) : Cells.wf (s.snap domain).mem = true := by
  unfold State.snap
  split
  · exact hm
  · extract_lets c id rec a dst ok s1 ctr s2
    have h2 : Cells.wf s2.mem = true := by
      dsimp only [s2, s1]
      split <;> exact hm
    split
    · exact h2
    · split
      · simp [h2]
      · exact foldl_wf _ (fun t p ht => by simp [ht]) _ h2

@[simp] theorem State.ctrCmd_wf (v : Word) : Cells.wf (s.ctrCmd v).mem = true := by
  unfold State.ctrCmd
  (repeat' split) <;> simp [hm]

/-! ## Words -/

@[simp] theorem State.writeReg_wf (r : Reg) (v : Word) (ctx : Nat) : Cells.wf (s.writeReg r v ctx).mem = true := by
  unfold State.writeReg
  (repeat' split) <;> simp [hm]

/-! ## MemoryOps -/

@[simp] theorem State.landWrite_wf (w : HeldWrite) : Cells.wf (s.landWrite w).mem = true := by
  unfold State.landWrite
  (repeat' split) <;> simp [hm, State.store_wf, State.softStore_wf]

@[simp] theorem State.memWrite_wf (w : HeldWrite) : Cells.wf (s.memWrite w).mem = true := by
  unfold State.memWrite
  split <;> simp [hm]

@[simp] theorem State.windowStore_wf (dst : Nat) (bytes : List Byte) : Cells.wf (s.windowStore dst bytes).mem = true :=
  foldl_wf _ (fun t b ht => by simp [ht]) _ hm

@[simp] theorem State.landWrites_wf : Cells.wf s.landWrites.mem = true :=
  foldl_wf _ (fun t b ht => by simp [ht]) _ hm

@[simp] theorem State.poisonWords_wf (page : Nat) (bad : List Nat) : Cells.wf (s.poisonWords page bad).mem = true :=
  foldl_wf _ (fun t b ht => by simp [ht]) _ hm

@[simp] theorem State.poisonAll_wf (bad : List Nat) : Cells.wf (s.poisonAll bad).mem = true :=
  foldl_wf _ (fun t b ht => by simp [ht]) _ hm

@[simp] theorem State.faultMove_wf (page : Nat) (f : Frame) : Cells.wf (s.faultMove page f).mem = true := by
  unfold State.faultMove
  refine State.charge_wf ?_ _ _ _
  exact hm

@[simp] theorem State.applyDelta_wf (p : Pkt) : Cells.wf (s.applyDelta p).mem = true := by
  unfold State.applyDelta
  split
  · simp [hm]
  · split
    · extract_lets reject s1 sol s2
      have h2 : Cells.wf s2.mem = true := s.store_wf _ hm
      simp [h2, State.store_wf]
    · simp [hm]

@[simp] theorem State.applyPending_wf (base off : Nat) (xs : List (Nat × Nat)) : Cells.wf (State.applyPending base off xs s).mem = true := by
  induction xs generalizing off s with
  | nil => exact hm
  | cons x xs ih =>
    refine ih ?_ _
    split
    · exact State.applyDelta_wf hm _
    · exact hm

/-! ## Requests -/

@[simp] theorem State.flushRing_wf (n status : Nat) : Cells.wf (s.flushRing n status).mem = true := by
  unfold State.flushRing
  exact foldl_wf _ (fun t i ht => by simp [ht]) _ hm

@[simp] theorem State.resetTask_wf (k : TaskKey) : Cells.wf (s.resetTask k).mem = true := by
  simp [State.resetTask, hm]

theorem State.foldl_flushRing_wf (rs : List (Nat × Ring)) (status : Nat) :
    Cells.wf (rs.foldl (fun s r => s.flushRing r.1 status) s).mem = true := by
  induction rs generalizing s with
  | nil => exact hm
  | cons r rs ih =>
    rw [List.foldl_cons]
    exact ih (State.flushRing_wf hm r.1 status)

@[simp] theorem State.resetHere_wf (n : Nat) : Cells.wf (s.resetHere n).mem = true := by
  unfold State.resetHere
  extract_lets s1 s2 s3 s4
  have h1 : Cells.wf s1.mem = true := foldl_wf _ (fun t k ht => by simp [ht]) _ hm
  have h2 : Cells.wf s2.mem = true := State.foldl_flushRing_wf h1 _ _
  have h3 : Cells.wf s3.mem = true := foldl_wf _ (fun t p ht => State.endPkt_wf ht p _ _ _) _ h2
  exact State.freeHelds_wf h3 _

@[simp] theorem State.resetDomain_wf (n : Nat) (use : HubUse) : Cells.wf (s.resetDomain n use).1.mem = true :=
  foldl_wf _ (fun t m ht => by simp [ht]) _ (State.resetHere_wf hm n)

@[simp] theorem State.dropJob_wf (j : Job) : Cells.wf (s.dropJob j).mem = true := by
  unfold State.dropJob
  extract_lets ls s1 s2
  have h2 : Cells.wf s2.mem = true := foldl_wf _ (fun t l ht => State.zeroStores_wf ht l) _ (State.freeHelds_wf hm _)
  exact Cells.wf_foldl _ (fun m p h => Cells.wf_zero h _ _) _ h2

@[simp] theorem State.doorbell_wf (n : Nat) (v : Word) (tail cq : Bool) : Cells.wf (s.doorbell n v tail cq).mem = true := by
  simp [State.doorbell, hm, State.storeHdm_wf]

/-! ## Coppice -/

@[simp] theorem State.finishRestore_wf (j : Job) (r : Restore) : Cells.wf (s.finishRestore j r).1.mem = true := by
  simp [State.finishRestore, hm, State.store_wf]

/-! ## Packets -/

@[simp] theorem State.doNop_wf (p : Pkt) : Cells.wf (s.doNop p).mem = true := by
  simp [State.doNop, hm]

@[simp] theorem State.landData_wf (p : Pkt) : Cells.wf (s.landData p).mem = true := by
  unfold State.landData
  repeat' (first | split | dsimp only)
  all_goals simp [hm, State.softStore_wf]

@[simp] theorem State.doData_wf (p : Pkt) : Cells.wf (s.doData p).mem = true := by
  unfold State.doData
  (repeat' split) <;> simp [hm]

@[simp] theorem State.doRead_wf (p : Pkt) (ev : Ev) : Cells.wf (s.doRead p ev).mem = true := by
  unfold State.doRead
  split
  · exact hm
  · split
    · simp [hm]
    · extract_lets n s1 bytes dst s2 hit s3 ws s4
      have h1 : Cells.wf s1.mem = true := by
        simp only [s1, State.corrected_keeps]
        exact foldl_wf _ (fun t a ht => State.poisonWord_wf ht a) _ hm
      split
      · exact hm
      · split
        · simp [s3, s2, h1]
        · split
          · simp [h1]
          · exact foldl_wf _ (fun t w ht => by simp [ht]) _ h1

@[simp] theorem State.doUnload_wf (p : Pkt) : Cells.wf (s.doUnload p).mem = true := by
  unfold State.doUnload
  (repeat' split) <;> simp [hm]

@[simp] theorem State.doCtlWrite_wf (p : Pkt) : Cells.wf (s.doCtlWrite p).mem = true := by
  unfold State.doCtlWrite
  repeat' (first | split | dsimp only)
  all_goals simp [hm]

@[simp] theorem State.doCtlRead_wf (p : Pkt) : Cells.wf (s.doCtlRead p).mem = true := by
  unfold State.doCtlRead
  repeat' (first | split | dsimp only)
  all_goals simp [hm]

@[simp] theorem State.doDelta_wf (p : Pkt) : Cells.wf (s.doDelta p).mem = true := by
  unfold State.doDelta
  (repeat' split) <;> simp [hm, State.store_wf]

@[simp] theorem State.doRestore_wf (p : Pkt) (ev : Ev) : Cells.wf (s.doRestore p ev).mem = true := by
  unfold State.doRestore
  split
  · split
    · split
      · (repeat' split) <;> simp [hm]
      · split
        · exact hm
        · have h1 := fun j r => State.poisonAll_wf (State.finishRestore_wf hm j r) ev.bad
          dsimp only
          split <;> simp [h1]
    · simp [hm]
  · simp [hm]

@[simp] theorem State.doContextReset_wf (p : Pkt) : Cells.wf (s.doContextReset p).mem = true := by
  unfold State.doContextReset
  dsimp only
  (repeat' split) <;> simp [hm]

@[simp] theorem State.doRingOpen_wf (p : Pkt) : Cells.wf (s.doRingOpen p).mem = true := by
  unfold State.doRingOpen
  repeat' (first | split | dsimp only)
  all_goals simp [hm]

@[simp] theorem State.doRingClose_wf (p : Pkt) : Cells.wf (s.doRingClose p).mem = true := by
  unfold State.doRingClose
  repeat' (first | split | dsimp only)
  all_goals simp [hm]

@[simp] theorem State.leaveMinimal_wf : Cells.wf s.leaveMinimal.mem = true := by
  unfold State.leaveMinimal
  split <;> simp [hm]

@[simp] theorem State.doFwImage_wf (p : Pkt) (img : ImageIn) : Cells.wf (s.doFwImage p img).mem = true := by
  unfold State.doFwImage
  repeat' (first | split | dsimp only)
  all_goals simp [hm]

/-! ## Tasks -/

@[simp] theorem State.writeRec_wf (j : Job) : Cells.wf (s.writeRec j).mem = true := by
  unfold State.writeRec
  split <;> simp [hm]

@[simp] theorem State.updRec_wf (j : Job) (f : StepRec → StepRec) : Cells.wf (s.updRec j f).mem = true := by
  unfold State.updRec
  split <;> simp [hm]

@[simp] theorem State.startTask_wf (p : Pkt) (j : Job) (d : TaskDesc) (t : Task) (lender : Option Nat) :
    Cells.wf (s.startTask p j d t lender).mem = true := by
  unfold State.startTask
  extract_lets ls s1 s2 s3 s4 hub s5 s6
  have h2 : Cells.wf s2.mem = true := foldl_wf _ (fun t l ht => by simp [ht]) _ (State.freeHelds_wf hm _)
  have h3 : Cells.wf s3.mem = true := foldl_wf _ (fun t q ht => by simp [ht]) _ h2
  have h6 : Cells.wf s6.mem = true := by
    dsimp only [s6]
    split <;> simp [s5, s4, h3]
  split <;> simp [h6, State.store_wf]

@[simp] theorem State.doRun_wf (p : Pkt) : Cells.wf (s.doRun p).mem = true := by
  unfold State.doRun
  repeat' (first | split | dsimp only)
  all_goals simp [hm]

@[simp] theorem State.doSuspend_wf (p : Pkt) : Cells.wf (s.doSuspend p).mem = true := by
  unfold State.doSuspend
  (repeat' split) <;> simp [hm]

@[simp] theorem State.restoreCluster_wf (k : TaskKey) (x : Saved) : Cells.wf (s.restoreCluster k x).mem = true := by
  unfold State.restoreCluster
  repeat' (first | split | dsimp only)
  all_goals simp [hm]

@[simp] theorem State.doResume_wf (p : Pkt) : Cells.wf (s.doResume p).mem = true := by
  unfold State.doResume
  split
  · exact hm
  · split
    · split
      · simp [hm]
      · simp only [State.updTask_keeps]
        exact foldl_wf _ (fun t x ht => by simp [ht]) _ hm
    · simp [hm]

/-! ## LoadPlace -/

@[simp] theorem State.landJob_wf (b : Back) (cs : List Cassette) (items : List (Nat × List Byte)) : Cells.wf (s.landJob b cs items).mem = true :=
  Cells.wf_writeAll (Cells.wf_foldl _ (fun _ _ h => Cells.wf_zero h _ _) _ hm) _

theorem State.placeJob_wf {p : Pkg} {cs : List Cassette} {r : State × Back} (h : s.placeJob p cs = .ok r) : Cells.wf r.1.mem = true := by
  unfold State.placeJob at h
  obtain ⟨_, -, h⟩ := Ld.bind_ok h
  obtain ⟨b, -, h⟩ := Ld.bind_ok h
  obtain ⟨_, -, h⟩ := Ld.bind_ok h
  cases h
  exact State.landJob_wf hm _ _ _

/-! ## Loading -/

@[simp] theorem State.writeLs_wf (j : Job) (e : ℤ) : Cells.wf (s.writeLs j e).mem = true := by
  unfold State.writeLs
  (repeat' split) <;> simp [hm, State.put_wf]

@[simp] theorem State.initJob_wf (j : Job) : Cells.wf (s.initJob j).mem = true := by
  unfold State.initJob
  extract_lets recs gl s1 s2 s3 j' hub s4 s5
  have h2 : Cells.wf s2.mem = true := State.store_wf _ _ hm
  have h3 : Cells.wf s3.mem = true := State.store_wf _ _ h2
  have h5 : Cells.wf s5.mem = true := by
    dsimp only [s5]
    split <;> simp [s4, h3, State.store_wf]
  split <;> simp [h5]

theorem State.load_wf {ctx handle : Nat} {pay : List Byte} {r : State × Job × Back} (h : s.load ctx handle pay = .ok r) :
    Cells.wf r.1.mem = true := by
  unfold State.load at h
  obtain ⟨p, -, h⟩ := Ld.bind_ok h
  obtain ⟨b, hb, h⟩ := Ld.bind_ok h
  obtain ⟨j, -, h⟩ := Ld.bind_ok h
  dsimp only at h
  obtain ⟨_, -, h⟩ := Ld.bind_ok h
  obtain ⟨j2, -, h⟩ := Ld.bind_ok h
  obtain ⟨_, -, h⟩ := Ld.bind_ok h
  obtain ⟨g, -, h⟩ := Ld.bind_ok h
  cases h
  refine State.initJob_wf ?_ _
  exact State.store_wf _ _ (State.placeJob_wf hm hb)

@[simp] theorem State.doLoad_wf (p : Pkt) : Cells.wf (s.doLoad p).mem = true := by
  unfold State.doLoad
  split
  · exact hm
  · split
    · simp [hm]
    · split
      · simp [hm]
      · split
        · simp [hm]
        · rename_i s' j b hload
          have hload := State.load_wf hm hload
          extract_lets rep dst local' s1 far1 far2 s2
          have h1 : Cells.wf s1.mem = true := by
            dsimp only [s1]
            split <;> simp [hload]
          split
          · simp [hm]
          · split
            · simp [hm]
            · split
              · exact hm
              · split
                · simp [h1]
                · exact foldl_wf _ (fun t w ht => by simp [ht]) _ h1

/-! ## Attestation -/

@[simp] theorem State.doAttest_wf (p : Pkt) (secs : Nat) (flashOk : Bool) : Cells.wf (s.doAttest p secs flashOk).mem = true := by
  unfold State.doAttest
  repeat' (first | split | dsimp only)
  all_goals simp [hm]

/-! ## Boundaries -/

@[simp] theorem State.moveTo_wf (l p q : Nat) (full tune : Bool) : Cells.wf (s.moveTo l p q full tune).mem = true := by
  unfold State.moveTo
  (repeat' split) <;> simp [hm]

@[simp] theorem State.migrate_wf (l : Nat) : Cells.wf (s.migrate l).mem = true := by
  unfold State.migrate
  repeat' (first | split | dsimp only)
  all_goals simp [hm]

@[simp] theorem State.allSaved_wf (k : TaskKey) : Cells.wf (s.allSaved k).mem = true := by
  unfold State.allSaved
  (repeat' split) <;> simp [hm]

@[simp] theorem State.saveState_wf (k : TaskKey) (l : Nat) : Cells.wf (s.saveState k l).mem = true := by
  unfold State.saveState
  repeat' (first | split | dsimp only)
  all_goals simp [hm]

@[simp] theorem State.saveCluster_wf (l : Nat) : Cells.wf (s.saveCluster l).mem = true := by
  unfold State.saveCluster
  repeat' (first | split | dsimp only)
  all_goals simp [hm]

/-! ## Commits -/

@[simp] theorem State.barWrite_wf (off bytes : Nat) (value : Word) : Cells.wf (s.barWrite off bytes value).mem = true := by
  unfold State.barWrite
  (repeat' split) <;> simp [hm]

/-! ## HostLink -/

@[simp] theorem State.ringBell_wf (n : Nat) (v : Word) (enables : Nat) (poison : Bool) : Cells.wf (s.ringBell n v enables poison).mem = true := by
  unfold State.ringBell
  repeat' (first | split | dsimp only)
  all_goals simp [hm, State.store_wf]

@[simp] theorem State.take_wf (n : Nat) : Cells.wf (s.take n).mem = true := by
  unfold State.take
  repeat' (first | split | dsimp only)
  all_goals simp [hm]

@[simp] theorem State.hostWrite_wf (o : Nat) (bytes : List Byte) (enables : List Bool) (poison : Bool) :
    Cells.wf (s.hostWrite o bytes enables poison).mem = true := by
  unfold State.hostWrite
  split
  · exact hm
  · exact hm
  · refine foldl_wf _ (fun t k ht => ?_) _ hm
    dsimp only
    split <;> simp [ht]
  · split
    · exact hm
    · exact foldl_wf _ (fun t r ht => by simp [ht]) _ hm

/-! ## FabricOps -/

@[simp] theorem State.fabWrite_wf (rx : Rx) (addr : Nat) (bytes : List Byte) : Cells.wf (s.fabWrite rx addr bytes).mem = true := by
  unfold State.fabWrite
  split <;> simp [hm]

@[simp] theorem State.fabRead_wf (rx : Rx) (addr n : Nat) (ev : Ev) : Cells.wf (s.fabRead rx addr n ev).mem = true := by
  unfold State.fabRead
  split
  · exact hm
  · split
    · simp [hm]
    · extract_lets bad s1
      have h1 : Cells.wf s1.mem = true := by
        simp only [s1, State.corrected_keeps]
        exact foldl_wf _ (fun t a ht => State.poisonWord_wf ht a) _ hm
      split <;> simp [h1]

@[simp] theorem State.setDrlOf_wf (k : TaskKey) (l : Nat) (d : Drl) : Cells.wf (s.setDrlOf k l d).mem = true := by
  unfold State.setDrlOf
  split <;> simp [hm]

@[simp] theorem State.takeSignal_wf (rx : Rx) (l ctr : Nat) (gen : Bool) (inc : Nat) : Cells.wf (s.takeSignal rx l ctr gen inc).mem = true := by
  unfold State.takeSignal
  (repeat' split) <;> simp [hm]

@[simp] theorem State.runPacket_wf (p : Pkt) (f : PktFind) : Cells.wf (s.runPacket p f).mem = true := by
  unfold State.runPacket
  iterate 17 refine keeps_ite (K := fun t => Cells.wf t.mem = true) (by simp [hm]) ?_
  simp [hm]

@[simp] theorem State.takeForward_wf (rx : Rx) (pid : Nat) (words : List Word) (pay : List Byte) (f : PktFind) :
    Cells.wf (s.takeForward rx pid words pay f).mem = true := by
  unfold State.takeForward
  repeat' (first | split | dsimp only)
  all_goals simp [hm]

@[simp] theorem State.endForward_wf (f : Fwd) (e : PktEnd) : Cells.wf (s.endForward f e).mem = true := by
  simp [State.endForward, hm]

@[simp] theorem State.packetAck_wf (pid : Nat) : Cells.wf (s.packetAck pid).mem = true := by
  unfold State.packetAck
  (repeat' split) <;> simp [hm]

@[simp] theorem State.takeAck_wf (rx : Rx) (e : Option PktEnd) : Cells.wf (s.takeAck rx e).mem = true := by
  unfold State.takeAck
  repeat' (first | split | dsimp only)
  all_goals simp [hm]

@[simp] theorem State.hubNack_wf (u : HubUse) : Cells.wf (s.hubNack u).mem = true := by
  unfold State.hubNack
  (repeat' split) <;> simp [hm]

@[simp] theorem State.entryNack_wf (rx : Rx) (r : Req) (reason : Nat) : Cells.wf (s.entryNack rx r reason).mem = true := by
  unfold State.entryNack
  repeat' (first | split | dsimp only)
  all_goals simp [hm]

@[simp] theorem State.takeNack_wf (rx : Rx) (reason : Nat) : Cells.wf (s.takeNack rx reason).mem = true := by
  unfold State.takeNack
  (repeat' split) <;> simp [hm]

@[simp] theorem State.flitReplay_wf (p : Nat) : Cells.wf (s.flitReplay p).mem = true := by
  unfold State.flitReplay
  repeat' (first | split | dsimp only)
  all_goals simp [hm]

/-! ## Topology -/

@[simp] theorem State.newGraph_wf (g : Graph) : Cells.wf (s.newGraph g).mem = true := by
  simp [State.newGraph, hm]

@[simp] theorem State.linkUp_wf (p : Nat) : Cells.wf (s.linkUp p).mem = true := by
  unfold State.linkUp
  repeat' (first | split | dsimp only)
  all_goals simp [hm]

@[simp] theorem State.takeFlood_wf (rx : Rx) (g : Graph) (b : Body) : Cells.wf (s.takeFlood rx g b).mem = true := by
  unfold State.takeFlood
  split <;> simp [hm]

@[simp] theorem State.install_wf : Cells.wf s.install.mem = true := by
  simp [State.install, hm]

@[simp] theorem State.takeDrained_wf (m : Nat) : Cells.wf (s.takeDrained m).mem = true := by
  unfold State.takeDrained
  repeat' (first | split | dsimp only)
  all_goals simp [hm]

@[simp] theorem State.failPort_wf (p : Nat) : Cells.wf (s.failPort p).mem = true := by
  simp [State.failPort, hm]

@[simp] theorem State.engineFails_wf (group engine : Nat) : Cells.wf (s.engineFails group engine).mem = true := by
  unfold State.engineFails
  dsimp only
  split
  · exact hm
  · split
    · exact foldl_wf _ (fun t p ht => State.retrainPort_wf ht p) _ (by simp [hm])
    · simp only [State.drain_keeps]
      exact foldl_wf _ (fun t p ht => State.failPort_wf ht p) _ hm

@[simp] theorem State.takeChunk_wf (rx : Rx) (seq chunk : Nat) (bytes : List Byte) (img : ImageIn) :
    Cells.wf (s.takeChunk rx seq chunk bytes img).mem = true := by
  unfold State.takeChunk
  repeat' (first | split | dsimp only)
  all_goals simp [hm]

end

end Sys2Proof.Machine
end

section
/-!
Proof, canonical memory, continued: the entries of a Cassette.
-/

namespace Sys2Proof.Machine

section
variable {s : State} (hm : Cells.wf s.mem = true)
include hm

/-! ## Derailleur -/

@[simp] theorem State.complete_wf (x : Site) : Cells.wf (s.complete x).mem = true := by
  unfold State.complete
  repeat' (first | split | dsimp only)
  all_goals simp [hm]

@[simp] theorem State.issue_wf (l : Nat) (k : Deck) (i : Nat) (e : Entry) : Cells.wf (s.issue l k i e).mem = true := by
  unfold State.issue
  extract_lets f occ s1 s2 s3 step s4 s5
  have h4 : Cells.wf s4.mem = true := by simp [s4, s3, s2, s1, hm]
  have h5 : Cells.wf s5.mem = true := by
    refine foldl_wf _ (fun t u ht => ?_) _ h4
    split
    · refine foldl_wf _ (fun r i hr => ?_) _ ht
      split <;> simp [hr]
    · simp [ht]
  split <;> simp [h5]

@[simp] theorem State.stepDecide_wf (l : Nat) : Cells.wf (s.stepDecide l).mem = true := by
  unfold State.stepDecide
  repeat' (first | split | dsimp only)
  all_goals simp [hm]

@[simp] theorem State.doCtlEntry_wf (x : Site) : Cells.wf (s.doCtlEntry x).mem = true := by
  unfold State.doCtlEntry
  split <;> simp [hm]

@[simp] theorem State.doIterEnd_wf (x : Site) : Cells.wf (s.doIterEnd x).mem = true := by
  unfold State.doIterEnd
  repeat' (first | split | dsimp only)
  all_goals simp [hm]

@[simp] theorem State.taskDone_wf (k : TaskKey) : Cells.wf (s.taskDone k).mem = true := by
  unfold State.taskDone
  repeat' (first | split | dsimp only)
  all_goals simp [hm, State.store_wf]

@[simp] theorem State.doHalt_wf (x : Site) : Cells.wf (s.doHalt x).mem = true := by
  unfold State.doHalt
  repeat' (first | split | dsimp only)
  all_goals simp [hm]

/-! ## Matrix -/

@[simp] theorem State.chargeOtiles_wf (x : Site) (ts : List OTile) : Cells.wf (s.chargeOtiles x ts).mem = true := by
  refine foldl_wf _ (fun t o ht => ?_) _ hm
  dsimp only
  split <;> simp [ht]

@[simp] theorem State.tileFault_wf (x : Site) (ts : List OTile) : Cells.wf (s.tileFault x ts).mem = true := by
  simp [State.tileFault, hm]

@[simp] theorem State.productOut_wf (x : Site) (d : Tensor) (ch : Option Chain) (ts : List OTile) : Cells.wf (s.productOut x d ch ts).mem = true := by
  unfold State.productOut
  extract_lets o flags s1 s2 s3 s4
  have h1 : Cells.wf s1.mem = true := foldl_wf _ (fun t q ht => by simp [ht]) _ hm
  have h2 : Cells.wf s2.mem = true := by simp [s2, h1]
  simp [s4, s3, h2]

@[simp] theorem State.productBody_wf (x : Site) (ev : Ev) (a b d : Tensor) (ch : Option Chain) :
    Cells.wf (s.productBody x ev a b d ch).mem = true := by
  unfold State.productBody
  repeat' (first | split | dsimp only)
  all_goals simp [hm]

@[simp] theorem State.runProduct_wf (x : Site) (ev : Ev) : Cells.wf (s.runProduct x ev).mem = true := by
  unfold State.runProduct
  split
  · exact State.guard_wf hm _ _ _ _ (fun t ht => by simp [ht])
  · exact hm

@[simp] theorem State.gramBody_wf (x : Site) (ev : Ev) (t : Slot) (a : Tensor) : Cells.wf (s.gramBody x ev t a).mem = true := by
  unfold State.gramBody
  repeat' (first | split | dsimp only)
  all_goals simp [hm, State.store_wf]

@[simp] theorem State.runGramEntry_wf (x : Site) (ev : Ev) : Cells.wf (s.runGramEntry x ev).mem = true := by
  unfold State.runGramEntry
  split
  · split
    · simp [hm]
    · exact State.guard_wf hm _ _ _ _ (fun t ht => by simp [ht])
  · exact hm

/-! ## Vector -/

@[simp] theorem State.chainBody_wf (x : Site) (ch : Chain) (a d : Tensor) (b : Option Tensor) : Cells.wf (s.chainBody x ch a d b).mem = true := by
  simp [State.chainBody, hm]

@[simp] theorem State.runChainEntry_wf (x : Site) (ev : Ev) : Cells.wf (s.runChainEntry x ev).mem = true := by
  unfold State.runChainEntry
  split
  · exact State.guard_wf hm _ _ _ _ (fun t ht => by simp [ht])
  · exact hm

@[simp] theorem State.reduceBody_wf (x : Site) (r : RedDesc) (a d : Tensor) : Cells.wf (s.reduceBody x r a d).mem = true := by
  simp [State.reduceBody, hm]

@[simp] theorem State.runReduce_wf (x : Site) (ev : Ev) : Cells.wf (s.runReduce x ev).mem = true := by
  unfold State.runReduce
  split
  · exact State.guard_wf hm _ _ _ _ (fun t ht => by simp [ht])
  · exact hm

/-! ## Cycle -/

@[simp] theorem State.factorOne_wf (l : Nat) (j : Job) (slot b : Nat) (a : BMat) : Cells.wf (s.factorOne l j slot b a).1.mem = true := by
  unfold State.factorOne
  split
  · exact hm
  · dsimp only
    split <;> simp [hm, State.store_wf]

@[simp] theorem State.updProb_wf (b : Blk) (n : Nat) (f : SolProb → SolProb) : Cells.wf (s.updProb b n f).mem = true := by
  simp [State.updProb, hm, State.store_wf]

@[simp] theorem State.updLarge_wf (g : SolLarge) (n : Nat) (f : SolProb → SolProb) : Cells.wf (s.updLarge g n f).mem = true := by
  simp [State.updLarge, hm, State.store_wf]

@[simp] theorem State.warmOne_wf (c : SolClass) (b : Blk) : Cells.wf (s.warmOne c b).mem = true := by
  simp [State.warmOne, hm, State.store_wf]

@[simp] theorem State.factorProb_wf (x : Site) (c : SolClass) (n : Nat) (b : Blk) : Cells.wf (s.factorProb x c n b).mem = true := by
  unfold State.factorProb
  extract_lets k r
  have hr : Cells.wf r.1.mem = true := State.factorOne_wf hm _ _ _ _ _
  simp [hr]

@[simp] theorem State.iterProb_wf (x : Site) (c : SolClass) (n : Nat) (b : Blk) : Cells.wf (s.iterProb x c n b).mem = true := by
  unfold State.iterProb
  repeat' (first | split | dsimp only)
  all_goals simp [hm, State.store_wf]

@[simp] theorem State.checkProb_wf (x : Site) (c : SolClass) (n : Nat) (b : Blk) : Cells.wf (s.checkProb x c n b).mem = true := by
  simp [State.checkProb, hm]

@[simp] theorem State.finishProb_wf (x : Site) (c : SolClass) (n j : Nat) (b : Blk) : Cells.wf (s.finishProb x c n j b).mem = true := by
  simp [State.finishProb, State.store_wf s _ hm]

theorem State.eachProb_wf (x : Site) (p : SolPlan) (k : Nat) (f : State → SolClass → Nat → Nat → Blk → State)
    (hf : ∀ (t : State) c i j b, Cells.wf t.mem = true → Cells.wf (f t c i j b).mem = true) : Cells.wf (s.eachProb x p k f).mem = true := by
  unfold State.eachProb
  split
  · exact foldl_wf _ (fun t j ht => hf t _ _ _ _ ht) _ hm
  · exact hm

theorem State.onLarge_wf (x : Site) (p : SolPlan) (n : Nat) (lead : Bool) (f : State → SolLarge → SolClass → State)
    (hf : ∀ (t : State) g c, Cells.wf t.mem = true → Cells.wf (f t g c).mem = true) : Cells.wf (s.onLarge x p n lead f).mem = true := by
  unfold State.onLarge
  (repeat' split) <;> simp [hm, hf]

@[simp] theorem State.warmPart_wf (l : Nat) (g : SolLarge) (c : SolClass) : Cells.wf (s.warmPart l g c).mem = true := by
  unfold State.warmPart
  (repeat' split) <;> simp [hm, State.store_wf]

@[simp] theorem State.factorPart_wf (x : Site) (n : Nat) (g : SolLarge) (c : SolClass) : Cells.wf (s.factorPart x n g c).mem = true := by
  unfold State.factorPart
  split
  · exact hm
  · extract_lets sig k r
    have hr : Cells.wf r.1.mem = true := State.factorOne_wf hm _ _ _ _ _
    simp [hr]

@[simp] theorem State.iterLarge_wf (x : Site) (n : Nat) (g : SolLarge) (c : SolClass) : Cells.wf (s.iterLarge x n g c).mem = true := by
  unfold State.iterLarge
  repeat' (first | split | dsimp only)
  all_goals simp [hm, State.store_wf]

@[simp] theorem State.checkLarge_wf (x : Site) (n : Nat) (g : SolLarge) (c : SolClass) : Cells.wf (s.checkLarge x n g c).mem = true := by
  simp [State.checkLarge, hm]

@[simp] theorem State.finishLarge_wf (x : Site) (n : Nat) (g : SolLarge) (c : SolClass) : Cells.wf (s.finishLarge x n g c).mem = true := by
  simp [State.finishLarge, State.store_wf s _ hm]

@[simp] theorem State.finishCluster_wf (x : Site) (p : SolPlan) : Cells.wf (s.finishCluster x p).mem = true := by
  refine foldl_wf _ (fun t n ht => ?_) _ (foldl_wf _ (fun t k ht => ?_) _ hm)
  · exact State.onLarge_wf ht _ _ _ _ _ (fun u g c hu => State.finishLarge_wf hu _ _ _ _)
  · exact State.eachProb_wf ht _ _ _ _ (fun u c n j b hu => State.finishProb_wf hu _ _ _ _ _)

@[simp] theorem State.solWork_wf (x : Site) (p : SolPlan) (o : SolOp) : Cells.wf (s.solWork x p o).mem = true := by
  cases o with
  | plain | assemble | assembleL | decide => exact hm
  | solve k =>
    unfold State.solWork
    dsimp only
    split <;> simp [hm]
  | solveL n => exact State.onLarge_wf hm _ _ _ _ _ (fun t g c ht => by simp [ht])
  | warm k => exact State.eachProb_wf hm _ _ _ _ (fun t c n j b ht => State.warmOne_wf ht _ _)
  | factor k => exact State.eachProb_wf hm _ _ _ _ (fun t c n j b ht => State.factorProb_wf ht _ _ _ _)
  | iter k => exact State.eachProb_wf hm _ _ _ _ (fun t c n j b ht => State.iterProb_wf ht _ _ _ _)
  | check k => exact State.eachProb_wf hm _ _ _ _ (fun t c n j b ht => State.checkProb_wf ht _ _ _ _)
  | warmL n => exact State.onLarge_wf hm _ _ _ _ _ (fun t g c ht => State.warmPart_wf ht _ _ _)
  | factorL n => exact State.onLarge_wf hm _ _ _ _ _ (fun t g c ht => State.factorPart_wf ht _ _ _ _)
  | iterL n => exact State.onLarge_wf hm _ _ _ _ _ (fun t g c ht => State.iterLarge_wf ht _ _ _ _)
  | checkL n => exact State.onLarge_wf hm _ _ _ _ _ (fun t g c ht => State.checkLarge_wf ht _ _ _ _)
  | finish => exact State.finishCluster_wf hm _ _

@[simp] theorem State.runSol_wf (x : Site) (o : SolOp) (ev : Ev) : Cells.wf (s.runSol x o ev).mem = true := by
  unfold State.runSol
  split
  · exact State.guard_wf hm _ _ _ _ (fun t ht => by simp [ht])
  · exact hm

/-! ## Curvature -/

@[simp] theorem State.wakeTop_wf (l : Nat) : Cells.wf (s.wakeTop l).mem = true := by
  unfold State.wakeTop
  (repeat' split) <;> simp [hm, State.store_wf]

@[simp] theorem State.topDone_wf (x : Site) : Cells.wf (s.topDone x).mem = true := by
  simp [State.topDone, hm]

@[simp] theorem State.foldBody_wf (q : TopSite) : Cells.wf (s.foldBody q).mem = true := by
  unfold State.foldBody
  repeat' (first | split | dsimp only)
  all_goals simp [hm, State.store_wf]

@[simp] theorem State.runFold_wf (q : TopSite) (ev : Ev) : Cells.wf (s.runFold q ev).mem = true :=
  State.guard_wf hm _ _ _ _ (fun _ ht => State.foldBody_wf ht q)

@[simp] theorem State.exportBody_wf (q : TopSite) (d : Tensor) : Cells.wf (s.exportBody q d).mem = true := by
  simp [State.exportBody, hm]

@[simp] theorem State.runExport_wf (q : TopSite) (ev : Ev) : Cells.wf (s.runExport q ev).mem = true := by
  unfold State.runExport
  split
  · exact State.guard_wf hm _ _ _ _ (fun t ht => by simp [ht])
  · exact hm

@[simp] theorem State.refreshBody_wf (q : TopSite) : Cells.wf (s.refreshBody q).mem = true := by
  unfold State.refreshBody
  extract_lets t step s1 s2 s3 s4 s5
  have h3 : Cells.wf s3.mem = true := by simp [s3, s2, s1, hm, State.store_wf]
  have h4 : Cells.wf s4.mem = true := State.store_wf _ _ h3
  simp [s5, h4, State.store_wf]

@[simp] theorem State.runRefresh_wf (q : TopSite) (ev : Ev) : Cells.wf (s.runRefresh q ev).mem = true := by
  unfold State.runRefresh
  split
  · simp [hm]
  · exact State.guard_wf hm _ _ _ _ (fun t ht => State.refreshBody_wf ht q)

@[simp] theorem State.nextBlock_wf (l : Nat) (t : Slot) (r : Refresh) (o : BlockOut) : Cells.wf (s.nextBlock l t r o).mem = true := by
  simp [State.nextBlock, hm, State.store_wf]

@[simp] theorem State.backgroundFault_wf (k : TaskKey) (l : Nat) (f : FaultKind × Nat) : Cells.wf (s.backgroundFault k l f).mem = true := by
  unfold State.backgroundFault
  split <;> simp [hm]

@[simp] theorem State.background_wf (l : Nat) (ev : Ev) : Cells.wf (s.background l ev).mem = true := by
  unfold State.background
  repeat' (first | split | dsimp only)
  all_goals simp [hm]

@[simp] theorem State.factorBody_wf (q : TopSite) (a : Tensor) : Cells.wf (s.factorBody q a).mem = true := by
  unfold State.factorBody
  extract_lets bs s1
  have h1 : Cells.wf s1.mem = true := foldl_wf _ (fun t b ht => State.factorOne_wf ht _ _ _ _ _) _ hm
  simp [h1]

@[simp] theorem State.runFactor_wf (q : TopSite) (ev : Ev) : Cells.wf (s.runFactor q ev).mem = true := by
  unfold State.runFactor
  split
  · exact State.guard_wf hm _ _ _ _ (fun t ht => by simp [ht])
  · exact hm

@[simp] theorem State.solveBody_wf (q : TopSite) (a d : Tensor) : Cells.wf (s.solveBody q a d).mem = true := by
  simp [State.solveBody, hm]

@[simp] theorem State.runSolve_wf (q : TopSite) (ev : Ev) : Cells.wf (s.runSolve q ev).mem = true := by
  unfold State.runSolve
  split
  · exact State.guard_wf hm _ _ _ _ (fun t ht => by simp [ht])
  · exact hm

/-! ## Movement -/

@[simp] theorem State.streamBody_wf (x : Site) (slot : Nat) (es : List Extent) : Cells.wf (s.streamBody x slot es).mem = true := by
  unfold State.streamBody
  extract_lets n req s1 s2
  have h1 : Cells.wf s1.mem = true := foldl_wf _ (fun t e ht => by simp [ht, State.store_wf]) _ hm
  simp [s2, h1]

@[simp] theorem State.runStream_wf (x : Site) (ev : Ev) : Cells.wf (s.runStream x ev).mem = true := by
  unfold State.runStream
  split
  · split
    · exact State.guard_wf hm _ _ _ _ (fun t ht => State.streamBody_wf ht _ _ _)
    · exact hm
  · exact hm

@[simp] theorem State.copyBody_wf (x : Site) (a d : Tensor) : Cells.wf (s.copyBody x a d).mem = true := by
  simp [State.copyBody, hm]

@[simp] theorem State.runCopy_wf (x : Site) (ev : Ev) : Cells.wf (s.runCopy x ev).mem = true := by
  unfold State.runCopy
  split
  · exact State.guard_wf hm _ _ _ _ (fun t ht => by simp [ht])
  · exact hm

@[simp] theorem State.runSend_wf (x : Site) (ev : Ev) : Cells.wf (s.runSend x ev).mem = true := by
  unfold State.runSend
  split
  · exact State.guard_wf hm _ _ _ _ (fun t ht => by simp [ht])
  · exact hm

/-! ## Groups -/

@[simp] theorem State.keepEarly_wf (k : TaskKey) (l desc occ : Nat) (m : Msg) : Cells.wf (s.keepEarly k l desc occ m).mem = true := by
  unfold State.keepEarly
  (repeat' split) <;> simp [hm]

@[simp] theorem State.finishColl_wf (x : Site) (r : RedDesc) (a d : Tensor) (c : Coll) : Cells.wf (s.finishColl x r a d c).mem = true := by
  unfold State.finishColl
  (repeat' split) <;> simp [hm, State.store_wf]

@[simp] theorem State.settleColl_wf (x : Site) (c : Coll) : Cells.wf (s.settleColl x c).mem = true := by
  unfold State.settleColl
  (repeat' split) <;> simp [hm]

@[simp] theorem State.stagePart_wf (x : Site) (c : Coll) (b : Body) : Cells.wf (s.stagePart x c b).mem = true := by
  unfold State.stagePart
  split <;> simp [hm, State.store_wf]

@[simp] theorem State.stepColl_wf (l desc occ : Nat) (b : Body) : Cells.wf ((s.stepColl l desc occ b).getD s).mem = true := by
  unfold State.stepColl
  cases s.collAt l desc occ <;> simp [hm]

@[simp] theorem State.startColl_wf (x : Site) (r : RedDesc) (a d : Tensor) : Cells.wf (s.startColl x r a d).mem = true := by
  unfold State.startColl
  extract_lets c q s1 s2 s3 e
  have h3 : Cells.wf s3.mem = true := by simp [s3, s2, s1, hm]
  have he : Cells.wf e.1.mem = true := by simp [e, h3]
  refine foldl_wf _ (fun t m ht => ?_) _ he
  exact State.stepColl_wf ht _ _ _ _

@[simp] theorem State.runColl_wf (x : Site) (ev : Ev) : Cells.wf (s.runColl x ev).mem = true := by
  unfold State.runColl
  split
  · exact State.guard_wf hm _ _ _ _ (fun t ht => by simp [ht])
  · exact hm

@[simp] theorem State.writePlaces_wf (x : Site) (e : Exch) : Cells.wf (s.writePlaces x e).1.mem = true := by
  unfold State.writePlaces
  split
  · split
    · exact hm
    · exact State.put_wf _ _ (State.store_wf _ _ hm)
  · exact hm

@[simp] theorem State.settleExch_wf (x : Site) (a d : Tensor) (e : Exch) : Cells.wf (s.settleExch x a d e).mem = true := by
  unfold State.settleExch
  simp [hm]

@[simp] theorem State.stepExch_wf (l desc occ src phase : Nat) (cs : List (Nat × Nat × Nat)) :
    Cells.wf ((s.stepExch l desc occ src phase cs).getD s).mem = true := by
  unfold State.stepExch
  (repeat' split) <;> simp [hm]

@[simp] theorem State.zeroRows_wf (e : Exch) (d : Tensor) : Cells.wf (s.zeroRows e d).mem = true := by
  unfold State.zeroRows
  dsimp only
  split
  · refine foldl_wf _ (fun t p ht => ?_) _ hm
    split <;> simp [ht, State.put_wf]
  · simp [hm, State.put_wf]

@[simp] theorem State.startExch_wf (x : Site) (d : ExchDesc) (p : ShardPlan) (pl a o : Tensor) : Cells.wf (s.startExch x d p pl a o).mem = true := by
  unfold State.startExch
  extract_lets e s1 s2 s3 s4 s5 q
  have h1 : Cells.wf s1.mem = true := State.zeroRows_wf hm _ _
  have h4 : Cells.wf s4.mem = true := by
    refine foldl_wf _ (fun t j ht => ?_) _ ?_
    · simp [ht]
    · simp [s3, s2, h1]
  have h5 : Cells.wf s5.mem = true := State.settleExch_wf h4 _ _ _ _
  have hq : Cells.wf q.1.mem = true := by simp [q, h5]
  refine foldl_wf _ (fun t m ht => ?_) _ hq
  split
  · exact State.stepExch_wf ht _ _ _ _ _ _
  · exact ht

@[simp] theorem State.runExch_wf (x : Site) (ev : Ev) : Cells.wf (s.runExch x ev).mem = true := by
  unfold State.runExch
  split
  · split
    · exact State.guard_wf hm _ _ _ _ (fun t ht => by simp [ht])
    · exact hm
  · exact hm

/-! ## Parameters -/

@[simp] theorem State.optOut_wf (q : OptSite) (m : Mv) (p : Option (Mat × Mat × List TileMul)) : Cells.wf (s.optOut q m p).mem = true := by
  unfold State.optOut
  extract_lets s1 n s2
  have h1 : Cells.wf s1.mem = true := foldl_wf _ (fun t w ht => State.put_wf t w ht) _ hm
  simp [s2, h1]

@[simp] theorem State.optBody_wf (q : OptSite) (ev : Ev) : Cells.wf (s.optBody q ev).mem = true := by
  unfold State.optBody
  repeat' (first | split | dsimp only)
  all_goals simp [hm]

@[simp] theorem State.wcMismatch_wf (l : Nat) (j : Job) : Cells.wf (s.wcMismatch l j).mem = true := by
  simp [State.wcMismatch, hm]

@[simp] theorem State.checkCopy_wf (l idx row col : Nat) (seen : Option Nat) : Cells.wf (s.checkCopy l idx row col seen).mem = true := by
  unfold State.checkCopy
  repeat' (first | split | dsimp only)
  all_goals simp [hm]

@[simp] theorem State.endPrev_wf (j : Job) (p : ParamPlan) (step : Nat) : Cells.wf (s.endPrev j p step).mem = true := by
  unfold State.endPrev
  (repeat' split) <;> simp [hm]

@[simp] theorem State.logWrite_wf (j : Job) (p : ParamPlan) (l step : Nat) (bs : List Byte) : Cells.wf (s.logWrite j p l step bs).mem = true := by
  simp [State.logWrite, hm]

@[simp] theorem State.streamFault_wf (x : DStream) (f : FaultKind × Nat) : Cells.wf (s.streamFault x f).mem = true := by
  unfold State.streamFault
  repeat' (first | split | dsimp only)
  all_goals simp [hm]

@[simp] theorem State.streamPair_wf (x : DStream) (j : Job) (p : ParamPlan) (c u : Tensor) (sec : Nat) :
    Cells.wf (s.streamPair x j p c u sec).mem = true := by
  unfold State.streamPair
  extract_lets s1 s2
  have h2 : Cells.wf s2.mem = true := foldl_wf _ (fun t r ht => by simp [ht]) _ (by simp [s1, hm])
  simp [h2]

@[simp] theorem State.streamNext_wf (x : DStream) (ev : Ev) : Cells.wf (s.streamNext x ev).mem = true := by
  unfold State.streamNext
  (repeat' split) <;> simp [hm]

/-! ## Expiries -/

@[simp] theorem State.entryExpired_wf (l : Nat) : Cells.wf (s.entryExpired l).mem = true := by
  unfold State.entryExpired
  (repeat' split) <;> simp [hm]

@[simp] theorem State.abandonBlock_wf (l : Nat) (t : Slot) (b : Nat) : Cells.wf (s.abandonBlock l t b).mem = true := by
  simp [State.abandonBlock, hm, State.store_wf]

@[simp] theorem State.cutFactor_wf (q : TopSite) (n : Nat) : Cells.wf (s.cutFactor q n).mem = true := by
  unfold State.cutFactor
  split
  · exact hm
  · extract_lets bs s1
    have h1 : Cells.wf s1.mem = true := foldl_wf _ (fun t b ht => State.factorOne_wf ht _ _ _ _ _) _ hm
    split <;> simp [h1]

@[simp] theorem State.cutSolve_wf (q : TopSite) (n : Nat) : Cells.wf (s.cutSolve q n).mem = true := by
  unfold State.cutSolve
  split
  · extract_lets sols at' s1
    have h1 : Cells.wf s1.mem = true := foldl_wf _ (fun t r ht => t.put_wf _ ht) _ hm
    split <;> simp [h1]
  · exact hm

@[simp] theorem State.cutProbs_wf (x : Site) (p : SolPlan) (k n : Nat) : Cells.wf (s.cutProbs x p k n).mem = true := by
  unfold State.cutProbs
  split
  · exact hm
  · extract_lets js s1 s2 s3
    have h1 : Cells.wf s1.mem = true := foldl_wf _ (fun t j ht => by simp [ht]) _ hm
    have h2 : Cells.wf s2.mem = true := foldl_wf _ (fun t j ht => by simp [ht]) _ h1
    split
    · dsimp only
      split <;> simp [s3, h2]
    · exact h2

@[simp] theorem State.cutPart_wf (x : Site) (p : SolPlan) (g : Nat) : Cells.wf (s.cutPart x p g).mem = true := by
  unfold State.cutPart
  (repeat' split) <;> simp [hm]

@[simp] theorem State.cutEntry_wf (x : Site) (n : Nat) : Cells.wf (s.cutEntry x n).mem = true := by
  unfold State.cutEntry
  (repeat' split) <;> simp [hm]

@[simp] theorem State.cutWaiting_wf (x : Site) : Cells.wf (s.cutWaiting x).mem = true := by
  unfold State.cutWaiting
  extract_lets s1
  have h1 : Cells.wf s1.mem = true := by
    dsimp only [s1]
    split
    · split
      · exact foldl_wf _ (fun t j ht => by simp [ht]) _ hm
      · exact hm
    · split <;> simp [hm]
    · exact hm
  simp [h1]

@[simp] theorem State.cutCluster_wf (l n : Nat) : Cells.wf (s.cutCluster l n).mem = true := by
  unfold State.cutCluster
  split
  · exact hm
  · exact foldl_wf _ (fun t y ht => State.cutWaiting_wf ht y) _ (by simp [hm])

@[simp] theorem State.deadline_wf (k : TaskKey) (blocks : List (Nat × Nat)) : Cells.wf (s.deadline k blocks).mem = true := by
  unfold State.deadline
  split
  · exact hm
  · split
    · exact hm
    · exact foldl_wf _ (fun t l ht => by simp [ht]) _ (by simp [hm])

@[simp] theorem State.collExpired_wf (k : TaskKey) : Cells.wf (s.collExpired k).mem = true := by
  unfold State.collExpired
  repeat' (first | split | dsimp only)
  all_goals simp [hm]

end

end Sys2Proof.Machine
end

section
/-!
Proof, canonical memory, continued: starts, cuts and resets of the module, and steps of training.
-/

namespace Sys2Proof.Machine

section
variable {s : State} (hm : Cells.wf s.mem = true)
include hm

/-! ## Power -/

@[simp] theorem State.verified_wf : Cells.wf s.verified.mem = true := by
  simp [State.verified, hm]

@[simp] theorem State.noReference_wf : Cells.wf s.noReference.mem = true := by
  simp [State.noReference, hm]

@[simp] theorem State.runStart_wf (f : StartFind) : Cells.wf (s.runStart f).mem = true := by
  unfold State.runStart
  (repeat' split) <;> simp [hm]

omit hm in
@[simp] theorem State.cut_wf : Cells.wf s.cut.mem = true := rfl

/-! ## Recovery -/

@[simp] theorem State.abortOn_wf (on : Nat → Bool) (latch : Bool) : Cells.wf (s.abortOn on latch).mem = true := by
  refine foldl_wf _ (fun t l ht => ?_) _ hm
  dsimp only
  split
  · split <;> simp [ht]
  · exact ht

@[simp] theorem State.abortOnStack_wf (stack : Nat) (latch : Bool) : Cells.wf (s.abortOnStack stack latch).mem = true := by
  simp [State.abortOnStack, hm]

@[simp] theorem State.chargePort_wf (p : Nat) : Cells.wf (s.chargePort p).mem = true :=
  foldl_wf _ (fun t b ht => by simp [ht]) _ hm

@[simp] theorem State.rung_wf (r l engine unit : Nat) : Cells.wf (s.rung r l engine unit).mem = true := by
  unfold State.rung
  repeat' (first | split | dsimp only)
  all_goals simp [hm]

@[simp] theorem State.abortCluster_wf (l : Nat) : Cells.wf (s.abortCluster l).mem = true := by
  unfold State.abortCluster
  split <;> simp [hm]

@[simp] theorem State.abortLender_wf (l engine : Nat) : Cells.wf (s.abortLender l engine).mem = true := by
  unfold State.abortLender
  split <;> simp [hm]

@[simp] theorem State.engineReset_wf (l engine unit : Nat) : Cells.wf (s.engineReset l engine unit).mem = true := by
  unfold State.engineReset
  split
  · exact hm
  · split
    · have h1 := State.abortCluster_wf (State.rung_wf hm 2 l engine unit) l
      simp [h1]
    · extract_lets s1 s2
      have h2 : Cells.wf s2.mem = true := by
        dsimp only [s2, s1]
        split <;> simp [hm]
      split <;> simp [h2]

@[simp] theorem State.quiesce_wf (l : Nat) : Cells.wf (s.quiesce l).mem = true := by
  unfold State.quiesce
  extract_lets e s1
  have h1 : Cells.wf s1.mem = true := by simp [s1, hm]
  simp [h1]

@[simp] theorem State.chipletReset_wf (c : Nat) : Cells.wf (s.chipletReset c).mem = true := by
  unfold State.chipletReset
  extract_lets ls op s1 s2 s3 es s4 s5 s6
  have h1 : Cells.wf s1.mem = true := foldl_wf _ (fun t o ht => by simp [ht]) _ hm
  have h2 : Cells.wf s2.mem = true := foldl_wf _ (fun t l ht => by simp [ht]) _ h1
  have h3 : Cells.wf s3.mem = true := State.abortOn_wf h2 _ _
  have h4 : Cells.wf s4.mem = true := by
    dsimp only [s4]
    exact h3
  have h5 : Cells.wf s5.mem = true := foldl_wf _ (fun t l ht => by simp [ht]) _ h4
  have h6 : Cells.wf s6.mem = true := foldl_wf _ (fun t p ht => State.retrainPort_wf ht p) _ h5
  refine State.landWrites_wf ?_
  dsimp only
  exact h6

@[simp] theorem State.breakCycles_wf (fuel : Nat) (es : List (TaskKey × TaskKey)) : Cells.wf (State.breakCycles fuel es s).mem = true := by
  induction fuel generalizing es s with
  | zero => exact hm
  | succ fuel ih =>
    rw [State.breakCycles]
    split
    · exact hm
    · dsimp only
      split
      · exact hm
      · exact ih (by simp [hm]) _

@[simp] theorem State.tuneOut_wf (p : Nat) : Cells.wf (s.tuneOut p).mem = true := by
  simp [State.tuneOut, hm]

@[simp] theorem State.tuneComplete_wf (p : Nat) (found : TuneFind) (badTiles : Nat) : Cells.wf (s.tuneComplete p found badTiles).mem = true := by
  unfold State.tuneComplete
  extract_lets c f run s1 s2 regs bad whole hist s3 s4 s5
  have h2 : Cells.wf s2.mem = true := by
    dsimp only [s2, s1]
    split <;> simp [hm]
  have h4 : Cells.wf s4.mem = true := by
    dsimp only [s4, s3]
    (repeat' split) <;> simp [h2]
  have h5 : Cells.wf s5.mem = true := foldl_wf _ (fun t i ht => by simp [ht]) _ h4
  (repeat' split) <;> simp [hm, h2, h5]

/-! ## Steps -/

@[simp] theorem State.advanceScales_wf (k : TaskKey) (ls : List Nat) (commit : Bool) : Cells.wf (s.advanceScales k ls commit).mem = true := by
  unfold State.advanceScales
  split
  · exact hm
  · extract_lets ds recs s1
    have h1 : Cells.wf s1.mem = true := foldl_wf _ (fun t r ht => by simp [ht, State.store_wf]) _ hm
    simp [h1]

@[simp] theorem State.planRec_wf (k : TaskKey) (f : ParamPlan → StepRec → StepRec) : Cells.wf (s.planRec k f).mem = true := by
  unfold State.planRec
  split <;> simp [hm]

@[simp] theorem State.trainRec_wf (k : TaskKey) (f : StepRec → StepRec) : Cells.wf (s.trainRec k f).mem = true := by
  unfold State.trainRec
  split <;> simp [hm]

@[simp] theorem State.trainLs_wf (k : TaskKey) : Cells.wf (s.trainLs k).mem = true := by
  unfold State.trainLs
  split <;> simp [hm]

@[simp] theorem State.rewindTask_wf (k : TaskKey) (ls : List Nat) : Cells.wf (s.rewindTask k ls).mem = true := by
  unfold State.rewindTask
  extract_lets s1
  have h1 : Cells.wf s1.mem = true := foldl_wf _ (fun t l ht => by simp [ht]) _ hm
  split
  · simp [h1]
  · refine foldl_wf _ (fun t l ht => ?_) _ h1
    split <;> simp [ht]

@[simp] theorem State.nextStep_wf (k : TaskKey) (t : Task) (ls : List Nat) : Cells.wf (s.nextStep k t ls).mem = true := by
  unfold State.nextStep
  repeat' (first | split | dsimp only)
  all_goals simp [hm]

theorem State.reapply_wf {k : TaskKey} {step : Nat} {t : State} (h : s.reapply k step = some t) : Cells.wf t.mem = true := by
  unfold State.reapply at h
  dsimp only at h
  split at h
  · cases h
  · cases h
    exact foldl_wf _ (fun t p ht => State.landData_wf ht p) _ hm

@[simp] theorem State.retry_wf (k : TaskKey) (step : Nat) (ls : List Nat) : Cells.wf (s.retry k step ls).mem = true := by
  unfold State.retry
  split
  · simp [hm]
  · exact State.rewindTask_wf (State.reapply_wf hm ‹_›) _ _

@[simp] theorem State.commit_wf (k : TaskKey) (t : Task) (ls : List Nat) (vs : List Vote) : Cells.wf (s.commit k t ls vs).mem = true := by
  unfold State.commit
  extract_lets s1 s2 s3 s4 s5 s6 s7 s8
  have h2 : Cells.wf s2.mem = true := by simp [s2, s1, hm]
  have h3 : Cells.wf s3.mem = true := by
    dsimp only [s3]
    split <;> simp [h2, State.store_wf]
  have h6 : Cells.wf s6.mem = true := State.trainLs_wf (by simp [s5, s4, h3]) k
  simp [s8, s7, h6]

@[simp] theorem State.skip_wf (k : TaskKey) (t : Task) (ls : List Nat) (vs : List Vote) : Cells.wf (s.skip k t ls vs).mem = true := by
  unfold State.skip
  extract_lets s1 s2 s3 s4
  have h1 : Cells.wf s1.mem = true := State.advanceScales_wf hm k ls false
  have h2 : Cells.wf s2.mem = true := by
    dsimp only [s2]
    split <;> simp [h1, State.store_wf]
  have h3 : Cells.wf s3.mem = true := by simp [s3, h2]
  simp [s4, h3]

@[simp] theorem State.again_wf (k : TaskKey) (t : Task) (ls : List Nat) (o : Outcome) (vs : List Vote) :
    Cells.wf (s.again k t ls o vs).mem = true := by
  unfold State.again
  extract_lets s1 s2 s3
  have h1 : Cells.wf s1.mem = true := by
    dsimp only [s1]
    split <;> simp [hm, State.store_wf]
  simp [s3, s2, h1]

@[simp] theorem State.chargeSuspects_wf (sus : List (Nat × Nat)) : Cells.wf (s.chargeSuspects sus).mem = true := by
  refine foldl_wf _ (fun t q ht => ?_) _ hm
  split <;> simp [ht]

@[simp] theorem State.noteOutcome_wf (k : TaskKey) (ls : List Nat) (vs : List Vote) : Cells.wf (s.noteOutcome k ls vs).mem = true := by
  simp [State.noteOutcome, hm]

@[simp] theorem State.applyOutcome_wf (k : TaskKey) (t : Task) (j : Job) (o : Outcome) (sus : List (Nat × Nat)) (vs : List Vote) :
    Cells.wf (s.applyOutcome k t j o sus vs).mem = true := by
  unfold State.applyOutcome
  split
  · simp [hm]
  · extract_lets ls s1 s2 s3 s4
    have h3 : Cells.wf s3.mem = true := by
      dsimp only [s3, s2, s1]
      split <;> simp [hm]
    split
    · simp [h3]
    · simp [h3]
    · simp [h3]
    · exact keeps_ite (K := fun t => Cells.wf t.mem = true) (by simp [s4, State.again_wf h3]) (by simp [s4, h3])
    · simp [h3]

@[simp] theorem State.deliver_wf (k : TaskKey) (t : Task) (j : Job) (o : Outcome) (sus : List (Nat × Nat)) (vs : List Vote) :
    Cells.wf (s.deliver k t j o sus vs).mem = true := by
  simp [State.deliver, hm]

@[simp] theorem State.decideStep_wf (k : TaskKey) : Cells.wf (s.decideStep k).mem = true := by
  unfold State.decideStep
  (repeat' split) <;> simp [hm]

@[simp] theorem State.passVotes_wf (k : TaskKey) : Cells.wf (s.passVotes k).mem = true := by
  unfold State.passVotes
  repeat' (first | split | dsimp only)
  all_goals simp [hm]

@[simp] theorem State.doStepEnd_wf (x : Site) : Cells.wf (s.doStepEnd x).mem = true := by
  unfold State.doStepEnd
  repeat' (first | split | dsimp only)
  all_goals simp [hm]

@[simp] theorem State.takeVote_wf (k : TaskKey) (step : Nat) (vs : List Vote) (cops : List CopInfo) :
    Cells.wf (s.takeVote k step vs cops).mem = true := by
  unfold State.takeVote
  repeat' (first | split | dsimp only)
  all_goals simp [hm]

@[simp] theorem State.takeOutcome_wf (k : TaskKey) (step : Nat) (o : Outcome) (sus : List (Nat × Nat)) (vs : List Vote) :
    Cells.wf (s.takeOutcome k step o sus vs).mem = true := by
  unfold State.takeOutcome
  (repeat' split) <;> simp [hm]

@[simp] theorem State.rotateNow_wf (l : Nat) : Cells.wf (s.rotateNow l).mem = true := by
  unfold State.rotateNow
  (repeat' split) <;> simp [hm]

@[simp] theorem State.endRestore_wf (k : TaskKey) (t : Task) (j : Job) (r : Restore) (sus : List (Nat × Nat)) (ev : Ev) :
    Cells.wf (s.endRestore k t j r sus ev).mem = true := by
  unfold State.endRestore
  extract_lets f s1 s2 s3
  have h1 : Cells.wf s1.mem = true := State.poisonAll_wf (State.finishRestore_wf hm _ _) _
  have h2 : Cells.wf s2.mem = true := foldl_wf _ (fun t q ht => by simp [ht]) _ h1
  split
  · simp [h1]
  · split <;> simp [s3, h2]

@[simp] theorem State.restoreStep_wf (k : TaskKey) (ev : Ev) : Cells.wf (s.restoreStep k ev).mem = true := by
  unfold State.restoreStep
  (repeat' split) <;> simp [hm]

@[simp] theorem State.storeFold_wf (base step : Nat) (x3 : Option (List LogRec)) : Cells.wf (s.storeFold base step x3).mem = true := by
  unfold State.storeFold
  split <;> simp [hm, State.store_wf]

@[simp] theorem State.foldLog_wf (base baseBytes step clusters : Nat) : Cells.wf (s.foldLog base baseBytes step clusters).mem = true := by
  simp [State.foldLog, hm]

@[simp] theorem State.copNews_wf (k : TaskKey) : Cells.wf (s.copNews k).mem = true := by
  unfold State.copNews
  repeat' (first | split | dsimp only)
  all_goals simp [hm]

@[simp] theorem State.foldedOwn_wf (ctx job step : Nat) : Cells.wf (s.foldedOwn ctx job step).mem = true := by
  unfold State.foldedOwn
  split
  · exact keeps_ite (K := fun t => Cells.wf t.mem = true) hm (foldl_wf _ (fun t k ht => State.copNews_wf ht k) _ (State.updRec_wf hm _ _))
  · exact hm

end

end Sys2Proof.Machine
end

section
/-!
Proof, the numbers of clusters and ports (R26, R397): an operation that may reset the module leaves 128 clusters and 48 ports where it
found them; the others keep the two numbers (Laws).
-/

namespace Sys2Proof.Machine

@[simp] theorem State.moduleReset_sizes (s : State) : s.moduleReset.clusters.length = 128 ∧ s.moduleReset.fab.ports.length = 48 := by
  simp [State.moduleReset]

@[simp] theorem State.haltWith_sizes (s : State) (cause : Nat) :
    (s.haltWith cause).clusters.length = 128 ∧ (s.haltWith cause).fab.ports.length = 48 := by
  simp [State.haltWith]

@[simp] theorem State.verified_sizes (s : State) : s.verified.clusters.length = 128 ∧ s.verified.fab.ports.length = 48 := by
  simp [State.verified]

@[simp] theorem State.noReference_sizes (s : State) : s.noReference.clusters.length = 128 ∧ s.noReference.fab.ports.length = 48 := by
  simp [State.noReference]

@[simp] theorem State.cut_sizes (s : State) : s.cut.clusters.length = 128 ∧ s.cut.fab.ports.length = 48 := by
  simp [State.cut]

@[simp] theorem State.runStart_sizes (s : State) (f : StartFind) :
    (s.runStart f).clusters.length = 128 ∧ (s.runStart f).fab.ports.length = 48 := by
  unfold State.runStart
  (repeat' split) <;> simp

@[simp] theorem State.doCtlRead_ports_length (s : State) (p : Pkt) : (s.doCtlRead p).fab.ports.length = s.fab.ports.length := by
  unfold State.doCtlRead
  repeat' (first | split | dsimp only)
  all_goals simp

@[simp] theorem State.finishProb_ports_length (s : State) (x : Site) (c : SolClass) (n j : Nat) (b : Blk) :
    (s.finishProb x c n j b).fab.ports.length = s.fab.ports.length := by
  simp [State.finishProb]

@[simp] theorem State.finishCluster_ports_length (s : State) (x : Site) (p : SolPlan) :
    (s.finishCluster x p).fab.ports.length = s.fab.ports.length := by
  simp [State.finishCluster]

@[simp] theorem State.solWork_sizes (s : State) (x : Site) (p : SolPlan) (o : SolOp) :
    (s.solWork x p o).clusters.length = s.clusters.length ∧ (s.solWork x p o).fab.ports.length = s.fab.ports.length := by
  cases o with
  | solve k =>
    unfold State.solWork
    dsimp only
    split <;> simp
  | _ => simp [State.solWork]

@[simp] theorem State.runSol_sizes (s : State) (x : Site) (o : SolOp) (ev : Ev) :
    (s.runSol x o ev).clusters.length = s.clusters.length ∧ (s.runSol x o ev).fab.ports.length = s.fab.ports.length := by
  unfold State.runSol
  split <;> simp

@[simp] theorem State.cutEntry_sizes (s : State) (x : Site) (n : Nat) :
    (s.cutEntry x n).clusters.length = s.clusters.length ∧ (s.cutEntry x n).fab.ports.length = s.fab.ports.length := by
  unfold State.cutEntry
  (repeat' split) <;> simp

@[simp] theorem State.cutCluster_sizes (s : State) (l n : Nat) :
    (s.cutCluster l n).clusters.length = s.clusters.length ∧ (s.cutCluster l n).fab.ports.length = s.fab.ports.length := by
  unfold State.cutCluster
  split <;> simp

@[simp] theorem State.deadline_sizes (s : State) (k : TaskKey) (blocks : List (Nat × Nat)) :
    (s.deadline k blocks).clusters.length = s.clusters.length ∧ (s.deadline k blocks).fab.ports.length = s.fab.ports.length := by
  unfold State.deadline
  (repeat' split) <;> simp

section
variable {s : State} (hc : s.clusters.length = 128) (hp : s.fab.ports.length = 48)
include hc hp

@[simp] theorem State.leaveService_sizes : s.leaveService.clusters.length = 128 ∧ s.leaveService.fab.ports.length = 48 := by
  unfold State.leaveService
  split <;> simp [hc, hp]

@[simp] theorem State.tstCmd_sizes (v : Word) : (s.tstCmd v).clusters.length = 128 ∧ (s.tstCmd v).fab.ports.length = 48 := by
  unfold State.tstCmd
  split <;> simp [hc, hp]

@[simp] theorem State.writeReg_sizes (r : Reg) (v : Word) (ctx : Nat) :
    (s.writeReg r v ctx).clusters.length = 128 ∧ (s.writeReg r v ctx).fab.ports.length = 48 := by
  unfold State.writeReg
  (repeat' split) <;> simp [hc, hp]

@[simp] theorem State.doCtlWrite_sizes (p : Pkt) : (s.doCtlWrite p).clusters.length = 128 ∧ (s.doCtlWrite p).fab.ports.length = 48 := by
  unfold State.doCtlWrite
  repeat' (first | split | dsimp only)
  all_goals simp [hc, hp]

@[simp] theorem State.barWrite_sizes (off bytes : Nat) (value : Word) :
    (s.barWrite off bytes value).clusters.length = 128 ∧ (s.barWrite off bytes value).fab.ports.length = 48 := by
  unfold State.barWrite
  (repeat' split) <;> simp [hc, hp]

@[simp] theorem State.doCtlEntry_sizes (x : Site) : (s.doCtlEntry x).clusters.length = 128 ∧ (s.doCtlEntry x).fab.ports.length = 48 := by
  unfold State.doCtlEntry
  split <;> simp [hc, hp]

@[simp] theorem State.leaveMinimal_sizes : s.leaveMinimal.clusters.length = 128 ∧ s.leaveMinimal.fab.ports.length = 48 := by
  unfold State.leaveMinimal
  split <;> simp [hc, hp]

@[simp] theorem State.doFwImage_sizes (p : Pkt) (img : ImageIn) :
    (s.doFwImage p img).clusters.length = 128 ∧ (s.doFwImage p img).fab.ports.length = 48 := by
  unfold State.doFwImage
  repeat' (first | split | dsimp only)
  all_goals simp [hc, hp]

@[simp] theorem State.takeChunk_sizes (rx : Rx) (seq chunk : Nat) (bytes : List Byte) (img : ImageIn) :
    (s.takeChunk rx seq chunk bytes img).clusters.length = 128 ∧ (s.takeChunk rx seq chunk bytes img).fab.ports.length = 48 := by
  unfold State.takeChunk
  repeat' (first | split | dsimp only)
  all_goals simp [hc, hp]

@[simp] theorem State.runPacket_sizes (p : Pkt) (f : PktFind) :
    (s.runPacket p f).clusters.length = 128 ∧ (s.runPacket p f).fab.ports.length = 48 := by
  unfold State.runPacket
  iterate 17 refine keeps_ite (K := fun t => t.clusters.length = 128 ∧ t.fab.ports.length = 48) (by simp [hc, hp]) ?_
  simp [hc, hp]

@[simp] theorem State.takeForward_sizes (rx : Rx) (pid : Nat) (words : List Word) (pay : List Byte) (f : PktFind) :
    (s.takeForward rx pid words pay f).clusters.length = 128 ∧ (s.takeForward rx pid words pay f).fab.ports.length = 48 := by
  unfold State.takeForward
  repeat' (first | split | dsimp only)
  all_goals simp [hc, hp]

end

end Sys2Proof.Machine
end

section
/-!
Proof, the outcome of a command: it answers a next state, which keeps the shape of every state, or it stops with `noSuchUnit` and is not
well formed (R26, R397, R443). One pass over the commands settles the two statements.
-/

namespace Sys2Proof.Machine

open Sys2Proof.Laws.Units (fst ofRx rx_exist)

/-! ## The shape of a state -/

theorem State.shape_iff {s : State} : s.Shape ↔
    Cells.wf s.mem = true ∧ s.clusters.length = 128 ∧ s.fab.ports.length = 48 ∧ s.start.pcl.length = 136 :=
  ⟨fun ⟨hm, hc, hp, hq⟩ => ⟨hm, hc, hp, hq⟩, fun ⟨hm, hc, hp, hq⟩ => ⟨hm, hc, hp, hq⟩⟩

theorem State.Shape.foldl {β : Type} {g : State → β → State} {l : List β} {s : State} (h : s.Shape)
    (hg : ∀ (t : State) b, t.Shape → (g t b).Shape) : (l.foldl g s).Shape := by
  induction l generalizing s with
  | nil => exact h
  | cons b l ih => exact ih (hg s b h)

theorem State.Shape.guard {s : State} (h : s.Shape) (x : Site) (ev : Ev) (as : List Access) {go : State → State}
    (hgo : ∀ t : State, t.Shape → (go t).Shape) : (s.guard x ev as go).Shape := by
  unfold State.guard
  split
  · simp [State.shape_iff, State.shape_iff.mp h]
  · split
    · exact h
    · exact hgo _ (by simp [State.shape_iff, State.shape_iff.mp h])

theorem State.Shape.groupTake {s : State} (h : s.Shape) (rx : Rx) (op : Opcode) (desc occ : Nat) (b : Body)
    {take : State → Nat → Option State} (htake : ∀ (u : State) l t, u.Shape → take u l = some t → t.Shape) :
    (s.groupTake rx op desc occ b take).Shape := by
  unfold State.groupTake
  split
  · exact h
  · split
    · exact h
    · rename_i k l hhome
      extract_lets u
      have hu : u.Shape := by simp [u, State.shape_iff, State.shape_iff.mp h]
      split
      · rename_i t ht
        split at ht
        · exact htake u l t hu ht
        · contradiction
      · simp [State.shape_iff, State.shape_iff.mp hu]

theorem State.Shape.stepColl {s t : State} (h : s.Shape) {l desc occ : Nat} {b : Body} (ht : s.stepColl l desc occ b = some t) :
    t.Shape := by
  have hm := State.stepColl_wf h.mem l desc occ b
  obtain ⟨-, -, -, -, -, hstart, -, -, hc, hp⟩ := State.stepColl_some ht
  rw [ht] at hm
  exact ⟨hm, hc.trans h.clusters, hp.trans h.ports, by rw [hstart, h.phys]⟩

theorem State.Shape.stepExch {s t : State} (h : s.Shape) {l desc occ src phase : Nat} {cs : List (Nat × Nat × Nat)}
    (ht : s.stepExch l desc occ src phase cs = some t) : t.Shape := by
  have hm := State.stepExch_wf h.mem l desc occ src phase cs
  obtain ⟨-, -, -, -, -, hstart, -, -, hc, hp⟩ := State.stepExch_some ht
  rw [ht] at hm
  exact ⟨hm, hc.trans h.clusters, hp.trans h.ports, by rw [hstart, h.phys]⟩

/-! ## Outcomes -/

/-- The outcome of a command on `s`, which is well formed or not. -/
def Settled (s : State) (wf : Bool) (o : Out) : Prop :=
  (∃ t, o = .next t ∧ (s.Shape → t.Shape)) ∨ (o = .fault .noSuchUnit ∧ wf = false)

section
variable {s : State} {wf : Bool} {o : Out}

theorem Settled.next {t : State} (h : s.Shape → t.Shape) : Settled s wf (.next t) := .inl ⟨t, rfl, h⟩

/-- A check that every well-formed command passes. -/
theorem Settled.passing {c : Prop} [Decidable c] (hwf : wf = true → c) (h : Settled s wf o) :
    Settled s wf (if c then o else .fault .noSuchUnit) := by
  split
  · exact h
  · rename_i hc
    exact .inr ⟨rfl, Bool.eq_false_iff.mpr fun hw => hc (hwf hw)⟩

theorem Settled.onCluster {l : Nat} (hwf : wf = true → l < 128) (h : Settled s wf o) : Settled s wf (onCluster l o) := .passing hwf h

theorem Settled.onPhys {p : Nat} (hwf : wf = true → p < 136) (h : Settled s wf o) : Settled s wf (onPhys p o) := .passing hwf h

theorem Settled.onPort {p : Nat} (hwf : wf = true → p < 48) (h : Settled s wf o) : Settled s wf (onPort p o) := .passing hwf h

theorem Settled.onHub (h : Settled s wf o) : Settled s wf (onHub s o) := by
  unfold Machine.onHub
  split
  · exact h
  · exact .next id

theorem Settled.onPkt {id type : Nat} {f : Pkt → State} (h : ∀ p, s.Shape → (f p).Shape) : Settled s wf (onPkt id type s f) := by
  refine .next fun hs => ?_
  (repeat' split) <;> simp [h, hs]

theorem Settled.arrive {rx : Rx} {b : Body} {f : State → State} (hwf : wf = true → ∀ p, rx.port = some p → p < 48)
    (h : ∀ u : State, u.Shape → (f u).Shape) : Settled s wf (s.arrive rx b f) := by
  have htaken (u : State) (hu : u.Shape) : (if u.start.stage == .minimal && !b.minimal then u else f u).Shape := by
    split
    · exact hu
    · exact h u hu
  unfold State.arrive
  split
  · rename_i p hp
    refine .onPort (fun hw => hwf hw p hp) (.next fun hs => ?_)
    split
    · exact hs
    · split
      · have hr : (s.received rx b).Shape := by simp [State.shape_iff, State.shape_iff.mp hs]
        have ht := htaken _ hr
        simpa [State.shape_iff] using State.shape_iff.mp ht
      · simp [State.shape_iff, State.shape_iff.mp hs]
  · refine .next fun hs => ?_
    split
    · exact htaken s hs
    · exact hs

end

/-! ## The units of a well-formed command -/

theorem lt_of_okCluster {l : Nat} (h : okCluster l = true) : l < 128 := of_decide_eq_true h
theorem lt_of_okPhys {p : Nat} (h : okPhys p = true) : p < 136 := of_decide_eq_true h
theorem lt_of_okPort {p : Nat} (h : okPort p = true) : p < 48 := of_decide_eq_true h
theorem lt_of_okRx {rx : Rx} (h : okRx rx = true) (p : Nat) (hp : rx.port = some p) : p < 48 :=
  (rx_exist h).2.1 p (by simp [ofRx, hp])

/-! ## Commands with a case split of their own -/

theorem execDoorbellWrite_settled (s : State) (ring : Nat) (value : Word) (enables : Nat) :
    Settled s (okRing ring) (execDoorbellWrite ring value enables s) := by
  unfold execDoorbellWrite
  split
  · exact .inr ⟨rfl, decide_eq_false (by omega)⟩
  · refine .next fun h => ?_
    split <;> simp [State.shape_iff, State.shape_iff.mp h]

theorem execOpticalEngineFailover_settled (s : State) (group engine : Nat) :
    Settled s (decide (group < 2) && decide (engine < 12)) (execOpticalEngineFailover group engine s) := by
  unfold execOpticalEngineFailover
  split
  · exact .inr ⟨rfl, by simp; omega⟩
  · refine .onHub (.next fun h => ?_)
    split <;> simp [State.shape_iff, State.shape_iff.mp h]

theorem execEdgeWindowExpiry_settled (s : State) (loss : EdgeLoss) : Settled s (okEdge loss.edge) (execEdgeWindowExpiry loss s) := by
  obtain ⟨edge, fault⟩ := loss
  cases edge with
  | host | flash => exact .onHub (.next fun h => by simp [State.shape_iff, State.shape_iff.mp h, Start.edgeOut])
  | hbm k =>
    exact .passing of_decide_eq_true (.onHub (.next fun h => by simp [State.shape_iff, State.shape_iff.mp h, Start.edgeOut]))
  | serdes p =>
    exact .onPort lt_of_okPort (.onHub (.next fun h => by simp [State.shape_iff, State.shape_iff.mp h, Start.edgeOut]))

theorem execIdent_settled (s : State) (rx : Rx) (module farPort variant stepping : Nat) (mapId : Word) :
    Settled s (okRx rx && okModule module && okPort farPort) (execIdent rx module farPort variant stepping mapId s) := by
  unfold execIdent
  split
  · rename_i p hp
    refine .onPort (fun hw => lt_of_okRx (fst (fst hw)) p hp) (.next fun h => ?_)
    split <;> simp [State.shape_iff, State.shape_iff.mp h]
  · exact .next id

theorem execFabricRead_settled (s : State) (rx : Rx) (addr n : Nat) (ev : Ev) :
    Settled s (okRx rx) (execFabricRead rx addr n ev s) := by
  unfold execFabricRead
  split
  · exact .next id
  · exact .arrive lt_of_okRx fun u h => by simp [State.shape_iff, State.shape_iff.mp h]

theorem execScrubRead_settled (s : State) (wf : Bool) (page : Nat) (fixed : List Nat) (ev : Ev) :
    Settled s wf (execScrubRead page fixed ev s) := by
  refine .next fun h => ?_
  split
  · exact h
  · split
    · exact h
    · refine State.Shape.foldl ?_ fun t a ht => ?_
      · simp [State.shape_iff, State.shape_iff.mp h]
      · simp [State.shape_iff, State.shape_iff.mp ht]

theorem execMemRd_settled (s : State) (wf : Bool) (off : Nat) (ev : Ev) : Settled s wf (execMemRd off ev s) := by
  refine .next fun h => ?_
  extract_lets o a bad s1 s2 poison
  have h1 : s1.Shape := h.foldl fun t a ht => by simp [State.shape_iff, State.shape_iff.mp ht]
  have h2 : s2.Shape := by
    dsimp only [s2]
    split <;> simp [State.shape_iff, State.shape_iff.mp h1]
  split
  · exact h
  · simp [State.shape_iff, State.shape_iff.mp h2]

theorem execCxlReset_settled (s : State) (wf : Bool) : Settled s wf (execCxlReset s) := by
  refine .next fun h => ?_
  split
  · exact h
  · extract_lets s1
    have h1 : s1.Shape := h.foldl fun t n ht => by simp [State.shape_iff, State.shape_iff.mp ht]
    simp [State.shape_iff, State.shape_iff.mp h1]

theorem execLaneBerWindow_settled (s : State) (port : Nat) (counts : List Nat) :
    Settled s (okPort port) (execLaneBerWindow port counts s) := by
  refine .onPort lt_of_okPort (.next fun h => ?_)
  split
  · exact h
  · refine State.Shape.foldl ?_ fun t i ht => ?_
    · simp [State.shape_iff, State.shape_iff.mp h]
    · simp [State.shape_iff, State.shape_iff.mp ht]

/-! ## Every command -/

theorem exec_settled (c : Instr) (s : State) : Settled s c.wf (exec c s) := by
  cases c with
  | nopPacket | data | read | load | unload | run | suspend | resume | ctlWritePacket | ctlRead | solDelta | restore | contextReset
    | ringOpen | ringClose | fwImage | attest =>
    exact .onPkt fun _ h => by simp [State.shape_iff, State.shape_iff.mp h]
  | wcCheck =>
    exact .onCluster (fun hw => lt_of_okCluster (fst hw)) (.next fun h => by simp [State.shape_iff, State.shape_iff.mp h])
  | entryComplete | chain | factor | solve | collective | exchange | signal | ctlWrite | iterEnd | stepEnd | halt | mm | mmTa | mmTb | gramL
    | gramR | reduce | fold | exportPlane | refresh | stream | copy | release | send =>
    refine .onCluster (fun hw => lt_of_okCluster (fst hw)) (.next fun h => ?_)
    (repeat' split) <;> simp [State.shape_iff, State.shape_iff.mp h]
  | issueDecision | refreshBlock | entryTimeout | signalResend | migration | suspendAtBoundary =>
    exact .onCluster lt_of_okCluster (.next fun h => by simp [State.shape_iff, State.shape_iff.mp h])
  | forcedMigration | differenceStreamRead =>
    refine .onCluster lt_of_okCluster (.next fun h => ?_)
    (repeat' split) <;> simp [State.shape_iff, State.shape_iff.mp h]
  | engineReset =>
    exact .onCluster (fun hw => lt_of_okCluster (fst (fst hw))) (.onHub (.next fun h => by simp [State.shape_iff, State.shape_iff.mp h]))
  | subst | ctrClCommit =>
    exact .onCluster (fun hw => lt_of_okCluster (fst hw)) (.onHub (.next fun h => by simp [State.shape_iff, State.shape_iff.mp h]))
  | pause | drlCmdResume | drlCommit | tilCommit | chnCommit | clusterQuiesce =>
    exact .onCluster lt_of_okCluster (.onHub (.next fun h => by simp [State.shape_iff, State.shape_iff.mp h]))
  | tuneUpComplete =>
    exact .onPhys lt_of_okPhys (.next fun h => by simp [State.shape_iff, State.shape_iff.mp h])
  | tuneUpDue | thermalLower =>
    refine .onPhys lt_of_okPhys (.onHub (.next fun h => ?_))
    repeat' (first | split | dsimp only)
    all_goals simp [State.shape_iff, State.shape_iff.mp h]
  | portTrain =>
    refine .onPort (fun hw => lt_of_okPort (fst (fst hw))) (.next fun h => ?_)
    (repeat' split) <;> simp [State.shape_iff, State.shape_iff.mp h]
  | link | badMsg | flitReplay | portDown =>
    refine .onPort lt_of_okPort (.next fun h => ?_)
    (repeat' split) <;> simp [State.shape_iff, State.shape_iff.mp h]
  | portUp =>
    refine .onPort lt_of_okPort (.next fun h => ?_)
    repeat' (first | split | dsimp only)
    all_goals simp [State.shape_iff, State.shape_iff.mp h]
  | optCommit | solCommit | memCommit | hdgCommit | hubCommit | tstCommit | tstTuneCommit | ctrCommit | pwrCommit | memPageCmd
    | enterService | fuseProposed | fuseSvn | recheck | fhQuery | snap | clear =>
    exact .onHub (.next fun h => by simp [State.shape_iff, State.shape_iff.mp h])
  | registerWrite | leaveService | tuneNow | rotateOut | clearRail | snapDomain | readinessWindowEnd | periodicDump | issueGating =>
    refine .onHub (.next fun h => ?_)
    (repeat' split) <;> simp [State.shape_iff, State.shape_iff.mp h]
  | governorLower | governorRaise =>
    refine .onHub (.next fun h => ?_)
    repeat' (first | split | dsimp only)
    all_goals simp [State.shape_iff, State.shape_iff.mp h]
  | vote | outcome | signalMessage | abort | join | leave | linkState =>
    dsimp only [exec, execVote, execOutcome, execSignalMessage, execAbort, execJoin, execLeave, execLinkState]
    exact .arrive (fun hw => lt_of_okRx (fst hw)) fun _ h => by simp [State.shape_iff, State.shape_iff.mp h]
  | topoReport | drained =>
    dsimp only [exec, execTopoReport, execDrained]
    refine .arrive (fun hw => lt_of_okRx (fst hw)) fun _ h => ?_
    (repeat' split) <;> simp [State.shape_iff, State.shape_iff.mp h]
  | write | packetForward | ack | readData | nack | fwChunk | fwAck =>
    dsimp only [exec, execWrite, execPacketForward, execAck, execReadData, execNack, execFwChunk, execFwAck]
    exact .arrive lt_of_okRx fun _ h => by simp [State.shape_iff, State.shape_iff.mp h]
  | switch =>
    dsimp only [exec, execSwitch]
    refine .arrive lt_of_okRx fun _ h => ?_
    (repeat' split) <;> simp [State.shape_iff, State.shape_iff.mp h]
  | restoreInStep | coppiceWaitExpiry | deadlineExpiry | collectiveTimeout | getIdentity | getMeasurements | attestRequest | getBudget
    | memSpecRd | deadlockScan | capEffUpdate | hubMgmtStateRead | pwrStatusRead | pwrInputRead | pwrThermalRead | smbClkTimeout =>
    exact .next fun h => by simp [State.shape_iff, State.shape_iff.mp h]
  | coppiceFold | pendingDeltaApply | managedLeave | memInv | linkReset | flr | moduleReset | referenceMissing | stage6Timeout
    | scanSelfTest | memorySelfTest | pwrFail | interlockBreak | flowTrip | hubIdentRead | smbAlertResponse | suspendWinExpiry | retrain
    | moduleResetTimeout | start | temperatureWait | admission | junctionTrip =>
    refine .next fun h => ?_
    (repeat' split) <;> simp [State.shape_iff, State.shape_iff.mp h]
  | packetIntake | pageMoveComplete | faultDrivenMove | memWr | routeDrainDone =>
    refine .next fun h => ?_
    repeat' (first | split | dsimp only)
    all_goals simp [State.shape_iff, State.shape_iff.mp h]
  | optimise =>
    refine .onCluster (fun hw => lt_of_okCluster (fst hw)) (.next fun h => ?_)
    split
    · split
      · exact h.guard _ _ _ fun t ht => by simp [State.shape_iff, State.shape_iff.mp ht]
      · exact h
    · exact h
  | digest =>
    refine .onCluster (fun hw => lt_of_okCluster (fst hw)) (.next fun h => ?_)
    split
    · exact h.guard _ _ _ fun t ht => by simp [State.shape_iff, State.shape_iff.mp ht]
    · exact h
  | part | result | carry =>
    dsimp only [exec, execPart, execResult, execCarry]
    exact .arrive lt_of_okRx fun _ h => h.groupTake _ _ _ _ _ fun _ _ _ hu ht => hu.stepColl ht
  | count =>
    dsimp only [exec, execCount]
    exact .arrive lt_of_okRx fun _ h => h.groupTake _ _ _ _ _ fun _ _ _ hu ht => hu.stepExch ht
  | edgeClockResume => exact .next fun h => by simp [State.shape_iff, State.shape_iff.mp h, Start.edgeClock]
  | chipletReset => exact .passing of_decide_eq_true (.onHub (.next fun h => by simp [State.shape_iff, State.shape_iff.mp h]))
  | regulatorPhaseFailure =>
    refine .passing of_decide_eq_true (.next fun h => ?_)
    dsimp only
    (repeat' split) <;> simp [State.shape_iff, State.shape_iff.mp h]
  | chargeWindowExpiry => exact .passing of_decide_eq_true (.next fun h => by simp [State.shape_iff, State.shape_iff.mp h])
  | ident rx module farPort variant stepping mapId => exact execIdent_settled s rx module farPort variant stepping mapId
  | doorbellWrite => exact execDoorbellWrite_settled s _ _ _
  | opticalEngineFailover => exact execOpticalEngineFailover_settled s _ _
  | edgeWindowExpiry => exact execEdgeWindowExpiry_settled s _
  | fabricRead => exact execFabricRead_settled s _ _ _ _
  | scrubRead => exact execScrubRead_settled s _ _ _ _
  | memRd => exact execMemRd_settled s _ _ _
  | cxlReset => exact execCxlReset_settled s _
  | laneBerWindow => exact execLaneBerWindow_settled s _ _

/-! ## The statements -/

/-- A history of one start tells the count and the life-cycle state that its record holds (R474). -/
theorem replayJournal_start (n : Nat) (ts : List Trace) (pools : List Nat) (lc old : LifeCycle) (cause : Nat) :
    (replayJournal [JRec.of (.start n ts pools lc cause)] old).starts = n ∧ (replayJournal [JRec.of (.start n ts pools lc cause)] old).lc = lc := by
  simp [replayJournal, JRec.ok, JRec.of, Replay.step]

/-- Settles O2: the lists of the state after reset have their lengths, and its history is the record of its one start. -/
theorem resetKeepsTheShape : Obligations.ResetKeepsTheShape := by
  refine ⟨⟨rfl, List.length_replicate, List.length_replicate, ?_⟩, ?_, rfl, fun l => ?_⟩
  · exact (List.length_map _).trans List.length_range
  · exact replayJournal_start 1 _ _ .deployed .deployed 0
  · have hfree : State.reset.cluster l = Cluster.reset := List.getElem?_getD_replicate_default_eq ..
    rw [hfree]
    rfl

/-- Settles O3: a step with a command to take is that command on the state with the rest of the queue, which has the same shape. -/
theorem stepKeepsTheShape : Obligations.StepKeepsTheShape := by
  intro s t h hstep
  unfold step at hstep
  split at hstep
  · cases hstep
    exact h
  · rename_i c rest hq
    obtain ⟨u, hu, hshape⟩ | ⟨hfault, -⟩ := exec_settled c { s with pending := rest }
    · cases hu.symm.trans hstep
      exact hshape ⟨h.mem, h.clusters, h.ports, h.phys⟩
    · cases hfault.symm.trans hstep

/-- Settles O4, from the outcome of every command. -/
theorem wellFormedCommandsNeverStop : Obligations.WellFormedCommandsNeverStop := by
  intro c s
  obtain ⟨t, ht, -⟩ | hfault := exec_settled c s
  · exact .inl ⟨t, ht⟩
  · exact .inr hfault

end Sys2Proof.Machine
end

section
/-!
Proof, the clusters: what an update of one cluster leaves of it and of the others, for the operations that settle a cluster when an
entry leaves it (R143, R153, R183, R209).
-/

namespace Sys2Proof.Machine

/-! ## Other clusters -/

theorem SameClusters.trans {s t u : State} {l : Nat} (h : SameClusters s t l) (h' : SameClusters t u l) : SameClusters s u l :=
  fun k hk => (h' k hk).trans (h k hk)

theorem sameClusters_updCluster (s : State) (l : Nat) (f : Cluster → Cluster) : SameClusters s (s.updCluster l f) l :=
  fun k hk => State.cluster_updCluster_other s l k f hk

theorem sameClusters_latchFlags (s : State) (x : Site) : SameClusters s (s.latchFlags x) x.l := by
  unfold State.latchFlags
  split
  · exact sameClusters_updCluster s x.l _
  · exact fun _ _ => rfl

theorem sameClusters_settleSubst (s : State) (l : Nat) : SameClusters s (s.settleSubst l) l := by
  unfold State.settleSubst
  split
  · exact fun _ _ => rfl
  · split
    · exact fun _ _ => rfl
    · dsimp only
      split
      · exact sameClusters_updCluster s l _
      · exact sameClusters_updCluster s l _

theorem sameClusters_settlePause (s : State) (l : Nat) : SameClusters s (s.settlePause l) l := by
  unfold State.settlePause
  dsimp only
  split
  · exact sameClusters_updCluster s l _
  · exact fun _ _ => rfl

/-! ## Parts of a cluster that an operation does not touch -/

/-- A part of a cluster that `f` keeps is kept, whichever cluster it is read of. -/
theorem State.updCluster_part {α : Type} (part : Cluster → α) {f : Cluster → Cluster} (hf : ∀ c, part (f c) = part c) (s : State)
    (l k : Nat) : part ((s.updCluster l f).cluster k) = part (s.cluster k) := by
  simp only [State.cluster, State.updCluster, List.getD_eq_getElem?_getD, List.getElem?_modify]
  cases s.clusters[k]? with
  | none => rfl
  | some c =>
    simp only [Option.getD_some]
    split
    · exact hf c
    · rfl

/-- Latched flags stand in CHN_STATUS alone. -/
theorem State.latchFlags_part {α : Type} (part : Cluster → α) (h : ∀ c chn, part { c with chn := chn } = part c) (s : State) (x : Site)
    (k : Nat) : part ((s.latchFlags x).cluster k) = part (s.cluster k) := by
  unfold State.latchFlags
  split
  · exact State.updCluster_part part (fun c => h c _) s x.l k
  · rfl

/-- A substitution that takes place changes the tiles alone. -/
theorem State.settleSubst_part {α : Type} (part : Cluster → α) (h : ∀ c til, part { c with til := til } = part c) (s : State)
    (l k : Nat) : part ((s.settleSubst l).cluster k) = part (s.cluster k) := by
  unfold State.settleSubst
  split
  · rfl
  · split
    · rfl
    · dsimp only
      split
      · exact State.updCluster_part part (fun c => h c _) s l k
      · exact State.updCluster_part part (fun c => h c _) s l k

/-- A pause that takes effect changes the Derailleur's state and its request alone. -/
theorem State.settlePause_part {α : Type} (part : Drl → α) (h : ∀ d st req, part { d with st := st, pauseReq := req } = part d)
    (s : State) (l k : Nat) : part ((s.settlePause l).cluster k).drl = part (s.cluster k).drl := by
  unfold State.settlePause
  dsimp only
  split
  · refine State.updCluster_part (fun c => part c.drl) ?_ s l k
    exact fun c => h c.drl _ _
  · rfl

theorem State.count_drl (s : State) (l : Nat) (ws : List (Nat × Nat)) (k : Nat) : ((s.count l ws).cluster k).drl = (s.cluster k).drl :=
  State.updCluster_part (f := fun c => c.count ws) (·.drl) (fun _ => rfl) s l k

end Sys2Proof.Machine
end

section
/-!
Proof, the end of an entry: a late completion (R99), the confirmation of an entry cut off (R143, R152), and a completion with its
signal (R126, R129).
-/

namespace Sys2Proof.Machine

/-! ## The command -/

theorem exec_entryComplete_eq (l idx : Nat) (s : State) : exec (.entryComplete l idx) s = execEntryComplete l idx s := rfl

theorem exec_entryComplete_of_gone {s : State} {l idx : Nat} (hl : l < 128) (hx : s.site l idx = none) :
    exec (.entryComplete l idx) s = .next (s.confirm l idx) := by
  rw [exec_entryComplete_eq, execEntryComplete, onCluster, if_pos hl, hx]

theorem exec_entryComplete_of_finished {s : State} {l idx : Nat} {x : Site} (hl : l < 128) (hx : s.site l idx = some x)
    (hf : s.finished x = true) : exec (.entryComplete l idx) s = .next (s.complete x) := by
  rw [exec_entryComplete_eq, execEntryComplete, onCluster, if_pos hl, hx]
  simp only [hf, if_true]

/-- An entry in flight has the cluster and the number by which it was found. -/
theorem State.site_place {s : State} {l idx : Nat} {x : Site} (h : s.site l idx = some x) : x.l = l ∧ x.f.idx = idx := by
  unfold State.site at h
  dsimp only at h
  split at h
  · rename_i k f hholder hflight
    split at h
    · split at h
      · cases h
        have hidx := List.find?_some hflight
        exact ⟨rfl, of_decide_eq_true hidx⟩
      · cases h
    · cases h
  · cases h

/-! ## An entry that its cluster no longer runs (R99, R143, R152) -/

theorem Cluster.lateDone_drl (c : Cluster) (i : Option Nat) : (c.lateDone i).drl = c.drl := by
  unfold Cluster.lateDone
  split <;> rfl

/-- The one completion that an expired window had guarded is struck off and counted for that window's Odometer. -/
theorem Cluster.lateDone_of_only {c : Cluster} {o : Odo} {i : Option Nat} (h : c.gone = [(o, i)]) :
    c.lateDone i = { c with gone := [], late := assocSet c.late o ((assoc c.late o).getD 0 + 1) } := by
  simp [Cluster.lateDone, h]

theorem assoc_assocSet_self {α β : Type} [BEq α] [LawfulBEq α] (l : List (α × β)) (k : α) (v : β) : assoc (assocSet l k v) k = some v :=
  List.lookup_cons_self

theorem Drl.confirm_of_running {d : Drl} (h : d.st ≠ .aborting) (idx : Nat) : d.confirm idx = d := if_neg h

/-- The last entry that an ABORTING Derailleur waits for leaves it idle. -/
theorem Drl.confirm_last {d : Drl} {idx : Nat} (h : d.st = .aborting) (hlast : ∀ f ∈ d.flights, f.idx = idx) :
    d.confirm idx = Drl.idle := by
  have hnone : (d.dropFlight idx).flights = [] := List.filter_eq_nil_iff.2 fun f hf => by simp [hlast f hf]
  rw [Drl.confirm, if_pos h, Drl.cut, hnone]
  rfl

section
variable {s : State} {l : Nat}

/-- The cluster after a confirmation, but for a substitution that takes place then. -/
theorem State.confirm_part {α : Type} (part : Cluster → α) (h : ∀ c til, part { c with til := til } = part c) (hl : l < s.clusters.length)
    (idx : Nat) : part ((s.confirm l idx).cluster l) =
      part { (s.cluster l).lateDone (some idx) with drl := (s.cluster l).drl.confirm idx } := by
  rw [State.confirm, State.settleSubst_part part h, State.cluster_updCluster_self s l _ hl]
  dsimp only
  rw [Cluster.lateDone_drl]

theorem State.confirm_drl (hl : l < s.clusters.length) (idx : Nat) :
    ((s.confirm l idx).cluster l).drl = (s.cluster l).drl.confirm idx := State.confirm_part (·.drl) (fun _ _ => rfl) hl idx

theorem State.confirm_gone (hl : l < s.clusters.length) (idx : Nat) :
    ((s.confirm l idx).cluster l).gone = ((s.cluster l).lateDone (some idx)).gone := State.confirm_part (·.gone) (fun _ _ => rfl) hl idx

theorem State.confirm_late (hl : l < s.clusters.length) (idx : Nat) :
    ((s.confirm l idx).cluster l).late = ((s.cluster l).lateDone (some idx)).late := State.confirm_part (·.late) (fun _ _ => rfl) hl idx

theorem sameClusters_confirm (s : State) (l idx : Nat) : SameClusters s (s.confirm l idx) l :=
  (sameClusters_updCluster s l _).trans (sameClusters_settleSubst _ l)

end

/-! ## The counter of an entry (R129) and its place in flight -/

/-- The Derailleur with the counter of a completing entry raised, where the entry has SIG_ON. -/
def Drl.signalled (d : Drl) (e : Entry) : Drl :=
  if e.sigOn then { d with ctrs := d.ctrs.set e.sigCtr (d.ctrs.getD e.sigCtr 0 + 1) } else d

theorem Drl.addCtr_of_lt {d : Drl} {k n : Nat} (h : d.ctrs.getD k 0 + n < 2 ^ 24) :
    d.addCtr k n = some { d with ctrs := d.ctrs.set k (d.ctrs.getD k 0 + n) } := if_pos h

/-- While the counter of the entry stays in its range, its signal is added. -/
theorem Drl.signal_eq_signalled {d : Drl} {e : Entry} (h : e.sigOn = true → d.ctrs.getD e.sigCtr 0 + 1 < 2 ^ 24) :
    (if e.sigOn then d.addCtr e.sigCtr 1 else some d) = some (d.signalled e) := by
  unfold Drl.signalled
  split
  · exact Drl.addCtr_of_lt (h ‹_›)
  · rfl

theorem Drl.signalled_ctrs (d : Drl) (e : Entry) : (d.signalled e).ctrs =
    if e.sigOn then d.ctrs.set e.sigCtr (d.ctrs.getD e.sigCtr 0 + 1) else d.ctrs := by
  unfold Drl.signalled
  split <;> rfl

theorem Drl.retire_ctrs (d : Drl) (x : Site) : (d.retire x).ctrs = d.ctrs := by
  unfold Drl.retire
  dsimp only
  split <;> rfl

theorem Drl.retire_flights (d : Drl) (x : Site) : (d.retire x).flights = (d.dropFlight x.f.idx).flights := by
  unfold Drl.retire
  dsimp only
  split <;> rfl

theorem Drl.retire_flight (d : Drl) (x : Site) : (d.retire x).flight x.f.idx = none := by
  rw [Drl.flight, Drl.retire_flights, Drl.dropFlight, List.find?_filter]
  simp

/-! ## A completion (R126) -/

theorem State.trace_untagged {f : Flight} (h : f.tag = none) (s : State) (l : Nat) (op : Opcode) (step event unit lt : Nat) (detail : Word) :
    s.trace l f op step event unit lt detail = s := by
  rw [State.trace, h]

/-- The Derailleur that an entry leaves behind when it completes, before a pause takes effect. -/
def State.drlAfter (s : State) (x : Site) : Drl := ((s.cluster x.l).drl.signalled x.e).retire x

/-- The state once the entry has left its cluster, its completion is counted and a waiting substitution has taken place. -/
def State.left (s : State) (x : Site) : State :=
  (((s.latchFlags x).updDrl x.l (fun _ => s.drlAfter x)).count x.l [(ctCompleted, 1)]).settleSubst x.l

section
variable {s : State} {x : Site}

theorem State.complete_untagged (htrap : x.traps = false) (htag : x.f.tag = none)
    (hctr : x.e.sigOn = true → (s.cluster x.l).drl.ctrs.getD x.e.sigCtr 0 + 1 < 2 ^ 24) :
    s.complete x = if x.e.op = .stepEnd then s.left x else (s.left x).settlePause x.l := by
  have hdrl : ((s.latchFlags x).cluster x.l).drl = (s.cluster x.l).drl := State.latchFlags_part (·.drl) (fun _ _ => rfl) s x x.l
  simp only [State.complete, htrap, Bool.false_eq_true, if_false, hdrl, Drl.signal_eq_signalled hctr, State.trace_untagged htag,
    ite_self]
  rfl

theorem State.left_drl (hl : x.l < s.clusters.length) : ((s.left x).cluster x.l).drl = s.drlAfter x := by
  have hlatched : x.l < (s.latchFlags x).clusters.length := by simpa using hl
  rw [State.left, State.settleSubst_part (·.drl) (fun _ _ => rfl), State.count_drl,
    State.updDrl_self _ _ _ hlatched]

theorem sameClusters_left (s : State) (x : Site) : SameClusters s (s.left x) x.l :=
  (((sameClusters_latchFlags s x).trans (sameClusters_updCluster _ x.l _)).trans (sameClusters_updCluster _ x.l _)).trans
    (sameClusters_settleSubst _ x.l)

theorem State.left_keeps (s : State) (x : Site) : (s.left x).mem = s.mem ∧ (s.left x).hub = s.hub ∧ (s.left x).jobs = s.jobs := by
  simp [State.left]

variable (htrap : x.traps = false) (htag : x.f.tag = none)
  (hctr : x.e.sigOn = true → (s.cluster x.l).drl.ctrs.getD x.e.sigCtr 0 + 1 < 2 ^ 24)
include htrap htag hctr

/-- A part of the Derailleur that a pause keeps is the one that the entry leaves behind. -/
theorem State.complete_part {α : Type} (part : Drl → α) (h : ∀ d st req, part { d with st := st, pauseReq := req } = part d)
    (hl : x.l < s.clusters.length) : part ((s.complete x).cluster x.l).drl = part (s.drlAfter x) := by
  rw [State.complete_untagged htrap htag hctr, ← State.left_drl hl]
  split
  · rfl
  · exact State.settlePause_part part h _ _ _

theorem State.complete_flight (hl : x.l < s.clusters.length) : ((s.complete x).cluster x.l).drl.flight x.f.idx = none :=
  (State.complete_part htrap htag hctr (·.flight x.f.idx) (fun _ _ _ => rfl) hl).trans (Drl.retire_flight _ x)

theorem State.complete_ctrs (hl : x.l < s.clusters.length) :
    ((s.complete x).cluster x.l).drl.ctrs = ((s.cluster x.l).drl.signalled x.e).ctrs :=
  (State.complete_part htrap htag hctr (·.ctrs) (fun _ _ _ => rfl) hl).trans (Drl.retire_ctrs _ x)

theorem sameClusters_complete : SameClusters s (s.complete x) x.l := by
  rw [State.complete_untagged htrap htag hctr]
  split
  · exact sameClusters_left s x
  · exact (sameClusters_left s x).trans (sameClusters_settlePause _ x.l)

theorem State.complete_untagged_keeps :
    (s.complete x).mem = s.mem ∧ (s.complete x).hub = s.hub ∧ (s.complete x).jobs = s.jobs := by
  rw [State.complete_untagged htrap htag hctr]
  split
  · exact State.left_keeps s x
  · simpa using State.left_keeps s x

end

/-! ## The statement -/

/-- Settles O41: an entry that is not in flight is confirmed, and one whose work is done is completed. -/
theorem entriesCompleteAndSignal : Obligations.EntriesCompleteAndSignal := by
  intro s l idx x o hl hlen
  have hin : l < s.clusters.length := hlen ▸ hl
  constructor
  · intro hx
    refine ⟨s.confirm l idx, exec_entryComplete_of_gone hl hx, ?running, ?aborting, ?late, sameClusters_confirm s l idx, by simp⟩
    case running =>
      exact fun hst => (State.confirm_drl hin idx).trans (Drl.confirm_of_running hst idx)
    case aborting =>
      exact fun hst hlast => (State.confirm_drl hin idx).trans (Drl.confirm_last hst hlast)
    case late =>
      intro hgone
      rw [State.confirm_gone hin, State.confirm_late hin, Cluster.lateDone_of_only hgone]
      exact ⟨rfl, assoc_assocSet_self _ _ _⟩
  · intro hx hfin htrap htag hctr
    obtain ⟨rfl, rfl⟩ := State.site_place hx
    refine ⟨s.complete x, exec_entryComplete_of_finished hl hx hfin, State.complete_flight htrap htag hctr hin, ?_,
      sameClusters_complete htrap htag hctr, State.complete_untagged_keeps htrap htag hctr⟩
    exact (State.complete_ctrs htrap htag hctr hin).trans (Drl.signalled_ctrs _ _)

end Sys2Proof.Machine
end

section
/-!
Proof, the commits: a group whose shadow is in its bounds takes effect whole, any other sets its COMMIT_ERR (R140, R498).
-/

namespace Sys2Proof.Machine

/-! ## Updates of one cluster -/

/-- An update of a cluster is what it makes of that cluster. -/
theorem State.updCluster_congr (s : State) (l : Nat) {f g : Cluster → Cluster} (h : f (s.cluster l) = g (s.cluster l)) :
    s.updCluster l f = s.updCluster l g := by
  have hmodify : s.clusters.modify l f = s.clusters.modify l g := by
    refine List.ext_getElem? fun k => ?_
    simp only [List.getElem?_modify]
    rcases eq_or_ne l k with rfl | hk
    · simp only [if_true]
      cases hc : s.clusters[l]? with
      | none => rfl
      | some c =>
        have hat : s.cluster l = c := by simp [State.cluster, hc]
        simpa [hat] using h
    · simp only [if_neg hk]
  rw [State.updCluster, hmodify, State.updCluster]

/-- Two updates of one cluster are one. -/
theorem State.updCluster_twice (s : State) (l : Nat) (f g : Cluster → Cluster) :
    (s.updCluster l f).updCluster l g = s.updCluster l (fun c => g (f c)) := by
  simp only [State.updCluster, List.modify_modify_eq]
  rfl

/-- What an update of a Derailleur makes of it. -/
@[simp] theorem State.updDrl_drl (s : State) (l : Nat) (f : Drl → Drl) (h : l < s.clusters.length) :
    ((s.updDrl l f).cluster l).drl = f (s.cluster l).drl := congrArg (·.drl) (State.updDrl_self s l f h)

theorem State.updDrl_congr (s : State) (l : Nat) {f g : Drl → Drl} (h : f (s.cluster l).drl = g (s.cluster l).drl) :
    s.updDrl l f = s.updDrl l g := s.updCluster_congr l (by simp [h])

theorem State.updDrl_twice (s : State) (l : Nat) (f g : Drl → Drl) : (s.updDrl l f).updDrl l g = s.updDrl l (fun d => g (f d)) :=
  s.updCluster_twice l _ _

/-! ## A commit of a group -/

section
variable {s : State}

theorem onHub_of_alive (h : s.alive = true) (o : Out) : onHub s o = o := if_pos h

theorem onCluster_of_lt {l : Nat} (h : l < 128) (o : Out) : onCluster l o = o := if_pos h

end

/-! ## The statement -/

/-- Settles O7: each commit word is its group's commit, which decides by the bounds of the shadow alone. -/
theorem commitsTakeEffectOrAreRefused : Obligations.CommitsTakeEffectOrAreRefused := by
  have hcluster {s : State} {l : Nat} (ha : s.alive = true) (hl : l < 128) (t : State) :
      onCluster l (onHub s (.next t)) = .next t := by rw [onCluster_of_lt hl, onHub_of_alive ha]
  constructor
  · intro s l ctx ha hl hlen
    refine ⟨fun h => ?drl, fun h => ?til, ?chn, fun h => ?ctrc, fun h => ?opt, ?sol, fun h => ?mem, fun h => ?hdg, fun h => ?hub,
      fun h => ?tst, fun h => ?tune, fun h => ?ctr, fun h => ?pwr⟩
    case drl => exact (hcluster ha hl _).trans (congrArg _ (s.updCluster_congr l (by simp [Cluster.commitDrl, h])))
    case til => exact (hcluster ha hl _).trans (congrArg _ (s.updCluster_congr l (by simp [Cluster.commitTil, h])))
    case chn => exact (hcluster ha hl _).trans (congrArg _ (s.updCluster_congr l rfl))
    case ctrc =>
      refine (hcluster ha hl _).trans (congrArg _ ?_)
      rw [State.commitCtrc, if_pos h]
      exact s.updCluster_congr l rfl
    case opt => exact (onHub_of_alive ha _).trans (by rw [Hub.commitOpt, if_pos h])
    case sol => exact onHub_of_alive ha _
    case mem => exact (onHub_of_alive ha _).trans (by rw [Pages.commit, if_pos h])
    case hdg => exact (onHub_of_alive ha _).trans (by rw [Fab.commit, if_pos h])
    case hub => exact (onHub_of_alive ha _).trans (by rw [Hub.commitHub, if_pos h])
    case tst => exact (onHub_of_alive ha _).trans (by rw [Start.commitTst, if_pos h])
    case tune => exact (onHub_of_alive ha _).trans (by rw [Hist.commitTune, if_pos h])
    case ctr => exact (onHub_of_alive ha _).trans (by rw [Ctr.commit, if_pos h])
    case pwr =>
      refine ⟨_, onHub_of_alive ha _, ?_⟩
      rw [Power.commit, if_pos h]
      exact ⟨rfl, rfl⟩
  · intro s l ctx ha hl hlen
    refine ⟨fun h => ?drl, fun h => ?til, fun h => ?ctrc, fun h => ?opt, fun h => ?mem, fun h => ?hdg, fun h => ?hub,
      fun h => ?tst, fun h => ?tune, fun h => ?ctr, fun h => ?pwr⟩
    case drl => exact (hcluster ha hl _).trans (congrArg _ (s.updCluster_congr l (by simp [Cluster.commitDrl, h])))
    case til => exact (hcluster ha hl _).trans (congrArg _ (s.updCluster_congr l (by simp [Cluster.commitTil, h])))
    case ctrc =>
      refine (hcluster ha hl _).trans (congrArg _ ?_)
      rw [State.commitCtrc, h]
      rfl
    case opt => exact (onHub_of_alive ha _).trans (by rw [Hub.commitOpt, h]; rfl)
    case mem => exact (onHub_of_alive ha _).trans (by rw [Pages.commit, h]; rfl)
    case hdg => exact (onHub_of_alive ha _).trans (by rw [Fab.commit, h]; rfl)
    case hub => exact (onHub_of_alive ha _).trans (by rw [Hub.commitHub, h]; rfl)
    case tst => exact (onHub_of_alive ha _).trans (by rw [Start.commitTst, h]; rfl)
    case tune => exact (onHub_of_alive ha _).trans (by rw [Hist.commitTune, h]; rfl)
    case ctr => exact (onHub_of_alive ha _).trans (by rw [Ctr.commit, h]; rfl)
    case pwr => exact (onHub_of_alive ha _).trans (by rw [Power.commit, h]; rfl)

end Sys2Proof.Machine
end

section
/-!
Proof, the words that pause a cluster, resume it and substitute a tile (R143, R153, R183).
-/

namespace Sys2Proof.Machine

theorem exec_pause {s : State} {l : Nat} (ha : s.alive = true) (hl : l < 128) : exec (.pause l) s = .next (s.pause l) :=
  (onCluster_of_lt hl _).trans (onHub_of_alive ha _)

theorem exec_drlCmdResume {s : State} {l : Nat} (ha : s.alive = true) (hl : l < 128) :
    exec (.drlCmdResume l) s = .next (s.updCluster l Cluster.resume) :=
  (onCluster_of_lt hl _).trans (onHub_of_alive ha _)

theorem exec_subst {s : State} {l t : Nat} (ha : s.alive = true) (hl : l < 128) : exec (.subst l t) s = .next (s.requestSubst l t) :=
  (onCluster_of_lt hl _).trans (onHub_of_alive ha _)

/-! ## A pause that takes effect (R143, R153) -/

/-- A pause waits where it was not asked for, where an entry is in flight, and where the cluster does not run. -/
theorem State.settlePause_of_waits {s : State} {l : Nat}
    (h : (s.cluster l).drl.pauseReq = false ∨ (s.cluster l).drl.flights ≠ [] ∨ (s.cluster l).drl.st ≠ .running) : s.settlePause l = s := by
  refine if_neg fun hp => ?_
  simp only [Bool.and_eq_true, List.isEmpty_iff, beq_iff_eq] at hp
  obtain ⟨⟨⟨⟨hreq, hflights⟩, hst⟩, -⟩, -⟩ := hp
  rcases h with h | h | h
  · exact absurd hreq (by simp [h])
  · exact h hflights
  · exact h hst

/-- With nothing in flight it takes effect, where neither a migration nor a suspension is due there. -/
theorem State.settlePause_of_acts {s : State} {l : Nat} (hreq : (s.cluster l).drl.pauseReq = true) (hflights : (s.cluster l).drl.flights = [])
    (hst : (s.cluster l).drl.st = .running) (hmig : (s.cluster l).migDue = false) (hsusp : (s.cluster l).drl.suspendReq = false) :
    s.settlePause l = s.updDrl l (fun d => { d with st := .paused, pauseReq := false }) := by
  refine if_pos ?_
  simp [hreq, hflights, hst, State.migActs, State.suspActs, hmig, hsusp]

theorem Drl.pause_of_running {d : Drl} (h : d.st = .running) : d.pause = { d with pauseReq := true } := by
  rw [Drl.pause, h]

section
variable {s : State} {l : Nat} (hl : l < s.clusters.length) (hst : (s.cluster l).drl.st = .running)
include hst

/-- PAUSE of a running cluster asks for the pause first. -/
theorem State.pause_of_running : s.pause l = (s.updDrl l (fun d => { d with pauseReq := true })).settlePause l :=
  congrArg (State.settlePause · l) (s.updDrl_congr l (Drl.pause_of_running hst))

include hl

theorem State.pause_now (hflights : (s.cluster l).drl.flights = []) (hmig : (s.cluster l).migDue = false)
    (hsusp : (s.cluster l).drl.suspendReq = false) :
    s.pause l = s.updDrl l (fun d => { d with st := .paused, pauseReq := false }) := by
  rw [State.pause_of_running hst, State.settlePause_of_acts]
  · exact s.updDrl_twice l _ _
  all_goals rw [State.updDrl_self _ _ _ hl]
  all_goals assumption

theorem State.pause_later (hflights : (s.cluster l).drl.flights ≠ []) :
    s.pause l = s.updDrl l (fun d => { d with pauseReq := true }) := by
  rw [State.pause_of_running hst]
  refine State.settlePause_of_waits (.inr (.inl ?_))
  rwa [State.updDrl_drl _ _ _ hl]

end

theorem Cluster.resume_of_paused {c : Cluster} (hst : c.drl.st = .paused) (hunder : c.under = none) :
    c.resume = { c with drl := { c.drl with st := .running, pauseReq := false } } := by
  rw [Cluster.resume, hunder, Drl.resume, hst]

/-! ## A substitution (R183) -/

/-- Whether a tile is busy is a matter of the cluster's Derailleur and of the jobs. -/
theorem State.tileBusy_congr {s u : State} {l : Nat} (hdrl : (u.cluster l).drl = (s.cluster l).drl) (hjobs : u.jobs = s.jobs) (t : Nat) :
    u.tileBusy l t = s.tileBusy l t := by
  have hjob : u.jobOf = s.jobOf := funext fun k => by rw [State.jobOf, State.job, hjobs, State.jobOf, State.job]
  rw [State.tileBusy, hdrl, hjob]
  rfl

theorem State.settleSubst_of_idle {s : State} {l t p : Nat} (hwait : (s.cluster l).til.substWaiting = some t)
    (hbusy : s.tileBusy l t = false) (hphys : s.start.phys l = some p) :
    s.settleSubst l = (s.updCluster l (fun c => { c with til := { c.til with
      substWaiting := none, spareFree := false, spareLtile := t } })).setPCl p (fun c => c.substitute t) := by
  simp [State.settleSubst, hwait, hbusy, hphys]

/-- SUBST of an idle tile while the spare is free: the cluster's tiles, and the record of its physical cluster. -/
theorem State.requestSubst_of_idle {s : State} {l t p : Nat} (hl : l < s.clusters.length) (ht : t < 8)
    (hfree : (s.cluster l).til.spareFree = true) (hwait : (s.cluster l).til.substWaiting = none) (hbusy : s.tileBusy l t = false)
    (hphys : s.start.phys l = some p) :
    s.requestSubst l t = (s.updCluster l (fun c => { c with til := { c.til with spareFree := false, spareLtile := t } })).setPCl p
      (fun c => c.substitute t) := by
  have hself := State.cluster_updCluster_self s l (fun c => { c with til := { c.til with substWaiting := some t } }) hl
  refine (if_pos ⟨hfree, ht, hwait⟩).trans ((State.settleSubst_of_idle (congrArg (·.til.substWaiting) hself) ?_ (by exact hphys)).trans ?_)
  · exact (State.tileBusy_congr (congrArg (·.drl) hself) (by rfl) t).trans hbusy
  · refine congrArg (State.setPCl · p _) ((s.updCluster_twice l _ _).trans (s.updCluster_congr l ?_))
    simp [hwait]

/-! ## The statement -/

/-- Settles O9, word by word. -/
theorem pauseResumeAndSubstitute : Obligations.PauseResumeAndSubstitute := by
  intro s l t p ha hl hlen
  have hin : l < s.clusters.length := hlen ▸ hl
  refine ⟨fun hst hflights hmig hsusp => ?now, fun hst hflights => ?later, fun hst hunder => ?resume, fun ht hfree hwait hbusy hphys => ?subst⟩
  case now => rw [exec_pause ha hl, State.pause_now hin hst hflights hmig hsusp]
  case later => rw [exec_pause ha hl, State.pause_later hin hst hflights]
  case resume =>
    rw [exec_drlCmdResume ha hl]
    exact congrArg _ (s.updCluster_congr l (Cluster.resume_of_paused hst hunder))
  case subst =>
    refine ⟨_, exec_subst ha hl, ?_⟩
    rw [State.requestSubst_of_idle hin ht hfree hwait hbusy hphys]
    have hself := State.cluster_updCluster_self s l (fun c => { c with til := { c.til with spareFree := false, spareLtile := t } }) hin
    exact ⟨congrArg (·.til) hself, congrArg (·.drl) hself, sameClusters_updCluster s l _, rfl, rfl⟩

end Sys2Proof.Machine
end

section
/-!
Proof, the issue decision: the entry that a decision picks (R124), what an issue leaves of its cluster and of the others (R122, R536), and
a stroke that issues nothing (R526, R556).
-/

namespace Sys2Proof.Machine

/-! ## The entry that the decision picks (R124) -/

theorem Deck.cut_sublist (k : Deck) (is : List Nat) : (k.cut is).Sublist is := by
  induction is with
  | nil => exact .slnil
  | cons i is ih =>
    rw [Deck.cut]
    split
    · exact (List.nil_sublist is).cons_cons i
    · exact ih.cons_cons i

/-- The window lists its entries in order. -/
theorem Deck.window_sorted (k : Deck) : k.window.Pairwise (· < ·) := by
  unfold Deck.window
  split
  · exact .nil
  · have hall : ((List.range k.c.window).map (· + k.d.head)).Pairwise (· < ·) :=
      List.pairwise_lt_range.map _ fun a b h => Nat.add_lt_add_right h _
    exact (hall.filter _).sublist ((List.filter_sublist).trans (k.cut_sublist _))

/-- What a search finds in a sorted list is below everything else that fits. -/
theorem find_le_of_sorted {p : Nat → Bool} {is : List Nat} (hs : is.Pairwise (· < ·)) {i : Nat} (h : is.find? p = some i) :
    ∀ j ∈ is, p j = true → i ≤ j := by
  obtain ⟨-, pre, post, rfl, hpre⟩ := List.find?_eq_some_iff_append.1 h
  intro j hj hp
  rcases List.mem_append.1 hj with hj | hj
  · exact absurd hp (by simpa using hpre j hj)
  · rcases List.mem_cons.1 hj with rfl | hj
    · exact Nat.le_refl j
    · exact Nat.le_of_lt ((List.pairwise_cons.1 (List.pairwise_append.1 hs).2.1).1 j hj)

/-- An entry may issue as far as a stop that is asked for is concerned. -/
def belowLimit (lim : Option Nat) (i : Nat) : Bool := match lim with | some b => i < b | none => true

theorem belowLimit_iff (lim : Option Nat) (i : Nat) : belowLimit lim i = true ↔ ∀ b, lim = some b → i < b := by
  cases lim <;> simp [belowLimit]

theorem State.nextIssue_eq (s : State) (l : Nat) (k : Deck) : s.nextIssue l k =
    if k.mayIssue then k.window.find? (fun i => belowLimit (s.stopAt l k) i && s.ready l k i) else none := rfl

/-- The entry that issues next: it stands in the window and is ready, and no lower one is. -/
theorem State.nextIssue_lowest {s : State} {l : Nat} {k : Deck} {i : Nat} (h : s.nextIssue l k = some i) :
    i ∈ k.window ∧ s.ready l k i = true ∧ (∀ b, s.stopAt l k = some b → i < b) ∧
      ∀ j ∈ k.window, s.ready l k j = true → (∀ b, s.stopAt l k = some b → j < b) → i ≤ j := by
  rw [State.nextIssue_eq] at h
  split at h
  · have hfits := List.find?_some h
    rw [Bool.and_eq_true, belowLimit_iff] at hfits
    refine ⟨List.mem_of_find?_eq_some h, hfits.2, hfits.1, fun j hj hready hbelow => ?_⟩
    refine find_le_of_sorted k.window_sorted h j hj ?_
    rw [Bool.and_eq_true, belowLimit_iff]
    exact ⟨hbelow, hready⟩
  · cases h

/-! ## What traces and counts leave of a cluster -/

theorem State.cluster_of_clusters {s t : State} (h : t.clusters = s.clusters) (k : Nat) : t.cluster k = s.cluster k := by
  rw [State.cluster, h, State.cluster]

theorem State.count_part {α : Type} (part : Cluster → α) (h : ∀ c ctr, part { c with ctr := ctr } = part c) (s : State) (l : Nat)
    (ws : List (Nat × Nat)) (k : Nat) : part ((s.count l ws).cluster k) = part (s.cluster k) :=
  State.updCluster_part part (fun c => h c _) s l k

theorem State.trace_part {α : Type} (part : Cluster → α) (h : ∀ c ctr, part { c with ctr := ctr } = part c) (s : State) (l : Nat)
    (f : Flight) (op : Opcode) (step event unit lt : Nat) (detail : Word) (k : Nat) :
    part ((s.trace l f op step event unit lt detail).cluster k) = part (s.cluster k) := by
  unfold State.trace
  split
  · rfl
  · rw [State.count_part part h]
    exact congrArg part (State.cluster_of_clusters (by simp) k)

theorem sameClusters_trace (s : State) (l : Nat) (f : Flight) (op : Opcode) (step event unit lt : Nat) (detail : Word) :
    SameClusters s (s.trace l f op step event unit lt detail) l := by
  intro k hk
  unfold State.trace
  split
  · rfl
  · exact (State.cluster_updCluster_other _ l k _ hk).trans (State.cluster_of_clusters (by simp) k)

/-- The records of the units that begin an entry (R536). -/
def State.traceUnits (s : State) (l : Nat) (f : Flight) (e : Entry) (step : Nat) : State :=
  e.op.units.foldl (fun s u =>
    if u = 1 then (List.range 8).foldl (fun s t => if e.mask.testBit t then s.trace l f e.op step 2 1 t 0 else s) s
    else s.trace l f e.op step 2 u 0 0) s

/-- What every trace keeps, the records of the units keep. -/
theorem State.traceUnits_keeps {α : Type} (p : State → α) {l : Nat} {f : Flight} {e : Entry} {step : Nat}
    (h : ∀ (s : State) (event unit lt : Nat) (detail : Word), p (s.trace l f e.op step event unit lt detail) = p s) (s : State) :
    p (s.traceUnits l f e step) = p s := by
  refine foldl_keeps p _ (fun s u => ?_) _ s
  split
  · refine foldl_keeps p _ (fun s t => ?_) _ s
    split
    · exact h s _ _ _ _
    · rfl
  · exact h s _ _ _ _

/-! ## An issue (R122) -/

/-- The Derailleur with an entry in flight: a STREAM takes its slot (R381). -/
def Drl.launch (d : Drl) (k : Deck) (e : Entry) (f : Flight) : Drl :=
  let d := d.issue f
  let d := { d with tags := d.tags + b2n f.tag.isSome }
  match (if e.op = .stream then k.job.windowSlot e else none) with
  | some q => { d with held := q :: d.held }
  | none => d

/-- An entry that issues is counted, and a late completion of it is no longer awaited. -/
def State.launchQuiet (s : State) (l : Nat) (k : Deck) (i : Nat) (e : Entry) : State :=
  ((s.updDrl l (fun d => d.launch k e (s.flightOf l k i e))).updCluster l (fun c => { c with gone := c.gone.filter (fun g => g.2 ≠ some i) })).count l
    [(ctIssued, 1), (ctReordered, b2n (k.d.head < i)), (ctTagged, b2n (s.flightOf l k i e).tag.isSome)]

/-- The entry in flight, before a NOP or a FENCE completes. -/
def State.launch (s : State) (l : Nat) (k : Deck) (i : Nat) (e : Entry) : State :=
  let f := s.flightOf l k i e
  let u := s.launchQuiet l k i e
  (u.trace l f e.op (u.stepOf k.key) 1 6 0 (BitVec.ofNat 64 k.window.length)).traceUnits l f e (u.stepOf k.key)

theorem State.issue_eq (s : State) (l : Nat) (k : Deck) (i : Nat) (e : Entry) : s.issue l k i e =
    if e.op = .nop ∨ e.op = .fence then (s.launch l k i e).complete ⟨l, k.key, k.job, e, s.flightOf l k i e⟩ else s.launch l k i e := rfl

/-- What every trace of the entry keeps, the issue keeps once the entry is counted. -/
theorem State.launch_keeps {α : Type} (p : State → α) {l : Nat} {k : Deck} {i : Nat} {e : Entry} {s : State}
    (h : ∀ (u : State) (step event unit lt : Nat) (detail : Word), p (u.trace l (s.flightOf l k i e) e.op step event unit lt detail) = p u) :
    p (s.launch l k i e) = p (s.launchQuiet l k i e) :=
  (State.traceUnits_keeps p (fun u _ _ _ _ => h u _ _ _ _ _) _).trans (h _ _ _ _ _ _)

section
variable (s : State) (l : Nat) (k : Deck) (i : Nat) (e : Entry)

theorem State.launch_drl (hl : l < s.clusters.length) :
    ((s.launch l k i e).cluster l).drl = (s.cluster l).drl.launch k e (s.flightOf l k i e) := by
  rw [State.launch_keeps (fun u => (u.cluster l).drl) fun u _ _ _ _ _ => State.trace_part (·.drl) (fun _ _ => rfl) ..]
  rw [State.launchQuiet, State.count_part (·.drl) (fun _ _ => rfl), State.updCluster_part (·.drl), State.updDrl_drl _ _ _ hl]
  exact fun _ => rfl

theorem State.launch_strokes : ((s.launch l k i e).cluster l).strokes = (s.cluster l).strokes := by
  rw [State.launch_keeps (fun u => (u.cluster l).strokes) fun u _ _ _ _ _ => State.trace_part (·.strokes) (fun _ _ => rfl) ..]
  rw [State.launchQuiet, State.count_part (·.strokes) (fun _ _ => rfl), State.updCluster_part (·.strokes), State.updDrl,
    State.updCluster_part (·.strokes)]
  all_goals exact fun _ => rfl

theorem sameClusters_launch : SameClusters s (s.launch l k i e) l := by
  have hquiet : SameClusters s (s.launchQuiet l k i e) l :=
    ((sameClusters_updCluster s l _).trans (sameClusters_updCluster _ l _)).trans (sameClusters_updCluster _ l _)
  exact hquiet.trans fun n hn => State.launch_keeps (·.cluster n) fun u _ _ _ _ _ => sameClusters_trace u l _ _ _ _ _ _ _ n hn

theorem State.launch_hub : (s.launch l k i e).hub = s.hub := by
  rw [State.launch_keeps (·.hub) fun u _ _ _ _ _ => by simp]
  simp [State.launchQuiet]

theorem State.launch_jobs : (s.launch l k i e).jobs = s.jobs := by
  rw [State.launch_keeps (·.jobs) fun u _ _ _ _ _ => by simp]
  simp [State.launchQuiet]

theorem State.launch_length : (s.launch l k i e).clusters.length = s.clusters.length := by
  rw [State.launch_keeps (·.clusters.length) fun u _ _ _ _ _ => by simp]
  simp [State.launchQuiet]

theorem State.launch_mem (h : (s.flightOf l k i e).tag = none) : (s.launch l k i e).mem = s.mem := by
  rw [State.launch_keeps (·.mem) fun u _ _ _ _ _ => by rw [State.trace_untagged h]]
  simp [State.launchQuiet]

end

/-! ### The Derailleur that has issued -/

/-- What `advanceHead` is given lies below its HEAD or among the entries ahead of it. -/
theorem advanceHead_mem (fuel h : Nat) (is : List Nat) :
    h ≤ (advanceHead fuel h is).1 ∧ ∀ i ∈ is, i < (advanceHead fuel h is).1 ∨ i ∈ (advanceHead fuel h is).2 := by
  induction fuel generalizing h is with
  | zero => exact ⟨Nat.le_refl h, fun i hi => .inr hi⟩
  | succ fuel ih =>
    rw [advanceHead]
    split
    · obtain ⟨hle, hmem⟩ := ih (h + 1) (is.filter (· ≠ h))
      refine ⟨Nat.le_of_succ_le hle, fun i hi => ?_⟩
      rcases eq_or_ne i h with rfl | hne
      · exact .inl hle
      · exact hmem i (List.mem_filter.2 ⟨hi, by simpa using hne⟩)
    · exact ⟨Nat.le_refl h, fun i hi => .inr hi⟩

theorem Drl.issue_issued (d : Drl) (f : Flight) : (d.issue f).issued f.idx = true := by
  have h := (advanceHead_mem (d.ahead.length + 1) d.head (f.idx :: d.ahead)).2 f.idx List.mem_cons_self
  exact Bool.or_eq_true_iff.2 (h.imp decide_eq_true List.contains_iff_mem.2)

/-- The slot that a STREAM takes and the count of tags stand apart from the rest. -/
theorem Drl.launch_part {α : Type} (part : Drl → α) (h : ∀ d tags held, part { d with tags := tags, held := held } = part d) (d : Drl)
    (k : Deck) (e : Entry) (f : Flight) : part (d.launch k e f) = part (d.issue f) := by
  unfold Drl.launch
  dsimp only
  split
  · exact h (d.issue f) _ _
  · exact h (d.issue f) _ _

theorem Drl.launch_flights (d : Drl) (k : Deck) (e : Entry) (f : Flight) : (d.launch k e f).flights = d.flights ++ [f] :=
  Drl.launch_part (·.flights) (fun _ _ _ => rfl) d k e f

theorem Drl.launch_ctrs (d : Drl) (k : Deck) (e : Entry) (f : Flight) : (d.launch k e f).ctrs = d.ctrs :=
  Drl.launch_part (·.ctrs) (fun _ _ _ => rfl) d k e f

theorem Drl.launch_issued (d : Drl) (k : Deck) (e : Entry) (f : Flight) : (d.launch k e f).issued f.idx = true :=
  (Drl.launch_part (·.issued f.idx) (fun _ _ _ => rfl) d k e f).trans (d.issue_issued f)

/-! ## A completion of an entry that may be tagged -/

/-- The records of an entry's end (R536). -/
def State.traceEnd (s : State) (x : Site) : State :=
  let s := if x.f.work = .requests then s.trace x.l x.f x.e.op (s.stepOf x.key) 6 7 0 (BitVec.ofNat 64 x.f.sent) else s
  s.trace x.l x.f x.e.op (s.stepOf x.key) 7 6 0 0

theorem State.traceEnd_keeps {α : Type} (p : State → α) {x : Site}
    (h : ∀ (u : State) (step event unit lt : Nat) (detail : Word), p (u.trace x.l x.f x.e.op step event unit lt detail) = p u) (s : State) :
    p (s.traceEnd x) = p s := by
  unfold State.traceEnd
  dsimp only
  split
  · exact (h _ _ _ _ _ _).trans (h _ _ _ _ _ _)
  · exact h _ _ _ _ _ _

/-- The state once an entry that may be tagged has left its cluster. -/
def State.leftTraced (s : State) (x : Site) : State :=
  ((((s.latchFlags x).traceEnd x).updDrl x.l (fun _ => s.drlAfter x)).count x.l [(ctCompleted, 1)]).settleSubst x.l

section
variable {s : State} {x : Site}

theorem State.complete_untrapped (htrap : x.traps = false)
    (hctr : x.e.sigOn = true → (s.cluster x.l).drl.ctrs.getD x.e.sigCtr 0 + 1 < 2 ^ 24) :
    s.complete x = if x.e.op = .stepEnd then s.leftTraced x else (s.leftTraced x).settlePause x.l := by
  have hdrl : ((s.latchFlags x).cluster x.l).drl = (s.cluster x.l).drl := State.latchFlags_part (·.drl) (fun _ _ => rfl) s x x.l
  simp only [State.complete, htrap, Bool.false_eq_true, if_false, hdrl, Drl.signal_eq_signalled hctr]
  rfl

theorem State.leftTraced_drl (hl : x.l < s.clusters.length) : ((s.leftTraced x).cluster x.l).drl = s.drlAfter x := by
  have hlen : x.l < ((s.latchFlags x).traceEnd x).clusters.length := by
    rw [State.traceEnd_keeps (·.clusters.length) fun u _ _ _ _ _ => by simp]
    simpa using hl
  rw [State.leftTraced, State.settleSubst_part (·.drl) (fun _ _ => rfl), State.count_drl, State.updDrl_drl _ _ _ hlen]

theorem sameClusters_leftTraced (s : State) (x : Site) : SameClusters s (s.leftTraced x) x.l := by
  have htraced : SameClusters (s.latchFlags x) ((s.latchFlags x).traceEnd x) x.l := fun n hn =>
    State.traceEnd_keeps (·.cluster n) (fun u _ _ _ _ _ => sameClusters_trace u x.l _ _ _ _ _ _ _ n hn) _
  exact ((((sameClusters_latchFlags s x).trans htraced).trans (sameClusters_updCluster _ x.l _)).trans (sameClusters_updCluster _ x.l _)).trans
    (sameClusters_settleSubst _ x.l)

theorem State.leftTraced_keeps (s : State) (x : Site) : (s.leftTraced x).hub = s.hub ∧ (s.leftTraced x).jobs = s.jobs := by
  have hhub := State.traceEnd_keeps (·.hub) (x := x) (fun u _ _ _ _ _ => by simp) (s.latchFlags x)
  have hjobs := State.traceEnd_keeps (·.jobs) (x := x) (fun u _ _ _ _ _ => by simp) (s.latchFlags x)
  simp [State.leftTraced, hhub, hjobs]

variable (htrap : x.traps = false) (hctr : x.e.sigOn = true → (s.cluster x.l).drl.ctrs.getD x.e.sigCtr 0 + 1 < 2 ^ 24)
include htrap hctr

theorem State.complete_untrapped_part {α : Type} (part : Drl → α) (h : ∀ d st req, part { d with st := st, pauseReq := req } = part d)
    (hl : x.l < s.clusters.length) : part ((s.complete x).cluster x.l).drl = part (s.drlAfter x) := by
  rw [State.complete_untrapped htrap hctr, ← State.leftTraced_drl hl]
  split
  · rfl
  · exact State.settlePause_part part h _ _ _

theorem sameClusters_complete_untrapped : SameClusters s (s.complete x) x.l := by
  rw [State.complete_untrapped htrap hctr]
  split
  · exact sameClusters_leftTraced s x
  · exact (sameClusters_leftTraced s x).trans (sameClusters_settlePause _ x.l)

theorem State.complete_untrapped_keeps : (s.complete x).hub = s.hub ∧ (s.complete x).jobs = s.jobs := by
  rw [State.complete_untrapped htrap hctr]
  split
  · exact State.leftTraced_keeps s x
  · simpa using State.leftTraced_keeps s x

end

/-- An entry without SIG_ON that is neither RELEASE nor COPY leaves its Derailleur as it is, but for its flight. -/
theorem State.drlAfter_plain {s : State} {x : Site} (hsig : x.e.sigOn = false) (hop : x.e.op ≠ .release ∧ x.e.op ≠ .copy) :
    s.drlAfter x = (s.cluster x.l).drl.dropFlight x.f.idx := by
  have hsignal : (s.cluster x.l).drl.signalled x.e = (s.cluster x.l).drl := if_neg (by simp [hsig])
  rw [State.drlAfter, hsignal, Drl.retire]
  split
  · exact absurd ‹_› hop.1
  · exact absurd ‹_› hop.2
  · rfl

theorem Site.traps_of_unchained {x : Site} (h : x.chain = none) : x.traps = false := by
  rw [Site.traps, h]

/-! ## A stroke (R526, R528, R556) -/

theorem Cluster.overCounts_part {α : Type} (part : Cluster → α) (h : ∀ c ctr above, part { c with ctr := ctr, above := above } = part c)
    (c : Cluster) : part c.overCounts = part c := by
  refine foldl_keeps part _ (fun c u => ?_) _ c
  extract_lets w
  split
  · rfl
  · exact h c _ _

theorem State.drlStroke_part {α : Type} (part : Cluster → α) (h : ∀ c ctr above, part { c with ctr := ctr, above := above } = part c)
    (s : State) (l : Nat) (go : Bool) (k : Nat) : part ((s.drlStroke l go).cluster k) = part (s.cluster k) :=
  (State.updCluster_part part (fun c => Cluster.overCounts_part part h c) _ l k).trans
    (State.count_part part (fun c ctr => h c ctr c.above) s l _ k)

/-- A stroke counted, on which an entry issues or none does. -/
def State.stroke (s : State) (l : Nat) (go : Bool) : State :=
  (s.drlStroke l go).updCluster l (fun c => { c with strokes := if go then 0 else min 63 (c.strokes + 1) })

theorem State.stroke_only (s : State) (l : Nat) (go : Bool) : s.stroke l go = { s with clusters := (s.stroke l go).clusters } := rfl

theorem State.stroke_drl (s : State) (l : Nat) (go : Bool) (k : Nat) : ((s.stroke l go).cluster k).drl = (s.cluster k).drl := by
  rw [State.stroke, State.updCluster_part (·.drl), State.drlStroke_part (·.drl) fun _ _ _ => rfl]
  exact fun _ => rfl

theorem State.stroke_length (s : State) (l : Nat) (go : Bool) : (s.stroke l go).clusters.length = s.clusters.length := by
  simp [State.stroke]

theorem State.stroke_strokes {s : State} {l : Nat} (hl : l < s.clusters.length) (go : Bool) :
    ((s.stroke l go).cluster l).strokes = if go then 0 else min 63 ((s.cluster l).strokes + 1) := by
  rw [State.stroke, State.cluster_updCluster_self _ _ _ (by simpa using hl)]
  dsimp only
  rw [State.drlStroke_part (·.strokes) (fun _ _ _ => rfl)]

theorem sameClusters_stroke (s : State) (l : Nat) (go : Bool) : SameClusters s (s.stroke l go) l :=
  ((sameClusters_updCluster s l _).trans (sameClusters_updCluster _ l _)).trans (sameClusters_updCluster _ l _)

theorem State.flightOf_stroke (s : State) (l : Nat) (go : Bool) (k : Deck) (i : Nat) (e : Entry) :
    (s.stroke l go).flightOf l k i e = s.flightOf l k i e := rfl

/-! ## The decision -/

theorem exec_issueDecision {l : Nat} (hl : l < 128) (s : State) : exec (.issueDecision l) s = .next (s.stepDecide l) :=
  onCluster_of_lt hl _

/-- What the decision picks, on a stroke that issue gating does not hold back (R556). -/
def State.picks (s : State) (l : Nat) : Option (Deck × Nat × Entry) :=
  match (if s.pwr.gate ≤ (s.cluster l).strokes + 1 then s.deck l else none) with
  | none => none
  | some k => (s.nextIssue l k).bind (fun i => (k.entry i).map (fun e => (k, i, e)))

/-- The stroke counted, and the picked entry issued. -/
def State.decided (s : State) (l : Nat) (next : Option (Deck × Nat × Entry)) : State :=
  match next with
  | none => s.stroke l next.isSome
  | some (k, i, e) => (s.stroke l next.isSome).issue l k i e

section
variable {s : State} {l : Nat}

theorem State.stepDecide_eq (hon : s.clusterOn l = true) : s.stepDecide l = s.decided l (s.picks l) := by
  rw [State.stepDecide, hon]
  rfl

theorem State.picks_of_gated (h : (s.cluster l).strokes + 1 < s.pwr.gate) : s.picks l = none := by
  rw [State.picks, if_neg (Nat.not_le.2 h)]

theorem State.picks_of_open (h : s.pwr.gate ≤ (s.cluster l).strokes + 1) {k : Deck} (hk : s.deck l = some k) :
    s.picks l = (s.nextIssue l k).bind (fun i => (k.entry i).map (fun e => (k, i, e))) := by
  rw [State.picks, if_pos h, hk]

variable {k : Deck} (hon : s.clusterOn l = true) (hk : s.deck l = some k)
include hon hk

/-- With an entry ready, and no stroke held back, the entry issues. -/
theorem State.stepDecide_issues {i : Nat} {e : Entry} (hi : s.nextIssue l k = some i) (he : k.entry i = some e)
    (hgate : s.pwr.gate ≤ (s.cluster l).strokes + 1) : s.stepDecide l = (s.stroke l true).issue l k i e := by
  have hpicks : s.picks l = some (k, i, e) := by simp [State.picks_of_open hgate hk, hi, he]
  rw [State.stepDecide_eq hon, hpicks]
  rfl

/-- With no entry ready, or on a stroke held back, the stroke alone is counted. -/
theorem State.stepDecide_idles (h : s.nextIssue l k = none ∨ (s.cluster l).strokes + 1 < s.pwr.gate) : s.stepDecide l = s.stroke l false := by
  have hpicks : s.picks l = none := by
    rcases Nat.lt_or_ge ((s.cluster l).strokes + 1) s.pwr.gate with hgate | hgate
    · exact State.picks_of_gated hgate
    · rw [State.picks_of_open hgate hk, h.resolve_right (Nat.not_lt.2 hgate)]
      rfl
  rw [State.stepDecide_eq hon, hpicks]
  rfl

end

/-! ## The statement -/

/-- Settles O40: the decision finds the lowest ready entry, and the issue or the idle stroke is all that follows. -/
theorem lowestReadyEntryIssues : Obligations.LowestReadyEntryIssues := by
  intro s l k hl hlen hon hk
  have hin : l < s.clusters.length := hlen ▸ hl
  refine ⟨fun i e hi he => ?issues, fun h => ?idles⟩
  case idles =>
    refine ⟨_, exec_issueDecision hl s, ?_⟩
    rw [State.stepDecide_idles hon hk h]
    exact ⟨s.stroke_drl l false l, State.stroke_strokes hin false, sameClusters_stroke s l false, s.stroke_only l false⟩
  case issues =>
    obtain ⟨hwindow, hready, hbelow, hlowest⟩ := State.nextIssue_lowest hi
    refine ⟨hwindow, hready, hbelow, hlowest, fun hgate => ?_⟩
    have hdecide := State.stepDecide_issues hon hk hi he hgate
    set u := s.stroke l true with hu
    have hinu : l < u.clusters.length := by rwa [hu, State.stroke_length]
    have hdrl : (u.cluster l).drl = (s.cluster l).drl := s.stroke_drl l true l
    have hlaunched : ((u.launch l k i e).cluster l).drl = (s.cluster l).drl.launch k e (s.flightOf l k i e) := by
      rw [u.launch_drl l k i e hinu, hdrl, State.flightOf_stroke]
    have hothers : SameClusters s (u.launch l k i e) l := (sameClusters_stroke s l true).trans (sameClusters_launch u l k i e)
    constructor
    · intro hnop hfence
      refine ⟨_, exec_issueDecision hl s, ?_⟩
      rw [hdecide, State.issue_eq, if_neg (by simp [hnop, hfence])]
      dsimp only
      rw [hlaunched, Drl.launch_flights, Drl.launch_ctrs]
      refine ⟨rfl, rfl, Drl.launch_issued _ k e _, ?_, hothers, u.launch_hub l k i e, u.launch_jobs l k i e, u.launch_mem l k i e⟩
      exact (u.launch_strokes l k i e).trans (State.stroke_strokes hin true)
    · intro hop hsig
      refine ⟨_, exec_issueDecision hl s, ?_⟩
      rw [hdecide, State.issue_eq, if_pos hop]
      set x : Site := ⟨l, k.key, k.job, e, u.flightOf l k i e⟩ with hx
      have hplain : x.chain = none ∧ x.e.op ≠ .release ∧ x.e.op ≠ .copy := by
        rcases hop with hop | hop <;> simp [hx, Site.chain, hop]
      have htrap : x.traps = false := Site.traps_of_unchained hplain.1
      have hctr : x.e.sigOn = true → ((u.launch l k i e).cluster x.l).drl.ctrs.getD x.e.sigCtr 0 + 1 < 2 ^ 24 := by
        simp [hx, hsig]
      have hafter : (u.launch l k i e).drlAfter x = ((s.cluster l).drl.launch k e (s.flightOf l k i e)).dropFlight i := by
        rw [State.drlAfter_plain hsig hplain.2]
        exact congrArg (·.dropFlight i) hlaunched
      have hpart {α : Type} (part : Drl → α) (h : ∀ d st req, part { d with st := st, pauseReq := req } = part d) :
          part (((u.launch l k i e).complete x).cluster l).drl = part (((s.cluster l).drl.launch k e (s.flightOf l k i e)).dropFlight i) := by
        rw [← hafter]
        exact State.complete_untrapped_part htrap hctr part h (by rw [State.launch_length]; exact hinu)
      obtain ⟨hhub, hjobs⟩ := State.complete_untrapped_keeps htrap hctr
      refine ⟨(hpart (·.flights) fun _ _ _ => rfl).trans ?_, (hpart (·.ctrs) fun _ _ _ => rfl).trans (Drl.launch_ctrs _ k e _),
        (hpart (·.issued i) fun _ _ _ => rfl).trans ((s.cluster l).drl.launch_issued k e (s.flightOf l k i e)),
        hothers.trans (sameClusters_complete_untrapped htrap hctr), hhub.trans (u.launch_hub l k i e), hjobs.trans (u.launch_jobs l k i e)⟩
      have hidx : (s.flightOf l k i e).idx = i := rfl
      simp [Drl.dropFlight, Drl.launch_flights, hidx]

end Sys2Proof.Machine
end

section
/-!
Proof, the signals: one that is sent (R129), one that is sent again (R131), and one that arrives (R130, R131).
-/

namespace Sys2Proof.Machine

/-! ## A message of the module to itself (R401) -/

/-- A message to the module itself goes over the carrier links at once. -/
theorem State.send_self {s : State} {m : Msg} (h : m.dst = s.me) : s.send m = s.withFab { s.fab with sent := s.fab.sent ++ [(none, m)] } := by
  rw [State.send, Fab.send, Fab.inject, if_pos h]

theorem State.send_self_sent {s : State} {m : Msg} (h : m.dst = s.me) : (s.send m).fab.sent = s.fab.sent ++ [(none, m)] := by
  rw [State.send_self h]
  rfl

theorem State.send_cluster (s : State) (m : Msg) (k : Nat) : (s.send m).cluster k = s.cluster k :=
  State.cluster_of_clusters (by simp) k

/-! ## The entry to work on -/

/-- The entry that a command names is in flight there, has the opcode, and its work is still to do. -/
theorem State.todo_spec {s : State} {l idx : Nat} {op : Opcode} {x : Site} (h : s.todo l idx op = some x) :
    s.site l idx = some x ∧ x.l = l ∧ x.f.idx = idx ∧ x.e.op = op := by
  unfold State.todo at h
  split at h
  · rename_i y hy
    split at h
    · rename_i hc
      cases h
      exact ⟨hy, (State.site_place hy).1, (State.site_place hy).2, hc.1⟩
    · cases h
  · cases h

/-! ## SIGNAL (R129) -/

/-- The message of a SIGNAL that takes a tag: the sender's generation goes with it. -/
def State.signalMsg (s : State) (x : Site) (tag : Nat) : Msg :=
  ⟨fld x.e.w2 63 52, s.me, x.key.ctx, tag, x.l, .signal (fld x.e.w2 44 38) (fld x.e.w2 37 32) (s.cluster x.l).drl.gen (fld x.e.w3 23 0)⟩

/-- The sender's Derailleur once the message is on its way. -/
def Drl.awaiting (d : Drl) (x : Site) (tag : Nat) (m : Msg) : Drl :=
  ({ d with reqs := d.reqs ++ [⟨tag, some x.f.idx, m, false, []⟩] } : Drl).setFlight x.f.idx (fun f => { f with work := .requests, sent := 8 })

section
variable {s : State} {x : Site} {tag : Nat} (htag : s.freeTag x.l = some tag)
include htag

/-- A SIGNAL asks for its answer, counts its message and sends it, and its entry waits. -/
theorem State.doSignal_eq : s.doSignal x =
    (((((s.updDrl x.l (fun d => { d with reqs := d.reqs ++ [⟨tag, some x.f.idx, s.signalMsg x tag, false, []⟩] })).count x.l
      [(ctMsgSent, 1), (ctBytesSent, (s.signalMsg x tag).body.payBytes)]).send (s.signalMsg x tag)).updDrl x.l
        (fun d => d.setFlight x.f.idx (fun f => { f with work := .requests, sent := 8 })))).count x.l [(ctSignals, 1)] := by
  unfold State.doSignal State.request
  rw [htag]
  rfl

theorem State.doSignal_drl (hl : x.l < s.clusters.length) :
    ((s.doSignal x).cluster x.l).drl = (s.cluster x.l).drl.awaiting x tag (s.signalMsg x tag) := by
  rw [State.doSignal_eq htag, State.count_drl, State.updDrl_drl _ _ _ (by simpa using hl), State.send_cluster, State.count_drl,
    State.updDrl_drl _ _ _ hl]
  rfl

theorem sameClusters_doSignal : SameClusters s (s.doSignal x) x.l := by
  intro k hk
  rw [State.doSignal_eq htag, State.count, State.cluster_updCluster_other _ _ _ _ hk, State.updDrl_other _ _ _ _ hk, State.send_cluster,
    State.count, State.cluster_updCluster_other _ _ _ _ hk, State.updDrl_other _ _ _ _ hk]

theorem State.doSignal_sent (hdst : fld x.e.w2 63 52 = s.me) :
    (s.doSignal x).fab.sent = s.fab.sent ++ [(none, s.signalMsg x tag)] := by
  rw [State.doSignal_eq htag]
  exact State.send_self_sent hdst

theorem State.doSignal_hub : (s.doSignal x).hub = s.hub := by
  rw [State.doSignal_eq htag]
  simp

end

/-- The work of an entry in flight, once it has been set. -/
theorem Drl.setFlight_work {d : Drl} {idx : Nat} {g : Flight → Flight} {f : Flight} (h : f ∈ (d.setFlight idx g).flights)
    (hidx : f.idx = idx) {w : Work} (hg : ∀ f, (g f).work = w) : f.work = w := by
  obtain ⟨f', -, rfl⟩ := List.mem_map.1 h
  by_cases hf : f'.idx = idx
  · rw [if_pos hf]
    exact hg f'
  · rw [if_neg hf] at hidx
    exact absurd hidx hf

/-! ## A signal sent again (R131) -/

theorem State.resend_eq {s : State} {l tag : Nat} {r : Req}
    (h : (s.cluster l).drl.reqs.find? (fun q => q.tag = tag ∧ q.busy = true) = some r) : s.resend l tag =
      ((s.updDrl l (fun d => { d with reqs := d.reqs.map (fun q => if q.tag = tag then { q with busy := false } else q) })).count l
        [(ctMsgSent, 1), (ctBytesSent, r.msg.body.payBytes)]).send r.msg := by
  rw [State.resend, h]

theorem sameClusters_resend {s : State} {l tag : Nat} {r : Req}
    (h : (s.cluster l).drl.reqs.find? (fun q => q.tag = tag ∧ q.busy = true) = some r) : SameClusters s (s.resend l tag) l := by
  intro k hk
  rw [State.resend_eq h, State.send_cluster, State.count, State.cluster_updCluster_other _ _ _ _ hk, State.updDrl_other _ _ _ _ hk]

/-! ## A signal that arrives (R130, R131) -/

/-- A message from the module itself has no port to answer. -/
theorem State.arrive_from_self {s : State} {rx : Rx} (h : s.hears rx = true) (hp : rx.port = none) (b : Body) (f : State → State) :
    s.arrive rx b f = .next (f s) := by
  rw [State.arrive_of_hears h, State.received, State.settled, hp]

theorem State.hears_self {s : State} {rx : Rx} (h : s.hears rx = true) (hp : rx.port = none) : rx.src = s.me := by
  unfold State.hears at h
  rw [hp] at h
  simp only [Bool.and_eq_true, beq_iff_eq] at h
  exact h.2

/-- The answer to a message of the module itself. -/
theorem State.answer_self_sent {s u : State} {rx : Rx} (h : rx.src = s.me) (hu : u.hub = s.hub) (hf : u.fab = s.fab) (b : Body) :
    (u.answer rx b).fab.sent = s.fab.sent ++ [(none, ⟨rx.src, s.me, rx.ctx, rx.tag, rx.scl, b⟩)] := by
  have hme : u.me = s.me := by rw [State.me, hu, State.me]
  rw [State.answer, State.send_self_sent (h.trans hme.symm), hf, hme]

theorem State.answer_cluster (s : State) (rx : Rx) (b : Body) (k : Nat) : (s.answer rx b).cluster k = s.cluster k := s.send_cluster _ k

theorem State.answer_mem (s : State) (rx : Rx) (b : Body) : (s.answer rx b).mem = s.mem := (onlyFab_answer s rx b).mem

theorem exec_signalMessage {s : State} {rx : Rx} {l ctr inc : Nat} {gen : Bool} (h : s.hears rx = true) (hp : rx.port = none) (hl : l < 128)
    (hctr : ctr < 64) (hinc : inc < 2 ^ 24) : exec (.signalMessage rx l ctr gen inc) s = .next (s.takeSignal rx l ctr gen inc) := by
  have hexec : exec (.signalMessage rx l ctr gen inc) s =
      s.arrive rx (.signal l ctr gen inc) (fun s => s.takeSignal rx (l % 128) (ctr % 64) gen (inc % 2 ^ 24)) := rfl
  rw [hexec, State.arrive_from_self h hp, Nat.mod_eq_of_lt hl, Nat.mod_eq_of_lt hctr, Nat.mod_eq_of_lt hinc]

section
variable {s : State} {l : Nat} {k : TaskKey} (hk : (s.cluster l).drl.holder = some k)
include hk

theorem State.drlOf_holder : s.drlOf k l = some (s.cluster l).drl := if_pos hk

/-- The Derailleur of the task that holds the cluster is the cluster's own. -/
theorem State.setDrlOf_holder (d : Drl) : s.setDrlOf k l d = s.updDrl l (fun _ => d) := by
  have hholds : (s.cluster l).holds k = true := by simp [Cluster.holds, hk]
  rw [State.setDrlOf, if_pos hholds]
  exact s.updCluster_congr l (if_pos hk)

variable {rx : Rx} (hb : s.barred rx.ctx = false) (hkey : s.sigKey rx l = some k) (ctr inc : Nat)
include hb hkey

theorem State.takeSignal_now (h : (s.cluster l).drl.ctrs.getD ctr 0 + inc < 2 ^ 24) :
    s.takeSignal rx l ctr (s.cluster l).drl.gen inc = (s.updDrl l (fun d =>
      { d with ctrs := d.ctrs.set ctr (d.ctrs.getD ctr 0 + inc) })).answer rx (.ack 0 none) := by
  rw [State.takeSignal, hb, hkey]
  simp only [State.drlOf_holder hk, Drl.addCtr_of_lt h, State.setDrlOf_holder hk]
  exact congrArg (State.answer · rx _) (s.updDrl_congr l rfl)

theorem State.takeSignal_overflow (h : 2 ^ 24 ≤ (s.cluster l).drl.ctrs.getD ctr 0 + inc) :
    s.takeSignal rx l ctr (s.cluster l).drl.gen inc = s.abortTask k statusSignalOverflow := by
  have hcarry : (s.cluster l).drl.addCtr ctr inc = none := if_neg (Nat.not_lt.2 h)
  rw [State.takeSignal, hb, hkey]
  simp only [State.drlOf_holder hk, hcarry]
  rfl

variable {gen : Bool} (hgen : gen ≠ (s.cluster l).drl.gen)
include hgen

theorem State.takeSignal_held (h : (s.cluster l).drl.pend.length < 16) :
    s.takeSignal rx l ctr gen inc = ((s.updDrl l (fun d => { d with pend := d.pend ++ [(ctr, inc)] })).count l
      [(ctHeldSignals, 1)]).answer rx (.ack 0 none) := by
  rw [State.takeSignal, hb, hkey]
  simp only [State.drlOf_holder hk, if_neg hgen, if_pos h, State.setDrlOf_holder hk]
  exact congrArg (fun u : State => (u.count l _).answer rx _) (s.updDrl_congr l rfl)

theorem State.takeSignal_full (h : 16 ≤ (s.cluster l).drl.pend.length) :
    s.takeSignal rx l ctr gen inc = s.answer rx (.nack 0 nackBusy) := by
  rw [State.takeSignal, hb, hkey]
  simp only [State.drlOf_holder hk, if_neg hgen, if_neg (Nat.not_lt.2 h)]
  rfl

end

/-! ## The statement -/

/-- Settles O42: the sender's side is the request and its resend, the target's side the cases of the generation and of the buffer. -/
theorem signalsReachTheirCounters : Obligations.SignalsReachTheirCounters := by
  constructor
  · intro s l idx tag x r hl hlen
    have hin : l < s.clusters.length := hlen ▸ hl
    refine ⟨fun hx htag hdst => ?send, fun hr hdst => ?resend⟩
    case send =>
      obtain ⟨-, rfl, -, -⟩ := State.todo_spec hx
      have hexec : exec (.signal x.l idx) s = .next (s.doSignal x) := (onCluster_of_lt hl _).trans (by rw [hx])
      have hmsg : s.signalMsg x tag = ⟨s.me, s.me, x.key.ctx, tag, x.l,
          .signal (fld x.e.w2 44 38) (fld x.e.w2 37 32) (s.cluster x.l).drl.gen (fld x.e.w3 23 0)⟩ := by rw [State.signalMsg, hdst]
      refine ⟨_, hexec, ?_⟩
      have hdrl := State.doSignal_drl htag hin
      rw [hmsg] at hdrl
      refine ⟨(State.doSignal_sent htag hdst).trans (by rw [hmsg]), congrArg (·.reqs) hdrl, ?_, congrArg (·.ctrs) hdrl,
        sameClusters_doSignal htag, by simp, State.doSignal_hub htag⟩
      rw [hdrl]
      exact fun f hf hidx => Drl.setFlight_work hf hidx fun _ => rfl
    case resend =>
      refine ⟨_, onCluster_of_lt hl _, ?_⟩
      have hdrl : ((s.resend l tag).cluster l).drl = { (s.cluster l).drl with
          reqs := (s.cluster l).drl.reqs.map (fun q => if q.tag = tag then { q with busy := false } else q) } := by
        rw [State.resend_eq hr, State.send_cluster, State.count_drl, State.updDrl_drl _ _ _ hin]
      refine ⟨?_, ?_, sameClusters_resend hr, by rw [State.resend_eq hr]; simp, by rw [State.resend_eq hr]; simp⟩
      · rw [State.resend_eq hr]
        exact State.send_self_sent hdst
      · rw [hdrl]
        intro q hq htag
        obtain ⟨q', -, rfl⟩ := List.mem_map.1 hq
        split
        · rfl
        · rename_i hne
          rw [if_neg hne] at htag
          exact absurd htag hne
  · intro s rx l ctr inc gen k hp hears hlen hl hctr hinc hb hkey hk hctrs
    have hin : l < s.clusters.length := hlen ▸ hl
    have hsrc := State.hears_self hears hp
    have hexec := exec_signalMessage (gen := gen) hears hp hl hctr hinc
    refine ⟨fun hgen hlt => ?now, fun hgen hroom => ?held, fun hgen hfull => ?busy, fun hgen hover => ?carry⟩
    case now =>
      subst hgen
      refine ⟨_, hexec, ?_⟩
      rw [State.takeSignal_now hk hb hkey ctr inc hlt]
      refine ⟨?_, ?_, State.answer_self_sent hsrc (by simp) (by simp) _, ?_, (State.answer_mem ..).trans (by simp)⟩
      · rw [State.answer_cluster, State.updDrl_drl _ _ _ hin]
        simp [hctrs, hctr]
      · intro c hc
        rw [State.answer_cluster, State.updDrl_drl _ _ _ hin]
        simp [List.getElem?_set_ne (Ne.symm hc)]
      · exact fun n hn => (State.answer_cluster ..).trans (State.updDrl_other _ _ _ _ hn)
    case held =>
      refine ⟨_, hexec, ?_⟩
      rw [State.takeSignal_held hk hb hkey ctr inc hgen hroom]
      have hdrl : ((((s.updDrl l (fun d => { d with pend := d.pend ++ [(ctr, inc)] })).count l [(ctHeldSignals, 1)]).answer rx
          (.ack 0 none)).cluster l).drl = { (s.cluster l).drl with pend := (s.cluster l).drl.pend ++ [(ctr, inc)] } := by
        rw [State.answer_cluster, State.count_drl, State.updDrl_drl _ _ _ hin]
      refine ⟨congrArg (·.pend) hdrl, congrArg (·.ctrs) hdrl, fun n hn => ?_, State.answer_self_sent hsrc (by simp) (by simp) _,
        (State.answer_mem ..).trans (by simp)⟩
      exact (State.answer_cluster ..).trans ((sameClusters_updCluster _ l _ n hn).trans (State.updDrl_other _ _ _ _ hn))
    case busy =>
      refine ⟨_, hexec, ?_⟩
      rw [State.takeSignal_full hk hb hkey ctr inc hgen hfull]
      exact ⟨(onlyFab_answer ..).clusters, State.answer_self_sent hsrc rfl rfl _⟩
    case carry =>
      subst hgen
      rw [hexec, State.takeSignal_overflow hk hb hkey ctr inc hover]

end Sys2Proof.Machine
end

section
/-!
Proof, the end of a task: what its clusters, its record and the records of other tasks are once it has ended or aborted (R137, R138, R151,
R152, R455), and what the history keeps.
-/

namespace Sys2Proof.Machine

/-! ## Task records -/

theorem Hub.task_congr {g h : Hub} (e : g.tasks = h.tasks) (k : TaskKey) : g.task k = h.task k := by
  rw [Hub.task, e, Hub.task]

theorem Hub.task_key {h : Hub} {k : TaskKey} {t : Task} (ht : h.task k = some t) : t.key = k := by
  have hkey := List.find?_some ht
  exact of_decide_eq_true hkey

/-- A change of one task's record that keeps its key. -/
theorem Hub.task_updTask (h : Hub) (k n : TaskKey) {f : Task → Task} (hf : ∀ t, (f t).key = t.key) :
    (h.updTask k f).task n = if n = k then (h.task n).map f else h.task n := by
  have hkey (t : Task) : (if t.key = k then f t else t).key = t.key := by
    split
    · exact hf t
    · rfl
  simp only [Hub.task, Hub.updTask, List.find?_map, Function.comp_def, hkey]
  cases ht : h.tasks.find? (fun t => t.key = n) with
  | none => simp
  | some t =>
    obtain rfl : t.key = n := Hub.task_key ht
    by_cases hk : t.key = k <;> simp [hk]

theorem Hub.task_updTask_self {h : Hub} {k : TaskKey} {t : Task} (ht : h.task k = some t) {f : Task → Task} (hf : ∀ t, (f t).key = t.key) :
    (h.updTask k f).task k = some (f t) := by
  rw [Hub.task_updTask h k k hf, if_pos rfl, ht, Option.map_some]

theorem Hub.task_updTask_other (h : Hub) {k n : TaskKey} (hn : n ≠ k) {f : Task → Task} (hf : ∀ t, (f t).key = t.key) :
    (h.updTask k f).task n = h.task n := by
  rw [Hub.task_updTask h k n hf, if_neg hn]

/-! ## What leaves the task records alone -/

section
variable (s : State)

@[simp] theorem State.hubIssue_tasks (r : HubReq) : (s.hubIssue r).hub.tasks = s.hub.tasks := by
  unfold State.hubIssue
  split
  · rfl
  · simp

@[simp] theorem State.hubFlush_tasks : s.hubFlush.hub.tasks = s.hub.tasks :=
  foldl_keeps (·.hub.tasks) _ (fun s r => s.hubIssue_tasks r) _ s

@[simp] theorem State.hubRequest_tasks (dst ctx : Nat) (use : HubUse) (b : Body) : (s.hubRequest dst ctx use b).hub.tasks = s.hub.tasks :=
  State.hubFlush_tasks _

@[simp] theorem State.writeGlobal_tasks (ctx : Nat) (use : HubUse) (a : Nat) (bs : List Byte) :
    (s.writeGlobal ctx use a bs).hub.tasks = s.hub.tasks := by
  unfold State.writeGlobal
  split
  · simp
  · exact foldl_keeps (·.hub.tasks) _ (fun s r => s.hubRequest_tasks ..) _ s

@[simp] theorem State.endCycle_tasks (k : TaskKey) (p : SolPlan) (aborted : Bool) : (s.endCycle k p aborted).hub.tasks = s.hub.tasks := by
  unfold State.endCycle
  split
  · exact s.writeGlobal_tasks ..
  · rfl

@[simp] theorem State.ringEnd_tasks (n slot : Nat) (releases : Bool) (c : Option Cqe) : (s.ringEnd n slot releases c).hub.tasks = s.hub.tasks := by
  unfold State.ringEnd
  split
  · simp
  · split <;> simp

@[simp] theorem State.endPkt_tasks (p : Pkt) (status : Nat) (value : Word) (releases : Bool) :
    (s.endPkt p status value releases).hub.tasks = s.hub.tasks := by
  unfold State.endPkt
  split
  · simp
  · simp

@[simp] theorem State.endPktId_tasks (id : Option Nat) (status : Nat) (value : Word) :
    (s.endPktId id status value).hub.tasks = s.hub.tasks := by
  unfold State.endPktId
  (repeat' split) <;> simp

end

/-! ## A cluster leaves a task -/

theorem Cluster.leave_of_not_holds {c : Cluster} {k : TaskKey} (h : c.holds k = false) (code : Nat) : c.leave k code = c := by
  rw [Cluster.holds, Bool.or_eq_false_iff, decide_eq_false_iff_not] at h
  rw [Cluster.leave, if_neg h.1]
  cases hu : c.under with
  | none => rfl
  | some d =>
    have hd : d.holder ≠ some k := by simpa [hu] using h.2
    simp [hd]

/-- The Derailleur that a cluster is left with is a matter of its Derailleur and of the lender's. -/
theorem Cluster.leave_drl_congr {c c' : Cluster} (hdrl : c'.drl = c.drl) (hunder : c'.under = c.under) (k : TaskKey) (code : Nat) :
    (c'.leave k code).drl = (c.leave k code).drl := by
  unfold Cluster.leave
  rw [hdrl, hunder]
  split
  · split <;> rfl
  · split
    · split
      · rfl
      · exact hdrl
    · exact hdrl

/-- A cluster that the task's end leaves is held by it no more, where its lender is another task. -/
theorem Cluster.leave_holder {c : Cluster} {k : TaskKey} (h : ∀ d, c.under = some d → d.holder ≠ some k) (code : Nat) :
    (c.leave k code).drl.holder ≠ some k := by
  have hcut : c.drl.cut.holder = none := by
    unfold Drl.cut
    split <;> rfl
  unfold Cluster.leave
  split
  · split
    · exact h _ ‹_›
    · dsimp only
      split
      · simp [Drl.idle]
      · simp [hcut]
  · split
    · split
      · assumption
      · assumption
    · assumption

/-- The own cluster of a task that ends is cut off, but at a context reset. -/
theorem Cluster.leave_own {c : Cluster} {k : TaskKey} (hk : c.drl.holder = some k) (hunder : c.under = none) {code : Nat}
    (hcode : code ≠ statusContextReset) : (c.leave k code).drl = c.drl.cut := by
  rw [Cluster.leave, if_pos hk, hunder]
  exact if_neg hcode

/-- An update that keeps the cluster after reset, read of any cluster. -/
theorem State.cluster_updCluster_of_reset (s : State) (l k : Nat) {f : Cluster → Cluster} (hf : f Cluster.reset = Cluster.reset) :
    (s.updCluster l f).cluster k = if k = l then f (s.cluster k) else s.cluster k := by
  by_cases hl : l < s.clusters.length
  · exact State.cluster_updCluster s l k f hl
  · split
    · subst k
      have hnone : s.clusters[l]? = none := List.getElem?_eq_none (Nat.not_lt.1 hl)
      simp [State.cluster, State.updCluster, hnone, hf]
    · exact State.cluster_updCluster_other s l k f ‹_›

section
variable (s : State) (k : TaskKey) (status : Nat)

theorem sameClusters_leaveCluster (l : Nat) : SameClusters s (s.leaveCluster k status l) l := by
  intro n hn
  unfold State.leaveCluster
  dsimp only
  rw [sameClusters_settleSubst _ l n hn, State.cluster_updCluster_other _ l n _ hn]
  split <;> rfl

theorem State.leaveCluster_part {α : Type} (part : Cluster → α) (h : ∀ c til, part { c with til := til } = part c) (l : Nat) :
    part ((s.leaveCluster k status l).cluster l) = part ((s.cluster l).leave k status) := by
  unfold State.leaveCluster
  dsimp only
  rw [State.settleSubst_part part h, State.cluster_updCluster_of_reset _ l l rfl, if_pos rfl]
  split <;> rfl

/-- Clusters that leave a task one after the other. -/
theorem State.foldl_leaveCluster_part {α : Type} (part : Cluster → α) (h : ∀ c til, part { c with til := til } = part c) {ls : List Nat}
    (hls : ls.Nodup) (n : Nat) : part ((ls.foldl (fun s l => s.leaveCluster k status l) s).cluster n) =
      part (if n ∈ ls then (s.cluster n).leave k status else s.cluster n) := by
  induction ls generalizing s with
  | nil => simp
  | cons l ls ih =>
    obtain ⟨hl, hls⟩ := List.nodup_cons.1 hls
    rw [List.foldl_cons, ih _ hls]
    rcases eq_or_ne n l with rfl | hn
    · rw [if_neg hl, if_pos List.mem_cons_self]
      exact s.leaveCluster_part k status part h n
    · rw [sameClusters_leaveCluster s k status l n hn]
      simp [hn]

theorem State.holders_nodup : (s.holders k).Nodup := List.nodup_range.filter _

theorem State.mem_holders {l : Nat} : l ∈ s.holders k ↔ l < 128 ∧ (s.cluster l).holds k = true := by
  simp [State.holders]

end

/-! ## The history that settling clusters and reporting tiles leave (R474, R174) -/

/-- The two histories differ in their units and their journal alone. -/
def SameLadder (g h : Hist) : Prop := h = { g with journal := h.journal, units := h.units }

theorem SameLadder.refl (h : Hist) : SameLadder h h := rfl

theorem SameLadder.trans {g h i : Hist} (a : SameLadder g h) (b : SameLadder h i) : SameLadder g i := by
  unfold SameLadder at *
  rw [b, a]

theorem sameLadder_append (h : Hist) (i : JItem) : SameLadder h (h.append i) := rfl

theorem sameLadder_locate (h : Hist) (i : Nat) (rows cols : List Nat) : SameLadder h (h.locate i rows cols) := by
  unfold Hist.locate
  split
  · rfl
  · rfl

/-- A fold whose steps each keep the ladder keeps it. -/
theorem sameLadder_foldl {β : Type} (g : State → β → State) (h : ∀ s b, SameLadder s.hist (g s b).hist) (l : List β) (s : State) :
    SameLadder s.hist (l.foldl g s).hist := by
  induction l generalizing s with
  | nil => rfl
  | cons b l ih => exact (h s b).trans (ih (g s b))

theorem sameLadder_of_eq {g h : Hist} (e : h = g) : SameLadder g h := e ▸ .refl _

theorem sameLadder_settleSubst (s : State) (l : Nat) : SameLadder s.hist (s.settleSubst l).hist := by
  unfold State.settleSubst
  split
  · rfl
  · split
    · rfl
    · dsimp only
      split
      · exact sameLadder_append s.hist _
      · rfl

theorem sameLadder_leaveCluster (s : State) (k : TaskKey) (status l : Nat) : SameLadder s.hist (s.leaveCluster k status l).hist := by
  unfold State.leaveCluster
  refine SameLadder.trans (sameLadder_of_eq ?_) (sameLadder_settleSubst _ l)
  split <;> rfl

theorem sameLadder_locateTile (s : State) (l lt : Nat) (rows cols : List Nat) : SameLadder s.hist (s.locateTile l lt rows cols).hist := by
  unfold State.locateTile
  split
  · exact sameLadder_locate s.hist _ rows cols
  · rfl

theorem sameLadder_locateRetry (s : State) (l : Nat) (f : Flight) : SameLadder s.hist (s.locateRetry l f).hist := by
  unfold State.locateRetry
  split
  · exact sameLadder_foldl _ (fun s (t : Nat × List Nat × List Nat) => sameLadder_locateTile s l t.1 t.2.1 t.2.2) _ s
  · rfl

theorem sameLadder_reportRetries (s : State) (k : TaskKey) : SameLadder s.hist (s.reportRetries k).hist := by
  refine sameLadder_foldl _ (fun s l => ?_) _ s
  dsimp only
  split
  · rfl
  · exact sameLadder_foldl _ (fun s f => sameLadder_locateRetry s l f) _ s

/-! ## A task has ended -/

/-- From `s` to `u` the task has ended with a status: its clusters have left it, its record says where its next RUN starts; other
records, the jobs and the ladder stay. -/
structure Ended (s u : State) (k : TaskKey) (status next : Nat) : Prop where
  drl : ∀ l < 128, (u.cluster l).drl = ((s.cluster l).leave k status).drl
  task : ∃ v, u.hub.task k = some v ∧ v.st = .idle ∧ v.next = next
  others : ∀ n, n ≠ k → u.hub.task n = s.hub.task n
  jobs : u.jobs = s.jobs
  ladder : SameLadder s.hist u.hist

section
variable {s u : State} {k : TaskKey} {status next : Nat}

/-- What comes before the end of a task may change counts of its clusters, memory and messages. -/
theorem Ended.before (h : Ended s u k status next) {r : State} (hdrl : ∀ l, (s.cluster l).drl = (r.cluster l).drl)
    (hunder : ∀ l, (s.cluster l).under = (r.cluster l).under) (htasks : s.hub.tasks = r.hub.tasks) (hjobs : s.jobs = r.jobs)
    (hladder : SameLadder r.hist s.hist) : Ended r u k status next where
  drl l hl := (h.drl l hl).trans (Cluster.leave_drl_congr (hdrl l) (hunder l) k status)
  task := h.task
  others n hn := (h.others n hn).trans (Hub.task_congr htasks n)
  jobs := h.jobs.trans hjobs
  ladder := hladder.trans h.ladder

/-- So may what comes after. -/
theorem Ended.after (h : Ended s u k status next) {v : State} (hdrl : ∀ l, (v.cluster l).drl = (u.cluster l).drl)
    (htasks : v.hub.tasks = u.hub.tasks) (hjobs : v.jobs = u.jobs) (hladder : SameLadder u.hist v.hist) : Ended s v k status next where
  drl l hl := (hdrl l).trans (h.drl l hl)
  task := by rw [Hub.task_congr htasks]; exact h.task
  others n hn := (Hub.task_congr htasks n).trans (h.others n hn)
  jobs := hjobs.trans h.jobs
  ladder := h.ladder.trans hladder

/-- The clusters of a task that ends have left it. -/
def State.allLeft (s : State) (k : TaskKey) (status : Nat) : State := (s.holders k).foldl (fun s l => s.leaveCluster k status l) s

theorem State.allLeft_hub (s : State) (k : TaskKey) (status : Nat) : (s.allLeft k status).hub = s.hub :=
  foldl_keeps (·.hub) _ (fun s l => by simp) _ s

theorem State.allLeft_drl (s : State) (k : TaskKey) (status : Nat) {l : Nat} (hl : l < 128) :
    ((s.allLeft k status).cluster l).drl = ((s.cluster l).leave k status).drl := by
  rw [State.allLeft, s.foldl_leaveCluster_part k status (·.drl) (fun _ _ => rfl) (s.holders_nodup k)]
  split
  · rfl
  · rename_i hn
    rw [State.mem_holders, not_and, Bool.not_eq_true] at hn
    rw [Cluster.leave_of_not_holds (hn hl)]

/-- What the hub still keeps of a task that ends: its restore is dropped, its held packets are stale. -/
def Hub.drops (h : Hub) (k : TaskKey) (status : Nat) : Hub :=
  let h : Hub := { h with restores := h.restores.filter (fun x => x.key ≠ k) }
  if status = statusDone then h else { h with held := h.held.map (fun x => if x.key = k then { x with stale := true } else x) }

theorem Hub.drops_tasks (h : Hub) (k : TaskKey) (status : Nat) : (h.drops k status).tasks = h.tasks := by
  unfold Hub.drops
  dsimp only
  split <;> rfl

theorem State.endTask_eq {t : Task} (ht : s.hub.task k = some t) (status next : Nat) : s.endTask k status next =
    (({ s.allLeft k status with hub := ((s.allLeft k status).hub.updTask k (fun t => t.stop next)).drops k status } : State).endPktId t.runPkt status
      (BitVec.ofNat 64 t.step)).endPktId t.suspPkt pktState 0 := by
  rw [State.endTask, ht]
  simp only [Hub.drops]
  split <;> rfl

theorem State.endTask_ended {t : Task} (ht : s.hub.task k = some t) (status next : Nat) : Ended s (s.endTask k status next) k status next := by
  have htasks : (s.endTask k status next).hub.tasks = (s.hub.updTask k (fun t => t.stop next)).tasks := by
    rw [State.endTask_eq ht]
    simp [Hub.drops_tasks, State.allLeft_hub]
  have hclusters : (s.endTask k status next).clusters = (s.allLeft k status).clusters := by
    rw [State.endTask_eq ht]
    simp
  have hhist : (s.endTask k status next).hist = (s.allLeft k status).hist := by
    rw [State.endTask_eq ht]
    simp
  constructor
  case drl =>
    intro l hl
    rw [State.cluster_of_clusters hclusters, State.allLeft_drl s k status hl]
  case task =>
    exact ⟨t.stop next, (Hub.task_congr htasks k).trans (Hub.task_updTask_self ht fun _ => rfl), rfl, rfl⟩
  case others => exact fun n hn => (Hub.task_congr htasks n).trans (Hub.task_updTask_other _ hn fun _ => rfl)
  case jobs => simp
  case ladder =>
    rw [hhist]
    exact sameLadder_foldl _ (fun s l => sameLadder_leaveCluster s k status l) _ s

end

/-! ## Aborts (R151, R152) -/

/-- The entries of a task that aborts are traced, its refreshes discarded and its cycle closed; what its retries have found is
reported, and its waiting requests are dropped. -/
def State.cutOff (s : State) (k : TaskKey) (status : Nat) (t : Task) : State :=
  let own := s.ownSlots k (s.slotClusters k t)
  let s := match s.jobOf k with
    | some j =>
      let s : State := (s.holders k).foldl (fun (s : State) l => s.traceCut k j t.step status l) s
      let s : State := { s with hub := { s.hub with dead := s.hub.dead ++ s.cutRows k } }
      let s := s.store (j.discards s.mem own)
      s.store (j.emptyPlanes s.mem own)
    | none => s
  let s := match s.jobOf k, (s.jobOf k).bind (·.sol) with
    | some j, some p =>
      if j.isSolver k.task then
        let s := s.endCycle k p true
        { s with sol := s.sol.over }
      else s
    | _, _ => s
  (s.reportRetries k).dropRequests k

section
variable {s : State} {k : TaskKey} {t : Task}

theorem State.abortNow_eq (ht : s.hub.task k = some t) (hst : t.st ≠ .idle) (status : Nat) :
    s.abortNow k status = (s.cutOff k status t).endTask k status t.step := by
  rw [State.abortNow, ht]
  dsimp only
  rw [if_neg hst]
  rfl

theorem State.traceCut_part {α : Type} (part : Cluster → α) (h : ∀ c ctr, part { c with ctr := ctr } = part c) (s : State) (k : TaskKey)
    (j : Job) (step status l n : Nat) : part ((s.traceCut k j step status l).cluster n) = part (s.cluster n) := by
  unfold State.traceCut
  dsimp only
  split
  · refine foldl_keeps (fun s : State => part (s.cluster n)) _ (fun s f => ?_) _ s
    split
    · exact State.trace_part part h ..
    · rfl
  · rfl

theorem State.cutOff_part {α : Type} (part : Cluster → α) (h : ∀ c ctr, part { c with ctr := ctr } = part c) (s : State) (k : TaskKey)
    (status : Nat) (t : Task) (n : Nat) : part ((s.cutOff k status t).cluster n) = part (s.cluster n) := by
  unfold State.cutOff
  extract_lets own s1 s2
  have h1 : part (s1.cluster n) = part (s.cluster n) := by
    unfold s1
    split
    · exact foldl_keeps (fun s : State => part (s.cluster n)) _ (fun s l => s.traceCut_part part h k _ _ _ l n) _ s
    · rfl
  have h2 : s2.clusters = s1.clusters := by
    unfold s2
    clear_value s1
    split
    · split
      · simp
      · rfl
    · rfl
  rw [← h1, State.cluster_of_clusters (s := s1) (by simp [h2])]

theorem State.cutOff_tasks (s : State) (k : TaskKey) (status : Nat) (t : Task) : (s.cutOff k status t).hub.tasks = s.hub.tasks := by
  unfold State.cutOff
  extract_lets own s1 s2
  have h1 : s1.hub.tasks = s.hub.tasks := by
    unfold s1
    split
    · exact foldl_keeps (fun s : State => s.hub.tasks) _ (fun s l => by simp) _ s
    · rfl
  have h2 : s2.hub.tasks = s1.hub.tasks := by
    unfold s2
    clear_value s1
    split
    · split
      · simp
      · rfl
    · rfl
  simp [h2, h1]

theorem State.cutOff_jobs (s : State) (k : TaskKey) (status : Nat) (t : Task) : (s.cutOff k status t).jobs = s.jobs := by
  unfold State.cutOff
  extract_lets own s1 s2
  have h1 : s1.jobs = s.jobs := by
    unfold s1
    split
    · exact foldl_keeps (fun s : State => s.jobs) _ (fun s l => by simp) _ s
    · rfl
  have h2 : s2.jobs = s1.jobs := by
    unfold s2
    clear_value s1
    split
    · split
      · simp
      · rfl
    · rfl
  simp [h2, h1]

theorem State.cutOff_ladder (s : State) (k : TaskKey) (status : Nat) (t : Task) : SameLadder s.hist (s.cutOff k status t).hist := by
  unfold State.cutOff
  extract_lets own s1 s2
  have h1 : s1.hist = s.hist := by
    unfold s1
    split
    · exact foldl_keeps (fun s : State => s.hist) _ (fun s l => by simp) _ s
    · rfl
  have h2 : s2.hist = s1.hist := by
    unfold s2
    clear_value s1
    split
    · split
      · simp
      · rfl
    · rfl
  rw [← h1, ← h2]
  exact (sameLadder_reportRetries s2 k).trans (sameLadder_of_eq (by simp))

theorem State.abortNow_ended (ht : s.hub.task k = some t) (hst : t.st ≠ .idle) (status : Nat) :
    Ended s (s.abortNow k status) k status t.step := by
  rw [State.abortNow_eq ht hst]
  have ht' : (s.cutOff k status t).hub.task k = some t := (Hub.task_congr (s.cutOff_tasks k status t) k).trans ht
  exact (State.endTask_ended ht' status t.step).before (fun l => s.cutOff_part (·.drl) (fun _ _ => rfl) k status t l)
    (fun l => s.cutOff_part (·.under) (fun _ _ => rfl) k status t l) (s.cutOff_tasks k status t) (s.cutOff_jobs k status t)
    (s.cutOff_ladder k status t)

theorem State.abortHere_of_restoring (ht : s.hub.task k = some t) (hr : t.restoring = true) (status : Nat) :
    s.abortHere k status = s.updTask k (fun t => { t with abortDue := some (t.abortDue.getD status) }) := by
  rw [State.abortHere, ht]
  exact if_pos hr

theorem State.abortHere_of_not_restoring (ht : s.hub.task k = some t) (hr : t.restoring = false) (status : Nat) :
    s.abortHere k status = s.abortNow k status := by
  rw [State.abortHere, ht]
  exact if_neg (by simp [hr])

/-- An abort of the whole task, where no restore outcome is applied, ends the task here. -/
theorem State.abortTask_ended (ht : s.hub.task k = some t) (hst : t.st ≠ .idle) (hr : t.restoring = false) (status : Nat) :
    Ended s (s.abortTask k status) k status t.step := by
  have heq : s.abortTask k status =
      (s.peers k).foldl (fun s m => s.sendHub m k.ctx (.abort k status)) (s.abortNow k status) := by
    rw [State.abortTask, ht, ← State.abortHere_of_not_restoring ht hr]
    exact if_neg hst
  rw [heq]
  refine (State.abortNow_ended ht hst status).after (fun l => ?_) ?_ ?_ (sameLadder_of_eq ?_)
  · exact foldl_keeps (fun s : State => (s.cluster l).drl) _ (fun s m => congrArg (·.drl) (s.send_cluster _ l)) _ _
  · exact foldl_keeps (fun s : State => s.hub.tasks) _ (fun s m => by simp) _ _
  · exact foldl_keeps (fun s : State => s.jobs) _ (fun s m => by simp) _ _
  · exact foldl_keeps (fun s : State => s.hist) _ (fun s m => by simp) _ _

end

end Sys2Proof.Machine
end

section
/-!
Proof, the aborts: the message ABORT (R152), the windows and the deadline (R133, R151, R420), and the deadlock scan (R517).
-/

namespace Sys2Proof.Machine

theorem exec_abort {s : State} {rx : Rx} (hears : s.hears rx = true) (hp : rx.port = none) (key : TaskKey) (status : Nat) :
    exec (.abort rx key status) s = .next (s.abortHere key status) :=
  State.arrive_from_self hears hp (.abort key status) (fun s => s.abortHere key status)

theorem Task.st_of_active {t : Task} (h : t.active = true) : t.st ≠ .idle := by
  intro hidle
  simp [Task.active, hidle] at h

/-! ## An abort leaves no cluster (R151) -/

section
variable {s u : State} {k : TaskKey} {status next : Nat} (h : Ended s u k status next)
include h

theorem Ended.not_held (hlender : ∀ l d, (s.cluster l).under = some d → d.holder ≠ some k) {l : Nat} (hl : l < 128) :
    (u.cluster l).drl.holder ≠ some k := by
  rw [h.drl l hl]
  exact Cluster.leave_holder (hlender l) status

/-- The own cluster of the task is IDLE, or ABORTING while entries of it are in flight (R143, R152). -/
theorem Ended.own_cut (hstatus : status ≠ statusContextReset) {l : Nat} (hl : l < 128) (hk : (s.cluster l).drl.holder = some k)
    (hunder : (s.cluster l).under = none) : (u.cluster l).drl = (s.cluster l).drl.cut := by
  rw [h.drl l hl, Cluster.leave_own hk hunder hstatus]

end

theorem Drl.cut_of_empty {d : Drl} (h : d.flights = []) : d.cut = Drl.idle := by
  rw [Drl.cut, h]
  rfl

theorem Drl.cut_of_flying {d : Drl} (h : d.flights ≠ []) : d.cut = { Drl.idle with st := .aborting, flights := d.flights } :=
  if_neg (by simpa using h)

/-! ## The windows (R151, R420) -/

section
variable {s : State} {l : Nat} {key : TaskKey} {t : Task} (ht : s.hub.task key = some t) (hactive : t.active = true)
  (hr : t.restoring = false)

/-- The rest of the module after a completion is noted as overtaken (R99). -/
theorem State.overtake_part {α : Type} (part : Cluster → α) (h : ∀ c gone, part { c with gone := gone } = part c) (s : State) (l : Nat)
    (o : Odo) (is : List (Option Nat)) (n : Nat) : part ((s.updCluster l (fun c => c.overtake o is)).cluster n) = part (s.cluster n) :=
  State.updCluster_part part (fun c => h c _) s l n

include ht hactive hr

theorem State.entryExpired_ended (hk : (s.cluster l).drl.holder = some key) (hst : (s.cluster l).drl.st = .running) {o : Nat × Nat}
    (ho : s.oldest l = some o) : Ended (s.climb 1 l o.2 0) (s.entryExpired l) key statusEntryTimeout t.step := by
  obtain ⟨i, engine⟩ := o
  have heq : s.entryExpired l =
      ((s.climb 1 l engine 0).abortTask key statusEntryTimeout).updCluster l (fun c => c.overtake .entry [some i]) := by
    rw [State.entryExpired, hk, ho]
    exact if_neg (by simp [hst])
  rw [heq]
  have hend : Ended (s.climb 1 l engine 0) ((s.climb 1 l engine 0).abortTask key statusEntryTimeout) key statusEntryTimeout t.step :=
    State.abortTask_ended (by simpa using ht) (Task.st_of_active hactive) hr _
  exact hend.after (fun n => State.overtake_part (·.drl) (fun _ _ => rfl) _ l _ _ n) rfl rfl (.refl _)

theorem State.collExpired_ended (hl : l < 128) (hwait : s.groupWaits key l = true) :
    Ended s (s.collExpired key) key statusCollTimeout t.step := by
  have hls : (List.range 128).filter (s.groupWaits key) ≠ [] :=
    List.ne_nil_of_mem (List.mem_filter.2 ⟨List.mem_range.2 hl, hwait⟩)
  have heq : s.collExpired key = ((List.range 128).filter (s.groupWaits key)).foldl (fun (a : State) l => a.updCluster l (fun c =>
      c.overtake .coll [s.groupEntry key l])) (s.abortTask key statusCollTimeout) := if_neg hls
  rw [heq]
  refine (State.abortTask_ended ht (Task.st_of_active hactive) hr statusCollTimeout).after (fun n => ?_) ?_ ?_ (sameLadder_of_eq ?_)
  · exact foldl_keeps (fun a : State => (a.cluster n).drl) _ (fun a m => State.overtake_part (·.drl) (fun _ _ => rfl) a m _ _ n) _ _
  · exact congrArg (·.tasks) (foldl_hub _ (fun a m => a.updCluster_hub ..) _ _)
  · exact foldl_jobs _ (fun a m => a.updCluster_jobs ..) _ _
  · exact foldl_hist _ (fun a m => a.updCluster_hist ..) _ _

end

theorem Ended.lastRung {s u : State} {k : TaskKey} {status next : Nat} (h : Ended s u k status next) : u.hist.lastRung = s.hist.lastRung := by
  rw [h.ladder]

theorem Ended.lastEngine {s u : State} {k : TaskKey} {status next : Nat} (h : Ended s u k status next) :
    u.hist.lastEngine = s.hist.lastEngine := by
  rw [h.ladder]

theorem Ended.deadlocks {s u : State} {k : TaskKey} {status next : Nat} (h : Ended s u k status next) :
    u.hist.deadlocks = s.hist.deadlocks := by
  rw [h.ladder]

/-! ## The deadline (R133, R135) -/

theorem State.cutCluster_of_none {s : State} {l : Nat} (h : s.abandonable l = []) (n : Nat) : s.cutCluster l n = s := by
  rw [State.cutCluster, h]

/-- Where no entry may be abandoned, the deadline marks the task and no more. -/
theorem State.deadline_of_none {s : State} {key : TaskKey} {t : Task} (ht : s.hub.task key = some t) (hactive : t.active = true)
    (hon : t.dlOn = true) (hexp : t.expired = false) (hnone : ∀ m, s.abandonable m = []) (blocks : List (Nat × Nat)) :
    s.deadline key blocks = s.updTask key (fun t => { t with expired := true }) := by
  have hnone' (m : Nat) : (s.updTask key (fun t => { t with expired := true })).abandonable m = [] := hnone m
  rw [State.deadline, ht]
  dsimp only
  rw [if_neg (by simp [hon, hexp, Task.st_of_active hactive])]
  generalize List.filter _ (List.range 128) = ls
  induction ls with
  | nil => rfl
  | cons m ls ih => rw [List.foldl_cons, State.cutCluster_of_none (hnone' m), ih]

/-! ## Deadlocks (R517) -/

/-- When a task's RUN was accepted. -/
def State.taskOrder (s : State) (k : TaskKey) : Nat := match s.hub.task k with | some x => x.order | none => 0

/-- The module runs the task. -/
def State.isActive (s : State) (k : TaskKey) : Bool := match s.hub.task k with | some t => t.active | none => false

theorem State.isActive_of_task {s : State} {k : TaskKey} {t : Task} (ht : s.hub.task k = some t) (h : t.active = true) :
    s.isActive k = true := by
  rw [State.isActive, ht]
  exact h

/-- The edges that a scan finds between tasks that the module runs. -/
def State.edgesNow (s : State) (queued : List (TaskKey × TaskKey)) : List (TaskKey × TaskKey) :=
  ((s.queueEdges ++ queued).filter (fun e => s.isActive e.1 && s.isActive e.2 && e.1 != e.2)).dedup

theorem exec_deadlockScan_eq (queued : List (TaskKey × TaskKey)) (s : State) : exec (.deadlockScan queued) s =
    .next (State.breakCycles ((s.edgesNow queued).length + 1) ((s.edgesNow queued).filter (fun e => s.hist.edges.contains e))
      { s with hist := { s.hist with edges := s.edgesNow queued } }) := rfl

/-- A round that finds a cycle aborts the task of it that it picks. -/
theorem State.breakCycles_picks {es : List (TaskKey × TaskKey)} {s : State} {t k : TaskKey}
    (hfind : (es.map (·.1)).find? (fun t => (cycleOf es t).length ≥ 2) = some t)
    (hpick : State.breakCycles.pickByOrder s.taskOrder (cycleOf es t) = some k) (fuel : Nat) : State.breakCycles (fuel + 1) es s =
      State.breakCycles fuel (es.filter (fun e => e.1 ≠ k ∧ e.2 ≠ k)) { s.abortTask k statusDeadlock with
        hist := { (s.abortTask k statusDeadlock).hist with deadlocks := satAdd 12 (s.abortTask k statusDeadlock).hist.deadlocks 1 } } := by
  rw [State.breakCycles, hfind]
  dsimp only
  split
  · rename_i hnone
    cases hpick.symm.trans hnone
  · rename_i hsome
    cases hpick.symm.trans hsome
    rfl

/-- The two edges of two tasks that wait for each other. -/
def twoCycle (j k : TaskKey) : List (TaskKey × TaskKey) := [(j, k), (k, j)]

section
variable {j k : TaskKey} (hjk : j ≠ k)
include hjk

/-- From either of them both are reached. -/
theorem reachTasks_twoCycle (n : Nat) :
    reachTasks (twoCycle j k) (n + 2) [k] = [k, j] ∧ reachTasks (twoCycle j k) (n + 2) [j] = [k, j] := by
  have hkj : k ≠ j := hjk.symm
  have hboth (m : Nat) : reachTasks (twoCycle j k) m [k, j] = [k, j] := by
    induction m with
    | zero => rfl
    | succ m ih => simpa [reachTasks, twoCycle, hjk, hkj] using ih
  simpa [reachTasks, twoCycle, hjk, hkj] using hboth n

theorem cycleOf_twoCycle : cycleOf (twoCycle j k) j = [k, j] := by
  have hkj : k ≠ j := hjk.symm
  obtain ⟨hk, hj⟩ := reachTasks_twoCycle hjk 1
  have hfrom : (twoCycle j k).filterMap (fun e => if e.1 = j then some e.2 else none) = [k] := by simp [twoCycle, hkj]
  have hfrom' : (twoCycle j k).filterMap (fun e => if e.1 = k then some e.2 else none) = [j] := by simp [twoCycle, hjk]
  have hlen : (twoCycle j k).length + 1 = 1 + 2 := rfl
  simp [cycleOf, hlen, hfrom, hfrom', hk, hj]

/-- A cycle of the two is broken at the younger one, and none is left. -/
theorem State.breakCycles_twoCycle {s : State} {x y : Task} (hx : s.hub.task j = some x) (hy : s.hub.task k = some y)
    (horder : x.order < y.order) (fuel : Nat) :
    State.breakCycles (fuel + 2) (twoCycle j k) s = { s.abortTask k statusDeadlock with
      hist := { (s.abortTask k statusDeadlock).hist with deadlocks := satAdd 12 (s.abortTask k statusDeadlock).hist.deadlocks 1 } } := by
  have hfind : ((twoCycle j k).map (·.1)).find? (fun t => (cycleOf (twoCycle j k) t).length ≥ 2) = some j := by
    refine List.find?_cons_of_pos ?_
    simp [cycleOf_twoCycle hjk]
  have hpick : State.breakCycles.pickByOrder s.taskOrder [k, j] = some k := by
    simp [State.breakCycles.pickByOrder, State.taskOrder, hx, hy, Nat.le_of_lt horder]
  have hrest : (twoCycle j k).filter (fun e => e.1 ≠ k ∧ e.2 ≠ k) = [] := by simp [twoCycle]
  rw [State.breakCycles_picks hfind (by rw [cycleOf_twoCycle hjk, hpick]), hrest]
  rfl

/-- What a scan of the two edges acts on, where nothing else waits. -/
theorem exec_deadlockScan_twoCycle {s : State} (hj : s.isActive j = true) (hk : s.isActive k = true) (hwait : s.fab.waiting = [])
    (hjk' : (j, k) ∈ s.hist.edges) (hkj' : (k, j) ∈ s.hist.edges) : exec (.deadlockScan (twoCycle j k)) s =
      .next (State.breakCycles 3 (twoCycle j k) { s with hist := { s.hist with edges := twoCycle j k } }) := by
  have hkj : k ≠ j := hjk.symm
  have hqueue : s.queueEdges = [] := by simp [State.queueEdges, hwait]
  have hnow : s.edgesNow (twoCycle j k) = twoCycle j k := by
    simp [State.edgesNow, hqueue, twoCycle, hj, hk, hjk, hkj]
  have hboth : (twoCycle j k).filter (fun e => s.hist.edges.contains e) = twoCycle j k := by simp [twoCycle, hjk', hkj']
  rw [exec_deadlockScan_eq, hnow, hboth]
  rfl

end

/-! ## The statement -/

/-- Settles O45: every abort is a task that has ended, on the module and in the history's ladder. -/
theorem abortsFreeTheClusters : Obligations.AbortsFreeTheClusters := by
  refine ⟨fun s rx key status t hp hears ht hst => ⟨fun hr => ?waits, fun hr hlender => ?aborts⟩,
    fun s l key t o blocks hl hlen ht hactive hr hk => ⟨fun ho hst => ?entry, fun hwait => ?coll, fun hon hexp hnone => ?deadline⟩,
    fun s j k x y hjk hx hy hax hay hr horder hwait hjk' hkj' => ?deadlock⟩
  case waits => rw [exec_abort hears hp, State.abortHere_of_restoring ht hr]
  case aborts =>
    have hend := State.abortNow_ended ht hst status
    refine ⟨_, exec_abort hears hp key status, ?_⟩
    rw [State.abortHere_of_not_restoring ht hr]
    refine ⟨fun l hl => hend.not_held hlender hl, fun hstatus l hl _ hk hunder => ?_, hend.task, hend.others, hend.jobs⟩
    rw [hend.own_cut hstatus hl hk hunder]
    refine ⟨Drl.cut_of_empty, fun hflying => ?_⟩
    rw [Drl.cut_of_flying hflying]
    exact ⟨rfl, rfl⟩
  case entry =>
    have hend := State.entryExpired_ended ht hactive hr hk hst ho
    exact ⟨_, onCluster_of_lt hl _, ⟨hend.task, hend.jobs⟩, hend.lastRung, hend.lastEngine⟩
  case coll =>
    have hend := State.collExpired_ended ht hactive hr hl hwait
    exact ⟨_, rfl, ⟨hend.task, hend.jobs⟩, hend.lastRung⟩
  case deadline => exact congrArg _ (State.deadline_of_none ht hactive hon hexp hnone blocks)
  case deadlock =>
    refine ⟨_, exec_deadlockScan_twoCycle hjk (State.isActive_of_task hx hax) (State.isActive_of_task hy hay) hwait hjk' hkj', ?_⟩
    rw [State.breakCycles_twoCycle hjk (by exact hx) (by exact hy) horder]
    have hend : Ended { s with hist := { s.hist with edges := twoCycle j k } } _ k statusDeadlock y.step :=
      State.abortTask_ended (by exact hy) (Task.st_of_active hay) hr statusDeadlock
    obtain ⟨v, hv, hidle, -⟩ := hend.task
    exact ⟨(hend.others j hjk).trans hx, ⟨v, hv, hidle⟩, congrArg (satAdd 12 · 1) hend.deadlocks⟩

end Sys2Proof.Machine
end

section
/-!
Proof, the entries that act on the Derailleur itself: CTL_WRITE (R142), ITER_END (R133) and HALT (R138, R455).
-/

namespace Sys2Proof.Machine

/-! ## CTL_WRITE (R142; log 10) -/

theorem State.doCtlEntry_word {s : State} {x : Site} {r : Reg} (h : regAt (fld x.e.w2 31 0) = some r) :
    s.doCtlEntry x = (s.writeReg r x.e.w3 x.key.ctx).workDone x := by
  rw [State.doCtlEntry, h]

/-- A write that is still to be performed belongs to its issue, so that nothing issues before it (the model's choice, log 10). -/
theorem State.nextIssue_of_writing {s : State} {l : Nat} {k : Deck} (h : k.writing = true) : s.nextIssue l k = none := by
  have hmay : k.mayIssue = false := by simp [Deck.mayIssue, h]
  rw [State.nextIssue_eq, hmay]
  rfl

theorem Deck.writing_of_flight {k : Deck} {f : Flight} {e : Entry} (hf : f ∈ k.d.flights) (hw : f.work = .todo) (he : k.entry f.idx = some e)
    (hop : e.op = .ctlWrite) : k.writing = true :=
  List.any_eq_true.2 ⟨f, hf, by simp [hw, he, hop]⟩

/-! ## ITER_END (R133) -/

/-- The counters that a mask names are 0, the others stay. -/
theorem Drl.clearCtrs_getD (d : Drl) (mask : Word) (c : Nat) :
    (d.clearCtrs mask).ctrs.getD c 0 = if bit mask c then 0 else d.ctrs.getD c 0 := by
  simp only [Drl.clearCtrs, List.getD_eq_getElem?_getD, List.getElem?_map, List.getElem?_zipIdx, Option.map_map]
  cases d.ctrs[c]? <;> simp

/-- The deadline of the task has passed. -/
def State.pastDeadline (s : State) (k : TaskKey) : Bool := match s.hub.task k with | some t => t.expired | none => false

/-- In a Cassette that is not a solver's the rule of R133 alone decides. -/
theorem State.doIterEnd_eq {s : State} {x : Site} {k : Deck} (hk : s.deck x.l = some k) (hsol : k.sol = []) :
    s.doIterEnd x = (s.updDrl x.l (fun d => d.iterate x.e (k.d.exits x.e (s.pastDeadline x.key)))).complete x := by
  rw [State.doIterEnd, hk]
  dsimp only
  rw [if_pos hsol]
  rfl

/-! ## An entry of the Derailleur that is done at once -/

theorem State.updDrl_under (s : State) (l : Nat) (f : Drl → Drl) (n : Nat) : ((s.updDrl l f).cluster n).under = (s.cluster n).under := by
  rw [State.updDrl, State.updCluster_part (·.under)]
  exact fun _ => rfl

theorem State.settlePause_under (s : State) (l n : Nat) : ((s.settlePause l).cluster n).under = (s.cluster n).under := by
  unfold State.settlePause
  dsimp only
  split
  · exact s.updDrl_under l _ n
  · rfl

section
variable {s : State} {x : Site} (hop : x.e.op = .iterEnd ∨ x.e.op = .halt ∨ x.e.op = .stepEnd) (htag : x.f.tag = none) (hsig : x.e.sigOn = false)
  (hl : x.l < s.clusters.length) (g : Drl → Drl)
include hop

/-- Such an entry raises no flags and keeps no slot. -/
theorem Site.plain_of_control : x.traps = false ∧ x.e.op ≠ .release ∧ x.e.op ≠ .copy := by
  refine ⟨Site.traps_of_unchained ?_, ?_, ?_⟩
  · rcases hop with h | h | h <;> simp [Site.chain, h]
  all_goals rcases hop with h | h | h <;> simp [h]

include htag hsig

theorem sameClusters_control : SameClusters s ((s.updDrl x.l g).complete x) x.l :=
  (sameClusters_updCluster s x.l _).trans
    (sameClusters_complete (Site.plain_of_control hop).1 htag (fun h => absurd h (by simp [hsig])))

theorem State.control_keeps : ((s.updDrl x.l g).complete x).mem = s.mem ∧ ((s.updDrl x.l g).complete x).hub = s.hub ∧
    ((s.updDrl x.l g).complete x).jobs = s.jobs := by
  simpa using State.complete_untagged_keeps (s := s.updDrl x.l g) (Site.plain_of_control hop).1 htag (fun h => absurd h (by simp [hsig]))

/-- A lender beneath the cluster stays. -/
theorem State.control_under (n : Nat) : (((s.updDrl x.l g).complete x).cluster n).under = (s.cluster n).under := by
  have hleft : (((s.updDrl x.l g).left x).cluster n).under = (s.cluster n).under := by
    rw [State.left, State.settleSubst_part (·.under) (fun _ _ => rfl), State.count_part (·.under) (fun _ _ => rfl), State.updDrl_under,
      State.latchFlags_part (·.under) (fun _ _ => rfl), State.updDrl_under]
  rw [State.complete_untagged (Site.plain_of_control hop).1 htag (fun h => absurd h (by simp [hsig]))]
  split
  · exact hleft
  · rw [State.settlePause_under, hleft]

include hl

/-- What the entry makes of the Derailleur stays, but for its flight and a pause that takes effect. -/
theorem State.control_part {α : Type} (part : Drl → α) (h : ∀ d st req, part { d with st := st, pauseReq := req } = part d) :
    part (((s.updDrl x.l g).complete x).cluster x.l).drl = part ((g (s.cluster x.l).drl).dropFlight x.f.idx) := by
  obtain ⟨htrap, hplain⟩ := Site.plain_of_control hop
  have hctr : x.e.sigOn = true → ((s.updDrl x.l g).cluster x.l).drl.ctrs.getD x.e.sigCtr 0 + 1 < 2 ^ 24 := fun h => absurd h (by simp [hsig])
  rw [State.complete_part htrap htag hctr part h (by simpa using hl), State.drlAfter_plain hsig hplain, State.updDrl_drl _ _ _ hl]

end

theorem Drl.dropFlight_flight (d : Drl) (idx : Nat) : (d.dropFlight idx).flight idx = none := by
  rw [Drl.flight, Drl.dropFlight, List.find?_filter]
  simp

/-! ## HALT (R138) -/

/-- The task of an entry in flight holds the cluster, and its job is loaded. -/
theorem State.site_task {s : State} {l idx : Nat} {x : Site} (h : s.site l idx = some x) :
    (s.cluster l).drl.holder = some x.key ∧ s.jobOf x.key = some x.job := by
  unfold State.site at h
  dsimp only at h
  split at h
  · split at h
    · split at h
      · cases h
        exact ⟨‹_›, ‹_›⟩
      · cases h
    · cases h
  · cases h

theorem State.jobOf_congr {s u : State} (h : u.jobs = s.jobs) (k : TaskKey) : u.jobOf k = s.jobOf k := by
  rw [State.jobOf, State.job, h, State.jobOf, State.job]

theorem State.stepBase_congr {s u : State} (h : u.jobs = s.jobs) (k : TaskKey) : u.stepBase k = s.stepBase k := by
  rw [State.stepBase, State.jobOf_congr h, State.stepBase]

/-- The one cluster of a task has halted. -/
theorem State.allHalted_of_one {s : State} {k : TaskKey} {j : Job} {l : Nat} (hj : s.jobOf k = some j) (hls : j.clusters k.task = [l])
    (hk : (s.cluster l).drl.holder = some k) (hhalt : (s.cluster l).drl.halted = true) : s.allHalted k = true := by
  rw [State.allHalted, hj]
  simp [hls, State.drlOf_holder hk, hhalt]

/-- A task that is no solver's ends with STATUS.DONE, its candidates installed or discarded first. -/
theorem State.taskDone_ended {s : State} {k : TaskKey} {j : Job} {t : Task} (hj : s.jobOf k = some j) (ht : s.hub.task k = some t)
    (hsol : j.isSolver k.task = false) : Ended s (s.taskDone k) k statusDone (s.stepBase k) := by
  set ws := j.endCands s.mem k.task (s.ownSlots k (s.slotClusters k t)) with hws
  have heq : s.taskDone k = (s.store ws).endTask k statusDone ((s.store ws).stepBase k) := by
    have hj' : (s.store ws).jobOf k = some j := hj
    rw [State.taskDone, hj, ht]
    dsimp only
    rw [← hws, hj']
    split
    · rename_i j' p hj'' hp
      cases hj''
      rw [if_neg (by simp [hsol])]
    · rfl
  rw [heq]
  exact (State.endTask_ended (s := s.store ws) ht statusDone _).before (fun _ => rfl) (fun _ => rfl) rfl rfl (.refl _)

/-! ## The statement -/

/-- Settles O43: the entries complete as R126 has it, once each has done its own to the Derailleur. -/
theorem controlEntriesActAndHaltEnds : Obligations.ControlEntriesActAndHaltEnds := by
  refine ⟨fun s l idx x k r hl hlen => ⟨fun hx hr => ?write, fun hk ⟨f, hf, hw, e, he, hop⟩ => ?holds, fun hx hk hsol htag hsig => ?iter⟩,
    fun s l idx x t hl hlen hx htag hsig hls hsol hunder ht hflights => ?halt⟩
  case write =>
    refine (onCluster_of_lt hl _).trans ?_
    rw [hx]
    exact congrArg _ (State.doCtlEntry_word hr)
  case holds => exact State.nextIssue_of_writing (Deck.writing_of_flight hf hw he hop)
  case iter =>
    obtain ⟨-, rfl, rfl, hop⟩ := State.todo_spec hx
    have hin : x.l < s.clusters.length := hlen ▸ hl
    have hexec : exec (.iterEnd x.l x.f.idx) s =
        .next ((s.updDrl x.l (fun d => d.iterate x.e (k.d.exits x.e (s.pastDeadline x.key)))).complete x) := by
      refine (onCluster_of_lt hl _).trans ?_
      rw [hx]
      exact congrArg _ (State.doIterEnd_eq hk hsol)
    have hpart {α : Type} (g : Drl → Drl) (part : Drl → α) (h : ∀ d st req, part { d with st := st, pauseReq := req } = part d) :=
      State.control_part (.inl hop) htag hsig hin g part h
    have hothers (g : Drl → Drl) := sameClusters_control (s := s) (.inl hop) htag hsig g
    have hkeeps (g : Drl → Drl) := State.control_keeps (s := s) (.inl hop) htag hsig g
    refine ⟨fun hexit => ?exit, fun hagain => ?again⟩
    case exit =>
      have hdecided : k.d.exits x.e (s.pastDeadline x.key) = true := hexit
      rw [hdecided] at hexec
      exact ⟨_, hexec, hpart _ (·.iter) fun _ _ _ => rfl, hpart _ (·.head) fun _ _ _ => rfl, hpart _ (·.ctrs) fun _ _ _ => rfl,
        (hpart _ (·.flight x.f.idx) fun _ _ _ => rfl).trans (Drl.dropFlight_flight _ _), hothers _, (hkeeps _).1⟩
    case again =>
      have hdecided : k.d.exits x.e (s.pastDeadline x.key) = false := hagain
      rw [hdecided] at hexec
      refine ⟨_, hexec, hpart _ (·.iter) fun _ _ _ => rfl, hpart _ (·.head) fun _ _ _ => rfl, fun c => ?_,
        (hpart _ (·.flight x.f.idx) fun _ _ _ => rfl).trans (Drl.dropFlight_flight _ _), hothers _, (hkeeps _).1⟩
      exact (hpart _ (·.ctrs.getD c 0) fun _ _ _ => rfl).trans (Drl.clearCtrs_getD _ _ c)
  case halt =>
    obtain ⟨hsite, rfl, rfl, hop⟩ := State.todo_spec hx
    obtain ⟨hk, hj⟩ := State.site_task hsite
    have hin : x.l < s.clusters.length := hlen ▸ hl
    set u := (s.updDrl x.l (fun d => { d with halted := true })).complete x with hu
    have hpart {α : Type} (part : Drl → α) (h : ∀ d st req, part { d with st := st, pauseReq := req } = part d) :=
      State.control_part (.inr (.inl hop)) htag hsig hin (fun d => { d with halted := true }) part h
    obtain ⟨-, hhub, hjobs⟩ := State.control_keeps (s := s) (.inr (.inl hop)) htag hsig (fun d => { d with halted := true })
    have hholder : (u.cluster x.l).drl.holder = some x.key := (hpart (·.holder) fun _ _ _ => rfl).trans hk
    have hlast : (u.cluster x.l).drl.flights = [] :=
      (hpart (·.flights) fun _ _ _ => rfl).trans (List.filter_eq_nil_iff.2 fun f hf => by simp [hflights f hf])
    have hunder' : (u.cluster x.l).under = none := (State.control_under (.inr (.inl hop)) htag hsig _ x.l).trans hunder
    have hju : u.jobOf x.key = some x.job := (State.jobOf_congr hjobs _).trans hj
    have hall : u.allHalted x.key = true := State.allHalted_of_one hju hls hholder (hpart (·.halted) fun _ _ _ => rfl)
    have hexec : exec (.halt x.l x.f.idx) s = .next (u.taskDone x.key) := by
      refine (onCluster_of_lt hl _).trans ?_
      rw [hx]
      exact congrArg _ (if_pos hall)
    have hend := State.taskDone_ended hju ((congrArg (·.task x.key) hhub).trans ht) hsol
    rw [State.stepBase_congr hjobs] at hend
    refine ⟨_, hexec, ?_, hend.task, fun n hn => (hend.others n hn).trans (congrArg (·.task n) hhub), hend.jobs.trans hjobs⟩
    rw [hend.own_cut (by decide) hl hholder hunder', Drl.cut_of_empty hlast]

end Sys2Proof.Machine
end

section
/-!
Proof, the end of a step: the votes (R137, R272), and the rewind that a decided outcome ends in (R137, R273, R274).
-/

namespace Sys2Proof.Machine

/-! ## Votes (R272) -/

theorem mem_mergeVotes {old new : List Vote} {v : Vote} (h : v ∈ mergeVotes old new) : v ∈ old ∨ v ∈ new :=
  (List.mem_append.1 h).imp_left List.mem_of_mem_filter

/-- While a cluster of the task has not voted the module's votes are not complete. -/
theorem State.allVoted_of_missing {s : State} {k : TaskKey} {t : Task} {j : Job} {m : Nat} (hm : m ∈ j.clusters k.task)
    (h : ∀ v ∈ t.votes, ¬ (v.module = s.me ∧ v.cluster = m)) : s.allVoted k t j = false := by
  refine Bool.eq_false_iff.2 fun hall => ?_
  rw [State.allVoted, Bool.and_eq_true, List.all_eq_true] at hall
  obtain ⟨v, hv, hvote⟩ := List.any_eq_true.1 (hall.1 m hm)
  exact h v hv (by simpa using hvote)

/-- Incomplete votes go no further. -/
theorem State.passVotes_of_missing {s : State} {k : TaskKey} {t : Task} {j : Job} {m : Nat} (ht : s.hub.task k = some t)
    (hj : s.jobOf k = some j) (hm : m ∈ j.clusters k.task) (h : ∀ v ∈ t.votes, ¬ (v.module = s.me ∧ v.cluster = m)) : s.passVotes k = s := by
  rw [State.passVotes, ht, hj]
  exact if_pos (.inr (by simp [State.allVoted_of_missing hm h]))

/-- The module once a cluster has voted at its STEP_END and waits. -/
def State.voted (s : State) (x : Site) : State :=
  ((s.complete x).updDrl x.l (fun d => { d with st := .stepWait })).updTask x.key (fun t => { t with votes := mergeVotes t.votes [s.voteOf x] })

theorem State.doStepEnd_eq {s : State} {x : Site} (h : ((s.complete x).cluster x.l).drl.holder = some x.key) :
    s.doStepEnd x = (s.voted x).passVotes x.key := if_neg (by simpa using h)

theorem exec_vote {s : State} {rx : Rx} (hears : s.hears rx = true) (hp : rx.port = none) (key : TaskKey) (step : Nat) (votes : List Vote)
    (cops : List CopInfo) : exec (.vote rx key step votes cops) s = .next (s.takeVote key step votes cops) :=
  State.arrive_from_self hears hp (.vote key step votes cops) (fun s => s.takeVote key step votes cops)

theorem State.takeVote_of_missing {s : State} {k : TaskKey} {t : Task} {j : Job} {m : Nat} {votes : List Vote} {cops : List CopInfo}
    (ht : s.hub.task k = some t) (hj : s.jobOf k = some j) (hvotes : votes ≠ []) (hm : m ∈ j.clusters k.task)
    (hmissing : ∀ v ∈ t.votes ++ votes, ¬ (v.module = s.me ∧ v.cluster = m)) (hcops : ∀ c ∈ t.cops ++ cops, c.module ≠ s.me) :
    s.takeVote k t.current votes cops = s.updTask k (fun t => { t with votes := mergeVotes t.votes votes, cops := mergeCops t.cops cops }) := by
  have hown : t.cops.any (fun c => c.module = s.me) = false := by
    refine List.any_eq_false.2 fun c hc => ?_
    simpa using hcops c (List.mem_append_left _ hc)
  rw [State.takeVote, ht, hj]
  simp only [ne_eq, not_true_eq_false, if_false, if_neg hvotes]
  refine (if_neg (Bool.eq_false_iff.1 hown)).trans ?_
  refine State.passVotes_of_missing (Hub.task_updTask_self ht fun _ => rfl) (by exact hj) hm fun v hv => ?_
  exact hmissing v (List.mem_append.2 (mem_mergeVotes hv))

/-! ## What an outcome changes beside the Derailleurs and the task's record (R274, R275) -/

/-- The description of a task in its job. -/
def State.desc (s : State) (k : TaskKey) : Option TaskDesc := (s.jobOf k).bind (fun j => j.tasks[k.task]?)

/-- From `s` to `u` no Derailleur, no task record and no held packet changes, and the task's description stays. -/
structure SameWork (s u : State) (k : TaskKey) : Prop where
  drl : ∀ l, (u.cluster l).drl = (s.cluster l).drl
  length : u.clusters.length = s.clusters.length
  tasks : u.hub.tasks = s.hub.tasks
  held : u.hub.held = s.hub.held
  desc : u.desc k = s.desc k

theorem SameWork.trans {s u v : State} {k : TaskKey} (a : SameWork s u k) (b : SameWork u v k) : SameWork s v k where
  drl l := (b.drl l).trans (a.drl l)
  length := b.length.trans a.length
  tasks := b.tasks.trans a.tasks
  held := b.held.trans a.held
  desc := b.desc.trans a.desc

theorem SameWork.refl (s : State) (k : TaskKey) : SameWork s s k := ⟨fun _ => rfl, rfl, rfl, rfl, rfl⟩

section
variable (s : State) (k : TaskKey)

/-- Most of what an outcome does leaves the clusters and the jobs alone. -/
theorem SameWork.of_kept {s u : State} {k : TaskKey} (hclusters : u.clusters = s.clusters) (hjobs : u.jobs = s.jobs)
    (htasks : u.hub.tasks = s.hub.tasks) (hheld : u.hub.held = s.hub.held) : SameWork s u k where
  drl l := congrArg (·.drl) (State.cluster_of_clusters hclusters l)
  length := by rw [hclusters]
  tasks := htasks
  held := hheld
  desc := by rw [State.desc, State.jobOf_congr hjobs, State.desc]

theorem sameWork_store (ws : List (Nat × List Byte)) : SameWork s (s.store ws) k := .of_kept rfl rfl rfl rfl

/-- A change of a job that keeps its name and its tasks. -/
theorem sameWork_updJob (ctx handle : Nat) {f : Job → Job}
    (hf : ∀ j, (f j).ctx = j.ctx ∧ (f j).handle = j.handle ∧ (f j).tasks = j.tasks) : SameWork s (s.updJob ctx handle f) k where
  drl _ := rfl
  length := rfl
  tasks := rfl
  held := rfl
  desc := by
    have hkeep (j : Job) : (if j.ctx = ctx ∧ j.handle = handle then f j else j).ctx = j.ctx ∧
        (if j.ctx = ctx ∧ j.handle = handle then f j else j).handle = j.handle ∧
        (if j.ctx = ctx ∧ j.handle = handle then f j else j).tasks = j.tasks := by
      split
      · exact hf j
      · exact ⟨rfl, rfl, rfl⟩
    simp only [State.desc, State.jobOf, State.job, State.updJob, List.find?_map, Function.comp_def, (hkeep _).1, (hkeep _).2.1]
    cases s.jobs.find? (fun j => j.ctx = k.ctx ∧ j.handle = k.job) with
    | none => rfl
    | some j => exact congrArg (·[k.task]?) (hkeep j).2.2

theorem sameWork_updRec (j : Job) (f : StepRec → StepRec) : SameWork s (s.updRec j f) k := by
  unfold State.updRec
  split
  · exact .of_kept (by simp) (by simp) (by simp) (by simp)
  · exact .refl s k

theorem sameWork_planRec (f : ParamPlan → StepRec → StepRec) : SameWork s (s.planRec k f) k := by
  unfold State.planRec
  split
  · exact sameWork_updRec s k _ _
  · exact .refl s k

theorem sameWork_trainRec (f : StepRec → StepRec) : SameWork s (s.trainRec k f) k := by
  unfold State.trainRec
  split
  · exact sameWork_planRec s k _
  · exact .refl s k

theorem sameWork_trainLs : SameWork s (s.trainLs k) k := .of_kept (by simp) (by simp) (by simp) (by simp)

theorem sameWork_startStreams (step : Nat) (vs : List Vote) : SameWork s (s.startStreams k step vs) k := by
  have hhub : (s.startStreams k step vs).hub.tasks = s.hub.tasks ∧ (s.startStreams k step vs).hub.held = s.hub.held := by
    unfold State.startStreams
    split
    · split
      · exact ⟨rfl, rfl⟩
      · exact ⟨rfl, rfl⟩
    · exact ⟨rfl, rfl⟩
  exact .of_kept (by simp) (by simp) hhub.1 hhub.2

theorem sameWork_count (l : Nat) (ws : List (Nat × Nat)) : SameWork s (s.count l ws) k where
  drl n := s.count_drl l ws n
  length := by simp
  tasks := rfl
  held := rfl
  desc := rfl

/-- A fold whose steps each leave the work alone leaves it alone. -/
theorem sameWork_foldl {β : Type} {g : State → β → State} (h : ∀ s b, SameWork s (g s b) k) (bs : List β) : SameWork s (bs.foldl g s) k := by
  induction bs generalizing s with
  | nil => exact .refl s k
  | cons b bs ih => exact (h s b).trans (ih (g s b))

theorem sameWork_advanceScales (ls : List Nat) (commit : Bool) : SameWork s (s.advanceScales k ls commit) k := by
  unfold State.advanceScales
  split
  · exact .refl s k
  · exact (sameWork_foldl s k (fun s r => sameWork_store s k _) _).trans (sameWork_updJob _ k _ _ fun j => ⟨rfl, rfl, rfl⟩)

theorem sameWork_noteOutcome (ls : List Nat) (vs : List Vote) : SameWork s (s.noteOutcome k ls vs) k := by
  unfold State.noteOutcome
  exact (sameWork_planRec s k _).trans (sameWork_foldl _ k (fun s l => sameWork_count s k l _) ls)

end

theorem State.freeHelds_of_none {s : State} (h : s.hub.held = []) (f : Held → Bool) : s.freeHelds f = s := by
  rw [State.freeHelds, h]
  rfl

/-! ## The rewind (R137) -/

/-- A Derailleur at entry 0 of a new attempt: its generation has toggled. -/
def Drl.restarted (d : Drl) : Drl :=
  { d with
    st := .running, ctrs := List.replicate 64 0, gen := !d.gen, pend := [], head := 0, ahead := [], iter := 1,
    bound := some true, rewound := true, digest := 0, mismatch := false, convs := [], amaxs := [], copied := [] }

/-- No pending signal is left to apply. -/
theorem Drl.rewind_of_no_pend {d : Drl} (h : d.pend = []) : d.rewind = some d.restarted := by
  rw [Drl.rewind, h]
  rfl

/-- A cluster rewinds that its task holds, with no signal and no pause waiting. -/
structure State.Rewinds (s : State) (k : TaskKey) (l : Nat) : Prop where
  lt : l < s.clusters.length
  holder : (s.cluster l).drl.holder = some k
  pend : (s.cluster l).drl.pend = []
  pause : (s.cluster l).drl.pauseReq = false

theorem State.Rewinds.of_drl {s u : State} {k : TaskKey} {l : Nat} (h : s.Rewinds k l) (hdrl : (u.cluster l).drl = (s.cluster l).drl)
    (hlen : u.clusters.length = s.clusters.length) : u.Rewinds k l where
  lt := hlen ▸ h.lt
  holder := hdrl ▸ h.holder
  pend := hdrl ▸ h.pend
  pause := hdrl ▸ h.pause

/-- What the rewind of a task does to one of its clusters. -/
def State.rewindOne (k : TaskKey) (s : State) (l : Nat) : State :=
  match (s.drlOf k l).bind Drl.rewind with | some d => (s.setDrlOf k l d).settlePause l | none => s

theorem State.Rewinds.drlOf_rewind {s : State} {k : TaskKey} {l : Nat} (h : s.Rewinds k l) :
    (s.drlOf k l).bind Drl.rewind = some (s.cluster l).drl.restarted := by
  rw [State.drlOf_holder h.holder, Option.bind_some, Drl.rewind_of_no_pend h.pend]

theorem State.Rewinds.rewindOne_eq {s : State} {k : TaskKey} {l : Nat} (h : s.Rewinds k l) :
    State.rewindOne k s l = s.updDrl l (fun _ => (s.cluster l).drl.restarted) := by
  rw [State.rewindOne, h.drlOf_rewind]
  dsimp only
  rw [State.setDrlOf_holder h.holder]
  refine State.settlePause_of_waits (.inl ?_)
  rw [State.updDrl_drl _ _ _ h.lt]
  exact h.pause

/-- Clusters that rewind one after the other. -/
theorem State.foldl_rewindOne {s : State} {k : TaskKey} {ls : List Nat} (hnodup : ls.Nodup) (h : ∀ l ∈ ls, s.Rewinds k l) :
    (∀ l ∈ ls, ((ls.foldl (State.rewindOne k) s).cluster l).drl = (s.cluster l).drl.restarted) ∧
    (∀ l, l ∉ ls → ((ls.foldl (State.rewindOne k) s).cluster l) = s.cluster l) ∧ (ls.foldl (State.rewindOne k) s).hub = s.hub := by
  induction ls generalizing s with
  | nil => simp
  | cons l ls ih =>
    obtain ⟨hl, hnodup⟩ := List.nodup_cons.1 hnodup
    have hone := (h l List.mem_cons_self).rewindOne_eq
    have hother (n : Nat) (hn : n ≠ l) : (State.rewindOne k s l).cluster n = s.cluster n := by
      rw [hone, State.updDrl_other _ _ _ _ hn]
    have hne (n : Nat) (hn : n ∈ ls) : n ≠ l := fun he => hl (he ▸ hn)
    have hnext (n : Nat) (hn : n ∈ ls) : (State.rewindOne k s l).Rewinds k n :=
      (h n (List.mem_cons_of_mem l hn)).of_drl (congrArg (·.drl) (hother n (hne n hn))) (by rw [hone]; simp)
    obtain ⟨hin, hout, hhub⟩ := ih hnodup hnext
    rw [List.foldl_cons]
    refine ⟨fun n hn => ?_, fun n hn => ?_, hhub.trans (by rw [hone]; simp)⟩
    · rcases List.mem_cons.1 hn with rfl | hn
      · rw [hout n hl, hone, State.updDrl_drl _ _ _ (h n List.mem_cons_self).lt]
      · rw [hin n hn, hother n (hne n hn)]
    · rw [List.mem_cons, not_or] at hn
      rw [hout n hn.2, hother n hn.1]

/-- STEP_NF of the task's clusters is clear (R209). -/
def State.clearNf (s : State) (ls : List Nat) : State :=
  ls.foldl (fun (s : State) l => s.updCluster l (fun c => { c with chn := { c.chn with stepNf := false } })) s

theorem State.clearNf_drl (s : State) (ls : List Nat) (n : Nat) : ((s.clearNf ls).cluster n).drl = (s.cluster n).drl := by
  refine foldl_keeps (fun a : State => (a.cluster n).drl) _ (fun a l => ?_) ls s
  refine State.updCluster_part (·.drl) ?_ a l n
  exact fun _ => rfl

theorem State.clearNf_length (s : State) (ls : List Nat) : (s.clearNf ls).clusters.length = s.clusters.length :=
  foldl_clusters_length _ (fun a l => by simp) ls s

theorem State.clearNf_hub (s : State) (ls : List Nat) : (s.clearNf ls).hub = s.hub := foldl_hub _ (fun a l => by simp) ls s

/-- A task whose clusters all rewind stands at entry 0 on each of them, and its record stays. -/
theorem State.rewindTask_of_rewinds {s : State} {k : TaskKey} {ls : List Nat} (hnodup : ls.Nodup) (h : ∀ l ∈ ls, s.Rewinds k l) :
    (∀ l ∈ ls, ((s.rewindTask k ls).cluster l).drl = (s.cluster l).drl.restarted) ∧ (s.rewindTask k ls).hub = s.hub := by
  have hclear (l : Nat) (hl : l ∈ ls) : (s.clearNf ls).Rewinds k l := (h l hl).of_drl (s.clearNf_drl ls l) (s.clearNf_length ls)
  have hfits : ls.any (fun l => match (s.clearNf ls).drlOf k l with | some d => d.rewind.isNone | none => false) = false := by
    refine List.any_eq_false.2 fun l hl => ?_
    rw [State.drlOf_holder (hclear l hl).holder]
    simp [Drl.rewind_of_no_pend (hclear l hl).pend]
  have heq : s.rewindTask k ls = ls.foldl (State.rewindOne k) (s.clearNf ls) := if_neg (by simp only [Bool.not_eq_true]; exact hfits)
  obtain ⟨hin, -, hhub⟩ := State.foldl_rewindOne hnodup hclear
  rw [heq]
  exact ⟨fun l hl => (hin l hl).trans (by rw [s.clearNf_drl]), hhub.trans (s.clearNf_hub ls)⟩

/-! ## A decided outcome (R273, R274) -/

/-- From `s` to `u` the task has gone back to entry 0 on its clusters `ls`, and its record has changed by `f`. -/
structure Restarted (s u : State) (k : TaskKey) (ls : List Nat) (f : Task → Task) : Prop where
  drl : ∀ l ∈ ls, (u.cluster l).drl = (s.cluster l).drl.restarted
  task : u.hub.task k = (s.hub.task k).map f

section
variable {s : State} {k : TaskKey} {ls : List Nat}

theorem SameWork.rewinds {u : State} (h : SameWork s u k) {l : Nat} (hl : s.Rewinds k l) : u.Rewinds k l := hl.of_drl (h.drl l) h.length

/-- What an outcome does beside the work comes before the restart. -/
theorem Restarted.before {r u : State} {f : Task → Task} (h : Restarted s u k ls f) (hsame : SameWork r s k) : Restarted r u k ls f where
  drl l hl := (h.drl l hl).trans (by rw [hsame.drl l])
  task := h.task.trans (by rw [Hub.task_congr hsame.tasks])

/-- So does a change of the task's record. -/
theorem Restarted.after_updTask {u : State} {f g : Task → Task} (h : Restarted (s.updTask k g) u k ls f) (hg : ∀ t, (g t).key = t.key) :
    Restarted s u k ls (fun t => f (g t)) where
  drl := h.drl
  task := by
    rw [h.task, State.updTask_hub, Hub.task_updTask _ _ _ hg, if_pos rfl, Option.map_map]
    rfl

variable (hnodup : ls.Nodup) (hls : ∀ l ∈ ls, s.Rewinds k l)
include hnodup hls

theorem State.rewindTask_restarted : Restarted s (s.rewindTask k ls) k ls id := by
  obtain ⟨hdrl, hhub⟩ := State.rewindTask_of_rewinds hnodup hls
  exact ⟨hdrl, by rw [hhub, Option.map_id, id]⟩

/-- With steps left, the next one begins as its first attempt (R137). -/
theorem State.nextStep_restarted {t : Task} {d : TaskDesc} (hd : s.desc k = some d) (hsteps : t.done + 1 < d.steps) :
    Restarted s (s.nextStep k t ls) k ls (fun q => { q with step := (t.step + 1) % 2 ^ 64, attempt := 1, done := q.done + 1 }) := by
  have hdesc : (s.jobOf k).bind (fun j => j.tasks[k.task]?) = some d := hd
  unfold State.nextStep
  rw [hdesc]
  dsimp only
  rw [if_neg (Nat.not_le.2 hsteps)]
  have hrec := sameWork_trainRec (s.updTask k (fun t' => { t' with step := (t.step + 1) % 2 ^ 64, attempt := 1, done := t'.done + 1 })) k
    (fun r => { r with step := (t.step + 1) % 2 ^ 64, attempt := 1 })
  refine Restarted.after_updTask (f := id) ((State.rewindTask_restarted hnodup fun l hl => ?_).before hrec) fun _ => rfl
  exact hrec.rewinds ((hls l hl).of_drl rfl rfl)

variable (hheld : s.hub.held = [])
include hheld

/-- Without held packets nothing is applied again before a new attempt. -/
theorem State.retry_restarted (step : Nat) : Restarted s (s.retry k step ls) k ls id := by
  have happly : s.reapply k step = some s := by
    rw [State.reapply, hheld]
    rfl
  rw [State.retry, happly]
  exact State.rewindTask_restarted hnodup hls

/-- COMMIT with steps left. -/
theorem State.commit_restarted {t : Task} {d : TaskDesc} (hd : s.desc k = some d) (hsteps : t.done + 1 < d.steps) (vs : List Vote) :
    Restarted s (s.commit k t ls vs) k ls (fun q => { q with step := (t.step + 1) % 2 ^ 64, attempt := 1, done := q.done + 1 }) := by
  unfold State.commit
  extract_lets s1 s2 s3 s4 s5 s6 s7 s8
  have h1 : SameWork s s1 k := sameWork_updJob s k _ _ fun j => ⟨rfl, rfl, rfl⟩
  have h2 : SameWork s s2 k := h1.trans (sameWork_advanceScales s1 k ls true)
  have h3 : SameWork s2 s3 k := by
    unfold s3
    split
    · exact (sameWork_store s2 k _).trans (sameWork_store _ k _)
    · exact .refl s2 k
  have h6 : SameWork s s6 k :=
    (((h2.trans h3).trans (sameWork_planRec s3 k _)).trans (sameWork_trainRec s4 k _)).trans (sameWork_trainLs s5 k)
  have h7 : s7 = s6 := State.freeHelds_of_none (h6.held.trans hheld) _
  have h8 : SameWork s s8 k := h6.trans (h7 ▸ sameWork_startStreams s7 k _ vs)
  exact (State.nextStep_restarted hnodup (fun l hl => h8.rewinds (hls l hl)) (h8.desc.trans hd) hsteps).before h8

/-- SKIP with steps left. -/
theorem State.skip_restarted {t : Task} {d : TaskDesc} (hd : s.desc k = some d) (hsteps : t.done + 1 < d.steps) (vs : List Vote) :
    Restarted s (s.skip k t ls vs) k ls (fun q => { q with step := (t.step + 1) % 2 ^ 64, attempt := 1, done := q.done + 1 }) := by
  unfold State.skip
  extract_lets s1 s2 s3 s4
  have h1 : SameWork s s1 k := sameWork_advanceScales s k ls false
  have h2 : SameWork s1 s2 k := by
    unfold s2
    split
    · exact (sameWork_store s1 k _).trans (sameWork_store _ k _)
    · exact .refl s1 k
  have h3 : SameWork s s3 k := ((h1.trans h2).trans (sameWork_planRec s2 k _)).trans (sameWork_trainLs _ k)
  have h4 : s4 = s3 := State.freeHelds_of_none (h3.held.trans hheld) _
  rw [h4]
  exact (State.nextStep_restarted hnodup (fun l hl => h3.rewinds (hls l hl)) (h3.desc.trans hd) hsteps).before h3

/-- RECOMPUTE repeats the step as its next attempt. -/
theorem State.recompute_restarted (t : Task) (vs : List Vote) (step : Nat) :
    Restarted s ((s.again k t ls .recompute vs).retry k step ls) k ls (fun q => { q with attempt := t.attempt + 1 }) := by
  unfold State.again
  extract_lets s1 s2 s3
  have h1 : SameWork s s1 k := by
    unfold s1
    split
    · exact (sameWork_store s k _).trans (sameWork_store _ k _)
    · exact .refl s k
  have h4 : SameWork s2 (s3.trainRec k (fun r => { r with attempt := t.attempt + 1 })) k :=
    (sameWork_planRec s2 k _).trans (sameWork_trainRec s3 k _)
  have hrewinds (l : Nat) (hl : l ∈ ls) : (s3.trainRec k (fun r => { r with attempt := t.attempt + 1 })).Rewinds k l :=
    h4.rewinds ((h1.rewinds (hls l hl)).of_drl rfl rfl)
  have hretry := (State.retry_restarted hnodup hrewinds (h4.held.trans (h1.held.trans hheld)) step).before h4
  exact (Restarted.after_updTask hretry fun _ => rfl).before h1

end

/-- The task's record as an outcome is applied: the votes have been used (R274). -/
def Task.counted (t : Task) : Task := { t with votes := [], cops := [], outcome := none, copWait := false }

section
variable {s : State} {rx : Rx} {key : TaskKey} {t : Task} {j : Job}

theorem exec_outcome (hears : s.hears rx = true) (hp : rx.port = none) (key : TaskKey) (step : Nat) (o : Outcome) (sus : List (Nat × Nat))
    (votes : List Vote) : exec (.outcome rx key step o sus votes) s = .next (s.takeOutcome key step o sus votes) :=
  State.arrive_from_self hears hp (.outcome key step o sus votes) (fun s => s.takeOutcome key step o sus votes)

/-- An outcome that comes to a module without children in the tree is applied there. -/
theorem State.takeOutcome_of_leaf (ht : s.hub.task key = some t) (hj : s.jobOf key = some j) (hst : t.st = .running)
    (hout : t.outcome = none) (hkids : s.treeKids j = []) (o : Outcome) (sus : List (Nat × Nat)) (votes : List Vote) :
    s.takeOutcome key t.step o sus votes = s.applyOutcome key t j o sus votes := by
  rw [State.takeOutcome, ht, hj]
  dsimp only
  rw [if_neg (by simp [hst]), hout]
  dsimp only
  rw [State.deliver, hkids]
  rfl

/-- The module as an outcome without suspects begins to act. -/
def State.noted (s : State) (key : TaskKey) (ls : List Nat) (votes : List Vote) : State := (s.updTask key Task.counted).noteOutcome key ls votes

theorem State.applyOutcome_eq (hpair : s.pairRead key = false) (votes : List Vote) :
    s.applyOutcome key t j .commit [] votes = (s.noted key (j.clusters key.task) votes).commit key t (j.clusters key.task) votes ∧
    s.applyOutcome key t j .skip [] votes = (s.noted key (j.clusters key.task) votes).skip key t (j.clusters key.task) votes ∧
    s.applyOutcome key t j .recompute [] votes =
      ((s.noted key (j.clusters key.task) votes).again key t (j.clusters key.task) .recompute votes).retry key t.step (j.clusters key.task) := by
  refine ⟨(if_neg (by simp [hpair])).trans rfl, (if_neg (by simp)).trans rfl, (if_neg (by simp)).trans rfl⟩

end

/-! ## The statement -/

/-- Settles O44: votes that are not complete are kept, and an outcome notes itself and ends in the rewind. -/
theorem votesDecideTheStep : Obligations.VotesDecideTheStep := by
  refine ⟨fun s l idx m step x t j rx key votes cops hl hlen => ⟨fun hx htag hsig ht hm hml hmissing => ?stepEnd,
      fun hp hears ht hj hstep hvotes hm hmissing hcops => ?vote⟩,
    fun s rx key o votes t j d hp hears hlen ht hj hd hst hout hkids hheld hpair hnodup hls => ?outcome⟩
  case stepEnd =>
    obtain ⟨hsite, rfl, rfl, hop⟩ := State.todo_spec hx
    obtain ⟨hk, hj⟩ := State.site_task hsite
    have hin : x.l < s.clusters.length := hlen ▸ hl
    have htrap := (Site.plain_of_control (.inr (.inr hop))).1
    have hctr : x.e.sigOn = true → (s.cluster x.l).drl.ctrs.getD x.e.sigCtr 0 + 1 < 2 ^ 24 := fun h => absurd h (by simp [hsig])
    have hin' : x.l < (s.complete x).clusters.length := by simpa using hin
    have hdrl : ((s.complete x).cluster x.l).drl = (s.cluster x.l).drl.dropFlight x.f.idx := by
      rw [State.complete_untagged htrap htag hctr, if_pos hop, State.left_drl hin,
        State.drlAfter_plain hsig (Site.plain_of_control (.inr (.inr hop))).2]
    obtain ⟨hmem, hhub, hjobs⟩ := State.complete_untagged_keeps htrap htag hctr
    have hfab : (s.complete x).fab = s.fab := by
      rw [State.complete_untagged htrap htag hctr, if_pos hop]
      simp [State.left]
    have htask : (s.voted x).hub.task x.key = some { t with votes := mergeVotes t.votes [s.voteOf x] } :=
      Hub.task_updTask_self ((congrArg (·.task x.key) hhub).trans ht) fun _ => rfl
    have hme : (s.voted x).me = s.me := congrArg (·.module) hhub
    have hpass : (s.voted x).passVotes x.key = s.voted x := by
      refine State.passVotes_of_missing htask ((State.jobOf_congr hjobs _).trans hj) hm fun v hv => ?_
      rw [hme]
      rcases mem_mergeVotes hv with hv | hv
      · exact hmissing v hv
      · rw [List.mem_singleton.1 hv]
        exact fun h => hml h.2.symm
    have hexec : exec (.stepEnd x.l x.f.idx) s = .next (s.voted x) := by
      refine (onCluster_of_lt hl _).trans ?_
      rw [hx]
      exact congrArg _ ((State.doStepEnd_eq (by rw [hdrl]; exact hk)).trans hpass)
    have hvoted : ((s.voted x).cluster x.l).drl = { (s.cluster x.l).drl.dropFlight x.f.idx with st := .stepWait } := by
      have h := State.updDrl_drl (s.complete x) x.l (fun d => { d with st := .stepWait }) hin'
      rw [hdrl] at h
      exact h
    refine ⟨_, hexec, congrArg (·.st) hvoted, (congrArg (·.flight x.f.idx) hvoted).trans (Drl.dropFlight_flight _ _), ⟨_, htask, ?_, rfl⟩,
      (sameClusters_complete htrap htag hctr).trans (sameClusters_updCluster _ x.l _), hmem, hfab⟩
    exact List.mem_append_right _ (List.mem_singleton.2 rfl)
  case vote =>
    subst hstep
    refine ⟨_, exec_vote hears hp key t.current votes cops, ?_⟩
    rw [State.takeVote_of_missing ht hj hvotes hm hmissing hcops]
    exact ⟨Hub.task_updTask_self ht fun _ => rfl, rfl, rfl, rfl⟩
  case outcome =>
    have hexec := exec_outcome hears hp key t.step o [] votes
    rw [State.takeOutcome_of_leaf ht hj hst hout hkids] at hexec
    obtain ⟨hcommit, hskip, hagain⟩ := State.applyOutcome_eq (t := t) (j := j) hpair votes
    have hnoted := sameWork_noteOutcome (s.updTask key Task.counted) key (j.clusters key.task) votes
    have hrewinds (l : Nat) (hl : l ∈ j.clusters key.task) : (s.noted key (j.clusters key.task) votes).Rewinds key l := by
      obtain ⟨hlt, hholder, hpend, hpause⟩ := hls l hl
      exact hnoted.rewinds ⟨by simpa [hlen] using hlt, hholder, hpend, hpause⟩
    have hheld' : (s.noted key (j.clusters key.task) votes).hub.held = [] := hnoted.held.trans hheld
    have hdesc : (s.noted key (j.clusters key.task) votes).desc key = some d := hnoted.desc.trans (by
      rw [State.desc, State.jobOf_congr (u := s.updTask key Task.counted) (s := s) rfl, hj]
      exact hd)
    have hfinish {u : State} {f : Task → Task} (h : Restarted (s.noted key (j.clusters key.task) votes) u key (j.clusters key.task) f) :
        (∀ l ∈ j.clusters key.task, (u.cluster l).drl.head = 0 ∧ (u.cluster l).drl.ctrs = List.replicate 64 0 ∧
          (u.cluster l).drl.st = .running ∧ (u.cluster l).drl.gen = !(s.cluster l).drl.gen) ∧ u.hub.task key = some (f t.counted) := by
      have hrest := (h.before hnoted).after_updTask (g := Task.counted) fun _ => rfl
      refine ⟨fun l hl => ?_, hrest.task.trans (by rw [ht]; rfl)⟩
      rw [hrest.drl l hl]
      exact ⟨rfl, rfl, rfl, rfl⟩
    refine ⟨fun ho hsteps => ?next, fun ho => ?again⟩
    case next =>
      rcases ho with rfl | rfl
      · obtain ⟨hrewound, htask⟩ := hfinish (State.commit_restarted hnodup hrewinds hheld' hdesc hsteps votes)
        rw [← hcommit] at hrewound htask
        exact ⟨_, hexec, hrewound, _, htask, rfl, rfl, rfl, rfl⟩
      · obtain ⟨hrewound, htask⟩ := hfinish (State.skip_restarted hnodup hrewinds hheld' hdesc hsteps votes)
        rw [← hskip] at hrewound htask
        exact ⟨_, hexec, hrewound, _, htask, rfl, rfl, rfl, rfl⟩
    case again =>
      subst ho
      obtain ⟨hrewound, htask⟩ := hfinish (State.recompute_restarted hnodup hrewinds hheld' t votes t.step)
      rw [← hagain] at hrewound htask
      exact ⟨_, hexec, hrewound, _, htask, rfl, rfl, rfl⟩

end Sys2Proof.Machine
end

section
/-!
Proof, RUN (O34): the packet's task starts on each of its clusters, or the packet ends where one of them is not free (R112, R128, R455).
-/

namespace Sys2Proof.Machine

/-! ## Packets that the hub holds -/

/-- A change of a packet that keeps its number. -/
theorem Hub.pkt_updPkt {h : Hub} {id : Nat} {p : Pkt} (hp : h.pkt id = some p) {f : Pkt → Pkt} (hf : ∀ q, (f q).id = q.id) :
    (h.updPkt id f).pkt id = some (f p) := by
  have hid (q : Pkt) : (if q.id = id then f q else q).id = q.id := by
    split
    · exact hf q
    · rfl
  rw [Hub.pkt] at hp
  have hpid : p.id = id := by simpa using List.find?_some hp
  simp only [Hub.pkt, Hub.updPkt, List.find?_map, Function.comp_def, hid, hp, Option.map_some, hpid, if_true]

theorem Hub.pkt_congr {g h : Hub} (e : g.pkts = h.pkts) (id : Nat) : g.pkt id = h.pkt id := by
  rw [Hub.pkt, e, Hub.pkt]

section
variable (s : State)

theorem State.ringEnd_pkts (n slot : Nat) (releases : Bool) (c : Option Cqe) : (s.ringEnd n slot releases c).hub.pkts = s.hub.pkts := by
  unfold State.ringEnd
  split
  · simp [Hub.setRing]
  · split <;> rfl

/-- A held slot released leaves the packets and the task records as they are. -/
theorem State.freeHeld_work (h : Held) : (s.freeHeld h).hub.pkts = s.hub.pkts ∧ (s.freeHeld h).hub.tasks = s.hub.tasks := by
  unfold State.freeHeld
  split
  · exact ⟨State.ringEnd_pkts .., State.ringEnd_tasks ..⟩
  · simp

theorem State.freeHelds_pkts (f : Held → Bool) : (s.freeHelds f).hub.pkts = s.hub.pkts :=
  foldl_keeps (·.hub.pkts) _ (fun s h => (s.freeHeld_work h).1) _ s

theorem State.freeHelds_tasks (f : Held → Bool) : (s.freeHelds f).hub.tasks = s.hub.tasks :=
  foldl_keeps (·.hub.tasks) _ (fun s h => (s.freeHeld_work h).2) _ s

/-- A step record rewritten leaves the packets and the task records as they are. -/
theorem State.updRec_work (j : Job) (f : StepRec → StepRec) :
    (s.updRec j f).hub.pkts = s.hub.pkts ∧ (s.updRec j f).hub.tasks = s.hub.tasks := by
  unfold State.updRec
  split <;> simp

end

/-! ## The clusters that a task takes -/

theorem Cluster.take_drl (c : Cluster) (k : TaskKey) (drl : Option (Nat × Nat)) (borrow : Bool) : (c.take k drl borrow).drl = Drl.start k := by
  unfold Cluster.take
  cases drl <;> rfl

/-- A cluster's stores read zero and the task takes it. -/
def State.takenBy (k : TaskKey) (drl : Option (Nat × Nat)) (s : State) (l : Nat) : State :=
  (s.zeroStores l).updCluster l (fun c => c.take k drl false)

section
variable {k : TaskKey} {drl : Option (Nat × Nat)}

theorem State.takenBy_drl {s : State} {l : Nat} (hl : l < s.clusters.length) (n : Nat) :
    ((s.takenBy k drl l).cluster n).drl = if n = l then Drl.start k else (s.cluster n).drl := by
  have hzero : (s.zeroStores l).cluster n = s.cluster n := State.cluster_of_clusters (by simp) n
  rw [State.takenBy, State.cluster_updCluster _ _ _ _ (by simpa using hl), hzero]
  split
  · exact Cluster.take_drl ..
  · rfl

@[simp] theorem State.takenBy_hub (s : State) (l : Nat) : (s.takenBy k drl l).hub = s.hub := by simp [State.takenBy]

@[simp] theorem State.takenBy_length (s : State) (l : Nat) : (s.takenBy k drl l).clusters.length = s.clusters.length := by simp [State.takenBy]

/-- The clusters of a list stand at entry 0 of the task once it has taken them, and no other cluster's Derailleur has changed. -/
theorem State.foldl_takenBy_drl {ls : List Nat} {s : State} (h : ∀ l ∈ ls, l < s.clusters.length) (n : Nat) :
    ((ls.foldl (State.takenBy k drl) s).cluster n).drl = if n ∈ ls then Drl.start k else (s.cluster n).drl := by
  induction ls generalizing s with
  | nil => rfl
  | cons l ls ih =>
    rw [List.foldl_cons, ih fun m hm => by simpa using h m (List.mem_cons_of_mem _ hm), State.takenBy_drl (h l List.mem_cons_self)]
    by_cases hn : n ∈ ls <;> by_cases hl : n = l <;> simp [hn, hl]

end

/-! ## The start of a task -/

/-- What the record of a task that is no borrower says once it runs: its next step is tried for the first time. -/
structure Task.Started (t v : Task) : Prop where
  st : v.st = .running
  step : v.step = t.next
  attempt : v.attempt = 1

/-- A task that solves nothing and for which no collective message has come early starts on its clusters, by one RUN packet. -/
theorem State.startTask_spec {s : State} {p : Pkt} {j : Job} {t : Task} (d : TaskDesc) (hp : s.hub.pkt p.id = some p)
    (ht : s.hub.task t.key = some t) (hls : ∀ l ∈ j.clusters p.task, l < s.clusters.length) (hearly : t.early = [])
    (hsol : j.isSolver p.task = false) :
    (∀ n, ((s.startTask p j d t none).cluster n).drl = if n ∈ j.clusters p.task then Drl.start t.key else (s.cluster n).drl) ∧
    (∃ v, (s.startTask p j d t none).hub.task t.key = some v ∧ t.Started v) ∧
    ∃ q, (s.startTask p j d t none).hub.pkt p.id = some q ∧ q.started = true := by
  unfold State.startTask
  extract_lets ls s1 s2 s3 s4 hub s6 s7
  rw [hsol]
  have h1 : s1.clusters = s.clusters := by simp [s1]
  have h2 : s2 = ls.foldl (State.takenBy t.key j.drl) s1 := rfl
  have h3 : s3 = s2 := by
    unfold s3
    rw [hearly]
    rfl
  have hhub : s3.hub = s1.hub := by
    rw [h3, h2]
    exact foldl_keeps (·.hub) _ (fun s l => s.takenBy_hub l) _ s1
  have htask : s3.hub.task t.key = some t :=
    (Hub.task_congr ((congrArg Hub.tasks hhub).trans (s.freeHelds_tasks _)) _).trans ht
  have hpkt : s4.hub.pkt p.id = some p :=
    (Hub.pkt_congr (g := s4.hub) ((congrArg Hub.pkts hhub).trans (s.freeHelds_pkts _)) _).trans hp
  have h7 : s7.clusters = s6.clusters ∧ s7.hub.pkts = s6.hub.pkts ∧ s7.hub.tasks = s6.hub.tasks := by
    unfold s7
    split
    · exact ⟨by simp, State.updRec_work ..⟩
    · exact ⟨rfl, rfl, rfl⟩
  obtain ⟨hclusters, hpkts, htasks⟩ := h7
  refine ⟨fun n => ?clusters, ?task, ?packet⟩
  case clusters =>
    have hdrl := State.foldl_takenBy_drl (k := t.key) (drl := j.drl) (s := s1) (h1.symm ▸ hls) n
    rw [State.cluster_of_clusters h1 n, ← h2, ← h3] at hdrl
    exact (congrArg (·.drl) (State.cluster_of_clusters hclusters n)).trans hdrl
  case task =>
    exact ⟨_, (Hub.task_congr htasks _).trans (Hub.task_updTask_self htask fun _ => rfl), rfl, rfl, rfl⟩
  case packet =>
    exact ⟨_, (Hub.pkt_congr hpkts _).trans (Hub.pkt_updPkt hpkt fun _ => rfl), rfl⟩

/-! ## The RUN packet -/

theorem exec_run_of_taken {s : State} {p : Pkt} (ha : s.alive = true) (hp : s.hub.pkt p.id = some p) (ht : p.type = typeRun) :
    exec (.run p.id) s = .next (s.doRun p) := onPkt_of_taken ha hp ht _

section
variable {s : State} {p : Pkt} {j : Job} {t : Task} {d : TaskDesc} (hstarted : p.started = false) (hj : s.job p.ctx p.job = some j)
  (ht : s.pktTask p = some t) (hd : j.tasks[p.task]? = some d) (hst : t.st = .idle) (hborrow : bit p.arg0 16 = false)
include hstarted hj ht hd hst hborrow

/-- A RUN that borrows nothing starts its task at rest, which is no solver's, on free clusters. -/
theorem State.doRun_of_free (hfree : ∀ l ∈ j.clusters p.task, s.clusterFree l = true) (hsol : j.isSolver p.task = false) :
    s.doRun p = s.startTask p j d t none := by
  simp [State.doRun, hstarted, hj, ht, hd, hst, hborrow, hsol, List.all_eq_true.2 hfree]

theorem State.doRun_of_held (hheld : ∃ l ∈ j.clusters p.task, s.clusterFree l = false) : s.doRun p = s.endPkt p pktState 0 := by
  have hall : (j.clusters p.task).all s.clusterFree = false := by simpa [List.all_eq_false] using hheld
  simp [State.doRun, hstarted, hj, ht, hd, hst, hborrow, hall]

end

/-- Settles O34: a RUN either starts the task, by what a start does to clusters, record and packet, or ends its packet. -/
theorem runStartsEveryCluster : Obligations.RunStartsEveryCluster := by
  intro s p j t d ha hp htype hstarted hj ht hd hst hborrow hlen hls hearly
  have hexec := exec_run_of_taken ha hp htype
  refine ⟨fun hfree hsol => ?free, fun hheld => ?held⟩
  case free =>
    have hkey : t.key = p.key := Hub.task_key ht
    obtain ⟨hdrl, ⟨v, hv, hstart⟩, hpkt⟩ :=
      State.startTask_spec d hp (hkey ▸ ht) (fun l hl => hlen.symm ▸ hls l hl) hearly hsol
    rw [State.doRun_of_free hstarted hj ht hd hst hborrow hfree hsol] at hexec
    refine ⟨_, hexec, fun l hl => ?_, fun l hl => (hdrl l).trans (if_neg hl), ⟨v, hv, hstart.st, hstart.step, hstart.attempt⟩, hpkt⟩
    rw [hdrl, if_pos hl]
    exact ⟨rfl, rfl, rfl⟩
  case held =>
    rw [hexec, State.doRun_of_held hstarted hj ht hd hst hborrow hheld]

end Sys2Proof.Machine
end

section
/-!
Proof, migrations (O36): the spare takes a logical number, or the cluster gives the migration up (R145, R146, R153, R500, R504).
-/

namespace Sys2Proof.Machine

/-! ## Physical clusters -/

theorem Start.cluster_upd {x : Start} {p : Nat} (h : p < x.pcl.length) (f : PCl → PCl) (n : Nat) :
    (x.upd p f).cluster n = if n = p then f (x.cluster n) else x.cluster n := by
  simp only [Start.cluster, Start.upd, updAt, List.getD_eq_getElem?_getD, List.getElem?_modify]
  split
  · subst n
    simp [h]
  · simp [Ne.symm ‹_›]

theorem Start.phys_spec {x : Start} {l p : Nat} (h : x.phys l = some p) : p < x.pcl.length ∧ (x.cluster p).logical = some l := by
  obtain ⟨hp, hl, -⟩ := List.findIdx?_eq_some_iff_getElem.1 h
  have hcluster : x.cluster p = x.pcl[p] := by simp [Start.cluster, hp]
  exact ⟨hp, hcluster ▸ of_decide_eq_true hl⟩

theorem Start.spareOf_lt {x : Start} {c q : Nat} (h : x.spareOf c = some q) (hc : c < 8) : q < 136 := by
  obtain ⟨i, hi, rfl⟩ := List.mem_map.1 (List.mem_of_find?_eq_some h)
  rw [List.mem_range] at hi
  omega

/-- After a rotation the spare has the logical number, and the cluster that had it is OUT. -/
theorem Start.rotate_spec {x : Start} {p q : Nat} (hp : p < x.pcl.length) (hq : q < x.pcl.length) (hne : p ≠ q) :
    ((x.rotate p q).cluster q).logical = (x.cluster p).logical ∧ ((x.rotate p q).cluster p).logical = none ∧
      ((x.rotate p q).cluster p).out = true := by
  unfold Start.rotate
  extract_lets l y
  have hlen : p < y.pcl.length := by simpa [y] using hp
  rw [Start.cluster_upd hlen, Start.cluster_upd hlen, if_neg hne.symm, if_pos rfl, Start.cluster_upd hq, if_pos rfl]
  exact ⟨rfl, rfl, rfl⟩

/-! ## The spare takes over (R145, R146, R500) -/

/-- Logical cluster `l` of `s` has moved from physical cluster `p` to `q` in `t`. -/
structure Moved (s t : State) (l p q : Nat) : Prop where
  spare : (t.start.cluster q).logical = some l
  left : (t.start.cluster p).logical = none
  out : (t.start.cluster p).out = true
  due : (t.cluster l).migDue = false
  rotations : t.hist.rotations = satAdd 12 s.hist.rotations 1
  others : SameClusters s t l
  hub : t.hub = s.hub
  jobs : t.jobs = s.jobs

/-- A change of the Derailleur is no part of the move. -/
theorem Moved.updDrl {s t : State} {l p q : Nat} (h : Moved s t l p q) (hl : l < t.clusters.length) (f : Drl → Drl) :
    Moved s (t.updDrl l f) l p q where
  spare := h.spare
  left := h.left
  out := h.out
  due := (congrArg (·.migDue) (State.updDrl_self t l f hl)).trans h.due
  rotations := h.rotations
  others := h.others.trans (sameClusters_updCluster t l _)
  hub := h.hub
  jobs := h.jobs

section
variable (s : State) (l p q : Nat) (full tune : Bool)

theorem State.takeSpare_start : (s.takeSpare l p q full).start = s.start.rotate p q := by
  unfold State.takeSpare
  cases full <;> simp

theorem State.takeSpare_hist : (s.takeSpare l p q full).hist.rotations = satAdd 12 s.hist.rotations 1 ∧
    (s.takeSpare l p q full).hist.forced = s.hist.forced := by
  unfold State.takeSpare
  cases full <;> simp [Hist.append]

theorem State.takeSpare_mem : (s.takeSpare l p q full).mem = if full then s.mem else Cells.zero s.mem (storeBase + l * storeStride) storeStride := by
  unfold State.takeSpare
  cases full <;> simp [State.zeroStores]

theorem sameClusters_takeSpare : SameClusters s (s.takeSpare l p q full) l := by
  intro k hk
  unfold State.takeSpare
  extract_lets side x hist t u
  have hmoved : u.cluster k = s.cluster k := sameClusters_updCluster t l _ k hk
  cases full
  · exact (State.cluster_of_clusters (u.zeroStores_keeps l).2.2.1 k).trans hmoved
  · exact hmoved

theorem State.takeSpare_cluster (hl : l < s.clusters.length) : ((s.takeSpare l p q full).cluster l).migDue = false ∧
    ((s.takeSpare l p q full).cluster l).drl = (s.cluster l).drl := by
  unfold State.takeSpare
  extract_lets side x hist t u
  have hmoved : (u.cluster l).migDue = false ∧ (u.cluster l).drl = (s.cluster l).drl := by
    have hself := State.cluster_updCluster_self t l (fun c => { c with
      migDue := false, migForce := false, til := { c.til with spareFree := side.1, spareLtile := side.2, substWaiting := none } }) hl
    exact ⟨congrArg (·.migDue) hself, congrArg (·.drl) hself⟩
  cases full
  · have hzero : (u.zeroStores l).cluster l = u.cluster l := State.cluster_of_clusters (u.zeroStores_keeps l).2.2.1 l
    exact ⟨(congrArg (·.migDue) hzero).trans hmoved.1, (congrArg (·.drl) hzero).trans hmoved.2⟩
  · exact hmoved

/-- What a move does beside the taking over: it counts one that was forced, and a cluster that was due begins its test. -/
theorem State.moveTo_parts : (s.moveTo l p q full tune).clusters = (s.takeSpare l p q full).clusters ∧
    (s.moveTo l p q full tune).mem = (s.takeSpare l p q full).mem ∧
    (s.moveTo l p q full tune).hist.rotations = (s.takeSpare l p q full).hist.rotations ∧
    (s.moveTo l p q full tune).hist.forced = (if full then satAdd 12 s.hist.forced 1 else s.hist.forced) ∧
    (s.moveTo l p q full tune).start = (if tune then (s.start.rotate p q).upd p (fun c => { c with due := false, tuning := true, was := some l })
      else s.start.rotate p q) := by
  have hforced := (s.takeSpare_hist l p q full).2
  have hstart := s.takeSpare_start l p q full
  unfold State.moveTo
  cases full <;> cases tune <;> simp [hforced, hstart]

end

section
variable {s : State} {l p q : Nat} {full tune : Bool} (hl : l < s.clusters.length) (hp : s.start.phys l = some p)
  (hq : q < s.start.pcl.length) (hne : p ≠ q)
include hl

theorem State.moveTo_drl : ((s.moveTo l p q full tune).cluster l).drl = (s.cluster l).drl :=
  (congrArg (·.drl) (State.cluster_of_clusters (s.moveTo_parts l p q full tune).1 l)).trans (s.takeSpare_cluster l p q full hl).2

include hp hq hne

theorem State.moveTo_moved : Moved s (s.moveTo l p q full tune) l p q := by
  obtain ⟨hplt, hlogical⟩ := Start.phys_spec hp
  obtain ⟨hspare, hleft, hout⟩ := Start.rotate_spec hplt hq hne
  obtain ⟨hclusters, -, hrotations, -, hstart⟩ := s.moveTo_parts l p q full tune
  have hplace : ((s.moveTo l p q full tune).start.cluster q).logical = some l ∧ ((s.moveTo l p q full tune).start.cluster p).logical = none ∧
      ((s.moveTo l p q full tune).start.cluster p).out = true := by
    rw [hstart]
    cases tune
    · exact ⟨hspare.trans hlogical, hleft, hout⟩
    · have hlen : p < (s.start.rotate p q).pcl.length := by simpa using hplt
      simp only [if_true, Start.cluster_upd hlen, if_neg hne.symm]
      exact ⟨hspare.trans hlogical, hleft, hout⟩
  obtain ⟨hspare', hleft', hout'⟩ := hplace
  exact {
    spare := hspare', left := hleft', out := hout'
    due := (congrArg (·.migDue) (State.cluster_of_clusters hclusters l)).trans (s.takeSpare_cluster l p q full hl).1
    rotations := hrotations.trans (s.takeSpare_hist l p q full).1
    others := fun k hk => (State.cluster_of_clusters hclusters k).trans (sameClusters_takeSpare s l p q full k hk)
    hub := by simp
    jobs := by simp }

end

/-- A cluster that was due for Tune-up is under its test once it has moved (R504). -/
theorem State.moveTo_tunes {s : State} {l p : Nat} (hp : s.start.phys l = some p) (q : Nat) (full : Bool) :
    ((s.moveTo l p q full true).start.cluster p).tuning = true ∧ ((s.moveTo l p q full true).start.cluster p).was = some l := by
  have hlen : p < (s.start.rotate p q).pcl.length := by simpa using (Start.phys_spec hp).1
  rw [(s.moveTo_parts l p q full true).2.2.2.2, if_pos rfl, Start.cluster_upd hlen, if_pos rfl]
  exact ⟨rfl, rfl⟩

/-- The stores of logical cluster `l` read zero in `t`, and memory elsewhere reads as in `s`. -/
def Zeroed (s t : State) (l : Nat) : Prop :=
  (∀ a, storeBase + l * storeStride ≤ a → a < storeBase + (l + 1) * storeStride → Cells.byte t.mem a = 0) ∧
    SameBytes s t [(storeBase + l * storeStride, storeStride)]

theorem zeroed_of_mem {s t : State} {l : Nat} (h : t.mem = Cells.zero s.mem (storeBase + l * storeStride) storeStride) : Zeroed s t l := by
  refine ⟨fun a hlo hhi => ?_, fun a ha => ?_⟩
  · rw [Nat.add_mul, Nat.one_mul, ← Nat.add_assoc] at hhi
    rw [h, Cells.byte_zero, if_pos ⟨hlo, hhi⟩]
    rfl
  · rw [h, Cells.byte_zero, if_neg (ha _ List.mem_cons_self)]

/-- A move at a migratable boundary leaves the stores behind. -/
theorem State.moveTo_zeroed (s : State) (l p q : Nat) (tune : Bool) :
    Zeroed s (s.moveTo l p q false tune) l ∧ (s.moveTo l p q false tune).hist.forced = s.hist.forced := by
  obtain ⟨-, hmem, -, hforced, -⟩ := s.moveTo_parts l p q false tune
  exact ⟨zeroed_of_mem (hmem.trans (s.takeSpare_mem l p q false)), hforced⟩

/-- A forced move takes the stores along, and is counted. -/
theorem State.moveTo_full (s : State) (l p q : Nat) (tune : Bool) :
    (s.moveTo l p q true tune).mem = s.mem ∧ (s.moveTo l p q true tune).hist.forced = satAdd 12 s.hist.forced 1 := by
  obtain ⟨-, hmem, -, hforced, -⟩ := s.moveTo_parts l p q true tune
  exact ⟨hmem.trans (s.takeSpare_mem l p q true), hforced⟩

/-! ## A migration given up (R504) -/

/-- The Derailleur goes on as it did before it entered MIGRATING. -/
def Drl.goesOn (d : Drl) : Drl := if d.st = .migrating then { d with st := d.back } else d

theorem Drl.goesOn_of_ne {d : Drl} (h : d.st ≠ .migrating) : d.goesOn = d := if_neg h

/-- The cluster's migration is no longer due. -/
def State.unmigrated (s : State) (l : Nat) : State :=
  s.updCluster l (fun c => { c with migDue := false, migForce := false, drl := c.drl.goesOn })

/-- The migration is given up, and a pause that it had put off takes effect. -/
def State.giveUp (s : State) (l : Nat) : State := (s.unmigrated l).settlePause l

section
variable {s : State} {l : Nat}

theorem State.unmigrated_cluster (hl : l < s.clusters.length) :
    ((s.unmigrated l).cluster l).migDue = false ∧ ((s.unmigrated l).cluster l).drl = (s.cluster l).drl.goesOn := by
  have hself := State.cluster_updCluster_self s l (fun c => { c with migDue := false, migForce := false, drl := c.drl.goesOn }) hl
  exact ⟨congrArg (·.migDue) hself, congrArg (·.drl) hself⟩

/-- A pause changes the Derailleur alone. -/
theorem State.settlePause_rest (s : State) (l : Nat) : s.settlePause l = { s with clusters := (s.settlePause l).clusters } := by
  unfold State.settlePause
  dsimp only
  split <;> rfl

theorem State.settlePause_migDue (s : State) (l n : Nat) : ((s.settlePause l).cluster n).migDue = (s.cluster n).migDue := by
  unfold State.settlePause
  dsimp only
  split
  · refine State.updCluster_part (·.migDue) ?_ s l n
    exact fun _ => rfl
  · rfl

theorem State.giveUp_spec (hl : l < s.clusters.length) : s.giveUp l = { s with clusters := (s.giveUp l).clusters } ∧
    ((s.giveUp l).cluster l).migDue = false ∧ SameClusters s (s.giveUp l) l :=
  ⟨(s.unmigrated l).settlePause_rest l, ((s.unmigrated l).settlePause_migDue l l).trans (State.unmigrated_cluster hl).1,
    (sameClusters_updCluster s l _).trans (sameClusters_settlePause _ l)⟩

/-- Without a pause put off the cluster is as it was. -/
theorem State.giveUp_drl (hl : l < s.clusters.length) (hst : (s.cluster l).drl.st ≠ .migrating) (hpause : (s.cluster l).drl.pauseReq = false) :
    ((s.giveUp l).cluster l).drl = (s.cluster l).drl := by
  have hdrl := (State.unmigrated_cluster hl).2.trans (Drl.goesOn_of_ne hst)
  rw [State.giveUp, State.settlePause_of_waits (.inl (by rw [hdrl]; exact hpause)), hdrl]

/-- The pause that the migration had put off takes effect. -/
theorem State.giveUp_pauses (hl : l < s.clusters.length) (hst : (s.cluster l).drl.st = .running) (hpause : (s.cluster l).drl.pauseReq = true)
    (hflights : (s.cluster l).drl.flights = []) (hsusp : (s.cluster l).drl.suspendReq = false) :
    ((s.giveUp l).cluster l).drl = { (s.cluster l).drl with st := .paused, pauseReq := false } := by
  obtain ⟨hmig, hgo⟩ := State.unmigrated_cluster hl
  have hdrl := hgo.trans (Drl.goesOn_of_ne (by simp [hst]))
  have hin : l < (s.unmigrated l).clusters.length := by simpa [State.unmigrated] using hl
  rw [State.giveUp, State.settlePause_of_acts (by rwa [hdrl]) (by rwa [hdrl]) (by rwa [hdrl]) hmig (by rwa [hdrl]), State.updDrl_drl _ _ _ hin, hdrl]

end

/-! ## The stages of a migration that is due -/

theorem State.idleAt_of_holder {s : State} {l : Nat} {k : TaskKey} (h : (s.cluster l).drl.holder = some k) : s.idleAt l = false := by
  simp [State.idleAt, h]

/-- A cluster that may stop runs or is paused, with nothing in flight. -/
theorem State.mayStop_spec {s : State} {l : Nat} {force : Bool} (h : s.mayStop l force = true) :
    (s.cluster l).drl.st ≠ .migrating ∧ (s.cluster l).drl.flights = [] := by
  simp only [State.mayStop, Drl.atBoundary, Bool.and_eq_true, Bool.or_eq_true, beq_iff_eq, List.isEmpty_iff] at h
  obtain ⟨hst, ⟨hflights, -⟩, -⟩ := h
  refine ⟨fun hmig => ?_, hflights⟩
  rw [hmig] at hst
  rcases hst with h | h <;> cases h

section
variable {s : State} {l p q : Nat} (hp : s.start.phys l = some p) (hdue : (s.cluster l).migDue = true)
include hp hdue

theorem State.migrate_of_idle_due (hidle : s.idleAt l = true) (htune : (s.start.cluster p).due = true) : s.migrate l = s.giveUp l := by
  simp only [State.migrate, hp, hdue, hidle, htune]
  rfl

theorem State.migrate_without_spare (hspare : s.start.spareOf (p / 17) = none) (htune : (s.start.cluster p).due = true)
    (hidle : s.idleAt l = false) (hstop : s.mayStop l (s.cluster l).migForce = true) : s.migrate l = s.giveUp l := by
  simp only [State.migrate, hp, hdue, hspare, htune, hidle, hstop, Bool.not_true, Bool.and_false, Bool.false_eq_true, if_false, if_true,
    Bool.false_and]
  rfl

variable (hspare : s.start.spareOf (p / 17) = some q)
include hspare

theorem State.migrate_of_idle (hidle : s.idleAt l = true) (htune : (s.start.cluster p).due = false) :
    s.migrate l = s.moveTo l p q false false := by
  simp [State.migrate, hp, hdue, hspare, hidle, htune]

theorem State.migrate_at_boundary (hidle : s.idleAt l = false) (hstop : s.mayStop l (s.cluster l).migForce = true) :
    s.migrate l = s.updDrl l (fun d => d.halt' .migrating) := by
  have hst := (State.mayStop_spec hstop).1
  simp [State.migrate, hp, hdue, hspare, hidle, hstop, hst]

theorem State.migrate_of_migrating (hidle : s.idleAt l = false) (hst : (s.cluster l).drl.st = .migrating) :
    s.migrate l = ((s.moveTo l p q (!((s.cluster l).drl.atBoundary (s.entriesOf l (s.cluster l).drl) false)) (s.start.cluster p).due).updDrl l
      (fun d => { d with st := d.back })).settlePause l := by
  simp [State.migrate, hp, hdue, hspare, hidle, hst]

end

/-! ## The commands -/

/-- `u` is `s` with the migration of cluster `l` perhaps forced, and nothing else changed. -/
structure State.Asked (s u : State) (l : Nat) (force : Bool) : Prop where
  rest : u = { s with clusters := u.clusters }
  length : u.clusters.length = s.clusters.length
  others : SameClusters s u l
  drl : (u.cluster l).drl = (s.cluster l).drl
  under : (u.cluster l).under = (s.cluster l).under
  due : (u.cluster l).migDue = (s.cluster l).migDue
  forced : (u.cluster l).migForce = force

/-- Both commands go on with the migration, and the second forces it first. -/
theorem exec_migrates {s : State} {l : Nat} (hl : l < 128) (hlen : s.clusters.length = 128) (hdue : (s.cluster l).migDue = true) {c : Instr}
    (hc : c = .migration l ∨ c = .forcedMigration l) :
    ∃ u, exec c s = .next (u.migrate l) ∧ s.Asked u l (c == .forcedMigration l || (s.cluster l).migForce) := by
  have hin : l < s.clusters.length := hlen ▸ hl
  rcases hc with rfl | rfl
  · have hother : (Instr.migration l == Instr.forcedMigration l) = false := by simp
    exact ⟨s, onCluster_of_lt hl _, rfl, rfl, fun _ _ => rfl, rfl, rfl, rfl, by rw [hother, Bool.false_or]⟩
  · have hself := State.cluster_updCluster_self s l (fun c => { c with migForce := true }) hin
    refine ⟨s.updCluster l (fun c => { c with migForce := true }), ?_, rfl, by simp, sameClusters_updCluster s l _, congrArg (·.drl) hself,
      congrArg (·.under) hself, congrArg (·.migDue) hself, (congrArg (·.migForce) hself).trans (by simp)⟩
    exact (onCluster_of_lt hl _).trans (congrArg _ (if_pos hdue))

section
variable {s u : State} {l : Nat} {force : Bool} (h : s.Asked u l force)
include h

theorem State.Asked.start : u.start = s.start := congrArg (·.start) h.rest
theorem State.Asked.mem : u.mem = s.mem := congrArg (·.mem) h.rest
theorem State.Asked.hist : u.hist = s.hist := congrArg (·.hist) h.rest
theorem State.Asked.jobs : u.jobs = s.jobs := congrArg (·.jobs) h.rest

theorem State.Asked.idleAt : u.idleAt l = s.idleAt l := by
  rw [State.idleAt, h.drl, h.under, State.idleAt]

theorem State.Asked.entriesOf (d : Drl) : u.entriesOf l d = s.entriesOf l d := by
  have hjob : u.jobOf = s.jobOf := funext fun k => State.jobOf_congr h.jobs k
  rw [State.entriesOf, hjob]
  rfl

theorem State.Asked.mayStop (force : Bool) : u.mayStop l force = s.mayStop l force := by
  rw [State.mayStop, h.drl, h.entriesOf, State.mayStop]

theorem State.Asked.moved {t : State} {p q : Nat} (hm : Moved u t l p q) : Moved s t l p q where
  spare := hm.spare
  left := hm.left
  out := hm.out
  due := hm.due
  rotations := h.hist ▸ hm.rotations
  others := h.others.trans hm.others
  hub := hm.hub.trans (congrArg (·.hub) h.rest)
  jobs := hm.jobs.trans h.jobs

theorem State.Asked.zeroed {t : State} (hz : Zeroed u t l) : Zeroed s t l :=
  ⟨hz.1, fun a ha => (hz.2 a ha).trans (by rw [h.mem])⟩

/-- What changes the clusters alone after the request changes them alone after all. -/
theorem State.Asked.only_clusters {t : State} (ht : t = { u with clusters := t.clusters }) : t = { s with clusters := t.clusters } := by
  rw [ht, h.rest]

end

/-- Settles O36: by the stages of a migration that is due, whether it is forced now or not. -/
theorem migrationsMoveTheCluster : Obligations.MigrationsMoveTheCluster := by
  intro s l p q c k hl hlen hpcl hc hdue hp moved zeroed
  obtain ⟨u, hexec, h⟩ := exec_migrates hl hlen hdue hc
  have hin : l < u.clusters.length := by rw [h.length, hlen]; exact hl
  have hdue' : (u.cluster l).migDue = true := h.due.trans hdue
  have hp' : u.start.phys l = some p := by rw [h.start]; exact hp
  have hmoved {t : State} (hm : Moved u t l p q) : moved t :=
    have hm := h.moved hm
    ⟨hm.spare, hm.left, hm.out, hm.due, hm.rotations, hm.others, hm.hub, hm.jobs⟩
  refine ⟨fun hidle htune => ?idleDue, fun hspare htune hk hst hstop hpause hsusp => ?noSpare, fun hspare hne => ?spare⟩
  case idleDue =>
    obtain ⟨hrest, hmig, hothers⟩ := State.giveUp_spec (s := u) hin
    rw [State.migrate_of_idle_due hp' hdue' (h.idleAt.trans hidle) (by rwa [h.start])] at hexec
    refine ⟨_, hexec, h.only_clusters hrest, hmig, h.others.trans hothers, fun hst hpause => ?_⟩
    exact (State.giveUp_drl hin (by rwa [h.drl]) (by rwa [h.drl])).trans h.drl
  case noSpare =>
    obtain ⟨hrest, hmig, hothers⟩ := State.giveUp_spec (s := u) hin
    have hflights := (State.mayStop_spec hstop).2
    rw [State.migrate_without_spare hp' hdue' (by rwa [h.start]) (by rwa [h.start]) (h.idleAt.trans (State.idleAt_of_holder hk))
      (by rwa [h.forced, h.mayStop])] at hexec
    refine ⟨_, hexec, h.only_clusters hrest, hmig, h.others.trans hothers, ?_⟩
    rw [← h.drl] at hst hpause hflights hsusp ⊢
    exact State.giveUp_pauses hin hst hpause hflights hsusp
  case spare =>
    have hplt : p < s.start.pcl.length := (Start.phys_spec hp).1
    have hqlt : q < u.start.pcl.length := by
      rw [h.start, hpcl]
      exact Start.spareOf_lt hspare (by omega)
    have hspare' : u.start.spareOf (p / 17) = some q := by rw [h.start]; exact hspare
    refine ⟨fun hidle htune => ?idle, fun hk hstop => ?boundary, fun hk hst hpause => ?migrating⟩
    case idle =>
      rw [State.migrate_of_idle hp' hdue' hspare' (h.idleAt.trans hidle) (by rwa [h.start])] at hexec
      obtain ⟨hzero, hforced⟩ := u.moveTo_zeroed l p q false
      exact ⟨_, hexec, hmoved (State.moveTo_moved hin hp' hqlt hne), h.zeroed hzero, hforced.trans (by rw [h.hist])⟩
    case boundary =>
      rw [State.migrate_at_boundary hp' hdue' hspare' (h.idleAt.trans (State.idleAt_of_holder hk)) (by rwa [h.forced, h.mayStop])] at hexec
      refine ⟨_, hexec, ?_, h.others.trans (sameClusters_updCluster u l _), h.only_clusters rfl⟩
      rw [← h.drl]
      exact State.updDrl_drl u l _ hin
    case migrating =>
      have hst' : (u.cluster l).drl.st = .migrating := by rwa [h.drl]
      rw [State.migrate_of_migrating hp' hdue' hspare' (h.idleAt.trans (State.idleAt_of_holder hk)) hst', h.drl, h.entriesOf, h.start] at hexec
      generalize hfull : (!((s.cluster l).drl.atBoundary (s.entriesOf l (s.cluster l).drl) false)) = full at hexec
      have hin' : l < (u.moveTo l p q full (s.start.cluster p).due).clusters.length := by simpa using hin
      have hdrl := State.updDrl_drl (u.moveTo l p q full (s.start.cluster p).due) l (fun d => { d with st := d.back }) hin'
      rw [State.moveTo_drl hin, h.drl] at hdrl
      rw [State.settlePause_of_waits (.inl ((congrArg (·.pauseReq) hdrl).trans hpause))] at hexec
      refine ⟨_, hexec, hmoved ((State.moveTo_moved hin hp' hqlt hne).updDrl hin' _), hdrl, fun htune => ?tune, fun hat => ?left, fun hat => ?along⟩
      case tune =>
        rw [htune]
        exact State.moveTo_tunes hp' q full
      case left =>
        obtain rfl : full = false := by rw [← hfull, hat]; rfl
        obtain ⟨hzero, hforced⟩ := u.moveTo_zeroed l p q (s.start.cluster p).due
        exact ⟨h.zeroed hzero, hforced.trans (by rw [h.hist])⟩
      case along =>
        obtain rfl : full = true := by rw [← hfull, hat]; rfl
        obtain ⟨hmem, hforced⟩ := u.moveTo_full l p q (s.start.cluster p).due
        exact ⟨hmem.trans h.mem, hforced.trans (by rw [h.hist])⟩

end Sys2Proof.Machine
end

section
/-!
Proof, the work of an entry: what it may change while it works. Memory takes its writes in order, and the trace of a tagged entry (R534);
of its cluster its flights, its conversion counts, its counters, its Pannier and its units' status change; of the rest the counters and
what waits to be written.
-/

namespace Sys2Proof.Machine

/-! ## Writes in order -/

theorem Cells.writeAll_append (m : Cells) (ws vs : List (Nat × List Byte)) :
    Cells.writeAll m (ws ++ vs) = Cells.writeAll (Cells.writeAll m ws) vs := List.foldl_append

theorem rangesOf_append (ws vs : List (Nat × List Byte)) : rangesOf (ws ++ vs) = rangesOf ws ++ rangesOf vs := List.map_append

theorem SameBytes.mono {s t : State} {rs qs : List (Nat × Nat)} (h : SameBytes s t rs) (hsub : rs ⊆ qs) : SameBytes s t qs :=
  fun a ha => h a fun r hr => ha r (hsub hr)

theorem SameBytes.trans {s t u : State} {rs : List (Nat × Nat)} (h : SameBytes s t rs) (h' : SameBytes t u rs) : SameBytes s u rs :=
  fun a ha => (h' a ha).trans (h a ha)

/-- Writes change the bytes of their own ranges alone. -/
theorem sameBytes_writeAll {s t : State} {ws : List (Nat × List Byte)} (h : t.mem = Cells.writeAll s.mem ws) : SameBytes s t (rangesOf ws) := by
  intro a ha
  rw [h]
  exact Cells.byte_writeAll_other s.mem ws a fun w hw => ha (w.1, w.2.length) (List.mem_map_of_mem hw)

/-! ## The trace ring (R534) -/

theorem State.traceRing_congr {s t : State} {x : Site} (h : (t.cluster x.l).ctrc = (s.cluster x.l).ctrc) : t.traceRing x = s.traceRing x := by
  rw [State.traceRing, h, State.traceRing]

theorem traceRecord_length (entry opcode event unit ltile seq tally : Nat) (detail step : Word) :
    (traceRecord entry opcode event unit ltile seq tally detail step).length = 32 := by
  simp [traceRecord, leBytes_length]

/-- Every trace record lies in the ring. -/
theorem traceAddr_in_ring (c : Ctrc) (n : Nat) :
    c.base.toNat ≤ traceAddr c n ∧ traceAddr c n + 32 ≤ c.base.toNat + 32 * 2 ^ fld c.tag 57 53 := by
  have hlt := Nat.mod_lt n (Nat.two_pow_pos (fld c.tag 57 53))
  unfold traceAddr
  omega

/-! ## What an entry's work may change -/

/-- A cluster on which an entry has worked: its flights, its conversion counts, its counters, its Pannier and the status of its units
may differ. -/
structure Cluster.WorkedOn (c d : Cluster) : Prop where
  drl : d.drl = { c.drl with flights := d.drl.flights, convs := d.drl.convs }
  rest : d = { c with drl := d.drl, til := d.til, pan := d.pan, top := d.top, ctr := d.ctr }

theorem Cluster.workedOn_refl (c : Cluster) : c.WorkedOn c := ⟨rfl, rfl⟩

theorem Cluster.WorkedOn.trans {c d e : Cluster} (h : c.WorkedOn d) (h' : d.WorkedOn e) : c.WorkedOn e where
  drl := h'.drl.trans (by rw [h.drl])
  rest := h'.rest.trans (by rw [h.rest])

/-- The parts of the state that an entry's work may change. -/
def State.OnlyWorked (s t : State) : Prop :=
  t = { s with
    mem := t.mem, tags := t.tags, poison := t.poison, clusters := t.clusters, ctr := t.ctr
    pages := { s.pages with ce := t.pages.ce, waiting := t.pages.waiting } }

theorem State.OnlyWorked.trans {s t u : State} (h : s.OnlyWorked t) (h' : t.OnlyWorked u) : s.OnlyWorked u := by
  unfold State.OnlyWorked at h h' ⊢
  rw [h'.trans (by rw [h])]

/-- Entry `x` has worked, and has stored `ws`; this does not say whether it is done. -/
structure Works (s t : State) (x : Site) (ws : List (Nat × List Byte)) : Prop where
  stores : x.f.tag = none → t.mem = Cells.writeAll s.mem ws
  waits : x.f.tag = none → t.pages.waiting = s.pages.waiting
  bytes : SameBytes s t (rangesOf ws ++ s.traceRing x)
  size : t.clusters.length = s.clusters.length
  others : SameClusters s t x.l
  own : (s.cluster x.l).WorkedOn (t.cluster x.l)
  rest : s.OnlyWorked t

theorem works_refl (s : State) (x : Site) : Works s s x [] where
  stores _ := rfl
  waits _ := rfl
  bytes _ _ := rfl
  size := rfl
  others _ _ := rfl
  own := Cluster.workedOn_refl _
  rest := rfl

theorem Works.ring {s t : State} {x : Site} {ws : List (Nat × List Byte)} (h : Works s t x ws) : t.traceRing x = s.traceRing x :=
  State.traceRing_congr (by rw [h.own.rest])

theorem Works.trans {s t u : State} {x : Site} {ws vs : List (Nat × List Byte)} (h : Works s t x ws) (h' : Works t u x vs) :
    Works s u x (ws ++ vs) where
  stores htag := by rw [h'.stores htag, h.stores htag, Cells.writeAll_append]
  waits htag := (h'.waits htag).trans (h.waits htag)
  bytes := by
    refine (h.bytes.mono ?_).trans (h'.bytes.mono ?_)
    · rw [rangesOf_append]
      exact List.append_subset.2 ⟨List.subset_append_of_subset_left _ (List.subset_append_left _ _), List.subset_append_right _ _⟩
    · rw [rangesOf_append, h.ring]
      exact List.append_subset.2 ⟨List.subset_append_of_subset_left _ (List.subset_append_right _ _), List.subset_append_right _ _⟩
  size := h'.size.trans h.size
  others := h.others.trans h'.others
  own := h.own.trans h'.own
  rest := h.rest.trans h'.rest

/-- What stores nothing adds no writes. -/
theorem Works.thenQuiet {s t u : State} {x : Site} {ws : List (Nat × List Byte)} (h : Works s t x ws) (h' : Works t u x []) : Works s u x ws := by
  simpa using h.trans h'

/-- What is stored after work that stored nothing is all that is stored. -/
theorem Works.thenStore {s t u : State} {x : Site} {ws : List (Nat × List Byte)} (h : Works s t x []) (h' : Works t u x ws) : Works s u x ws :=
  h.trans h'

theorem Works.foldl {β : Type} {g : State → β → State} {x : Site} {w : β → List (Nat × List Byte)} (hg : ∀ t b, Works t (g t b) x (w b))
    (l : List β) (s : State) : Works s (l.foldl g s) x (l.flatMap w) := by
  induction l generalizing s with
  | nil => exact works_refl s x
  | cons b l ih => exact (hg s b).trans (ih (g s b))

theorem Works.foldl_quiet {β : Type} {g : State → β → State} {x : Site} (hg : ∀ t b, Works t (g t b) x []) (l : List β) (s : State) :
    Works s (l.foldl g s) x [] := by
  have h := Works.foldl (w := fun _ => []) hg l s
  rwa [List.flatMap_eq_nil_iff.2 fun _ _ => rfl] at h

/-! ## The operations of which an entry's work is made -/

theorem works_updCluster (s : State) (x : Site) {f : Cluster → Cluster} (hf : ∀ c : Cluster, c.WorkedOn (f c)) :
    Works s (s.updCluster x.l f) x [] where
  stores _ := rfl
  waits _ := rfl
  bytes _ _ := rfl
  size := s.updCluster_length x.l f
  others := sameClusters_updCluster s x.l f
  own := by
    by_cases hl : x.l < s.clusters.length
    · rw [State.cluster_updCluster_self s x.l f hl]
      exact hf _
    · have hnone : s.clusters.modify x.l f = s.clusters := List.modify_eq_self (by omega)
      rw [State.cluster_of_clusters (t := s.updCluster x.l f) hnone]
      exact Cluster.workedOn_refl _
  rest := rfl

theorem works_count (s : State) (x : Site) (ws : List (Nat × Nat)) : Works s (s.count x.l ws) x [] := works_updCluster s x fun _ => ⟨rfl, rfl⟩

theorem works_store (s : State) (x : Site) (ws : List (Nat × List Byte)) : Works s (s.store ws) x ws where
  stores _ := rfl
  waits _ := rfl
  bytes := (sameBytes_writeAll rfl).mono (List.subset_append_left _ _)
  size := rfl
  others _ _ := rfl
  own := Cluster.workedOn_refl _
  rest := rfl

theorem works_put (s : State) (x : Site) (w : Written) : Works s (s.put w) x w.writes where
  stores _ := rfl
  waits _ := rfl
  bytes := (sameBytes_writeAll rfl).mono (List.subset_append_left _ _)
  size := rfl
  others _ _ := rfl
  own := Cluster.workedOn_refl _
  rest := rfl

theorem works_addConv (s : State) (x : Site) (t : Tensor) (st : ConvStat) : Works s (s.addConv x.l t st) x [] := by
  unfold State.addConv
  split
  · exact works_updCluster s x fun _ => ⟨rfl, rfl⟩
  · exact works_refl s x

theorem works_putAll (s : State) (x : Site) (outs : List (Tensor × Written)) :
    Works s (s.putAll x.l outs) x (outs.flatMap (fun o => o.2.writes)) :=
  Works.foldl (fun t o => (works_put t x o.2).thenQuiet (works_addConv _ x o.1 o.2.stat)) outs s

/-- A tagged entry's event takes one record to the ring (R534). -/
theorem State.trace_tagged {f : Flight} {q : Nat} (h : f.tag = some q) (s : State) (l : Nat) (op : Opcode) (step event unit lt : Nat)
    (detail : Word) : ∃ n r, r.length = 32 ∧
      s.trace l f op step event unit lt detail = (s.hubStore [(traceAddr (s.cluster l).ctrc n, r)]).count l [(ctTraceWritten, 1)] :=
  ⟨_, _, traceRecord_length .., by rw [State.trace, h]⟩

/-- A store of the hub lands or waits: within the ring it is part of an entry's work where the entry is tagged. -/
theorem works_hubStore {x : Site} {q : Nat} (h : x.f.tag = some q) (s : State) (n : Nat) {r : List Byte} (hr : r.length = 32) :
    Works s (s.hubStore [(traceAddr (s.cluster x.l).ctrc n, r)]) x [] where
  stores hnone := by simp [h] at hnone
  waits hnone := by simp [h] at hnone
  bytes := by
    intro a ha
    refine Cells.byte_writeAll_other s.mem _ a fun w hw => ?_
    obtain rfl := List.mem_singleton.1 (List.mem_filter.1 hw).1
    have hout := ha ((s.cluster x.l).ctrc.base.toNat, 32 * 2 ^ fld (s.cluster x.l).ctrc.tag 57 53)
      (List.mem_append_right _ (by simp [State.traceRing, h]))
    have hin := traceAddr_in_ring (s.cluster x.l).ctrc n
    simp only [hr]
    omega
  size := by simp
  others k _ := State.cluster_of_clusters (by simp) k
  own := by
    rw [State.cluster_of_clusters (s := s) (by simp)]
    exact Cluster.workedOn_refl _
  rest := rfl

theorem works_trace (s : State) (x : Site) (op : Opcode) (step event unit lt : Nat) (detail : Word) :
    Works s (s.trace x.l x.f op step event unit lt detail) x [] := by
  cases htag : x.f.tag with
  | none =>
    rw [State.trace_untagged htag]
    exact works_refl s x
  | some q =>
    obtain ⟨n, r, hr, htrace⟩ := State.trace_tagged htag s x.l op step event unit lt detail
    rw [htrace]
    exact (works_hubStore htag s n hr).thenQuiet (works_count _ x _)

/-! ## The guard of an entry (R387, R388, R526) -/

theorem State.guard_of_clear {s : State} {x : Site} {ev : Ev} {as : List Access} (h : s.clear x ev as) (go : State → State) :
    s.guard x ev as go = go (s.counted x ev as) := by
  obtain ⟨hfault, hwait, hreach⟩ := h
  simp [State.guard, hfault, hwait, hreach, State.counted]

/-- The parts of the state in which the guard counts: the clusters' counters, the module's, and those of the frames. -/
def State.OnlyCounted (s t : State) : Prop :=
  t = { s with clusters := t.clusters, ctr := t.ctr, pages := { s.pages with ce := t.pages.ce } }

theorem State.OnlyCounted.trans {s t u : State} (h : s.OnlyCounted t) (h' : t.OnlyCounted u) : s.OnlyCounted u := by
  unfold State.OnlyCounted at h h' ⊢
  rw [h'.trans (by rw [h])]

theorem State.onlyCounted_updCluster (s : State) (l : Nat) (f : Cluster → Cluster) : s.OnlyCounted (s.updCluster l f) := rfl

theorem State.OnlyCounted.foldl {β : Type} {g : State → β → State} (hg : ∀ (t : State) (b : β), t.OnlyCounted (g t b)) (l : List β)
    (s : State) : s.OnlyCounted (l.foldl g s) := by
  induction l generalizing s with
  | nil => rfl
  | cons b l ih => exact (hg s b).trans (ih (g s b))

/-- Words that are corrected count against their frames (R387). -/
theorem State.onlyCounted_corrected (s : State) (fixed : List Nat) (as : List Access) : s.OnlyCounted (s.corrected fixed as) := by
  refine State.OnlyCounted.foldl (fun t a => ?_) _ s
  split
  · unfold State.countCe
    split <;> rfl
  · rfl

theorem State.onlyCounted_counted (s : State) (x : Site) (ev : Ev) (as : List Access) : s.OnlyCounted (s.counted x ev as) :=
  (s.onlyCounted_corrected ev.fixed as).trans rfl

section
variable {s t : State} (h : s.OnlyCounted t)
include h

theorem State.OnlyCounted.mem : t.mem = s.mem := by rw [h]
theorem State.OnlyCounted.mv : t.mv = s.mv := by rw [State.mv, h, State.mv]
theorem State.OnlyCounted.stepOf (k : TaskKey) : t.stepOf k = s.stepOf k := by rw [State.stepOf, h, State.stepOf]

end

/-- The guard counts on the cluster's counters alone. -/
theorem State.counted_part {α : Type} (part : Cluster → α) (h : ∀ c ctr, part { c with ctr := ctr } = part c) (s : State) (x : Site) (ev : Ev)
    (as : List Access) (k : Nat) : part ((s.counted x ev as).cluster k) = part (s.cluster k) := by
  refine (State.count_part part h _ x.l _ k).trans (congrArg part ?_)
  exact State.cluster_of_clusters (by simp) k

theorem works_counted (s : State) (x : Site) (ev : Ev) (as : List Access) : Works s (s.counted x ev as) x [] := by
  have honly := s.onlyCounted_counted x ev as
  have hsame : ((s.corrected ev.fixed as).countBytes ((s.start.phys x.l).map (fun p => p / 17)) as).clusters = s.clusters := by simp
  refine ⟨fun _ => honly.mem, fun _ => by rw [honly], fun a _ => by rw [honly.mem], by simp [State.counted], fun k hk => ?_, ?_, ?_⟩
  · exact ((works_count _ x _).others k hk).trans (State.cluster_of_clusters hsame k)
  · rw [← State.cluster_of_clusters hsame x.l]
    exact (works_count _ x _).own
  · rw [honly]
    rfl

/-! ## The end of an entry's work -/

theorem workIsDone_workDone {s : State} {x : Site} (hl : x.l < s.clusters.length) (fl : Flags) : WorkIsDone (s.workDone x fl) x := by
  intro f hf hidx
  rw [State.workDone, State.updDrl_drl _ _ _ hl] at hf
  exact Drl.setFlight_work hf hidx fun _ => rfl

theorem works_workDone (s : State) (x : Site) (fl : Flags) : Works s (s.workDone x fl) x [] := works_updCluster s x fun _ => ⟨rfl, rfl⟩

theorem Works.workDone {s t : State} {x : Site} {ws : List (Nat × List Byte)} (h : Works s t x ws) (hl : x.l < s.clusters.length)
    (fl : Flags) : WorkDone s (t.workDone x fl) x (Cells.writeAll s.mem ws) (rangesOf ws) := by
  have hall := h.thenQuiet (works_workDone t x fl)
  exact {
    done := workIsDone_workDone (h.size ▸ hl) fl
    stores := hall.stores
    bytes := hall.bytes
    others := hall.others
    drl := hall.own.drl
    cluster := hall.own.rest
    rest := hall.rest
    waits := hall.waits }

end Sys2Proof.Machine
end

section
/-!
Proof, matrix entries: output tiles that pass their checks, wait for their retry or fail it (R171, R174), MM, MM_TA and MM_TB (R159, R164,
R177), GRAM_L and GRAM_R (R167 to R170, R226, R227).
-/

namespace Sys2Proof.Machine

/-! ## Output tiles (R174) -/

/-- Output tiles have passed through the Pannier as far as they can, and the arrays hold what they were computed from. -/
def State.loadTiles (s : State) (x : Site) (p : Pannier) (st : Mat) (ts : List OTile) : State :=
  s.updCluster x.l (fun c => { c with pan := p, til := c.til.load (otileOwner x.e.mask) st ts })

/-- What becomes of an entry once its output tiles are computed: it waits for a retry, a tile has failed its retry, or it goes on. -/
def State.settleTiles (s : State) (x : Site) (cells : List CellFault) (ts : List OTile) (counted : State) (out : State → State) : State :=
  if x.retries ts then s.awaitRetry x cells ts
  else if ts.any (fun t => t.verdict = .fail) then (counted.chargeOtiles x ts).tileFault x ts
  else out (counted.chargeOtiles x ts)

section
variable {x : Site} {ts : List OTile}

theorem Site.retries_of_allPass (h : ∀ t ∈ ts, t.verdict = .pass) : x.retries ts = false := by
  have hany : ts.any (fun t => t.verdict != .pass) = false := by simpa using h
  rw [Site.retries, hany, Bool.and_false]

theorem State.chargeOtiles_of_allPass (h : ∀ t ∈ ts, t.verdict = .pass) (s : State) : s.chargeOtiles x ts = s := by
  unfold State.chargeOtiles
  induction ts generalizing s with
  | nil => rfl
  | cons t ts ih =>
    obtain ⟨ht, hts⟩ := List.forall_mem_cons.1 h
    rw [List.foldl_cons, ht]
    exact ih hts s

variable (s counted : State) (cells : List CellFault) (out : State → State)

theorem State.settleTiles_of_retries (h : x.retries ts = true) : s.settleTiles x cells ts counted out = s.awaitRetry x cells ts := if_pos h

theorem State.settleTiles_of_fail (h : x.retries ts = false) (hfail : ∃ t ∈ ts, t.verdict = .fail) :
    s.settleTiles x cells ts counted out = (counted.chargeOtiles x ts).tileFault x ts := by
  have hany : ts.any (fun t => t.verdict = .fail) = true := by simpa using hfail
  rw [State.settleTiles, h, hany]
  rfl

theorem State.settleTiles_of_noFail (h : x.retries ts = false) (hpass : ∀ t ∈ ts, t.verdict ≠ .fail) :
    s.settleTiles x cells ts counted out = out (counted.chargeOtiles x ts) := by
  have hany : ts.any (fun t => t.verdict = .fail) = false := by simpa using hpass
  rw [State.settleTiles, h, hany]
  rfl

/-- Where every output tile passes its first check, the entry goes on and nothing is charged. -/
theorem State.settleTiles_of_allPass (h : ∀ t ∈ ts, t.verdict = .pass) : s.settleTiles x cells ts counted out = out counted := by
  rw [State.settleTiles_of_noFail s counted cells out (Site.retries_of_allPass h) fun t ht => by simp [h t ht],
    State.chargeOtiles_of_allPass h]

end

theorem works_loadTiles (s : State) (x : Site) (p : Pannier) (st : Mat) (ts : List OTile) : Works s (s.loadTiles x p st ts) x [] :=
  works_updCluster s x fun _ => ⟨rfl, rfl⟩

theorem works_countTiles (s : State) (x : Site) (ps : List (List OTile × Nat)) (strokes : Nat) (product : Bool) :
    Works s (s.countTiles x ps strokes product) x [] := (works_count s x _).thenQuiet (works_updCluster _ x fun _ => ⟨rfl, rfl⟩)

theorem State.onlyCounted_countTiles (s : State) (x : Site) (ps : List (List OTile × Nat)) (strokes : Nat) (product : Bool) :
    s.OnlyCounted (s.countTiles x ps strokes product) := rfl

/-! ## Products (R159, R164) -/

/-- The output tiles of an MM, MM_TA or MM_TB. -/
def State.productTiles (s : State) (x : Site) (ev : Ev) (a b d : Tensor) : List OTile :=
  product x.e.op (Mat.ofTensor s.mv a) (Mat.ofTensor s.mv b) (bit x.e.w2 1) (fld x.f.til 4 0) (bit x.e.w2 0)
    (fun r c => if bit x.e.w2 0 then d.f32 s.mv r c else 0) (x.f.work.cells ev.cells)

/-- Its outputs through the chain. -/
def State.productOuts (s : State) (x : Site) (d : Tensor) (ch : Option Chain) (ts : List OTile) : List (Tensor × Written) :=
  (applyChain s.mv x.job x.e.rnd (BitVec.ofNat 64 (s.stepOf x.key)) ch d none (fun r c => (productAt ts d.cols r c).hi)).outs

/-- Its accesses: the operands, D where it accumulates, and what its chain names. -/
def Site.productAccesses (x : Site) (a b d : Tensor) : List Access :=
  tensorAccesses ([a, b] ++ (if bit x.e.w2 0 then [d] else []) ++ (x.job.chainTensors (x.job.chain x.e)).1)
    (d :: (x.job.chainTensors (x.job.chain x.e)).2)

theorem exec_product {s : State} {c : Instr} {op : Opcode} {l idx : Nat} {ev : Ev} {x : Site} (hl : l < 128)
    (hc : (op, c) ∈ [(Opcode.mm, Instr.mm l idx ev), (Opcode.mmTa, Instr.mmTa l idx ev), (Opcode.mmTb, Instr.mmTb l idx ev)])
    (hx : s.todo l idx op = some x) : exec c s = .next (s.runProduct x ev) := by
  simp only [List.mem_cons, Prod.mk.injEq, List.not_mem_nil, or_false] at hc
  rcases hc with ⟨rfl, rfl⟩ | ⟨rfl, rfl⟩ | ⟨rfl, rfl⟩
  all_goals exact (onCluster_of_lt hl _).trans (by rw [hx])

section
variable {s : State} {x : Site} {ev : Ev} {a b d : Tensor}

theorem State.runProduct_of_clear (ha : x.opa = some a) (hb : x.opb = some b) (hd : x.opd = some d)
    (hclear : s.clear x ev (x.productAccesses a b d)) :
    s.runProduct x ev = (s.counted x ev (x.productAccesses a b d)).productBody x ev a b d (x.job.chain x.e) := by
  rw [State.runProduct, ha, hb, hd]
  exact State.guard_of_clear hclear _

theorem State.OnlyCounted.productTiles {t : State} (h : s.OnlyCounted t) : t.productTiles x ev a b d = s.productTiles x ev a b d := by
  rw [State.productTiles, h.mv, State.productTiles]

theorem State.OnlyCounted.productOuts {t : State} (h : s.OnlyCounted t) (ch : Option Chain) (ts : List OTile) :
    t.productOuts x d ch ts = s.productOuts x d ch ts := by
  rw [State.productOuts, h.mv, h.stepOf, State.productOuts]

theorem State.productBody_of_noSlot (ch : Option Chain)
    (h : x.passPannier (bit x.e.w2 1) (s.productTiles x ev a b d) (s.cluster x.l).pan = none) : s.productBody x ev a b d ch = s := by
  unfold State.productTiles at h
  unfold State.productBody
  extract_lets
  rw [h]

theorem State.productBody_of_slots (ch : Option Chain) {p : Pannier} {ts : List OTile} {loaded : State}
    (hts : s.productTiles x ev a b d = ts)
    (hloaded : s.loadTiles x p (orient x.e.op (Mat.ofTensor s.mv a) (Mat.ofTensor s.mv b)).2 ts = loaded)
    (h : x.passPannier (bit x.e.w2 1) ts (s.cluster x.l).pan = some p) :
    s.productBody x ev a b d ch = loaded.settleTiles x (x.f.work.cells ev.cells) ts
      (loaded.countTiles x [(ts, (productShape x.e.op a b).2.2.1)] (strokesPerRow a.fmt) true) (fun u => u.productOut x d ch ts) := by
  subst hts hloaded
  unfold State.productTiles at h
  unfold State.productBody
  extract_lets
  rw [h]
  rfl

/-- The outputs of a product stored, its entry is done. -/
theorem Works.productOut {t : State} (h : Works s t x []) (hc : s.OnlyCounted t) (hl : x.l < s.clusters.length) (ch : Option Chain)
    (ts : List OTile) :
    let ws := (s.productOuts x d ch ts).flatMap (fun o => o.2.writes)
    WorkDone s (t.productOut x d ch ts) x (Cells.writeAll s.mem ws) (rangesOf ws) := by
  rw [← hc.productOuts]
  unfold State.productOut
  extract_lets ws o flags traced total stored beats
  have htraced : Works t traced x [] := Works.foldl_quiet (fun _ _ => works_trace ..) ts t
  have htotal : Works t total x [] := htraced.thenQuiet (works_trace traced x x.e.op _ 4 3 0 _)
  have hstored : Works t beats x ws := (htotal.thenStore (works_putAll total x o.outs)).thenQuiet (works_count stored x _)
  exact (h.thenStore hstored).workDone hl o.fl

end

/-! ## Gram entries (R167 to R170) -/

/-- A field reads as it was set. -/
theorem fld_setFld (w : Word) {hi lo : Nat} (hlo : lo ≤ hi) (hhi : hi < 64) (v : Nat) : fld (setFld w hi lo v) hi lo = v % 2 ^ (hi - lo + 1) := by
  have hk : 2 ^ (hi + 1) = 2 ^ lo * 2 ^ (hi - lo + 1) := by rw [← pow_add]; congr 1; omega
  have hw : 2 ^ 64 = 2 ^ lo * (2 ^ (hi - lo + 1) * 2 ^ (63 - hi)) := by rw [← pow_add, ← pow_add]; congr 1; omega
  unfold fld setFld
  extract_lets k n
  generalize n >>> (hi + 1) = c
  have hsum : n % 2 ^ lo + v % k * 2 ^ lo + c * 2 ^ (hi + 1) = n % 2 ^ lo + 2 ^ lo * (v % k + k * c) := by rw [hk]; ring
  rw [BitVec.toNat_ofNat, hsum, hw, Nat.shiftRight_eq_div_pow, Nat.mod_mul_right_div_self, Nat.add_mul_div_left _ _ (Nat.two_pow_pos lo),
    Nat.div_eq_of_lt (Nat.mod_lt _ (Nat.two_pow_pos lo)), Nat.zero_add, Nat.mod_mul_right_mod, Nat.add_mul_mod_self_left]
  exact Nat.mod_mod v k

/-- A word of a slot's record that is written last reads as it was written. -/
theorem Slot.word_writeAll_setWord {m : Cells} (hm : Cells.wf m = true) (g : Slot) (ws : List (Nat × List Byte)) (k : Nat) (w : Word) :
    g.word (Cells.writeAll m (ws ++ [g.setWord k w])) k = w := by
  rw [Cells.writeAll_append]
  exact Cells.word_write_self (Cells.wf_writeAll hm ws) _ w

/-- The output tiles of a Gram entry, with their accumulators. -/
def State.gramOuts (s : State) (x : Site) (ev : Ev) (g : Slot) (a : Tensor) : List (GTile × List (List Acc) × OTile) :=
  let m := orient x.e.op (Mat.ofTensor s.mv a) (Mat.ofTensor s.mv a)
  g.gramTiles.map (fun t => (t, runGram g s.mem m.1 m.2 (fld x.f.til 14 8) (x.f.work.cells ev.cells) t))

/-- What a Gram entry writes: its output tiles' accumulators, and the plane OPEN (R226). -/
def State.gramStores (s : State) (x : Site) (ev : Ev) (g : Slot) (a : Tensor) : List (Nat × List Byte) :=
  (s.gramOuts x ev g a).flatMap (fun o => g.gramWrites o.1 o.2.1) ++ [g.setWord 0 (setFld (g.word s.mem 0) 63 60 1)]

/-- The arrays hold what its output tiles were computed from. -/
def State.loadGram (s : State) (x : Site) (st : Mat) (ts : List OTile) : State :=
  s.updCluster x.l (fun c => { c with til := c.til.load (otileOwner x.e.mask) st ts })

theorem works_loadGram (s : State) (x : Site) (st : Mat) (ts : List OTile) : Works s (s.loadGram x st ts) x [] :=
  works_updCluster s x fun _ => ⟨rfl, rfl⟩

/-- Its accesses: the operand, and the plane, which it reads where it is OPEN. -/
def State.gramAccesses (s : State) (g : Slot) (a : Tensor) : List Access :=
  a.accesses false ++ (if g.planeState s.mem = 1 then [⟨g.plane, g.planeBytes, false⟩] else [])
    ++ [⟨g.plane, g.planeBytes, true⟩, ⟨g.state, 8, true⟩]

theorem exec_gram {s : State} {c : Instr} {op : Opcode} {l idx : Nat} {ev : Ev} {x : Site} (hl : l < 128)
    (hc : (op, c) ∈ [(Opcode.gramL, Instr.gramL l idx ev), (Opcode.gramR, Instr.gramR l idx ev)])
    (hx : s.todo l idx op = some x) : exec c s = .next (s.runGramEntry x ev) := by
  simp only [List.mem_cons, Prod.mk.injEq, List.not_mem_nil, or_false] at hc
  rcases hc with ⟨rfl, rfl⟩ | ⟨rfl, rfl⟩
  all_goals exact (onCluster_of_lt hl _).trans (by rw [hx])

section
variable {s : State} {x : Site} {ev : Ev} {a : Tensor} {g : Slot} (ha : x.opa = some a) (hg : x.job.slots[fld x.e.w2 15 0]? = some g)
include ha hg

theorem State.runGramEntry_of_offStep (h : s.stepOf x.key % max 1 g.statEvery ≠ 0) : s.runGramEntry x ev = s.workDone x := by
  rw [State.runGramEntry, ha, hg]
  exact if_pos h

theorem State.runGramEntry_of_onStep (h : s.stepOf x.key % max 1 g.statEvery = 0) (hclear : s.clear x ev (s.gramAccesses g a)) :
    s.runGramEntry x ev = (s.counted x ev (s.gramAccesses g a)).gramBody x ev g a := by
  rw [State.runGramEntry, ha, hg]
  exact (if_neg (not_not.2 h)).trans (State.guard_of_clear hclear _)

end

section
variable {s t : State} {x : Site} {ev : Ev} {a : Tensor} {g : Slot}

theorem State.OnlyCounted.gramOuts (h : s.OnlyCounted t) : t.gramOuts x ev g a = s.gramOuts x ev g a := by
  rw [State.gramOuts, h.mv, h.mem, State.gramOuts]

theorem State.OnlyCounted.gramStores (h : s.OnlyCounted t) : t.gramStores x ev g a = s.gramStores x ev g a := by
  rw [State.gramStores, h.gramOuts, h.mem, State.gramStores]

/-- A Gram entry whose output tiles all pass stores them and is done. -/
theorem State.gramBody_of_allPass (hpass : ∀ o ∈ s.gramOuts x ev g a, o.2.2.verdict = .pass) :
    let ts := (s.gramOuts x ev g a).map (fun o => o.2.2)
    let loaded := s.loadGram x (orient x.e.op (Mat.ofTensor s.mv a) (Mat.ofTensor s.mv a)).2 ts
    s.gramBody x ev g a =
      ((loaded.countTiles x [(ts, (productShape x.e.op a a).2.2.1)] gramStrokes false).store (s.gramStores x ev g a)).workDone x := by
  intro ts loaded
  have hts : ∀ t ∈ ts, t.verdict = .pass := by
    intro t ht
    obtain ⟨o, ho, rfl⟩ := List.mem_map.1 ht
    exact hpass o ho
  exact State.settleTiles_of_allPass loaded (loaded.countTiles x [(ts, (productShape x.e.op a a).2.2.1)] gramStrokes false)
    (x.f.work.cells ev.cells)
    (fun u => (u.store ((s.gramOuts x ev g a).flatMap (fun o => g.gramWrites o.1 o.2.1) ++
      [g.setWord 0 (setFld (g.word u.mem 0) 63 60 1)])).workDone x) hts

theorem Works.gramBody (h : Works s t x []) (hc : s.OnlyCounted t) (hl : x.l < s.clusters.length)
    (hpass : ∀ o ∈ s.gramOuts x ev g a, o.2.2.verdict = .pass) :
    WorkDone s (t.gramBody x ev g a) x (Cells.writeAll s.mem (s.gramStores x ev g a)) (rangesOf (s.gramStores x ev g a)) ∧
      (t.gramBody x ev g a).mem = Cells.writeAll s.mem (s.gramStores x ev g a) := by
  rw [State.gramBody_of_allPass (by rwa [hc.gramOuts]), hc.gramStores]
  refine ⟨?_, by simp [State.workDone, State.store_mem, State.loadGram, hc.mem]⟩
  exact (((h.thenQuiet (works_loadGram t x _ _)).thenQuiet (works_countTiles _ x _ _ _)).thenStore (works_store _ x _)).workDone hl {}

end

/-! ## The statement -/

/-- Settles O48: what the tiles compute goes through the guard's counts and the Pannier unchanged, so that every outcome of the checks is
one branch of `settleTiles`; where all tiles pass, the work of the entry is its traces and its stores. -/
theorem matrixEntriesRun : Obligations.MatrixEntriesRun := by
  constructor
  · intro s c op l idx ev x a b d pan hl hlen hc hx ha hb hd acc ch as ts outs ws filled loaded charged hclear
    obtain ⟨-, rfl, -, rfl⟩ := State.todo_spec hx
    have honly : s.OnlyCounted (s.counted x ev as) := s.onlyCounted_counted x ev as
    have hexec : exec c s = .next ((s.counted x ev as).productBody x ev a b d ch) :=
      (exec_product hl hc hx).trans (congrArg _ (State.runProduct_of_clear ha hb hd hclear))
    have hpan : ((s.counted x ev as).cluster x.l).pan = (s.cluster x.l).pan := s.counted_part (·.pan) (fun _ _ => rfl) x ev as x.l
    have hts : (s.counted x ev as).productTiles x ev a b d = ts := honly.productTiles
    have hfilled : x.passPannier (bit x.e.w2 1) ts ((s.counted x ev as).cluster x.l).pan = filled := by rw [hpan]
    refine ⟨fun hnone => ?waits, fun hsome => ?runs⟩
    case waits =>
      rw [hexec, State.productBody_of_noSlot ch (by rw [hts, hfilled, hnone])]
    case runs =>
      have hloaded : (s.counted x ev as).loadTiles x pan (orient x.e.op (Mat.ofTensor (s.counted x ev as).mv a)
          (Mat.ofTensor (s.counted x ev as).mv b)).2 ts = loaded := by
        rw [honly.mv]
        rfl
      have hbody := State.productBody_of_slots ch hts hloaded (hfilled.trans hsome)
      refine ⟨fun hpass => ?pass, fun hretry => ?retry, fun hretry hpass => ?passRetry, fun hretry hfail => ?fail⟩
      case pass =>
        refine ⟨_, hexec, ?_⟩
        rw [hbody, State.settleTiles_of_allPass loaded _ _ _ hpass]
        have hworks : Works s loaded x [] := (works_counted s x ev as).thenQuiet (works_loadTiles _ x _ _ _)
        have hcounts : s.OnlyCounted loaded := honly.trans (State.onlyCounted_updCluster _ x.l _)
        exact (hworks.thenQuiet (works_countTiles loaded x _ _ _)).productOut
          (hcounts.trans (loaded.onlyCounted_countTiles x _ _ _)) (hlen ▸ hl) ch ts
      case retry => exact ⟨hexec.trans (congrArg _ (hbody.trans (State.settleTiles_of_retries _ _ _ _ hretry))), by simp [loaded, honly.mem]⟩
      case passRetry => exact hexec.trans (congrArg _ (hbody.trans (State.settleTiles_of_noFail _ _ _ _ hretry hpass)))
      case fail => exact hexec.trans (congrArg _ (hbody.trans (State.settleTiles_of_fail _ _ _ _ hretry hfail)))
  · intro s c op l idx ev x a g hl hlen hc hx ha hg as m outs ws
    obtain ⟨-, rfl, -, rfl⟩ := State.todo_spec hx
    have hin : x.l < s.clusters.length := hlen ▸ hl
    refine ⟨fun hoff => ?off, fun hon hclear hpass => ?on⟩
    case off =>
      refine ⟨_, exec_gram hl hc hx, ?_⟩
      rw [State.runGramEntry_of_offStep ha hg hoff]
      exact (works_refl s x).workDone hin {}
    case on =>
      refine ⟨_, (exec_gram hl hc hx).trans (congrArg _ (State.runGramEntry_of_onStep ha hg hon hclear)), ?_⟩
      obtain ⟨hdone, hmem⟩ := (works_counted s x ev as).gramBody (ev := ev) (a := a) (g := g) (s.onlyCounted_counted x ev as) hin hpass
      refine ⟨hdone, fun hwf => ?_⟩
      rw [Slot.planeState]
      refine (congrArg (fun m => fld (g.word m 0) 63 60) hmem).trans ?_
      rw [State.gramStores, Slot.word_writeAll_setWord hwf, fld_setFld _ (by decide) (by decide)]
      rfl

end Sys2Proof.Machine
end

section
/-!
Proof, the parameter plan's entries: OPTIMISE with the products of its application copies (R177, R267, R268), DIGEST (R270), and the samples
of the working-copy checker (R263).
-/

namespace Sys2Proof.Machine

/-! ## OPTIMISE (R267, R268) -/

theorem State.optSite_site {s : State} {x : Site} {q : OptSite} (h : s.optSite x = some q) : q.x = x := by
  unfold State.optSite at h
  split at h
  · cases h
  · dsimp only at h
    split at h
    · cases h
      rfl
    · cases h

/-- The products of an update on the tiles. -/
def OptSite.products (q : OptSite) (m : Mv) (ev : Ev) : List TileMul :=
  match q.pre m (q.x.f.work.cells ev.cells) with | some r => r.2.2 | none => []

/-- Their output tiles. -/
def OptSite.tiles (q : OptSite) (m : Mv) (ev : Ev) : List OTile := (q.products m ev).flatMap (fun p => p.ts)

theorem OptSite.tiles_eq (q : OptSite) (m : Mv) (ev : Ev) : q.tiles m ev =
    match q.pre m (q.x.f.work.cells ev.cells) with | some r => r.2.2.flatMap (fun p => p.ts) | none => [] := by
  unfold OptSite.tiles OptSite.products
  cases q.pre m (q.x.f.work.cells ev.cells) with
  | none => rfl
  | some r => rfl

/-- What an update stores. -/
def OptSite.stores (q : OptSite) (m : Mv) (p : Option (Mat × Mat × List TileMul)) : List (Nat × List Byte) :=
  (q.writes m (p.map (fun r => r.1)) (p.map (fun r => r.2.1))).flatMap (fun w => w.writes)

theorem works_countProducts (s : State) (q : OptSite) (ps : List TileMul) : Works s (s.countProducts q ps) q.x [] := by
  unfold State.countProducts
  split
  · exact works_countTiles s q.x _ _ _
  · exact works_count s q.x _

theorem Works.optOut {s t : State} {q : OptSite} (h : Works s t q.x []) (hl : q.x.l < s.clusters.length) (m : Mv)
    (p : Option (Mat × Mat × List TileMul)) :
    WorkDone s (t.optOut q m p) q.x (Cells.writeAll s.mem (q.stores m p)) (rangesOf (q.stores m p)) := by
  have hput := h.trans (Works.foldl (x := q.x) (w := fun w => w.writes) (fun u w => works_put u q.x w)
    (q.writes m (p.map (fun r => r.1)) (p.map (fun r => r.2.1))) t)
  exact ((hput.thenQuiet (works_count _ q.x _)).thenQuiet (works_trace _ q.x _ _ _ _ _ _)).workDone hl {}

/-- The products of an update have passed through the Pannier, and the arrays hold what they were computed from. -/
def State.loadProducts (s : State) (q : OptSite) (pan : Pannier) (ps : List TileMul) : State :=
  s.updCluster q.x.l (fun c => { c with pan := pan, til := ps.foldl (fun t p => t.load (otileOwner q.x.e.mask) p.st p.ts) c.til })

theorem works_loadProducts (s : State) (q : OptSite) (pan : Pannier) (ps : List TileMul) : Works s (s.loadProducts q pan ps) q.x [] :=
  works_updCluster s q.x fun _ => ⟨rfl, rfl⟩

theorem State.optBody_eq (s : State) (q : OptSite) (ev : Ev) : s.optBody q ev =
    (q.x.passPannier false (q.tiles s.mv ev) (s.cluster q.x.l).pan).elim s (fun pan =>
      (s.loadProducts q pan (q.products s.mv ev)).settleTiles q.x (q.x.f.work.cells ev.cells) (q.tiles s.mv ev)
        ((s.loadProducts q pan (q.products s.mv ev)).countProducts q (q.products s.mv ev))
        (fun u => u.optOut q s.mv (q.pre s.mv (q.x.f.work.cells ev.cells)))) := by
  unfold State.optBody
  extract_lets m cells p ps ts
  have hts : q.tiles s.mv ev = ts := rfl
  rw [hts]
  cases q.x.passPannier false ts (s.cluster q.x.l).pan with
  | none => rfl
  | some pan => rfl

theorem exec_optimise_of_clear {s : State} {l idx : Nat} {ev : Ev} {x : Site} {q : OptSite} (hl : l < 128)
    (hx : s.todo l idx .optimise = some x) (hq : s.optSite x = some q) (hclear : s.clear x ev (q.accesses s.mem)) :
    exec (.optimise l idx ev) s = .next ((s.counted x ev (q.accesses s.mem)).optBody q ev) := by
  refine (onCluster_of_lt hl _).trans ?_
  rw [hx]
  dsimp only
  rw [hq]
  exact congrArg _ (State.guard_of_clear hclear _)

/-! ## DIGEST (R270) -/

/-- The sum of the chunk hashes of a layer's U tensors. -/
def digestSum (m : Cells) (ts : List Tensor) : Word := ts.foldl (fun acc t => acc + digestTensor m t) 0

/-- The step sum raised, the digest counts its beats and is done. -/
theorem State.digestBody_drl {s : State} {x : Site} (hl : x.l < s.clusters.length) (ts : List Tensor) :
    ((s.digestBody x ts).cluster x.l).drl = ({ (s.cluster x.l).drl with
      digest := (s.cluster x.l).drl.digest + digestSum s.mem ts } : Drl).setFlight x.f.idx
        (fun f => { f with work := .done, flags := f.flags.or {} }) := by
  unfold State.digestBody
  extract_lets sum raised beaten
  have hbeaten : (beaten.cluster x.l).drl = (raised.cluster x.l).drl :=
    foldl_keeps (fun u : State => (u.cluster x.l).drl) _ (fun u t => u.count_drl x.l _ x.l) ts raised
  have hlen : beaten.clusters.length = s.clusters.length :=
    (foldl_keeps (·.clusters.length) _ (fun u t => by simp) ts raised).trans (by simp [raised])
  rw [State.workDone, State.updDrl_drl _ _ _ (hlen ▸ hl), hbeaten, State.updDrl_drl _ _ _ hl]
  rfl

theorem sameClusters_digestBody (s : State) (x : Site) (ts : List Tensor) : SameClusters s (s.digestBody x ts) x.l := by
  intro k hk
  unfold State.digestBody
  extract_lets sum raised beaten
  have hbeaten : beaten.cluster k = raised.cluster k :=
    foldl_keeps (fun u : State => u.cluster k) _ (fun u t => sameClusters_updCluster u x.l _ k hk) ts raised
  exact ((State.updDrl_other _ _ _ _ hk).trans hbeaten).trans (State.updDrl_other _ _ _ _ hk)

theorem State.onlyCounted_digestBody (s : State) (x : Site) (ts : List Tensor) : s.OnlyCounted (s.digestBody x ts) := by
  have hbeats := State.OnlyCounted.foldl (g := fun (u : State) t => u.countBeats x.l (blocksOf t.rows t.cols) (digestStrokes t).1 (digestStrokes t).2)
    (fun _ _ => rfl) ts (s.updDrl x.l (fun d => { d with digest := d.digest + digestSum s.mem ts }))
  exact ((s.onlyCounted_updCluster x.l _).trans hbeats).trans rfl

theorem exec_digest_of_clear {s : State} {l idx : Nat} {ev : Ev} {x : Site} (hl : l < 128) (hx : s.todo l idx .digest = some x)
    (hclear : s.clear x ev (tensorAccesses x.uncommitted [])) :
    exec (.digest l idx ev) s = .next ((s.counted x ev (tensorAccesses x.uncommitted [])).digestBody x x.uncommitted) := by
  refine (onCluster_of_lt hl _).trans ?_
  rw [hx]
  exact congrArg _ (State.guard_of_clear hclear _)

/-! ## Charges leave the Derailleurs alone (R497 to R500) -/

section
variable {α : Type} (part : Cluster → α) (h : ∀ c due force til, part { c with migDue := due, migForce := force, til := til } = part c)
include h

theorem State.takeSpare_part (s : State) (l p q : Nat) (full : Bool) (k : Nat) :
    part ((s.takeSpare l p q full).cluster k) = part (s.cluster k) := by
  unfold State.takeSpare
  extract_lets side y t u v
  have hmoved : part (v.cluster k) = part (s.cluster k) := State.updCluster_part part (fun c => h c _ _ _) u l k
  cases full
  case false => exact (congrArg part (State.cluster_of_clusters (v.zeroStores_keeps l).2.2.1 k)).trans hmoved
  case true => exact hmoved

theorem State.wantRotation_part (s : State) (l p k : Nat) : part ((s.wantRotation l p).cluster k) = part (s.cluster k) :=
  State.updCluster_part part (fun c => h c true c.migForce c.til) s l k

theorem State.rotation_part (s : State) (p k : Nat) : part ((s.rotation p).cluster k) = part (s.cluster k) := by
  unfold State.rotation
  split
  · rfl
  · split
    · split
      · exact State.wantRotation_part part h s _ p k
      · exact congrArg part (State.cluster_of_clusters (by simp) k)
    · split
      · exact State.takeSpare_part part h s _ p _ false k
      · exact State.wantRotation_part part h s _ p k

/-- A charge to a cluster may rotate it or raise its rail. -/
theorem State.suspectRows_cluster_part (s : State) (p k : Nat) : part ((s.suspectRows p none).cluster k) = part (s.cluster k) := by
  unfold State.suspectRows
  extract_lets st perm n tilePerm
  rw [if_neg (by simp [tilePerm])]
  split
  · exact State.rotation_part part h s p k
  · split
    · rfl
    · rfl

theorem State.chargeCluster_part (s : State) (l cause k : Nat) : part ((s.chargeCluster l cause).cluster k) = part (s.cluster k) := by
  unfold State.chargeCluster
  split
  · unfold State.charge
    extract_lets t
    split
    · exact State.suspectRows_cluster_part part h t _ k
    · rfl
  · rfl

end

/-! ## The working-copy checker (R263) -/

theorem exec_wcCheck {l : Nat} (hl : l < 128) (idx row col : Nat) (seen : Option Nat) (s : State) :
    exec (.wcCheck l idx row col seen) s = .next (s.checkCopy l idx row col seen) := onCluster_of_lt hl _

section
variable {s : State} {l idx row col : Nat} {j : Job} {c w : Tensor} (hcopy : s.workingCopy l idx = some (j, c, w))
  (hrate : fld s.hub.optCfg 2 0 ≠ 0) (hidle : s.fetchIdle l = true) (hrow : row < w.lrows) (hcol : col < w.lcols)
include hcopy hrate hidle hrow hcol

/-- A sample that is taken counts itself; a code that differs is a mismatch. -/
theorem State.checkCopy_of_sample (seen : Option Nat) : s.checkCopy l idx row col seen =
    if seen.getD (w.codeAt s.mem row col) = workingCode s.mv c w row col then s.count l [(ctChecker, 1)]
    else (s.count l [(ctChecker, 1)]).wcMismatch l j := by
  rw [State.checkCopy, hcopy]
  exact if_neg (by simp [hrate, hidle, hrow, hcol])

end

theorem State.updRec_wcMis (s : State) (j : Job) (f : StepRec → StepRec) : (s.updRec j f).hub.wcMis = s.hub.wcMis := by
  unfold State.updRec
  split <;> simp

theorem State.wcMismatch_wcMis (s : State) (l : Nat) (j : Job) : (s.wcMismatch l j).hub.wcMis = satAdd 32 s.hub.wcMis 1 := by
  simp [State.wcMismatch, State.updRec_wcMis]

/-- A mismatch marks the cluster's vote; its Derailleur stays as it is otherwise. -/
theorem State.wcMismatch_drl {s : State} {l : Nat} (hl : l < s.clusters.length) (j : Job) :
    ((s.wcMismatch l j).cluster l).drl = { (s.cluster l).drl with mismatch := true } := by
  unfold State.wcMismatch
  extract_lets h t u
  have hclusters : u.clusters = s.clusters := (t.updRec_keeps j _).2.2.1
  rw [State.chargeCluster_part (·.drl) (fun _ _ _ _ => rfl), State.updDrl_drl _ _ _ (hclusters ▸ hl), State.cluster_of_clusters hclusters]

/-! ## The statement -/

/-- Settles O54: an update goes through the guard's counts and the Pannier as a product does; a digest raises the sum and leaves memory
alone; and a mismatch reaches OPT_STATUS and the vote, whatever its charge to the cluster brings with it. -/
theorem updatesDigestsAndChecksRun : Obligations.UpdatesDigestsAndChecksRun := by
  constructor
  · intro s l idx ev x q hl hlen
    have hin : l < s.clusters.length := hlen ▸ hl
    refine ⟨fun hx hq hclear => ?optimise, fun hx hclear => ?digest⟩
    case optimise =>
      obtain ⟨-, rfl, -, -⟩ := State.todo_spec hx
      obtain rfl := State.optSite_site hq
      have hexec := exec_optimise_of_clear hl hx hq hclear
      generalize q.accesses s.mem = as at hexec ⊢
      have hmv : (s.counted q.x ev as).mv = s.mv := (s.onlyCounted_counted q.x ev as).mv
      have hpan : ((s.counted q.x ev as).cluster q.x.l).pan = (s.cluster q.x.l).pan := s.counted_part (·.pan) (fun _ _ => rfl) q.x ev as q.x.l
      intro p ts ws
      have hts : q.tiles (s.counted q.x ev as).mv ev = ts := 
        (congrArg (fun m => q.tiles m ev) hmv).trans (q.tiles_eq s.mv ev)
      refine ⟨fun hnone => ?waits, fun hsome hpass => ?runs⟩
      case waits => rw [hexec, State.optBody_eq, hts, hpan, hnone, Option.elim_none]
      case runs =>
        obtain ⟨pan, hsome⟩ := Option.isSome_iff_exists.1 hsome
        refine ⟨_, hexec, ?_⟩
        rw [State.optBody_eq, hts, hpan, hsome, Option.elim_some, State.settleTiles_of_allPass _ _ _ _ hpass, hmv]
        exact (((works_counted s q.x ev as).thenQuiet (works_loadProducts _ q pan _)).thenQuiet (works_countProducts _ q _)).optOut hin s.mv p
    case digest =>
      obtain ⟨-, rfl, -, -⟩ := State.todo_spec hx
      refine ⟨_, exec_digest_of_clear hl hx hclear, ?_⟩
      generalize tensorAccesses x.uncommitted [] = as
      have hworks := works_counted s x ev as
      have honly := s.onlyCounted_counted x ev as
      have hsame : ((s.counted x ev as).cluster x.l).drl = (s.cluster x.l).drl := s.counted_part (·.drl) (fun _ _ => rfl) x ev as x.l
      have hdrl := State.digestBody_drl (hworks.size ▸ hin) x.uncommitted
      rw [hsame, honly.mem] at hdrl
      refine ⟨?_, congrArg (·.digest) hdrl, congrArg (·.ctrs) hdrl, hworks.others.trans (sameClusters_digestBody _ x _),
        honly.trans (State.onlyCounted_digestBody _ x _)⟩
      intro f hf hidx
      rw [hdrl] at hf
      exact Drl.setFlight_work hf hidx fun _ => rfl
  · intro s l idx row col seen j c w hl hlen hcopy hrate hidle hrow hcol
    have hin : l < s.clusters.length := hlen ▸ hl
    have hexec := (exec_wcCheck hl idx row col seen s).trans (congrArg _ (State.checkCopy_of_sample hcopy hrate hidle hrow hcol seen))
    refine ⟨fun hagree => hexec.trans (congrArg _ (if_pos hagree)), fun hdiffer => ⟨_, hexec.trans (congrArg _ (if_neg hdiffer)), ?_⟩⟩
    have hdrl := State.wcMismatch_drl (s := s.count l [(ctChecker, 1)]) (by simpa using hin) j
    rw [State.count_drl] at hdrl
    exact ⟨State.wcMismatch_wcMis .., congrArg (·.mismatch) hdrl, congrArg (·.ctrs) hdrl, by simp⟩

end Sys2Proof.Machine
end

section
/-!
Proof, the entries of the Chainline alone and of the fetch engine that store what they compute: CHAIN (R187, R201), REDUCE (R207), COPY
(R383), STREAM and RELEASE (R381).
-/

namespace Sys2Proof.Machine

/-! ## How such an entry ends -/

/-- Outputs stored, their units' work counted and traced: the entry is done. -/
theorem Works.outputsDone {s t : State} {x : Site} (h : Works s t x []) (hl : x.l < s.clusters.length) (outs : List (Tensor × Written))
    (cs : List (Nat × Nat)) (op : Opcode) (step event unit lt : Nat) (detail : Word) (fl : Flags) :
    let ws := outs.flatMap (fun o => o.2.writes)
    WorkDone s ((((t.putAll x.l outs).count x.l cs).trace x.l x.f op step event unit lt detail).workDone x fl) x
      (Cells.writeAll s.mem ws) (rangesOf ws) :=
  ((h.thenStore ((works_putAll t x outs).thenQuiet (works_count _ x cs))).thenQuiet (works_trace _ x op step event unit lt detail)).workDone hl fl

/-- One output stored is all that is stored. -/
theorem writes_singleton (d : Tensor) (w : Written) : [(d, w)].flatMap (fun o => o.2.writes) = w.writes := List.append_nil _

/-! ## CHAIN (R187, R191 to R206) -/

/-- What the chain of an entry makes of OPA. -/
def State.chainOuts (s : State) (x : Site) (ch : Chain) (a d : Tensor) (b : Option Tensor) : List (Tensor × Written) :=
  (applyChain s.mv x.job x.e.rnd (BitVec.ofNat 64 (s.stepOf x.key)) (some ch) d b (fun r c => a.f32 s.mv r c)).outs

/-- Its accesses: OPA, OPB where it has one, and what the chain names. -/
def Site.chainAccesses (x : Site) (ch : Chain) (a d : Tensor) : List Access :=
  tensorAccesses (a :: (x.opb.toList ++ (x.job.chainTensors (some ch)).1)) (d :: (x.job.chainTensors (some ch)).2)

section
variable {s t : State} {x : Site} {a d : Tensor}

theorem State.OnlyCounted.chainOuts (h : s.OnlyCounted t) (ch : Chain) (b : Option Tensor) :
    t.chainOuts x ch a d b = s.chainOuts x ch a d b := by
  rw [State.chainOuts, h.mv, h.stepOf, State.chainOuts]

theorem Works.chainBody (h : Works s t x []) (hc : s.OnlyCounted t) (hl : x.l < s.clusters.length) (ch : Chain) (b : Option Tensor) :
    let ws := (s.chainOuts x ch a d b).flatMap (fun o => o.2.writes)
    WorkDone s (t.chainBody x ch a d b) x (Cells.writeAll s.mem ws) (rangesOf ws) := by
  rw [← hc.chainOuts]
  exact h.outputsDone hl (t.chainOuts x ch a d b) ..

theorem exec_chain_of_clear {l idx : Nat} {ev : Ev} {ch : Chain} (hl : l < 128) (hx : s.todo l idx .chain = some x) (hsol : x.solOp = none)
    (ha : x.opa = some a) (hd : x.opd = some d) (hch : x.job.chain x.e = some ch) (hclear : s.clear x ev (x.chainAccesses ch a d)) :
    exec (.chain l idx ev) s = .next ((s.counted x ev (x.chainAccesses ch a d)).chainBody x ch a d x.opb) := by
  refine (onCluster_of_lt hl _).trans (congrArg _ ?_)
  rw [hx]
  dsimp only
  rw [hsol]
  dsimp only
  rw [State.runChainEntry, ha, hd, hch]
  exact State.guard_of_clear hclear _

/-! ## REDUCE (R207, R412) -/

/-- The results of a REDUCE, one for each line, as OPD holds them. -/
def State.reduceOut (s : State) (r : RedDesc) (a d : Tensor) : Written :=
  writeTensor d 0 (fun _ _ => .rne) (fun i j => (redValues s.mv a r).getD (if r.axis = 1 then j else i) (.fin false 0 0))

theorem State.OnlyCounted.reduceOut (h : s.OnlyCounted t) (r : RedDesc) : t.reduceOut r a d = s.reduceOut r a d := by
  rw [State.reduceOut, h.mv, State.reduceOut]

theorem Works.reduceBody (h : Works s t x []) (hc : s.OnlyCounted t) (hl : x.l < s.clusters.length) (r : RedDesc) :
    WorkDone s (t.reduceBody x r a d) x (Cells.writeAll s.mem (s.reduceOut r a d).writes) (rangesOf (s.reduceOut r a d).writes) := by
  rw [← hc.reduceOut, ← writes_singleton d]
  exact h.outputsDone hl [(d, t.reduceOut r a d)] ..

theorem exec_reduce_of_clear {l idx : Nat} {ev : Ev} {r : RedDesc} (hl : l < 128) (hx : s.todo l idx .reduce = some x) (ha : x.opa = some a)
    (hd : x.opd = some d) (hr : x.job.reds[x.e.aux]? = some r) (hclear : s.clear x ev (tensorAccesses [a] [d])) :
    exec (.reduce l idx ev) s = .next ((s.counted x ev (tensorAccesses [a] [d])).reduceBody x r a d) := by
  refine (onCluster_of_lt hl _).trans (congrArg _ ?_)
  rw [hx]
  dsimp only
  rw [State.runReduce, ha, hd, hr]
  exact State.guard_of_clear hclear _

/-! ## COPY (R383) -/

/-- The converted elements as OPD holds them. -/
def State.copyOut (s : State) (x : Site) (a d : Tensor) : Written :=
  writeTensor d (d.scaleOf s.mem) (sinkRnd x.e.rnd (s.drawIn x 0) 0 d) (fun r k => a.value s.mv r k)

theorem State.OnlyCounted.drawIn (h : s.OnlyCounted t) (inst : Nat) : t.drawIn x inst = s.drawIn x inst := by
  rw [State.drawIn, h.stepOf, State.drawIn]

theorem State.OnlyCounted.copyOut (h : s.OnlyCounted t) : t.copyOut x a d = s.copyOut x a d := by
  rw [State.copyOut, h.mem, h.mv, h.drawIn, State.copyOut]

theorem Works.copyBody (h : Works s t x []) (hc : s.OnlyCounted t) (hl : x.l < s.clusters.length) :
    WorkDone s (t.copyBody x a d) x (Cells.writeAll s.mem (s.copyOut x a d).writes) (rangesOf (s.copyOut x a d).writes) := by
  rw [← hc.copyOut, ← writes_singleton d]
  exact h.outputsDone hl [(d, t.copyOut x a d)] ..

theorem exec_copy_of_clear {l idx : Nat} {ev : Ev} (hl : l < 128) (hx : s.todo l idx .copy = some x) (ha : x.opa = some a)
    (hd : x.opd = some d) (hclear : s.clear x ev (tensorAccesses [a] [d])) :
    exec (.copy l idx ev) s = .next ((s.counted x ev (tensorAccesses [a] [d])).copyBody x a d) := by
  refine (onCluster_of_lt hl _).trans (congrArg _ ?_)
  rw [hx]
  dsimp only
  rw [State.runCopy, ha, hd]
  exact State.guard_of_clear hclear _

end

/-! ## STREAM and RELEASE (R381, R383) -/

/-- One extent copied into the slot: memory as the next one finds it. -/
def copyExtent (slot : Nat) (m : Cells) (e : Extent) : Cells := Cells.write m (slot + e.dst) (Cells.read m e.src e.len)

/-- What a stream writes: each extent as memory holds it once the extents before it have been copied. -/
def streamWrites (slot : Nat) : Cells → List Extent → List (Nat × List Byte)
  | _, [] => []
  | m, e :: es => (slot + e.dst, Cells.read m e.src e.len) :: streamWrites slot (copyExtent slot m e) es

theorem writeAll_streamWrites (slot : Nat) (m : Cells) (es : List Extent) :
    Cells.writeAll m (streamWrites slot m es) = es.foldl (copyExtent slot) m := by
  induction es generalizing m with
  | nil => rfl
  | cons e es ih => exact ih _

theorem rangesOf_streamWrites (slot : Nat) (m : Cells) (es : List Extent) :
    rangesOf (streamWrites slot m es) = es.map (fun e => (slot + e.dst, e.len)) := by
  induction es generalizing m with
  | nil => rfl
  | cons e es ih =>
    change (slot + e.dst, (Cells.read m e.src e.len).length) :: rangesOf (streamWrites slot (copyExtent slot m e) es) = _
    rw [Cells.read_length, ih, List.map_cons]

/-- Copied bytes take the scale exponents of their elements with them (R52). -/
theorem works_retag (s : State) (x : Site) (src dst n : Nat) : Works s (s.retag src dst n) x [] where
  stores _ := rfl
  waits _ := rfl
  bytes _ _ := rfl
  size := rfl
  others _ _ := rfl
  own := Cluster.workedOn_refl _
  rest := rfl

/-- The state once an extent has been copied into the slot. -/
def State.copyExtent (slot : Nat) (s : State) (e : Extent) : State :=
  (s.store [(slot + e.dst, Cells.read s.mem e.src e.len)]).retag e.src (slot + e.dst) e.len

theorem works_copyExtents (s : State) (x : Site) (slot : Nat) (es : List Extent) :
    Works s (es.foldl (State.copyExtent slot) s) x (streamWrites slot s.mem es) := by
  induction es generalizing s with
  | nil => exact works_refl s x
  | cons e es ih => exact ((works_store s x _).thenQuiet (works_retag _ x _ _ _)).trans (ih _)

theorem Works.streamBody {s t : State} {x : Site} (h : Works s t x []) (hmem : t.mem = s.mem) (hl : x.l < s.clusters.length) (slot : Nat)
    (es : List Extent) :
    WorkDone s (t.streamBody x slot es) x (es.foldl (copyExtent slot) s.mem) (es.map (fun e => (slot + e.dst, e.len))) := by
  rw [← writeAll_streamWrites, ← rangesOf_streamWrites slot s.mem]
  have hcopied : Works s (es.foldl (State.copyExtent slot) t) x (streamWrites slot s.mem es) := hmem ▸ h.thenStore (works_copyExtents t x slot es)
  exact ((hcopied.thenQuiet (works_count _ x _)).thenQuiet (works_trace _ x _ _ _ _ _ _)).workDone hl {}

/-- Accesses of a STREAM: the entries of its block list that it takes, each extent's source, and its place in the slot. -/
def streamAccesses (list next slot : Nat) (es : List Extent) : List Access :=
  (if next = 0 then [] else [⟨list, 16 * next, false⟩]) ++ es.flatMap (fun e => [⟨e.src, e.len, false⟩, ⟨slot + e.dst, e.len, true⟩])

theorem exec_stream_of_clear {s : State} {l idx w sl src next list view : Nat} {ev : Ev} {x : Site} {r : Region} (hl : l < 128)
    (hx : s.todo l idx .stream = some x) (hst : x.job.streams[x.e.aux]? = some (.stream w sl src next list view))
    (hr : x.job.regions[w]? = some r) {slot : Nat} {es : List Extent} (hslot : r.base + sl * r.slotBytes = slot)
    (hes : streamExtents s.mem list next r.slotBytes = es) (hclear : s.clear x ev (streamAccesses list next slot es)) :
    exec (.stream l idx ev) s = .next ((s.counted x ev (streamAccesses list next slot es)).streamBody x slot es) := by
  subst hslot hes
  refine (onCluster_of_lt hl _).trans (congrArg _ ?_)
  rw [hx]
  dsimp only
  rw [State.runStream, hst]
  dsimp only
  rw [hr]
  exact State.guard_of_clear hclear _

theorem exec_release {s : State} {l idx : Nat} {x : Site} (hl : l < 128) (hx : s.todo l idx .release = some x) :
    exec (.release l idx) s = .next (s.workDone x) :=
  (onCluster_of_lt hl _).trans (by rw [hx])

end Sys2Proof.Machine
end

section
/-!
Proof, SEND: the pieces that its rows are cut into (R379, R384, R401), and the requests that carry them while the cluster has free tags.
-/

namespace Sys2Proof.Machine

/-! ## A list cut into pieces -/

theorem chunksAux_flatten {α : Type} {n : Nat} (hn : 0 < n) (fuel : Nat) (l : List α) (h : l.length ≤ fuel) :
    (chunksAux n fuel l).flatten = l := by
  induction fuel generalizing l with
  | zero =>
    rw [List.eq_nil_of_length_eq_zero (Nat.le_zero.1 h)]
    rfl
  | succ fuel ih =>
    cases l with
    | nil => rfl
    | cons b l =>
      have hshort : ((b :: l).drop n).length ≤ fuel := by
        rw [List.length_drop]
        omega
      change ((b :: l).take n :: chunksAux n fuel ((b :: l).drop n)).flatten = _
      rw [List.flatten_cons, ih _ hshort, List.take_append_drop]

/-- The pieces of a list in order are the list. -/
theorem chunks_flatten {α : Type} {n : Nat} (hn : 0 < n) (l : List α) : (chunks n l).flatten = l := chunksAux_flatten hn l.length l le_rfl

theorem length_le_of_mem_chunksAux {α : Type} {n fuel : Nat} {l c : List α} (h : c ∈ chunksAux n fuel l) : c.length ≤ n := by
  induction fuel generalizing l with
  | zero => cases h
  | succ fuel ih =>
    unfold chunksAux at h
    split at h
    · cases h
    · rcases List.mem_cons.1 h with rfl | h
      · exact List.length_take_le n l
      · exact ih h

/-! ## Rows cut into pieces (R384, R401) -/

theorem SendPiece.le_of_mem_cutRuns {runs : List (Nat × List Byte)} {p : SendPiece} (h : p ∈ cutRuns runs) :
    p.bytes.length ≤ 4096 ∧ p.own = p.bytes.length := by
  obtain ⟨q, -, hp⟩ := List.mem_flatMap.1 h
  obtain ⟨c, hc, rfl⟩ := List.mem_map.1 hp
  exact ⟨length_le_of_mem_chunksAux (List.fst_mem_of_mem_zipIdx hc), rfl⟩

/-- Bytes that pieces send for the SEND that cut them. -/
def ownBytes (ps : List SendPiece) : List Byte := ps.flatMap (fun p => p.bytes.take p.own)

theorem ownBytes_append (ps qs : List SendPiece) : ownBytes (ps ++ qs) = ownBytes ps ++ ownBytes qs := List.flatMap_append

/-- Cut runs are the runs, in order. -/
theorem ownBytes_cutRuns (runs : List (Nat × List Byte)) : ownBytes (cutRuns runs) = runs.flatMap (·.2) := by
  rw [ownBytes, cutRuns, List.flatMap_assoc]
  refine congrArg (fun f => List.flatMap f runs) (funext fun q => ?_)
  simp only [List.flatMap_map, List.take_length]
  rw [List.flatMap_def, List.zipIdx_map_fst, chunks_flatten (by decide)]

/-- Rows joined into runs are the rows' bytes, in order. -/
theorem sendRuns_bytes (m : Cells) (merge : Bool) (rows : List (Nat × Nat × Nat)) :
    (sendRuns m merge rows).flatMap (·.2) = rows.flatMap (fun r => Cells.read m r.1 r.2.2) := by
  induction rows with
  | nil => rfl
  | cons r rs ih =>
    rw [List.flatMap_cons, ← ih, sendRuns]
    cases sendRuns m merge rs with
    | nil => rfl
    | cons q qs =>
      dsimp only
      split
      · simp only [List.flatMap_cons, List.append_assoc]
      · rfl

/-- Later SENDs fill no more than the room that is left. -/
theorem State.sendFollow_length (s : State) (l : Nat) (bad : List Nat) (fs : List Flight) (src dst room : Nat) :
    ((s.sendFollow l bad fs src dst room).flatMap (·.2)).length ≤ room := by
  induction fs generalizing src dst room with
  | nil => exact Nat.zero_le _
  | cons f fs ih =>
    unfold State.sendFollow
    split
    · exact Nat.zero_le _
    · split
      · exact ih ..
      · split
        · exact ih ..
        · split
          · exact Nat.zero_le _
          · extract_lets run bs e
            have hbs : bs.length ≤ room := List.length_take_le ..
            rw [List.flatMap_cons, List.length_append]
            split
            · have hrest := ih (e.1 + e.2.2) (e.2.1 + e.2.2) (room - bs.length)
              dsimp only
              omega
            · exact hbs

/-- The pieces of a SEND are its cut runs; but the last may carry bytes of later SENDs, in the room that its own leave. -/
theorem State.sendPieces_cases (s : State) (x : Site) (bad : List Nat) {ps : List SendPiece}
    (hps : cutRuns (sendRuns s.mem s.merges (rowsAfter x.f.sent x.sendRows)) = ps) :
    s.sendPieces x bad = ps ∨ ∃ p more also, p ∈ ps ∧ ps = ps.dropLast ++ [p] ∧ more.length ≤ 4096 - p.bytes.length ∧
      s.sendPieces x bad = ps.dropLast ++ [⟨p.dst, p.bytes ++ more, p.own, also⟩] := by
  subst hps
  unfold State.sendPieces
  extract_lets rows ps
  split
  · rename_i p r hp hr
    refine .inr ⟨p, _, _, List.mem_of_getLast? hp, (List.dropLast_append_getLast? p hp).symm, ?_, rfl⟩
    split
    · exact s.sendFollow_length ..
    · exact Nat.zero_le _
  · exact .inl rfl

section
variable (s : State) (x : Site) (bad : List Nat)

/-- The pieces carry the rows that are left, in order. -/
theorem State.sendPieces_own : ownBytes (s.sendPieces x bad) =
    (rowsAfter x.f.sent x.sendRows).flatMap (fun r => Cells.read s.mem r.1 r.2.2) := by
  rw [← sendRuns_bytes s.mem s.merges, ← ownBytes_cutRuns]
  generalize hps : cutRuns (sendRuns s.mem s.merges (rowsAfter x.f.sent x.sendRows)) = ps
  rcases s.sendPieces_cases x bad hps with h | ⟨p, more, also, hp, hlast, -, h⟩
  · rw [h]
  · obtain ⟨-, hown⟩ := SendPiece.le_of_mem_cutRuns (hps ▸ hp)
    rw [h, hlast, List.dropLast_concat, ownBytes_append, ownBytes_append]
    simp [ownBytes, hown]

theorem State.sendPieces_length {p : SendPiece} (h : p ∈ s.sendPieces x bad) : p.bytes.length ≤ 4096 := by
  have hcut {q : SendPiece} (hq : q ∈ cutRuns (sendRuns s.mem s.merges (rowsAfter x.f.sent x.sendRows))) : q.bytes.length ≤ 4096 :=
    (SendPiece.le_of_mem_cutRuns hq).1
  rcases s.sendPieces_cases x bad rfl with hall | ⟨q, more, also, hq, -, hmore, hlast⟩
  · exact hcut (hall ▸ h)
  · rw [hlast] at h
    rcases List.mem_append.1 h with h | h
    · exact hcut (List.mem_of_mem_dropLast h)
    · obtain rfl := List.mem_singleton.1 h
      have hroom := hcut hq
      simp only [List.length_append]
      omega

end

/-! ## What a SEND reads is as it was before the guard counted -/

section
variable {s t : State} (h : s.OnlyCounted t)
include h

theorem State.OnlyCounted.merges : t.merges = s.merges := by rw [State.merges, h, State.merges]

theorem State.OnlyCounted.reaches (as : List Access) : t.reaches as = s.reaches as := by
  unfold State.OnlyCounted at h
  rw [h]
  rfl

theorem State.OnlyCounted.firstFault (bad : List Nat) (l : Option Nat) (as : List Access) :
    Machine.firstFault t.pages t.poison bad l as = Machine.firstFault s.pages s.poison bad l as := by
  unfold State.OnlyCounted at h
  rw [h]
  induction as with
  | nil => rfl
  | cons a as ih =>
    simp only [Machine.firstFault, ih]
    rfl

variable (hdrl : ∀ k, (t.cluster k).drl = (s.cluster k).drl)
include hdrl

theorem State.OnlyCounted.site (l idx : Nat) : t.site l idx = s.site l idx := by
  have hjobs : t.jobs = s.jobs := by rw [h]
  simp only [State.site, State.jobOf, State.job, hdrl, hjobs]

theorem State.OnlyCounted.sendFollow (l : Nat) (bad : List Nat) (fs : List Flight) (src dst room : Nat) :
    t.sendFollow l bad fs src dst room = s.sendFollow l bad fs src dst room := by
  induction fs generalizing src dst room with
  | nil => rfl
  | cons f fs ih => simp only [State.sendFollow, h.site hdrl, h.firstFault, h.reaches, h.mem, ih]

theorem State.OnlyCounted.sendPieces (x : Site) (bad : List Nat) : t.sendPieces x bad = s.sendPieces x bad := by
  simp only [State.sendPieces, h.mem, h.merges, hdrl, h.sendFollow hdrl]

end

/-! ## Requests (R379, R401) -/

/-- The WRITE that carries a piece. -/
def SendPiece.body (p : SendPiece) : Body := .write (p.dst % 2 ^ 52) p.bytes

/-- A SEND has sent pieces: they wait for their acknowledges behind the cluster's other requests, and nothing else changes but the
cluster's flights and counters, and what the fabric holds. -/
structure Sent (s t : State) (x : Site) (ps : List SendPiece) : Prop where
  reqs : (t.cluster x.l).drl.reqs.map (fun r => r.msg.body) = (s.cluster x.l).drl.reqs.map (fun r => r.msg.body) ++ ps.map SendPiece.body
  ctrs : (t.cluster x.l).drl.ctrs = (s.cluster x.l).drl.ctrs
  head : (t.cluster x.l).drl.head = (s.cluster x.l).drl.head
  size : t.clusters.length = s.clusters.length
  others : SameClusters s t x.l
  rest : t = { s with clusters := t.clusters, fab := t.fab, ctr := t.ctr }

theorem sent_refl (s : State) (x : Site) : Sent s s x [] := ⟨(List.append_nil _).symm, rfl, rfl, rfl, fun _ _ => rfl, rfl⟩

theorem Sent.trans {s t u : State} {x : Site} {ps qs : List SendPiece} (h : Sent s t x ps) (h' : Sent t u x qs) : Sent s u x (ps ++ qs) where
  reqs := by rw [h'.reqs, h.reqs, List.map_append, List.append_assoc]
  ctrs := h'.ctrs.trans h.ctrs
  head := h'.head.trans h.head
  size := h'.size.trans h.size
  others := h.others.trans h'.others
  rest := h'.rest.trans (by rw [h.rest])

/-- What sends nothing adds no pieces. -/
theorem Sent.thenQuiet {s t u : State} {x : Site} {ps : List SendPiece} (h : Sent s t x ps) (h' : Sent t u x []) : Sent s u x ps := by
  simpa using h.trans h'

/-- What is noted in a flight sends nothing. -/
theorem sent_setFlight (s : State) (x : Site) (hl : x.l < s.clusters.length) (idx : Nat) (g : Flight → Flight) :
    Sent s (s.updDrl x.l (fun d => d.setFlight idx g)) x [] where
  reqs := by
    rw [State.updDrl_drl _ _ _ hl]
    exact (List.append_nil _).symm
  ctrs := by
    rw [State.updDrl_drl _ _ _ hl]
    rfl
  head := by
    rw [State.updDrl_drl _ _ _ hl]
    rfl
  size := s.updDrl_length x.l _
  others := sameClusters_updCluster s x.l _
  rest := rfl

/-- The bytes that a request carries are noted in the flights that they are of. -/
def State.noteSent (s : State) (l : Nat) (qs : List (Nat × Nat)) : State :=
  qs.foldl (fun (s : State) q => s.updDrl l (fun d => d.setFlight q.1 (fun f => { f with sent := f.sent + q.2 }))) s

theorem sent_noteSent (s : State) (x : Site) (hl : x.l < s.clusters.length) (qs : List (Nat × Nat)) : Sent s (s.noteSent x.l qs) x [] := by
  induction qs generalizing s with
  | nil => exact sent_refl s x
  | cons q qs ih =>
    have hq := sent_setFlight s x hl q.1 (fun f => { f with sent := f.sent + q.2 })
    exact hq.trans (ih _ (hq.size ▸ hl))

/-- The request of an entry that carries a piece. -/
def State.sendPiece (s : State) (x : Site) (p : SendPiece) : Option State :=
  s.request x.l (some x.f.idx) (p.dst / 2 ^ 52) x.key.ctx p.body (p.also.map (·.1))

theorem State.freeTag_of_sendPiece_none {s : State} {x : Site} {p : SendPiece} (h : s.sendPiece x p = none) : s.freeTag x.l = none := by
  unfold State.sendPiece State.request at h
  split at h
  · assumption
  · cases h

theorem sent_sendPiece {s t : State} {x : Site} {p : SendPiece} (hl : x.l < s.clusters.length) (h : s.sendPiece x p = some t) :
    Sent s t x [p] := by
  unfold State.sendPiece State.request at h
  split at h
  · cases h
  · rename_i tag htag
    extract_lets m u at h
    obtain rfl := Option.some.inj h
    have hdrl : (((u.count x.l [(ctMsgSent, 1), (ctBytesSent, p.body.payBytes)]).send m).cluster x.l).drl =
        { (s.cluster x.l).drl with reqs := (s.cluster x.l).drl.reqs ++ [⟨tag, some x.f.idx, m, false, p.also.map (·.1)⟩] } := by
      rw [State.send_cluster, State.count_drl, State.updDrl_drl _ _ _ hl]
    refine ⟨?_, by rw [hdrl], by rw [hdrl], by simp [u], fun k hk => ?_, rfl⟩
    · rw [hdrl]
      exact List.map_append
    · rw [State.send_cluster, State.count, State.cluster_updCluster_other _ _ _ _ hk, State.updDrl_other _ _ _ _ hk]

theorem State.sendSome_cons (s : State) (x : Site) (p : SendPiece) (ps : List SendPiece) : s.sendSome x (p :: ps) =
    match s.sendPiece x p with
    | some u => (u.noteSent x.l ((x.f.idx, p.own) :: p.also)).sendSome x ps
    | none => (s, false) := rfl

/-- The first `n` pieces are sent: all of them, or until no tag is free. -/
theorem State.sendSome_spec (s : State) (x : Site) (hl : x.l < s.clusters.length) (ps : List SendPiece) :
    ∃ n, n ≤ ps.length ∧ Sent s (s.sendSome x ps).1 x (ps.take n) ∧
      (n < ps.length → (s.sendSome x ps).2 = false ∧ (s.sendSome x ps).1.freeTag x.l = none) ∧
      (n = ps.length → (s.sendSome x ps).2 = true) := by
  induction ps generalizing s with
  | nil => exact ⟨0, le_rfl, sent_refl s x, fun h => absurd h (Nat.lt_irrefl 0), fun _ => rfl⟩
  | cons p ps ih =>
    rw [State.sendSome_cons]
    cases h : s.sendPiece x p with
    | none => exact ⟨0, Nat.zero_le _, sent_refl s x, fun _ => ⟨rfl, State.freeTag_of_sendPiece_none h⟩, fun h => nomatch h⟩
    | some u =>
      have hp := sent_sendPiece hl h
      have hnoted : Sent s (u.noteSent x.l ((x.f.idx, p.own) :: p.also)) x [p] := hp.thenQuiet (sent_noteSent u x (hp.size ▸ hl) _)
      obtain ⟨n, hn, hsent, hsome, hall⟩ := ih _ (hnoted.size ▸ hl)
      exact ⟨n + 1, Nat.succ_le_succ hn, hnoted.trans hsent, fun h => hsome (Nat.lt_of_succ_lt_succ h), fun h => hall (Nat.succ.inj h)⟩

theorem State.setWork_work {s : State} {x : Site} (hl : x.l < s.clusters.length) {w : Work} {f : Flight}
    (hf : f ∈ ((s.setWork x w).cluster x.l).drl.flights) (hidx : f.idx = x.f.idx) : f.work = w := by
  rw [State.setWork, State.updDrl_drl _ _ _ hl] at hf
  exact Drl.setFlight_work hf hidx fun _ => rfl

/-- A SEND sends its first `n` pieces; with the last of them it waits for its acknowledges. -/
theorem State.sendBody_spec (s : State) (x : Site) (bad : List Nat) (hl : x.l < s.clusters.length) :
    ∃ n, n ≤ (s.sendPieces x bad).length ∧ Sent s (s.sendBody x bad) x ((s.sendPieces x bad).take n) ∧
      (n < (s.sendPieces x bad).length → (s.sendBody x bad).freeTag x.l = none) ∧
      (n = (s.sendPieces x bad).length → ∀ f ∈ ((s.sendBody x bad).cluster x.l).drl.flights, f.idx = x.f.idx → f.work = .requests) := by
  obtain ⟨n, hn, hsent, hsome, hall⟩ := s.sendSome_spec x hl (s.sendPieces x bad)
  rw [State.sendBody]
  rcases Nat.lt_or_eq_of_le hn with hlt | heq
  · obtain ⟨hleft, htag⟩ := hsome hlt
    rw [hleft]
    exact ⟨n, hn, hsent, fun _ => htag, fun h => absurd h hlt.ne⟩
  · rw [hall heq]
    have hsize := hsent.size ▸ hl
    exact ⟨n, hn, hsent.thenQuiet (sent_setFlight _ x hsize x.f.idx _), fun h => absurd heq h.ne, fun _ f hf => State.setWork_work hsize hf⟩

theorem exec_send_of_clear {s : State} {l idx : Nat} {ev : Ev} {x : Site} {a : Tensor} {nrows dst stride : Nat} (hl : l < 128)
    (hx : s.todo l idx .send = some x) (ha : x.opa = some a) (hst : x.job.streams[x.e.aux]? = some (.transfer nrows dst stride))
    (hclear : s.clear x ev x.sendReads) : exec (.send l idx ev) s = .next ((s.counted x ev x.sendReads).sendBody x ev.bad) := by
  refine (onCluster_of_lt hl _).trans (congrArg _ ?_)
  rw [hx]
  dsimp only
  rw [State.runSend, ha, hst]
  exact State.guard_of_clear hclear _

theorem Site.sendRows_of_transfer {x : Site} {a : Tensor} {nrows dst stride : Nat} (ha : x.opa = some a)
    (hst : x.job.streams[x.e.aux]? = some (.transfer nrows dst stride)) :
    x.sendRows = (List.range nrows).map (fun r => (a.base + r * a.stride, dst + r * stride, a.rowBytes)) := by
  rw [Site.sendRows, ha, hst]

/-! ## The statement -/

/-- Settles O49: an entry that stores what it computes reads memory as it was before the guard counted, and ends as `Works.outputsDone`
says; a SEND's pieces are its rows in order, of which it sends as many as the cluster has tags for. -/
theorem vectorFetchAndSendEntriesRun : Obligations.VectorFetchAndSendEntriesRun := by
  constructor
  · intro s l idx ev x hl hlen
    have hin {op : Opcode} (hx : s.todo l idx op = some x) : x.l < s.clusters.length := by
      obtain ⟨-, hxl, -, -⟩ := State.todo_spec hx
      omega
    refine ⟨?chain, ?reduce, ?copy, ?stream, ?release⟩
    case chain =>
      intro a d ch hx hsol ha hd hch ts ws hclear
      exact ⟨_, exec_chain_of_clear hl hx hsol ha hd hch hclear,
        (works_counted s x ev _).chainBody (s.onlyCounted_counted x ev _) (hin hx) ch x.opb⟩
    case reduce =>
      intro a d r hx ha hd hr ws hclear
      exact ⟨_, exec_reduce_of_clear hl hx ha hd hr hclear, (works_counted s x ev _).reduceBody (s.onlyCounted_counted x ev _) (hin hx) r⟩
    case copy =>
      intro a d hx ha hd ws hclear
      exact ⟨_, exec_copy_of_clear hl hx ha hd hclear, (works_counted s x ev _).copyBody (s.onlyCounted_counted x ev _) (hin hx)⟩
    case stream =>
      intro w sl src next list view r hx hst hr slot es hclear
      exact ⟨_, exec_stream_of_clear hl hx hst hr rfl rfl hclear,
        (works_counted s x ev _).streamBody (s.onlyCounted_counted x ev _).mem (hin hx) slot es⟩
    case release =>
      intro hx
      exact ⟨_, exec_release hl hx, (works_refl s x).workDone (hin hx) {}⟩
  · intro s l idx ev x a nrows dst stride hl hlen hx ha hst hclear ps
    obtain ⟨-, rfl, -, -⟩ := State.todo_spec hx
    have hrows := Site.sendRows_of_transfer ha hst
    have hclear : s.clear x ev x.sendReads := by simpa [Site.sendReads, hrows, Function.comp_def] using hclear
    refine ⟨hrows ▸ s.sendPieces_own x ev.bad, fun p hp => s.sendPieces_length x ev.bad hp, _, exec_send_of_clear hl hx ha hst hclear, ?_⟩
    have honly := s.onlyCounted_counted x ev x.sendReads
    have hdrl : ∀ k, ((s.counted x ev x.sendReads).cluster k).drl = (s.cluster k).drl :=
      s.counted_part (·.drl) (fun _ _ => rfl) x ev x.sendReads
    have hworks := works_counted s x ev x.sendReads
    obtain ⟨n, hn, hsent, hsome, hall⟩ := State.sendBody_spec _ x ev.bad (hworks.size ▸ hlen ▸ hl)
    rw [honly.sendPieces hdrl] at hn hsent hsome hall
    refine ⟨n, hn, hsent.reqs.trans (by rw [hdrl]; rfl), hsome, hall, hsent.ctrs.trans (by rw [hdrl]), hsent.head.trans (by rw [hdrl]),
      hworks.others.trans hsent.others, ?_⟩
    rw [hsent.rest, honly]

end Sys2Proof.Machine
end

section
/-!
Proof, DATA and READ (O31): bytes that a packet brings into memory (R278, R454, R455), and bytes that it writes in the host window, cut
where the window's blocks end (R366, R440).
-/

namespace Sys2Proof.Machine

/-! ## Several writes -/

/-- A byte that some write covers, and to which every write that covers it gives one value. -/
theorem Cells.byte_writeAll_of_agree {ws : List (Nat × List Byte)} {b : Nat} {v : Byte} {m : Cells} (hm : Cells.wf m = true)
    (hcover : ∃ w ∈ ws, w.1 ≤ b ∧ b < w.1 + w.2.length)
    (hagree : ∀ w ∈ ws, ∀ j (hj : j < w.2.length), w.1 + j = b → w.2[j] = v) : Cells.byte (Cells.writeAll m ws) b = v := by
  induction ws generalizing m with
  | nil => simp at hcover
  | cons w ws ih =>
    change Cells.byte (Cells.writeAll (Cells.write m w.1 w.2) ws) b = v
    by_cases hlater : ∃ w ∈ ws, w.1 ≤ b ∧ b < w.1 + w.2.length
    · exact ih (Cells.wf_write hm w.1 w.2) hlater fun u hu => hagree u (List.mem_cons_of_mem w hu)
    · obtain ⟨u, hu, hle, hlt⟩ := hcover
      obtain rfl | hu := List.mem_cons.1 hu
      · have hself := Cells.byte_write_self hm u.1 u.2 (b - u.1) (by omega)
        rw [Nat.add_sub_cancel' hle] at hself
        rw [Cells.byte_writeAll_other _ _ _ fun w hw hcov => hlater ⟨w, hw, hcov⟩, hself]
        exact hagree u List.mem_cons_self _ _ (Nat.add_sub_cancel' hle)
      · exact absurd ⟨u, hu, hle, hlt⟩ hlater

/-! ## The host window (R366) -/

theorem hdmLocal_injective : Function.Injective hdmLocal := by
  intro a b h
  simp only [hdmLocal, hdmPart, chipStride] at h
  omega

/-- A block of 4 KiB of the window is contiguous. -/
theorem hdmLocal_add {o j : Nat} (h : o % 4096 + j < 4096) : hdmLocal (o + j) = hdmLocal o + j := by
  simp only [hdmLocal, hdmPart, chipStride]
  omega

theorem chunksAux_getElem? {α : Type} {n : Nat} (hn : 0 < n) (fuel : Nat) (l : List α) (h : l.length ≤ fuel) (i : Nat) :
    (chunksAux n fuel l)[i]? = if n * i < l.length then some ((l.drop (n * i)).take n) else none := by
  induction fuel generalizing l i with
  | zero => simp [chunksAux, List.eq_nil_of_length_eq_zero (Nat.le_zero.1 h)]
  | succ fuel ih =>
    cases l with
    | nil => simp [chunksAux]
    | cons b l =>
      change ((b :: l).take n :: chunksAux n fuel ((b :: l).drop n))[i]? = _
      cases i with
      | zero => simp
      | succ i =>
        have hshort : ((b :: l).drop n).length ≤ fuel := by
          rw [List.length_drop]
          omega
        rw [List.getElem?_cons_succ, ih _ hshort, List.length_drop, List.drop_drop, Nat.mul_succ, Nat.add_comm n]
        exact if_congr (by omega) rfl rfl

/-- The piece of a list at an index. -/
theorem chunks_getElem? {α : Type} {n : Nat} (hn : 0 < n) (l : List α) (i : Nat) :
    (chunks n l)[i]? = if n * i < l.length then some ((l.drop (n * i)).take n) else none := chunksAux_getElem? hn l.length l le_rfl i

/-- A write of some of a string's bytes, each at the local address of its place in the window. -/
def HdmPiece (off : Nat) (bs : List Byte) (w : Nat × List Byte) : Prop :=
  ∃ k, ∀ j (hj : j < w.2.length), w.1 + j = hdmLocal (off + (k + j)) ∧ bs[k + j]? = some w.2[j]

/-- Bytes of a string that lie in one block of the window. -/
theorem hdmPiece_of_block (off : Nat) (bs : List Byte) (k n : Nat) (h : (off + k) % 4096 + n ≤ 4096) :
    HdmPiece off bs (hdmLocal (off + k), (bs.drop k).take n) := by
  refine ⟨k, fun j hj => ?_⟩
  have hjn : j < n := by
    rw [List.length_take] at hj
    omega
  constructor
  · rw [← Nat.add_assoc, hdmLocal_add (o := off + k) (by omega)]
  · rw [← List.getElem?_eq_getElem hj, List.getElem?_take_of_lt hjn, List.getElem?_drop]

/-- The pieces of a string: the first up to the end of its block, and one for each block after it. -/
theorem mem_hdmPieces {off : Nat} {bs : List Byte} {w : Nat × List Byte} : w ∈ hdmPieces off bs ↔
    w = (hdmLocal off, bs.take (4096 - off % 4096)) ∨ ∃ i, 4096 - off % 4096 + 4096 * i < bs.length ∧
      w = (hdmLocal (off + (4096 - off % 4096 + 4096 * i)), (bs.drop (4096 - off % 4096 + 4096 * i)).take 4096) := by
  simp only [hdmPieces, List.mem_cons, List.mem_map]
  refine or_congr_right ⟨?_, ?_⟩
  · rintro ⟨⟨c, i⟩, hc, rfl⟩
    rw [List.mk_mem_zipIdx_iff_getElem?, chunks_getElem? (by decide), List.length_drop, List.drop_drop] at hc
    split at hc
    · obtain rfl := Option.some.inj hc
      exact ⟨i, by omega, by rw [Nat.add_assoc]⟩
    · cases hc
  · rintro ⟨i, hi, rfl⟩
    refine ⟨((bs.drop (4096 - off % 4096 + 4096 * i)).take 4096, i), ?_, by rw [Nat.add_assoc]⟩
    rw [List.mk_mem_zipIdx_iff_getElem?, chunks_getElem? (by decide), List.length_drop, List.drop_drop]
    exact if_pos (by omega)

theorem hdmPiece_of_mem {off : Nat} {bs : List Byte} {w : Nat × List Byte} (h : w ∈ hdmPieces off bs) : HdmPiece off bs w := by
  obtain rfl | ⟨i, -, rfl⟩ := mem_hdmPieces.1 h
  · simpa using hdmPiece_of_block off bs 0 (4096 - off % 4096) (by omega)
  · exact hdmPiece_of_block off bs _ 4096 (by omega)

/-- Every byte of a string lies in one of its pieces. -/
theorem hdmPieces_cover (off : Nat) (bs : List Byte) {i : Nat} (hi : i < bs.length) :
    ∃ w ∈ hdmPieces off bs, w.1 ≤ hdmLocal (off + i) ∧ hdmLocal (off + i) < w.1 + w.2.length := by
  by_cases hfirst : i < 4096 - off % 4096
  · refine ⟨_, mem_hdmPieces.2 (Or.inl rfl), ?_⟩
    rw [hdmLocal_add (by omega), List.length_take]
    dsimp only
    omega
  · obtain ⟨q, r, hr, rfl⟩ : ∃ q r, r < 4096 ∧ i = 4096 - off % 4096 + 4096 * q + r :=
      ⟨(i - (4096 - off % 4096)) / 4096, _, Nat.mod_lt _ (by decide), by rw [Nat.add_assoc, Nat.div_add_mod]; omega⟩
    refine ⟨_, mem_hdmPieces.2 (Or.inr ⟨q, by omega, rfl⟩), ?_⟩
    have hplace := hdmLocal_add (o := off + (4096 - off % 4096 + 4096 * q)) (j := r) (by omega)
    rw [Nat.add_assoc off] at hplace
    rw [hplace, List.length_take, List.length_drop]
    dsimp only
    omega

/-! ## Writes of packets to the window (R440, R455) -/

/-- Software may write every byte of a range in full (R13, R15). -/
def State.OpenAt (s : State) (a n : Nat) : Prop := ∀ i < n, s.softMask ((a + i) / 8 * 8) = none

theorem State.softMask_congr {s t : State} (hjobs : t.jobs = s.jobs) (hstart : t.start = s.start) (hme : t.hub.module = s.hub.module) (x : Nat) :
    t.softMask x = s.softMask x := by
  have hentry : t.isEntry = s.isEntry := by rw [State.isEntry, State.me, hstart, hme, State.isEntry, State.me]
  have hro : t.roRecords = s.roRecords := by rw [State.roRecords, hjobs, State.roRecords]
  have hrecords : t.records = s.records := by rw [State.records, hjobs, State.records]
  rw [State.softMask, hentry, hro, hrecords, State.softMask]

theorem State.lands_congr {s t : State} (hpages : t.pages = s.pages) (hstart : t.start = s.start) (a n : Nat) : t.lands a n = s.lands a n := by
  have hstack : t.stackUp = s.stackUp := by
    funext page
    simp only [State.stackUp, hpages, hstart]
  simp only [State.lands, State.reaches, hpages, hstart, hstack]

/-- A write over bytes that are open to software restores none. -/
theorem State.softStore_mem_of_open {s : State} {a : Nat} {bs : List Byte} (hbs : bs ≠ []) (h : s.OpenAt a bs.length) :
    (s.softStore a bs).mem = Cells.write s.mem a bs := by
  have hpos := List.length_pos_iff.2 hbs
  have hnone : s.restored a bs = [] := by
    refine List.filterMap_eq_nil_iff.2 fun x hx => ?_
    obtain ⟨k, hk, rfl⟩ := List.mem_map.1 hx
    have hk := List.mem_range.1 hk
    have hmask := h (a / 8 * 8 + 8 * k - a) (by omega)
    rw [show (a + (a / 8 * 8 + 8 * k - a)) / 8 * 8 = a / 8 * 8 + 8 * k by omega] at hmask
    rw [hmask, Option.map_none]
  rw [State.softStore_mem, hnone]
  rfl

theorem State.softStore_poison_of_nil {s : State} (h : s.poison = []) (a : Nat) (bs : List Byte) : (s.softStore a bs).poison = [] := by
  simp [State.softStore, State.store, Poison.clear, h]

/-- A write of a packet to the window. -/
def packetWrite (w : Nat × List Byte) : HeldWrite := ⟨w.1, w.2, false, .packet⟩

theorem State.landWrite_packetWrite (s : State) (w : Nat × List Byte) : s.landWrite (packetWrite w) =
    (((s.countBytes none [⟨w.1, w.2.length, true⟩]).softStore w.1 w.2).tagLanded w.1 w.2.length).echoHelds w.1 w.2.length := by
  simp [State.landWrite, packetWrite]

theorem State.memWrite_packetWrite_of_lands {s : State} {w : Nat × List Byte} (h : s.lands w.1 w.2.length = true) :
    s.memWrite (packetWrite w) = s.landWrite (packetWrite w) := if_pos h

theorem State.landWrite_packetWrite_mem (s : State) (w : Nat × List Byte) : (s.landWrite (packetWrite w)).mem = (s.softStore w.1 w.2).mem := by
  rw [State.landWrite_packetWrite, ← (onlyFab_countBytes s none [⟨w.1, w.2.length, true⟩]).softStore_mem]
  simp

/-- Where nothing is poisoned, a packet's write leaves it so. -/
theorem State.memWrite_packetWrite_poison {s : State} (h : s.poison = []) (w : Nat × List Byte) : (s.memWrite (packetWrite w)).poison = [] := by
  unfold State.memWrite
  split
  · have hsoft := State.softStore_poison_of_nil (s := s.countBytes none [⟨w.1, w.2.length, true⟩]) (by simpa using h) w.1 w.2
    rw [State.landWrite_packetWrite]
    simpa using hsoft
  · exact h

/-- Writes of a packet, in order. -/
def State.packetWrites (s : State) (ws : List (Nat × List Byte)) : State := ws.foldl (fun s w => s.memWrite (packetWrite w)) s

theorem State.windowStore_eq (s : State) (dst : Nat) (bs : List Byte) :
    s.windowStore dst bs = s.packetWrites ((hdmPieces dst bs).filter (fun w => w.2 ≠ [])) := rfl

theorem State.packetWrites_poison {s : State} (h : s.poison = []) (ws : List (Nat × List Byte)) : (s.packetWrites ws).poison = [] := by
  induction ws generalizing s with
  | nil => exact h
  | cons w ws ih => exact ih (State.memWrite_packetWrite_poison h w)

theorem State.windowStore_poison {s : State} (h : s.poison = []) (dst : Nat) (bs : List Byte) : (s.windowStore dst bs).poison = [] :=
  State.packetWrites_poison h _

/-- Writes of a packet that all land, over bytes open to software, write memory. -/
theorem State.packetWrites_mem {ws : List (Nat × List Byte)} {s : State}
    (h : ∀ w ∈ ws, w.2 ≠ [] ∧ s.lands w.1 w.2.length = true ∧ s.OpenAt w.1 w.2.length) :
    (s.packetWrites ws).mem = Cells.writeAll s.mem ws := by
  induction ws generalizing s with
  | nil => rfl
  | cons w ws ih =>
    obtain ⟨hne, hlands, hopen⟩ := h w List.mem_cons_self
    have hmem : (s.landWrite (packetWrite w)).mem = Cells.write s.mem w.1 w.2 := by
      rw [State.landWrite_packetWrite_mem, State.softStore_mem_of_open hne hopen]
    change ((s.memWrite (packetWrite w)).packetWrites ws).mem = Cells.writeAll (Cells.write s.mem w.1 w.2) ws
    rw [State.memWrite_packetWrite_of_lands hlands, ih, hmem]
    intro u hu
    obtain ⟨hne, hlands, hopen⟩ := h u (List.mem_cons_of_mem w hu)
    refine ⟨hne, ?_, fun i hi => ?_⟩
    · rw [State.lands_congr (s := s) (by simp) (by simp), hlands]
    · rw [State.softMask_congr (s := s) (by simp) (by simp) (by simp), hopen i hi]

section
variable {s : State} {d : Nat} {bs : List Byte} (hlands : ∀ w ∈ hdmPieces d bs, s.lands w.1 w.2.length = true)
  (hopen : ∀ i < bs.length, s.softMask (hdmLocal (d + i) / 8 * 8) = none)
include hlands hopen

theorem State.windowStore_mem :
    (s.windowStore d bs).mem = Cells.writeAll s.mem ((hdmPieces d bs).filter (fun w => w.2 ≠ [])) := by
  rw [State.windowStore_eq, State.packetWrites_mem]
  intro w hw
  obtain ⟨hw, hne⟩ := List.mem_filter.1 hw
  refine ⟨of_decide_eq_true hne, hlands w hw, fun j hj => ?_⟩
  obtain ⟨k, hpiece⟩ := hdmPiece_of_mem hw
  obtain ⟨hplace, hbyte⟩ := hpiece j hj
  rw [hplace]
  exact hopen _ (List.getElem?_eq_some_iff.1 hbyte).1

/-- A string written in the window reads there as written. -/
theorem State.byte_windowStore (hm : Cells.wf s.mem = true) {i : Nat} (hi : i < bs.length) :
    Cells.byte (s.windowStore d bs).mem (hdmLocal (d + i)) = bs[i] := by
  rw [State.windowStore_mem hlands hopen]
  refine Cells.byte_writeAll_of_agree hm ?_ fun w hw j hj hplace => ?_
  · obtain ⟨w, hw, hle, hlt⟩ := hdmPieces_cover d bs hi
    have hne : w.2 ≠ [] := fun hnil => by simp [hnil] at hlt; omega
    exact ⟨w, List.mem_filter.2 ⟨hw, decide_eq_true hne⟩, hle, hlt⟩
  · obtain ⟨k, hpiece⟩ := hdmPiece_of_mem (List.mem_of_mem_filter hw)
    obtain ⟨hat, hbyte⟩ := hpiece j hj
    have hkj : k + j = i := Nat.add_left_cancel (hdmLocal_injective (hat.symm.trans hplace))
    rw [hkj, List.getElem?_eq_getElem hi] at hbyte
    exact (Option.some.inj hbyte).symm

/-- Bytes outside its place stay. -/
theorem State.sameWindow_windowStore : SameWindow s (s.windowStore d bs) [(d, bs.length)] := by
  intro a ha
  rw [State.windowStore_mem hlands hopen]
  refine Cells.byte_writeAll_other _ _ _ fun w hw ⟨hle, hlt⟩ => ?_
  obtain ⟨k, hpiece⟩ := hdmPiece_of_mem (List.mem_of_mem_filter hw)
  obtain ⟨hat, hbyte⟩ := hpiece (a - w.1) (by omega)
  have hin := (List.getElem?_eq_some_iff.1 hbyte).1
  refine ha (d + (k + (a - w.1))) ⟨_, List.mem_singleton.2 rfl, ?_⟩ (by rw [← hat, Nat.add_sub_cancel' hle])
  dsimp only
  omega

end

/-! ## DATA (R278, R454, R455) -/

theorem State.landData_mem (s : State) (p : Pkt) : (s.landData p).mem = (s.softStore p.addr p.pay).mem := by
  unfold State.landData
  dsimp only
  split <;> simp

section
variable {s : State} {p : Pkt} (hrefusal : s.dataRefusal p = none) (hlands : s.lands p.addr p.pay.length = true)
include hrefusal hlands

theorem State.doData_of_free (hhold : p.hold = false) : s.doData p = (s.landData p).endPkt p pktOk 0 := by
  simp [State.doData, hrefusal, hlands, hhold]

variable {t : Task} (hhold : p.hold = true) (ht : s.pktTask p = some t)
include hhold ht

theorem State.doData_of_due (hle : t.current ≤ p.step) (hnext : p.step ≤ t.current + 1) : s.doData p =
    { (s.landData p).endPkt p pktOk 0 (releases := false) with
      hub := { ((s.landData p).endPkt p pktOk 0 (releases := false)).hub with
        held := ((s.landData p).endPkt p pktOk 0 (releases := false)).hub.held ++ [⟨p.key, p.step, p, false⟩] } } := by
  simp [State.doData, hrefusal, hlands, hhold, ht, Nat.not_lt.2 hle, Nat.not_lt.2 hnext]

theorem State.doData_of_ended (hlt : p.step < t.current) : s.doData p = s.endPkt p pktState 0 := by
  simp [State.doData, hrefusal, hlands, hhold, ht, hlt]

theorem State.doData_of_ahead (hlt : t.current + 1 < p.step) : s.doData p = s := by
  simp [State.doData, hrefusal, hlands, hhold, ht, hlt, show ¬ p.step < t.current by omega]

end

theorem State.endPkt_pkts (s : State) (p : Pkt) (status : Nat) (value : Word) (releases : Bool) :
    (s.endPkt p status value releases).hub.pkts = (s.hub.dropPkt p.id).pkts := by
  unfold State.endPkt
  dsimp only
  split
  · rw [State.ringEnd_pkts]
  · simp

/-- A packet that has ended is held no more. -/
theorem State.endPkt_pkt (s : State) (p : Pkt) (status : Nat) (value : Word) (releases : Bool) :
    (s.endPkt p status value releases).hub.pkt p.id = none := by
  rw [Hub.pkt_congr (s.endPkt_pkts p status value releases)]
  exact List.find?_eq_none.2 fun q hq => by simpa using List.of_mem_filter hq

/-! ## READ (R440, R455) -/

theorem State.seen_length (s : State) (a n : Nat) : (s.seen a n).length = n := by simp [State.seen]

/-- Where no word is poisoned, no copy of one is. -/
theorem Poison.foldl_filter_of_nil {q : Poison} (h : q = []) (f : Nat → Bool) (g : Poison → Nat → Poison) : (q.filter f).foldl g q = q := by
  rw [h]
  rfl

/-- A READ of a ring that finds no bad word copies what a reader of the window sees, and ends. -/
theorem State.doRead_of_ring {s : State} {p : Pkt} {n slot a : Nat} (hstarted : p.started = false) (hsrc : s.readSource p = (a, none))
    (hring : p.origin = .ring n slot) (hpoison : s.poison = []) (hreach : s.reaches [⟨a, p.payLen, false⟩] = true) :
    s.doRead p Ev.none = (s.windowStore (fld p.arg1 51 0) (s.seen a p.payLen)).endPkt p pktOk 0 := by
  simp only [State.doRead, hstarted, hsrc, hreach, hring, Ev.none, State.corrected, List.filter_nil, List.foldl_nil, Bool.not_true,
    Bool.false_eq_true, if_false, Poison.foldl_filter_of_nil (State.windowStore_poison hpoison _ _)]

/-! ## The statement -/

/-- Settles O31: a DATA packet's fate follows its hold and its task's step, and lands by the law of software's writes; a READ writes the
pieces of what it has seen, which cover its place in the window and agree where they meet. -/
theorem dataAndReadPacketsMoveBytes : Obligations.DataAndReadPacketsMoveBytes := by
  constructor
  · intro s p t ha hp htype hrefusal hlands
    have hexec : exec (.data p.id) s = .next (s.doData p) := onPkt_of_taken ha hp htype _
    refine ⟨?free, ?due, ?ended, ?ahead, ?bytes⟩
    case free =>
      intro hhold
      rw [hexec, State.doData_of_free hrefusal hlands hhold]
    case due =>
      intro hhold ht hle hnext
      rw [State.doData_of_due hrefusal hlands hhold ht hle hnext] at hexec
      exact ⟨_, hexec, by simp, State.endPkt_pkt .., rfl⟩
    case ended =>
      intro hhold ht hlt
      rw [hexec, State.doData_of_ended hrefusal hlands hhold ht hlt]
    case ahead =>
      intro hhold ht hlt
      rw [hexec, State.doData_of_ahead hrefusal hlands hhold ht hlt]
    case bytes =>
      intro hm hopen
      refine ⟨by rw [s.landData_mem, s.read_softStore p.addr p.pay hm hopen], fun b hb => ?_⟩
      rw [s.landData_mem, s.byte_softStore_other p.addr p.pay hm b (hb _ (List.mem_singleton.2 rfl))]
  · intro s p n slot a ha hp htype hstarted hsrc hring hpoison hreach d bs
    have hexec : exec (.read p.id Ev.none) s = .next (s.doRead p Ev.none) := onPkt_of_taken ha hp htype _
    have hlen : bs.length = p.payLen := s.seen_length a p.payLen
    refine ⟨by rw [hexec, State.doRead_of_ring hstarted hsrc hring hpoison hreach], fun hm hlands hopen => ⟨fun i hi => ?_, ?_⟩⟩
    · rw [State.byte_windowStore hlands (hlen ▸ hopen) hm (hlen.symm ▸ hi), List.getD_eq_getElem]
    · rw [← hlen]
      exact State.sameWindow_windowStore hlands (hlen ▸ hopen)

end Sys2Proof.Machine
end

section
/-!
Proof, answers (O57): ACK, READ_DATA and NACK at the module that asked (R286, R388, R410, R411, R458).
-/

namespace Sys2Proof.Machine

/-! ## Arrival of an answer (R404 to R406) -/

/-- A message of another kind than WRITE gives its credits back at once. -/
theorem State.settled_of_not_write (u t : State) (rx : Rx) {b : Body} (hb : ∀ a bs, b ≠ .write a bs) : u.settled t rx b = u.portDone rx b := by
  unfold State.settled State.portDone State.tookFrom
  cases rx.port with
  | none => rfl
  | some p =>
    cases b with
    | write a bs => exact absurd rfl (hb a bs)
    | _ => rfl

/-- Where a module that has received a message acts on it as `f` says, and only its fabric part changes before and after. -/
theorem answers_of_hears {s : State} {rx : Rx} (h : s.hears rx = true) {c : Instr} {b : Body} {f : State → State}
    (hc : exec c s = s.arrive rx b f) (hb : ∀ a bs, b ≠ .write a bs) {P : State → Prop}
    (hP : ∀ r t, OnlyFab s r → OnlyFab (f r) t → P t) : Answers c s P :=
  ⟨_, (hc.trans (State.arrive_of_hears h b f)).trans (by rw [State.settled_of_not_write _ _ _ hb]),
    hP _ _ (onlyFab_received s rx b) (onlyFab_portDone _ rx b)⟩

section
variable (rx : Rx) (s : State)

theorem exec_ack_eq (e : Option PktEnd) : exec (.ack rx e) s = s.arrive rx (.ack rx.addr e) (fun s => s.takeAck rx e) := rfl
theorem exec_readData_eq (bs : List Byte) :
    exec (.readData rx bs) s = s.arrive rx (.readData rx.addr bs) (fun s => s.takeData rx bs) := rfl
theorem exec_nack_eq (reason : Nat) : exec (.nack rx reason) s = s.arrive rx (.nack rx.addr reason) (fun s => s.takeNack rx reason) := rfl

end

/-! ## A change of one Derailleur -/

/-- From `s` to `t` one cluster's Derailleur changes as `f` says; but for counts and the fabric part nothing else does. -/
structure DrlChanged (s t : State) (l : Nat) (f : Drl → Drl) : Prop where
  drl : (t.cluster l).drl = f (s.cluster l).drl
  others : SameClusters s t l
  rest : t = { s with clusters := t.clusters, fab := t.fab, ctr := t.ctr }

theorem DrlChanged.trans {s t u : State} {l : Nat} {f g : Drl → Drl} (h : DrlChanged s t l f) (h' : DrlChanged t u l g) :
    DrlChanged s u l (fun d => g (f d)) where
  drl := by rw [h'.drl, h.drl]
  others := h.others.trans h'.others
  rest := by rw [h'.rest, h.rest]

theorem OnlyFab.drlChanged {s t : State} (h : OnlyFab s t) (l : Nat) : DrlChanged s t l id where
  drl := by rw [h.cluster, id]
  others k _ := h.cluster k
  rest := by rw [h]

theorem drlChanged_count (s : State) (l : Nat) (ws : List (Nat × Nat)) : DrlChanged s (s.count l ws) l id where
  drl := s.count_drl l ws l
  others := sameClusters_updCluster s l _
  rest := rfl

theorem drlChanged_updDrl (s : State) {l : Nat} (hl : l < s.clusters.length) (f : Drl → Drl) : DrlChanged s (s.updDrl l f) l f where
  drl := s.updDrl_drl l f hl
  others := sameClusters_updCluster s l _
  rest := rfl

/-- What arrives before and what leaves after are a matter of the fabric part alone. -/
theorem DrlChanged.around {s r u t : State} {l : Nat} {f : Drl → Drl} (h : DrlChanged r u l f) (hr : OnlyFab s r) (ht : OnlyFab u t) :
    DrlChanged s t l f :=
  ((hr.drlChanged l).trans h).trans (ht.drlChanged l)

theorem answers_drlChanged {s : State} {rx : Rx} (h : s.hears rx = true) {c : Instr} {b : Body} {take : State → State}
    (hc : exec c s = s.arrive rx b take) (hb : ∀ a bs, b ≠ .write a bs) {l : Nat} {f : Drl → Drl}
    (htake : ∀ r, OnlyFab s r → DrlChanged r (take r) l f) : Answers c s (fun t => DrlChanged s t l f) :=
  answers_of_hears h hc hb fun r _ hr ht => (htake r hr).around hr ht

/-! ## The request of a cluster that an answer names -/

theorem OnlyFab.hist {s t : State} (h : OnlyFab s t) : t.hist = s.hist := by rw [h]

theorem OnlyFab.reqOf {s t : State} (h : OnlyFab s t) (l tag src : Nat) : (t.cluster l).drl.reqOf tag src = (s.cluster l).drl.reqOf tag src := by
  rw [h.cluster]

/-- Only a cluster of the module waits for an answer. -/
theorem State.lt_of_reqOf {s : State} {l tag src : Nat} {q : Req} (h : (s.cluster l).drl.reqOf tag src = some q) : l < s.clusters.length := by
  by_contra hl
  rw [State.cluster, List.getD_eq_default _ _ (Nat.not_lt.1 hl)] at h
  cases h

/-- The entry that a request serves is a matter of its cluster's Derailleur and of the jobs. -/
theorem State.site_congr {s t : State} {l : Nat} (hdrl : (t.cluster l).drl = (s.cluster l).drl) (hjobs : t.jobs = s.jobs) (idx : Nat) :
    t.site l idx = s.site l idx := by
  simp only [State.site, State.jobOf, State.job, hdrl, hjobs]

/-- The Derailleur without the request that has been answered. -/
def Drl.answered (d : Drl) (tag : Nat) : Drl := { d with reqs := d.reqs.filter (fun r => r.tag ≠ tag) }

/-- The Derailleur with the signal to be sent again marked. -/
def Drl.marked (d : Drl) (tag : Nat) : Drl := { d with reqs := d.reqs.map (fun r => if r.tag = tag then { r with busy := true } else r) }

section
variable {s : State} {rx : Rx} {q : Req} (hhub : s.hub.reqOf rx.tag rx.src = none)
  (hq : (s.cluster rx.scl).drl.reqOf rx.tag rx.src = some q)
include hq

theorem State.endReq_changed (n : Nat) : DrlChanged s (s.endReq rx n) rx.scl (·.answered rx.tag) :=
  (drlChanged_updDrl s (State.lt_of_reqOf hq) (·.answered rx.tag)).trans (drlChanged_count _ rx.scl _)

theorem State.entryNack_busy_changed : DrlChanged s (s.entryNack rx q nackBusy) rx.scl (·.marked rx.tag) :=
  (drlChanged_count s rx.scl _).trans (drlChanged_updDrl _ (by simpa using State.lt_of_reqOf hq) (·.marked rx.tag))

include hhub

theorem State.takeNack_of_cluster (reason : Nat) : s.takeNack rx reason = s.entryNack rx q reason := by
  simp [State.takeNack, hhub, hq]

theorem State.takeAck_changed : DrlChanged s (s.takeAck rx none) rx.scl (·.answered rx.tag) := by
  have htake : s.takeAck rx none = s.endReq rx 0 := by simp [State.takeAck, hhub, hq]
  rw [htake]
  exact State.endReq_changed hq 0

theorem State.takeData_changed (bs : List Byte) : DrlChanged s (s.takeData rx bs) rx.scl (·.answered rx.tag) := by
  have htake : s.takeData rx bs = s.endReq rx bs.length := by simp [State.takeData, hhub, hq]
  rw [htake]
  exact State.endReq_changed hq bs.length

theorem State.takeNack_busy_changed : DrlChanged s (s.takeNack rx nackBusy) rx.scl (·.marked rx.tag) := by
  rw [State.takeNack_of_cluster hhub hq]
  exact State.entryNack_busy_changed hq

end

/-- The module once it has latched the fault of a refused request; a signal that finds no task latches none (R389, R411). -/
def State.refusalLatched (s : State) (rx : Rx) (q : Req) (x : Site) (reason : Nat) : State :=
  if reason = nackNoTask then s
  else { s with pages := s.pages.latch (if reason = nackPoison then .poisoned else .remoteRange) rx.src q.msg.body.addr x.key.ctx x.l x.f.idx }

theorem State.refusalLatched_keeps (s : State) (rx : Rx) (q : Req) (x : Site) (reason : Nat) :
    (s.refusalLatched rx q x reason).jobs = s.jobs ∧ (s.refusalLatched rx q x reason).hub = s.hub ∧
    (s.refusalLatched rx q x reason).hist = s.hist := by
  unfold State.refusalLatched
  split <;> exact ⟨rfl, rfl, rfl⟩

/-- The state in which the task of an entry whose request is refused aborts: the fault latched, the ladder entered at rung 1 (R388, R411,
R514). -/
def State.refusedEntry (s : State) (rx : Rx) (q : Req) (x : Site) (reason : Nat) : State :=
  ((s.count rx.scl [(ctMsgRecv, 1), (ctBytesRecv, 8)]).refusalLatched rx q x reason).climb 1 x.l x.e.op.engine 0

theorem State.refusedEntry_keeps (s : State) (rx : Rx) (q : Req) (x : Site) (reason : Nat) :
    (s.refusedEntry rx q x reason).jobs = s.jobs ∧ (s.refusedEntry rx q x reason).hub = s.hub ∧
    (s.refusedEntry rx q x reason).hist = s.hist.climb 1 x.l x.e.op.engine 0 := by
  obtain ⟨hjobs, hhub, hhist⟩ := (s.count rx.scl [(ctMsgRecv, 1), (ctBytesRecv, 8)]).refusalLatched_keeps rx q x reason
  exact ⟨hjobs, hhub, congrArg (·.climb 1 x.l x.e.op.engine 0) hhist⟩

section
variable {s : State} {rx : Rx} {q : Req} {x : Site} {reason : Nat} (hreason : reason ≠ nackBusy)
  (hx : q.idx.bind (s.site rx.scl) = some x)
include hreason hx

theorem State.entryNack_of_refused : s.entryNack rx q reason = (s.refusedEntry rx q x reason).abortTask x.key statusAborted := by
  have hsite : q.idx.bind ((s.count rx.scl [(ctMsgRecv, 1), (ctBytesRecv, 8)]).site rx.scl) = some x := by
    rw [← hx, funext (State.site_congr (s.count_drl rx.scl _ rx.scl) rfl)]
  unfold State.entryNack
  extract_lets counted
  rw [if_neg hreason, hsite]
  rfl

/-- The task of an entry whose request is refused, but as BUSY, ends at the step that it was in. -/
theorem State.entryNack_ended {t : Task} (ht : s.hub.task x.key = some t) (hst : t.st ≠ .idle) (hr : t.restoring = false) :
    Ended (s.refusedEntry rx q x reason) (s.entryNack rx q reason) x.key statusAborted t.step := by
  obtain ⟨-, hhub, -⟩ := s.refusedEntry_keeps rx q x reason
  rw [State.entryNack_of_refused hreason hx]
  exact State.abortTask_ended (by rw [hhub, ht]) hst hr statusAborted

end

/-! ## Requests of the hub -/

/-- Where every request of the hub has its tag, none waits to leave. -/
theorem State.hubFlush_of_tagged {s : State} (h : ∀ r ∈ s.hub.reqs, r.tag.isSome = true) : s.hubFlush = s := by
  have hnone : s.hub.reqs.filter (fun r => r.tag.isNone) = [] := List.filter_eq_nil_iff.2 fun r hr =>
    by simpa using Option.isSome_iff_ne_none.1 (h r hr)
  rw [State.hubFlush, hnone, List.foldl_nil]

theorem State.dropReq_of_tagged {s : State} (h : ∀ r ∈ s.hub.reqs, r.tag.isSome = true) (tag : Nat) :
    s.dropReq tag = { s with hub := s.hub.dropReq tag } :=
  State.hubFlush_of_tagged fun r hr => h r (List.mem_of_mem_filter hr)

section
variable (s : State)

theorem State.hubIssue_fwds (r : HubReq) : (s.hubIssue r).hub.fwds = s.hub.fwds := by
  unfold State.hubIssue
  split
  · rfl
  · simp

theorem State.hubFlush_fwds : s.hubFlush.hub.fwds = s.hub.fwds := foldl_keeps (·.hub.fwds) _ (fun s r => s.hubIssue_fwds r) _ s

theorem State.ringEnd_fwds (n slot : Nat) (releases : Bool) (c : Option Cqe) : (s.ringEnd n slot releases c).hub.fwds = s.hub.fwds := by
  unfold State.ringEnd
  split
  · simp [Hub.setRing]
  · split <;> rfl

/-- A forwarded packet whose slot is released is waited for no longer; task records, jobs and clusters stay (R458). -/
theorem State.endForward_spec (f : Fwd) {e : PktEnd} (he : e.releases = true) :
    (s.endForward f e).hub.fwds = s.hub.fwds.filter (fun x => x.pid ≠ f.pid) ∧ (s.endForward f e).hub.tasks = s.hub.tasks ∧
    (s.endForward f e).jobs = s.jobs ∧ (s.endForward f e).clusters = s.clusters := by
  have hnote (h : Hub) : (h.noteRemote f e.status).fwds = h.fwds ∧ (h.noteRemote f e.status).tasks = h.tasks := by
    unfold Hub.noteRemote
    dsimp only
    (repeat' split) <;> exact ⟨rfl, rfl⟩
  unfold State.endForward
  rw [State.hubFlush_fwds, State.ringEnd_fwds, State.hubFlush_tasks, State.ringEnd_tasks, he]
  refine ⟨?_, ?_, by simp, by simp⟩
  · dsimp only
    split
    · exact (hnote _).1
    · rfl
  · dsimp only
    split
    · exact (hnote _).2
    · rfl

end

theorem State.takeAck_of_forward {s : State} {rx : Rx} {e : PktEnd} {f : Fwd}
    (hf : s.hub.fwds.find? (fun f => f.pid = e.pid ∧ f.dst = rx.src) = some f) : s.takeAck rx (some e) = s.endForward f e := by
  simp only [State.takeAck, Option.bind_some, hf, Option.map_some]

/-- READ_DATA of a restore puts the bytes into its image (R286). -/
theorem State.takeData_of_restore {s : State} {rx : Rx} {h : HubReq} {off : Nat} {y : Restore} (hreq : s.hub.reqOf rx.tag rx.src = some h)
    (huse : h.use = .restore y.key.ctx y.key.job off) (hy : s.hub.restores = [y]) (htags : ∀ r ∈ s.hub.reqs, r.tag.isSome = true)
    (bs : List Byte) : s.takeData rx bs =
      { s with hub := { s.hub.dropReq rx.tag with restores := [{ y with image := Cells.write y.image off bs }] } } := by
  simp [State.takeData, hreq, huse, State.dropReq_of_tagged htags, Hub.dropReq, hy]

/-! ## The statement -/

/-- Settles O57: the answer to a cluster's request changes that cluster's Derailleur alone or, refused, ends the entry's task; an answer to
the hub ends its request. -/
theorem answersReachTheirRequest : Obligations.AnswersReachTheirRequest := by
  intro s rx q bytes reason h _
  refine ⟨fun hhub hq => ⟨?ack, ?data, ?busy, ?refused⟩, ?restore, ?forward⟩
  case ack =>
    obtain ⟨t, ht, hdrl, hothers, hrest⟩ := answers_drlChanged h (exec_ack_eq rx s none) nofun fun r hr =>
      State.takeAck_changed (by rw [hr.hub, hhub]) ((hr.reqOf ..).trans hq)
    exact ⟨t, ht, hdrl, hothers, hrest⟩
  case data =>
    obtain ⟨t, ht, hdrl, hothers, hrest⟩ := answers_drlChanged h (exec_readData_eq rx s bytes) nofun fun r hr =>
      State.takeData_changed (by rw [hr.hub, hhub]) ((hr.reqOf ..).trans hq) bytes
    exact ⟨t, ht, hdrl, hothers, hrest⟩
  case busy =>
    obtain ⟨t, ht, hdrl, hothers, hrest⟩ := answers_drlChanged h (exec_nack_eq rx s nackBusy) nofun fun r hr =>
      State.takeNack_busy_changed (by rw [hr.hub, hhub]) ((hr.reqOf ..).trans hq)
    exact ⟨t, ht, hdrl, hothers, hrest⟩
  case refused =>
    intro x tk hreason hx htk hst hrestoring
    refine answers_of_hears h (exec_nack_eq rx s reason) nofun fun r t hr ht => ?_
    have hx' : q.idx.bind (r.site rx.scl) = some x := by
      rw [← hx, funext (State.site_congr (congrArg (·.drl) (hr.cluster rx.scl)) hr.jobs)]
    rw [State.takeNack_of_cluster (by rw [hr.hub, hhub]) ((hr.reqOf ..).trans hq)] at ht
    have hend := State.entryNack_ended hreason hx' (by rw [hr.hub, htk]) hst hrestoring
    obtain ⟨hjobs, -, hhist⟩ := r.refusedEntry_keeps rx q x reason
    rw [ht.hub, ht.jobs, ht.hist, hend.jobs, hjobs, hr.jobs, hend.ladder, hhist]
    exact ⟨hend.task, rfl, rfl, rfl⟩
  case restore =>
    rintro g c j off y hreq huse hy rfl rfl htags
    refine answers_of_hears h (exec_readData_eq rx s bytes) nofun fun r t hr ht => ?_
    rw [State.takeData_of_restore (by rw [hr.hub, hreq]) huse (by rw [hr.hub, hy]) (by rwa [hr.hub]), hr.hub] at ht
    rw [ht.hub, ht.mem]
    exact ⟨rfl, rfl, hr.mem, rfl⟩
  case forward =>
    intro f e hf he
    refine answers_of_hears h (exec_ack_eq rx s (some e)) nofun fun r t hr ht => ?_
    obtain ⟨hfwds, htasks, hjobs, hclusters⟩ := r.endForward_spec f he
    rw [State.takeAck_of_forward (by rw [hr.hub, hf])] at ht
    rw [ht.hub, ht.jobs, ht.clusters, hfwds, htasks, hjobs, hclusters, hr.hub]
    exact ⟨fun g hg => by simpa using List.of_mem_filter hg, rfl, hr.jobs, hr.clusters⟩

end Sys2Proof.Machine
end

section
/-!
Proof, exchanges (O53, R318 to R324). The statement takes an entry in flight as one that starts whenever its work is open, and so also where
its flight is marked for a retry (R174). The model marks tile entries alone so, and gives an EXCHANGE with that mark nothing to do: the
statement fails there. Of an EXCHANGE whose work is still to begin, and of a COUNT, it holds (`exchange_starts_of_todo`, `count_isHeard`).
-/

namespace Sys2Proof.Machine

/-! ## What an exchange may change (R318 to R324) -/

/-- The flights of an entry wait as those of an exchange: for acknowledges, or with the exchange in progress. -/
def Drl.Exchanging (d : Drl) (idx : Nat) : Prop := ∀ f ∈ d.flights, f.idx = idx → f.work = .requests ∨ ∃ e, f.work = .exch e

/-- From `s` to `t` an exchange has worked on cluster `l`: signal counters and HEAD stay, and so do the other clusters and the parts of the
module that an exchange does not write. -/
structure ExchFrame (s t : State) (l : Nat) : Prop where
  ctrs : (t.cluster l).drl.ctrs = (s.cluster l).drl.ctrs
  head : (t.cluster l).drl.head = (s.cluster l).drl.head
  size : t.clusters.length = s.clusters.length
  others : SameClusters s t l
  rest : t = { s with
    mem := t.mem, tags := t.tags, poison := t.poison, clusters := t.clusters, fab := t.fab, ctr := t.ctr, pages := { s.pages with ce := t.pages.ce } }

/-- It has counted no occurrence, and entries that waited as an exchange's still do. -/
structure ExchStep (s t : State) (l : Nat) : Prop extends ExchFrame s t l where
  occs : (t.cluster l).drl.occs = (s.cluster l).drl.occs
  waits : ∀ idx, (s.cluster l).drl.Exchanging idx → (t.cluster l).drl.Exchanging idx

theorem ExchFrame.trans {s t u : State} {l : Nat} (h : ExchFrame s t l) (h' : ExchFrame t u l) : ExchFrame s u l where
  ctrs := h'.ctrs.trans h.ctrs
  head := h'.head.trans h.head
  size := h'.size.trans h.size
  others := h.others.trans h'.others
  rest := h'.rest.trans (by rw [h.rest])

theorem ExchStep.trans {s t u : State} {l : Nat} (h : ExchStep s t l) (h' : ExchStep t u l) : ExchStep s u l where
  toExchFrame := h.toExchFrame.trans h'.toExchFrame
  occs := h'.occs.trans h.occs
  waits idx hw := h'.waits idx (h.waits idx hw)

theorem exchStep_refl (s : State) (l : Nat) : ExchStep s s l := ⟨⟨rfl, rfl, rfl, fun _ _ => rfl, rfl⟩, rfl, fun _ h => h⟩

/-- Where each step leaves as many clusters as it finds, their number is at hand for the next. -/
theorem ExchStep.foldl {β : Type} {g : State → β → State} {l : Nat} (hg : ∀ (t : State) (b : β), l < t.clusters.length → ExchStep t (g t b) l)
    (bs : List β) (s : State) (hl : l < s.clusters.length) : ExchStep s (bs.foldl g s) l := by
  induction bs generalizing s with
  | nil => exact exchStep_refl s l
  | cons b bs ih =>
    have hb := hg s b hl
    exact hb.trans (ih (g s b) (hb.size ▸ hl))

/-- The Derailleurs stay as they are. -/
theorem exchStep_of_drl {s t : State} {l : Nat} (hdrl : (t.cluster l).drl = (s.cluster l).drl) (hsize : t.clusters.length = s.clusters.length)
    (hothers : SameClusters s t l) (hrest : t = { s with
      mem := t.mem, tags := t.tags, poison := t.poison, clusters := t.clusters, fab := t.fab, ctr := t.ctr
      pages := { s.pages with ce := t.pages.ce } }) : ExchStep s t l :=
  ⟨⟨by rw [hdrl], by rw [hdrl], hsize, hothers, hrest⟩, by rw [hdrl], fun _ h => by rwa [hdrl]⟩

theorem exchStep_store (s : State) (l : Nat) (ws : List (Nat × List Byte)) : ExchStep s (s.store ws) l :=
  exchStep_of_drl rfl rfl (fun _ _ => rfl) rfl

theorem exchStep_put (s : State) (l : Nat) (w : Written) : ExchStep s (s.put w) l :=
  exchStep_of_drl rfl rfl (fun _ _ => rfl) rfl

theorem exchStep_count (s : State) (l : Nat) (ws : List (Nat × Nat)) : ExchStep s (s.count l ws) l :=
  exchStep_of_drl (s.count_drl l ws l) (by simp) (sameClusters_updCluster s l _) rfl

theorem OnlyFab.exchStep {s t : State} (h : OnlyFab s t) (l : Nat) : ExchStep s t l :=
  exchStep_of_drl (by rw [h.cluster]) (by rw [h]) (fun k _ => h.cluster k) (by rw [h])

theorem exchStep_groupSend (s : State) (l ctx dst : Nat) (b : Body) : ExchStep s (s.groupSend l ctx dst b) l :=
  (exchStep_count s l _).trans ((onlyFab_withFab _ _).exchStep l)

section
variable (s : State) {l : Nat} (hl : l < s.clusters.length)
include hl

theorem exchStep_updDrl {f : Drl → Drl} (hf : ∀ d, (f d).ctrs = d.ctrs ∧ (f d).head = d.head ∧ (f d).occs = d.occs)
    (hw : ∀ d idx, d.Exchanging idx → (f d).Exchanging idx) : ExchStep s (s.updDrl l f) l := by
  have hdrl := s.updDrl_drl l f hl
  obtain ⟨hctrs, hhead, hoccs⟩ := hf (s.cluster l).drl
  exact ⟨⟨by rw [hdrl, hctrs], by rw [hdrl, hhead], s.updDrl_length l f, sameClusters_updCluster s l _, rfl⟩, by rw [hdrl, hoccs],
    fun idx h => by rw [hdrl]; exact hw _ idx h⟩

/-- A flight's work changes to that of an exchange, or does not change. -/
theorem exchStep_setFlight {idx : Nat} {g : Flight → Flight} (hidx : ∀ f, (g f).idx = f.idx)
    (hg : ∀ f, (g f).work = f.work ∨ (g f).work = .requests ∨ ∃ e, (g f).work = .exch e) :
    ExchStep s (s.updDrl l (fun d => d.setFlight idx g)) l := by
  refine exchStep_updDrl s hl (fun _ => ⟨rfl, rfl, rfl⟩) fun d i hw f hf hi => ?_
  obtain ⟨f, hmem, rfl⟩ := List.mem_map.1 hf
  split at hi
  · rw [hidx] at hi
    rw [if_pos ‹_›]
    rcases hg f with hsame | hexch
    · rw [hsame]
      exact hw f hmem hi
    · exact hexch
  · rw [if_neg ‹_›]
    exact hw f hmem hi

/-! ## An exchange goes on (R322, R324) -/

theorem exchStep_request {idx : Option Nat} {dst ctx : Nat} {b : Body} {also : List Nat} {t : State}
    (h : s.request l idx dst ctx b also = some t) : ExchStep s t l := by
  unfold State.request at h
  split at h
  · cases h
  · rename_i tag htag
    extract_lets m u at h
    obtain rfl := Option.some.inj h
    have hwaits : ExchStep s u l := exchStep_updDrl s hl (fun _ => ⟨rfl, rfl, rfl⟩) fun _ _ hw => hw
    exact hwaits.trans ((exchStep_count u l _).trans ((onlyFab_withFab _ _).exchStep l))

end

section
variable (s : State) (x : Site) (a d : Tensor) (e : Exch)

theorem exchStep_answerExch (hl : x.l < s.clusters.length) : ExchStep s (s.answerExch x a d e).1 x.l := by
  unfold State.answerExch
  split
  · exact exchStep_refl s x.l
  · split
    · exact exchStep_refl s x.l
    · exact ExchStep.foldl (fun t _ _ => exchStep_groupSend t x.l _ _ _) _ s hl

theorem exchStep_writePlaces : ExchStep s (s.writePlaces x e).1 x.l := by
  unfold State.writePlaces
  split
  · split
    · exact exchStep_refl s x.l
    · exact (exchStep_store s x.l _).trans (exchStep_put _ x.l _)
  · exact exchStep_refl s x.l

theorem exchStep_sendRows (rows : List (Nat × Nat × Nat × Nat)) (hl : x.l < s.clusters.length) : ExchStep s (s.sendRows x rows).1 x.l := by
  induction rows generalizing s with
  | nil => exact exchStep_refl s x.l
  | cons q qs ih =>
    rw [State.sendRows]
    split
    · rename_i t ht
      have hsent := exchStep_request s hl ht
      have hnoted := hsent.trans (exchStep_setFlight t (hsent.size ▸ hl) (idx := x.f.idx)
        (g := fun f => { f with sent := f.sent + q.2.2.2 }) (fun _ => rfl) fun _ => .inl rfl)
      exact hnoted.trans (ih _ (hnoted.size ▸ hl))
    · exact exchStep_refl s x.l

/-- The work of an exchange after it has gone on. -/
def Exch.left (e : Exch) : Work := if e.settled then .requests else .exch e

theorem Exch.left_cases : e.left = .requests ∨ ∃ e', e.left = .exch e' := by
  unfold Exch.left
  split
  · exact .inl rfl
  · exact .inr ⟨e, rfl⟩

/-- An exchange that goes on ends with its flight set to what is left of it. -/
theorem State.settleExch_spec (hl : x.l < s.clusters.length) : ∃ (t : State) (e' : Exch), ExchStep s t x.l ∧
    s.settleExch x a d e = t.setWork x e'.left := by
  have hanswer := exchStep_answerExch s x a d e hl
  have hwrite := hanswer.trans (exchStep_writePlaces (s.answerExch x a d e).1 x (s.answerExch x a d e).2)
  exact ⟨_, _, hwrite.trans (exchStep_sendRows _ x _ (hwrite.size ▸ hl)), rfl⟩

theorem exchStep_settleExch (hl : x.l < s.clusters.length) : ExchStep s (s.settleExch x a d e) x.l := by
  obtain ⟨t, e', hstep, heq⟩ := s.settleExch_spec x a d e hl
  rw [heq]
  exact hstep.trans (exchStep_setFlight t (hstep.size ▸ hl) (fun _ => rfl) fun _ => .inr e'.left_cases)

theorem settleExch_exchanging (hl : x.l < s.clusters.length) : ((s.settleExch x a d e).cluster x.l).drl.Exchanging x.f.idx := by
  obtain ⟨t, e', hstep, heq⟩ := s.settleExch_spec x a d e hl
  intro f hf hidx
  rw [heq] at hf
  rw [State.setWork_work (hstep.size ▸ hl) hf hidx]
  exact e'.left_cases

end

/-! ## An exchange starts (R322, R324) -/

theorem State.exchAt_l {s : State} {l desc occ : Nat} {x : Site} {e : Exch} (h : s.exchAt l desc occ = some (x, e)) : x.l = l := by
  obtain ⟨f, -, hf⟩ := List.exists_of_findSome?_eq_some h
  split at hf
  · split at hf
    · obtain ⟨y, hy, heq⟩ := Option.map_eq_some_iff.1 hf
      cases heq
      exact (State.site_place hy).1
    · cases hf
  · cases hf

theorem exchStep_stepExch (s : State) {l : Nat} (hl : l < s.clusters.length) (desc occ src phase : Nat) (cs : List (Nat × Nat × Nat)) :
    ExchStep s ((s.stepExch l desc occ src phase cs).getD s) l := by
  unfold State.stepExch
  split
  · exact exchStep_refl s l
  · rename_i x e hat
    obtain rfl := State.exchAt_l hat
    split
    · exact exchStep_settleExch s x _ _ _ hl
    · exact exchStep_refl s x.l

theorem exchStep_zeroRows (s : State) {l : Nat} (hl : l < s.clusters.length) (e : Exch) (d : Tensor) : ExchStep s (s.zeroRows e d) l := by
  unfold State.zeroRows
  extract_lets zero
  split
  · refine ExchStep.foldl (fun t p _ => ?_) _ s hl
    split
    · exact exchStep_put t l _
    · exact exchStep_refl t l
  · exact exchStep_put s l _

theorem Drl.bumpOcc_occ (d : Drl) (desc : Nat) : (d.bumpOcc desc).occ desc = (d.occ desc + 1) % 65536 := by
  rw [Drl.bumpOcc, Drl.occ, assoc_assocSet_self, Option.getD_some]

theorem exchFrame_bumpOcc (s : State) {l : Nat} (hl : l < s.clusters.length) (desc : Nat) :
    ExchFrame s (s.updDrl l (fun d => d.bumpOcc desc)) l where
  ctrs := by rw [State.updDrl_drl _ _ _ hl]; rfl
  head := by rw [State.updDrl_drl _ _ _ hl]; rfl
  size := s.updDrl_length l _
  others := sameClusters_updCluster s l _
  rest := rfl

theorem ExchStep.occ {s t : State} {l : Nat} (h : ExchStep s t l) (desc : Nat) : (t.cluster l).drl.occ desc = (s.cluster l).drl.occ desc := by
  rw [Drl.occ, h.occs, Drl.occ]

theorem exchStep_takeEarly (s : State) {l : Nat} (hl : l < s.clusters.length) (desc occ : Nat) :
    ExchStep s (s.takeEarly l desc occ).1 l :=
  exchStep_updDrl s hl (f := fun d => { d with early := d.early.filter (fun m => m.body.occ ≠ some (desc, occ)) })
    (fun _ => ⟨rfl, rfl, rfl⟩) fun _ _ hw => hw

/-- The counts of a started exchange go to the members that it routes to (R322). -/
def State.tellCounts (s : State) (x : Site) (e : Exch) : State :=
  e.targets.foldl (fun s j => s.groupSend x.l x.key.ctx (e.group.getD j s.me) (.count e.desc e.occ 0 (e.counts j)))
    (s.count x.l [(ctExchanges, 1)])

theorem exchStep_tellCounts (s : State) (x : Site) (hl : x.l < s.clusters.length) (e : Exch) : ExchStep s (s.tellCounts x e) x.l := by
  have hcount := exchStep_count s x.l [(ctExchanges, 1)]
  exact hcount.trans (ExchStep.foldl (fun t _ _ => exchStep_groupSend t x.l _ _ _) _ _ (hcount.size ▸ hl))

/-- COUNTs that came before the exchange of their occurrence started are heard by it (R419). -/
def State.hearEarly (s : State) (x : Site) (occ : Nat) (ms : List Msg) : State :=
  ms.foldl (fun (s : State) m =>
    match m.body with
    | .count _ _ phase cs => (s.stepExch x.l x.e.aux occ m.src phase cs).getD s
    | _ => s) s

theorem exchStep_hearEarly (s : State) (x : Site) (hl : x.l < s.clusters.length) (occ : Nat) (ms : List Msg) :
    ExchStep s (s.hearEarly x occ ms) x.l := by
  refine ExchStep.foldl (fun t m ht => ?_) ms s hl
  split
  · exact exchStep_stepExch t ht _ _ _ _ _
  · exact exchStep_refl t x.l

/-- The start of an exchange: its occurrence counted, its counts told, a first round, and the COUNTs that came early. -/
theorem State.startExch_eq (s : State) (x : Site) (d : ExchDesc) (p : ShardPlan) (pl a o : Tensor) :
    s.startExch x d p pl a o =
      let e := s.exchOf x d p pl o
      let told := ((s.zeroRows e o).updDrl x.l (fun q => q.bumpOcc x.e.aux)).tellCounts x e
      let early := (told.settleExch x a o e).takeEarly x.l x.e.aux e.occ
      early.1.hearEarly x e.occ early.2 := rfl

/-- An exchange that starts is in progress, or waits for its acknowledges, and has counted its occurrence. -/
theorem State.startExch_spec (s : State) (x : Site) (d : ExchDesc) (p : ShardPlan) (pl a o : Tensor) (hl : x.l < s.clusters.length) :
    ExchFrame s (s.startExch x d p pl a o) x.l ∧ ((s.startExch x d p pl a o).cluster x.l).drl.Exchanging x.f.idx ∧
    ((s.startExch x d p pl a o).cluster x.l).drl.occ x.e.aux = ((s.cluster x.l).drl.occ x.e.aux + 1) % 65536 := by
  rw [State.startExch_eq]
  extract_lets e told early
  have hzeroed : ExchStep s (s.zeroRows e o) x.l := exchStep_zeroRows s hl e o
  have hlz := hzeroed.size ▸ hl
  have hbumped := exchFrame_bumpOcc (s.zeroRows e o) hlz x.e.aux
  have hlb := hbumped.size ▸ hlz
  have htold : ExchStep _ told x.l := exchStep_tellCounts _ x hlb e
  have hlt := htold.size ▸ hlb
  have hsettled := exchStep_settleExch told x a o e hlt
  have hls := hsettled.size ▸ hlt
  have htaken : ExchStep _ early.1 x.l := exchStep_takeEarly _ hls x.e.aux e.occ
  have hheard := htaken.trans (exchStep_hearEarly early.1 x (htaken.size ▸ hls) e.occ early.2)
  have hafter := (htold.trans hsettled).trans hheard
  refine ⟨(hzeroed.toExchFrame.trans hbumped).trans hafter.toExchFrame, hheard.waits _ (settleExch_exchanging told x a o e hlt), ?_⟩
  rw [hafter.occ, State.updDrl_drl _ _ _ hlz, Drl.bumpOcc_occ, hzeroed.occ]

theorem State.OnlyCounted.exchStep {s t : State} (h : s.OnlyCounted t) {l : Nat} (hdrl : (t.cluster l).drl = (s.cluster l).drl)
    (hsize : t.clusters.length = s.clusters.length) (hothers : SameClusters s t l) : ExchStep s t l :=
  exchStep_of_drl hdrl hsize hothers (by rw [h])

/-! ## What holds of the statement -/

/-- What an EXCHANGE reads and writes. -/
def exchAccesses (x : Site) (d : ExchDesc) (pl a o : Tensor) : List Access :=
  if d.dir = 1 then tensorAccesses (a :: (x.ten d.route).toList) (o :: pl :: (x.ten d.stats).toList) else tensorAccesses [a, pl] [o]

theorem exec_exchange_of_clear {s : State} {l idx : Nat} {ev : Ev} {x : Site} {d : ExchDesc} {p : ShardPlan} {a o pl : Tensor} (hl : l < 128)
    (hx : s.todo l idx .exchange = some x) (hw : x.f.work = .todo) (hd : x.job.exchs[x.e.aux]? = some d) (hp : x.job.shard = some p)
    (ha : x.opa = some a) (ho : x.opd = some o) (hpl : x.ten d.place = some pl) (hclear : s.clear x ev (exchAccesses x d pl a o)) :
    exec (.exchange l idx ev) s = .next ((s.counted x ev (exchAccesses x d pl a o)).startExch x d p pl a o) := by
  obtain ⟨hsite, -, -, hop⟩ := State.todo_spec hx
  refine (onCluster_of_lt hl _).trans (congrArg _ ?_)
  rw [hsite]
  dsimp only
  rw [if_neg (not_not_intro hop), hw]
  dsimp only
  rw [State.runExch, hd, hp, ha, ho]
  dsimp only
  rw [hpl]
  exact State.guard_of_clear hclear _

/-- The first clause of O53 holds of every entry whose work is still to begin: it is then an exchange in progress, or waits for its
acknowledges, and has counted its occurrence. -/
theorem exchange_starts_of_todo {s : State} {l idx : Nat} {ev : Ev} {x : Site} {d : ExchDesc} {p : ShardPlan} {a o pl : Tensor} (hl : l < 128)
    (hlen : s.clusters.length = 128) (hx : s.todo l idx .exchange = some x) (hw : x.f.work = .todo) (hd : x.job.exchs[x.e.aux]? = some d)
    (hp : x.job.shard = some p) (ha : x.opa = some a) (ho : x.opd = some o) (hpl : x.ten d.place = some pl)
    (hclear : s.clear x ev (exchAccesses x d pl a o)) :
    Answers (.exchange l idx ev) s (fun t => ExchFrame s t l ∧ (t.cluster l).drl.Exchanging x.f.idx ∧
      (t.cluster l).drl.occ x.e.aux = ((s.cluster l).drl.occ x.e.aux + 1) % 65536) := by
  refine ⟨_, exec_exchange_of_clear hl hx hw hd hp ha ho hpl hclear, ?_⟩
  obtain ⟨-, rfl, -, -⟩ := State.todo_spec hx
  have hworks := works_counted s x ev (exchAccesses x d pl a o)
  have hcounted : ExchStep s (s.counted x ev (exchAccesses x d pl a o)) x.l := (s.onlyCounted_counted x ev _).exchStep
    (s.counted_part (·.drl) (fun _ _ => rfl) x ev _ x.l) hworks.size hworks.others
  obtain ⟨hframe, hwaits, hocc⟩ := State.startExch_spec (s.counted x ev (exchAccesses x d pl a o)) x d p pl a o (hcounted.size ▸ hlen ▸ hl)
  exact ⟨hcounted.toExchFrame.trans hframe, hwaits, hocc.trans (by rw [hcounted.occ])⟩

theorem exec_count_eq (rx : Rx) (desc occ phase : Nat) (cs : List (Nat × Nat × Nat)) (s : State) : exec (.count rx desc occ phase cs) s =
    s.arrive rx (.count desc occ phase cs)
      (fun s => s.groupTake rx .exchange desc occ (.count desc occ phase cs) (fun s l => s.stepExch l desc occ rx.src phase cs)) := rfl

theorem OnlyFab.groupHome {s t : State} (h : OnlyFab s t) (rx : Rx) (op : Opcode) (desc : Nat) :
    t.groupHome rx op desc = s.groupHome rx op desc := by
  unfold OnlyFab at h
  rw [h]
  rfl

theorem State.exchAt_congr {s t : State} {l : Nat} (hdrl : (t.cluster l).drl = (s.cluster l).drl) (hjobs : t.jobs = s.jobs) (desc occ : Nat) :
    t.exchAt l desc occ = s.exchAt l desc occ := by
  simp only [State.exchAt, hdrl, State.site_congr hdrl hjobs]

/-- A message of a group reaches the operation in progress on the cluster that takes part in it for the sender. -/
theorem State.groupTake_of_taken {s u : State} {rx : Rx} {op : Opcode} {desc occ l : Nat} {b : Body} {take : State → Nat → Option State}
    {k : TaskKey} (hb : s.barred rx.ctx = false) (hhome : s.groupHome rx op desc = some (k, l)) (hk : (s.cluster l).drl.holder = some k)
    (htake : take (s.count l [(ctMsgRecv, 1), (ctBytesRecv, b.payBytes)]) l = some u) : s.groupTake rx op desc occ b take = u := by
  have hholder : ((s.count l [(ctMsgRecv, 1), (ctBytesRecv, b.payBytes)]).cluster l).drl.holder = some k := by rw [State.count_drl, hk]
  unfold State.groupTake
  rw [hb, hhome]
  dsimp only
  rw [if_pos hholder, htake]
  rfl

/-- The module with a message of a group received, and counted on the cluster that takes part. -/
def State.groupReceived (s : State) (rx : Rx) (b : Body) (l : Nat) : State :=
  (s.received rx b).count l [(ctMsgRecv, 1), (ctBytesRecv, b.payBytes)]

theorem exchStep_groupReceived (s : State) (rx : Rx) (b : Body) (l : Nat) : ExchStep s (s.groupReceived rx b l) l :=
  ((onlyFab_received s rx b).exchStep l).trans (exchStep_count _ l _)

theorem State.exchAt_groupReceived (s : State) (rx : Rx) (b : Body) (l desc occ : Nat) :
    (s.groupReceived rx b l).exchAt l desc occ = s.exchAt l desc occ := by
  have hrec := onlyFab_received s rx b
  have hdrl : ((s.groupReceived rx b l).cluster l).drl = (s.cluster l).drl := by rw [State.groupReceived, State.count_drl, hrec.cluster]
  exact State.exchAt_congr hdrl hrec.jobs desc occ

section
variable {s : State} {rx : Rx} {l desc occ phase i : Nat} {cs : List (Nat × Nat × Nat)} {k : TaskKey} {x : Site} {e : Exch} {a o : Tensor}
  (ha : x.opa = some a) (ho : x.opd = some o) (h : s.hears rx = true) (hb : s.barred rx.ctx = false)
  (hhome : s.groupHome rx .exchange desc = some (k, l)) (hk : (s.cluster l).drl.holder = some k)
  (hat : s.exchAt l desc occ = some (x, e)) (hi : e.group.findIdx? (· = rx.src) = some i)
include ha ho h hb hhome hk hat hi

theorem exec_count_of_member : exec (.count rx desc occ phase cs) s =
    .next (((s.groupReceived rx (.count desc occ phase cs) l).settleExch x a o (e.hear a o i phase cs)).portDone rx
      (.count desc occ phase cs)) := by
  rw [exec_count_eq, State.arrive_of_hears h, State.settled_of_not_write _ _ _ (by intro _ _ h; cases h)]
  generalize Body.count desc occ phase cs = b
  have hrec := onlyFab_received s rx b
  refine congrArg (fun u : State => Host.Outcome.next (u.portDone rx b)) (State.groupTake_of_taken ((hrec.barred _).trans hb)
    ((hrec.groupHome ..).trans hhome) ((congrArg (·.drl.holder) (hrec.cluster l)).trans hk) ?_)
  rw [← State.groupReceived, State.stepExch, State.exchAt_groupReceived, hat]
  dsimp only
  rw [ha, ho, hi]

/-- The second clause of O53 holds as it stands: a COUNT of a member is heard by the exchange in progress. -/
theorem count_isHeard (hl : l < s.clusters.length) : Answers (.count rx desc occ phase cs) s (fun t =>
    ExchFrame s t l ∧ (t.cluster l).drl.Exchanging x.f.idx) := by
  refine ⟨_, exec_count_of_member ha ho h hb hhome hk hat hi, ?_⟩
  obtain rfl := State.exchAt_l hat
  generalize Body.count desc occ phase cs = b
  have hrec := exchStep_groupReceived s rx b x.l
  have hlr := hrec.size ▸ hl
  have hheard := exchStep_settleExch (s.groupReceived rx b x.l) x a o (e.hear a o i phase cs) hlr
  have hdone := (onlyFab_portDone ((s.groupReceived rx b x.l).settleExch x a o (e.hear a o i phase cs)) rx b).exchStep x.l
  exact ⟨((hrec.trans hheard).trans hdone).toExchFrame, hdone.waits _ (settleExch_exchanging _ x a o _ hlr)⟩

end

/-! ## The flight that the statement does not leave out -/

/-- An entry whose flight is marked for a retry neither starts nor goes on as an exchange. -/
theorem exec_exchange_of_retry {s : State} {l idx : Nat} {x : Site} {cells : List CellFault} {fails : List (Nat × List Nat × List Nat)}
    (hl : l < 128) (hx : s.site l idx = some x) (hw : x.f.work = .retry cells fails) (ev : Ev) : exec (.exchange l idx ev) s = .next s := by
  refine (onCluster_of_lt hl _).trans (congrArg _ ?_)
  rw [hx]
  dsimp only
  rw [hw]
  exact ite_self s

/-- A tensor of one row of four words in the host area. -/
def rowTensor (base haz : Nat) : Tensor :=
  { fmt := .i32, base, srecEn := false, srec := 0, splane := 0, rows := 1, cols := 4, lrows := 1, lcols := 4, stride := 64, haz, id := 0,
    fullCols := 4, indexBase := 0 }

/-- A COMBINE of the two choices of one token, with its placement in tensor 2 (R318, R323). -/
def combineDesc : ExchDesc := ⟨2, 2, false, noIdx, 2, noIdx, 1, 0, 0⟩

/-- A plan of the module alone, with one layer of two experts (R306, R320). -/
def lonePlan : ShardPlan := ⟨1, 1, 1, 0, false, 1, [0x40], [⟨0, 2, false, 2, 1, 0⟩]⟩

def combineEntry : Entry :=
  { op := .exchange, reord := false, mig := true, fence := 0, sigOn := false, rnd := 0, waitEn := false, waitCtr := 0, sigCtr := 0, mask := 0,
    waitVal := 0, opa := 0, opb := noIdx, opd := 1, aux := 0, w2 := 0, w3 := 0 }

/-- A job whose task 0 runs the COMBINE on cluster 0. -/
def combineJob : Job :=
  { ctx := 1, handle := 1, seed := 0, drl := none, regions := [], pages := [], tasks := [⟨0, 4, false, 0, 0, 1000, 1000⟩]
    tensors := [rowTensor 0x10000000 1, rowTensor 0x10001000 2, rowTensor 0x10002000 3], chains := [], reds := [], streams := []
    exchs := [combineDesc], opts := [], slots := [], tops := [], cassettes := [⟨0, 0, [combineEntry], []⟩], shard := some lonePlan
    param := none, pairs := [], curv := none, sol := none, hlens := [], factored := [] }

/-- The flight of the COMBINE, with the mark of a tile entry that is computed again. -/
def retryFlight : Flight :=
  { idx := 0, work := .retry [] [], til := tilCfgDefault, chn := 0, tag := none, flags := {}, hyper := [], sent := 0 }

/-- The module after reset with the job, whose COMBINE has issued and is marked so. -/
def retryState : State :=
  { State.reset with
    jobs := [combineJob]
    clusters := { Cluster.reset with drl := { Drl.start ⟨1, 1, 0⟩ with flights := [retryFlight] } } :: List.replicate 127 Cluster.reset }

def retrySite : Site := ⟨0, ⟨1, 1, 0⟩, combineJob, combineEntry, retryFlight⟩

theorem retryState_todo : retryState.todo 0 0 .exchange = some retrySite := rfl

theorem retryState_clear :
    retryState.clear retrySite Ev.none (tensorAccesses [rowTensor 0x10000000 1, rowTensor 0x10002000 3] [rowTensor 0x10001000 2]) :=
  ⟨by decide, by decide, by decide⟩

/-- Refutes O53: an EXCHANGE in flight with the mark of a retry is to be worked on by `State.todo`, but starts nothing, so that it counts no
occurrence. -/
theorem not_exchangesGoOn : ¬ Obligations.ExchangesGoOn := by
  intro h
  obtain ⟨hstart, -⟩ := h retryState 0 0 Ev.none retrySite combineDesc lonePlan (rowTensor 0x10000000 1) (rowTensor 0x10001000 2)
    (rowTensor 0x10002000 3) (by decide) rfl rfl rfl rfl rfl rfl
  obtain ⟨-, t, hexec, -, hocc⟩ := hstart retryState_todo retryState_clear
  rw [exec_exchange_of_retry (by decide) (State.todo_spec retryState_todo).1 rfl] at hexec
  cases hexec
  omega

end Sys2Proof.Machine
end

section
/-!
Proof, solver mode: the entries of a solver's generated Cassettes (R340, R346, R347, R361), and delta packets applied at once, kept while a
cycle runs, and applied after it from the pending area (R341 to R344).
-/

namespace Sys2Proof.Machine

/-! ## Entries of a generated Cassette (R340, R361) -/

theorem State.OnlyCounted.sol {s t : State} (h : s.OnlyCounted t) : t.sol = s.sol := by rw [h]

section
variable {s : State} {l idx : Nat} {x : Site} {o : SolOp}

/-- A clear entry does what its place in the cycle says, counts its lane strokes and is done. -/
theorem State.runSol_of_clear {ev : Ev} {p : SolPlan} (hplan : x.job.sol = some p) (hclear : s.clear x ev (p.accesses x.job x.l)) :
    s.runSol x o ev =
      (((s.counted x ev (p.accesses x.job x.l)).solWork x p o).count x.l [(77, p.laneStrokes x.l o)]).workDone x := by
  rw [State.runSol, hplan]
  exact State.guard_of_clear hclear _

theorem exec_chain_of_solOp (hl : l < 128) (hx : s.todo l idx .chain = some x) (ho : x.solOp = some o) (ev : Ev) :
    exec (.chain l idx ev) s = .next (s.runSol x o ev) := by
  refine (onCluster_of_lt hl _).trans (congrArg _ ?_)
  rw [hx]
  dsimp only
  rw [ho]

variable {k : Nat} (hl : l < 128) (hx : s.todo l idx .topiary = some x) (hsol : x.solOp = some o)
include hl hx hsol

theorem exec_factor_of_solOp (hfactor : o = .factor k ∨ o = .factorL k) (ev : Ev) :
    exec (.factor l idx ev) s = .next (s.runSol x o ev) := by
  refine (onCluster_of_lt hl _).trans (congrArg _ ?_)
  rw [hx]
  dsimp only
  rw [hsol]
  obtain rfl | rfl := hfactor <;> rfl

theorem exec_solve_of_solOp (hsolve : o = .solve k ∨ o = .solveL k) (ev : Ev) :
    exec (.solve l idx ev) s = .next (s.runSol x o ev) := by
  refine (onCluster_of_lt hl _).trans (congrArg _ ?_)
  rw [hx]
  dsimp only
  rw [hsol]
  obtain rfl | rfl := hsolve <;> rfl

end

/-- What an entry's place in the cycle stores is all that it stores. -/
theorem Works.solDone {s t : State} {x : Site} {p : SolPlan} {o : SolOp} {ws : List (Nat × List Byte)}
    (h : Works s t x []) (hwork : Works t (t.solWork x p o) x ws) (hl : x.l < s.clusters.length) :
    WorkDone s (((t.solWork x p o).count x.l [(77, p.laneStrokes x.l o)]).workDone x) x (Cells.writeAll s.mem ws) (rangesOf ws) :=
  ((h.thenStore hwork).thenQuiet (works_count _ x _)).workDone hl {}

/-! ## SOLVE and the iteration (R347) -/

theorem works_onLarge {x : Site} {f : State → SolLarge → SolClass → State} (hf : ∀ t g c, Works t (f t g c) x []) (s : State) (p : SolPlan)
    (n : Nat) (lead : Bool) : Works s (s.onLarge x p n lead f) x [] := by
  unfold State.onLarge
  split
  · split
    · split
      · exact works_refl s x
      · exact hf s _ _
    · exact works_refl s x
  · exact works_refl s x

/-- A SOLVE counts its strokes alone: the iteration that follows takes up its result (R254). -/
theorem works_solWork_of_solve {o : SolOp} {k : Nat} (ho : o = .solve k ∨ o = .solveL k) (s : State) (x : Site) (p : SolPlan) :
    Works s (s.solWork x p o) x [] := by
  obtain rfl | rfl := ho
  case inl =>
    unfold State.solWork
    dsimp only
    split
    · exact works_count s x _
    · exact works_refl s x
  case inr => exact works_onLarge (fun t g _ => works_count t x [(ctTopFore, solveStrokes g.block 1 1)]) s p k false

/-- The bytes of the iterate that one iteration of a small problem leaves in WORK. -/
def State.iterated (s : State) (x : Site) (c : SolClass) (n : Nat) (b : Blk) : List Byte :=
  (admmStep c.block c (s.sol.prob n).rho b (BData.read s.mem b 0) (x.job.factorOf s.mem b) (Iter.read s.mem b.work b.n b.m)).bytes

theorem State.OnlyCounted.iterated {s t : State} (h : s.OnlyCounted t) (x : Site) (c : SolClass) (n : Nat) (b : Blk) :
    t.iterated x c n b = s.iterated x c n b := by
  rw [State.iterated, h.mem, h.sol, State.iterated]

theorem State.iterProb_of_running {s : State} {n : Nat} (h : (s.sol.prob n).frozen = none) (x : Site) (c : SolClass) (b : Blk) :
    s.iterProb x c n b = s.store [(b.work, s.iterated x c n b)] := by
  simp [State.iterProb, h, State.iterated]

/-- On a cluster that holds one problem of the class, the iteration is that problem's. -/
theorem State.solWork_iter_of_single {x : Site} {p : SolPlan} {c : SolClass} {k n : Nat} (hc : p.cls k = some c)
    (hn : p.onCluster k x.l = [n]) (s : State) : s.solWork x p (.iter k) = s.iterProb x c (p.first k + n) (c.blk n) := by
  simp [State.solWork, State.eachProb, hc, hn]

/-! ## Delta packets applied (R341 to R343) -/

theorem State.store_store (s : State) (ws vs : List (Nat × List Byte)) : (s.store ws).store vs = s.store (ws ++ vs) := by
  simp [State.store, Cells.writeAll_append]

/-- The packet's bytes copied to the end of the pending area. -/
def State.keepDelta (s : State) (plan : SolPlan) (p : Pkt) : State :=
  { s.store [(plan.pendBase + s.sol.pendBytes, p.pay)] with
    sol := { s.sol with pend := s.sol.pend ++ [(p.id, p.pay.length)] }
    hub := s.hub.updPkt p.id (fun q => { q with started := true }) }

section
variable {s : State} {p : Pkt} {plan : SolPlan} (hplan : s.solverPlan p.ctx = some plan)
include hplan

theorem State.applyDelta_of_valid {ds : List Delta} {ws : List (Nat × List Byte)} (h : deltaWrites s.mem plan p.pay = some (ds, ws)) :
    s.applyDelta p =
      ({ s.store (ws ++ dirtyRecords plan (Cells.writeAll s.mem ws) ds) with
        sol := { s.sol with deltaEntries := satAdd 32 s.sol.deltaEntries ds.length } } : State).endPkt p pktOk (BitVec.ofNat 64 ds.length) := by
  rw [← State.store_store, State.applyDelta, hplan]
  dsimp only
  rw [h]
  rfl

theorem State.applyDelta_of_invalid (h : deltaWrites s.mem plan p.pay = none) :
    s.applyDelta p =
      ({ s with sol := { s.sol with deltaRejects := satAdd 32 s.sol.deltaRejects 1 } } : State).endPkt p statusDeltaInvalid 0 := by
  rw [State.applyDelta, hplan]
  dsimp only
  rw [h]

/-- Applied or refused, the packet ends. -/
theorem State.applyDelta_pkt : (s.applyDelta p).hub.pkt p.id = none := by
  cases h : deltaWrites s.mem plan p.pay with
  | none =>
    rw [State.applyDelta_of_invalid hplan h]
    exact State.endPkt_pkt ..
  | some q =>
    rw [State.applyDelta_of_valid hplan h]
    exact State.endPkt_pkt ..

/-- The packets that wait in the pending area stay. -/
theorem State.applyDelta_pend : (s.applyDelta p).sol.pend = s.sol.pend := by
  cases h : deltaWrites s.mem plan p.pay with
  | none =>
    rw [State.applyDelta_of_invalid hplan h]
    simp
  | some q =>
    rw [State.applyDelta_of_valid hplan h]
    simp

/-! ## SOL_DELTA (R342, R344) -/

variable (hstarted : p.started = false) (hsize : p.pay.length % 16 = 0) (hpay : p.pay ≠ [])
include hstarted hsize hpay

/-- While no cycle runs and none waits, a packet of entries is applied. -/
theorem State.doDelta_of_idle (hoff : s.sol.cycleOn = false) (hnone : s.sol.pend = []) : s.doDelta p = s.applyDelta p := by
  simp [State.doDelta, hstarted, hplan, hsize, hpay, hoff, hnone]

variable (hbusy : s.sol.cycleOn = true ∨ s.sol.pend ≠ [])
include hbusy

/-- A packet that may not be applied yet is kept where it has room, and waits where it has none. -/
theorem State.doDelta_of_busy : s.doDelta p =
    if s.deltaFull p = true ∨ s.lands (plan.pendBase + s.sol.pendBytes) p.pay.length = false then s else s.keepDelta plan p := by
  have hnot : ¬ (s.sol.cycleOn = false ∧ s.sol.pend = []) := by
    rintro ⟨hoff, hnone⟩
    exact hbusy.elim (fun hon => Bool.noConfusion (hoff.symm.trans hon)) (· hnone)
  simp [State.doDelta, hstarted, hplan, hsize, hpay, hnot, State.keepDelta]

end

/-! ## PENDING_DELTA_APPLY (R344) -/

theorem exec_pendingDeltaApply_eq (s : State) : exec .pendingDeltaApply s = execPendingDeltaApply s := rfl

theorem exec_pendingDeltaApply_of_cycle {s : State} (hon : s.sol.cycleOn = true) : exec .pendingDeltaApply s = .next s :=
  (exec_pendingDeltaApply_eq s).trans (by simp [execPendingDeltaApply, hon])

theorem exec_pendingDeltaApply_of_single {s : State} {p : Pkt} {all : SolPlan} {n : Nat} (hall : s.solverPlan 0 = some all)
    (hp : s.hub.pkt p.id = some p) (hoff : s.sol.cycleOn = false) (hpend : s.sol.pend = [(p.id, n)]) :
    exec .pendingDeltaApply s =
      .next (({ s with sol := { s.sol with pend := [] } } : State).applyDelta { p with pay := Cells.read s.mem all.pendBase n }) := by
  refine (exec_pendingDeltaApply_eq s).trans ?_
  simp only [execPendingDeltaApply, hoff, hall, hpend, Bool.false_eq_true, if_false, State.applyPending, hp, Nat.add_zero]

/-! ## The statement -/

/-- Settles O50: an entry's guard only counts, so that a clear one takes its place's work from the state before it; a delta packet's fate
follows its entries' check, the cycle and the room, and one that was kept is applied like one that comes, with the area's bytes. -/
theorem solverEntriesAndDeltasRun : Obligations.SolverEntriesAndDeltasRun := by
  constructor
  · intro s l idx ev x p o k hl hlen hplan hsol hclear done
    have hin {op : Opcode} (hx : s.todo l idx op = some x) : x.l < s.clusters.length := by
      obtain ⟨-, hxl, -, -⟩ := State.todo_spec hx
      omega
    have hrun {op : Opcode} (hx : s.todo l idx op = some x) : s.runSol x o ev = done := by
      obtain ⟨-, rfl, -, -⟩ := State.todo_spec hx
      exact State.runSol_of_clear hplan hclear
    have hchain (hx : s.todo l idx .chain = some x) : exec (.chain l idx ev) s = .next done := by
      rw [exec_chain_of_solOp hl hx hsol, hrun hx]
    refine ⟨hchain, ?factor, ?solve, ?iter⟩
    case factor =>
      intro hx hfactor
      rw [exec_factor_of_solOp hl hx hsol hfactor, hrun hx]
    case solve =>
      intro hx hsolve
      refine ⟨by rw [exec_solve_of_solOp hl hx hsol hsolve, hrun hx], ?_⟩
      obtain ⟨-, rfl, -, -⟩ := State.todo_spec hx
      exact (works_counted s x ev _).solDone (works_solWork_of_solve hsolve _ x p) (hin hx)
    case iter =>
      rintro c n hx rfl hc hn hrunning
      refine ⟨_, hchain hx, ?_⟩
      obtain ⟨-, rfl, -, -⟩ := State.todo_spec hx
      have honly := s.onlyCounted_counted x ev (p.accesses x.job x.l)
      have hstep := State.solWork_iter_of_single hc hn (s.counted x ev (p.accesses x.job x.l))
      rw [State.iterProb_of_running (by rwa [honly.sol]), honly.iterated] at hstep
      exact (works_counted s x ev _).solDone (hstep ▸ works_store _ x _) (hin hx)
  · intro s p plan all ha hp htype hplan hall hsize hpay
    have hexec : exec (.solDelta p.id) s = .next (s.doDelta p) := onPkt_of_taken ha hp htype _
    refine ⟨?valid, ?invalid, ?kept, ?waits, exec_pendingDeltaApply_of_cycle, ?pending⟩
    case valid =>
      intro ds ws hstarted hoff hnone hvalid x all
      refine ⟨?_, sameBytes_writeAll rfl⟩
      rw [hexec, State.doDelta_of_idle hplan hstarted hsize hpay hoff hnone, State.applyDelta_of_valid hplan hvalid]
    case invalid =>
      intro hstarted hoff hnone hinvalid
      rw [hexec, State.doDelta_of_idle hplan hstarted hsize hpay hoff hnone, State.applyDelta_of_invalid hplan hinvalid]
    case kept =>
      intro hstarted hbusy hroom hlands
      rw [State.doDelta_of_busy hplan hstarted hsize hpay hbusy, if_neg (by simp [hroom, hlands])] at hexec
      exact ⟨_, hexec, rfl, ⟨_, Hub.pkt_updPkt hp fun _ => rfl, rfl⟩, rfl, sameBytes_writeAll (ws := [(_, p.pay)]) rfl, rfl, rfl⟩
    case waits =>
      intro hstarted hbusy hwait
      rw [hexec, State.doDelta_of_busy hplan hstarted hsize hpay hbusy, if_pos hwait]
    case pending =>
      intro n hoff hpend
      have happly := exec_pendingDeltaApply_of_single hall hp hoff hpend
      exact ⟨happly, _, happly, State.applyDelta_pend hplan, State.applyDelta_pkt hplan, by simp, by simp⟩

end Sys2Proof.Machine
end

section
/-!
Proof, page moves (O28): a page command begins a copy (R376), a finished copy switches the page's mapping (R377, R390, R474), and a write
that waited for it lands (R377).
-/

namespace Sys2Proof.Machine

/-! ## The mapping of pages (R376, R377) -/

theorem assoc_assocSet_other {α β : Type} [BEq α] [LawfulBEq α] (l : List (α × β)) {k j : α} (h : j ≠ k) (v : β) :
    assoc (assocSet l k v) j = assoc l j := by
  have hhead : (j == k) = false := beq_eq_false_iff_ne.2 h
  rw [assocSet, assoc, assoc, List.lookup_cons, hhead]
  dsimp only
  induction l with
  | nil => rfl
  | cons e l ih =>
    by_cases he : e.1 = k
    · have hje : (j == e.1) = false := he ▸ hhead
      rw [List.filter_cons_of_neg (by simp [he]), List.lookup_cons, hje]
      exact ih
    · rw [List.filter_cons_of_pos (by simp [he]), List.lookup_cons, List.lookup_cons]
      split
      · rfl
      · exact ih

theorem Pages.frameOf_switch_self (p : Pages) (m : Move) : (p.switch m).frameOf m.page = some m.dst := by
  have hmap : assoc (p.switch m).map m.page = some m.dst := assoc_assocSet_self _ _ _
  rw [Pages.frameOf, hmap]

theorem Pages.frameOf_switch_other (p : Pages) {m : Move} {g : Nat} (h : g ≠ m.page) : (p.switch m).frameOf g = p.frameOf g := by
  have hmap : assoc (p.switch m).map g = assoc p.map g := assoc_assocSet_other _ h _
  rw [Pages.frameOf, hmap, Pages.frameOf]

theorem Pages.moving_switch (p : Pages) (m : Move) : (p.switch m).moving m.page = false := by
  simp [Pages.moving, Pages.switch]

/-! ## A page command (R376) -/

/-- A command that none before it holds back is carried out at once. -/
theorem exec_memPageCmd_of_ready {s : State} {value : Word} (ctx : Nat) (ha : s.alive = true) (hgo : bit value 63 = true)
    (hfree : s.pages.commandedMove = false) : exec (.memPageCmd value ctx) s = .next (s.pageMove value ctx) := by
  refine (onHub_of_alive ha _).trans ?_
  simp [State.pageCmd, hgo, hfree]

/-- A page that software may move begins its copy to the frame that is free for it. -/
theorem State.pageMove_of_near {s : State} {value : Word} {ctx page c o : Nat} {f : Frame} (hpage : page = fld value 51 21 * pageBytes)
    (hnear : bit value 62 = true) (hhdm : inHdm page = false) (hwindow : s.windowPage page = false) (hplace : placeOf page = .chip c o)
    (hbacked : s.pages.backed page = true) (howns : s.ownsPage ctx page = true) (hstill : s.pages.moving page = false)
    (hf : s.pages.freeNear (page / chipStride) = some f) :
    s.pageMove value ctx = { s with pages := { s.pages with moves := s.pages.moves ++ [⟨page, f, true⟩] } } := by
  subst hpage
  simp [State.pageMove, hnear, hhdm, hwindow, hplace, hbacked, howns, hstill, hf]

/-! ## A move complete (R377, R390, R474) -/

/-- The module once a move's mapping has switched, before the writes that waited land: a fault-driven move leaves its frame to the history. -/
def State.switched (s : State) (m : Move) : State :=
  { s with
    pages := s.pages.switch m
    hist := match s.pages.frameOf m.page with
      | some f => if m.commanded then s.hist else s.hist.movedOut f
      | none => s.hist }

theorem State.switched_hist_of_commanded (s : State) {m : Move} (h : m.commanded = true) : (s.switched m).hist = s.hist := by
  unfold State.switched
  cases s.pages.frameOf m.page <;> simp [h]

theorem State.switched_hist_of_fault {s : State} {m : Move} {f : Frame} (h : m.commanded = false) (hf : s.pages.frameOf m.page = some f) :
    (s.switched m).hist = s.hist.movedOut f := by
  simp [State.switched, h, hf]

/-- A write that lands or waits begins no page command. -/
theorem State.memWrite_cmds (s : State) (w : HeldWrite) : (s.memWrite w).pages.cmds = s.pages.cmds := by
  unfold State.memWrite
  split
  · simp
  · rfl

theorem State.landWrites_cmds (s : State) : s.landWrites.pages.cmds = s.pages.cmds :=
  foldl_keeps (fun t : State => t.pages.cmds) _ State.memWrite_cmds _ _

/-- Where no word is found uncorrectable, none is poisoned. -/
theorem State.poisonWords_none (s : State) (page : Nat) : s.poisonWords page Ev.none.bad = s := rfl

/-- A finished copy without a bad word switches the mapping and lands what waited. -/
theorem exec_pageMoveComplete_of_move {s : State} {page : Nat} {m : Move} (hm : s.pages.moves.find? (fun x => x.page = page) = some m)
    (hcmds : s.pages.cmds = []) : exec (.pageMoveComplete page Ev.none) s = .next (s.switched m).landWrites := by
  obtain rfl : m.page = page := by simpa using List.find?_some hm
  have hlanded : (s.switched m).landWrites.pages.cmds.length = 0 := by
    rw [State.landWrites_cmds]
    exact List.length_eq_zero_iff.2 hcmds
  have hrun : exec (.pageMoveComplete m.page Ev.none) s =
      .next (State.pageCmds (s.switched m).landWrites.pages.cmds.length (s.switched m).landWrites) := by
    change execPageMoveComplete m.page Ev.none s = _
    rw [execPageMoveComplete, hm]
    dsimp only
    rw [State.poisonWords_none, State.switched]
    cases s.pages.frameOf m.page with
    | none => rfl
    | some f => cases m.commanded <;> rfl
  rw [hrun, hlanded, State.pageCmds]

/-! ## Writes that waited (R377) -/

theorem State.landWrites_of_none {s : State} (h : s.pages.waiting = []) :
    s.landWrites = { s with pages := { s.pages with waiting := [] } } := by
  rw [State.landWrites, h, List.foldl_nil]

theorem State.lands_of_still {s : State} (hmoves : s.pages.moves = []) (hstopped : s.start.stopped = []) (hout : s.start.outEdges = [])
    (a n : Nat) : s.lands a n = true := by
  simp [State.lands, State.reaches, Pages.moving, hmoves, hstopped, hout]

/-- The one write that waited lands where no page moves and every edge serves. -/
theorem State.landWrites_of_single {s : State} {w : HeldWrite} (hw : s.pages.waiting = [w]) (hmoves : s.pages.moves = [])
    (hstopped : s.start.stopped = []) (hout : s.start.outEdges = []) :
    s.landWrites = ({ s with pages := { s.pages with waiting := [] } } : State).landWrite w := by
  rw [State.landWrites, hw]
  exact if_pos (State.lands_of_still (s := { s with pages := { s.pages with waiting := [] } }) hmoves hstopped hout _ _)

/-- The hub's own write stores its bytes; every other writer's goes by the law of software's writes. -/
theorem State.landWrite_mem (s : State) (w : HeldWrite) :
    (s.landWrite w).mem = if w.who = .hub then Cells.write s.mem w.addr w.bytes else (s.softStore w.addr w.bytes).mem := by
  have hsoft := (onlyFab_countBytes s none [⟨w.addr, w.bytes.length, true⟩]).softStore_mem w.addr w.bytes
  unfold State.landWrite
  cases hwho : w.who with
  | hub => rfl
  | packet | host =>
    rw [if_neg nofun, ← hsoft]
    dsimp only
    split <;> simp
  | fabric port dst ctx tag scl =>
    rw [if_neg nofun, ← hsoft]
    cases port <;> dsimp only <;> split <;> simp

/-- A write that lands reads back, and leaves the other bytes, where none of its words is kept from software. -/
theorem State.landWrite_bytes {s : State} {w : HeldWrite} (hm : Cells.wf s.mem = true)
    (hopen : w.who ≠ .hub → s.OpenAt w.addr w.bytes.length) :
    Cells.read (s.landWrite w).mem w.addr w.bytes.length = w.bytes ∧ SameBytes s (s.landWrite w) [(w.addr, w.bytes.length)] := by
  unfold SameBytes
  rw [State.landWrite_mem]
  split
  · exact ⟨Cells.read_write_self hm _ _, fun b hb => Cells.byte_write_other _ _ _ _ (hb _ (List.mem_singleton.2 rfl))⟩
  · rename_i hwho
    exact ⟨State.read_softStore s _ _ hm (hopen hwho),
      fun b hb => State.byte_softStore_other s _ _ hm _ (hb _ (List.mem_singleton.2 rfl))⟩

/-! ## The statement -/

/-- Settles O28: a page command is its move, a complete move is the switch of its page's mapping, and the write that waited lands on the
state that the switch leaves. -/
theorem pageMovesKeepBytes : Obligations.PageMovesKeepBytes := by
  refine ⟨fun s value ctx page f m => ⟨?begins, ?completes⟩, ?lands⟩
  case begins =>
    rintro ha hgo hnear hpage hfree hhdm hwindow ⟨c, o, hplace⟩ hbacked howns hstill hf
    rw [exec_memPageCmd_of_ready ctx ha hgo hfree,
      State.pageMove_of_near hpage hnear hhdm hwindow hplace hbacked howns hstill hf]
  case completes =>
    intro hm hwaiting hcmds
    obtain rfl : m.page = page := by simpa using List.find?_some hm
    have hnone : (s.switched m).landWrites = s.switched m := by
      rw [State.landWrites_of_none (s := s.switched m) hwaiting]
      exact congrArg (fun ws => { s.switched m with pages := { (s.switched m).pages with waiting := ws } }) hwaiting.symm
    refine ⟨_, exec_pageMoveComplete_of_move hm hcmds, ?_⟩
    rw [hnone]
    exact ⟨Pages.frameOf_switch_self _ _, Pages.moving_switch _ _, fun g hg => Pages.frameOf_switch_other _ hg,
      s.switched_hist_of_commanded, fun g hfault hg => by rw [State.switched_hist_of_fault hfault hg]; rfl, rfl⟩
  case lands =>
    rintro s page m w hwf hmoves rfl hwaiting hcmds hstopped hout hmask
    have hfind : s.pages.moves.find? (fun x => x.page = m.page) = some m := by simp [hmoves]
    have hstill : (s.switched m).pages.moves = [] := by simp [State.switched, Pages.switch, hmoves]
    refine ⟨_, exec_pageMoveComplete_of_move hfind hcmds, ?_⟩
    rw [State.landWrites_of_single (s := s.switched m) hwaiting hstill hstopped hout]
    obtain ⟨hread, hsame⟩ := State.landWrite_bytes (s := { s.switched m with pages := { (s.switched m).pages with waiting := [] } })
      (w := w) hwf fun hwho i hi => (State.softMask_congr (s := s) rfl rfl rfl _).trans (hmask hwho _ (by omega) (by omega) (by omega))
    exact ⟨hread, hsame, by simp, by simpa using hstill⟩

end Sys2Proof.Machine
end

section
/-!
Proof, faults of memory (O29): fault-driven moves of HBM frames (R370, R390), the patrol scrubber's corrections (R391), and the fault that
stays latched (R389).
-/

namespace Sys2Proof.Machine

/-! ## Corrected events of a frame (R387, R390) -/

/-- A count of corrected events changes the module's counters and the frames' counts alone. -/
theorem State.countCe_only (s : State) (f : Frame) (n : Nat) :
    s.countCe f n = { s with ctr := (s.countCe f n).ctr, pages := { s.pages with ce := (s.countCe f n).pages.ce } } := by
  unfold State.countCe
  split <;> rfl

theorem State.countCe_pages (s : State) (f : Frame) (n : Nat) :
    (s.countCe f n).pages = { s.pages with ce := (s.countCe f n).pages.ce } := congrArg State.pages (s.countCe_only f n)

theorem State.countCe_ce (s : State) (f : Frame) {n : Nat} (h : n ≠ 0) :
    assoc (s.countCe f n).pages.ce f = some ((assoc s.pages.ce f).getD 0 + n) := by
  rw [State.countCe, if_neg h]
  exact assoc_assocSet_self _ _ _

/-! ## Fault-driven moves (R370, R390) -/

/-- The pages once a fault-driven move of a page has taken the next frame of stack `k`'s remap pool. -/
def Pages.intoPool (p : Pages) (page k : Nat) : Pages :=
  let n := p.poolUsed.getD k 0
  { p with
    cmdErr := p.cmdErr || p.moves.any (fun m => m.page = page && m.commanded)
    moves := p.moves.filter (fun m => m.page ≠ page) ++ [⟨page, .pool k n, false⟩]
    movesDone := satAdd 16 p.movesDone 1
    poolUsed := p.poolUsed.set k (n + 1)
    poolEmpty := if n + 1 = poolFrames then setFld p.poolEmpty k k 1 else p.poolEmpty }

/-- A charge to a stack is a charge in the history alone (R497). -/
theorem State.charge_stack (s : State) (k cause : Nat) : s.charge 4 k cause = { s with hist := s.hist.charge s.start.starts 4 k cause } := by
  unfold State.charge
  split <;> rfl

/-- A frame of HBM goes to its stack's pool while the pool has one, and charges the stack. -/
theorem State.faultMove_of_pool {s : State} {k : Nat} (hroom : s.pages.poolUsed.getD k 0 < poolFrames) (page n : Nat) :
    s.faultMove page (.hbm k n) = { s with
      pages := s.pages.intoPool page k
      hist := s.hist.charge s.start.starts 4 k 0x07 } := by
  have hrefuge : s.pages.refuge page (.hbm k n) = (some (.pool k (s.pages.poolUsed.getD k 0)), 4, k) := by
    simp only [Pages.refuge, hroom, if_true]
  unfold State.faultMove
  dsimp only
  rw [hrefuge]
  exact State.charge_stack _ k 0x07

/-- The events that a report adds to those known of a frame. -/
def Pages.newEvents (p : Pages) (f : Frame) (events : Nat) : Nat :=
  max events ((assoc p.ce f).getD 0) - (assoc p.ce f).getD 0

section
variable {s : State} {page : Nat} {f : Frame} (hf : s.pages.frameOf page = some f)
include hf

/-- A frame that reaches CE_THRESH begins its move, where the page is not of the system area and moves nowhere. -/
theorem exec_faultDrivenMove_of_due {events : Nat} (hthresh : fld s.pages.cfg 31 16 ≤ events) (hsys : inSys page = false)
    (hstill : s.pages.moving page = false) (hcmds : s.pages.cmds = []) :
    exec (.faultDrivenMove page events Ev.none) s = .next ((s.countCe f (s.pages.newEvents f events)).faultMove page f) := by
  have hpages := s.countCe_pages f (s.pages.newEvents f events)
  have hdue : fld s.pages.cfg 31 16 ≤ max events ((assoc s.pages.ce f).getD 0) := le_max_of_le_left hthresh
  have hfault : s.pages.moves.any (fun m => m.page = page && !m.commanded) = false := by
    refine List.any_eq_false.2 fun m hm => ?_
    have hother : m.page ≠ page := by simpa using List.any_eq_false.1 hstill m hm
    simp [hother]
  change execFaultDrivenMove page events Ev.none s = _
  rw [execFaultDrivenMove, hf]
  dsimp only
  rw [State.poisonWords_none, ← Pages.newEvents, hpages]
  simp [hdue, hsys, hfault, hcmds, State.pageCmds]

/-- A page of the system area never moves. -/
theorem exec_faultDrivenMove_of_sys (events : Nat) (hsys : inSys page = true) :
    exec (.faultDrivenMove page events Ev.none) s = .next (s.countCe f (s.pages.newEvents f events)) := by
  change execFaultDrivenMove page events Ev.none s = _
  rw [execFaultDrivenMove, hf]
  dsimp only
  rw [State.poisonWords_none, hsys]
  simp [Pages.newEvents]

end

/-! ## The scrubber (R391) -/

/-- A scrub of an HBM frame that finds no uncorrectable word counts the words that it corrects. -/
theorem exec_scrubRead_of_hbm {s : State} {page k n : Nat} (hf : s.pages.frameOf page = some (.hbm k n)) (fixed : List Nat) :
    exec (.scrubRead page fixed Ev.none) s = .next (s.countCe (.hbm k n) (fixed.filter (fun a => pageOf a = page)).length) := by
  change execScrubRead page fixed Ev.none s = _
  rw [execScrubRead, hf]
  rfl

/-! ## Fields of a word made of fields (R10) -/

theorem fld_or (w v : Word) (hi lo : Nat) : fld (w ||| v) hi lo = fld w hi lo ||| fld v hi lo := by
  simp only [fld, BitVec.toNat_or, Nat.shiftRight_or_distrib, Nat.or_mod_two_pow]

theorem bit_of_fld {w : Word} {n : Nat} (h : fld w n n = 1) : bit w n = true := by
  rw [fld, Nat.sub_self, Nat.zero_add, pow_one, Nat.shiftRight_eq_div_pow] at h
  rw [bit, BitVec.getLsbD, Nat.testBit_eq_decide_div_mod_eq, h]
  rfl

section
variable {hi lo : Nat} (hlo : lo ≤ hi) (v : Nat)
include hlo

theorem mkFld_lt : v % 2 ^ (hi - lo + 1) * 2 ^ lo < 2 ^ (hi + 1) := by
  have hsplit : 2 ^ (hi + 1) = 2 ^ (hi - lo + 1) * 2 ^ lo := by rw [← pow_add]; congr 1; omega
  rw [hsplit]
  exact Nat.mul_lt_mul_of_pos_right (Nat.mod_lt _ (Nat.two_pow_pos _)) (Nat.two_pow_pos _)

variable (hhi : hi < 64)
include hhi

theorem toNat_mkFld : (mkFld hi lo v).toNat = v % 2 ^ (hi - lo + 1) * 2 ^ lo :=
  Nat.mod_eq_of_lt ((mkFld_lt hlo v).trans_le (Nat.pow_le_pow_right (by decide) hhi))

theorem fld_mkFld_self : fld (mkFld hi lo v) hi lo = v % 2 ^ (hi - lo + 1) := by
  rw [fld, toNat_mkFld hlo _ hhi, Nat.shiftRight_eq_div_pow, Nat.mul_div_cancel _ (Nat.two_pow_pos _), Nat.mod_mod]

/-- A field above the one that is set reads 0. -/
theorem fld_mkFld_above {lo' : Nat} (h : hi < lo') (hi' : Nat) : fld (mkFld hi lo v) hi' lo' = 0 := by
  rw [fld, toNat_mkFld hlo _ hhi, Nat.shiftRight_eq_div_pow, Nat.div_eq_of_lt, Nat.zero_mod]
  exact (mkFld_lt hlo v).trans_le (Nat.pow_le_pow_right (by decide) h)

/-- A field below the one that is set reads 0. -/
theorem fld_mkFld_below {hi' lo' : Nat} (h : hi' < lo) (hlo' : lo' ≤ hi') : fld (mkFld hi lo v) hi' lo' = 0 := by
  have hlow : 2 ^ lo = 2 ^ (lo - lo') * 2 ^ lo' := by rw [← pow_add, Nat.sub_add_cancel (by omega)]
  rw [fld, toNat_mkFld hlo _ hhi, Nat.shiftRight_eq_div_pow, hlow, ← Nat.mul_assoc, Nat.mul_div_cancel _ (Nat.two_pow_pos _)]
  exact Nat.mod_eq_zero_of_dvd (Dvd.dvd.mul_left (pow_dvd_pow 2 (by omega)) _)

end

/-! ## The fault latched (R389) -/

theorem FaultKind.code_lt (k : FaultKind) : k.code < 8 := by cases k <;> decide

theorem Pages.latch_of_latched {p : Pages} (h : bit p.faultSrc 63 = true) (kind : FaultKind) (module addr ctx cluster entry : Nat) :
    p.latch kind module addr ctx cluster entry = { p with faultMulti := true } := if_pos h

section
variable {p : Pages} (h : bit p.faultSrc 63 = false) (kind : FaultKind) {module addr ctx cluster entry : Nat}
include h

theorem Pages.latch_of_free : p.latch kind module addr ctx cluster entry = { p with
    faultAddr := mkFld 63 52 module ||| mkFld 51 0 (addr / 8 * 8)
    faultSrc := mkFld 63 63 1 ||| mkFld 62 60 kind.code ||| mkFld 59 48 ctx ||| mkFld 47 41 cluster ||| mkFld 40 25 entry } := by
  rw [Pages.latch, h]
  rfl

theorem Pages.latch_faultAddr (hmodule : module < 4096) (haddr : addr < 2 ^ 52) :
    fld (p.latch kind module addr ctx cluster entry).faultAddr 63 52 = module ∧
    fld (p.latch kind module addr ctx cluster entry).faultAddr 51 0 = addr / 8 * 8 := by
  have hword : addr / 8 * 8 < 2 ^ 52 := by omega
  rw [Pages.latch_of_free h]
  simpa [fld_or, fld_mkFld_self, fld_mkFld_above, fld_mkFld_below, Nat.mod_eq_of_lt hmodule] using hword

theorem Pages.latch_faultSrc (hctx : ctx < 4096) (hcluster : cluster < 128) (hentry : entry < 65536) :
    fld (p.latch kind module addr ctx cluster entry).faultSrc 63 63 = 1 ∧
    fld (p.latch kind module addr ctx cluster entry).faultSrc 62 60 = kind.code ∧
    fld (p.latch kind module addr ctx cluster entry).faultSrc 59 48 = ctx ∧
    fld (p.latch kind module addr ctx cluster entry).faultSrc 47 41 = cluster ∧
    fld (p.latch kind module addr ctx cluster entry).faultSrc 40 25 = entry := by
  have hkind := kind.code_lt
  rw [Pages.latch_of_free h]
  simp [fld_or, fld_mkFld_self, fld_mkFld_above, fld_mkFld_below, Nat.mod_eq_of_lt hkind, Nat.mod_eq_of_lt hctx, Nat.mod_eq_of_lt hcluster,
    Nat.mod_eq_of_lt hentry]

end

/-! ## The statement -/

/-- Settles O29: a report of events is a count against the frame and, where it is due, a move into the pool; a scrub is a count alone; a
latch that is free takes each part of the fault in its own field. -/
theorem faultsMoveFramesAndLatch : Obligations.FaultsMoveFramesAndLatch := by
  refine ⟨fun s page events k n fixed hf => ⟨?moves, ?system, ?scrub⟩, fun p kind module addr ctx cluster entry => ⟨?latched, ?free⟩⟩
  case moves =>
    intro hthresh hk hlen hroom hstill hcmds hsys
    have hpages := s.countCe_pages (.hbm k n) (s.pages.newEvents (.hbm k n) events)
    have hroom' : (s.countCe (.hbm k n) (s.pages.newEvents (.hbm k n) events)).pages.poolUsed.getD k 0 < poolFrames := by
      rw [hpages]
      exact hroom
    refine ⟨_, exec_faultDrivenMove_of_due hf hthresh hsys hstill hcmds, ?_⟩
    rw [State.faultMove_of_pool hroom', hpages]
    refine ⟨by simp [Pages.intoPool], ?_, rfl, by simp, by simp, by simp⟩
    simp [Pages.intoPool, hlen, hk]
  case system =>
    intro hsys
    refine ⟨_, exec_faultDrivenMove_of_sys hf events hsys, ?_⟩
    dsimp only
    rw [State.countCe_pages]
    exact ⟨rfl, rfl⟩
  case scrub => exact ⟨_, exec_scrubRead_of_hbm hf fixed, s.countCe_only _ _, s.countCe_ce _⟩
  case latched => exact fun h => Pages.latch_of_latched h ..
  case free =>
    intro h hmodule haddr hctx hcluster hentry q
    obtain ⟨hvalid, hkind, hctx, hcluster, hentry⟩ := Pages.latch_faultSrc h kind (module := module) (addr := addr) hctx hcluster hentry
    obtain ⟨hmodule, haddr⟩ := Pages.latch_faultAddr h kind (ctx := ctx) (cluster := cluster) (entry := entry) hmodule haddr
    have hmulti : q.faultMulti = p.faultMulti := by rw [show q = p.latch .. from rfl, Pages.latch_of_free h]
    exact ⟨bit_of_fld hvalid, hkind, hctx, hcluster, hentry, hmodule, haddr, hmulti⟩

end Sys2Proof.Machine
end

section
/-!
Proof, UNLOAD (O32): a job at rest goes with its tasks, its records and the bytes of its pages; one that is at work or whose pages move stays
(R375, R394, R467).
-/

namespace Sys2Proof.Machine

/-! ## Removal of a job (R375) -/

/-- A byte of ranges that are all set to zero. -/
theorem Cells.byte_foldl_zero (n : Nat) (gs : List Nat) (m : Cells) (a : Nat) :
    Cells.byte (gs.foldl (fun m g => Cells.zero m g n) m) a = if ∃ g ∈ gs, g ≤ a ∧ a < g + n then unlisted else Cells.byte m a := by
  induction gs generalizing m with
  | nil => simp
  | cons g gs ih =>
    rw [List.foldl_cons, ih, Cells.byte_zero]
    by_cases hg : g ≤ a ∧ a < g + n
    · simp [hg]
    · simp [hg]

theorem State.byte_dropJob (s : State) {j : Job} {g a : Nat} (hg : g ∈ j.pages) (hle : g ≤ a) (hlt : a < g + pageBytes) :
    Cells.byte (s.dropJob j).mem a = 0 := by
  unfold State.dropJob
  exact (Cells.byte_foldl_zero pageBytes j.pages _ a).trans (if_pos ⟨g, hg, hle, hlt⟩)

theorem State.dropJob_job (s : State) (j : Job) : (s.dropJob j).job j.ctx j.handle = none :=
  List.find?_eq_none.2 fun x hx => by simpa [or_iff_not_imp_left] using List.of_mem_filter hx

theorem State.dropJob_task (s : State) {j : Job} {k : TaskKey} (hctx : k.ctx = j.ctx) (hjob : k.job = j.handle) :
    (s.dropJob j).hub.task k = none := by
  refine List.find?_eq_none.2 fun t ht hkey => ?_
  obtain rfl : t.key = k := of_decide_eq_true hkey
  have hkept := List.of_mem_filter ht
  simp [hctx, hjob] at hkept

/-! ## The packet (R394, R467) -/

section
variable {s : State} {p : Pkt} {j : Job} (hj : s.job p.ctx p.job = some j)
include hj

theorem State.doUnload_of_busy {t : Task} (ht : t ∈ s.hub.tasks) (hctx : t.key.ctx = j.ctx) (hjob : t.key.job = j.handle)
    (hst : t.st ≠ .idle) : s.doUnload p = s.endPkt p pktState 0 := by
  have hbusy : s.hub.tasks.any (fun t => t.key.ctx = j.ctx && t.key.job = j.handle && t.st != .idle) = true :=
    List.any_eq_true.2 ⟨t, ht, by simp [hctx, hjob, hst]⟩
  simp only [State.doUnload, hj, hbusy, if_true]

variable (hrest : ∀ t ∈ s.hub.tasks, t.key.ctx = j.ctx → t.key.job = j.handle → t.st = .idle)
include hrest

/-- The packet of a job whose tasks are all at rest waits for the moves of its pages and for its delta packets. -/
theorem State.doUnload_of_rest : s.doUnload p =
    if s.pages.moves.any (fun m => j.pages.contains m.page) || (j.sol.isSome && !s.sol.pend.isEmpty) then s
    else (s.dropJob j).endPkt p pktOk 0 := by
  have hidle : s.hub.tasks.any (fun t => t.key.ctx = j.ctx && t.key.job = j.handle && t.st != .idle) = false :=
    List.any_eq_false.2 fun t ht => by
      simp only [Bool.and_eq_true, decide_eq_true_eq, bne_iff_ne, not_and, not_not, and_imp]
      exact hrest t ht
  simp only [State.doUnload, hj, hidle, Bool.false_eq_true, if_false]

theorem State.doUnload_of_moving {m : Move} (hm : m ∈ s.pages.moves) (hpage : m.page ∈ j.pages) : s.doUnload p = s := by
  have hmoves : s.pages.moves.any (fun m => j.pages.contains m.page) = true := List.any_eq_true.2 ⟨m, hm, by simpa using hpage⟩
  rw [State.doUnload_of_rest hj hrest, hmoves, Bool.true_or, if_pos rfl]

theorem State.doUnload_of_free (hstill : ∀ m ∈ s.pages.moves, m.page ∉ j.pages) (hsol : j.sol = none ∨ s.sol.pend = []) :
    s.doUnload p = (s.dropJob j).endPkt p pktOk 0 := by
  have hmoves : s.pages.moves.any (fun m => j.pages.contains m.page) = false :=
    List.any_eq_false.2 fun m hm => by simpa using hstill m hm
  have hdeltas : (j.sol.isSome && !s.sol.pend.isEmpty) = false := by
    obtain h | h := hsol <;> simp [h]
  rw [State.doUnload_of_rest hj hrest, hmoves, hdeltas, Bool.or_self, if_neg Bool.false_ne_true]

end

/-! ## The statement -/

/-- Settles O32: a job at rest is dropped, or waits for the moves of its pages, and one at work is left as it is. -/
theorem unloadZeroesTheFrames : Obligations.UnloadZeroesTheFrames := by
  intro s p j ha hp htype hj
  have hexec : exec (.unload p.id) s = .next (s.doUnload p) := onPkt_of_taken ha hp htype _
  refine ⟨?free, ?moving, ?busy⟩
  case free =>
    intro hrest hstill hsol
    rw [hexec, State.doUnload_of_free hj hrest hstill hsol]
    exact ⟨rfl, s.dropJob_job j, fun k => s.dropJob_task, fun g hg a => s.byte_dropJob hg⟩
  case moving =>
    rintro hrest ⟨m, hm, hpage⟩
    rw [hexec, State.doUnload_of_moving hj hrest hm hpage]
  case busy =>
    rintro ⟨t, ht, hctx, hjob, hst⟩
    rw [hexec, State.doUnload_of_busy hj ht hctx hjob hst]

end Sys2Proof.Machine
end

section
/-!
Proof, the fabric part: what messages that come and go at the ports leave of it (R399 to R409), and what the module's own work at a change of
the live graph leaves of the module (R409, R425, R428).
-/

namespace Sys2Proof.Machine

/-! ## A port -/

/-- What messages that come and go leave of a port: all but its flit numbers, its credits and its buffers, which stand here as a reset
leaves them. -/
def Port.standing (q : Port) : Port :=
  { q with
    txSeq := 0, rxSeq := 0, credits := [0, 0, 0, 0], buffer := [], owed := [0, 0, 0, 0], sinceLink := 0, sinceMgmt := 15, lastVc := 2 }

theorem Port.take_standing (q : Port) (m : Msg) : (q.take m).standing = q.standing := by
  unfold Port.take
  dsimp only
  split <;> rfl

theorem getD_updAt {α : Type} (l : List α) (p k : Nat) (g : α → α) (d : α) (hp : p < l.length) :
    (updAt l p g).getD k d = if k = p then g (l.getD p d) else l.getD k d := by
  simp only [updAt, List.getD_eq_getElem?_getD, List.getElem?_modify]
  split
  · subst k
    simp [hp]
  · simp [Ne.symm ‹_›]

/-- Where ports change in number `p` alone. -/
theorem Fab.port_updAt {f h : Fab} {p : Nat} (hp : p < f.ports.length) {g : Port → Port} (hports : h.ports = updAt f.ports p g) (k : Nat) :
    h.port k = if k = p then g (f.port p) else f.port k := by
  rw [Fab.port, hports, getD_updAt _ _ _ _ _ hp]
  rfl

theorem State.updPort_port {s : State} {p : Nat} (hp : p < s.fab.ports.length) (h : Port → Port) (k : Nat) :
    (s.updPort p h).fab.port k = if k = p then h (s.fab.port p) else s.fab.port k := Fab.port_updAt hp rfl k

/-! ## The fabric part while messages come and go -/

/-- What messages that come and go leave of the fabric part. -/
def Fab.standing (f : Fab) : Fab :=
  { f with ports := f.ports.map Port.standing, turns := [], waiting := [], due := [], sent := [] }

theorem Fab.standing_port (f : Fab) (k : Nat) : f.standing.port k = (f.port k).standing := by
  simp only [Fab.port, Fab.standing, List.getD_eq_getElem?_getD, List.getElem?_map]
  cases f.ports[k]? <;> rfl

/-- A change of one port's traffic. -/
theorem Fab.updAt_standing (f : Fab) (p : Nat) {g : Port → Port} (hg : ∀ q, (g q).standing = q.standing) :
    ({ f with ports := updAt f.ports p g } : Fab).standing = f.standing := by
  have hmap : (updAt f.ports p g).map Port.standing = f.ports.map Port.standing := by
    refine List.ext_getElem? fun k => ?_
    simp only [updAt, List.getElem?_map, List.getElem?_modify]
    split
    · cases f.ports[k]? <;> simp [hg]
    · simp
  simp only [Fab.standing, hmap]

@[simp] theorem Fab.link_standing (f : Fab) (me p : Nat) (req : Bool) : (f.link me p req).standing = f.standing := by
  unfold Fab.link
  dsimp only
  split
  · rfl
  · split
    · rfl
    · exact f.updAt_standing p fun q => q.take_standing _

@[simp] theorem Fab.sendPort_standing (f : Fab) (me p : Nat) (m : Msg) : (f.sendPort me p m).standing = f.standing := by
  have hlink : (if (f.port p).sinceLink + m.flits > 127 then f.link me p false else f).standing = f.standing := by
    split
    · exact f.link_standing me p false
    · rfl
  exact (Fab.updAt_standing _ p fun q => q.take_standing m).trans hlink

@[simp] theorem Fab.owe_standing (f : Fab) (p : Nat) (m : Msg) : (f.owe p m).standing = f.standing := by
  unfold Fab.owe
  split
  · rfl
  · exact f.updAt_standing p fun _ => rfl

@[simp] theorem Fab.place_standing (me : Nat) (f : Fab) (w : Wait) : (Fab.place me f w).standing = f.standing := by
  unfold Fab.place
  repeat' split
  all_goals rfl

theorem Fab.retryOne_standing {f g : Fab} {me : Nat} (h : f.retryOne me = some g) : g.standing = f.standing := by
  unfold Fab.retryOne at h
  dsimp only at h
  split at h
  · cases h
  · rename_i x _
    cases h
    have hsent : (({ f with waiting := f.waiting.erase x.2 } : Fab).sendPort me x.1 x.2.msg).standing = f.standing :=
      Fab.sendPort_standing _ me x.1 x.2.msg
    split
    · exact (Fab.owe_standing _ _ _).trans hsent
    · exact hsent

@[simp] theorem Fab.retryAll_standing (me n : Nat) (f : Fab) : (Fab.retryAll me n f).standing = f.standing := by
  induction n generalizing f with
  | zero => rfl
  | succ n ih =>
    unfold Fab.retryAll
    split
    · rw [ih, Fab.retryOne_standing ‹_›]
    · rfl

@[simp] theorem Fab.retry_standing (f : Fab) (me : Nat) : (f.retry me).standing = f.standing := by
  unfold Fab.retry
  dsimp only
  rw [foldl_keeps Fab.standing _ (fun f p => f.link_standing me p false), Fab.retryAll_standing]
  exact foldl_keeps Fab.standing _ (fun f w => Fab.place_standing me f w) _ _

@[simp] theorem Fab.inject_standing (f : Fab) (me : Nat) (m : Msg) (came : Option Nat) : (f.inject me m came).standing = f.standing := by
  unfold Fab.inject
  split
  · rfl
  · exact Fab.retry_standing _ me

@[simp] theorem Fab.flood_standing (f : Fab) (me : Nat) (except : Option Nat) (b : Body) : (f.flood me except b).standing = f.standing :=
  Fab.retry_standing _ me

@[simp] theorem State.send_standing (s : State) (m : Msg) : (s.send m).fab.standing = s.fab.standing := s.fab.inject_standing s.me m none

@[simp] theorem State.received_standing (s : State) (rx : Rx) (b : Body) : (s.received rx b).fab.standing = s.fab.standing := by
  unfold State.received
  split
  · exact s.fab.updAt_standing _ fun _ => rfl
  · rfl

@[simp] theorem State.portDone_standing (s : State) (rx : Rx) (b : Body) : (s.portDone rx b).fab.standing = s.fab.standing := by
  unfold State.portDone
  split
  · exact (Fab.link_standing _ _ _ _).trans (Fab.owe_standing _ _ _)
  · rfl

/-! ## The module while it follows its fabric part -/

/-- The fabric part without its traffic, its reports and its broadcast: ports as they stand, engines, graphs and the route change. -/
def Fab.topology (f : Fab) : Fab := { f.standing with reports := [], bcast := none }

theorem Fab.topology_congr {f g : Fab} (h : f.standing = g.standing) : f.topology = g.topology := by rw [Fab.topology, h, Fab.topology]

/-- From `s` to `t` the fabric part keeps its topology; number, restores, clusters and jobs of the module stay as well. -/
structure SameTopology (s t : State) : Prop where
  topology : t.fab.topology = s.fab.topology
  me : t.me = s.me
  restores : t.hub.restores = s.hub.restores
  clusters : t.clusters = s.clusters
  jobs : t.jobs = s.jobs

theorem SameTopology.refl (s : State) : SameTopology s s := ⟨rfl, rfl, rfl, rfl, rfl⟩

theorem SameTopology.trans {s t u : State} (h : SameTopology s t) (h' : SameTopology t u) : SameTopology s u where
  topology := h'.topology.trans h.topology
  me := h'.me.trans h.me
  restores := h'.restores.trans h.restores
  clusters := h'.clusters.trans h.clusters
  jobs := h'.jobs.trans h.jobs

theorem SameTopology.foldl {s t : State} (h : SameTopology s t) {β : Type} {g : State → β → State} (hg : ∀ s b, SameTopology s (g s b))
    (bs : List β) : SameTopology s (bs.foldl g t) := by
  induction bs generalizing t with
  | nil => exact h
  | cons b bs ih => exact ih (h.trans (hg t b))

section
variable {s t : State} (h : SameTopology s t)
include h

theorem SameTopology.graph : t.fab.graph = s.fab.graph := by
  have htop := congrArg Fab.graph h.topology
  exact htop
theorem SameTopology.routes : t.fab.routes = s.fab.routes := by
  have htop := congrArg Fab.routes h.topology
  exact htop
theorem SameTopology.changing : t.fab.changing = s.fab.changing := by
  have htop := congrArg Fab.changing h.topology
  exact htop
theorem SameTopology.drained : t.fab.drained = s.fab.drained := by
  have htop := congrArg Fab.drained h.topology
  exact htop
theorem SameTopology.state : t.fab.state = s.fab.state := by
  have htop := congrArg Fab.state h.topology
  exact htop
theorem SameTopology.engineFailed : t.fab.engineFailed = s.fab.engineFailed := by
  have htop := congrArg Fab.engineFailed h.topology
  exact htop
theorem SameTopology.engineSpare : t.fab.engineSpare = s.fab.engineSpare := by
  have htop := congrArg Fab.engineSpare h.topology
  exact htop
theorem SameTopology.port (k : Nat) : (t.fab.port k).standing = (s.fab.port k).standing := by
  have htop := congrArg (fun f : Fab => f.port k) h.topology
  rw [← t.fab.standing_port, ← s.fab.standing_port]
  exact htop

end

/-- What is a matter of traffic alone. -/
theorem OnlyFab.sameTopology {s t : State} (h : OnlyFab s t) (hf : t.fab.standing = s.fab.standing) : SameTopology s t where
  topology := Fab.topology_congr hf
  me := h.me
  restores := by rw [h.hub]
  clusters := h.clusters
  jobs := h.jobs

theorem sameTopology_send (s : State) (m : Msg) : SameTopology s (s.send m) := (onlyFab_withFab s _).sameTopology (s.send_standing m)

theorem sameTopology_sendHub (s : State) (dst ctx : Nat) (b : Body) : SameTopology s (s.sendHub dst ctx b) := sameTopology_send s _

theorem sameTopology_received (s : State) (rx : Rx) (b : Body) : SameTopology s (s.received rx b) :=
  (onlyFab_received s rx b).sameTopology (s.received_standing rx b)

theorem sameTopology_portDone (s : State) (rx : Rx) (b : Body) : SameTopology s (s.portDone rx b) :=
  (onlyFab_portDone s rx b).sameTopology (s.portDone_standing rx b)

theorem sameTopology_flood (s : State) (except : Option Nat) (b : Body) : SameTopology s (s.withFab (s.fab.flood s.me except b)) :=
  (onlyFab_withFab s _).sameTopology (s.fab.flood_standing s.me except b)

theorem sameTopology_readyFollow (s : State) : SameTopology s s.readyFollow where
  topology := by simp
  me := by simp [State.me]
  restores := by simp
  clusters := by simp
  jobs := by simp

/-- A module's reports go to its domain's entry module, or are kept (R425). -/
theorem sameTopology_reportPorts (s : State) : SameTopology s s.reportPorts := by
  unfold State.reportPorts
  split
  · refine SameTopology.trans ?_ (sameTopology_readyFollow _)
    exact ⟨rfl, rfl, rfl, rfl, rfl⟩
  · split
    · exact .refl s
    · exact sameTopology_sendHub s _ _ _

theorem sameTopology_fwDrop (s : State) (gone : Nat → Bool) : SameTopology s (s.fwDrop gone) := by
  unfold State.fwDrop
  split
  · exact .refl s
  · split
    · exact .refl s
    · dsimp only
      split
      · exact ⟨rfl, rfl, rfl, rfl, rfl⟩
      · split
        · refine SameTopology.foldl ?_ (fun s c => sameTopology_sendHub s _ _ _) _
          exact ⟨rfl, rfl, rfl, rfl, rfl⟩
        · exact ⟨rfl, rfl, rfl, rfl, rfl⟩

theorem sameTopology_loseCoppice (s : State) : SameTopology s s.loseCoppice := by
  unfold State.loseCoppice
  extract_lets hub lost
  have hlost : SameTopology s lost := ⟨rfl, rfl, rfl, rfl, rfl⟩
  exact hlost.foldl (fun s t => sameTopology_sendHub s _ _ _) _

theorem sameTopology_pairDone (s : State) (p : Pkt) : SameTopology s (s.pairDone p) := by
  unfold State.pairDone
  split
  · refine (SameTopology.refl s).foldl (fun s t => ?_) _
    split
    · exact sameTopology_sendHub s _ _ _
    · exact .refl s
  · exact .refl s

theorem sameTopology_dropReads (s : State) (gone : Nat → Bool) : SameTopology s (s.dropReads gone) := by
  unfold State.dropReads
  extract_lets ps hub dropped
  have hdropped : SameTopology s dropped := ⟨rfl, rfl, rfl, rfl, rfl⟩
  exact hdropped.foldl sameTopology_pairDone ps

/-- A completion changes its ring, and memory. -/
theorem sameTopology_ringEnd (s : State) (n slot : Nat) (releases : Bool) (c : Option Cqe) : SameTopology s (s.ringEnd n slot releases c) := by
  have hfab : (s.ringEnd n slot releases c).fab = s.fab := by simp
  refine ⟨congrArg Fab.topology hfab, by simp [State.me], ?_, by simp, by simp⟩
  unfold State.ringEnd
  split
  · simp [Hub.setRing]
  · split <;> simp [Hub.setRing]

/-- The module's own work at a change of the live graph, where no restore is in progress (R285, R409, R433, R459, R511). -/
theorem sameTopology_graphChanged {s : State} (h : s.hub.restores = []) : SameTopology s s.graphChanged := by
  unfold State.graphChanged
  extract_lets live gone lost cop rs fab reported ready hub trimmed read ended
  have hrs : rs = [] := by simp only [rs, h, List.filter_nil]
  have hready : SameTopology s ready :=
    SameTopology.trans (t := reported) ⟨rfl, rfl, rfl, rfl, rfl⟩ ((sameTopology_fwDrop _ _).trans (sameTopology_readyFollow _))
  have htrimmed : SameTopology ready trimmed := ⟨rfl, rfl, rfl, rfl, rfl⟩
  have hlose : SameTopology trimmed (if cop = true then trimmed.loseCoppice else trimmed) := by
    split
    · exact sameTopology_loseCoppice _
    · exact .refl _
  have hended : SameTopology read ended := (SameTopology.refl read).foldl (fun s f => sameTopology_ringEnd s _ _ _ _) _
  rw [hrs]
  exact ((hready.trans htrimmed).trans (hlose.trans (sameTopology_dropReads _ _))).trans hended

theorem sameTopology_newGraph {s : State} (h : s.hub.restores = []) (g : Graph) :
    SameTopology { s with fab := s.fab.startChange g } (s.newGraph g) :=
  sameTopology_graphChanged h

/-! ## A port that changes its state (R409, R421, R428, R502) -/

/-- The module with one port changed: a link that it carried leaves the live graph, and a route change begins. -/
def State.cutPort (s : State) (p : Nat) (h : Port → Port) : State :=
  if (s.fab.port p).linked then { s with fab := (s.updPort p h).fab.startChange (s.fab.graph.del s.me p) } else s.updPort p h

/-- A port that falls and what its link's end brings. -/
theorem sameTopology_linkGone {s : State} (hr : s.hub.restores = []) (p : Nat) (h : Port → Port) :
    SameTopology (s.cutPort p h) ((s.updPort p h).linkGone p (s.fab.port p)) := by
  unfold State.linkGone State.cutPort
  split
  · extract_lets rep f
    have hflood : SameTopology { s with fab := f } ((s.updPort p h).withFab (f.flood (s.updPort p h).me none (.linkState (s.updPort p h).me rep))) :=
      ⟨Fab.topology_congr (Fab.flood_standing _ _ _ _), rfl, rfl, rfl, rfl⟩
    exact (hflood.trans (sameTopology_graphChanged hr)).trans (sameTopology_reportPorts _)
  · exact sameTopology_reportPorts _

section
variable {s : State} {p : Nat} (hp : p < s.fab.ports.length) (h : Port → Port)

theorem State.cutPort_port (hp : p < s.fab.ports.length) (k : Nat) :
    (s.cutPort p h).fab.port k = if k = p then h (s.fab.port p) else s.fab.port k := by
  refine Fab.port_updAt hp ?_ k
  unfold State.cutPort
  split <;> rfl

theorem State.cutPort_engines : (s.cutPort p h).fab.engineFailed = s.fab.engineFailed ∧ (s.cutPort p h).fab.engineSpare = s.fab.engineSpare ∧
    (s.cutPort p h).fab.ports.length = s.fab.ports.length ∧ (s.cutPort p h).hub = s.hub := by
  unfold State.cutPort
  split <;> exact ⟨rfl, rfl, updAt_length _ _ _, rfl⟩

end

end Sys2Proof.Machine
end

section
/-!
Proof, route changes (O59): floods of the live graph, DRAINED and SWITCH, reports and leaves (R409, R425, R427). What stands for the change of
a graph is its number (log 29).
-/

namespace Sys2Proof.Machine

/-! ## Arrival -/

/-- A message of another kind than WRITE that the module hears is received, acted on, and answered by its port. -/
theorem exec_of_hears {s : State} {rx : Rx} (h : s.hears rx = true) {c : Instr} {b : Body} {f : State → State} (hc : exec c s = s.arrive rx b f)
    (hb : ∀ a bs, b ≠ .write a bs) : exec c s = .next ((f (s.received rx b)).portDone rx b) := by
  rw [hc, State.arrive_of_hears h, State.settled_of_not_write _ _ _ hb]

theorem State.alive_of_hears {s : State} {rx : Rx} (h : s.hears rx = true) : s.alive = true := by
  simp only [State.hears, Bool.and_eq_true] at h
  exact h.1.1.1

/-! ## Floods (R409) -/

theorem State.takeFlood_of_known {s : State} {g : Graph} (hg : g.id = s.fab.graph.id) (rx : Rx) (b : Body) : s.takeFlood rx g b = s := if_pos hg

/-- A new graph is the newest that the module knows, and a route change is on. -/
theorem sameTopology_takeFlood {s : State} (hr : s.hub.restores = []) {g : Graph} (hg : g.id ≠ s.fab.graph.id) (rx : Rx) (b : Body) :
    SameTopology { s with fab := s.fab.startChange g } (s.takeFlood rx g b) := by
  rw [State.takeFlood, if_neg hg]
  exact (sameTopology_newGraph hr g).trans (sameTopology_flood _ _ _)

section
variable {s : State} {rx : Rx} (h : s.hears rx = true) {c : Instr} {b : Body} {g : Graph}
  (hc : exec c s = .next (((s.received rx b).takeFlood rx g b).portDone rx b))
include hc

theorem exec_flood_of_known (hg : g.id = s.fab.graph.id) : exec c s = .next ((s.received rx b).portDone rx b) := by
  rw [hc, State.takeFlood_of_known (by rw [hg, (sameTopology_received s rx b).graph])]

theorem answers_flood_of_new (hr : s.hub.restores = []) (hg : g.id ≠ s.fab.graph.id) : Answers c s (fun t => t.fab.graph = g ∧
    t.fab.changing = true ∧ t.fab.routes = s.fab.routes ∧ t.fab.drained = [] ∧ t.jobs = s.jobs ∧ t.clusters = s.clusters) := by
  have hrec := sameTopology_received s rx b
  have htaken := sameTopology_takeFlood (hrec.restores.trans hr) (g := g) (by rwa [hrec.graph]) rx b
  have hdone := htaken.trans (sameTopology_portDone _ rx b)
  exact ⟨_, hc, hdone.graph, hdone.changing, hdone.routes.trans hrec.routes, hdone.drained, hdone.jobs.trans hrec.jobs,
    hdone.clusters.trans hrec.clusters⟩

end

/-- The live graph once a module has said that it joins, leaves, or what one of its ports has become (R409, R426 to R428). -/
theorem exec_flood {s : State} {rx : Rx} (h : s.hears rx = true) (module : Nat) (ports : List PortRep) (rep : PortRep)
    {c : Instr} {b : Body} {g : Graph} (hmem : (c, b, g) ∈ [
      (Instr.join rx module ports, Body.join module ports, (repLinks module ports).foldl Graph.add (s.fab.graph.delModule module)),
      (.leave rx module, .leave module, s.fab.graph.delModule module),
      (.linkState rx module rep, .linkState module rep,
        if rep.linked then (s.fab.graph.del module rep.port).add ⟨module, rep.port, rep.farModule, rep.farPort⟩ else s.fab.graph.del module rep.port)]) :
    exec c s = .next (((s.received rx b).takeFlood rx g b).portDone rx b) := by
  simp only [List.mem_cons, Prod.mk.injEq, List.not_mem_nil, or_false] at hmem
  obtain ⟨rfl, rfl, rfl⟩ | ⟨rfl, rfl, rfl⟩ | ⟨rfl, rfl, rfl⟩ := hmem
  · have hexec : exec (.join rx module ports) s = execJoin rx module ports s := rfl
    rw [exec_of_hears h hexec (by intro _ _ hb; cases hb), (sameTopology_received s rx _).graph]
  · have hexec : exec (.leave rx module) s = execLeave rx module s := rfl
    rw [exec_of_hears h hexec (by intro _ _ hb; cases hb), (sameTopology_received s rx _).graph]
  · have hexec : exec (.linkState rx module rep) s = execLinkState rx module rep s := rfl
    rw [exec_of_hears h hexec (by intro _ _ hb; cases hb)]
    dsimp only
    rw [(sameTopology_received s rx _).graph]

/-! ## The change of routes (R409) -/

/-- The new routes, and the module's state by them, before what waits is sent. -/
def Fab.rerouted (f : Fab) (me : Nat) : Fab :=
  let f := { f with routes := f.graph, changing := false, drained := [] }
  match f.state with
  | .joining | .alone => { f with state := .joined }
  | .leaving => if (f.routes.nbrs me).isEmpty then { f with state := .removable } else f
  | _ => f

theorem Fab.switch_eq (f : Fab) (me : Nat) : f.switch me = (f.rerouted me).retry me := rfl

section
variable (f : Fab) (me : Nat)

theorem Fab.rerouted_graphs : (f.rerouted me).routes = f.graph ∧ (f.rerouted me).graph = f.graph ∧ (f.rerouted me).changing = false ∧
    (f.rerouted me).drained = [] := by
  unfold Fab.rerouted
  dsimp only
  split
  · exact ⟨rfl, rfl, rfl, rfl⟩
  · exact ⟨rfl, rfl, rfl, rfl⟩
  · split <;> exact ⟨rfl, rfl, rfl, rfl⟩
  · exact ⟨rfl, rfl, rfl, rfl⟩

theorem Fab.rerouted_of_leaving (h : f.state = .leaving) :
    (f.rerouted me).state = if f.graph.nbrs me = [] then .removable else .leaving := by
  simp only [Fab.rerouted, h, List.isEmpty_iff]
  split <;> rfl

theorem Fab.rerouted_of_joining (h : f.state = .joining) : (f.rerouted me).state = .joined := by
  simp only [Fab.rerouted, h]

end

theorem sameTopology_install {s : State} (hr : s.hub.restores = []) : SameTopology { s with fab := s.fab.rerouted s.me } s.install := by
  have hswitch : SameTopology { s with fab := s.fab.rerouted s.me } (s.withFab (s.fab.switch s.me)) :=
    ⟨Fab.topology_congr (Fab.retry_standing _ _), rfl, rfl, rfl, rfl⟩
  exact hswitch.trans (sameTopology_graphChanged hr)

theorem Fab.topology_rerouted (f : Fab) (me : Nat) : (f.rerouted me).topology = f.topology.rerouted me := by
  have hstate : f.topology.state = f.state := rfl
  have hgraph : f.topology.graph = f.graph := rfl
  simp only [Fab.rerouted, hstate, hgraph]
  split
  · rfl
  · rfl
  · split <;> rfl
  · rfl

/-- What stands of the new routes is a matter of what stood before. -/
theorem SameTopology.rerouted {s t : State} (h : SameTopology s t) :
    SameTopology { s with fab := s.fab.rerouted s.me } { t with fab := t.fab.rerouted t.me } where
  topology := by rw [Fab.topology_rerouted, h.topology, h.me, ← Fab.topology_rerouted]
  me := h.me
  restores := h.restores
  clusters := h.clusters
  jobs := h.jobs

/-- The module floods SWITCH on, and installs the routes of the newest graph that it knows. -/
theorem sameTopology_flood_install {s : State} (hr : s.hub.restores = []) (except : Option Nat) (b : Body) :
    SameTopology { s with fab := s.fab.rerouted s.me } ((s.withFab (s.fab.flood s.me except b)).install) := by
  exact (sameTopology_flood s except b).rerouted.trans (sameTopology_install hr)

/-! ### DRAINED and SWITCH -/

/-- The root with a module's DRAINED counted. -/
def State.heardDrained (s : State) (m : Nat) : State :=
  { s with fab := { s.fab with drained := m :: s.fab.drained.filter (· ≠ m) } }

theorem State.takeDrained_eq (s : State) (m : Nat) : s.takeDrained m =
    if (s.fab.graph.part s.me).all (s.heardDrained m).fab.drained.contains then
      ((s.heardDrained m).withFab ((s.heardDrained m).fab.flood s.me none (.switch s.fab.graph.id))).install
    else s.heardDrained m := rfl

theorem State.takeDrained_of_last {s : State} {m : Nat} (hr : s.hub.restores = [])
    (h : ∀ k ∈ s.fab.graph.part s.me, k = m ∨ k ∈ s.fab.drained) :
    SameTopology { s with fab := (s.heardDrained m).fab.rerouted s.me } (s.takeDrained m) := by
  have hall : (s.fab.graph.part s.me).all (s.heardDrained m).fab.drained.contains = true := List.all_eq_true.2 fun k hk => by
    by_cases hkm : k = m
    · simp [State.heardDrained, hkm]
    · simp [State.heardDrained, hkm, (h k hk).resolve_left hkm]
  rw [State.takeDrained_eq, if_pos hall]
  exact sameTopology_flood_install (s := s.heardDrained m) hr none _

theorem State.takeDrained_of_missing {s : State} {m : Nat} (h : ∃ k ∈ s.fab.graph.part s.me, k ≠ m ∧ k ∉ s.fab.drained) :
    s.takeDrained m = s.heardDrained m := by
  obtain ⟨k, hk, hkm, hkd⟩ := h
  have hall : (s.fab.graph.part s.me).all (s.heardDrained m).fab.drained.contains ≠ true := fun hall => by
    have hin := List.all_eq_true.1 hall k hk
    simp [State.heardDrained, hkm, hkd] at hin
  rw [State.takeDrained_eq, if_neg hall]

section
variable {s : State} {rx : Rx} (h : s.hears rx = true) (hch : s.fab.changing = true)
include h hch

theorem exec_drained (hroot : s.fab.graph.root s.me = s.me) (module : Nat) : exec (.drained rx module s.fab.graph.id) s =
    .next (((s.received rx (.drained module s.fab.graph.id)).takeDrained module).portDone rx (.drained module s.fab.graph.id)) := by
  have hexec : exec (.drained rx module s.fab.graph.id) s = execDrained rx module s.fab.graph.id s := rfl
  rw [exec_of_hears h hexec (by intro _ _ hb; cases hb)]
  have hrec := sameTopology_received s rx (.drained module s.fab.graph.id)
  rw [if_pos ⟨hrec.changing.trans hch, by rw [hrec.graph], by rw [hrec.graph, hrec.me, hroot]⟩]

theorem exec_switch : exec (.switch rx s.fab.graph.id) s =
    let b : Body := .switch s.fab.graph.id
    let r := s.received rx b
    .next (((r.withFab (r.fab.flood r.me (some rx.src) b)).install).portDone rx b) := by
  have hexec : exec (.switch rx s.fab.graph.id) s = execSwitch rx s.fab.graph.id s := rfl
  rw [exec_of_hears h hexec (by intro _ _ hb; cases hb)]
  dsimp only
  have hrec := sameTopology_received s rx (.switch s.fab.graph.id)
  rw [if_pos ⟨hrec.changing.trans hch, by rw [hrec.graph]⟩]

/-- The module that is told to switch installs the newest graph. -/
theorem switch_installs (hr : s.hub.restores = []) : Answers (.switch rx s.fab.graph.id) s
    (SameTopology { s with fab := s.fab.rerouted s.me }) := by
  have hrec := sameTopology_received s rx (.switch s.fab.graph.id)
  have hinst := sameTopology_flood_install (hrec.restores.trans hr) (some rx.src) (.switch s.fab.graph.id)
  exact ⟨_, exec_switch h hch, (hrec.rerouted.trans hinst).trans (sameTopology_portDone _ rx _)⟩

theorem drained_of_last (hroot : s.fab.graph.root s.me = s.me) {module : Nat} (hr : s.hub.restores = [])
    (hall : ∀ m ∈ s.fab.graph.part s.me, m = module ∨ m ∈ s.fab.drained) : Answers (.drained rx module s.fab.graph.id) s (fun t =>
      t.fab.routes = s.fab.graph ∧ t.fab.changing = false ∧ t.fab.drained = []) := by
  refine ⟨_, exec_drained h hch hroot module, ?_⟩
  generalize Body.drained module s.fab.graph.id = b
  have hrec := sameTopology_received s rx b
  have hlast := State.takeDrained_of_last (s := s.received rx b) (m := module) (hrec.restores.trans hr)
    (by rwa [hrec.graph, hrec.me, hrec.drained])
  have hdone := hlast.trans (sameTopology_portDone _ rx b)
  obtain ⟨hroutes, -, hchanging, hdrained⟩ := Fab.rerouted_graphs ((s.received rx b).heardDrained module).fab (s.received rx b).me
  exact ⟨hdone.routes.trans (hroutes.trans hrec.graph), hdone.changing.trans hchanging, hdone.drained.trans hdrained⟩

theorem drained_of_missing (hroot : s.fab.graph.root s.me = s.me) {module : Nat}
    (hmiss : ∃ m ∈ s.fab.graph.part s.me, m ≠ module ∧ m ∉ s.fab.drained) : Answers (.drained rx module s.fab.graph.id) s (fun t =>
      t.fab.drained = module :: s.fab.drained.filter (fun m => m ≠ module) ∧ t.fab.changing = true ∧ t.fab.routes = s.fab.routes) := by
  refine ⟨_, exec_drained h hch hroot module, ?_⟩
  generalize Body.drained module s.fab.graph.id = b
  have hrec := sameTopology_received s rx b
  rw [State.takeDrained_of_missing (by rwa [hrec.graph, hrec.me, hrec.drained])]
  have hdone := sameTopology_portDone ((s.received rx b).heardDrained module) rx b
  refine ⟨hdone.drained.trans ?_, hdone.changing.trans (hrec.changing.trans hch), hdone.routes.trans hrec.routes⟩
  rw [State.heardDrained, hrec.drained]

end

/-- A module that has drained tells the root of the newest graph. -/
theorem routeDrainDone_tellsRoot {s : State} (ha : s.alive = true) (hch : s.fab.changing = true) (hout : s.fab.outside = false)
    (hroot : s.fab.graph.root s.me ≠ s.me) : Answers .routeDrainDone s (fun t =>
      t.Queued ⟨s.fab.graph.root s.me, s.me, 0, 0, 0, .drained s.me s.fab.graph.id⟩ ∧ t.fab.changing = true ∧ OnlyFab s t) := by
  have hexec : exec .routeDrainDone s = .next (s.sendHub (s.fab.graph.root s.me) 0 (.drained s.me s.fab.graph.id)) := by
    have hrun : exec .routeDrainDone s = execRouteDrainDone s := rfl
    simp [hrun, execRouteDrainDone, ha, hch, hout, hroot]
  exact ⟨_, hexec, State.send_queued s _, (sameTopology_sendHub s _ _ _).changing.trans hch, onlyFab_withFab s _⟩

/-! ## Reports and leaves (R425, R427) -/

theorem State.portDone_reports (s : State) (rx : Rx) (b : Body) : (s.portDone rx b).fab.reports = s.fab.reports := by
  have hstand := congrArg Fab.reports (s.portDone_standing rx b)
  exact hstand

theorem topoReport_kept {s : State} {rx : Rx} (h : s.hears rx = true) (hentry : s.isEntry = true) (module : Nat) (ports : List PortRep) :
    Answers (.topoReport rx module ports) s (fun t => t.fab.reports.getLast? = some (module, ports) ∧ t.mem = s.mem ∧ t.jobs = s.jobs) := by
  have hexec : exec (.topoReport rx module ports) s = execTopoReport rx module ports s := rfl
  refine ⟨_, exec_of_hears h hexec (by intro _ _ hb; cases hb), ?_⟩
  generalize Body.topoReport module ports = b
  have hrec := onlyFab_received s rx b
  rw [if_pos (hrec.isEntry.trans hentry)]
  refine ⟨?_, ?_, ?_⟩
  · rw [State.portDone_reports]
    simp
  · rw [(onlyFab_portDone _ rx b).mem]
    simp
  · rw [(onlyFab_portDone _ rx b).jobs]
    simp

section
variable {s : State} (ha : s.alive = true)
include ha

theorem managedLeave_of_free (hjobs : s.jobs = []) (hremote : s.hub.remote = []) : Answers .managedLeave s (fun t => t.fab.state = .leaving ∧
    t.fab.graph = s.fab.graph.delModule s.me ∧ t.fab.changing = true ∧ t.mem = s.mem ∧ t.hub = s.hub) := by
  have hexec : exec .managedLeave s = .next s.managedLeave := congrArg Host.Outcome.next (if_pos ha)
  refine ⟨_, hexec, ?_⟩
  have hleave : s.managedLeave = s.withFab ((({ s.fab with state := .leaving } : Fab).flood s.me none (.leave s.me)).startChange
      ((({ s.fab with state := .leaving } : Fab).flood s.me none (.leave s.me)).graph.delModule s.me)) := by
    simp [State.managedLeave, hjobs, hremote]
  have hflood := sameTopology_flood { s with fab := { s.fab with state := .leaving } } none (.leave s.me)
  rw [hleave]
  exact ⟨hflood.state, congrArg (·.delModule s.me) hflood.graph, rfl, rfl, rfl⟩

theorem managedLeave_of_jobs (hjobs : s.jobs ≠ []) : exec .managedLeave s = .next { s with fab := { s.fab with cmdErr := true } } := by
  have hexec : exec .managedLeave s = .next s.managedLeave := congrArg Host.Outcome.next (if_pos ha)
  rw [hexec]
  simp [State.managedLeave, hjobs]

end

/-! ## The statement -/

/-- Settles O59: a flood by whether its graph is known, the change of routes at the root and elsewhere, reports, and leaves. -/
theorem routesChangeTogether : Obligations.RoutesChangeTogether := by
  intro s rx module change ports rep h hr
  have ha := State.alive_of_hears h
  refine ⟨fun c b g hmem => ?floods, ?drain, fun hch hroot => ⟨?last, ?missing⟩, ?switch, fun hentry => topoReport_kept h hentry module ports,
    managedLeave_of_free ha, managedLeave_of_jobs ha⟩
  case floods =>
    have hc := exec_flood h module ports rep hmem
    exact ⟨exec_flood_of_known hc, answers_flood_of_new hc hr⟩
  case drain => exact routeDrainDone_tellsRoot ha
  case last => exact drained_of_last h hch hroot hr
  case missing => exact drained_of_missing h hch hroot
  case switch =>
    rintro hch rfl
    obtain ⟨t, hexec, hinst⟩ := switch_installs h hch hr
    obtain ⟨hroutes, hgraph, hchanging, -⟩ := s.fab.rerouted_graphs s.me
    exact ⟨t, hexec, hinst.routes.trans hroutes, hinst.graph.trans hgraph, hinst.changing.trans hchanging,
      fun hleaving => hinst.state.trans (s.fab.rerouted_of_leaving s.me hleaving),
      fun hjoining => hinst.state.trans (s.fab.rerouted_of_joining s.me hjoining)⟩

end Sys2Proof.Machine
end

section
/-!
Proof, lanes and optical engines (O60): the end of a BER window, the swap of a worn lane, and the engine that takes over (R397, R398, R422,
R502). The clause of the spare engine that fails while it is free, and the lanes of an engine, are the model's own choice (log 31).
-/

namespace Sys2Proof.Machine

/-! ## Lanes (R397, R422) -/

theorem Port.lanes_lt {q : Port} {i : Nat} (h : i ∈ q.lanes) : i < 9 :=
  List.mem_range.1 (List.mem_filter.1 (List.mem_of_mem_take h)).1

/-- A lane that is out of service carries no words. -/
theorem notMem_lanesOf {w : Nat} (hw : w < 9) : w ∉ lanesOf w := by
  intro h
  have hout := (List.mem_filter.1 (List.mem_of_mem_take h)).2
  rw [if_neg (by omega)] at hout
  simp at hout

theorem lanesOf_nodup (w : Nat) : (lanesOf w).Nodup := (List.nodup_range.filter _).sublist (List.take_sublist _ _)

/-- One lane of a port that alone is over the limit. -/
theorem Port.wornLanes_eq {q : Port} {limit w : Nat} (hw : w ∈ q.lanes) (hover : limit < q.corr.getD w 0)
    (hothers : ∀ i ∈ q.lanes, i ≠ w → q.corr.getD i 0 ≤ limit) : q.lanes.filter (fun i => q.corr.getD i 0 > limit) = [w] := by
  have hiff : q.lanes.filter (fun i => q.corr.getD i 0 > limit) = q.lanes.filter (fun i => i == w) :=
    List.filter_congr fun i hi => by
      by_cases hiw : i = w
      · subst hiw
        simpa using hover
      · rw [decide_eq_false (Nat.not_lt.2 (hothers i hi hiw)), beq_eq_false_iff_ne.2 hiw]
  have hone : q.lanes.count w = 1 := List.count_eq_one_of_mem (lanesOf_nodup _) hw
  rw [hiff, List.filter_beq, hone, List.replicate_one]

/-- A port at the end of a window: the worst lane noted, and the counts anew (R422, R431). -/
def Port.noted (q : Port) : Port :=
  let worst := (List.range 9).foldl (fun w i => if q.corr.getD i 0 > q.corr.getD w 0 then i else w) 0
  { q with worstLane := worst, worstCorr := min (q.corr.getD worst 0) 0xFFFF, corr := List.replicate 9 0 }

theorem Port.berWindow_eq (q : Port) (limit : Nat) : q.berWindow limit =
    match q.lanes.filter (fun i => q.corr.getD i 0 > limit) with
    | [] => (q.noted, [])
    | w :: ws => if q.spareUsed ∨ q.outLane != 0xF ∨ q.swap.isSome then ({ q.noted with laneWorn := true }, w :: ws)
      else (({ q.noted with swap := some w, laneWorn := q.laneWorn || !ws.isEmpty } : Port).settleSwap, w :: ws) := rfl

/-- A port that has begun to swap lane `w` for its spare. -/
def Port.swapping (q : Port) (w : Nat) : Port := { q.noted with swap := some w }

theorem Port.berWindow_of_sound {q : Port} {limit : Nat} (h : ∀ i ∈ q.lanes, q.corr.getD i 0 ≤ limit) : q.berWindow limit = (q.noted, []) := by
  have hworn : q.lanes.filter (fun i => q.corr.getD i 0 > limit) = [] := List.filter_eq_nil_iff.2 fun i hi => by simpa using h i hi
  rw [Port.berWindow_eq, hworn]

/-- With one lane over the limit, and a spare that is free, a swap begins; it ends at once where nothing waits for an acknowledge. -/
theorem Port.berWindow_of_worn {q : Port} {limit w : Nat} (hworn : q.lanes.filter (fun i => q.corr.getD i 0 > limit) = [w])
    (hspare : q.spareUsed = false) (hout : q.outLane = 0xF) (hswap : q.swap = none) :
    q.berWindow limit = ((q.swapping w).settleSwap, [w]) := by
  have hlane : (q.laneWorn || !([] : List Nat).isEmpty) = q.noted.laneWorn := Bool.or_false _
  rw [Port.berWindow_eq, hworn]
  dsimp only
  rw [if_neg (by simp [hspare, hout, hswap]), hlane, Port.swapping]

/-! ### The swap -/

section
variable {q : Port} {w : Nat} (hswap : q.swap = some w)
include hswap

theorem Port.settleSwap_of_empty (hu : q.unacked = 0) : q.settleSwap = { q with swap := none, spareUsed := true, outLane := w } := by
  rw [Port.settleSwap, hswap]
  exact if_pos hu

theorem Port.settleSwap_of_unacked (hu : q.unacked ≠ 0) : q.settleSwap = q := by
  rw [Port.settleSwap, hswap]
  exact if_neg hu

theorem Port.canTake_of_swap (m : Msg) : q.canTake m = false := by simp [Port.canTake, hswap]

/-- With the acknowledge of the last flit the spare carries the worn lane's words. -/
theorem Port.acked_of_swap {a : Nat} (ha : q.flitsFrom a = 0) : (q.acked a).outLane = w := by
  unfold Port.acked
  rw [if_neg (by omega), Port.settleSwap_of_empty (w := w)]
  · exact hswap
  · simpa [Port.unacked, Port.flitsFrom] using ha

end

/-! ## The end of a BER window (R422) -/

/-- The corrected bits of a window that make a lane worn (R422, R431). -/
def State.berLimit (s : State) : Nat := fld s.fab.cfg 31 24 * 10 ^ 11 / 2 ^ fld s.fab.cfg 39 32

/-- A port with the counts of its nine lanes in the window. -/
def Port.counted (q : Port) (counts : List Nat) : Port := { q with corr := (List.range 9).map (fun i => counts.getD i 0) }

theorem Port.counted_corr (q : Port) (counts : List Nat) {i : Nat} (hi : i < 9) : (q.counted counts).corr.getD i 0 = counts.getD i 0 := by
  simp [Port.counted, List.getD_eq_getElem?_getD, hi]

/-- The module at the end of a port's window: the worn lanes are charged (R422, R497). -/
def State.windowEnds (s : State) (p : Nat) (counts : List Nat) : State :=
  let r := ((s.fab.port p).counted counts).berWindow s.berLimit
  let s := s.updPort p (fun _ => r.1)
  let s : State := { s with ctr := s.ctr.port p 3 (sumNat ((List.range 9).map (fun i => counts.getD i 0))) }
  r.2.foldl (fun s i => s.charge 3 (9 * p + i) 0x08) s

/-- Charges of lanes change no part of the fabric. -/
theorem State.windowEnds_fab (s : State) (p : Nat) (counts : List Nat) :
    (s.windowEnds p counts).fab = (s.updPort p (fun _ => (((s.fab.port p).counted counts).berWindow s.berLimit).1)).fab :=
  foldl_fab (fun (s : State) i => s.charge 3 (9 * p + i) 0x08) (fun s i => by simp) _ _

section
variable {s : State} {p : Nat} (ha : s.alive = true) (hp : p < 48) (hlen : s.fab.ports.length = 48) {counts : List Nat}
  (hup : (s.fab.port p).st = .up)

theorem State.windowEnds_port (hp : p < 48) (hlen : s.fab.ports.length = 48) :
    (s.windowEnds p counts).fab.port p = (((s.fab.port p).counted counts).berWindow s.berLimit).1 := by
  have hports : (s.windowEnds p counts).fab.ports = _ := congrArg Fab.ports (s.windowEnds_fab p counts)
  rw [Fab.port_updAt (hlen.symm ▸ hp) hports, if_pos rfl]

include ha hp hup

theorem exec_laneBerWindow : exec (.laneBerWindow p counts) s = .next (s.windowEnds p counts) := by
  have hexec : exec (.laneBerWindow p counts) s = execLaneBerWindow p counts s := rfl
  exact hexec.trans ((if_pos hp).trans (congrArg Host.Outcome.next (if_neg (by simp [ha, hup]))))

include hlen

theorem laneBerWindow_of_sound (hsound : ∀ i, i < 9 → counts.getD i 0 ≤ s.berLimit) :
    Answers (.laneBerWindow p counts) s (fun t => (t.fab.port p).lanes = (s.fab.port p).lanes ∧
      (t.fab.port p).laneWorn = (s.fab.port p).laneWorn ∧ (t.fab.port p).corr = List.replicate 9 0 ∧ OnlyFab s t) := by
  have hr := Port.berWindow_of_sound (q := (s.fab.port p).counted counts) (limit := s.berLimit)
    fun i hi => ((s.fab.port p).counted_corr counts (Port.lanes_lt hi)).le.trans (hsound i (Port.lanes_lt hi))
  refine ⟨_, exec_laneBerWindow ha hp hup, ?_⟩
  dsimp only
  rw [State.windowEnds_port hp hlen, hr]
  refine ⟨rfl, rfl, rfl, ?_⟩
  rw [State.windowEnds, hr]
  exact onlyFab_with s _ _

/-- The port's one worn lane goes to the free spare: at once, or once everything sent is acknowledged. -/
theorem laneBerWindow_of_worn {w : Nat} (hw : w ∈ (s.fab.port p).lanes) (hover : s.berLimit < counts.getD w 0)
    (hothers : ∀ i, i < 9 → i ≠ w → counts.getD i 0 ≤ s.berLimit) (hspare : (s.fab.port p).spareUsed = false)
    (hout : (s.fab.port p).outLane = 0xF) (hswap : (s.fab.port p).swap = none) :
    Answers (.laneBerWindow p counts) s (fun t => (t.fab.port p).laneWorn = (s.fab.port p).laneWorn ∧
      ((s.fab.port p).unacked = 0 → (t.fab.port p).spareUsed = true ∧ (t.fab.port p).outLane = w ∧ w ∉ (t.fab.port p).lanes) ∧
      ((s.fab.port p).unacked ≠ 0 → (t.fab.port p).swap = some w ∧ (t.fab.port p).lanes = (s.fab.port p).lanes ∧
        (∀ m, (t.fab.port p).canTake m = false) ∧ ∀ a, (t.fab.port p).flitsFrom a = 0 → w ∉ ((t.fab.port p).acked a).lanes)) := by
  have hw9 := Port.lanes_lt hw
  have hworn := Port.wornLanes_eq (q := (s.fab.port p).counted counts) hw (hover.trans_eq (Port.counted_corr _ _ hw9).symm)
    fun i hi hiw => (Port.counted_corr _ _ (Port.lanes_lt hi)).le.trans (hothers i (Port.lanes_lt hi) hiw)
  have hr := Port.berWindow_of_worn hworn hspare hout hswap
  have hwait : (((s.fab.port p).counted counts).swapping w).swap = some w := rfl
  refine ⟨_, exec_laneBerWindow ha hp hup, ?_⟩
  dsimp only
  rw [State.windowEnds_port hp hlen, hr]
  by_cases hu : (s.fab.port p).unacked = 0
  · rw [Port.settleSwap_of_empty hwait hu]
    exact ⟨rfl, fun _ => ⟨rfl, rfl, notMem_lanesOf hw9⟩, fun h => absurd hu h⟩
  · rw [Port.settleSwap_of_unacked hwait hu]
    refine ⟨rfl, fun h => absurd h hu, fun _ => ⟨rfl, rfl, Port.canTake_of_swap hwait, fun a hacked => ?_⟩⟩
    rw [Port.lanes, Port.acked_of_swap hwait hacked]
    exact notMem_lanesOf hw9

end

/-! ## Optical engines (R398, R502) -/

theorem enginePorts_lt {g e k : Nat} (hg : g < 2) (h : k ∈ enginePorts g e) : k < 48 := by
  obtain ⟨i, hi, rfl⟩ := List.mem_map.1 h
  have := List.mem_range.1 (List.mem_filter.1 hi).1
  omega

/-- From `s` to `t` the ports of a list come to one state and the others keep theirs; engines, and that no restore is in progress, stay. -/
structure PortsCome (st : PortState) (ps : List Nat) (s t : State) : Prop where
  come : ∀ k ∈ ps, (t.fab.port k).st = st
  others : ∀ k, k ∉ ps → (t.fab.port k).st = (s.fab.port k).st
  failed : t.fab.engineFailed = s.fab.engineFailed
  spare : t.fab.engineSpare = s.fab.engineSpare
  size : t.fab.ports.length = s.fab.ports.length
  restores : t.hub.restores = s.hub.restores

/-- A port that falls to a state. -/
theorem portsCome_linkGone {s : State} (hr : s.hub.restores = []) {p : Nat} (hp : p < s.fab.ports.length) {st : PortState} {h : Port → Port}
    (hst : ∀ q, (h q).st = st) : PortsCome st [p] s ((s.updPort p h).linkGone p (s.fab.port p)) := by
  have hsame := sameTopology_linkGone hr p h
  have hport (k : Nat) : (((s.updPort p h).linkGone p (s.fab.port p)).fab.port k).st = (if k = p then h (s.fab.port p) else s.fab.port k).st := by
    have hstand := congrArg Port.st (hsame.port k)
    rw [← State.cutPort_port h hp]
    exact hstand
  obtain ⟨hfailed, hspare, -, hhub⟩ := s.cutPort_engines (p := p) h
  refine ⟨fun k hk => ?_, fun k hk => ?_, ?_, ?_, by simp, ?_⟩
  · rw [hport, if_pos (List.mem_singleton.1 hk), hst]
  · rw [hport, if_neg (fun hkp => hk (List.mem_singleton.2 hkp))]
  · exact hsame.engineFailed.trans hfailed
  · exact hsame.engineSpare.trans hspare
  · rw [hsame.restores, hhub]

theorem PortsCome.foldl {st : PortState} {g : State → Nat → State}
    (hg : ∀ s p, s.hub.restores = [] → p < s.fab.ports.length → PortsCome st [p] s (g s p)) {ps : List Nat} {s : State}
    (hr : s.hub.restores = []) (hps : ∀ p ∈ ps, p < s.fab.ports.length) : PortsCome st ps s (ps.foldl g s) := by
  induction ps generalizing s with
  | nil => exact ⟨by simp, fun _ _ => rfl, rfl, rfl, rfl, rfl⟩
  | cons p ps ih =>
    have hhead := hg s p hr (hps p (by simp))
    have htail := ih (hhead.restores.trans hr) fun k hk => hhead.size ▸ hps k (by simp [hk])
    refine ⟨fun k hk => ?_, fun k hk => ?_, htail.failed.trans hhead.failed, htail.spare.trans hhead.spare, htail.size.trans hhead.size,
      htail.restores.trans hhead.restores⟩
    · by_cases hin : k ∈ ps
      · exact htail.come k hin
      · rw [List.foldl_cons, htail.others k hin, hhead.come k (by simpa [hin] using hk)]
    · obtain ⟨hkp, hkps⟩ := not_or.1 (mt List.mem_cons.2 hk)
      rw [List.foldl_cons, htail.others k hkps, hhead.others k (by simpa using hkp)]

theorem State.drain_lc (s : State) (cause : Nat) : (s.drain cause).start.lc ≠ .deployed := by
  unfold State.drain
  split
  · simp
  · assumption

section
variable {s : State} {g e : Nat}

theorem exec_engineFailover (ha : s.alive = true) (hg : g < 2) (he : e < 12) (hsound : s.fab.engineFailed.getD (12 * g + e) false = false) :
    exec (.opticalEngineFailover g e) s = .next (s.engineFails g e) := by
  have hexec : exec (.opticalEngineFailover g e) s = execOpticalEngineFailover g e s := rfl
  rw [hexec, execOpticalEngineFailover, if_neg (by omega), onHub, if_pos ha, hsound, if_neg Bool.false_ne_true]

/-- The module with an engine marked as failed. -/
def State.engineMarked (s : State) (g e : Nat) : State := { s with fab := { s.fab with engineFailed := s.fab.engineFailed.set (12 * g + e) true } }

/-- The engine's lanes go to the spare, which charges the engine. -/
def State.spareTakes (s : State) (g e : Nat) : State :=
  let s := s.engineMarked g e
  ({ s with fab := { s.fab with engineSpare := s.fab.engineSpare.set g (some e) } } : State).charge 6 (12 * g + e) 0x0A

theorem State.engineFails_of_spare (hspare : s.spareEngine g = true) (he : e < 11) :
    s.engineFails g e = (enginePorts g e).foldl State.retrainPort (s.spareTakes g e) := by
  have hon : s.portsOn g e = enginePorts g e := by rw [State.portsOn, if_neg (by omega)]
  unfold State.engineFails
  dsimp only
  rw [if_neg (by omega), if_pos hspare, hon]
  rfl

theorem State.engineFails_of_freeSpare (hspare : s.spareEngine g = true) : s.engineFails g 11 = s.engineMarked g 11 := by
  unfold State.engineFails
  exact if_pos ⟨rfl, hspare⟩

theorem State.engineFails_of_noSpare (hspare : s.spareEngine g = false) :
    s.engineFails g e = ((s.portsOn g e).foldl State.failPort (s.engineMarked g e)).drain 3 := by
  unfold State.engineFails
  dsimp only
  rw [hspare, if_neg (by simp), if_neg Bool.false_ne_true]
  rfl

end

/-- A spare that carries lanes is not free. -/
theorem State.spareEngine_of_used {s : State} {g : Nat} (h : (s.fab.engineSpare.getD g none).isSome = true) : s.spareEngine g = false := by
  unfold State.spareEngine
  rw [Option.isNone_eq_false_iff.2 h, Bool.false_and]

theorem State.portsOn_lt {s : State} {g e k : Nat} (hg : g < 2) (h : k ∈ s.portsOn g e) : k < 48 := enginePorts_lt hg h

section
variable {s : State} {g e : Nat} (ha : s.alive = true) (hg : g < 2) (hlen : s.fab.ports.length = 48) (hr : s.hub.restores = [])
include hlen hr

theorem spareTakes_retrains (hg : g < 2) : PortsCome .training (enginePorts g e) (s.spareTakes g e)
    ((enginePorts g e).foldl State.retrainPort (s.spareTakes g e)) := by
  have hsize : (s.spareTakes g e).fab.ports.length = 48 := by simp [State.spareTakes, State.engineMarked, hlen]
  have hrest : (s.spareTakes g e).hub.restores = [] := by simp [State.spareTakes, State.engineMarked, hr]
  exact PortsCome.foldl (fun _ _ hr hp => portsCome_linkGone (h := Port.startTraining) hr hp fun _ => rfl) hrest
    fun _ hk => hsize.symm ▸ enginePorts_lt hg hk

theorem engineMarked_fails (hg : g < 2) : PortsCome .failed (s.portsOn g e) (s.engineMarked g e)
    ((s.portsOn g e).foldl State.failPort (s.engineMarked g e)) :=
  PortsCome.foldl (fun _ _ hr hp => portsCome_linkGone (h := Port.goFailed) hr hp fun _ => rfl) hr
    fun _ hk => hlen.symm ▸ State.portsOn_lt hg hk

include ha hg

/-- The free spare takes the lanes of an engine that fails, and their ports train anew. -/
theorem engineFailover_of_spare (hspares : s.fab.engineSpare.length = 2) (hsound : s.fab.engineFailed.getD (12 * g + e) false = false)
    (he : e < 11) (hfree : s.spareEngine g = true) : Answers (.opticalEngineFailover g e) s (fun t =>
      t.fab.engineSpare.getD g none = some e ∧ t.fab.engineFailed = s.fab.engineFailed.set (12 * g + e) true ∧
      (∀ k, k ∉ enginePorts g e → (t.fab.port k).st = (s.fab.port k).st) ∧ ∀ k ∈ enginePorts g e, (t.fab.port k).st = .training) := by
  have hfab : (s.spareTakes g e).fab = { s.fab with
      engineFailed := s.fab.engineFailed.set (12 * g + e) true, engineSpare := s.fab.engineSpare.set g (some e) } := by
    simp [State.spareTakes, State.engineMarked]
  have hcome := spareTakes_retrains hlen hr hg (e := e)
  refine ⟨_, exec_engineFailover ha hg (by omega) hsound, ?_⟩
  rw [State.engineFails_of_spare hfree he]
  dsimp only
  rw [hcome.spare, hcome.failed, hfab]
  refine ⟨?_, rfl, fun k hk => (hcome.others k hk).trans (by rw [hfab]; rfl), hcome.come⟩
  simp [List.getD_eq_getElem?_getD, hspares, hg]

/-- Without a free spare the ports of the engine's lanes fail, and the module is in service no more. -/
theorem engineFailover_of_noSpare (hsound : s.fab.engineFailed.getD (12 * g + e) false = false) (he : e < 12) (hnone : s.spareEngine g = false) :
    Answers (.opticalEngineFailover g e) s (fun t => t.fab.engineFailed = s.fab.engineFailed.set (12 * g + e) true ∧
      (∀ k, k ∉ s.portsOn g e → (t.fab.port k).st = (s.fab.port k).st) ∧ (∀ k ∈ s.portsOn g e, (t.fab.port k).st = .failed) ∧
      t.start.lc ≠ .deployed) := by
  have hdrain (u : State) : (u.drain 3).fab = u.fab := by simp
  have hcome := engineMarked_fails hlen hr hg (e := e)
  refine ⟨_, exec_engineFailover ha hg he hsound, ?_⟩
  rw [State.engineFails_of_noSpare hnone]
  dsimp only
  rw [hdrain]
  exact ⟨hcome.failed, hcome.others, hcome.come, State.drain_lc _ 3⟩

end

/-! ## The statement -/

/-- Settles O60: a window's end by the port's worn lanes, an engine's failure by the spare that its group has. -/
theorem lanesAndEnginesFailOver : Obligations.LanesAndEnginesFailOver := by
  intro s p g e counts ha hp hlen _ hspares hr limit
  refine ⟨fun hup => ⟨?sound, fun w hw hover => ?worn⟩, fun hg he hsound => ⟨fun he' hfree => ?spare, fun hnone => ?noSpare, ?freeSpare⟩⟩
  case sound => exact laneBerWindow_of_sound ha hp hlen hup
  case worn => exact laneBerWindow_of_worn ha hp hlen hup hw hover
  case spare =>
    obtain ⟨t, hexec, hspare, hfailed, hothers, hcome⟩ := engineFailover_of_spare ha hg hlen hr hspares hsound he' hfree
    exact ⟨t, hexec, hspare, ⟨hfailed, fun k _ => hothers k⟩, hcome⟩
  case noSpare =>
    have hfree : s.spareEngine g = false := hnone.elim (fun h => State.spareEngine_of_used h.2) And.right
    obtain ⟨t, hexec, hfailed, hothers, hcome, hlc⟩ := engineFailover_of_noSpare ha hg hlen hr hsound he hfree
    exact ⟨t, hexec, ⟨hfailed, fun k _ => hothers k⟩, hcome, hlc⟩
  case freeSpare =>
    rintro rfl hfree
    rw [exec_engineFailover ha hg he hsound, State.engineFails_of_freeSpare hfree]
    rfl

end Sys2Proof.Machine
end

section
/-!
Proof, ports and links (O58, R396 to R405, R421, R424, R428). The statement fails at one place: it takes a port that has gone down to be as a
reset leaves it, credits and all. The change of the live graph that the fall brings may send a management message by another port than the one
that it waited at, and where that message had come by the fallen port, the credits of its flits are then owed there (`not_portsTrainAndRetry`).
But for such traffic the port is reset (`portDown_resets`), and the other clauses hold as they stand: the check of an identity
(`portTrain_checked`, `ident_checked`), the end of a screen (`portUp_links`, `portUp_receives`, `portUp_fails`), RETRAIN
(`retrain_trains`, `exec_retrain_noPort`), a failed flit (`flitReplay_asks`, `flitReplay_falls`), LINK (`link_taken`) and a bad message
(`badMsg_counted`); that a LINK leaves at once for a message that is consumed is the model's own choice (log 23).
-/

namespace Sys2Proof.Machine

/-! ## The far end's identity (R421, R424) -/

/-- A port whose far end has told its identity, which agrees with the map or does not. -/
def Port.identified (q : Port) (module farPort : Nat) (agrees : Bool) : Port :=
  if agrees then { q with st := .training, train := .screen, farModule := module, farPort := farPort, agreed := true }
  else { q with st := .mismatch, train := .none, farModule := module, farPort := farPort, agreed := false }

/-- From `s` to `t` port `p` has been told an identity; the graph, memory, jobs and clusters stay. -/
structure IdentChecked (s t : State) (p module farPort : Nat) (agrees : Bool) : Prop where
  port : ∃ q : Port, (t.fab.port p).standing = (q.identified module farPort agrees).standing
  graph : t.fab.graph = s.fab.graph
  mem : t.mem = s.mem
  jobs : t.jobs = s.jobs
  clusters : t.clusters = s.clusters

section
variable {s t : State} {p module farPort : Nat}

theorem IdentChecked.of_agrees (h : IdentChecked s t p module farPort true) : (t.fab.port p).st = .training ∧ (t.fab.port p).train = .screen ∧
    (t.fab.port p).farModule = module ∧ (t.fab.port p).farPort = farPort ∧ (t.fab.port p).agreed = true := by
  obtain ⟨q, hq⟩ := h.port
  exact ⟨(congrArg Port.st hq :), (congrArg Port.train hq :), (congrArg Port.farModule hq :), (congrArg Port.farPort hq :),
    (congrArg Port.agreed hq :)⟩

theorem IdentChecked.of_differs (h : IdentChecked s t p module farPort false) :
    (t.fab.port p).st = .mismatch ∧ (t.fab.port p).agreed = false := by
  obtain ⟨q, hq⟩ := h.port
  exact ⟨(congrArg Port.st hq :), (congrArg Port.agreed hq :)⟩

end

theorem IdentChecked.of_onlyFab {s u t : State} {p module farPort : Nat} {agrees : Bool} (h : OnlyFab s u) (hgraph : u.fab.graph = s.fab.graph)
    (hc : IdentChecked u t p module farPort agrees) : IdentChecked s t p module farPort agrees where
  port := hc.port
  graph := hc.graph.trans hgraph
  mem := hc.mem.trans h.mem
  jobs := hc.jobs.trans h.jobs
  clusters := hc.clusters.trans h.clusters

theorem State.checkIdent_eq (s : State) (p module farPort : Nat) (mapId : Word) : s.checkIdent p module farPort mapId =
    (s.updPort p (fun q => q.identified module farPort (s.agrees p module farPort mapId))).reportPorts := by
  unfold State.checkIdent
  split
  · rename_i h
    rw [h]
    rfl
  · rename_i h
    rw [Bool.eq_false_iff.2 h]
    rfl

theorem identChecked_checkIdent (s : State) {p : Nat} (hp : p < s.fab.ports.length) (module farPort : Nat) (mapId : Word) :
    IdentChecked s (s.checkIdent p module farPort mapId) p module farPort (s.agrees p module farPort mapId) := by
  rw [State.checkIdent_eq]
  generalize s.agrees p module farPort mapId = agrees
  have hsame := sameTopology_reportPorts (s.updPort p (fun q => q.identified module farPort agrees))
  refine ⟨⟨s.fab.port p, ?_⟩, hsame.graph, by simp, by simp, by simp⟩
  have hport := hsame.port p
  rwa [State.updPort_port hp, if_pos rfl] at hport

theorem OnlyFab.agrees {s t : State} (h : OnlyFab s t) (p module farPort : Nat) (mapId : Word) :
    t.agrees p module farPort mapId = s.agrees p module farPort mapId := by
  simp only [State.agrees, State.mapEnt, h.me, h.start]

theorem State.onlyFab_sendsIdent (s : State) (p module : Nat) : OnlyFab s ((s.updPort p Port.startTraining).sendIdent p module) :=
  (onlyFab_with s _ s.ctr).trans (onlyFab_withFab (s.updPort p Port.startTraining) _)

theorem State.sendRaw_ports (s : State) (p : Nat) (m : Msg) : (s.sendRaw p m).fab.ports = s.fab.ports := rfl

/-! ## The end of a lane screen (R396, R397, R421) -/

section
variable (q : Port) {passed : List Bool}

theorem Port.bringUp_of_sound (h : (badLanes passed 0 false).length ≤ 1) : (q.bringUp passed).st = .up := if_neg (Nat.not_lt.2 h)

theorem Port.bringUp_of_bad (h : 1 < (badLanes passed 0 false).length) : (q.bringUp passed).st = .failed := if_pos h

theorem Port.bringUp_txUp (h : (badLanes passed 9 true).length ≤ 1) : (q.bringUp passed).tx.up = true := by
  simp [Port.bringUp, Nat.not_lt.2 h]

theorem Port.bringUp_txDown (h : 1 < (badLanes passed 9 true).length) : (q.bringUp passed).tx.up = false := by
  simp [Port.bringUp, h, TxDir.reset]

end

theorem Port.linked_of_standing {q r : Port} (h : q.standing = r.standing) : q.linked = r.linked := (congrArg Port.linked h :)

theorem Port.st_of_standing {q r : Port} (h : q.standing = r.standing) : q.st = r.st := (congrArg Port.st h :)

theorem Graph.norm_mem_add (g : Graph) (l : Link) : l.norm ∈ g.add l := by
  unfold Graph.add
  split
  · exact List.contains_iff_mem.1 ‹_›
  · simp

theorem sameTopology_tellGraph (s : State) (g : Graph) (p far : Nat) : SameTopology s (s.tellGraph g p far) := by
  unfold State.tellGraph
  split
  · exact .refl s
  · exact (onlyFab_withFab s _).sameTopology (Fab.retry_standing _ s.me)

/-- A module that was alone joins with its first link (R426). -/
def State.joining (s : State) : State := if s.fab.state == .alone then { s with fab := { s.fab with state := .joining } } else s

theorem State.joining_eq (s : State) : ∃ st, s.joining = { s with fab := { s.fab with state := st } } := by
  unfold State.joining
  split
  · exact ⟨_, rfl⟩
  · exact ⟨s.fab.state, rfl⟩

/-- The live graph with the link of a port. -/
def State.graphWith (s : State) (p : Nat) : Graph := s.fab.graph.add ⟨s.me, p, (s.fab.port p).farModule, (s.fab.port p).farPort⟩

theorem State.linkUp_eq (s : State) (p : Nat) : ∃ b, s.linkUp p =
    (((s.joining.newGraph (s.graphWith p)).withFab ((s.joining.newGraph (s.graphWith p)).fab.flood (s.joining.newGraph (s.graphWith p)).me
      none b)).tellGraph s.fab.graph p (s.fab.port p).farModule) := by
  have hgraph : s.joining.fab.graph.add ⟨s.joining.me, p, (s.fab.port p).farModule, (s.fab.port p).farPort⟩ = s.graphWith p := by
    obtain ⟨st, hst⟩ := s.joining_eq
    rw [hst]
    rfl
  rw [← hgraph]
  exact ⟨_, rfl⟩

/-- A port that came up: the newest graph has its link, and a route change is on. -/
theorem sameTopology_linkUp {s : State} (hr : s.hub.restores = []) (p : Nat) :
    SameTopology { s.joining with fab := s.joining.fab.startChange (s.graphWith p) } (s.linkUp p) := by
  obtain ⟨b, hup⟩ := s.linkUp_eq p
  obtain ⟨st, hst⟩ := s.joining_eq
  have hnew := sameTopology_newGraph (s := s.joining) (by rw [hst]; exact hr) (s.graphWith p)
  rw [hup]
  exact (hnew.trans (sameTopology_flood _ none b)).trans (sameTopology_tellGraph _ _ _ _)

theorem State.linkUp_spec {s : State} (hr : s.hub.restores = []) (p : Nat) : ((s.linkUp p).fab.port p).standing = (s.fab.port p).standing ∧
    (s.linkUp p).fab.changing = true ∧ (s.linkUp p).fab.graph = s.graphWith p := by
  have hsame := sameTopology_linkUp hr p
  refine ⟨(hsame.port p).trans ?_, hsame.changing, hsame.graph⟩
  obtain ⟨st, hst⟩ := s.joining_eq
  rw [hst]
  rfl

/-! ## Ports that train, come up and fall (R396, R397, R421, R424, R428) -/

section
variable {s : State} {p : Nat} (ha : s.alive = true) (hp : p < 48) (hlen : s.fab.ports.length = 48)
include ha hp

theorem exec_portTrain (hst : (s.fab.port p).st ≠ .up) (hmay : s.mayTrain = true) (hedge : s.start.edgeUp (.serdes p) = true)
    (module farPort variant stepping : Nat) (mapId : Word) : exec (.portTrain p module farPort variant stepping mapId) s =
      .next (((s.updPort p Port.startTraining).sendIdent p module).checkIdent p module farPort mapId) := by
  have hexec : exec (.portTrain p module farPort variant stepping mapId) s = execPortTrain p module farPort variant stepping mapId s := rfl
  rw [hexec, execPortTrain, onPort, if_pos hp, if_neg (by simp [ha, hst, hmay, hedge])]

theorem exec_ident {rx : Rx} (hrx : rx.port = some p) (hst : (s.fab.port p).st = .training) (module farPort variant stepping : Nat)
    (mapId : Word) : exec (.ident rx module farPort variant stepping mapId) s = .next (s.checkIdent p module farPort mapId) := by
  have hexec : exec (.ident rx module farPort variant stepping mapId) s = execIdent rx module farPort variant stepping mapId s := rfl
  rw [hexec, execIdent, hrx]
  exact (if_pos hp).trans (congrArg Host.Outcome.next (if_pos ⟨ha, hst⟩))

theorem exec_portUp (hscreen : (s.fab.port p).train = .screen) (hedge : s.start.edgeUp (.serdes p) = true) (passed : List Bool) :
    let u := s.updPort p (fun q => q.bringUp passed)
    exec (.portUp p passed) s = .next (if (u.fab.port p).linked then (u.linkUp p).reportPorts else u.reportPorts) := by
  have hexec : exec (.portUp p passed) s = execPortUp p passed s := rfl
  rw [hexec, execPortUp, onPort, if_pos hp, if_neg (by simp [ha, hscreen, hedge])]

theorem exec_portDown (hst : (s.fab.port p).st ≠ .down) : exec (.portDown p) s = .next (s.downPort p) := by
  have hexec : exec (.portDown p) s = execPortDown p s := rfl
  exact hexec.trans ((if_pos hp).trans (congrArg Host.Outcome.next (if_pos ⟨ha, hst⟩)))

theorem exec_retrain : exec (.retrain p) s = .next (s.retrainPort p) := by
  have hexec : exec (.retrain p) s = execRetrain p s := rfl
  rw [hexec, execRetrain, if_neg (by simp [ha]), if_pos hp]

include hlen

theorem ident_checked {rx : Rx} (hrx : rx.port = some p) (hst : (s.fab.port p).st = .training) (module farPort variant stepping : Nat)
    (mapId : Word) : Answers (.ident rx module farPort variant stepping mapId) s
      (fun t => IdentChecked s t p module farPort (s.agrees p module farPort mapId)) :=
  ⟨_, exec_ident ha hp hrx hst module farPort variant stepping mapId, identChecked_checkIdent s (hlen.symm ▸ hp) module farPort mapId⟩

theorem portTrain_checked (hst : (s.fab.port p).st ≠ .up) (hmay : s.mayTrain = true) (hedge : s.start.edgeUp (.serdes p) = true)
    (module farPort variant stepping : Nat) (mapId : Word) : Answers (.portTrain p module farPort variant stepping mapId) s
      (fun t => IdentChecked s t p module farPort (s.agrees p module farPort mapId)) := by
  refine ⟨_, exec_portTrain ha hp hst hmay hedge module farPort variant stepping mapId, ?_⟩
  have hsent := s.onlyFab_sendsIdent p module
  have hchecked := identChecked_checkIdent ((s.updPort p Port.startTraining).sendIdent p module)
    (by rw [State.sendIdent, State.sendRaw_ports, State.updPort, updAt_length, hlen]; exact hp) module farPort mapId
  rw [hsent.agrees] at hchecked
  exact hchecked.of_onlyFab hsent rfl

variable (hscreen : (s.fab.port p).train = .screen) (hedge : s.start.edgeUp (.serdes p) = true) {passed : List Bool}
include hscreen hedge

/-- With both directions up the port carries a link of the newest graph. -/
theorem portUp_links (hr : s.hub.restores = []) (hrx : (badLanes passed 0 false).length ≤ 1) (htx : (badLanes passed 9 true).length ≤ 1) :
    Answers (.portUp p passed) s (fun t => (t.fab.port p).st = .up ∧ (t.fab.port p).linked = true ∧ t.fab.changing = true ∧
      (⟨s.me, p, (s.fab.port p).farModule, (s.fab.port p).farPort⟩ : Link).norm ∈ t.fab.graph) := by
  have hbrought := State.updPort_port (hlen.symm ▸ hp) (fun q => q.bringUp passed) p
  rw [if_pos rfl] at hbrought
  have hst := (s.fab.port p).bringUp_of_sound hrx
  have hlinked : ((s.fab.port p).bringUp passed).linked = true := by rw [Port.linked, hst, (s.fab.port p).bringUp_txUp htx]; rfl
  have hexec := exec_portUp ha hp hscreen hedge passed
  dsimp only at hexec
  rw [hbrought, if_pos hlinked] at hexec
  obtain ⟨hport, hchanging, hgraph⟩ := State.linkUp_spec (s := s.updPort p (fun q => q.bringUp passed)) hr p
  rw [hbrought] at hport
  have hdone := sameTopology_reportPorts ((s.updPort p (fun q => q.bringUp passed)).linkUp p)
  have hat := (hdone.port p).trans hport
  refine ⟨_, hexec, (Port.st_of_standing hat).trans hst, (Port.linked_of_standing hat).trans hlinked, hdone.changing.trans hchanging, ?_⟩
  rw [hdone.graph, hgraph, State.graphWith, hbrought]
  exact Graph.norm_mem_add _ _

/-- Where a direction fails its screen the port carries no link; it shows what it receives. -/
theorem portUp_unlinked (hlinked : ((s.fab.port p).bringUp passed).linked = false) : Answers (.portUp p passed) s (fun t =>
    (t.fab.port p).standing = ((s.fab.port p).bringUp passed).standing ∧ t.fab.graph = s.fab.graph) := by
  have hbrought := State.updPort_port (hlen.symm ▸ hp) (fun q => q.bringUp passed) p
  rw [if_pos rfl] at hbrought
  have hexec := exec_portUp ha hp hscreen hedge passed
  dsimp only at hexec
  rw [hbrought, hlinked, if_neg Bool.false_ne_true] at hexec
  have hdone := sameTopology_reportPorts (s.updPort p (fun q => q.bringUp passed))
  exact ⟨_, hexec, (hdone.port p).trans (congrArg Port.standing hbrought), hdone.graph⟩

theorem portUp_receives (hrx : (badLanes passed 0 false).length ≤ 1) (htx : 1 < (badLanes passed 9 true).length) :
    Answers (.portUp p passed) s (fun t => (t.fab.port p).st = .up ∧ (t.fab.port p).linked = false ∧ t.fab.graph = s.fab.graph) := by
  have hlinked : ((s.fab.port p).bringUp passed).linked = false := by 
    rw [Port.linked, (s.fab.port p).bringUp_txDown htx, Bool.and_false]
  obtain ⟨t, hexec, hport, hgraph⟩ := portUp_unlinked ha hp hlen hscreen hedge hlinked
  exact ⟨t, hexec, (Port.st_of_standing hport).trans ((s.fab.port p).bringUp_of_sound hrx), (Port.linked_of_standing hport).trans hlinked, hgraph⟩

theorem portUp_fails (hrx : 1 < (badLanes passed 0 false).length) :
    Answers (.portUp p passed) s (fun t => (t.fab.port p).st = .failed ∧ t.fab.graph = s.fab.graph) := by
  have hst := (s.fab.port p).bringUp_of_bad hrx
  have hlinked : ((s.fab.port p).bringUp passed).linked = false := by rw [Port.linked, hst]; rfl
  obtain ⟨t, hexec, hport, hgraph⟩ := portUp_unlinked ha hp hlen hscreen hedge hlinked
  exact ⟨t, hexec, (Port.st_of_standing hport).trans hst, hgraph⟩

end

section
variable {s : State} {p : Nat} (hr : s.hub.restores = []) (hp : p < s.fab.ports.length) (h : Port → Port)
include hr hp

/-- The port that changes, and the live graph without the link that it carried. -/
theorem State.linkGone_spec : let t := (s.updPort p h).linkGone p (s.fab.port p)
    (t.fab.port p).standing = (h (s.fab.port p)).standing ∧
    ((s.fab.port p).linked = true → t.fab.changing = true ∧ t.fab.graph = s.fab.graph.del s.me p) ∧
    ((s.fab.port p).linked = false → t.fab.graph = s.fab.graph ∧ t.fab.changing = s.fab.changing) := by
  have hsame := sameTopology_linkGone hr p h
  have hport := hsame.port p
  rw [State.cutPort_port h hp, if_pos rfl] at hport
  refine ⟨hport, fun hl => ?_, fun hl => ?_⟩
  · rw [hsame.changing, hsame.graph, State.cutPort, if_pos hl]
    exact ⟨rfl, rfl⟩
  · rw [hsame.changing, hsame.graph, State.cutPort, hl, if_neg Bool.false_ne_true]
    exact ⟨rfl, rfl⟩

end

section
variable {s : State} {p : Nat} (ha : s.alive = true) (hp : p < 48) (hlen : s.fab.ports.length = 48) (hr : s.hub.restores = [])
include ha hp hlen hr

/-- A port that goes down is reset but for traffic, and its link leaves the live graph. -/
theorem portDown_resets (hst : (s.fab.port p).st ≠ .down) : Answers (.portDown p) s (fun t => (t.fab.port p).standing = Port.reset ∧
    ((s.fab.port p).linked = true → t.fab.changing = true ∧ t.fab.graph = s.fab.graph.del s.me p) ∧
    ((s.fab.port p).linked = false → t.fab.graph = s.fab.graph ∧ t.fab.changing = s.fab.changing)) :=
  ⟨_, exec_portDown ha hp hst, State.linkGone_spec hr (hlen.symm ▸ hp) Port.goDown⟩

omit hp hlen hr in
theorem exec_retrain_noPort {k : Nat} (hk : 48 ≤ k) : exec (.retrain k) s = .next { s with fab := { s.fab with cmdErr := true } } := by
  have hexec : exec (.retrain k) s = execRetrain k s := rfl
  rw [hexec, execRetrain, if_neg (by simp [ha]), if_neg (Nat.not_lt.2 hk)]

theorem retrain_trains : Answers (.retrain p) s (fun t => (t.fab.port p).st = .training ∧ (t.fab.port p).train = .wordLock) := by
  obtain ⟨hport, -, -⟩ := State.linkGone_spec hr (hlen.symm ▸ hp) Port.startTraining
  exact ⟨_, exec_retrain ha hp, (congrArg Port.st hport :), (congrArg Port.train hport :)⟩

end

/-! ## Flits, acknowledges and credits (R399, R400, R404, R405) -/

/-- A LINK that leaves a port changes that port alone, by what it sends. -/
theorem Fab.link_ports_cases (f : Fab) (me p : Nat) (req : Bool) :
    (f.link me p req).ports = f.ports ∨ ∃ m, (f.link me p req).ports = updAt f.ports p (fun q => q.take m) := by
  unfold Fab.link
  dsimp only
  split
  · exact .inl rfl
  · split
    · exact .inl rfl
    · exact .inr ⟨_, rfl⟩

section
variable {f : Fab} {p : Nat} (hp : p < f.ports.length) (me : Nat) (req : Bool)
include hp

theorem Fab.link_other {k : Nat} (hk : k ≠ p) : (f.link me p req).port k = f.port k := by
  obtain hports | ⟨m, hports⟩ := f.link_ports_cases me p req
  · rw [Fab.port, hports, Fab.port]
  · rw [Fab.port_updAt hp hports, if_neg hk]

theorem Fab.link_rxSeq : ((f.link me p req).port p).rxSeq = (f.port p).rxSeq := by
  obtain hports | ⟨m, hports⟩ := f.link_ports_cases me p req
  · rw [Fab.port, hports, Fab.port]
  · rw [Fab.port_updAt hp hports, if_pos rfl, Port.take]
    dsimp only
    split <;> rfl

end

/-- A linked port with room in its replay buffer sends the LINK at once. -/
theorem Fab.link_sent {f : Fab} {p : Nat} (hl : (f.port p).linked = true) (hu : (f.port p).unacked < replayFlits) (me : Nat) (req : Bool) :
    (f.link me p req).sent = f.sent ++
      [(some p, ⟨(f.port p).farModule, me, 0, 0, 0, .link (f.port p).rxSeq (f.port p).rxSeq req (f.port p).owed⟩)] := by
  unfold Fab.link
  dsimp only
  rw [hl, if_neg (by decide), if_neg (by omega)]

/-- Where nothing waits, a round of the ports does nothing. -/
theorem Fab.retry_of_idle {f : Fab} (hw : f.waiting = []) (hd : f.due = []) (me : Nat) : f.retry me = f := by
  have hf : ({ f with waiting := [] } : Fab) = f := by rw [← hw]
  unfold Fab.retry
  rw [hw]
  dsimp only [List.foldl_nil, List.length_nil]
  rw [Fab.retryAll, hf, hd]
  rfl

/-- Failures in a row of the flit that the port waits for, with this one (R400). -/
def Port.missRow (q : Port) : Nat := if q.failRow ≠ 0 ∧ q.failSeq = q.rxSeq then q.failRow + 1 else 1

/-- A port with a failed flit counted. -/
def Port.missed (q : Port) : Port := { q with failSeq := q.rxSeq, failRow := q.missRow, replays := satAdd 16 q.replays 1 }

/-- The module with a failed flit of a port counted (R527). -/
def State.missedAt (s : State) (p : Nat) : State :=
  { s with fab := { s.fab with ports := updAt s.fab.ports p (fun _ => (s.fab.port p).missed) }, ctr := s.ctr.port p 2 1 }

theorem State.flitReplay_eq (s : State) (p : Nat) : s.flitReplay p =
    if (s.fab.port p).missRow ≥ fld s.fab.cfg 23 16 then ((s.missedAt p).updPort p Port.goDown).linkGone p (s.fab.port p).missed
    else (s.missedAt p).withFab ((s.missedAt p).fab.link s.me p true) := rfl

section
variable {s : State} {p : Nat} (ha : s.alive = true) (hp : p < 48) (hlen : s.fab.ports.length = 48) (hst : (s.fab.port p).st = .up)
include ha hp hlen hst

omit hlen in
theorem exec_flitReplay : exec (.flitReplay p) s = .next (s.flitReplay p) := by
  have hexec : exec (.flitReplay p) s = execFlitReplay p s := rfl
  exact hexec.trans ((if_pos hp).trans (congrArg Host.Outcome.next (if_pos ⟨ha, hst⟩)))

omit ha hst in
theorem State.missedAt_port : (s.missedAt p).fab.port p = (s.fab.port p).missed :=
  (Fab.port_updAt (g := fun _ => (s.fab.port p).missed) (hlen.symm ▸ hp) rfl p).trans (if_pos rfl)

/-- A failed flit is counted and asked for again. -/
theorem flitReplay_asks (hl : (s.fab.port p).linked = true) (hrow : (s.fab.port p).missRow < fld s.fab.cfg 23 16) :
    Answers (.flitReplay p) s (fun t => (t.fab.port p).standing = (s.fab.port p).missed.standing ∧
      (t.fab.port p).rxSeq = (s.fab.port p).rxSeq ∧
      ((s.fab.port p).unacked < replayFlits → t.fab.sent = s.fab.sent ++ [(some p, ⟨(s.fab.port p).farModule, s.me, 0, 0, 0,
        .link (s.fab.port p).rxSeq (s.fab.port p).rxSeq true (s.fab.port p).owed⟩)]) ∧ t = { s with fab := t.fab, ctr := t.ctr }) := by
  have hasks : s.flitReplay p = (s.missedAt p).withFab ((s.missedAt p).fab.link s.me p true) :=
    (State.flitReplay_eq s p).trans (if_neg (Nat.not_le.2 hrow))
  have hmissed := State.missedAt_port (s := s) hp hlen
  have hlen' : p < (s.missedAt p).fab.ports.length := by
    rw [State.missedAt, updAt_length, hlen]
    exact hp
  refine ⟨_, exec_flitReplay ha hp hst, ?_⟩
  rw [hasks]
  refine ⟨?_, ?_, fun hu => ?_, ?_⟩
  · have hstand : ((s.missedAt p).fab.link s.me p true).standing.port p = (s.missedAt p).fab.standing.port p := by rw [Fab.link_standing]
    rwa [Fab.standing_port, Fab.standing_port, hmissed] at hstand
  · exact (Fab.link_rxSeq hlen' s.me true).trans (congrArg Port.rxSeq hmissed :)
  · have hsent := Fab.link_sent (f := (s.missedAt p).fab) (p := p) (by rw [hmissed]; exact hl) (by rw [hmissed]; exact hu) s.me true
    rw [hmissed] at hsent
    exact hsent
  · rfl

/-- The port falls at REPLAY_MAX failures of one flit in a row. -/
theorem flitReplay_falls (hr : s.hub.restores = []) (hl : (s.fab.port p).linked = true) (hrow : fld s.fab.cfg 23 16 ≤ (s.fab.port p).missRow) :
    Answers (.flitReplay p) s (fun t => (t.fab.port p).st = .down ∧ t.fab.graph = s.fab.graph.del s.me p) := by
  have hmissed := State.missedAt_port (s := s) hp hlen
  have hfalls : s.flitReplay p = ((s.missedAt p).updPort p Port.goDown).linkGone p ((s.missedAt p).fab.port p) := by
    rw [hmissed]
    exact (State.flitReplay_eq s p).trans (if_pos hrow)
  have hlen' : p < (s.missedAt p).fab.ports.length := by
    rw [State.missedAt, updAt_length, hlen]
    exact hp
  obtain ⟨hport, hlinked, -⟩ := State.linkGone_spec (s := s.missedAt p) hr hlen' Port.goDown
  rw [hmissed] at hlinked
  refine ⟨_, exec_flitReplay ha hp hst, ?_⟩
  rw [hfalls]
  exact ⟨(congrArg Port.st hport :), hmissed ▸ (hlinked hl).2⟩

end

section
variable (q : Port)

theorem Port.settleSwap_keeps : q.settleSwap.ackSeq = q.ackSeq ∧ q.settleSwap.rxSeq = q.rxSeq ∧ q.settleSwap.credits = q.credits := by
  unfold Port.settleSwap
  split
  · split <;> exact ⟨rfl, rfl, rfl⟩
  · exact ⟨rfl, rfl, rfl⟩

theorem Port.acked_keeps (a : Nat) : (q.acked a).rxSeq = q.rxSeq ∧ (q.acked a).credits = q.credits := by
  unfold Port.acked
  split
  · exact ⟨rfl, rfl⟩
  · exact (Port.settleSwap_keeps _).2

theorem Port.acked_ackSeq {a : Nat} (h : q.flitsFrom a ≤ q.unacked) : (q.acked a).ackSeq = a % 65536 := by
  rw [Port.acked, if_neg (Nat.not_lt.2 h)]
  exact (Port.settleSwap_keeps _).1

/-- The port with what a LINK acknowledges and gives back (R400, R404, R405); the LINK's own flit is numbered (R399). -/
def Port.linkTaken (ack : Nat) (credits : List Nat) : Port :=
  { q.acked ack with
    rxSeq := ((q.acked ack).rxSeq + 1) % 65536
    credits := (List.range 4).map (fun v => min ((q.acked ack).credits.getD v 0 + credits.getD v 0) (vcBuffers.getD v 0)) }

theorem Port.linkTaken_credits (ack : Nat) (credits : List Nat) {v : Nat} (hv : v < 4) :
    (q.linkTaken ack credits).credits.getD v 0 = min (q.credits.getD v 0 + credits.getD v 0) (vcBuffers.getD v 0) := by
  obtain ⟨-, hcredits⟩ := q.acked_keeps ack
  simp [Port.linkTaken, List.getD_eq_getElem?_getD, hcredits, hv]

/-- Messages that a replay request has sent again. -/
def Port.again (req : Option Nat) : List Msg := match req with | some n => q.replayed n | none => []

end

/-- The fabric part once a port has taken a LINK, before what waits tries again. -/
def Fab.linkTaken (f : Fab) (p ack : Nat) (req : Option Nat) (credits : List Nat) : Fab :=
  { f with
    ports := updAt f.ports p (fun _ => (f.port p).linkTaken ack credits)
    sent := f.sent ++ (((f.port p).acked ack).again req).map (fun m => (some p, m)) }

theorem State.takeLink_eq (s : State) (p ack : Nat) (req : Option Nat) (credits : List Nat) :
    s.takeLink p ack req credits = s.withFab ((s.fab.linkTaken p ack req credits).retry s.me) := rfl

/-- The fabric part with a bad message numbered, counted and its credits owed (R404). -/
def Fab.badTaken (f : Fab) (bad : BadMsg) : Fab :=
  { f with
    badMsg := satAdd 16 f.badMsg 1
    ports := updAt f.ports bad.port (fun _ => { f.port bad.port with
      rxSeq := ((f.port bad.port).rxSeq + bad.flits) % 65536
      owed := (f.port bad.port).owed.set (bad.vc % 4) ((f.port bad.port).owed.getD (bad.vc % 4) 0 + bad.flits) }) }

theorem Fab.badTaken_port {f : Fab} {bad : BadMsg} (hp : bad.port < f.ports.length) (k : Nat) : (f.badTaken bad).port k =
    if k = bad.port then { f.port bad.port with
      rxSeq := ((f.port bad.port).rxSeq + bad.flits) % 65536
      owed := (f.port bad.port).owed.set (bad.vc % 4) ((f.port bad.port).owed.getD (bad.vc % 4) 0 + bad.flits) } else f.port k :=
  Fab.port_updAt hp (g := fun _ => _) rfl k

section
variable {s : State} {p : Nat} (ha : s.alive = true) (hp : p < 48) (hlen : s.fab.ports.length = 48) (hst : (s.fab.port p).st = .up)
include ha hp hst

theorem exec_link (ack : Nat) (req : Option Nat) (credits : List Nat) :
    exec (.link p ack req credits) s = .next (s.withFab ((s.fab.linkTaken p ack req credits).retry s.me)) := by
  have hexec : exec (.link p ack req credits) s = execLink p ack req credits s := rfl
  exact hexec.trans ((if_pos hp).trans (congrArg Host.Outcome.next (if_pos ⟨ha, hst⟩)))

theorem exec_badMsg {bad : BadMsg} (hbad : bad.port = p) : exec (.badMsg bad) s =
    .next (({ s with ctr := s.ctr.port bad.port 1 bad.flits } : State).withFab ((s.fab.badTaken bad).link s.me bad.port false)) := by
  subst hbad
  have hexec : exec (.badMsg bad) s = execBadMsg bad s := rfl
  refine hexec.trans ((if_pos hp).trans (congrArg Host.Outcome.next (if_neg ?_)))
  simp [ha, hst]

include hlen

/-- A LINK at a module where nothing waits. -/
theorem link_taken (hw : s.fab.waiting = []) (hd : s.fab.due = []) (ack : Nat) (req : Option Nat) (credits : List Nat) :
    Answers (.link p ack req credits) s (fun t =>
      ((s.fab.port p).flitsFrom ack ≤ (s.fab.port p).unacked →
        (t.fab.port p).ackSeq = ack % 65536 ∧ (t.fab.port p).buffer = ((s.fab.port p).acked ack).buffer) ∧
      (t.fab.port p).rxSeq = ((s.fab.port p).rxSeq + 1) % 65536 ∧
      t.fab.sent = s.fab.sent ++ (((s.fab.port p).acked ack).again req).map (fun m => (some p, m)) ∧
      (∀ v, v < 4 → (t.fab.port p).credits.getD v 0 = min ((s.fab.port p).credits.getD v 0 + credits.getD v 0) (vcBuffers.getD v 0)) ∧
      (∀ k, k ≠ p → t.fab.port k = s.fab.port k) ∧ OnlyFab s t) := by
  have hidle := Fab.retry_of_idle (f := s.fab.linkTaken p ack req credits) hw hd s.me
  have hport := Fab.port_updAt (f := s.fab) (h := s.fab.linkTaken p ack req credits) (hlen.symm ▸ hp) rfl
  have hown := (hport p).trans (if_pos rfl)
  have hexec := exec_link ha hp hst ack req credits
  rw [hidle] at hexec
  refine ⟨_, hexec, fun hack => ⟨?_, (congrArg Port.buffer hown :)⟩, ?_, rfl, fun v hv => ?_,
    fun k hk => (hport k).trans (if_neg hk), onlyFab_withFab s _⟩
  · exact (congrArg Port.ackSeq hown :).trans (Port.acked_ackSeq _ hack)
  · exact (congrArg Port.rxSeq hown :).trans (congrArg (fun n => (n + 1) % 65536) ((s.fab.port p).acked_keeps ack).1)
  · exact (congrArg (fun q : Port => q.credits.getD v 0) hown :).trans (Port.linkTaken_credits _ ack credits hv)

/-- A bad message at a linked port; the LINK that leaves at once is the model's own choice (log 23). -/
theorem badMsg_counted {bad : BadMsg} (hbad : bad.port = p) (hl : (s.fab.port p).linked = true) :
    Answers (.badMsg bad) s (fun t => t.fab.badMsg = satAdd 16 s.fab.badMsg 1 ∧
      (t.fab.port p).rxSeq = ((s.fab.port p).rxSeq + bad.flits) % 65536 ∧
      ((s.fab.port p).unacked < replayFlits → t.fab.sent = s.fab.sent ++ [(some p, ⟨(s.fab.port p).farModule, s.me, 0, 0, 0,
        .link (((s.fab.port p).rxSeq + bad.flits) % 65536) (((s.fab.port p).rxSeq + bad.flits) % 65536) false
          ((s.fab.port p).owed.set (bad.vc % 4) ((s.fab.port p).owed.getD (bad.vc % 4) 0 + bad.flits))⟩)]) ∧
      (∀ k, k ≠ p → t.fab.port k = s.fab.port k) ∧ OnlyFab s t) := by
  subst hbad
  have hport := Fab.badTaken_port (f := s.fab) (bad := bad) (hlen.symm ▸ hp)
  have hlen' : bad.port < (s.fab.badTaken bad).ports.length := by
    rw [Fab.badTaken, updAt_length, hlen]
    exact hp
  have hown := (hport bad.port).trans (if_pos rfl)
  refine ⟨_, exec_badMsg ha hp hst rfl, ?_, ?_, fun hu => ?_, fun k hk => ?_, onlyFab_with s _ _⟩
  · exact (congrArg Fab.badMsg ((s.fab.badTaken bad).link_standing s.me bad.port false) :)
  · exact (Fab.link_rxSeq hlen' s.me false).trans (congrArg Port.rxSeq hown :)
  · have hsent := Fab.link_sent (f := s.fab.badTaken bad) (p := bad.port) (by rw [hown]; exact hl) (by rw [hown]; exact hu) s.me false
    rw [hown] at hsent
    exact hsent
  · exact (Fab.link_other hlen' s.me false hk).trans ((hport k).trans (if_neg hk))

end

/-! ## A relay that loses the port of a message that waits -/

/-- A linked port of the relay, with credits of the management channel or without. -/
def relayPort (far farPort mgmt : Nat) : Port :=
  { Port.reset with st := .up, farModule := far, farPort, agreed := true, tx := ⟨true, 0xF⟩, credits := [384, 256, 384, mgmt] }

/-- Module 0x42 reaches 0x44 by 0x45 alone while 0x40 is there, and by 0x41 once port 0 is down. -/
def relayLinks : Graph :=
  [⟨0x40, 0, 0x42, 0⟩, ⟨0x41, 0, 0x42, 1⟩, ⟨0x41, 1, 0x43, 0⟩, ⟨0x42, 2, 0x45, 0⟩, ⟨0x43, 1, 0x44, 0⟩, ⟨0x44, 1, 0x45, 1⟩]

/-- An ABORT from 0x40 to 0x44. -/
def relayed : Msg := ⟨0x44, 0x40, 1, 0, 0, .abort ⟨1, 1, 0⟩ statusAborted⟩

/-- The ABORT has come by port 0 and waits at port 2, which has no credit for it. -/
def relay : State :=
  { State.reset with
    hub := { State.reset.hub with module := 0x42 }
    fab := { Fab.reset with
      state := .joined
      ports := relayPort 0x40 0 64 :: relayPort 0x41 0 64 :: relayPort 0x45 0 0 :: List.replicate 45 Port.reset
      graph := relayLinks
      routes := relayLinks
      waiting := [⟨relayed, some 2, false, some 0⟩] } }

/-- Credits that a port owes after a command. -/
def Out.owed (o : Out) (p : Nat) : List Nat := match o with | .next t => (t.fab.port p).owed | _ => []

/-- The relay is at rest: its message has no port to leave by. -/
theorem relay_retry : relay.fab.retry 0x42 = relay.fab := by decide +kernel

/-- As port 0 falls the ABORT leaves by port 1, and its credit is owed at the port that has fallen. -/
theorem relay_owes : Out.owed (exec (.portDown 0) relay) 0 = [0, 0, 0, 1] := by decide +kernel

/-- Refutes O58: a port that goes down may owe the credits of a message that the change of the live graph sends on its way. -/
theorem not_portsTrainAndRetry : ¬ Obligations.PortsTrainAndRetry := by
  unfold Obligations.PortsTrainAndRetry
  intro h
  obtain ⟨-, -, -, hdown, -, -⟩ := h.1 relay 0 0 0 0 0 0 ⟨none, 0, 0, 0, 0, 0, 0⟩ [] rfl (by decide) rfl rfl
  obtain ⟨t, ht, hreset, -, -⟩ := hdown (by decide)
  have howes := relay_owes
  rw [ht] at howes
  exact absurd ((congrArg Port.owed hreset).symm.trans howes) (by decide)

end Sys2Proof.Machine
end

section
/-!
Proof, collectives (O52, R414 to R419). The statement takes every flight that `State.todo` gives for a COLLECTIVE that is to start, and
`State.todo` also gives one that is marked for a retry (R174), for which the instruction does nothing: the statement fails there
(`not_collectivesCombineAndComplete`). It holds of an entry whose work is still to begin, alone in its group (`collective_alone_done`) or with
others (`collective_waits`), and of the messages (`collective_goesOn`, `collective_ends`, `collective_keeps`).
-/

namespace Sys2Proof.Machine

/-! ## What a collective may change (R414 to R419) -/

/-- A Derailleur without its flights and the step's magnitudes. -/
def Drl.issuing (d : Drl) : Drl := { d with flights := [], amaxs := [] }

/-- A cluster without the step's magnitudes. -/
def Cluster.besideMagnitudes (c : Cluster) : Cluster := { c with drl := { c.drl with amaxs := [] }, under := none }

theorem Cluster.eq_of_besideMagnitudes {c d : Cluster} (h : c.besideMagnitudes = d.besideMagnitudes) :
    c = { d with drl := { d.drl with amaxs := c.drl.amaxs }, under := c.under } :=
  (congrArg (fun e : Cluster => { e with drl := { e.drl with amaxs := c.drl.amaxs }, under := c.under }) h :)

/-- From `s` to `t` a collective of cluster `l` has worked: its Derailleur changes in its flights and magnitudes, other clusters in their
magnitudes. -/
structure CollStep (s t : State) (l : Nat) : Prop where
  own : (t.cluster l).drl.issuing = (s.cluster l).drl.issuing
  size : t.clusters.length = s.clusters.length
  others : ∀ k, k ≠ l → (t.cluster k).besideMagnitudes = (s.cluster k).besideMagnitudes
  hub : t.hub = s.hub
  jobs : t.jobs = s.jobs

theorem CollStep.trans {s t u : State} {l : Nat} (h : CollStep s t l) (h' : CollStep t u l) : CollStep s u l where
  own := h'.own.trans h.own
  size := h'.size.trans h.size
  others k hk := (h'.others k hk).trans (h.others k hk)
  hub := h'.hub.trans h.hub
  jobs := h'.jobs.trans h.jobs

/-- Messages come and go and counts rise: Derailleurs, other clusters, memory, the hub and the jobs stay. -/
structure GroupQuiet (s t : State) (l : Nat) : Prop where
  drl : (t.cluster l).drl = (s.cluster l).drl
  size : t.clusters.length = s.clusters.length
  others : SameClusters s t l
  rest : t = { s with clusters := t.clusters, fab := t.fab, ctr := t.ctr, pages := { s.pages with ce := t.pages.ce } }

theorem GroupQuiet.trans {s t u : State} {l : Nat} (h : GroupQuiet s t l) (h' : GroupQuiet t u l) : GroupQuiet s u l where
  drl := h'.drl.trans h.drl
  size := h'.size.trans h.size
  others := h.others.trans h'.others
  rest := h'.rest.trans (by rw [h.rest])

section
variable {s t : State} {l : Nat} (h : GroupQuiet s t l)
include h

theorem GroupQuiet.mem : t.mem = s.mem := by rw [h.rest]
theorem GroupQuiet.hub : t.hub = s.hub := by rw [h.rest]
theorem GroupQuiet.jobs : t.jobs = s.jobs := by rw [h.rest]
theorem GroupQuiet.writesWait (as : List Access) : writesWait t.pages as = writesWait s.pages as := by rw [h.rest]; rfl
theorem GroupQuiet.collStep : CollStep s t l :=
  ⟨by rw [h.drl], h.size, fun k hk => by rw [h.others k hk], h.hub, h.jobs⟩

end

theorem groupQuiet_refl (s : State) (l : Nat) : GroupQuiet s s l := ⟨rfl, rfl, fun _ _ => rfl, rfl⟩

theorem OnlyFab.groupQuiet {s t : State} (h : OnlyFab s t) (l : Nat) : GroupQuiet s t l :=
  ⟨by rw [h.cluster], by rw [h.clusters], fun k _ => h.cluster k, by rw [h]⟩

theorem groupQuiet_count (s : State) (l : Nat) (ws : List (Nat × Nat)) : GroupQuiet s (s.count l ws) l :=
  ⟨s.count_drl l ws l, s.updCluster_length l _, sameClusters_updCluster s l _, rfl⟩

theorem groupQuiet_groupSend (s : State) (l ctx dst : Nat) (b : Body) : GroupQuiet s (s.groupSend l ctx dst b) l :=
  (groupQuiet_count s l _).trans ((onlyFab_withFab _ _).groupQuiet l)

theorem groupQuiet_collSend (s : State) (x : Site) (c : Coll) (ms : List (Nat × Body)) : GroupQuiet s (s.collSend x c ms) x.l := by
  unfold State.collSend
  generalize ms.flatMap (fun m => m.2.pieces.map (fun b => (m.1, b))) = ps
  induction ps generalizing s with
  | nil => exact groupQuiet_refl s x.l
  | cons p ps ih => exact (groupQuiet_groupSend s x.l _ _ _).trans (ih _)

theorem groupQuiet_counted (s : State) (x : Site) (ev : Ev) (as : List Access) : GroupQuiet s (s.counted x ev as) x.l := by
  have hworks := works_counted s x ev as
  have honly := s.onlyCounted_counted x ev as
  refine ⟨s.counted_part (·.drl) (fun _ _ => rfl) x ev as x.l, hworks.size, hworks.others, ?_⟩
  rw [honly]

/-! ## A flight of its cluster changes -/

theorem collStep_setFlight (s : State) {l : Nat} (hl : l < s.clusters.length) (idx : Nat) (g : Flight → Flight) :
    CollStep s (s.updDrl l (fun d => d.setFlight idx g)) l :=
  ⟨by rw [State.updDrl_drl _ _ _ hl]; rfl, s.updDrl_length l _, fun k hk =>
    congrArg Cluster.besideMagnitudes (sameClusters_updCluster s l _ k hk), rfl, rfl⟩

/-! ## The result lands (R415, R417, R418) -/

/-- What a finished collective writes into OPD. -/
def Coll.outputs (c : Coll) (r : RedDesc) (a d : Tensor) : List (Nat × List Byte) :=
  c.results.flatMap (fun q =>
    if c.op = 5 then gatherWrites r a d q.1 q.2
    else if c.op = 6 then (if q.1 = c.rank then chunkWrites r a d c.n q.1 q.2 else [])
    else chunkWrites r a d c.n q.1 q.2)

/-- The bytes and, for the storage formats of 8 bits, the scale of the result. -/
def State.putResult (s : State) (a d : Tensor) (ws : List (Nat × List Byte)) : State :=
  if a.fmt = .s8e ∨ a.fmt = .s8w then { s.store ws with tags := (s.store ws).tags.put d.base d.bytes (a.scaleOf (s.store ws).mem) }
  else s.store ws

/-- Magnitudes that a carry returns, by scale record. -/
def State.returned (s : State) (x : Site) (r : RedDesc) (v : Carry) : List (Tensor × Nat) := (x.job.listed s.mem r).zip v.amax

/-- A Derailleur without its own magnitudes of the records that a carry returns. -/
def Drl.giveWay (ts : List (Tensor × Nat)) (d : Drl) : Drl := { d with amaxs := d.amaxs.filter (fun e => !(ts.any (fun t => t.1.srec = e.1))) }

/-- The carry lands in the cluster, and stands for the magnitudes of the task's clusters. -/
def State.landCarry (s : State) (x : Site) (r : RedDesc) (v : Carry) : State :=
  ((s.holders x.key).foldl (fun (t : State) l => t.updCluster l (fun q => q.updDrl x.key (Drl.giveWay (s.returned x r v)))) s).updCluster x.l
    (fun q => { q with
      chn := { q.chn with stepNf := q.chn.stepNf || (r.nfc && v.nf) }
      drl := { q.drl with
        amaxs := (s.returned x r v).foldl (fun (m : List (Nat × Nat)) (t : Tensor × Nat) => assocSet m t.1.srec t.2) q.drl.amaxs } })

theorem State.finishColl_eq (s : State) (x : Site) (r : RedDesc) (a d : Tensor) (c : Coll) : s.finishColl x r a d c =
    (match c.carryDone with
      | some v => (s.putResult a d (c.outputs r a d)).landCarry x r v
      | none => s.putResult a d (c.outputs r a d)).workDone x := rfl

theorem State.putResult_clusters (s : State) (a d : Tensor) (ws : List (Nat × List Byte)) :
    (s.putResult a d ws).clusters = s.clusters ∧ (s.putResult a d ws).hub = s.hub ∧ (s.putResult a d ws).jobs = s.jobs ∧
    (s.putResult a d ws).fab = s.fab ∧ (s.putResult a d ws).mem = Cells.writeAll s.mem ws := by
  unfold State.putResult
  split <;> exact ⟨rfl, rfl, rfl, rfl, rfl⟩

section
variable (key : TaskKey) (ts : List (Tensor × Nat)) (c : Cluster)

theorem Cluster.giveWay_issuing : (c.updDrl key (Drl.giveWay ts)).drl.issuing = c.drl.issuing := by
  unfold Cluster.updDrl
  split
  · rfl
  · split
    · split <;> rfl
    · rfl

theorem Cluster.giveWay_beside : (c.updDrl key (Drl.giveWay ts)).besideMagnitudes = c.besideMagnitudes := by
  unfold Cluster.updDrl
  split
  · rfl
  · split
    · split <;> rfl
    · rfl

end

/-- The task's clusters give way to the magnitudes that a carry returns. -/
theorem collStep_giveWay (s : State) (l : Nat) (key : TaskKey) (ts : List (Tensor × Nat)) (ls : List Nat) :
    CollStep s (ls.foldl (fun (t : State) k => t.updCluster k (fun q => q.updDrl key (Drl.giveWay ts))) s) l := by
  induction ls generalizing s with
  | nil => exact (groupQuiet_refl s l).collStep
  | cons k ks ih =>
    refine CollStep.trans ⟨?_, s.updCluster_length k _, fun i _ => ?_, rfl, rfl⟩ (ih (s.updCluster k _))
    · exact s.updCluster_part (fun c => c.drl.issuing) (fun c => c.giveWay_issuing key ts) k l
    · exact s.updCluster_part Cluster.besideMagnitudes (fun c => c.giveWay_beside key ts) k i

theorem collStep_landCarry (s : State) (x : Site) (r : RedDesc) (v : Carry) (hl : x.l < s.clusters.length) :
    CollStep s (s.landCarry x r v) x.l := by
  have hway := collStep_giveWay s x.l x.key (s.returned x r v) (s.holders x.key)
  refine hway.trans ⟨?_, State.updCluster_length _ _ _, fun k hk => ?_, rfl, rfl⟩
  · rw [State.landCarry, State.cluster_updCluster_self _ _ _ (hway.size ▸ hl)]
    rfl
  · rw [State.landCarry, sameClusters_updCluster _ x.l _ k hk]

theorem State.landCarry_keeps (s : State) (x : Site) (r : RedDesc) (v : Carry) :
    (s.landCarry x r v).mem = s.mem ∧ (s.landCarry x r v).fab = s.fab := by
  simp [State.landCarry]

/-- A collective that is finished has stored its result. -/
structure CollDone (s t : State) (x : Site) (ws : List (Nat × List Byte)) : Prop extends CollStep s t x.l where
  done : WorkIsDone t x
  mem : t.mem = Cells.writeAll s.mem ws
  fab : t.fab = s.fab

theorem collDone_finishColl (s : State) (x : Site) (r : RedDesc) (a d : Tensor) (c : Coll) (hl : x.l < s.clusters.length) :
    CollDone s (s.finishColl x r a d c) x (c.outputs r a d) := by
  rw [State.finishColl_eq]
  obtain ⟨hclusters, hhub, hjobs, hfab, hmem⟩ := s.putResult_clusters a d (c.outputs r a d)
  generalize s.putResult a d (c.outputs r a d) = u at hclusters hhub hjobs hfab hmem
  have hput : CollStep s u x.l := ⟨by rw [State.cluster_of_clusters hclusters], by rw [hclusters],
    fun k _ => by rw [State.cluster_of_clusters hclusters], hhub, hjobs⟩
  have hlu : x.l < u.clusters.length := hput.size ▸ hl
  split
  · rename_i v _
    obtain ⟨hlandMem, hlandFab⟩ := u.landCarry_keeps x r v
    have hland := collStep_landCarry u x r v hlu
    have hll := hland.size ▸ hlu
    exact ⟨(hput.trans hland).trans (collStep_setFlight _ hll _ _), workIsDone_workDone hll {}, hlandMem.trans hmem, hlandFab.trans hfab⟩
  · exact ⟨hput.trans (collStep_setFlight _ hlu _ _), workIsDone_workDone hlu {}, hmem, hfab⟩

/-! ## A collective goes on (R419) -/

section
variable {x : Site} {r : RedDesc} {a d : Tensor} (hr : x.job.reds[x.e.aux]? = some r) (ha : x.opa = some a) (hd : x.opd = some d)
include hr ha hd

theorem State.settleColl_waits (s : State) {c : Coll} (hc : c.complete = false) : s.settleColl x c = s.setWork x (.coll c) := by
  unfold State.settleColl
  rw [hr, ha, hd]
  exact if_neg (by simp [hc])

theorem State.settleColl_ends {s : State} {c : Coll} (hc : c.complete = true) (hw : writesWait s.pages (d.accesses true) = false) :
    s.settleColl x c = s.finishColl x r a d c := by
  unfold State.settleColl
  rw [hr, ha, hd]
  exact if_pos (by simp [hc, hw])

end

/-! ## A collective starts (R414 to R419) -/

/-- No message of an occurrence is kept on the cluster. -/
def State.NoneEarly (s : State) (l desc occ : Nat) : Prop := ∀ m ∈ (s.cluster l).drl.early, m.body.occ ≠ some (desc, occ)

theorem State.takeEarly_of_none {s : State} {l desc occ : Nat} (h : s.NoneEarly l desc occ) : s.takeEarly l desc occ = (s, []) := by
  have hnone : (s.cluster l).drl.early.filter (fun m => m.body.occ = some (desc, occ)) = [] :=
    List.filter_eq_nil_iff.2 fun m hm => by simp [h m hm]
  have hall : (s.cluster l).drl.early.filter (fun m => m.body.occ ≠ some (desc, occ)) = (s.cluster l).drl.early :=
    List.filter_eq_self.2 fun m hm => by simp [h m hm]
  have hid : s.updCluster l id = s := by rw [State.updCluster, List.modify_id]
  have hsame : s.updDrl l (fun d => { d with early := d.early.filter (fun m => m.body.occ ≠ some (desc, occ)) }) = s :=
    (s.updDrl_congr l (g := id) (by simp only [hall, id])).trans hid
  unfold State.takeEarly
  simp only [hnone, hsame]

/-- The collective of a COLLECTIVE, as its start makes it, and what it sends. -/
def State.startedColl (s : State) (x : Site) (r : RedDesc) (a d : Tensor) : Coll × List (Nat × Body) :=
  (s.collOf x r a d).start (s.carryOf x r) (if r.op = 5 then gatherBlock s.mem a else [])

/-- The module with the start of a collective counted and told. -/
def State.tellColl (s : State) (x : Site) (r : RedDesc) (a d : Tensor) : State :=
  ((s.updDrl x.l (fun q => q.bumpOcc x.e.aux)).count x.l [(ctCollectives, 1)]).collSend x (s.startedColl x r a d).1 (s.startedColl x r a d).2

theorem groupQuiet_tellColl (s : State) (x : Site) (r : RedDesc) (a d : Tensor) :
    GroupQuiet (s.updDrl x.l (fun q => q.bumpOcc x.e.aux)) (s.tellColl x r a d) x.l :=
  (groupQuiet_count _ x.l _).trans (groupQuiet_collSend _ x _ _)

/-- A collective whose start finds no message kept for it is what its first round makes of it. -/
theorem State.startColl_of_noneEarly {s : State} {x : Site} {r : RedDesc} {a d : Tensor} (hl : x.l < s.clusters.length)
    (h : s.NoneEarly x.l x.e.aux ((s.cluster x.l).drl.occ x.e.aux))
    (hstep : CollStep (s.updDrl x.l (fun q => q.bumpOcc x.e.aux)) ((s.tellColl x r a d).settleColl x (s.startedColl x r a d).1) x.l) :
    s.startColl x r a d = (s.tellColl x r a d).settleColl x (s.startedColl x r a d).1 := by
  have hown := hstep.own
  rw [State.updDrl_drl _ _ _ hl] at hown
  have hearly : (((s.tellColl x r a d).settleColl x (s.startedColl x r a d).1).cluster x.l).drl.early = (s.cluster x.l).drl.early :=
    (congrArg Drl.early hown :)
  have heq : s.startColl x r a d =
      let e := ((s.tellColl x r a d).settleColl x (s.startedColl x r a d).1).takeEarly x.l x.e.aux ((s.cluster x.l).drl.occ x.e.aux)
      e.2.foldl (fun (t : State) m => (t.stepColl x.l x.e.aux ((s.cluster x.l).drl.occ x.e.aux) m.body).getD t) e.1 := rfl
  rw [heq, State.takeEarly_of_none (fun m hm => h m (hearly ▸ hm))]
  rfl

section
variable (s : State) (x : Site) (ev : Ev) (as : List Access)

theorem State.drlOf_counted (k : TaskKey) (l : Nat) : (s.counted x ev as).drlOf k l = s.drlOf k l := by
  have honly := s.onlyCounted_counted x ev as
  have hdrl := s.counted_part (·.drl) (fun _ _ => rfl) x ev as l
  have hunder := s.counted_part (·.under) (fun _ _ => rfl) x ev as l
  have hsaved : ((s.counted x ev as).hub.task k).bind (fun t => t.saved.find? (fun v => v.cluster = l)) =
      (s.hub.task k).bind (fun t => t.saved.find? (fun v => v.cluster = l)) := by rw [honly]
  have hslot : (s.counted x ev as).slotWords' k l = s.slotWords' k l := by
    rw [honly]
    rfl
  simp only [State.drlOf, hdrl, hunder, hsaved, hslot]

theorem State.startedColl_counted (r : RedDesc) (a d : Tensor) : (s.counted x ev as).startedColl x r a d = s.startedColl x r a d := by
  have hquiet := groupQuiet_counted s x ev as
  have hdrl := hquiet.drl
  have hmem := hquiet.mem
  have hme : (s.counted x ev as).me = s.me := congrArg Hub.module hquiet.hub
  have hnf : ((s.counted x ev as).cluster x.l).chn.stepNf = (s.cluster x.l).chn.stepNf :=
    s.counted_part (·.chn.stepNf) (fun _ _ => rfl) x ev as x.l
  have hholders (k : TaskKey) : (s.counted x ev as).holders k = s.holders k :=
    List.filter_congr fun l _ => s.counted_part (·.holds k) (fun _ _ => rfl) x ev as l
  have hamax (k : TaskKey) (srec : Nat) : (s.counted x ev as).amaxOf k srec = s.amaxOf k srec := by
    simp only [State.amaxOf, hholders, State.drlOf_counted]
  simp only [State.startedColl, State.collOf, State.carryOf, hdrl, hmem, hme, hnf, hamax]

end

/-- From `s` to `t` a collective of an entry has started: its occurrence is counted. -/
structure CollStarted (s t : State) (x : Site) : Prop where
  occ : (t.cluster x.l).drl.occ x.e.aux = ((s.cluster x.l).drl.occ x.e.aux + 1) % 65536
  ctrs : (t.cluster x.l).drl.ctrs = (s.cluster x.l).drl.ctrs
  head : (t.cluster x.l).drl.head = (s.cluster x.l).drl.head
  others : ∀ k, k ≠ x.l →
    t.cluster k = { s.cluster k with drl := { (s.cluster k).drl with amaxs := (t.cluster k).drl.amaxs }, under := (t.cluster k).under }
  hub : t.hub = s.hub
  jobs : t.jobs = s.jobs

theorem CollStep.started {s t : State} {x : Site} (hl : x.l < s.clusters.length)
    (h : CollStep (s.updDrl x.l (fun q => q.bumpOcc x.e.aux)) t x.l) : CollStarted s t x := by
  have hown := h.own
  rw [State.updDrl_drl _ _ _ hl] at hown
  have hoccs : (t.cluster x.l).drl.occs = ((s.cluster x.l).drl.bumpOcc x.e.aux).occs := (congrArg Drl.occs hown :)
  refine ⟨?_, (congrArg Drl.ctrs hown :), (congrArg Drl.head hown :), fun k hk => Cluster.eq_of_besideMagnitudes ?_, h.hub, h.jobs⟩
  · rw [Drl.occ, hoccs]
    exact Drl.bumpOcc_occ _ _
  · exact (h.others k hk).trans (congrArg Cluster.besideMagnitudes (sameClusters_updCluster s x.l _ k hk))

theorem CollStarted.of_quiet {s t u : State} {x : Site} (h : GroupQuiet s t x.l) (h' : CollStarted t u x) : CollStarted s u x where
  occ := by rw [h'.occ, h.drl]
  ctrs := by rw [h'.ctrs, h.drl]
  head := by rw [h'.head, h.drl]
  others k hk := by rw [← h.others k hk]; exact h'.others k hk
  hub := h'.hub.trans h.hub
  jobs := h'.jobs.trans h.jobs

section
variable {s : State} {x : Site} {r : RedDesc} {a d : Tensor} (hr : x.job.reds[x.e.aux]? = some r) (ha : x.opa = some a) (hd : x.opd = some d)
  (hl : x.l < s.clusters.length) (hearly : s.NoneEarly x.l x.e.aux ((s.cluster x.l).drl.occ x.e.aux))
include hl

theorem State.tellColl_size : x.l < (s.tellColl x r a d).clusters.length := by
  rw [(groupQuiet_tellColl s x r a d).size, State.updDrl_length]
  exact hl

include hr ha hd hearly

/-- A collective that lacks something waits as what its start has made of it. -/
theorem State.startColl_waits (hc : (s.startedColl x r a d).1.complete = false) :
    s.startColl x r a d = (s.tellColl x r a d).setWork x (.coll (s.startedColl x r a d).1) ∧
    CollStarted s (s.startColl x r a d) x := by
  have hsettle := State.settleColl_waits hr ha hd (s.tellColl x r a d) hc
  have hstep := (groupQuiet_tellColl s x r a d).collStep.trans (collStep_setFlight _ (State.tellColl_size hl) x.f.idx
    (fun f => { f with work := .coll (s.startedColl x r a d).1 }))
  have hstart : s.startColl x r a d = _ := (State.startColl_of_noneEarly hl hearly (hsettle ▸ hstep)).trans hsettle
  exact ⟨hstart, hstart ▸ hstep.started hl⟩

/-- A collective that has everything at its start stores its result. -/
theorem State.startColl_ends (hc : (s.startedColl x r a d).1.complete = true) (hw : writesWait s.pages (d.accesses true) = false) :
    CollDone (s.tellColl x r a d) (s.startColl x r a d) x ((s.startedColl x r a d).1.outputs r a d) ∧
    CollStarted s (s.startColl x r a d) x := by
  have htell := groupQuiet_tellColl s x r a d
  have hsettle := State.settleColl_ends hr ha hd hc ((htell.writesWait _).trans hw)
  have hdone := collDone_finishColl (s.tellColl x r a d) x r a d (s.startedColl x r a d).1 (State.tellColl_size hl)
  have hstep := htell.collStep.trans hdone.toCollStep
  have hstart : s.startColl x r a d = _ := (State.startColl_of_noneEarly hl hearly (hsettle ▸ hstep)).trans hsettle
  exact ⟨hstart ▸ hdone, hstart ▸ hstep.started hl⟩

end

/-! ## A group of one -/

theorem isSome_assoc_of_mem {α β : Type} [BEq α] [LawfulBEq α] {l : List (α × β)} {k : α} (h : k ∈ l.map Prod.fst) :
    (assoc l k).isSome = true := by
  induction l with
  | nil => cases h
  | cons p l ih =>
    rw [assoc, List.lookup_cons]
    split
    · rfl
    · refine ih ((List.mem_cons.1 h).resolve_left fun hk => ?_)
      simp_all

/-- A collective of one member: its leaves are its live chunks, of which there is no other than the first. -/
structure Coll.Alone (c : Coll) : Prop where
  one : c.n = 1
  first : c.rank = 0
  leaves : c.op ≠ 5 → c.leaves.map Prod.fst = c.live
  live : ∀ k ∈ c.live, k = 0

/-- A collective with its own leaves, block and carry. -/
def Coll.begun (c : Coll) (carry : Carry) (block : List Byte) : Coll :=
  { c with
    nodes := c.leaves.map (fun p => ((p.1, c.rank, 0), p.2))
    results := if c.op = 5 then [(c.rank, block)] else []
    carries := if c.needCarry then [((c.rank, 0), carry)] else [] }

/-- A collective of one member with its result. -/
def Coll.settledAlone (c : Coll) (carry : Carry) (block : List Byte) : Coll :=
  { c.begun carry block with
    results := (c.begun carry block).results ++ c.leaves.map (fun p => (p.1, p.2.final.toBytes))
    carryDone := if c.needCarry then some carry else none }

theorem Coll.partsOf_of_root {c : Coll} (h : c.top = 0) (key : Nat × Nat × Nat) (v : CVals) : c.partsOf key v = [] :=
  if_pos (by simp [h])

theorem Coll.carryOf_of_root {c : Coll} (h : c.top = 0) (key : Nat × Nat) (v : Carry) : c.carryOf key v = [] :=
  if_pos (by simp [h])

section
variable {c : Coll} (h : c.Alone) (carry : Carry) (block : List Byte)
include h

/-- It is its own root, and has nobody to send to. -/
theorem Coll.Alone.start_eq : c.start carry block = (c.settledAlone carry block, []) := by
  have htop : (c.begun carry block).top = 0 := by
    have hn : (c.begun carry block).n = 1 := h.one
    rw [Coll.top, hn]
    rfl
  have hblocks : (List.range c.n).filter (· ≠ c.rank) = [] := by
    rw [h.one, h.first]
    rfl
  have hparts : (c.begun carry block).nodes.flatMap (fun k => (c.begun carry block).partsOf k.1 k.2) = [] :=
    List.flatMap_eq_nil_iff.2 fun k _ => Coll.partsOf_of_root htop k.1 k.2
  have heq : c.start carry block =
      let own : List (Nat × Body) :=
        if c.op = 5 then ((List.range c.n).filter (· ≠ c.rank)).map (fun r => (r, .result c.desc c.occ c.rank c.rank ⟨0, block⟩))
        else (c.begun carry block).nodes.flatMap (fun k => (c.begun carry block).partsOf k.1 k.2)
      let ownC := if c.needCarry then (c.begun carry block).carryOf (c.rank, 0) carry else []
      let r := if c.n = 1 then (c.settledAlone carry block, []) else (c.begun carry block).round
      (r.1, own ++ ownC ++ r.2) := rfl
  rw [heq]
  dsimp only
  rw [if_pos h.one, hblocks, hparts, Coll.carryOf_of_root htop, List.map_nil, ite_self, ite_self]
  rfl

theorem Coll.Alone.mem_results (hop : c.op ≠ 5) {q : Nat × List Byte} (hq : q ∈ (c.settledAlone carry block).results) : q.1 = 0 := by
  have hresults : (c.settledAlone carry block).results =
    (if c.op = 5 then [(c.rank, block)] else []) ++ c.leaves.map (fun p => (p.1, p.2.final.toBytes)) := rfl
  rw [hresults, if_neg hop, List.nil_append] at hq
  obtain ⟨p, hp, rfl⟩ := List.mem_map.1 hq
  exact h.live _ (h.leaves hop ▸ List.mem_map_of_mem hp)

/-- It has everything. -/
theorem Coll.Alone.complete : (c.settledAlone carry block).complete = true := by
  have hcarry : (!c.needCarry || (if c.needCarry then some carry else none).isSome) = true := by cases c.needCarry <;> rfl
  have hresults : (c.settledAlone carry block).results =
    (if c.op = 5 then [(c.rank, block)] else []) ++ c.leaves.map (fun p => (p.1, p.2.final.toBytes)) := rfl
  have heq : (c.settledAlone carry block).complete =
    ((if c.op = 5 then (List.range c.n).all (fun r => (assoc (c.settledAlone carry block).results r).isSome)
      else if c.op = 6 then !(c.live.contains c.rank) || (assoc (c.settledAlone carry block).results c.rank).isSome
      else c.live.all (fun k => (assoc (c.settledAlone carry block).results k).isSome))
    && (!c.needCarry || (if c.needCarry then some carry else none).isSome)) := rfl
  rw [heq, hcarry, Bool.and_true]
  by_cases hop : c.op = 5
  · rw [if_pos hop, h.one, hresults, if_pos hop, h.first]
    rfl
  · rw [if_neg hop, hresults, if_neg hop]
    have hlive (k : Nat) (hk : k ∈ c.live) : (assoc ([] ++ c.leaves.map (fun p => (p.1, p.2.final.toBytes))) k).isSome = true := by
      refine isSome_assoc_of_mem ?_
      rw [List.nil_append, List.map_map]
      exact (h.leaves hop).symm ▸ hk
    split
    · cases hcontains : c.live.contains c.rank with
      | false => rfl
      | true => exact hlive _ (List.contains_iff_mem.1 hcontains)
    · exact List.all_eq_true.2 hlive

theorem Coll.Alone.outputs (r : RedDesc) (a d : Tensor) (hop : c.op = r.op) : (c.settledAlone carry block).outputs r a d =
    (c.settledAlone carry block).results.flatMap (fun q => if r.op = 5 then gatherWrites r a d q.1 q.2 else chunkWrites r a d c.n q.1 q.2) := by
  refine List.flatMap_congr fun q hq => ?_
  have hop' : (c.settledAlone carry block).op = r.op := hop
  rw [hop']
  split
  · rfl
  · rename_i hne
    have hroot : q.1 = (c.settledAlone carry block).rank := (h.mem_results carry block (hop ▸ hne) hq).trans h.first.symm
    rw [if_pos hroot, ite_self]
    rfl

end

theorem State.collOf_alone {s : State} {x : Site} (h : x.job.members s.me x.e = [s.me]) (r : RedDesc) (a d : Tensor) : (s.collOf x r a d).Alone where
  one := by rw [Coll.n, State.collOf, h]; rfl
  first := by rw [State.collOf, h]; simp
  leaves hop := by
    have hne : r.op ≠ 5 := hop
    simp only [State.collOf, if_neg hne, List.map_map]
    exact List.map_id' _
  live k hk := by
    simp only [State.collOf, h, List.length_singleton] at hk
    exact Nat.lt_one_iff.1 (List.mem_range.1 (List.mem_of_mem_filter hk))

/-- A collective of a group of one has everything at its start, and sends nothing. -/
theorem State.startedColl_alone {s : State} {x : Site} (h : x.job.members s.me x.e = [s.me]) (r : RedDesc) (a d : Tensor) :
    (s.startedColl x r a d).2 = [] ∧ (s.startedColl x r a d).1.complete = true ∧
    (s.startedColl x r a d).1.outputs r a d = (s.startedColl x r a d).1.results.flatMap (fun q =>
      if r.op = 5 then gatherWrites r a d q.1 q.2 else chunkWrites r a d (s.collOf x r a d).n q.1 q.2) := by
  have halone := State.collOf_alone h r a d
  have heq : s.startedColl x r a d = _ := halone.start_eq (s.carryOf x r) (if r.op = 5 then gatherBlock s.mem a else [])
  rw [heq]
  exact ⟨rfl, halone.complete _ _, halone.outputs _ _ r a d rfl⟩

theorem State.tellColl_fab {s : State} {x : Site} {r : RedDesc} {a d : Tensor} (h : (s.startedColl x r a d).2 = []) :
    (s.tellColl x r a d).fab = s.fab := by
  rw [State.tellColl, h]
  rfl

/-! ## COLLECTIVE, the instruction -/

theorem State.OnlyCounted.fab {s t : State} (h : s.OnlyCounted t) : t.fab = s.fab := by rw [h]

theorem writesWait_opd {p : Pages} {rs ws : List Tensor} {d : Tensor} (h : writesWait p (tensorAccesses rs (d :: ws)) = false) :
    writesWait p (d.accesses true) = false := by
  refine Bool.eq_false_iff.2 fun hd => Bool.eq_false_iff.1 h ?_
  obtain ⟨a, ha, hmoving⟩ := List.any_eq_true.1 hd
  exact List.any_eq_true.2 ⟨a, List.mem_append_right _ (List.mem_append_left _ ha), hmoving⟩

section
variable {s : State} {l idx : Nat} {ev : Ev} {x : Site} {r : RedDesc} {a d : Tensor} (hl : l < 128) (hlen : s.clusters.length = 128)
  (hx : s.todo l idx .collective = some x) (hw : x.f.work = .todo) (hr : x.job.reds[x.e.aux]? = some r) (ha : x.opa = some a)
  (hd : x.opd = some d) (hclear : s.clear x ev (tensorAccesses (a :: (x.ten r.amaxList).toList) (d :: (x.ten r.stage).toList)))
include hl hx hw hr ha hd hclear

theorem exec_collective_of_clear : exec (.collective l idx ev) s =
    .next ((s.counted x ev (tensorAccesses (a :: (x.ten r.amaxList).toList) (d :: (x.ten r.stage).toList))).startColl x r a d) := by
  obtain ⟨hsite, -, -, hop⟩ := State.todo_spec hx
  refine (onCluster_of_lt hl _).trans (congrArg _ ?_)
  rw [hsite]
  dsimp only
  rw [if_neg (not_not_intro hop), hw]
  dsimp only
  rw [State.runColl, hr, ha, hd]
  dsimp only
  exact State.guard_of_clear hclear _

variable (hearly : s.NoneEarly l x.e.aux ((s.cluster l).drl.occ x.e.aux))
include hlen hearly

/-- A COLLECTIVE that starts and lacks something is in progress as its start has made it. -/
theorem collective_waits (hc : (s.startedColl x r a d).1.complete = false) : Answers (.collective l idx ev) s (fun t => t.mem = s.mem ∧
    CollStarted s t x ∧ SameClusters s t l ∧ ∀ f ∈ (t.cluster l).drl.flights, f.idx = x.f.idx → f.work = .coll (s.startedColl x r a d).1) := by
  refine ⟨_, exec_collective_of_clear hl hx hw hr ha hd hclear, ?_⟩
  obtain ⟨-, rfl, -, -⟩ := State.todo_spec hx
  have hquiet := groupQuiet_counted s x ev (tensorAccesses (a :: (x.ten r.amaxList).toList) (d :: (x.ten r.stage).toList))
  have hcolls := s.startedColl_counted x ev (tensorAccesses (a :: (x.ten r.amaxList).toList) (d :: (x.ten r.stage).toList)) r a d
  generalize s.counted x ev _ = u at hquiet hcolls
  have hlu : x.l < u.clusters.length := hquiet.size.symm ▸ hlen.symm ▸ hl
  have htell := groupQuiet_tellColl u x r a d
  obtain ⟨hstart, hstarted⟩ := State.startColl_waits hr ha hd hlu (by rw [State.NoneEarly, hquiet.drl]; exact hearly) (hcolls.symm ▸ hc)
  have hothers : SameClusters s (u.startColl x r a d) x.l := by
    rw [hstart]
    exact hquiet.others.trans ((sameClusters_updCluster u x.l _).trans (htell.others.trans (sameClusters_updCluster _ x.l _)))
  refine ⟨?_, hstarted.of_quiet hquiet, hothers, fun f hf hidx => ?_⟩
  · rw [hstart]
    exact htell.mem.trans hquiet.mem
  · rw [hstart] at hf
    rw [← hcolls]
    exact State.setWork_work (State.tellColl_size hlu) hf hidx

/-- A COLLECTIVE of a group of one stores its own result and is done. -/
theorem collective_alone_done (hme : x.job.members s.me x.e = [s.me]) :
    let q := (s.startedColl x r a d).1
    let ws := q.results.flatMap (fun k => if r.op = 5 then gatherWrites r a d k.1 k.2 else chunkWrites r a d (s.collOf x r a d).n k.1 k.2)
    Answers (.collective l idx ev) s (fun t => WorkIsDone t x ∧ t.mem = Cells.writeAll s.mem ws ∧ SameBytes s t (rangesOf ws) ∧
      CollStarted s t x ∧ t.fab = s.fab) := by
  intro q ws
  refine ⟨_, exec_collective_of_clear hl hx hw hr ha hd hclear, ?_⟩
  obtain ⟨-, rfl, -, -⟩ := State.todo_spec hx
  obtain ⟨hsilent, hcomplete, houtputs⟩ := State.startedColl_alone hme r a d
  obtain ⟨-, hwait, -⟩ := hclear
  have hquiet := groupQuiet_counted s x ev (tensorAccesses (a :: (x.ten r.amaxList).toList) (d :: (x.ten r.stage).toList))
  have hfab := (s.onlyCounted_counted x ev (tensorAccesses (a :: (x.ten r.amaxList).toList) (d :: (x.ten r.stage).toList))).fab
  have hcolls := s.startedColl_counted x ev (tensorAccesses (a :: (x.ten r.amaxList).toList) (d :: (x.ten r.stage).toList)) r a d
  generalize s.counted x ev _ = u at hquiet hfab hcolls
  have hlu : x.l < u.clusters.length := hquiet.size.symm ▸ hlen.symm ▸ hl
  have hopd : writesWait u.pages (d.accesses true) = false := (hquiet.writesWait _).trans (writesWait_opd hwait)
  rw [← hcolls] at hsilent hcomplete houtputs
  obtain ⟨hdone, hstarted⟩ := State.startColl_ends hr ha hd hlu (by rw [State.NoneEarly, hquiet.drl]; exact hearly) hcomplete hopd
  rw [houtputs, hcolls] at hdone
  have hmem := hdone.mem.trans (congrArg (Cells.writeAll · ws) ((groupQuiet_tellColl u x r a d).mem.trans hquiet.mem))
  exact ⟨hdone.done, hmem, sameBytes_writeAll hmem, hstarted.of_quiet hquiet, hdone.fab.trans ((State.tellColl_fab hsilent).trans hfab)⟩

end

/-! ## PART, RESULT and CARRY (R415, R418, R419) -/

/-- What a collective keeps while messages come: its operation, its rank and its members. -/
def Coll.place (c : Coll) : Nat × Nat × List Nat := (c.op, c.rank, c.members)

section
variable (c : Coll)

theorem Coll.tryNode_place (chunk level lo : Nat) : (c.tryNode chunk level lo).place = c.place := by
  unfold Coll.tryNode
  dsimp only
  repeat' split
  all_goals rfl

theorem Coll.tryCarry_place (level lo : Nat) : (c.tryCarry level lo).place = c.place := by
  unfold Coll.tryCarry
  dsimp only
  repeat' split
  all_goals rfl

theorem Coll.advance_place : c.advance.place = c.place :=
  foldl_keeps Coll.place _ (fun c _ => foldl_keeps Coll.place _ (fun c _ => foldl_keeps Coll.place _ (fun c _ => c.tryNode_place _ _ _) _ c) _ c) _ c

theorem Coll.advanceCarry_place : c.advanceCarry.place = c.place := by
  unfold Coll.advanceCarry
  split
  · rfl
  · exact foldl_keeps Coll.place _ (fun c _ => foldl_keeps Coll.place _ (fun c _ => c.tryCarry_place _ _) _ c) _ c

theorem Coll.round_place : c.round.1.place = c.place := by
  have hadvanced : c.round.1.place = c.advance.advanceCarry.place := rfl
  rw [hadvanced, Coll.advanceCarry_place, Coll.advance_place]

theorem Coll.join_place (key : Bool × Nat × Nat × Nat) (need : Nat) (p : Piece) : (c.join key need p).1.place = c.place := by
  unfold Coll.join
  dsimp only
  split <;> rfl

theorem Coll.takePart_place (chunk lo level : Nat) (p : Piece) : (c.takePart chunk lo level p).1.place = c.place := by
  have hjoin := c.join_place (false, chunk, lo, level) (c.partBytes chunk) p
  unfold Coll.takePart
  split
  · rfl
  · split
    · rename_i heq
      rwa [heq] at hjoin
    · rename_i heq
      rw [heq] at hjoin
      exact (Coll.round_place _).trans hjoin

theorem Coll.takeResult_place (chunk : Nat) (p : Piece) : (c.takeResult chunk p).place = c.place := by
  have hjoin := c.join_place (true, chunk, 0, 0) (c.resultBytes chunk) p
  unfold Coll.takeResult
  split
  · rfl
  · split
    · rename_i heq
      rwa [heq] at hjoin
    · rename_i heq
      rwa [heq] at hjoin

theorem Coll.takeCarry_place (lo level : Nat) (v : Carry) (final : Bool) : (c.takeCarry lo level v final).1.place = c.place := by
  unfold Coll.takeCarry
  split
  · rfl
  · split
    · rfl
    · exact Coll.round_place _

theorem Coll.take_place (b : Body) : (c.take b).1.place = c.place := by
  unfold Coll.take
  split
  · exact c.takePart_place _ _ _ _
  · exact c.takeResult_place _ _
  · exact c.takeCarry_place _ _ _ _
  · rfl

/-- What a collective stores once it has heard a message, by its own operation, rank and members. -/
theorem Coll.outputs_take (b : Body) (r : RedDesc) (a d : Tensor) : (c.take b).1.outputs r a d = (c.take b).1.results.flatMap (fun q =>
    if c.op = 5 then gatherWrites r a d q.1 q.2
    else if c.op = 6 then (if q.1 = c.rank then chunkWrites r a d c.n q.1 q.2 else []) else chunkWrites r a d c.n q.1 q.2) := by
  have hplace := c.take_place b
  have hop : (c.take b).1.op = c.op := (congrArg Prod.fst hplace :)
  have hrank : (c.take b).1.rank = c.rank := (congrArg (·.2.1) hplace :)
  have hn : (c.take b).1.n = c.n := (congrArg (·.2.2.length) hplace :)
  rw [Coll.outputs, hop, hrank, hn]

end

/-- The messages of a collective of descriptor `desc` and occurrence `occ`. -/
inductive CollMsg (rx : Rx) (desc occ : Nat) : Instr → Body → Prop
  | part (chunk lo level : Nat) (vals : Piece) : CollMsg rx desc occ (.part rx desc occ chunk lo level vals) (.part desc occ chunk lo level vals)
  | result (chunk rank : Nat) (vals : Piece) : CollMsg rx desc occ (.result rx desc occ chunk rank vals) (.result desc occ chunk rank vals)
  | carry (lo level : Nat) (nf : Bool) (amax : List Nat) (final : Bool) :
    CollMsg rx desc occ (.carry rx desc occ lo level nf amax final) (.carry desc occ lo level nf amax final)

section
variable {rx : Rx} {desc occ : Nat} {m : Instr} {b : Body} (hm : CollMsg rx desc occ m b)
include hm

theorem CollMsg.exec_eq (s : State) :
    exec m s = s.arrive rx b (fun s => s.groupTake rx .collective desc occ b (fun s l => s.stepColl l desc occ b)) := by
  cases hm <;> rfl

theorem CollMsg.not_write (a : Nat) (bs : List Byte) : b ≠ .write a bs := by
  cases hm <;> exact nofun

end

/-- A message of an occurrence that its cluster has not issued is kept there. -/
theorem State.groupTake_of_left {s : State} {rx : Rx} {op : Opcode} {desc occ l : Nat} {b : Body} {take : State → Nat → Option State}
    {k : TaskKey} (hb : s.barred rx.ctx = false) (hhome : s.groupHome rx op desc = some (k, l)) (hk : (s.cluster l).drl.holder = some k)
    (htake : take (s.count l [(ctMsgRecv, 1), (ctBytesRecv, b.payBytes)]) l = none)
    (hocc : (occ + 65536 - (s.cluster l).drl.occ desc % 65536) % 65536 < 32768) : s.groupTake rx op desc occ b take =
      (s.count l [(ctMsgRecv, 1), (ctBytesRecv, b.payBytes)]).updDrl l (fun d => { d with early := d.early ++ [msgOf rx b] }) := by
  have hdrl := s.count_drl l [(ctMsgRecv, 1), (ctBytesRecv, b.payBytes)] l
  have hholder := (congrArg Drl.holder hdrl).trans hk
  unfold State.groupTake
  rw [hb, hhome]
  dsimp only
  rw [if_neg Bool.false_ne_true, if_pos hholder, htake]
  dsimp only
  rw [State.keepEarly, State.drlOf_holder hholder]
  dsimp only
  rw [if_pos (hdrl.symm ▸ hocc), State.setDrlOf_holder hholder]
  exact State.updDrl_congr _ l rfl

theorem State.collAt_l {s : State} {l desc occ : Nat} {x : Site} {c : Coll} (h : s.collAt l desc occ = some (x, c)) : x.l = l := by
  obtain ⟨f, -, hf⟩ := List.exists_of_findSome?_eq_some h
  split at hf
  · split at hf
    · obtain ⟨y, hy, heq⟩ := Option.map_eq_some_iff.1 hf
      cases heq
      exact (State.site_place hy).1
    · cases hf
  · cases hf

theorem State.collAt_congr {s t : State} {l : Nat} (hdrl : (t.cluster l).drl = (s.cluster l).drl) (hjobs : t.jobs = s.jobs) (desc occ : Nat) :
    t.collAt l desc occ = s.collAt l desc occ := by
  simp only [State.collAt, hdrl, State.site_congr hdrl hjobs]

theorem State.stagePart_mem_congr {s t : State} (h : t.mem = s.mem) (x : Site) (c : Coll) (b : Body) :
    (t.stagePart x c b).mem = (s.stagePart x c b).mem := by
  unfold State.stagePart
  split
  · rw [State.store_mem, h, State.store_mem]
  · exact h

/-- The module with a message of a collective counted, its values staged, and what it brings on sent. -/
def State.hearColl (s : State) (x : Site) (c : Coll) (b : Body) : State := (s.stagePart x c b).collSend x (c.take b).1 (c.take b).2

theorem State.hearColl_spec (s : State) (x : Site) (c : Coll) (b : Body) : CollStep s (s.hearColl x c b) x.l ∧
    SameClusters s (s.hearColl x c b) x.l ∧ (s.hearColl x c b).mem = (s.stagePart x c b).mem ∧ (s.hearColl x c b).pages = s.pages := by
  have hclusters : (s.stagePart x c b).clusters = s.clusters := by simp
  have hstaged : CollStep s (s.stagePart x c b) x.l := ⟨by rw [State.cluster_of_clusters hclusters], by rw [hclusters],
    fun k _ => by rw [State.cluster_of_clusters hclusters], by simp, by simp⟩
  have hsent := groupQuiet_collSend (s.stagePart x c b) x (c.take b).1 (c.take b).2
  refine ⟨hstaged.trans hsent.collStep, fun k hk => ?_, hsent.mem, by simp [State.hearColl]⟩
  exact (hsent.others k hk).trans (State.cluster_of_clusters hclusters k)

theorem groupQuiet_groupReceived {s t : State} (h : OnlyFab s t) (l : Nat) (b : Body) :
    GroupQuiet s (t.count l [(ctMsgRecv, 1), (ctBytesRecv, b.payBytes)]) l :=
  (h.groupQuiet l).trans (groupQuiet_count t l _)

section
variable {s : State} {rx : Rx} {l desc occ : Nat} {m : Instr} {b : Body} {k : TaskKey} (h : s.hears rx = true) (hb : s.barred rx.ctx = false)
  (hm : CollMsg rx desc occ m b) (hhome : s.groupHome rx .collective desc = some (k, l)) (hk : (s.cluster l).drl.holder = some k)
  (hl : l < s.clusters.length)
include h hb hm hhome hk

/-- A message of a collective in progress reaches it. -/
theorem answers_of_collAt {x : Site} {c : Coll} (hat : s.collAt l desc occ = some (x, c)) {P : State → Prop}
    (hP : ∀ u t, GroupQuiet s u l → OnlyFab ((u.hearColl x c b).settleColl x (c.take b).1) t → P t) : Answers m s P := by
  refine answers_of_hears h (hm.exec_eq s) hm.not_write fun v t hv ht => ?_
  have hquiet := groupQuiet_groupReceived hv l b
  refine hP _ t hquiet ?_
  have hstep : (v.count l [(ctMsgRecv, 1), (ctBytesRecv, b.payBytes)]).stepColl l desc occ b = some
      (((v.count l [(ctMsgRecv, 1), (ctBytesRecv, b.payBytes)]).hearColl x c b).settleColl x (c.take b).1) := by
    rw [State.stepColl, State.collAt_congr hquiet.drl hquiet.jobs, hat]
    rfl
  rwa [State.groupTake_of_taken ((hv.barred _).trans hb) ((hv.groupHome ..).trans hhome) ((congrArg (·.drl.holder) (hv.cluster l)).trans hk)
    hstep] at ht

section
variable {x : Site} {c : Coll} {r : RedDesc} {a d : Tensor} (hat : s.collAt l desc occ = some (x, c)) (hr : x.job.reds[x.e.aux]? = some r)
  (ha : x.opa = some a) (hd : x.opd = some d)
include hl hat hr ha hd

/-- While it lacks something the collective waits with what it has heard. -/
theorem collective_goesOn (hc : (c.take b).1.complete = false) : Answers m s (fun t => t.mem = (s.stagePart x c b).mem ∧ SameClusters s t l ∧
    t.hub = s.hub ∧ t.jobs = s.jobs ∧ ∀ f ∈ (t.cluster l).drl.flights, f.idx = x.f.idx → f.work = .coll (c.take b).1) := by
  refine answers_of_collAt h hb hm hhome hk hat fun u t hu ht => ?_
  obtain rfl := State.collAt_l hat
  obtain ⟨hstep, hothers, hmem, -⟩ := u.hearColl_spec x c b
  rw [State.settleColl_waits hr ha hd _ hc] at ht
  refine ⟨?_, ?_, ?_, ?_, fun f hf hidx => ?_⟩
  · exact ht.mem.trans (hmem.trans (State.stagePart_mem_congr hu.mem x c b))
  · exact hu.others.trans (hothers.trans ((sameClusters_updCluster _ x.l _).trans fun k _ => ht.cluster k))
  · exact ht.hub.trans (hstep.hub.trans hu.hub)
  · exact ht.jobs.trans (hstep.jobs.trans hu.jobs)
  · rw [ht.cluster] at hf
    exact State.setWork_work (hstep.size.symm ▸ hu.size.symm ▸ hl) hf hidx

/-- With everything there the collective stores its result and is done. -/
theorem collective_ends (hc : (c.take b).1.complete = true) (hw : writesWait s.pages (d.accesses true) = false) : Answers m s (fun t =>
    WorkIsDone t x ∧ (∀ k, k ≠ l → t.cluster k =
      { s.cluster k with drl := { (s.cluster k).drl with amaxs := (t.cluster k).drl.amaxs }, under := (t.cluster k).under }) ∧
    t.hub = s.hub ∧ t.jobs = s.jobs ∧
    t.mem = Cells.writeAll (s.stagePart x c b).mem ((c.take b).1.results.flatMap (fun q => if c.op = 5 then gatherWrites r a d q.1 q.2
      else if c.op = 6 then (if q.1 = c.rank then chunkWrites r a d c.n q.1 q.2 else []) else chunkWrites r a d c.n q.1 q.2))) := by
  refine answers_of_collAt h hb hm hhome hk hat fun u t hu ht => ?_
  obtain rfl := State.collAt_l hat
  obtain ⟨hstep, -, hmem, hpages⟩ := u.hearColl_spec x c b
  rw [State.settleColl_ends hr ha hd hc (hpages ▸ (hu.writesWait _).trans hw)] at ht
  have hdone := collDone_finishColl (u.hearColl x c b) x r a d (c.take b).1 (hstep.size.symm ▸ hu.size.symm ▸ hl)
  have hall := (hu.collStep.trans hstep).trans hdone.toCollStep
  refine ⟨?_, fun k hk => Cluster.eq_of_besideMagnitudes ?_, ht.hub.trans hall.hub, ht.jobs.trans hall.jobs, ?_⟩
  · rw [WorkIsDone, ht.cluster]
    exact hdone.done
  · rw [ht.cluster]
    exact hall.others k hk
  · rw [ht.mem, hdone.mem, hmem, State.stagePart_mem_congr hu.mem x c b, Coll.outputs_take]

end

include hl

/-- A message of an occurrence that the cluster has not issued is kept. -/
theorem collective_keeps (hat : s.collAt l desc occ = none) (hocc : (occ + 65536 - (s.cluster l).drl.occ desc % 65536) % 65536 < 32768) :
    Answers m s (fun t => (t.cluster l).drl = { (s.cluster l).drl with early := (s.cluster l).drl.early ++ [msgOf rx b] } ∧
      SameClusters s t l ∧ t.mem = s.mem ∧ t.hub = s.hub ∧ t.jobs = s.jobs) := by
  refine answers_of_hears h (hm.exec_eq s) hm.not_write fun v t hv ht => ?_
  have hu := groupQuiet_groupReceived hv l b
  have hstep : (v.count l [(ctMsgRecv, 1), (ctBytesRecv, b.payBytes)]).stepColl l desc occ b = none := by
    rw [State.stepColl, State.collAt_congr hu.drl hu.jobs, hat]
    rfl
  have hkept := State.groupTake_of_left (take := fun s l => s.stepColl l desc occ b) ((hv.barred _).trans hb) ((hv.groupHome ..).trans hhome)
    ((congrArg (·.drl.holder) (hv.cluster l)).trans hk) hstep (by rw [hv.cluster]; exact hocc)
  rw [hkept] at ht
  refine ⟨?_, hu.others.trans ((sameClusters_updCluster _ l _).trans fun k _ => ht.cluster k), ht.mem.trans hu.mem, ht.hub.trans hu.hub,
    ht.jobs.trans hu.jobs⟩
  rw [ht.cluster, State.updDrl_drl _ _ _ (hu.size.symm ▸ hl), hu.drl]

end

/-! ## The flight that the statement does not leave out -/

/-- An entry whose flight is marked for a retry neither starts nor goes on as a collective. -/
theorem exec_collective_of_retry {s : State} {l idx : Nat} {x : Site} {cells : List CellFault} {fails : List (Nat × List Nat × List Nat)}
    (hl : l < 128) (hx : s.site l idx = some x) (hw : x.f.work = .retry cells fails) (ev : Ev) : exec (.collective l idx ev) s = .next s := by
  refine (onCluster_of_lt hl _).trans (congrArg _ ?_)
  rw [hx]
  dsimp only
  rw [hw]
  exact ite_self s

/-- A SUM over a group of the module alone, with no carry and no STAGE (R412). -/
def loneSum : RedDesc := ⟨1, 0, false, false, 0, 0, noIdx, noIdx⟩

/-- A job without a shard plan whose task 0 runs the SUM on cluster 0: the module is its only member. -/
def loneSumJob : Job :=
  { combineJob with
    tensors := [rowTensor 0x10000000 1, rowTensor 0x10001000 2], reds := [loneSum], exchs := [], shard := none
    cassettes := [⟨0, 0, [{ combineEntry with op := .collective }], []⟩] }

/-- The module after reset with the job, whose COLLECTIVE has issued and is marked for a retry. -/
def retriedSum : State := { retryState with jobs := [loneSumJob] }

def retriedSumSite : Site := ⟨0, ⟨1, 1, 0⟩, loneSumJob, { combineEntry with op := .collective }, retryFlight⟩

theorem retriedSum_todo : retriedSum.todo 0 0 .collective = some retriedSumSite := rfl

theorem retriedSum_clear :
    retriedSum.clear retriedSumSite Ev.none (tensorAccesses [rowTensor 0x10000000 1] [rowTensor 0x10001000 2]) :=
  ⟨by decide, by decide, by decide⟩

/-- Refutes O52: a COLLECTIVE in flight with the mark of a retry is to be worked on by `State.todo`, but stores no result of its group of one,
and counts no occurrence. -/
theorem not_collectivesCombineAndComplete : ¬ Obligations.CollectivesCombineAndComplete := by
  unfold Obligations.CollectivesCombineAndComplete
  rintro ⟨hstart, -⟩
  obtain ⟨hlone, -⟩ := hstart retriedSum 0 0 Ev.none retriedSumSite loneSum (rowTensor 0x10000000 1) (rowTensor 0x10001000 2) (by decide) rfl
    retriedSum_todo rfl rfl rfl retriedSum_clear (fun _ h => nomatch h)
  obtain ⟨t, hexec, -, -, -, ⟨hocc, -⟩, -⟩ := hlone rfl
  rw [exec_collective_of_retry (by decide) (State.todo_spec retriedSum_todo).1 rfl] at hexec
  cases hexec
  omega

end Sys2Proof.Machine
end

section
/-!
Proof, the history's journal (R474): the count of starts and the life-cycle state that its records tell, which neither the compaction nor
a record of another kind changes; and what each operation that appends records leaves of them.
-/

namespace Sys2Proof.Machine

/-! ## The last record that says something -/

/-- What the last sound record that says something of `f` says of it. -/
def lastSaid {α : Type} (f : JItem → Option α) : List JRec → Option α
  | [] => none
  | r :: l => (lastSaid f l).or (if r.ok then f r.item else none)

/-- The number of a start (R469). -/
@[simp] def JItem.startNo : JItem → Option Nat
  | .start n _ _ _ _ => some n
  | _ => none

/-- The life-cycle state that a record holds (R480). -/
@[simp] def JItem.lifeCycle : JItem → Option LifeCycle
  | .start _ _ _ lc _ => some lc
  | .life lc _ => some lc
  | _ => none

/-- The count of starts and the life-cycle state that a journal tells. -/
def tells (l : List JRec) : Option Nat × Option LifeCycle := (lastSaid JItem.startNo l, lastSaid JItem.lifeCycle l)

@[simp] theorem jrecOf_item (i : JItem) : (JRec.of i).item = i := rfl

@[simp] theorem jrecOf_ok (i : JItem) : (JRec.of i).ok = true := by
  simp [JRec.of, JRec.ok]

section
variable {α : Type} {f : JItem → Option α}

theorem lastSaid_append (l m : List JRec) : lastSaid f (l ++ m) = (lastSaid f m).or (lastSaid f l) := by
  induction l with
  | nil => simp [lastSaid]
  | cons r l ih => simp [lastSaid, ih, Option.or_assoc]

/-- A sound record that says something leaves something said. -/
theorem lastSaid_isSome {l : List JRec} {r : JRec} (hr : r ∈ l) (hok : r.ok = true) (hf : (f r.item).isSome = true) :
    (lastSaid f l).isSome = true := by
  induction l with
  | nil => simp at hr
  | cons a l ih =>
    rw [lastSaid, Option.isSome_or]
    obtain rfl | hr := List.mem_cons.mp hr
    · simp [hok, hf]
    · simp [ih hr]

/-! ## Compaction -/

theorem compactJournal_nil : compactJournal [] = [] := rfl

theorem compactJournal_cons (r : JRec) (l : List JRec) : compactJournal (r :: l) =
    (let kept := compactJournal l
     if !r.ok then kept
     else if r.item.isStart then (if (kept.filter (fun k => k.item.isStart)).length < 16 then r :: kept else kept)
     else if kept.any (fun k => k.item.covers r.item) then kept
     else r :: kept) := rfl

theorem ok_of_mem_compactJournal {l : List JRec} {r : JRec} (hr : r ∈ compactJournal l) : r.ok = true := by
  induction l with
  | nil => simp [compactJournal_nil] at hr
  | cons a l ih =>
    rw [compactJournal_cons] at hr
    dsimp only at hr
    split at hr
    · exact ih hr
    · rename_i hok
      have hcons : r ∈ a :: compactJournal l → r.ok = true := fun h => by
        obtain rfl | h := List.mem_cons.mp h
        · simpa using hok
        · exact ih h
      (repeat' split at hr) <;> first | exact ih hr | exact hcons hr

/-- The compaction leaves what the last records say: it drops a start behind later starts alone, and another record behind one that covers
it. -/
theorem lastSaid_compactJournal (hstart : ∀ i : JItem, i.isStart = true → (f i).isSome = true)
    (hcovers : ∀ i k : JItem, k.covers i = true → (f i).isSome = true → (f k).isSome = true) (l : List JRec) :
    lastSaid f (compactJournal l) = lastSaid f l := by
  induction l with
  | nil => rfl
  | cons r l ih =>
    have hkept {k : JRec} (hk : k ∈ compactJournal l) (hf : (f k.item).isSome = true) (o : Option α) :
        lastSaid f (compactJournal l) = (lastSaid f l).or o := by
      rw [← ih]
      obtain ⟨a, ha⟩ := Option.isSome_iff_exists.mp (lastSaid_isSome hk (ok_of_mem_compactJournal hk) hf)
      simp [ha]
    rw [compactJournal_cons, lastSaid]
    dsimp only
    split
    · rename_i hok
      simp only [Bool.not_eq_eq_eq_not, Bool.not_true] at hok
      simp [ih, hok]
    · split
      · split
        · rw [lastSaid, ih]
        · rename_i hfull
          obtain ⟨k, hk⟩ := List.exists_mem_of_length_pos (Nat.lt_of_lt_of_le (by decide) (Nat.le_of_not_lt hfull))
          obtain ⟨hmem, hst⟩ := List.mem_filter.mp hk
          exact hkept hmem (hstart _ hst) _
      · split
        · rename_i hany
          obtain ⟨k, hmem, hcov⟩ := List.any_eq_true.mp hany
          cases hf : f r.item with
          | none => simp [ih]
          | some a => exact hkept hmem (hcovers _ _ hcov (by simp [hf])) _
        · rw [lastSaid, ih]

theorem lastSaid_appendJournal (hstart : ∀ i : JItem, i.isStart = true → (f i).isSome = true)
    (hcovers : ∀ i k : JItem, k.covers i = true → (f i).isSome = true → (f k).isSome = true) (l : List JRec) (i : JItem) :
    lastSaid f (appendJournal l i) = (f i).or (lastSaid f l) := by
  unfold appendJournal
  dsimp only
  rw [lastSaid_append]
  split <;> simp [lastSaid, lastSaid_compactJournal hstart hcovers]

end

theorem isStart_says_startNo (i : JItem) (h : i.isStart = true) : i.startNo.isSome = true := by
  cases i <;> simp_all [JItem.isStart, JItem.startNo]

theorem isStart_says_lifeCycle (i : JItem) (h : i.isStart = true) : i.lifeCycle.isSome = true := by
  cases i <;> simp_all [JItem.isStart, JItem.lifeCycle]

theorem covers_says_startNo (i k : JItem) (h : k.covers i = true) (hi : i.startNo.isSome = true) : k.startNo.isSome = true := by
  cases i with
  | start => cases k <;> simp [JItem.covers] at h
  | _ => simp [JItem.startNo] at hi

theorem covers_says_lifeCycle (i k : JItem) (h : k.covers i = true) (hi : i.lifeCycle.isSome = true) : k.lifeCycle.isSome = true := by
  cases i with
  | start => cases k <;> simp [JItem.covers] at h
  | life => cases k <;> simp_all [JItem.covers, JItem.lifeCycle]
  | _ => simp [JItem.lifeCycle] at hi

/-- A record appended tells what it holds; of the rest the journal tells what it told. -/
@[simp] theorem tells_appendJournal (l : List JRec) (i : JItem) :
    tells (appendJournal l i) = (i.startNo.or (tells l).1, i.lifeCycle.or (tells l).2) := by
  simp only [tells, lastSaid_appendJournal isStart_says_startNo covers_says_startNo,
    lastSaid_appendJournal isStart_says_lifeCycle covers_says_lifeCycle]

/-! ## What the next start reads -/

theorem replay_foldl_starts (l : List JRec) (r : Replay) :
    (((l.filter JRec.ok).map (·.item)).foldl Replay.step r).starts = (lastSaid JItem.startNo l).getD r.starts := by
  induction l generalizing r with
  | nil => rfl
  | cons a l ih =>
    rw [List.filter_cons, lastSaid]
    split
    · rw [List.map_cons, List.foldl_cons, ih]
      cases lastSaid JItem.startNo l with
      | some n => rfl
      | none => cases hi : a.item <;> simp [Replay.step, JItem.startNo]
    · rw [ih, Option.or_none]

theorem replay_foldl_lc (l : List JRec) (r : Replay) :
    (((l.filter JRec.ok).map (·.item)).foldl Replay.step r).lc = (lastSaid JItem.lifeCycle l).getD r.lc := by
  induction l generalizing r with
  | nil => rfl
  | cons a l ih =>
    rw [List.filter_cons, lastSaid]
    split
    · rw [List.map_cons, List.foldl_cons, ih]
      cases lastSaid JItem.lifeCycle l with
      | some n => rfl
      | none => cases hi : a.item <;> simp [Replay.step, JItem.lifeCycle]
    · rw [ih, Option.or_none]

@[simp] theorem replayJournal_starts (l : List JRec) (lc : LifeCycle) : (replayJournal l lc).starts = (tells l).1.getD 0 :=
  replay_foldl_starts l _

@[simp] theorem replayJournal_lc (l : List JRec) (lc : LifeCycle) : (replayJournal l lc).lc = (tells l).2.getD lc :=
  replay_foldl_lc l _

/-- The state that a module leaves its factory in, as the next start takes it (R480). -/
def LifeCycle.factory (lc : LifeCycle) : LifeCycle := if lc = .manufacture then .manufacture else .deployed

theorem State.recorded_iff {s : State} : s.Recorded ↔
    (tells s.hist.journal).1.getD 0 = s.start.starts ∧ (tells s.hist.journal).2.getD s.start.lc.factory = s.start.lc := by
  simp [State.Recorded, State.replayed, LifeCycle.factory]

end Sys2Proof.Machine
end

section
/-!
Proof, the history's journal, continued: one lemma for each operation that may append a record while the life-cycle state stays, in the
order of the model's files (compare Laws). Its journal tells what it told.
-/

namespace Sys2Proof.Machine

/-! ## The history -/

section
variable (h : Hist)

@[simp] theorem Hist.append_told (i : JItem) :
    tells (h.append i).journal = (i.startNo.or (tells h.journal).1, i.lifeCycle.or (tells h.journal).2) :=
  tells_appendJournal h.journal i

@[simp] theorem Hist.setUnit_told (u : Unit') : tells (h.setUnit u).journal = tells h.journal := by
  simp [Hist.setUnit]

@[simp] theorem Hist.pardon_told (again : Unit' → Bool) : tells (h.pardon again).journal = tells h.journal :=
  foldl_keeps (fun h : Hist => tells h.journal) _ (fun g _ => Hist.setUnit_told g _) _ h

@[simp] theorem Hist.judge_told (starts : Nat) : tells (h.judge starts).journal = tells h.journal :=
  foldl_keeps (fun h : Hist => tells h.journal) _ (fun g _ => Hist.setUnit_told g _) _ h

@[simp] theorem Hist.movedOut_told (f : Frame) : tells (h.movedOut f).journal = tells h.journal := by
  simp [Hist.movedOut]

@[simp] theorem Hist.phase_told (rail : Nat) : tells (h.phase rail).journal = tells h.journal := by
  simp [Hist.phase]

@[simp] theorem Hist.charge_told (starts kind index cause : Nat) : tells (h.charge starts kind index cause).journal = tells h.journal := by
  unfold Hist.charge
  split <;> simp

@[simp] theorem Hist.locate_told (index : Nat) (rows cols : List Nat) : tells (h.locate index rows cols).journal = tells h.journal := by
  unfold Hist.locate
  split <;> simp

@[simp] theorem Hist.commitTune_told (starts : Nat) : tells (h.commitTune starts).journal = tells h.journal := by
  unfold Hist.commitTune
  split <;> simp

@[simp] theorem Hist.climb_told (rung logical engine unit : Nat) : tells (h.climb rung logical engine unit).journal = tells h.journal := rfl

@[simp] theorem Hist.raise_told (logical engine unit rung : Nat) : tells (h.raise logical engine unit rung).journal = tells h.journal := rfl

@[simp] theorem Hist.fuse_told (pcl : List PCl) : tells (h.fuse pcl).journal = tells h.journal := Hist.pardon_told h _

@[simp] theorem Hist.readmit_told (pcl : List PCl) : tells (h.readmit pcl).journal = tells h.journal := Hist.pardon_told h _

end

/-! ## The state -/

@[simp] theorem foldl_told {β : Type} (g : State → β → State) (h : ∀ s b, tells (g s b).hist.journal = tells s.hist.journal) (l : List β)
    (s : State) : tells (l.foldl g s).hist.journal = tells s.hist.journal :=
  foldl_keeps (fun s : State => tells s.hist.journal) g h l s

section
variable (s : State)

@[simp] theorem State.setPCl_told (p : Nat) (f : PCl → PCl) : tells (s.setPCl p f).hist.journal = tells s.hist.journal := by
  simp

@[simp] theorem State.dropAll_told : tells s.dropAll.hist.journal = tells s.hist.journal := rfl

@[simp] theorem State.moduleReset_told : tells s.moduleReset.hist.journal = tells s.hist.journal := by
  simp [State.moduleReset]

@[simp] theorem State.haltWith_told (cause : Nat) : tells (s.haltWith cause).hist.journal = tells s.hist.journal := rfl

@[simp] theorem State.settleSubst_told (l : Nat) :
    tells (s.settleSubst l).hist.journal = tells s.hist.journal := by
  unfold State.settleSubst
  repeat' (first | split | dsimp only)
  all_goals simp

@[simp] theorem State.leaveCluster_told (k : TaskKey) (status l : Nat) :
    tells (s.leaveCluster k status l).hist.journal = tells s.hist.journal := by
  unfold State.leaveCluster
  repeat' (first | split | dsimp only)
  all_goals simp

@[simp] theorem State.endTask_told (k : TaskKey) (status next : Nat) :
    tells (s.endTask k status next).hist.journal = tells s.hist.journal := by
  unfold State.endTask
  (repeat' split) <;> simp

@[simp] theorem State.closeCycle_told (k : TaskKey) (p : SolPlan) :
    tells (s.closeCycle k p).hist.journal = tells s.hist.journal := by
  unfold State.closeCycle
  repeat' (first | split | dsimp only)
  all_goals simp

@[simp] theorem State.locateTile_told (l lt : Nat) (rows cols : List Nat) :
    tells (s.locateTile l lt rows cols).hist.journal = tells s.hist.journal := by
  unfold State.locateTile
  (repeat' split) <;> simp

@[simp] theorem State.locateRetry_told (l : Nat) (f : Flight) :
    tells (s.locateRetry l f).hist.journal = tells s.hist.journal := by
  unfold State.locateRetry
  (repeat' split) <;> simp

@[simp] theorem State.reportRetries_told (k : TaskKey) :
    tells (s.reportRetries k).hist.journal = tells s.hist.journal := by
  refine foldl_told _ (fun t l => ?_) _ s
  dsimp only
  split <;> simp

@[simp] theorem State.abortNow_told (k : TaskKey) (status : Nat) :
    tells (s.abortNow k status).hist.journal = tells s.hist.journal := by
  unfold State.abortNow
  repeat' (first | split | dsimp only)
  all_goals simp

@[simp] theorem State.abortHere_told (k : TaskKey) (status : Nat) :
    tells (s.abortHere k status).hist.journal = tells s.hist.journal := by
  unfold State.abortHere
  (repeat' split) <;> simp

@[simp] theorem State.abortTask_told (k : TaskKey) (status : Nat) :
    tells (s.abortTask k status).hist.journal = tells s.hist.journal := by
  unfold State.abortTask
  (repeat' split) <;> simp

@[simp] theorem State.failRestore_told (k : TaskKey) (status : Nat) :
    tells (s.failRestore k status).hist.journal = tells s.hist.journal := by
  simp [State.failRestore]

@[simp] theorem State.climb_told (rung l engine unit : Nat) :
    tells (s.climb rung l engine unit).hist.journal = tells s.hist.journal := by
  simp [State.climb]

@[simp] theorem State.takeSpare_told (l p q : Nat) (full : Bool) :
    tells (s.takeSpare l p q full).hist.journal = tells s.hist.journal := by
  unfold State.takeSpare
  (repeat' split) <;> simp

@[simp] theorem State.requestSubst_told (l t : Nat) :
    tells (s.requestSubst l t).hist.journal = tells s.hist.journal := by
  unfold State.requestSubst
  repeat' (first | split | dsimp only)
  all_goals simp

@[simp] theorem State.loseRestore_told (r : Restore) :
    tells (s.loseRestore r).hist.journal = tells s.hist.journal := by
  unfold State.loseRestore
  (repeat' split) <;> simp

@[simp] theorem State.graphChanged_told :
    tells (s.graphChanged).hist.journal = tells s.hist.journal := by
  unfold State.graphChanged
  repeat' (first | split | dsimp only)
  all_goals simp

@[simp] theorem State.linkGone_told (p : Nat) (was : Port) :
    tells (s.linkGone p was).hist.journal = tells s.hist.journal := by
  unfold State.linkGone
  (repeat' split) <;> simp

@[simp] theorem State.downPort_told (p : Nat) :
    tells (s.downPort p).hist.journal = tells s.hist.journal := by
  simp [State.downPort]

@[simp] theorem State.retrainPort_told (p : Nat) :
    tells (s.retrainPort p).hist.journal = tells s.hist.journal := by
  simp [State.retrainPort]

@[simp] theorem State.hdgCmd_told (v : Word) :
    tells (s.hdgCmd v).hist.journal = tells s.hist.journal := by
  unfold State.hdgCmd
  (repeat' split) <;> simp

@[simp] theorem State.tuneErr_told :
    tells (s.tuneErr).hist.journal = tells s.hist.journal := by
  simp [State.tuneErr]

@[simp] theorem State.leaveService_told :
    tells (s.leaveService).hist.journal = tells s.hist.journal := by
  unfold State.leaveService
  (repeat' split) <;> simp

@[simp] theorem State.fuseProposed_told :
    tells (s.fuseProposed).hist.journal = tells s.hist.journal := by
  unfold State.fuseProposed
  split
  · exact (foldl_keeps (fun h : Hist => tells h.journal) _ (fun g p => by simp) _ _).trans (Hist.fuse_told s.hist _)
  · simp

@[simp] theorem State.fhQuery_told (kind index : Nat) :
    tells (s.fhQuery kind index).hist.journal = tells s.hist.journal := by
  simp [State.fhQuery]

@[simp] theorem State.resetTask_told (k : TaskKey) :
    tells (s.resetTask k).hist.journal = tells s.hist.journal := by
  simp [State.resetTask]

@[simp] theorem State.resetHere_told (n : Nat) :
    tells (s.resetHere n).hist.journal = tells s.hist.journal := by
  have hone (t : State) (n : Nat) : (t.flushRing n statusContextReset).hist = t.hist := by simp
  have hflush (l : List (Nat × Ring)) (t : State) : (l.foldl (fun s r => s.flushRing r.1 statusContextReset) t).hist = t.hist := by
    induction l generalizing t with
    | nil => rfl
    | cons r l ih => rw [List.foldl_cons, ih, hone]
  unfold State.resetHere
  extract_lets s1 s2 s3 s4
  have h1 : tells s1.hist.journal = tells s.hist.journal := by simp [s1]
  have h2 : s2.hist = s1.hist := hflush _ s1
  have h3 : s3.hist = s2.hist := by simp [s3]
  have h4 : s4.hist = s3.hist := by simp [s4]
  clear_value s4 s3 s2 s1
  rw [h4, h3, h2, h1]

@[simp] theorem State.resetDomain_told (n : Nat) (use : HubUse) :
    tells (s.resetDomain n use).1.hist.journal = tells s.hist.journal := by
  simp [State.resetDomain]

@[simp] theorem State.doContextReset_told (p : Pkt) :
    tells (s.doContextReset p).hist.journal = tells s.hist.journal := by
  unfold State.doContextReset
  repeat' (first | split | dsimp only)
  all_goals simp

@[simp] theorem State.leaveMinimal_told :
    tells (s.leaveMinimal).hist.journal = tells s.hist.journal := by
  unfold State.leaveMinimal
  (repeat' split) <;> simp

@[simp] theorem State.doFwImage_told (p : Pkt) (img : ImageIn) :
    tells (s.doFwImage p img).hist.journal = tells s.hist.journal := by
  unfold State.doFwImage
  repeat' (first | split | dsimp only)
  all_goals simp

@[simp] theorem State.moveTo_told (l p q : Nat) (full tune : Bool) :
    tells (s.moveTo l p q full tune).hist.journal = tells s.hist.journal := by
  unfold State.moveTo
  (repeat' split) <;> simp

@[simp] theorem State.takeSignal_told (rx : Rx) (l ctr : Nat) (gen : Bool) (inc : Nat) :
    tells (s.takeSignal rx l ctr gen inc).hist.journal = tells s.hist.journal := by
  unfold State.takeSignal
  (repeat' split) <;> simp

@[simp] theorem State.takeAck_told (rx : Rx) (e : Option PktEnd) :
    tells (s.takeAck rx e).hist.journal = tells s.hist.journal := by
  unfold State.takeAck
  repeat' (first | split | dsimp only)
  all_goals simp

@[simp] theorem State.hubNack_told (u : HubUse) :
    tells (s.hubNack u).hist.journal = tells s.hist.journal := by
  unfold State.hubNack
  (repeat' split) <;> simp

@[simp] theorem State.entryNack_told (rx : Rx) (r : Req) (reason : Nat) :
    tells (s.entryNack rx r reason).hist.journal = tells s.hist.journal := by
  unfold State.entryNack
  repeat' (first | split | dsimp only)
  all_goals simp

@[simp] theorem State.takeNack_told (rx : Rx) (reason : Nat) :
    tells (s.takeNack rx reason).hist.journal = tells s.hist.journal := by
  unfold State.takeNack
  (repeat' split) <;> simp

@[simp] theorem State.flitReplay_told (p : Nat) :
    tells (s.flitReplay p).hist.journal = tells s.hist.journal := by
  unfold State.flitReplay
  repeat' (first | split | dsimp only)
  all_goals simp

@[simp] theorem State.newGraph_told (g : Graph) :
    tells (s.newGraph g).hist.journal = tells s.hist.journal := by
  simp [State.newGraph]

@[simp] theorem State.linkUp_told (p : Nat) :
    tells (s.linkUp p).hist.journal = tells s.hist.journal := by
  unfold State.linkUp
  repeat' (first | split | dsimp only)
  all_goals simp

@[simp] theorem State.takeFlood_told (rx : Rx) (g : Graph) (b : Body) :
    tells (s.takeFlood rx g b).hist.journal = tells s.hist.journal := by
  unfold State.takeFlood
  (repeat' split) <;> simp

@[simp] theorem State.install_told :
    tells (s.install).hist.journal = tells s.hist.journal := by
  simp [State.install]

@[simp] theorem State.takeDrained_told (m : Nat) :
    tells (s.takeDrained m).hist.journal = tells s.hist.journal := by
  unfold State.takeDrained
  repeat' (first | split | dsimp only)
  all_goals simp

@[simp] theorem State.failPort_told (p : Nat) :
    tells (s.failPort p).hist.journal = tells s.hist.journal := by
  simp [State.failPort]

@[simp] theorem State.takeChunk_told (rx : Rx) (seq chunk : Nat) (bytes : List Byte) (img : ImageIn) :
    tells (s.takeChunk rx seq chunk bytes img).hist.journal = tells s.hist.journal := by
  unfold State.takeChunk
  repeat' (first | split | dsimp only)
  all_goals simp

@[simp] theorem State.complete_told (x : Site) :
    tells (s.complete x).hist.journal = tells s.hist.journal := by
  unfold State.complete
  repeat' (first | split | dsimp only)
  all_goals simp

@[simp] theorem State.confirm_told (l idx : Nat) :
    tells (s.confirm l idx).hist.journal = tells s.hist.journal := by
  simp [State.confirm]

@[simp] theorem State.doIterEnd_told (x : Site) :
    tells (s.doIterEnd x).hist.journal = tells s.hist.journal := by
  unfold State.doIterEnd
  repeat' (first | split | dsimp only)
  all_goals simp

@[simp] theorem State.taskDone_told (k : TaskKey) :
    tells (s.taskDone k).hist.journal = tells s.hist.journal := by
  unfold State.taskDone
  repeat' (first | split | dsimp only)
  all_goals simp

@[simp] theorem State.doHalt_told (x : Site) :
    tells (s.doHalt x).hist.journal = tells s.hist.journal := by
  unfold State.doHalt
  repeat' (first | split | dsimp only)
  all_goals simp

@[simp] theorem State.tileFault_told (x : Site) (ts : List OTile) :
    tells (s.tileFault x ts).hist.journal = tells s.hist.journal := by
  simp [State.tileFault]

@[simp] theorem State.entryExpired_told (l : Nat) :
    tells (s.entryExpired l).hist.journal = tells s.hist.journal := by
  unfold State.entryExpired
  (repeat' split) <;> simp

@[simp] theorem State.collExpired_told (k : TaskKey) :
    tells (s.collExpired k).hist.journal = tells s.hist.journal := by
  unfold State.collExpired
  repeat' (first | split | dsimp only)
  all_goals simp

@[simp] theorem State.abortOn_told (on : Nat → Bool) (latch : Bool) :
    tells (s.abortOn on latch).hist.journal = tells s.hist.journal := by
  unfold State.abortOn
  generalize List.range 128 = r
  refine foldl_told _ (fun t b => ?_) _ s
  (repeat' (first | split | dsimp only)) <;> simp

@[simp] theorem State.abortOnStack_told (stack : Nat) (latch : Bool) :
    tells (s.abortOnStack stack latch).hist.journal = tells s.hist.journal := by
  simp [State.abortOnStack]

@[simp] theorem State.abortCluster_told (l : Nat) :
    tells (s.abortCluster l).hist.journal = tells s.hist.journal := by
  unfold State.abortCluster
  (repeat' split) <;> simp

@[simp] theorem State.abortLender_told (l engine : Nat) :
    tells (s.abortLender l engine).hist.journal = tells s.hist.journal := by
  unfold State.abortLender
  split <;> simp

@[simp] theorem State.rewindTask_told (k : TaskKey) (ls : List Nat) :
    tells (s.rewindTask k ls).hist.journal = tells s.hist.journal := by
  unfold State.rewindTask
  extract_lets s1
  have h1 : s1.hist = s.hist := by simp [s1]
  split
  · simp [h1]
  · refine (foldl_told _ (fun t l => ?_) _ s1).trans (by rw [h1])
    split <;> simp

@[simp] theorem State.nextStep_told (k : TaskKey) (t : Task) (ls : List Nat) :
    tells (s.nextStep k t ls).hist.journal = tells s.hist.journal := by
  unfold State.nextStep
  repeat' (first | split | dsimp only)
  all_goals simp

@[simp] theorem State.retry_told (k : TaskKey) (step : Nat) (ls : List Nat) :
    tells (s.retry k step ls).hist.journal = tells s.hist.journal := by
  unfold State.retry
  split
  · simp
  · have h := State.reapply_keeps ‹_›
    simp [h]

@[simp] theorem State.commit_told (k : TaskKey) (t : Task) (ls : List Nat) (vs : List Vote) :
    tells (s.commit k t ls vs).hist.journal = tells s.hist.journal := by
  unfold State.commit
  repeat' (first | split | dsimp only)
  all_goals simp

@[simp] theorem State.skip_told (k : TaskKey) (t : Task) (ls : List Nat) (vs : List Vote) :
    tells (s.skip k t ls vs).hist.journal = tells s.hist.journal := by
  unfold State.skip
  repeat' (first | split | dsimp only)
  all_goals simp

end

end Sys2Proof.Machine
end

section
/-!
Proof, the history's journal, continued: one lemma for each operation that may also move the life-cycle state on, by DRAIN (R500, R502) or
by ENTER_SERVICE (R480), in the order of the model's files. The state that it leaves is the one that its journal tells.
-/

namespace Sys2Proof.Machine

/-! ## The life-cycle state moves on -/

/-- Moves of R480 that a command other than ADMISSION makes. -/
def LifeCycle.onward : LifeCycle → LifeCycle → Bool
  | .deployed, .drain | .deployed, .service | .drain, .service => true
  | _, _ => false

/-- Since the state `s₀` the journal still tells its count of starts; the life-cycle state is that of `s₀`, and the journal tells what it told of
it, or it has moved on, as the journal tells. -/
def Aged (s₀ : State) (lc : LifeCycle) (told : Option Nat × Option LifeCycle) : Prop :=
  told.1 = (tells s₀.hist.journal).1 ∧
    ((lc = s₀.start.lc ∧ told.2 = (tells s₀.hist.journal).2) ∨ (s₀.start.lc.onward lc = true ∧ told.2 = some lc))

@[simp] theorem Aged.refl (s₀ : State) : Aged s₀ s₀.start.lc (tells s₀.hist.journal) := ⟨rfl, .inl ⟨rfl, rfl⟩⟩

/-- A move with its record. -/
theorem Aged.move {s₀ : State} {lc lc' : LifeCycle} {told : Option Nat × Option LifeCycle} (h : Aged s₀ lc told) (hm : lc.onward lc' = true) :
    Aged s₀ lc' (told.1, some lc') := by
  obtain ⟨hs, ⟨rfl, -⟩ | ⟨ho, -⟩⟩ := h
  · exact ⟨hs, .inr ⟨hm, rfl⟩⟩
  · refine ⟨hs, .inr ⟨?_, rfl⟩⟩
    cases hl : s₀.start.lc <;> cases lc <;> cases lc' <;> simp_all [LifeCycle.onward]

theorem foldl_aged {s₀ : State} {β : Type} (g : State → β → State)
    (hg : ∀ s b, Aged s₀ s.start.lc (tells s.hist.journal) → Aged s₀ (g s b).start.lc (tells (g s b).hist.journal)) (l : List β) {s : State}
    (h : Aged s₀ s.start.lc (tells s.hist.journal)) : Aged s₀ (l.foldl g s).start.lc (tells (l.foldl g s).hist.journal) := by
  induction l generalizing s with
  | nil => exact h
  | cons b l ih => exact ih (hg s b h)

section
variable {s₀ s : State} (h : Aged s₀ s.start.lc (tells s.hist.journal))
include h

@[simp] theorem State.drain_aged (cause : Nat) :
    Aged s₀ (s.drain cause).start.lc (tells (s.drain cause).hist.journal) := by
  unfold State.drain
  split
  · rename_i hl
    simpa using h.move (lc' := .drain) (by rw [hl]; rfl)
  · exact h

@[simp] theorem State.rotation_aged (p : Nat) :
    Aged s₀ (s.rotation p).start.lc (tells (s.rotation p).hist.journal) := by
  unfold State.rotation
  (repeat' split) <;> simp [h]

@[simp] theorem State.spareGone_aged (p : Nat) :
    Aged s₀ (s.spareGone p).start.lc (tells (s.spareGone p).hist.journal) := by
  unfold State.spareGone
  repeat' (first | split | dsimp only)
  all_goals simp [h]

@[simp] theorem State.suspectRows_aged (p : Nat) (t : Option Nat) :
    Aged s₀ (s.suspectRows p t).start.lc (tells (s.suspectRows p t).hist.journal) := by
  unfold State.suspectRows
  repeat' (first | split | dsimp only)
  all_goals simp [h]

@[simp] theorem State.charge_aged (kind index cause : Nat) :
    Aged s₀ (s.charge kind index cause).start.lc (tells (s.charge kind index cause).hist.journal) := by
  unfold State.charge
  (repeat' split) <;> simp [h]

@[simp] theorem State.chargeCluster_aged (l cause : Nat) :
    Aged s₀ (s.chargeCluster l cause).start.lc (tells (s.chargeCluster l cause).hist.journal) := by
  unfold State.chargeCluster
  (repeat' split) <;> simp [h]

@[simp] theorem State.chargeTile_aged (l lt cause : Nat) :
    Aged s₀ (s.chargeTile l lt cause).start.lc (tells (s.chargeTile l lt cause).hist.journal) := by
  unfold State.chargeTile
  (repeat' split) <;> simp [h]

@[simp] theorem State.chargeWord_aged (a : Nat) :
    Aged s₀ (s.chargeWord a).start.lc (tells (s.chargeWord a).hist.journal) := by
  unfold State.chargeWord
  (repeat' split) <;> simp [h]

@[simp] theorem State.poisonWord_aged (a : Nat) :
    Aged s₀ (s.poisonWord a).start.lc (tells (s.poisonWord a).hist.journal) := by
  unfold State.poisonWord
  repeat' (first | split | dsimp only)
  all_goals simp [h]

@[simp] theorem State.latchFault_aged (x : Site) (kind : FaultKind) (module addr : Nat) :
    Aged s₀ (s.latchFault x kind module addr).start.lc (tells (s.latchFault x kind module addr).hist.journal) := by
  unfold State.latchFault
  (repeat' split) <;> simp [h]

@[simp] theorem State.entryFault_aged (x : Site) (kind : FaultKind) (module addr : Nat) (more : List (FaultKind × Nat)) :
    Aged s₀ (s.entryFault x kind module addr more).start.lc (tells (s.entryFault x kind module addr more).hist.journal) := by
  have hl := foldl_aged (fun t (f : FaultKind × Nat) => t.latchFault x f.1 module f.2) (fun t f ht => State.latchFault_aged ht x f.1 module f.2)
    more (State.latchFault_aged h x kind module addr)
  simp [State.entryFault, hl]

theorem State.guard_aged (x : Site) (ev : Ev) (as : List Access) (go : State → State)
    (hgo : ∀ t : State, Aged s₀ t.start.lc (tells t.hist.journal) → Aged s₀ (go t).start.lc (tells (go t).hist.journal)) :
    Aged s₀ (s.guard x ev as go).start.lc (tells (s.guard x ev as go).hist.journal) := by
  unfold State.guard
  split
  · simp [h]
  · split
    · exact h
    · exact hgo _ (by simp [h])

@[simp] theorem State.enterService_aged :
    Aged s₀ (s.enterService).start.lc (tells (s.enterService).hist.journal) := by
  unfold State.enterService
  split
  · rename_i hl
    simpa using h.move (lc' := .service) (by obtain ⟨hd | hd, -⟩ := hl <;> rw [hd] <;> rfl)
  · simp [h]

@[simp] theorem State.recheck_aged (worst : List (Nat × Nat)) :
    Aged s₀ (s.recheck worst).start.lc (tells (s.recheck worst).hist.journal) := by
  unfold State.recheck
  split
  · simp [h]
  · exact foldl_aged _ (fun t w ht => by simp [ht]) _ h

@[simp] theorem State.recheckCmd_aged :
    Aged s₀ (s.recheckCmd).start.lc (tells (s.recheckCmd).hist.journal) := by
  unfold State.recheckCmd
  (repeat' split) <;> simp [h]

@[simp] theorem State.tstCmd_aged (v : Word) :
    Aged s₀ (s.tstCmd v).start.lc (tells (s.tstCmd v).hist.journal) := by
  unfold State.tstCmd
  (repeat' split) <;> simp [h]

@[simp] theorem State.tuneNow_aged (p : Nat) :
    Aged s₀ (s.tuneNow p).start.lc (tells (s.tuneNow p).hist.journal) := by
  unfold State.tuneNow
  (repeat' split) <;> simp [h]

@[simp] theorem State.rotateOut_aged (p : Nat) :
    Aged s₀ (s.rotateOut p).start.lc (tells (s.rotateOut p).hist.journal) := by
  unfold State.rotateOut
  (repeat' split) <;> simp [h]

@[simp] theorem State.clearRail_aged (p : Nat) :
    Aged s₀ (s.clearRail p).start.lc (tells (s.clearRail p).hist.journal) := by
  unfold State.clearRail
  (repeat' split) <;> simp [h]

@[simp] theorem State.tuneCmd_aged (v : Word) :
    Aged s₀ (s.tuneCmd v).start.lc (tells (s.tuneCmd v).hist.journal) := by
  unfold State.tuneCmd
  repeat' (first | split | dsimp only)
  all_goals simp [h]

@[simp] theorem State.writeReg_aged (r : Reg) (v : Word) (ctx : Nat) :
    Aged s₀ (s.writeReg r v ctx).start.lc (tells (s.writeReg r v ctx).hist.journal) := by
  unfold State.writeReg
  (repeat' split) <;> simp [h]

@[simp] theorem State.poisonWords_aged (page : Nat) (bad : List Nat) :
    Aged s₀ (s.poisonWords page bad).start.lc (tells (s.poisonWords page bad).hist.journal) := by
  exact foldl_aged _ (fun t a ht => State.poisonWord_aged ht a) _ h

@[simp] theorem State.poisonAll_aged (bad : List Nat) :
    Aged s₀ (s.poisonAll bad).start.lc (tells (s.poisonAll bad).hist.journal) := by
  exact foldl_aged _ (fun t a ht => State.poisonWord_aged ht a) _ h

@[simp] theorem State.faultMove_aged (page : Nat) (f : Frame) :
    Aged s₀ (s.faultMove page f).start.lc (tells (s.faultMove page f).hist.journal) := by
  unfold State.faultMove
  simp [h]

@[simp] theorem State.doRead_aged (p : Pkt) (ev : Ev) :
    Aged s₀ (s.doRead p ev).start.lc (tells (s.doRead p ev).hist.journal) := by
  have hbad (ws : List Nat) := foldl_aged State.poisonWord (fun t a ht => State.poisonWord_aged ht a) ws h
  unfold State.doRead
  repeat' (first | split | dsimp only)
  all_goals simp [h, hbad]

@[simp] theorem State.doCtlWrite_aged (p : Pkt) :
    Aged s₀ (s.doCtlWrite p).start.lc (tells (s.doCtlWrite p).hist.journal) := by
  unfold State.doCtlWrite
  repeat' (first | split | dsimp only)
  all_goals simp [h]

@[simp] theorem State.doRestore_aged (p : Pkt) (ev : Ev) :
    Aged s₀ (s.doRestore p ev).start.lc (tells (s.doRestore p ev).hist.journal) := by
  unfold State.doRestore
  repeat' (first | split | dsimp only)
  all_goals simp [h]

@[simp] theorem State.migrate_aged (l : Nat) :
    Aged s₀ (s.migrate l).start.lc (tells (s.migrate l).hist.journal) := by
  unfold State.migrate
  repeat' (first | split | dsimp only)
  all_goals simp [h]

@[simp] theorem State.barWrite_aged (off bytes : Nat) (value : Word) :
    Aged s₀ (s.barWrite off bytes value).start.lc (tells (s.barWrite off bytes value).hist.journal) := by
  unfold State.barWrite
  (repeat' split) <;> simp [h]

@[simp] theorem State.fabRead_aged (rx : Rx) (addr n : Nat) (ev : Ev) :
    Aged s₀ (s.fabRead rx addr n ev).start.lc (tells (s.fabRead rx addr n ev).hist.journal) := by
  have hbad (ws : List Nat) := foldl_aged State.poisonWord (fun t a ht => State.poisonWord_aged ht a) ws h
  unfold State.fabRead
  repeat' (first | split | dsimp only)
  all_goals simp [h, hbad]

@[simp] theorem State.runPacket_aged (p : Pkt) (f : PktFind) :
    Aged s₀ (s.runPacket p f).start.lc (tells (s.runPacket p f).hist.journal) := by
  unfold State.runPacket
  iterate 17 refine keeps_ite (K := fun t => Aged s₀ t.start.lc (tells t.hist.journal)) (by simp [h]) ?_
  simp [h]

@[simp] theorem State.takeForward_aged (rx : Rx) (pid : Nat) (words : List Word) (pay : List Byte) (f : PktFind) :
    Aged s₀ (s.takeForward rx pid words pay f).start.lc (tells (s.takeForward rx pid words pay f).hist.journal) := by
  unfold State.takeForward
  repeat' (first | split | dsimp only)
  all_goals simp [h]

@[simp] theorem State.engineFails_aged (group engine : Nat) :
    Aged s₀ (s.engineFails group engine).start.lc (tells (s.engineFails group engine).hist.journal) := by
  unfold State.engineFails
  repeat' (first | split | dsimp only)
  all_goals simp [h]

@[simp] theorem State.issue_aged (l : Nat) (k : Deck) (i : Nat) (e : Entry) :
    Aged s₀ (s.issue l k i e).start.lc (tells (s.issue l k i e).hist.journal) := by
  have hs : (s.issue l k i e).start.lc = s.start.lc ∧ tells (s.issue l k i e).hist.journal = tells s.hist.journal := by
    unfold State.issue
    extract_lets f occ s1 s2 s3 step s4 s5
    have h5 : s5.hist = s4.hist ∧ s5.start = s4.start := by
      constructor
      · refine foldl_hist _ (fun t u => ?_) _ s4
        split
        · refine foldl_hist _ (fun r i => ?_) _ t
          split <;> simp
        · simp
      · refine foldl_start _ (fun t u => ?_) _ s4
        split
        · refine foldl_start _ (fun r i => ?_) _ t
          split <;> simp
        · simp
    obtain ⟨hh, hst⟩ := h5
    split <;> simp [hh, hst, s4, s3, s2, s1]
  rw [hs.1, hs.2]
  exact h

@[simp] theorem State.stepDecide_aged (l : Nat) :
    Aged s₀ (s.stepDecide l).start.lc (tells (s.stepDecide l).hist.journal) := by
  unfold State.stepDecide
  repeat' (first | split | dsimp only)
  all_goals simp [h]

@[simp] theorem State.doCtlEntry_aged (x : Site) :
    Aged s₀ (s.doCtlEntry x).start.lc (tells (s.doCtlEntry x).hist.journal) := by
  unfold State.doCtlEntry
  (repeat' split) <;> simp [h]

@[simp] theorem State.chargeOtiles_aged (x : Site) (ts : List OTile) :
    Aged s₀ (s.chargeOtiles x ts).start.lc (tells (s.chargeOtiles x ts).hist.journal) := by
  unfold State.chargeOtiles
  repeat' (first | split | dsimp only)
  refine foldl_aged _ (fun t b ht => ?_) _ h
  (repeat' (first | split | dsimp only)) <;> simp [ht]

@[simp] theorem State.productBody_aged (x : Site) (ev : Ev) (a b d : Tensor) (ch : Option Chain) :
    Aged s₀ (s.productBody x ev a b d ch).start.lc (tells (s.productBody x ev a b d ch).hist.journal) := by
  unfold State.productBody
  repeat' (first | split | dsimp only)
  all_goals simp [h]

@[simp] theorem State.runProduct_aged (x : Site) (ev : Ev) :
    Aged s₀ (s.runProduct x ev).start.lc (tells (s.runProduct x ev).hist.journal) := by
  unfold State.runProduct
  split
  · exact State.guard_aged h _ _ _ _ (fun t ht => by simp [ht])
  · exact h

@[simp] theorem State.gramBody_aged (x : Site) (ev : Ev) (t : Slot) (a : Tensor) :
    Aged s₀ (s.gramBody x ev t a).start.lc (tells (s.gramBody x ev t a).hist.journal) := by
  unfold State.gramBody
  repeat' (first | split | dsimp only)
  all_goals simp [h]

@[simp] theorem State.runGramEntry_aged (x : Site) (ev : Ev) :
    Aged s₀ (s.runGramEntry x ev).start.lc (tells (s.runGramEntry x ev).hist.journal) := by
  unfold State.runGramEntry
  split
  · split
    · simp [h]
    · exact State.guard_aged h _ _ _ _ (fun t ht => by simp [ht])
  · exact h

@[simp] theorem State.runChainEntry_aged (x : Site) (ev : Ev) :
    Aged s₀ (s.runChainEntry x ev).start.lc (tells (s.runChainEntry x ev).hist.journal) := by
  unfold State.runChainEntry
  split
  · exact State.guard_aged h _ _ _ _ (fun t ht => by simp [ht])
  · exact h

@[simp] theorem State.runReduce_aged (x : Site) (ev : Ev) :
    Aged s₀ (s.runReduce x ev).start.lc (tells (s.runReduce x ev).hist.journal) := by
  unfold State.runReduce
  split
  · exact State.guard_aged h _ _ _ _ (fun t ht => by simp [ht])
  · exact h

@[simp] theorem State.runSol_aged (x : Site) (o : SolOp) (ev : Ev) :
    Aged s₀ (s.runSol x o ev).start.lc (tells (s.runSol x o ev).hist.journal) := by
  unfold State.runSol
  split
  · exact State.guard_aged h _ _ _ _ (fun t ht => by simp [ht])
  · exact h

@[simp] theorem State.runFold_aged (q : TopSite) (ev : Ev) :
    Aged s₀ (s.runFold q ev).start.lc (tells (s.runFold q ev).hist.journal) :=
  State.guard_aged h _ _ _ _ (fun t ht => by simp [ht])

@[simp] theorem State.runExport_aged (q : TopSite) (ev : Ev) :
    Aged s₀ (s.runExport q ev).start.lc (tells (s.runExport q ev).hist.journal) := by
  unfold State.runExport
  split
  · exact State.guard_aged h _ _ _ _ (fun t ht => by simp [ht])
  · exact h

@[simp] theorem State.runRefresh_aged (q : TopSite) (ev : Ev) :
    Aged s₀ (s.runRefresh q ev).start.lc (tells (s.runRefresh q ev).hist.journal) := by
  unfold State.runRefresh
  split
  · simp [h]
  · exact State.guard_aged h _ _ _ _ (fun t ht => by simp [ht])

@[simp] theorem State.backgroundFault_aged (k : TaskKey) (l : Nat) (f : FaultKind × Nat) :
    Aged s₀ (s.backgroundFault k l f).start.lc (tells (s.backgroundFault k l f).hist.journal) := by
  unfold State.backgroundFault
  (repeat' split) <;> simp [h]

@[simp] theorem State.background_aged (l : Nat) (ev : Ev) :
    Aged s₀ (s.background l ev).start.lc (tells (s.background l ev).hist.journal) := by
  unfold State.background
  repeat' (first | split | dsimp only)
  all_goals simp [h]

@[simp] theorem State.runFactor_aged (q : TopSite) (ev : Ev) :
    Aged s₀ (s.runFactor q ev).start.lc (tells (s.runFactor q ev).hist.journal) := by
  unfold State.runFactor
  split
  · exact State.guard_aged h _ _ _ _ (fun t ht => by simp [ht])
  · exact h

@[simp] theorem State.runSolve_aged (q : TopSite) (ev : Ev) :
    Aged s₀ (s.runSolve q ev).start.lc (tells (s.runSolve q ev).hist.journal) := by
  unfold State.runSolve
  split
  · exact State.guard_aged h _ _ _ _ (fun t ht => by simp [ht])
  · exact h

@[simp] theorem State.runStream_aged (x : Site) (ev : Ev) :
    Aged s₀ (s.runStream x ev).start.lc (tells (s.runStream x ev).hist.journal) := by
  unfold State.runStream
  split
  · split
    · exact State.guard_aged h _ _ _ _ (fun t ht => by simp [ht])
    · exact h
  · exact h

@[simp] theorem State.runCopy_aged (x : Site) (ev : Ev) :
    Aged s₀ (s.runCopy x ev).start.lc (tells (s.runCopy x ev).hist.journal) := by
  unfold State.runCopy
  split
  · exact State.guard_aged h _ _ _ _ (fun t ht => by simp [ht])
  · exact h

@[simp] theorem State.runSend_aged (x : Site) (ev : Ev) :
    Aged s₀ (s.runSend x ev).start.lc (tells (s.runSend x ev).hist.journal) := by
  unfold State.runSend
  split
  · exact State.guard_aged h _ _ _ _ (fun t ht => by simp [ht])
  · exact h

@[simp] theorem State.runColl_aged (x : Site) (ev : Ev) :
    Aged s₀ (s.runColl x ev).start.lc (tells (s.runColl x ev).hist.journal) := by
  unfold State.runColl
  split
  · exact State.guard_aged h _ _ _ _ (fun t ht => by simp [ht])
  · exact h

@[simp] theorem State.runExch_aged (x : Site) (ev : Ev) :
    Aged s₀ (s.runExch x ev).start.lc (tells (s.runExch x ev).hist.journal) := by
  unfold State.runExch
  split
  · split
    · exact State.guard_aged h _ _ _ _ (fun t ht => by simp [ht])
    · exact h
  · exact h

@[simp] theorem State.optBody_aged (q : OptSite) (ev : Ev) :
    Aged s₀ (s.optBody q ev).start.lc (tells (s.optBody q ev).hist.journal) := by
  unfold State.optBody
  repeat' (first | split | dsimp only)
  all_goals simp [h]

@[simp] theorem State.wcMismatch_aged (l : Nat) (j : Job) :
    Aged s₀ (s.wcMismatch l j).start.lc (tells (s.wcMismatch l j).hist.journal) := by
  simp [State.wcMismatch, h]

@[simp] theorem State.checkCopy_aged (l idx row col : Nat) (seen : Option Nat) :
    Aged s₀ (s.checkCopy l idx row col seen).start.lc (tells (s.checkCopy l idx row col seen).hist.journal) := by
  unfold State.checkCopy
  repeat' (first | split | dsimp only)
  all_goals simp [h]

@[simp] theorem State.streamFault_aged (x : DStream) (f : FaultKind × Nat) :
    Aged s₀ (s.streamFault x f).start.lc (tells (s.streamFault x f).hist.journal) := by
  unfold State.streamFault
  repeat' (first | split | dsimp only)
  all_goals simp [h]

@[simp] theorem State.streamNext_aged (x : DStream) (ev : Ev) :
    Aged s₀ (s.streamNext x ev).start.lc (tells (s.streamNext x ev).hist.journal) := by
  unfold State.streamNext
  (repeat' split) <;> simp [h]

@[simp] theorem State.chargePort_aged (p : Nat) :
    Aged s₀ (s.chargePort p).start.lc (tells (s.chargePort p).hist.journal) := by
  exact foldl_aged _ (fun t i ht => State.charge_aged ht _ _ _) _ h

@[simp] theorem State.rung_aged (r l engine unit : Nat) :
    Aged s₀ (s.rung r l engine unit).start.lc (tells (s.rung r l engine unit).hist.journal) := by
  have hr : Aged s₀ s.start.lc (tells (s.hist.raise l engine unit r).journal) := h
  unfold State.rung
  extract_lets first s1
  have h1 : Aged s₀ s1.start.lc (tells s1.hist.journal) := hr
  clear_value s1
  (repeat' split) <;> simp [h1]

@[simp] theorem State.engineReset_aged (l engine unit : Nat) :
    Aged s₀ (s.engineReset l engine unit).start.lc (tells (s.engineReset l engine unit).hist.journal) := by
  unfold State.engineReset
  split
  · exact h
  · split
    · simp [h]
    · extract_lets s1 s2
      have h2 : Aged s₀ s2.start.lc (tells s2.hist.journal) := by
        dsimp only [s2, s1]
        split <;> simp [h, Start.edgeIn]
      clear_value s2
      split <;> simp [h2]

@[simp] theorem State.quiesce_aged (l : Nat) :
    Aged s₀ (s.quiesce l).start.lc (tells (s.quiesce l).hist.journal) := by
  simp [State.quiesce, h]

@[simp] theorem State.chipletReset_aged (c : Nat) :
    Aged s₀ (s.chipletReset c).start.lc (tells (s.chipletReset c).hist.journal) := by
  unfold State.chipletReset
  extract_lets ls op s1 s2 s3 es s4 s5 s6
  have h1 : Aged s₀ s1.start.lc (tells s1.hist.journal) := foldl_aged _ (fun t r ht => by simp [ht]) _ h
  clear_value s1 op ls es
  have h2 : Aged s₀ s2.start.lc (tells s2.hist.journal) := foldl_aged _ (fun t l ht => by simp [ht]) _ h1
  clear_value s2
  have h3 : Aged s₀ s3.start.lc (tells s3.hist.journal) := by simp [s3, h2]
  clear_value s3
  have h4 : Aged s₀ s4.start.lc (tells s4.hist.journal) := by
    have hes := foldl_keeps Start.lc Start.edgeIn (fun _ _ => rfl) es s3.start
    simp only [s4, hes]
    exact h3
  clear_value s4
  have h5 : Aged s₀ s5.start.lc (tells s5.hist.journal) := foldl_aged _ (fun t l ht => by simp [ht]) _ h4
  clear_value s5
  have h6 : Aged s₀ s6.start.lc (tells s6.hist.journal) := by
    dsimp only [s6]
    generalize (List.range 6).map (· + 6 * c) = ps
    exact foldl_aged _ (fun t p ht => by simp [ht]) ps h5
  clear_value s6
  simp only [State.landWrites_keeps]
  generalize (List.range 17).map (· + 17 * c) = ps
  rw [foldl_keeps Start.lc _ (fun x p => (Start.upd_keeps x p _).2.1) ps s6.start]
  exact h6

@[simp] theorem State.beginTune_aged (c : Nat) :
    Aged s₀ (s.beginTune c).start.lc (tells (s.beginTune c).hist.journal) := by
  unfold State.beginTune
  repeat' (first | split | dsimp only)
  all_goals simp [h]

@[simp] theorem State.tuneOut_aged (p : Nat) :
    Aged s₀ (s.tuneOut p).start.lc (tells (s.tuneOut p).hist.journal) := by
  simp [State.tuneOut, h]

@[simp] theorem State.tuneComplete_aged (p : Nat) (found : TuneFind) (badTiles : Nat) :
    Aged s₀ (s.tuneComplete p found badTiles).start.lc (tells (s.tuneComplete p found badTiles).hist.journal) := by
  unfold State.tuneComplete
  extract_lets c f run s1 s2 regs bad whole hist s3 s4 s5
  have h2 : Aged s₀ s2.start.lc (tells s2.hist.journal) := by
    dsimp only [s2, s1]
    split <;> simp [h]
  clear_value s2
  have h3 : Aged s₀ s3.start.lc (tells s3.hist.journal) := h2
  have h4 : Aged s₀ s4.start.lc (tells s4.hist.journal) := by
    clear_value s3
    dsimp only [s4]
    (repeat' split) <;> simp [h3]
  have h5 : Aged s₀ s5.start.lc (tells s5.hist.journal) := foldl_aged _ (fun t i ht => by simp [ht]) _ h4
  clear_value s5
  (repeat' split) <;> simp [h, h2, h5]

@[simp] theorem State.chargeSuspects_aged (sus : List (Nat × Nat)) :
    Aged s₀ (s.chargeSuspects sus).start.lc (tells (s.chargeSuspects sus).hist.journal) := by
  unfold State.chargeSuspects
  refine foldl_aged _ (fun t b ht => ?_) _ h
  (repeat' (first | split | dsimp only)) <;> simp [ht]

@[simp] theorem State.applyOutcome_aged (k : TaskKey) (t : Task) (j : Job) (o : Outcome) (sus : List (Nat × Nat)) (vs : List Vote) :
    Aged s₀ (s.applyOutcome k t j o sus vs).start.lc (tells (s.applyOutcome k t j o sus vs).hist.journal) := by
  unfold State.applyOutcome
  split
  · simp [h]
  · extract_lets ls s1 s2 s3 s4
    have h3 : Aged s₀ s3.start.lc (tells s3.hist.journal) := by
      dsimp only [s3, s2, s1]
      split <;> simp [h]
    clear_value s3
    split
    · simp [h3]
    · simp [h3]
    · simp [h3]
    · exact keeps_ite (K := fun t => Aged s₀ t.start.lc (tells t.hist.journal)) (by simp [s4, h3]) (by simp [s4, h3])
    · simp [h3]

@[simp] theorem State.deliver_aged (k : TaskKey) (t : Task) (j : Job) (o : Outcome) (sus : List (Nat × Nat)) (vs : List Vote) :
    Aged s₀ (s.deliver k t j o sus vs).start.lc (tells (s.deliver k t j o sus vs).hist.journal) := by
  simp [State.deliver, h]

@[simp] theorem State.decideStep_aged (k : TaskKey) :
    Aged s₀ (s.decideStep k).start.lc (tells (s.decideStep k).hist.journal) := by
  unfold State.decideStep
  (repeat' split) <;> simp [h]

@[simp] theorem State.passVotes_aged (k : TaskKey) :
    Aged s₀ (s.passVotes k).start.lc (tells (s.passVotes k).hist.journal) := by
  unfold State.passVotes
  repeat' (first | split | dsimp only)
  all_goals simp [h]

@[simp] theorem State.doStepEnd_aged (x : Site) :
    Aged s₀ (s.doStepEnd x).start.lc (tells (s.doStepEnd x).hist.journal) := by
  unfold State.doStepEnd
  repeat' (first | split | dsimp only)
  all_goals simp [h]

@[simp] theorem State.takeVote_aged (k : TaskKey) (step : Nat) (vs : List Vote) (cops : List CopInfo) :
    Aged s₀ (s.takeVote k step vs cops).start.lc (tells (s.takeVote k step vs cops).hist.journal) := by
  unfold State.takeVote
  repeat' (first | split | dsimp only)
  all_goals simp [h]

@[simp] theorem State.takeOutcome_aged (k : TaskKey) (step : Nat) (o : Outcome) (sus : List (Nat × Nat)) (vs : List Vote) :
    Aged s₀ (s.takeOutcome k step o sus vs).start.lc (tells (s.takeOutcome k step o sus vs).hist.journal) := by
  unfold State.takeOutcome
  (repeat' split) <;> simp [h]

@[simp] theorem State.rotateNow_aged (l : Nat) :
    Aged s₀ (s.rotateNow l).start.lc (tells (s.rotateNow l).hist.journal) := by
  unfold State.rotateNow
  (repeat' split) <;> simp [h]

@[simp] theorem State.endRestore_aged (k : TaskKey) (t : Task) (j : Job) (r : Restore) (sus : List (Nat × Nat)) (ev : Ev) :
    Aged s₀ (s.endRestore k t j r sus ev).start.lc (tells (s.endRestore k t j r sus ev).hist.journal) := by
  unfold State.endRestore
  extract_lets f s1 s2 s3
  have hf : Aged s₀ f.1.start.lc (tells f.1.hist.journal) := by simp [f, h]
  have h1 : Aged s₀ s1.start.lc (tells s1.hist.journal) := State.poisonAll_aged hf _
  have h2 : Aged s₀ s2.start.lc (tells s2.hist.journal) := foldl_aged _ (fun t q ht => by simp [ht]) _ h1
  clear_value s2 s1
  split
  · simp [h1]
  · split <;> simp [s3, h2]

@[simp] theorem State.restoreStep_aged (k : TaskKey) (ev : Ev) :
    Aged s₀ (s.restoreStep k ev).start.lc (tells (s.restoreStep k ev).hist.journal) := by
  unfold State.restoreStep
  (repeat' split) <;> simp [h]

@[simp] theorem State.copNews_aged (k : TaskKey) :
    Aged s₀ (s.copNews k).start.lc (tells (s.copNews k).hist.journal) := by
  unfold State.copNews
  repeat' (first | split | dsimp only)
  all_goals simp [h]

@[simp] theorem State.foldedOwn_aged (ctx job step : Nat) :
    Aged s₀ (s.foldedOwn ctx job step).start.lc (tells (s.foldedOwn ctx job step).hist.journal) := by
  unfold State.foldedOwn
  split
  · exact keeps_ite (K := fun t => Aged s₀ t.start.lc (tells t.hist.journal)) h
      (foldl_aged _ (fun t k ht => State.copNews_aged ht k) _ (by simp [h]))
  · exact h

end

end Sys2Proof.Machine
end

section
/-!
Proof, what every command keeps: the index of the next signature, the module number, the count of starts, and a life-cycle state that its
history tells (R465, R474, R480, R486, R546). One pass over the commands; the starts, ADMISSION and PWR_FAIL stand apart.
-/

namespace Sys2Proof.Machine

/-! ## Attestation counts up -/

theorem State.attSign_xidx (s : State) (nonce : List Byte) (secs : Nat) (flashOk : Bool) :
    s.start.flash.xidx ≤ (s.attSign nonce secs flashOk).s.start.flash.xidx := by
  unfold State.attSign
  extract_lets f i r
  (repeat' split) <;> simp [i, f]

@[simp] theorem State.attAnswer_xidx (s : State) (req : List Byte) (secs : Nat) (flashOk : Bool) :
    s.start.flash.xidx ≤ (s.attAnswer req secs flashOk).s.start.flash.xidx := by
  unfold State.attAnswer
  split
  case h_3 => exact s.attSign_xidx _ _ _
  all_goals exact Nat.le_refl _

@[simp] theorem State.attServe_xidx (s : State) (doe : Bool) (code : Nat) (req : List Byte) (secs : Nat) (flashOk : Bool) :
    s.start.flash.xidx ≤ (s.attServe doe code req secs flashOk).start.flash.xidx := by
  have hpop (q : List Byte) : s.start.flash.xidx ≤ (s.attPop.attAnswer q secs flashOk).s.start.flash.xidx := s.attPop.attAnswer_xidx _ _ _
  unfold State.attServe
  (repeat' split) <;> simp [AttAns.intoDoe, AttAns.intoMail, hpop]

@[simp] theorem State.doAttest_xidx (s : State) (p : Pkt) (secs : Nat) (flashOk : Bool) :
    s.start.flash.xidx ≤ (s.doAttest p secs flashOk).start.flash.xidx := by
  unfold State.doAttest
  extract_lets dst queued hub mail s1 a v
  have ha : s.start.flash.xidx ≤ a.s.start.flash.xidx := by
    refine Nat.le_trans (Nat.le_of_eq ?_) (s1.attPop.attAnswer_xidx p.pay secs flashOk)
    dsimp only [s1]
    split <;> rfl
  have h1 : s1.start = s.start := by
    dsimp only [s1]
    split <;> rfl
  clear_value a
  split
  · exact Nat.le_refl _
  · split
    · simp
    · split
      · simp [h1]
      · split
        · simp [ha]
        · split
          · simp [ha]
          · rw [foldl_xidx _ (fun u w => by simp)]
            exact ha

@[simp] theorem State.runPacket_xidx (s : State) (p : Pkt) (f : PktFind) : s.start.flash.xidx ≤ (s.runPacket p f).start.flash.xidx := by
  unfold State.runPacket
  iterate 17 refine keeps_ite (K := fun t => s.start.flash.xidx ≤ t.start.flash.xidx) (by simp) ?_
  simp

@[simp] theorem State.takeForward_xidx (s : State) (rx : Rx) (pid : Nat) (words : List Word) (pay : List Byte) (f : PktFind) :
    s.start.flash.xidx ≤ (s.takeForward rx pid words pay f).start.flash.xidx := by
  unfold State.takeForward
  split
  · exact Nat.le_refl _
  · extract_lets p hub s1
    have hrun : s.start.flash.xidx ≤ (s1.runPacket p f).start.flash.xidx := s1.runPacket_xidx p f
    split
    · simp [s1]
    · exact hrun

/-! ## What endures -/

/-- Since the state `s` the signature's index has not fallen, module number and count of starts are as they were, and the life-cycle state has
stayed or moved on with its record. -/
def Endures (s t : State) : Prop :=
  s.start.flash.xidx ≤ t.start.flash.xidx ∧ t.hub.module = s.hub.module ∧ t.start.starts = s.start.starts ∧
    Aged s t.start.lc (tells t.hist.journal)

theorem Endures.refl (s : State) : Endures s s := ⟨Nat.le_refl _, rfl, rfl, Aged.refl s⟩

theorem Endures.of_eq {s t u : State} (h : Endures s t) (hs : u.start = t.start) (hm : u.hub.module = t.hub.module) (hh : u.hist = t.hist) :
    Endures s u := by
  obtain ⟨hx, hmod, hst, ha⟩ := h
  exact ⟨by rw [hs]; exact hx, hm.trans hmod, by rw [hs]; exact hst, by rw [hs, hh]; exact ha⟩

theorem Endures.foldl {s : State} {β : Type} {g : State → β → State} {l : List β} {t : State} (h : Endures s t)
    (hg : ∀ (u : State) b, Endures s u → Endures s (g u b)) : Endures s (l.foldl g t) := by
  induction l generalizing t with
  | nil => exact h
  | cons b l ih => exact ih (hg t b h)

theorem Endures.guard {s t : State} (h : Endures s t) (x : Site) (ev : Ev) (as : List Access) {go : State → State}
    (hgo : ∀ u : State, Endures s u → Endures s (go u)) : Endures s (t.guard x ev as go) := by
  obtain ⟨hx, hm, hst, ha⟩ := h
  unfold State.guard
  split
  · simp [Endures, hx, hm, hst, ha]
  · split
    · exact ⟨hx, hm, hst, ha⟩
    · exact hgo _ (by simp [Endures, hx, hm, hst, ha])

theorem Endures.groupTake {s t : State} (h : Endures s t) (rx : Rx) (op : Opcode) (desc occ : Nat) (b : Body)
    {take : State → Nat → Option State} (htake : ∀ (u : State) l v, Endures s u → take u l = some v → Endures s v) :
    Endures s (t.groupTake rx op desc occ b take) := by
  unfold State.groupTake
  split
  · exact h
  · split
    · exact h
    · rename_i k l hhome
      extract_lets u
      have hu : Endures s u := h.of_eq (by simp [u]) (by simp [u]) (by simp [u])
      split
      · rename_i v hv
        split at hv
        · exact htake u l v hu hv
        · contradiction
      · exact hu.of_eq (by simp) (by simp) (by simp)


/-! ## Outcomes -/

/-- A next state that the outcome gives is one in which what endures has endured. -/
def Endured (s : State) (o : Out) : Prop := ∀ t, o = .next t → Endures s t

section
variable {s : State} {o : Out}

theorem Endured.next {t : State} (h : Endures s t) : Endured s (.next t) := fun _ ht => by
  cases ht
  exact h

theorem Endured.passing {c : Prop} [Decidable c] (h : Endured s o) : Endured s (if c then o else .fault .noSuchUnit) := by
  split
  · exact h
  · exact fun _ ht => nomatch ht

theorem Endured.onCluster {l : Nat} (h : Endured s o) : Endured s (onCluster l o) := .passing h

theorem Endured.onPhys {p : Nat} (h : Endured s o) : Endured s (onPhys p o) := .passing h

theorem Endured.onPort {p : Nat} (h : Endured s o) : Endured s (onPort p o) := .passing h

theorem Endured.onHub (h : Endured s o) : Endured s (onHub s o) := by
  unfold Machine.onHub
  split
  · exact h
  · exact .next (.refl s)

theorem Endured.onPkt {id type : Nat} {f : Pkt → State} (h : ∀ p, Endures s (f p)) : Endured s (onPkt id type s f) := by
  refine .next ?_
  (repeat' split) <;> simp [h, Endures.refl]

theorem Endured.arrive {rx : Rx} {b : Body} {f : State → State} (h : ∀ u : State, Endures s u → Endures s (f u)) :
    Endured s (s.arrive rx b f) := by
  have htaken (u : State) (hu : Endures s u) : Endures s (if u.start.stage == .minimal && !b.minimal then u else f u) := by
    split
    · exact hu
    · exact h u hu
  unfold State.arrive
  split
  · refine .onPort (.next ?_)
    split
    · exact .refl s
    · split
      · have hr : Endures s (s.received rx b) := (Endures.refl s).of_eq (by simp) (by simp) (by simp)
        exact (htaken _ hr).of_eq (by simp) (by simp) (by simp)
      · exact (Endures.refl s).of_eq (by simp) (by simp) (by simp)
  · refine .next ?_
    split
    · exact htaken s (.refl s)
    · exact .refl s

end

/-! ## Operations whose rules stood open -/

@[simp] theorem State.beginTune_lc (s : State) (c : Nat) : (s.beginTune c).start.lc = s.start.lc := by
  unfold State.beginTune
  repeat' (first | split | dsimp only)
  all_goals simp

@[simp] theorem State.runSol_starts (s : State) (x : Site) (o : SolOp) (ev : Ev) : (s.runSol x o ev).start.starts = s.start.starts := by
  unfold State.runSol
  split
  · exact State.guard_starts _ _ _ _ _ fun t => by simp
  · rfl

@[simp] theorem State.breakCycles_told (fuel : Nat) (es : List (TaskKey × TaskKey)) (s : State) :
    tells (State.breakCycles fuel es s).hist.journal = tells s.hist.journal := by
  induction fuel generalizing es s with
  | zero => rfl
  | succ fuel ih =>
    rw [State.breakCycles]
    split
    · rfl
    · dsimp only
      split
      · rfl
      · rw [ih]
        simp

@[simp] theorem State.noReference_told (s : State) : tells s.noReference.hist.journal = tells s.hist.journal := rfl

@[simp] theorem State.cut_told (s : State) : tells s.cut.hist.journal = tells s.hist.journal := rfl

@[simp] theorem State.testsDone_start (s : State) : s.testsDone.start.lc = s.start.lc ∧ s.testsDone.start.starts = s.start.starts := by
  unfold State.testsDone
  split <;> simp

@[simp] theorem foldl_phase_told (rails : List Nat) (h : Hist) : tells (rails.foldl Hist.phase h).journal = tells h.journal :=
  foldl_keeps (fun h : Hist => tells h.journal) _ (fun g _ => Hist.phase_told g _) _ h

/-! ## Commands with a case split of their own -/

theorem execIdent_endures (s : State) (rx : Rx) (module farPort variant stepping : Nat) (mapId : Word) :
    Endured s (execIdent rx module farPort variant stepping mapId s) := by
  unfold execIdent
  split
  · refine .onPort (.next ?_)
    split <;> simp [Endures]
  · exact .next (.refl s)

theorem execDoorbellWrite_endures (s : State) (ring : Nat) (value : Word) (enables : Nat) : Endured s (execDoorbellWrite ring value enables s) := by
  unfold execDoorbellWrite
  split
  · exact fun _ ht => nomatch ht
  · refine .next ?_
    split <;> simp [Endures]

theorem execOpticalEngineFailover_endures (s : State) (group engine : Nat) : Endured s (execOpticalEngineFailover group engine s) := by
  unfold execOpticalEngineFailover
  split
  · exact fun _ ht => nomatch ht
  · refine .onHub (.next ?_)
    split <;> simp [Endures]

theorem execEdgeWindowExpiry_endures (s : State) (loss : EdgeLoss) : Endured s (execEdgeWindowExpiry loss s) := by
  obtain ⟨edge, fault⟩ := loss
  cases edge with
  | host | flash => exact .onHub (.next (by simp [Endures, Start.edgeOut]))
  | hbm k => exact .passing (.onHub (.next (by simp [Endures, Start.edgeOut])))
  | serdes p => exact .onPort (.onHub (.next (by simp [Endures, Start.edgeOut])))

theorem execFabricRead_endures (s : State) (rx : Rx) (addr n : Nat) (ev : Ev) : Endured s (execFabricRead rx addr n ev s) := by
  unfold execFabricRead
  split
  · exact .next (.refl s)
  · exact .arrive fun _ ⟨hx, hm, hst, ha⟩ => by simp [Endures, hx, hm, hst, ha]

theorem execScrubRead_endures (s : State) (page : Nat) (fixed : List Nat) (ev : Ev) : Endured s (execScrubRead page fixed ev s) := by
  refine .next ?_
  split
  · exact .refl s
  · split
    · exact .refl s
    · refine Endures.foldl (by simp [Endures]) fun t a ⟨hx, hm, hst, ha⟩ => ?_
      simp [Endures, hx, hm, hst, ha]

theorem execMemRd_endures (s : State) (off : Nat) (ev : Ev) : Endured s (execMemRd off ev s) := by
  refine .next ?_
  extract_lets o a bad s1 s2 poison
  have h1 : Endures s s1 := (Endures.refl s).foldl fun t a ⟨hx, hm, hst, ha⟩ => by simp [Endures, hx, hm, hst, ha]
  have h2 : Endures s s2 := by
    obtain ⟨hx, hm, hst, ha⟩ := h1
    dsimp only [s2]
    split <;> simp [Endures, hx, hm, hst, ha]
  split
  · exact .refl s
  · exact h2.of_eq rfl rfl rfl

theorem execCxlReset_endures (s : State) : Endured s (execCxlReset s) := by
  refine .next ?_
  split
  · exact .refl s
  · extract_lets s1
    have h1 : Endures s s1 := (Endures.refl s).foldl fun t n ⟨hx, hm, hst, ha⟩ => by simp [Endures, hx, hm, hst, ha]
    exact h1.of_eq rfl (foldl_keeps Hub.module _ (fun _ _ => by simp) _ _) rfl

theorem execLaneBerWindow_endures (s : State) (port : Nat) (counts : List Nat) : Endured s (execLaneBerWindow port counts s) := by
  refine .onPort (.next ?_)
  split
  · exact .refl s
  · refine Endures.foldl (by simp [Endures]) fun t i ⟨hx, hm, hst, ha⟩ => ?_
    simp [Endures, hx, hm, hst, ha]

/-! ## Every command -/

/-- Starts, ADMISSION and PWR_FAIL: the commands that read the history, count a start, or may tear a record. -/
def Instr.restarts : Instr → Bool
  | .start _ | .moduleReset _ | .leaveService _ | .admission | .pwrFail _ => true
  | _ => false

theorem exec_endures (c : Instr) (hc : Instr.restarts c = false) (s : State) : Endured s (exec c s) := by
  cases c with
  | start | moduleReset | leaveService | admission | pwrFail => contradiction
  | nopPacket | data | read | load | unload | run | suspend | resume | ctlWritePacket | ctlRead | solDelta | restore | contextReset
    | ringOpen | ringClose | fwImage | attest =>
    exact .onPkt fun _ => by simp [Endures]
  | wcCheck =>
    exact .onCluster (.next (by simp [Endures]))
  | entryComplete | chain | factor | solve | collective | exchange | signal | ctlWrite | iterEnd | stepEnd | halt | mm | mmTa | mmTb | gramL
    | gramR | reduce | fold | exportPlane | refresh | stream | copy | release | send =>
    refine .onCluster (.next ?_)
    (repeat' split) <;> simp [Endures]
  | issueDecision | refreshBlock | entryTimeout | signalResend | migration | suspendAtBoundary =>
    exact .onCluster (.next (by simp [Endures]))
  | forcedMigration | differenceStreamRead =>
    refine .onCluster (.next ?_)
    (repeat' split) <;> simp [Endures]
  | engineReset | subst | ctrClCommit | pause | drlCmdResume | drlCommit | tilCommit | chnCommit | clusterQuiesce =>
    exact .onCluster (.onHub (.next (by simp [Endures])))
  | tuneUpComplete => exact .onPhys (.next (by simp [Endures]))
  | tuneUpDue | thermalLower =>
    refine .onPhys (.onHub (.next ?_))
    repeat' (first | split | dsimp only)
    all_goals simp [Endures]
  | portTrain | link | badMsg | flitReplay | portDown =>
    refine .onPort (.next ?_)
    (repeat' split) <;> simp [Endures]
  | portUp =>
    refine .onPort (.next ?_)
    repeat' (first | split | dsimp only)
    all_goals simp [Endures]
  | optCommit | solCommit | memCommit | hdgCommit | hubCommit | tstCommit | tstTuneCommit | ctrCommit | pwrCommit | memPageCmd
    | enterService | fuseProposed | fuseSvn | recheck | fhQuery | snap | clear =>
    exact .onHub (.next (by simp [Endures]))
  | registerWrite | tuneNow | rotateOut | clearRail | snapDomain | readinessWindowEnd | periodicDump | issueGating =>
    refine .onHub (.next ?_)
    (repeat' split) <;> simp [Endures]
  | governorLower | governorRaise =>
    refine .onHub (.next ?_)
    repeat' (first | split | dsimp only)
    all_goals simp [Endures]
  | vote | outcome | signalMessage | abort | join | leave | linkState =>
    dsimp only [exec, execVote, execOutcome, execSignalMessage, execAbort, execJoin, execLeave, execLinkState]
    exact .arrive fun _ ⟨hx, hm, hst, ha⟩ => by simp [Endures, hx, hm, hst, ha]
  | topoReport | drained =>
    dsimp only [exec, execTopoReport, execDrained]
    refine .arrive fun _ ⟨hx, hm, hst, ha⟩ => ?_
    (repeat' split) <;> simp [Endures, hx, hm, hst, ha]
  | packetForward =>
    dsimp only [exec, execPacketForward]
    exact .arrive fun _ ⟨hx, hm, hst, ha⟩ => ⟨hx.trans (State.takeForward_xidx ..), by simp [hm], by simp [hst], by simp [ha]⟩
  | write | ack | readData | nack | fwChunk | fwAck =>
    dsimp only [exec, execWrite, execAck, execReadData, execNack, execFwChunk, execFwAck]
    exact .arrive fun _ ⟨hx, hm, hst, ha⟩ => by simp [Endures, hx, hm, hst, ha]
  | switch =>
    dsimp only [exec, execSwitch]
    refine .arrive fun _ ⟨hx, hm, hst, ha⟩ => ?_
    (repeat' split) <;> simp [Endures, hx, hm, hst, ha]
  | restoreInStep | coppiceWaitExpiry | deadlineExpiry | collectiveTimeout | getIdentity | getMeasurements | attestRequest | getBudget
    | memSpecRd | deadlockScan | capEffUpdate | hubMgmtStateRead | pwrStatusRead | pwrInputRead | pwrThermalRead | smbClkTimeout =>
    exact .next (by simp [Endures])
  | coppiceFold | pendingDeltaApply | managedLeave | memInv | linkReset | flr | referenceMissing | stage6Timeout
    | scanSelfTest | memorySelfTest | interlockBreak | flowTrip | hubIdentRead | smbAlertResponse | suspendWinExpiry | retrain
    | moduleResetTimeout | temperatureWait | junctionTrip =>
    refine .next ?_
    (repeat' split) <;> simp [Endures]
  | packetIntake | pageMoveComplete | faultDrivenMove | memWr | routeDrainDone =>
    refine .next ?_
    repeat' (first | split | dsimp only)
    all_goals simp [Endures]
  | optimise =>
    refine .onCluster (.next ?_)
    split
    · split
      · exact (Endures.refl s).guard _ _ _ fun t ⟨hx, hm, hst, ha⟩ => by simp [Endures, hx, hm, hst, ha]
      · exact .refl s
    · exact .refl s
  | digest =>
    refine .onCluster (.next ?_)
    split
    · exact (Endures.refl s).guard _ _ _ fun t ⟨hx, hm, hst, ha⟩ => by simp [Endures, hx, hm, hst, ha]
    · exact .refl s
  | part | result | carry =>
    dsimp only [exec, execPart, execResult, execCarry]
    refine .arrive fun _ h => h.groupTake _ _ _ _ _ fun _ _ _ hu ht => ?_
    obtain ⟨-, -, -, hhub, -, hstart, hhist, -⟩ := State.stepColl_some ht
    exact hu.of_eq hstart (by rw [hhub]) hhist
  | count =>
    dsimp only [exec, execCount]
    refine .arrive fun _ h => h.groupTake _ _ _ _ _ fun _ _ _ hu ht => ?_
    obtain ⟨-, -, -, hhub, -, hstart, hhist, -⟩ := State.stepExch_some ht
    exact hu.of_eq hstart (by rw [hhub]) hhist
  | edgeClockResume => exact .next (by simp [Endures, Start.edgeClock])
  | chipletReset => exact .passing (.onHub (.next (by simp [Endures])))
  | regulatorPhaseFailure =>
    refine .passing (.next ?_)
    dsimp only
    (repeat' split) <;> simp [Endures]
  | chargeWindowExpiry => exact .passing (.next (by simp [Endures]))
  | ident rx module farPort variant stepping mapId => exact execIdent_endures s rx module farPort variant stepping mapId
  | doorbellWrite => exact execDoorbellWrite_endures s _ _ _
  | opticalEngineFailover => exact execOpticalEngineFailover_endures s _ _
  | edgeWindowExpiry => exact execEdgeWindowExpiry_endures s _
  | fabricRead => exact execFabricRead_endures s _ _ _ _
  | scrubRead => exact execScrubRead_endures s _ _ _
  | memRd => exact execMemRd_endures s _ _
  | cxlReset => exact execCxlReset_endures s
  | laneBerWindow => exact execLaneBerWindow_endures s _ _

/-! ## The commands that stand apart -/

/-- A history that tells them goes on to. -/
theorem Aged.recorded {s t : State} (h : Aged s t.start.lc (tells t.hist.journal)) (hst : t.start.starts = s.start.starts) (hr : s.Recorded) :
    t.Recorded := by
  obtain ⟨hs, hl⟩ := State.recorded_iff.mp hr
  obtain ⟨ht, ⟨hlc, hlt⟩ | ⟨-, hlt⟩⟩ := h
  · exact State.recorded_iff.mpr ⟨by rw [ht, hs, hst], by rw [hlt, hlc, hl]⟩
  · exact State.recorded_iff.mpr ⟨by rw [ht, hs, hst], by rw [hlt]; rfl⟩

theorem Aged.moved {s : State} {lc : LifeCycle} {told : Option Nat × Option LifeCycle} (h : Aged s lc told) :
    lc = s.start.lc ∨ s.start.lc.onward lc = true := by
  obtain ⟨-, ⟨hlc, -⟩ | ⟨ho, -⟩⟩ := h
  · exact .inl hlc
  · exact .inr ho

/-- Stages 3 and 4 read the count of starts and the life-cycle state out of the history. -/
theorem State.verified_reads (s : State) : s.verified.start.starts = (tells s.hist.journal).1.getD 0 ∧
    s.verified.start.lc = (tells s.hist.journal).2.getD s.start.lc.factory ∧ tells s.verified.hist.journal = tells s.hist.journal := by
  simp [State.verified, LifeCycle.factory]

/-- While the history tells them, a start takes up the count and the state that the module has. -/
theorem State.runStart_endures {s : State} (h : s.Recorded) (f : StartFind) : Endures s (s.runStart f) := by
  obtain ⟨hs, hl⟩ := State.recorded_iff.mp h
  obtain ⟨hvs, hvl, hvt⟩ := (s.calibrated f).verified_reads
  simp only [State.calibrated_keeps, hs, hl] at hvs hvl hvt
  unfold State.runStart
  dsimp only
  (repeat' split) <;> simp [Endures, hvs, hvl, hvt]

theorem State.leaveService_endures (s : State) : Endures s s.leaveService := by
  unfold State.leaveService
  split <;> simp [Endures]

/-- The placing of logical numbers leaves the life-cycle state, LEAVE_SERVICE and the count of starts. -/
theorem placeLogicals_cycle (x : Start) (c : Nat) : (placeLogicals x c).lc = x.lc ∧ (placeLogicals x c).leaving = x.leaving ∧
    (placeLogicals x c).starts = x.starts := by
  let q : Start → LifeCycle × Bool × Nat := fun x => (x.lc, x.leaving, x.starts)
  have hq : q (placeLogicals x c) = q x := by
    unfold placeLogicals
    dsimp only
    iterate 3
      refine (foldl_keeps q _ ?_ _ _).trans ?_
      · intro s b
        (repeat' split) <;> simp [q, Start.upd]
    rfl
  simpa [q] using hq

theorem placeAll_cycle (l : List Nat) (x : Start) : (l.foldl placeLogicals x).lc = x.lc ∧ (l.foldl placeLogicals x).leaving = x.leaving ∧
    (l.foldl placeLogicals x).starts = x.starts := by
  induction l generalizing x with
  | nil => simp
  | cons c l ih => simp [ih, placeLogicals_cycle]

/-- Moves of R480 that ADMISSION makes, by whether LEAVE_SERVICE brought it. -/
def LifeCycle.admitted (leaving : Bool) : LifeCycle → LifeCycle → Bool
  | .deployed, .drain => true
  | .service, .deployed | .service, .drain => leaving
  | _, _ => false

/-- ADMISSION counts the start, and its record tells the count and the life-cycle state that it leaves. -/
theorem State.admission_tells (s : State) : s.admission.start.starts = s.start.starts + 1 ∧
    tells s.admission.hist.journal = (some (s.start.starts + 1), some s.admission.start.lc) ∧
    (s.admission.start.lc = s.start.lc ∨ s.start.lc.admitted s.start.leaving s.admission.start.lc = true) := by
  unfold State.admission
  extract_lets n hist x0 x y lc z cause hist2 s1
  obtain ⟨hlc, hleave, hstarts⟩ : y.lc = s.start.lc ∧ y.leaving = s.start.leaving ∧ y.starts = n := placeAll_cycle _ x
  have hmove : lc = s.start.lc ∨ s.start.lc.admitted s.start.leaving lc = true := by
    dsimp only [lc]
    rw [hlc, hleave]
    cases s.start.lc <;> dsimp only <;> (repeat' split) <;> simp_all [LifeCycle.admitted]
  simpa [s1, z, hist2, hstarts, n] using hmove

/-! ## What a command carries over -/

/-- What the command `c`, which brings `s` to `t`, leaves of the module's identity and budget, and of what the history tells of them; of
PWR_FAIL alone it may tear the history's last record. -/
structure Carries (c : Instr) (s t : State) : Prop where
  index : s.start.flash.xidx ≤ t.start.flash.xidx
  starts : s.Recorded → t.start.starts = s.start.starts
  moved : s.Recorded → t.start.lc = s.start.lc ∨ s.start.lc.onward t.start.lc = true
  recorded : s.Recorded → (∀ x, c = .pwrFail x → x.torn = false) → t.Recorded
  module : t.hub.module ≠ s.hub.module → ∃ f, c = .start f

theorem Endures.carries {c : Instr} {s t : State} (h : Endures s t) : Carries c s t := by
  obtain ⟨hx, hm, hst, ha⟩ := h
  exact ⟨hx, fun _ => hst, fun _ => ha.moved, fun hr _ => ha.recorded hst hr, fun hne => absurd hm hne⟩

/-- A start, from a state with the identity and the history of `s`. -/
theorem carries_runStart {c : Instr} {s u : State} (hs : u.start.flash.xidx = s.start.flash.xidx ∧ u.start.starts = s.start.starts ∧
    u.start.lc = s.start.lc ∧ tells u.hist.journal = tells s.hist.journal) (hm : u.hub.module ≠ s.hub.module → ∃ f, c = .start f)
    (found : StartFind) : Carries c s (u.runStart found) := by
  obtain ⟨hx, hst, hlc, htold⟩ := hs
  have hu (hr : s.Recorded) : Endures u (u.runStart found) :=
    State.runStart_endures (by simpa [State.recorded_iff, hst, hlc, htold] using hr) found
  have ha (hr : s.Recorded) : Aged s (u.runStart found).start.lc (tells (u.runStart found).hist.journal) := by
    obtain ⟨-, -, -, ha⟩ := hu hr
    simpa [Aged, hlc, htold] using ha
  have hn (hr : s.Recorded) : (u.runStart found).start.starts = s.start.starts := (hu hr).2.2.1.trans hst
  refine ⟨by simp [hx], hn, fun hr => (ha hr).moved, fun hr _ => (ha hr).recorded (hn hr) hr, ?_⟩
  rwa [(u.runStart_keeps found).2.2.2]

theorem execStart_carries (found : StartFind) (s t : State) (h : execStart found s = .next t) : Carries (.start found) s t := by
  unfold execStart at h
  cases h
  dsimp only
  split
  · split
    · exact (Endures.refl s).carries
    · split
      · exact carries_runStart (s := s) (by exact ⟨rfl, rfl, rfl, rfl⟩) (fun _ => ⟨found, rfl⟩) found
      · exact Endures.carries (by simp [Endures])
  · split
    · exact carries_runStart (s := s) (by exact ⟨rfl, rfl, rfl, rfl⟩) (fun _ => ⟨found, rfl⟩) found
    · exact (Endures.refl s).carries

theorem execModuleReset_carries (found : StartFind) (s t : State) (h : execModuleReset found s = .next t) :
    Carries (.moduleReset found) s t := by
  unfold execModuleReset at h
  cases h
  split
  · exact carries_runStart (by simp) (by simp) found
  · exact (Endures.refl s).carries

theorem execLeaveService_carries (found : StartFind) (s t : State) (h : execLeaveService found s = .next t) :
    Carries (.leaveService found) s t := by
  unfold execLeaveService onHub at h
  split at h
  · cases h
    split
    · rename_i hl
      exact carries_runStart (by simp [State.leaveService, hl]) (by simp [State.leaveService, hl]) found
    · exact Endures.carries (by simp [Endures])
  · cases h
    exact (Endures.refl s).carries

theorem execPwrFail_carries (cut : Cut) (s t : State) (h : execPwrFail cut s = .next t) : Carries (.pwrFail cut) s t := by
  unfold execPwrFail at h
  cases h
  split
  · cases htorn : cut.torn with
    | false => exact Endures.carries (by simp [Endures])
    | true => exact ⟨by simp, by simp, by simp, fun _ ht => absurd (ht cut rfl) (by simp [htorn]), by simp⟩
  · exact (Endures.refl s).carries

theorem exec_carries {c : Instr} (hc : c ≠ .admission) {s t : State} (h : exec c s = .next t) : Carries c s t := by
  cases hr : Instr.restarts c with
  | false => exact (exec_endures c hr s t h).carries
  | true =>
    cases c with
    | start found => exact execStart_carries found s t h
    | moduleReset found => exact execModuleReset_carries found s t h
    | leaveService found => exact execLeaveService_carries found s t h
    | pwrFail cut => exact execPwrFail_carries cut s t h
    | admission => contradiction
    | _ => exact Bool.noConfusion hr

/-! ## The statements -/

/-- Settles O5, by one pass over the commands: attestation alone raises the index, a start alone reads the straps, ADMISSION alone counts, with
the record that tells the new count. -/
theorem identityAndBudgetPersist : Obligations.IdentityAndBudgetPersist := by
  unfold Obligations.IdentityAndBudgetPersist
  intro c s t h
  by_cases hc : c = .admission
  · subst hc
    cases h
    split
    · obtain ⟨hst, htold, -⟩ := s.admission_tells
      exact ⟨by simp, fun _ => ⟨by simp [hst], fun _ => State.recorded_iff.mpr (by simp [htold, hst])⟩, by simp⟩
    · refine ⟨?_, fun hr => ⟨?_, fun _ => ?_⟩, ?_⟩ <;> split <;> simp_all [State.Recorded, State.replayed]
  · obtain ⟨hx, hst, -, hr, hm⟩ := exec_carries hc h
    exact ⟨hx, fun h => ⟨Nat.le_of_eq (hst h).symm, hr h⟩, hm⟩

/-- Settles O6: DRAIN and ENTER_SERVICE move the state on, with a record that the next start reads; ADMISSION moves it by its own table. -/
theorem lifeCycleMovesAsTheTableSays : Obligations.LifeCycleMovesAsTheTableSays := by
  unfold Obligations.LifeCycleMovesAsTheTableSays
  intro c s t h hr hne
  by_cases hc : c = .admission
  · subst hc
    cases h
    split at hne
    · rename_i hs
      rw [if_pos hs]
      obtain ⟨-, -, hl | hl⟩ := s.admission_tells
      · exact absurd hl hne
      · revert hl
        cases s.start.lc <;> cases s.admission.start.lc <;> simp_all [LifeCycle.admitted]
    · split at hne <;> exact absurd rfl hne
  · obtain hl | hl := (exec_carries hc h).moved hr
    · exact absurd hl hne
    · revert hl
      cases s.start.lc <;> cases t.start.lc <;> simp [LifeCycle.onward]

end Sys2Proof.Machine
end

section
/-!
Proof, the start and the halts (O12 to O16, O20): what a start, a halt, a cut and a module reset leave of the module (R94, R469 to R471, R477,
R482 to R486, R511, R512, R543 to R547).
-/

namespace Sys2Proof.Machine

/-! ## The physical clusters, all at once -/

theorem Start.cluster_of_map {x y : Start} {f : PCl → PCl} (h : y.pcl = x.pcl.map f) {p : Nat} (hp : p < x.pcl.length) :
    y.cluster p = f (x.cluster p) := by
  simp [Start.cluster, h, hp]

theorem Start.cluster_of_zipMap {x y : Start} {f : PCl × Nat → PCl} (h : y.pcl = x.pcl.zipIdx.map f) {p : Nat} (hp : p < x.pcl.length) :
    y.cluster p = f (x.cluster p, p) := by
  simp [Start.cluster, h, hp]

/-! ## What the module gives up -/

@[simp] theorem State.dropAll_empty (s : State) : s.dropAll.jobs = [] ∧ s.dropAll.hub.tasks = [] ∧ s.dropAll.hub.rings = Hub.reset.rings ∧
    s.dropAll.hist.journal = s.hist.journal ∧ s.dropAll.hist.units = s.hist.units ∧ s.dropAll.hist.hours = s.hist.hours ∧
    s.dropAll.hist.drainCause = s.hist.drainCause ∧ s.dropAll.pwr.on = s.pwr.on := by
  simp [State.dropAll, Hub.reset, Power.reCap]

/-- The stores read zero once the module has given up its memory. -/
theorem State.dropAll_stores (s : State) {a : Nat} (h : storeBase ≤ a) (h' : a < storeBase + 128 * storeStride) :
    Cells.byte s.dropAll.mem a = 0 := by
  simp only [State.dropAll, State.clearedMem, Cells.byte_zero, if_pos (And.intro h h')]
  rfl

/-- A halt as R471, R512 and R555 give it: HALT_CAUSE is up, and of jobs, tasks and rings context 0's rings alone are left. -/
structure State.Halted (t : State) (cause : Nat) : Prop where
  stage : t.start.stage = .halted
  cause : t.start.halt = cause
  alert : t.pwr.alert = true
  jobs : t.jobs = []
  tasks : t.hub.tasks = []
  rings : t.hub.rings = Hub.reset.rings

theorem State.haltWith_halted (s : State) (cause : Nat) : (s.haltWith cause).Halted cause := by
  constructor <;> simp [State.haltWith, State.alert]

theorem State.haltWith_rails (s : State) (cause : Nat) {p : Nat} (hp : p < s.start.pcl.length) :
    ((s.haltWith cause).start.cluster p).railOn = false := by
  rw [Start.cluster_of_map (x := s.start) (f := fun c => { c with railOn := false, tuning := false, was := none }) rfl hp]

theorem State.noReference_halted (s : State) : s.noReference.Halted haltRef := State.haltWith_halted _ _

theorem State.noReference_rails (s : State) {p : Nat} (hp : p < s.start.pcl.length) : (s.noReference.start.cluster p).railOn = false :=
  State.haltWith_rails _ _ (by simpa using hp)

/-! ## What a start finds -/

/-- Findings with which a start reaches stage 6. -/
def State.Sound (s : State) (f : StartFind) : Prop :=
  f.refMissing = false ∧ oscOk f.hubOsc = true ∧ f.flashOk = true ∧ s.start.flash.takeConf.failMask = 0

section
variable {s : State} {f : StartFind}

theorem State.runStart_noReference (h : f.refMissing = true) : s.runStart f = s.noReference := by
  simp [State.runStart, h]

theorem State.runStart_badOsc (h : f.refMissing = false) (ho : oscOk f.hubOsc = false) : s.runStart f = (s.calibrated f).haltWith haltOsc := by
  simp [State.runStart, h, ho]

theorem State.runStart_noFlash (h : f.refMissing = false) (ho : oscOk f.hubOsc = true) (hf : f.flashOk = false) :
    s.runStart f = (s.calibrated f).haltWith haltFlash := by
  simp [State.runStart, h, ho, hf]

theorem State.runStart_read (h : f.refMissing = false) (ho : oscOk f.hubOsc = true) (hf : f.flashOk = true) :
    s.runStart f = (s.calibrated f).verified.railsUp := by
  simp [State.runStart, h, ho, hf]

/-- The rails come up where every image is sound, and else stay down, all alike. -/
theorem State.railsUp_rails (s : State) {p : Nat} (hp : p < s.start.pcl.length) :
    (s.railsUp.start.cluster p).railOn = decide (s.start.imgFail = 0) := by
  rw [Start.cluster_of_map (x := s.start) (f := fun c => { c with railOn := decide (s.start.imgFail = 0) }) rfl hp]

theorem State.runStart_minimal (h : f.refMissing = false) (ho : oscOk f.hubOsc = true) (hf : f.flashOk = true)
    (hm : s.start.flash.takeConf.failMask ≠ 0) : (s.runStart f).start.stage = .minimal ∧
      (s.runStart f).start.imgFail = s.start.flash.takeConf.failMask ∧
      ∀ p, p < s.start.pcl.length → ((s.runStart f).start.cluster p).railOn = false := by
  have hv : (s.calibrated f).verified.start.imgFail = s.start.flash.takeConf.failMask := rfl
  rw [State.runStart_read h ho hf]
  refine ⟨if_neg (by rwa [hv]), hv, fun p hp => ?_⟩
  · rw [State.railsUp_rails _ (by simpa using hp), hv, decide_eq_false hm]

/-- A sound start reaches stage 6 with every rail on and nothing loaded. -/
theorem State.runStart_rails (h : s.Sound f) : (s.runStart f).start.stage = .rails ∧ (s.runStart f).start.halt = 0 ∧
    (∀ p, p < s.start.pcl.length → ((s.runStart f).start.cluster p).railOn = true) ∧ (s.runStart f).jobs = [] ∧
    (s.runStart f).hub.tasks = [] ∧ (s.runStart f).hub.rings = Hub.reset.rings ∧ (s.runStart f).start.quick = s.start.quick ∧
    (s.runStart f).pwr.on = s.pwr.on := by
  obtain ⟨hr, ho, hf, hm⟩ := h
  have hv : (s.calibrated f).verified.start.imgFail = 0 := hm
  rw [State.runStart_read hr ho hf]
  refine ⟨if_pos hv, rfl, fun p hp => ?_, rfl, rfl, rfl, rfl, rfl⟩
  rw [State.railsUp_rails _ (by simpa using hp), hv]
  rfl

/-- What a sound start reads out of the history. -/
theorem State.runStart_history (h : s.Sound f) : (s.runStart f).hist.hours = s.hist.hours ∧ (s.runStart f).hist.journal = s.hist.journal ∧
    (s.runStart f).hist.units = s.replayed.units := by
  obtain ⟨hr, ho, hf, -⟩ := h
  rw [State.runStart_read hr ho hf]
  exact ⟨rfl, rfl, rfl⟩

theorem State.runStart_stores (h : s.Sound f) {a : Nat} (hlo : storeBase ≤ a) (hhi : a < storeBase + 128 * storeStride) :
    Cells.byte (s.runStart f).mem a = 0 := by
  obtain ⟨hr, ho, hf, -⟩ := h
  rw [State.runStart_read hr ho hf]
  simpa [State.verified] using State.dropAll_stores _ hlo hhi

end

/-! ## What the history says of units (R491, R498) -/

/-- The units that a journal tells do not depend on the life-cycle state in which the module left its factory. -/
theorem replayJournal_units (l : List JRec) (lc lc' : LifeCycle) : (replayJournal l lc).units = (replayJournal l lc').units := by
  have hfold (is : List JItem) (r r' : Replay) (h : r.units = r'.units) :
      (is.foldl Replay.step r).units = (is.foldl Replay.step r').units := by
    induction is generalizing r r' with
    | nil => exact h
    | cons i is ih => exact ih _ _ (by cases i <;> simp [Replay.step, h])
  exact hfold _ _ _ rfl

/-! ## Stage 6 (R484) -/

theorem temperatures_ok (temps : List Nat) : temps.all (fun t => 15 ≤ t ∧ t ≤ 90) = true ↔ ∀ x ∈ temps, 15 ≤ x ∧ x ≤ 90 := by
  simp

/-- The readings of stage 6 taken. -/
def State.withReadings (s : State) (temps : List Nat) : State :=
  { s with start := { s.start with
      hubTj := temps.getD 0 0, pcl := s.start.pcl.zipIdx.map (fun c => { c.1 with tj := temps.getD (c.2 + 1) 0 }) } }

theorem exec_temperatureWait {s : State} {temps : List Nat} (hs : s.start.stage = .rails) (hn : temps.length = 137) :
    exec (.temperatureWait temps) s = .next (if ∀ x ∈ temps, 15 ≤ x ∧ x ≤ 90 then
      ({ s.withReadings temps with start := { (s.withReadings temps).start with stage := .test } } : State).alert
      else s.withReadings temps) := by
  have hok : (temps.length = 137 ∧ temps.all (fun t => 15 ≤ t ∧ t ≤ 90) = true) ↔ ∀ x ∈ temps, 15 ≤ x ∧ x ≤ 90 := by
    rw [temperatures_ok, and_iff_right hn]
  exact congrArg Host.Outcome.next ((if_pos hs).trans (if_congr hok rfl rfl))

theorem State.withReadings_tj (s : State) (temps : List Nat) {p : Nat} (hp : p < s.start.pcl.length) :
    ((s.withReadings temps).start.cluster p).tj = temps.getD (p + 1) 0 := by
  rw [Start.cluster_of_zipMap (x := s.start) (f := fun c => { c.1 with tj := temps.getD (c.2 + 1) 0 }) rfl hp]

/-- Settles O12, by the one condition on the readings: with it the stage ends, without it only the readings are taken. -/
theorem stageSixWaitsForEveryJunction : Obligations.StageSixWaitsForEveryJunction := by
  unfold Obligations.StageSixWaitsForEveryJunction
  intro s temps hs hn
  refine ⟨_, exec_temperatureWait hs hn, ?_⟩
  split
  · rename_i hok
    exact ⟨by simpa using hok, .inl rfl, rfl, fun p hp => s.withReadings_tj temps hp, rfl⟩
  · rename_i hbad
    have hst : (s.withReadings temps).start.stage = .rails := hs
    exact ⟨by simpa [hst] using hbad, .inr hs, rfl, fun p hp => s.withReadings_tj temps hp, rfl⟩

/-! ## Straps and findings (R94, R469, R471, R477, R543, R546) -/

/-- A start that does not find what it needs halts, or goes to the minimal hub state. -/
theorem State.runStart_unsound (u : State) (f : StartFind) :
    (f.refMissing = true → (u.runStart f).Halted 1 ∧ ∀ p, p < u.start.pcl.length → ((u.runStart f).start.cluster p).railOn = false) ∧
    (f.refMissing = false → oscOk f.hubOsc = false →
      (u.runStart f).Halted 2 ∧ ∀ p, p < u.start.pcl.length → ((u.runStart f).start.cluster p).railOn = false) ∧
    (f.refMissing = false → oscOk f.hubOsc = true → f.flashOk = false →
      (u.runStart f).Halted 3 ∧ ∀ p, p < u.start.pcl.length → ((u.runStart f).start.cluster p).railOn = false) := by
  refine ⟨fun h => ?_, fun h ho => ?_, fun h ho hf => ?_⟩
  · rw [State.runStart_noReference h]
    exact ⟨u.noReference_halted, fun p hp => u.noReference_rails hp⟩
  · rw [State.runStart_badOsc h ho]
    exact ⟨State.haltWith_halted _ _, fun p hp => State.haltWith_rails _ _ (by simpa using hp)⟩
  · rw [State.runStart_noFlash h ho hf]
    exact ⟨State.haltWith_halted _ _, fun p hp => State.haltWith_rails _ _ (by simpa using hp)⟩

/-- The module powered, its straps not yet read. -/
def State.powered (s : State) : State :=
  { s with pwr := { s.pwr with on := true, ilk := true }, start := { s.start with quick := false } }

/-- The straps read. -/
def State.strapped (s : State) (f : StartFind) : State := { s.powered with hub := { s.hub with module := f.straps % 4096 } }

section
variable {s : State} {f : StartFind}

theorem exec_start_waits (hm : s.mayStart = true) (hv : f.vin < 48000 ∨ 58000 < f.vin) : exec (.start f) s = .next s := by
  simp [exec, execStart, hm, hv]

theorem exec_start_badStraps (hm : s.mayStart = true) (hlo : 48000 ≤ f.vin) (hhi : f.vin ≤ 58000) (hp : strapsOk f.straps f.parity = false) :
    exec (.start f) s = .next (s.powered.haltWith haltParity) := by
  simp [exec, execStart, hm, hp, Nat.not_lt.mpr hlo, Nat.not_lt.mpr hhi, State.powered]

theorem exec_start_strapped (hm : s.mayStart = true) (hlo : 48000 ≤ f.vin) (hhi : f.vin ≤ 58000) (hp : strapsOk f.straps f.parity = true) :
    exec (.start f) s = .next ((s.strapped f).runStart f) := by
  simp [exec, execStart, hm, hp, Nat.not_lt.mpr hlo, Nat.not_lt.mpr hhi, State.strapped, State.powered]

theorem exec_start_again (hm : s.mayStart = false) (hc : s.start.stage = .calibrate) : exec (.start f) s = .next (s.runStart f) := by
  simp [exec, execStart, hm, hc]

theorem exec_referenceMissing (hm : s.mayStart = true) :
    exec .referenceMissing s = .next ({ s with pwr := { s.pwr with on := true, ilk := true } } : State).noReference := by
  simp [exec, execReferenceMissing, hm]

end

/-- Settles O13, by the branches of a start: each finding that halts, the image that fails, and the sound start to stage 6. -/
theorem startSamplesTheStraps : Obligations.StartSamplesTheStraps := by
  unfold Obligations.StartSamplesTheStraps
  intro s f sound halted unsound started
  have hhalted {u t : State} {cause : Nat} (hn : u.start.pcl.length = s.start.pcl.length)
      (h : t.Halted cause ∧ ∀ p, p < u.start.pcl.length → (t.start.cluster p).railOn = false) : halted cause t :=
    ⟨h.1.stage, h.1.cause, fun p hp => h.2 p (by rwa [hn])⟩
  have hunsound {u : State} (hx : exec (.start f) s = .next (u.runStart f)) (hn : u.start.pcl.length = s.start.pcl.length)
      (hflash : u.start.flash = s.start.flash) : unsound := by
    obtain ⟨href, hosc, hread⟩ := u.runStart_unsound f
    refine ⟨fun h => ⟨_, hx, hhalted hn (href h)⟩, fun h ho => ⟨_, hx, hhalted hn (hosc h ho)⟩,
      fun h ho hf => ⟨_, hx, hhalted hn (hread h ho hf)⟩, fun h ho hf hm => ⟨_, hx, ?_⟩⟩
    rw [← hn, ← hflash]
    exact State.runStart_minimal h ho hf (by rwa [hflash])
  have hstarted {u : State} (hs : u.Sound f) (hn : u.start.pcl.length = s.start.pcl.length) : started (u.runStart f) := by
    obtain ⟨hst, hh, hon, hj, ht, -⟩ := State.runStart_rails hs
    exact ⟨hst, hh, fun p hp => hon p (by rwa [hn]), hj, ht⟩
  refine ⟨fun hm => ⟨exec_start_waits hm, fun hlo hhi hp => ?_, fun hlo hhi hp hs => ?_, fun hlo hhi hp => ?_, ?_⟩, fun hm hc => ⟨?_, fun hs => ?_⟩⟩
  · obtain ⟨hst, hcause, -⟩ := s.powered.haltWith_halted haltParity
    exact ⟨_, exec_start_badStraps hm hlo hhi hp, hst, hcause, (State.haltWith_keeps _ _).2.2.2.2.2⟩
  · have hsound : (s.strapped f).Sound f := hs
    obtain ⟨-, -, -, -, -, -, -, hon⟩ := State.runStart_rails hsound
    exact ⟨_, exec_start_strapped hm hlo hhi hp, hstarted hsound rfl, hon, (State.runStart_keeps _ _).2.2.2⟩
  · exact hunsound (exec_start_strapped hm hlo hhi hp) rfl rfl
  · exact ⟨_, exec_referenceMissing hm, hhalted rfl ⟨State.noReference_halted _, fun p hp => State.noReference_rails _ hp⟩⟩
  · exact hunsound (exec_start_again hm hc) rfl rfl
  · exact ⟨_, exec_start_again hm hc, hstarted hs rfl, (State.runStart_keeps _ _).2.2.2⟩

/-! ## Halts (R471, R512, R550, R555) -/

/-- Settles O15: each of the four commands reaches `haltWith` with its cause. -/
theorem haltsRemoveTheRails : Obligations.HaltsRemoveTheRails := by
  unfold Obligations.HaltsRemoveTheRails
  intro s p tj flow halted
  have hhalted {u : State} (cause : Nat) (hn : u.start.pcl.length = s.start.pcl.length) : halted cause (u.haltWith cause) := by
    obtain ⟨hst, hcause, halert, hj, ht, hr⟩ := u.haltWith_halted cause
    exact ⟨hst, hcause, halert, fun k hk => u.haltWith_rails cause (by rwa [hn]), hj, ht, hr⟩
  refine ⟨fun hs => ⟨_, ?_, hhalted 4 (u := s) rfl⟩, fun hs hq hon => ⟨_, ?_, hhalted 5 (u := s) rfl⟩, fun ha htj => ?_, fun ha hf => ⟨_, ?_, hhalted 8 (u := { s with pwr := { s.pwr with flow } }) rfl⟩⟩
  · simp [exec, execStage6Timeout, hs, haltStage6]
  · simp [exec, execModuleResetTimeout, hs, hq, hon, haltReset]
  · cases p with
    | none => exact ⟨_, by simp [exec, execJunctionTrip, ha, htj, haltJunction], hhalted 7 (u := { s with start := { s.start with hubTj := tj } }) rfl⟩
    | some p =>
      exact ⟨_, by simp [exec, execJunctionTrip, ha, htj, haltJunction],
        hhalted 7 (u := { s with start := s.start.upd p (fun c => { c with tj }) }) (by simp)⟩
  · simp [exec, execFlowTrip, ha, hf, haltFlow]

/-! ## Module reset (R469, R471, R474, R511, R514) -/

theorem exec_moduleReset {s : State} (h : s.alive = true) (f : StartFind) : exec (.moduleReset f) s = .next (s.moduleReset.runStart f) := by
  simp [exec, execModuleReset, h]

/-- Settles O20: the start that a module reset makes, from the state that the reset leaves. -/
theorem moduleResetDropsJobs : Obligations.ModuleResetDropsJobs := by
  unfold Obligations.ModuleResetDropsJobs
  intro s f ha
  refine ⟨fun h => ⟨_, exec_moduleReset ha f, ?_⟩, fun h ho hf hm => ⟨_, exec_moduleReset ha f, ?_⟩⟩
  · rw [State.runStart_noReference h]
    obtain ⟨hst, hcause, -, hj, -, -⟩ := s.moduleReset.noReference_halted
    exact ⟨hst, hcause, hj⟩
  · have hs : s.moduleReset.Sound f := ⟨h, ho, hf, hm⟩
    obtain ⟨hst, -, -, hj, ht, hr, hq, -⟩ := State.runStart_rails hs
    obtain ⟨hh, hjournal, hu⟩ := State.runStart_history hs
    refine ⟨hst, hq, hj, ht, hr, by simp, hh, hjournal, ?_, fun a hlo hhi => State.runStart_stores hs hlo hhi⟩
    rw [hu, State.replayed, State.replayed, hjournal]
    exact replayJournal_units _ _ _

/-! ## Cuts (R544, R547) -/

/-- Refutes O16: the cut gives up the counters of the history's window, so a history that counts a rotation comes out of it changed. -/
theorem not_orderlyCutKeepsFlashAndHistory : ¬ Obligations.OrderlyCutKeepsFlashAndHistory := by
  unfold Obligations.OrderlyCutKeepsFlashAndHistory
  intro h
  obtain ⟨t, ht, -, -, -, -, -, -, -, -, hhist, -⟩ :=
    h { State.reset with hist := { State.reset.hist with rotations := 1 } } .interlockBreak ⟨0, false⟩ rfl (.inr ⟨rfl, rfl⟩)
  cases ht
  have hrot := congrArg Hist.rotations (hhist rfl)
  exact absurd hrot (by decide)

/-! ## Self tests (R482, R483, R485) -/

theorem ScanRun.passes_osc (stepping ceiling : Nat) (set : List ScanPass) (f : ScanFind) (r : ScanRun) :
    (ScanRun.passes stepping ceiling set f r).cell.osc = r.cell.osc := by
  unfold ScanRun.passes
  refine foldl_keeps (fun r : ScanRun => r.cell.osc) _ (fun _ _ => ?_) _ _
  rfl

/-- A cluster whose oscillator is out of range fails its scan. -/
theorem ScanRun.verdict_badOsc {r : ScanRun} (h : oscOk r.cell.osc = false) : r.verdict.1 = true := by
  simp [ScanRun.verdict, h]

theorem State.testsDone_stage (s : State) (hs : s.start.stage = .test) :
    s.testsDone.start.stage = .admission ↔ s.start.scanDone = true ∧ s.start.memDone = true := by
  unfold State.testsDone
  split <;> simp_all [State.alert]

@[simp] theorem State.testsDone_tests (s : State) : s.testsDone.start.pcl = s.start.pcl ∧ s.testsDone.start.scanDone = s.start.scanDone ∧
    s.testsDone.start.memDone = s.start.memDone ∧ s.testsDone.start.nearSoft = s.start.nearSoft ∧ s.testsDone.pages = s.pages := by
  unfold State.testsDone
  split <;> simp

/-- Settles O14: either test ends in `testsDone`, which waits for the other; ADMISSION by what its record tells. -/
theorem selfTestsLeadToReady : Obligations.SelfTestsLeadToReady := by
  unfold Obligations.SelfTestsLeadToReady
  intro s scans mem
  refine ⟨fun hs hd => ⟨_, congrArg Host.Outcome.next (if_pos ⟨hs, by simp [hd]⟩), ?_⟩,
    fun hs hd => ⟨_, congrArg Host.Outcome.next (if_pos ⟨hs, by simp [hd]⟩), ?_⟩,
    fun hs => ⟨_, congrArg Host.Outcome.next (if_pos hs), ?_⟩⟩
  · refine ⟨by simp, (State.testsDone_stage _ (by exact hs)).trans (by simp), fun p hp ho => ?_, by simp, by simp⟩
    · rw [Start.cluster_of_zipMap (x := s.start) ((State.testsDone_tests _).1.trans List.map_map) hp]
      simp [ScanRun.verdict_badOsc, ScanRun.passes_osc, ho]
  · refine ⟨by simp, (State.testsDone_stage _ (by exact hs)).trans (by simp), fun g => by simp, fun k hk => ?_, fun c hc => ?_, by simp, by simp⟩
    · simp [hk]
    · simp [hc]
  · obtain ⟨hst, htold, -⟩ := s.admission_tells
    exact ⟨rfl, hst, rfl, State.recorded_iff.mpr (by simp [htold, hst]), by simp, by simp⟩

end Sys2Proof.Machine
end

section
/-!
Proof, readiness and the management bus (O10, O23): the checks of R489 and what their outcome leaves (R489 to R491); the words of the bus
(R549, R550, R558) and a hub that carries out no command (R512, R544).
-/

namespace Sys2Proof.Machine

/-- A command to a hub that runs. -/
theorem onHub_alive {s : State} (h : s.alive = true) (o : Out) : onHub s o = o := if_pos h

/-- A command to a hub that is off or has halted. -/
theorem onHub_dead {s : State} (h : s.alive = false) (o : Out) : onHub s o = .next s := if_neg (by simp [h])

/-- A charge to a lane is kept in the history alone. -/
theorem State.charge_lane (s : State) (index cause : Nat) :
    s.charge 3 index cause = { s with hist := s.hist.charge s.start.starts 3 index cause } := by
  unfold State.charge
  split <;> rfl

/-- Lanes of the window above the limit (R422, R489). -/
def State.wornLanes (s : State) (worst : List (Nat × Nat)) : List (Nat × Nat) :=
  if (s.readyChecks worst).2 then worst.filter (fun w => w.2 > s.readyLimit) else []

/-- What the checks leave at the entry module. -/
theorem State.recheck_spec {s : State} (he : s.isEntry = true) (worst : List (Nat × Nat)) :
    (s.recheck worst).start = { s.start with
      domainReady := (s.readyChecks worst).1, berChecked := (s.readyChecks worst).2, winOn := !(s.wornLanes worst).isEmpty } ∧
    (s.recheck worst).jobs = s.jobs ∧ (s.recheck worst).hub = s.hub ∧
    (s.wornLanes worst = [] → (s.recheck worst).fab = s.fab ∧ (s.recheck worst).hist = s.hist) := by
  unfold State.recheck
  rw [if_neg (by simp [he])]
  dsimp only
  have hkeep (worn : List (Nat × Nat)) := foldl_keeps (fun t : State => (t.start, t.jobs, t.hub))
    (fun t w => ({ t with fab := { t.fab with ports := updAt t.fab.ports (w.1 / 9) (fun q => (({ q with
      corr := (List.range 9).map (fun i => if i = w.1 % 9 then w.2 else 0) } : Port).berWindow 0).1) } } : State).charge 3 w.1 0x08)
    (fun t w => by rw [State.charge_lane]) worn s
  obtain ⟨hstart, hjobs, hhub⟩ : _ ∧ _ ∧ _ := by simpa only [Prod.mk.injEq] using hkeep (s.wornLanes worst)
  refine ⟨?_, hjobs, hhub, fun hnone => ?_⟩
  · exact congrArg (fun x : Start => { x with
      domainReady := (s.readyChecks worst).1, berChecked := (s.readyChecks worst).2, winOn := !(s.wornLanes worst).isEmpty }) hstart
  · rw [State.wornLanes] at hnone
    rw [hnone]
    exact ⟨rfl, rfl⟩

/-- Settles O23, by what the checks leave; the end of a window that runs at the entry module is a recheck. -/
theorem readinessFollowsTheChecks : Obligations.ReadinessFollowsTheChecks := by
  unfold Obligations.ReadinessFollowsTheChecks
  intro s worst ha
  have hre : exec (.recheck worst) s = .next (s.recheck worst) := onHub_alive ha _
  have hend : exec (.readinessWindowEnd worst) s = .next (if s.isEntry && s.start.winOn then s.recheck worst else s) := onHub_alive ha _
  refine ⟨fun he => ⟨_, hre, ?_⟩, fun he => ?_, fun he hw => ⟨?_, fun hall => ⟨_, hend, ?_⟩⟩, fun hno => ?_⟩
  · obtain ⟨hstart, hjobs, hhub, -⟩ := State.recheck_spec he worst
    rw [hstart]
    exact ⟨rfl, rfl, rfl, hjobs, hhub⟩
  · rw [hre, State.recheck, if_pos (by simp [he])]
  · rw [hend, hre, he, hw]
    rfl
  · have hnone : s.wornLanes worst = [] := by
      unfold State.wornLanes
      split
      · simpa using hall
      · rfl
    obtain ⟨hstart, -, -, hrest⟩ := State.recheck_spec he worst
    obtain ⟨hfab, hhist⟩ := hrest hnone
    rw [if_pos (by simp [he, hw])]
    refine ⟨?_, hfab, hhist⟩
    rw [hstart, hnone]
    rfl
  · rw [hend, if_neg (by obtain h | h := hno <;> simp [h])]

/-! ## The management bus (R108, R445, R549, R550, R558) -/

theorem State.blockRead_of_on {s : State} (h : s.pwr.on = true) (w : Word) :
    s.blockRead w = { s with hub := { s.hub with served := some (leBytes 8 w.toNat, false) } } := if_pos h

/-- The codes of stages and of life-cycle states fit their four bits. -/
theorem Stage'.code_lt (x : Stage') : x.code < 16 := by cases x <;> decide

theorem LifeCycle.code_lt (x : LifeCycle) : x.code < 16 := by cases x <;> decide

theorem bit_eq_fld (w : Word) (n : Nat) : bit w n = decide (fld w n n = 1) := by
  rw [fld, Nat.sub_self, Nat.zero_add, pow_one, Nat.shiftRight_eq_div_pow, bit, BitVec.getLsbD, Nat.testBit_eq_decide_div_mod_eq]

/-- Fields of HUB_MGMT_STATE (R550). -/
theorem State.mgmt_fields {s : State} (hh : s.start.halt < 256) (hd : s.hist.drainCause < 16) :
    fld s.mgmt 63 60 = s.start.stage.code ∧ fld s.mgmt 59 56 = s.start.lc.code ∧ fld s.mgmt 55 48 = s.start.halt ∧
    fld s.mgmt 47 44 = s.hist.drainCause ∧ fld s.mgmt 43 43 = b2n s.pwr.ilk ∧ fld s.mgmt 42 42 = b2n s.pwr.linkFail ∧ fld s.mgmt 41 0 = 0 := by
  have hs := s.start.stage.code_lt
  have hl := s.start.lc.code_lt
  have hb (b : Bool) : b2n b % 2 = b2n b := by cases b <;> rfl
  simp [State.mgmt, fld_or, fld_mkFld_self, fld_mkFld_above, fld_mkFld_below, Nat.mod_eq_of_lt, hs, hl, hh, hd, hb]

/-- Settles O10, by the block read of a powered hub, the fields of its state word, and `onHub`, which a hub that has halted does not pass. -/
theorem managementBusServesItsWords : Obligations.ManagementBusServesItsWords := by
  unfold Obligations.ManagementBusServesItsWords
  refine ⟨?_, ?_, ?_⟩
  · intro s code serve
    refine ⟨fun hon => ?_, rfl⟩
    have hread (w : Word) : Host.Outcome.next (s.blockRead w) = (.next (serve w) : Out) := congrArg _ (State.blockRead_of_on hon w)
    refine ⟨hread _, hread _, hread _, hread _, fun hlo hhi => ?_, congrArg Host.Outcome.next (if_pos hon)⟩
    exact (congrArg Host.Outcome.next (if_pos ⟨hlo, hhi⟩)).trans (hread _)
  · intro s hh hd
    obtain ⟨hst, hlc, hhalt, hdrain, hilk, hlink, hrest⟩ := State.mgmt_fields hh hd
    have hb (b : Bool) : decide (b2n b = 1) = b := by cases b <;> rfl
    exact ⟨hst, hlc, hhalt, hdrain, by rw [bit_eq_fld, hilk, hb], by rw [bit_eq_fld, hlink, hb], hrest⟩
  · intro s c l ctx off v h hl hc
    have hcluster (o : Out) : onCluster l (onHub s o) = .next s := (if_pos hl).trans (onHub_dead h o)
    simp only [List.mem_cons, List.not_mem_nil, or_false] at hc
    obtain rfl | rfl | rfl | rfl | hc := hc
    iterate 4 exact hcluster _
    obtain rfl | rfl | rfl | rfl | rfl | rfl | rfl | rfl | rfl | rfl | hc := hc
    iterate 10 exact onHub_dead h _
    obtain rfl | rfl | rfl | hc := hc
    iterate 3 exact hcluster _
    obtain rfl | rfl | rfl | rfl | rfl | rfl | rfl | rfl | rfl | rfl | rfl | rfl := hc
    all_goals exact onHub_dead h _

end Sys2Proof.Machine
end

section
/-!
Proof, cap and governor (O17): CAP_EFF follows flow and inlet (R555), the governor's choice among the rails (R556), and a cluster that is
too hot (R557).
-/

namespace Sys2Proof.Machine

/-! ## CAP_EFF (R555) -/

theorem capEffOf_le (cap flow flowMin inlet : Nat) : capEffOf cap flow flowMin inlet ≤ cap := by
  unfold capEffOf
  extract_lets f hot
  refine Nat.div_le_of_le_mul ?_
  calc cap * f * (100 - 4 * hot) ≤ cap * (10 * flowMin) * 100 :=
        Nat.mul_le_mul (Nat.mul_le_mul_left _ (Nat.min_le_right _ _)) (Nat.sub_le _ _)
    _ = 10 * flowMin * 100 * cap := by ring

theorem Power.reCap_capEff_le (p : Power) (l : Limits) : (p.reCap l).capEff ≤ fld p.cfg 63 48 := by
  unfold Power.reCap
  dsimp only
  split
  · exact capEffOf_le _ _ _ _
  · exact Nat.le_refl _

theorem Power.reCap_full {p : Power} {l : Limits} (hf : 10 * l.flowMin ≤ p.flow) (ht : p.tin ≤ 45) :
    (p.reCap l).capEff = fld p.cfg 63 48 ∧ (p.reCap l).derate = false := by
  simp [Power.reCap, Nat.not_lt.mpr hf, Nat.not_lt.mpr ht]

/-! ## The governor's choice (R556) -/

/-- A cluster that is better than every other one of the list is the one picked. -/
theorem pickBy_eq {better : Nat → Nat → Bool} {ps : List Nat} {p : Nat} (hp : p ∈ ps)
    (hbest : ∀ q ∈ ps, q ≠ p → better p q = true ∧ better q p = false) : pickBy better ps = some p := by
  have hfold (ps : List Nat) (o : Option Nat) (hps : ∀ q ∈ ps, q ≠ p → better p q = true ∧ better q p = false)
      (ho : ∀ q, o = some q → q ≠ p → better p q = true) (hp : p ∈ ps ∨ o = some p) :
      ps.foldl (fun o p => match o with | some q => if better p q then some p else some q | none => some p) o = some p := by
    induction ps generalizing o with
    | nil => simpa using hp
    | cons x xs ih =>
      have hxs := fun q hq => hps q (List.mem_cons_of_mem x hq)
      have hx := hps x (List.mem_cons_self ..)
      refine ih _ hxs (fun q hq hne => ?_) ?_
      · cases o with
        | none =>
          obtain rfl := Option.some.inj hq
          exact (hx hne).1
        | some r =>
          dsimp only at hq
          split at hq <;> obtain rfl := Option.some.inj hq
          · exact (hx hne).1
          · exact ho _ rfl hne
      · by_cases hxp : x = p
        · refine .inr ?_
          subst hxp
          cases o with
          | none => rfl
          | some r =>
            by_cases hr : r = x
            · simp [hr]
            · simp [ho r rfl hr]
        · refine hp.imp (fun h => (List.mem_cons.mp h).resolve_left (Ne.symm hxp)) fun h => ?_
          simp [h, (hx hxp).2]
  exact hfold ps none hbest (by simp) (.inl hp)

section
variable {s : State} {p : Nat}

/-- The highest rail that can be lowered is the governor's choice. -/
theorem State.pick_highest (hp : p < 136) (hl : s.lowerable p = true)
    (hbest : ∀ q, q < 136 → s.lowerable q = true → s.railOf q ≤ s.railOf p ∧ (s.railOf q = s.railOf p → q ≠ p → s.rankOf q < s.rankOf p)) :
    pickBy (fun p q => s.railOf q < s.railOf p || (s.railOf p == s.railOf q && s.rankOf q < s.rankOf p))
      ((List.range 136).filter s.lowerable) = some p := by
  refine pickBy_eq (by simp [hp, hl]) fun q hq hne => ?_
  obtain ⟨hlt, hlow⟩ : q < 136 ∧ s.lowerable q = true := by simpa using hq
  obtain ⟨hle, htie⟩ := hbest q hlt hlow
  by_cases heq : s.railOf q = s.railOf p
  · have hrank := htie heq hne
    simp [heq, hrank, Nat.le_of_lt hrank]
  · have hlt' : s.railOf q < s.railOf p := Nat.lt_of_le_of_ne hle heq
    simp [hlt', heq, Nat.le_of_lt hlt']

/-- The lowest rail that has gone down, not for heat, is the one that is raised. -/
theorem State.pick_lowest (hp : p < 136) (hd : 0 < (s.start.cluster p).down) (ht : (s.start.cluster p).therm = false)
    (hbest : ∀ q, q < 136 → 0 < (s.start.cluster q).down → (s.start.cluster q).therm = false →
      s.railOf p ≤ s.railOf q ∧ (s.railOf p = s.railOf q → q ≠ p → s.rankOf p < s.rankOf q)) :
    pickBy (fun p q => s.railOf p < s.railOf q || (s.railOf p == s.railOf q && s.rankOf p < s.rankOf q))
      ((List.range 136).filter (fun p => (s.start.cluster p).down > 0 && !(s.start.cluster p).therm)) = some p := by
  refine pickBy_eq (by simp [hp, hd, ht]) fun q hq hne => ?_
  obtain ⟨hlt, hdown, htherm⟩ : q < 136 ∧ 0 < (s.start.cluster q).down ∧ (s.start.cluster q).therm = false := by simpa using hq
  obtain ⟨hle, htie⟩ := hbest q hlt hdown htherm
  by_cases heq : s.railOf p = s.railOf q
  · have hrank := htie heq hne
    simp [heq, hrank, Nat.le_of_lt hrank]
  · have hlt' : s.railOf p < s.railOf q := Nat.lt_of_le_of_ne hle heq
    simp [hlt', Ne.symm heq, Nat.le_of_lt hlt']

/-! ## A cluster that is too hot (R557) -/

/-- The cluster's reading taken, and the cluster marked as held for heat. -/
def State.heated (s : State) (p tj : Nat) : State :=
  { s with start := (s.start.upd p (fun c => { c with tj })).upd p (fun c => { c with therm := true }) }

theorem State.heated_cluster (hp : p < s.start.pcl.length) (tj q : Nat) :
    (s.heated p tj).start.cluster q = if q = p then { s.start.cluster p with tj, therm := true } else s.start.cluster q := by
  rw [State.heated, Start.cluster_upd (by simpa using hp), Start.cluster_upd hp]
  split
  · subst q
    rfl
  · rfl

/-- Whether a rail can be lowered does not depend on the reading, or on the mark. -/
theorem State.heated_lowerable (hp : p < s.start.pcl.length) (tj : Nat) : (s.heated p tj).lowerable p = s.lowerable p := by
  unfold State.lowerable State.railOf
  rw [State.heated_cluster hp, if_pos rfl]
  rfl

theorem State.heated_lower (hp : p < s.start.pcl.length) (tj q : Nat) : ((s.heated p tj).lower p).start.cluster q =
    if q = p then { s.start.cluster p with tj, therm := true, down := (s.start.cluster p).down + 1 } else s.start.cluster q := by
  rw [State.lower, Start.cluster_upd (by simpa [State.heated] using hp), State.heated_cluster hp]
  split <;> rfl

theorem exec_thermalLower {tj : Nat} (ha : s.alive = true) (hn : s.start.pcl.length = 136) (hp : p < 136) (hlim : fld s.pwr.cfg 35 28 < tj)
    (hl : s.lowerable p = true) : exec (.thermalLower p tj) s = .next ((s.heated p tj).lower p) := by
  refine (if_pos hp).trans ((onHub_alive ha _).trans (congrArg Host.Outcome.next ?_))
  have hlow : (s.heated p tj).lowerable p = true := (State.heated_lowerable (hn ▸ hp) tj).trans hl
  exact (if_pos (by simp [hlim])).trans (if_pos hlow)

end

/-- Settles O17: the cap by its formula, the governor by the one best rail, heat by the one cluster's record. -/
theorem capAndGovernorFollowTheReadings : Obligations.CapAndGovernorFollowTheReadings := by
  unfold Obligations.CapAndGovernorFollowTheReadings
  refine ⟨fun s flow inlet outlet => ⟨_, rfl, rfl, rfl, ?_, fun hf ht => ?_⟩, fun s m p tj ha hn => ⟨fun hcap hp hl hbest => ?_,
    fun hcap hp hd ht hbest => ?_, fun hp hlim hl => ?_, fun hnone => ?_, onHub_alive ha _⟩⟩
  · exact Power.reCap_capEff_le { s.pwr with flow, tin := inlet, tout := outlet } _
  · exact Power.reCap_full (p := { s.pwr with flow, tin := inlet, tout := outlet }) hf ht
  · refine (onHub_alive ha _).trans (congrArg Host.Outcome.next ?_)
    dsimp only
    rw [if_pos (by exact hcap), State.pick_highest (s := s.metered m) hp hl hbest]
  · refine (onHub_alive ha _).trans (congrArg Host.Outcome.next ?_)
    dsimp only
    rw [if_pos (by exact hcap), State.pick_lowest (s := s.metered m) hp hd ht hbest]
    rfl
  · have hlower := State.heated_lower (s := s) (hn ▸ hp) tj
    exact ⟨_, exec_thermalLower ha hn hp hlim hl, (hlower p).trans (if_pos rfl), fun q hq => (hlower q).trans (if_neg hq), rfl⟩
  · refine (onHub_alive ha _).trans (congrArg Host.Outcome.next ?_)
    rw [if_pos rfl, if_neg (by simpa using hnone)]

end Sys2Proof.Machine
end

section
/-!
Proof, writes of the hub itself (R105, R366, R377), and snaps (O11): one dump record in the next slot of the ring (R530 to R533).
-/

namespace Sys2Proof.Machine

/-! ## Writes that land now -/

/-- Writes of the hub that can all land do so. -/
theorem State.hubStore_of_lands {s : State} {ws : List (Nat × List Byte)} (h : ∀ w ∈ ws, s.lands w.1 w.2.length = true) :
    s.hubStore ws = s.store ws := by
  have hall : ws.filter (fun w => s.lands w.1 w.2.length) = ws := List.filter_eq_self.2 h
  have hnone : ws.filter (fun w => !(s.lands w.1 w.2.length)) = [] := List.filter_eq_nil_iff.2 fun w hw => by simp [h w hw]
  rw [State.hubStore, hall, hnone, List.map_nil, List.append_nil]

theorem State.storeHdm_of_lands {s : State} {off : Nat} {bs : List Byte} (h : ∀ w ∈ hdmPieces off bs, s.lands w.1 w.2.length = true) :
    s.storeHdm [(off, bs)] = s.store (hdmPieces off bs) := by
  rw [State.storeHdm, List.flatMap_cons, List.flatMap_nil, List.append_nil, State.hubStore_of_lands h]

/-- A string written in the window, cut where its blocks end, reads there as written. -/
theorem byte_write_hdmPieces {m : Cells} (hm : Cells.wf m = true) (off : Nat) {bs : List Byte} {i : Nat} (hi : i < bs.length) :
    Cells.byte (Cells.writeAll m (hdmPieces off bs)) (hdmLocal (off + i)) = bs[i] := by
  refine Cells.byte_writeAll_of_agree hm (hdmPieces_cover off bs hi) fun w hw j hj hplace => ?_
  obtain ⟨k, hpiece⟩ := hdmPiece_of_mem hw
  obtain ⟨hat, hbyte⟩ := hpiece j hj
  have hkj : k + j = i := Nat.add_left_cancel (hdmLocal_injective (hat.symm.trans hplace))
  rw [hkj, List.getElem?_eq_getElem hi] at hbyte
  exact (Option.some.inj hbyte).symm

/-- Every byte of a piece has its place in the string. -/
theorem place_of_hdmPiece {off a : Nat} {bs : List Byte} {w : Nat × List Byte} (hw : w ∈ hdmPieces off bs) (hle : w.1 ≤ a)
    (hlt : a < w.1 + w.2.length) : ∃ i, i < bs.length ∧ a = hdmLocal (off + i) := by
  obtain ⟨k, hpiece⟩ := hdmPiece_of_mem hw
  obtain ⟨hat, hbyte⟩ := hpiece (a - w.1) (by omega)
  exact ⟨k + (a - w.1), (List.getElem?_eq_some_iff.1 hbyte).1, by rw [← hat, Nat.add_sub_cancel' hle]⟩

theorem byte_write_hdmPieces_other (m : Cells) {off : Nat} {bs : List Byte} {a : Nat} (h : ∀ i < bs.length, a ≠ hdmLocal (off + i)) :
    Cells.byte (Cells.writeAll m (hdmPieces off bs)) a = Cells.byte m a := by
  refine Cells.byte_writeAll_other _ _ _ fun w hw ⟨hle, hlt⟩ => ?_
  obtain ⟨i, hi, ha⟩ := place_of_hdmPiece hw hle hlt
  exact h i hi ha

/-! ## Snaps (R530 to R533) -/

/-- The record of a snap. -/
def State.snapRecord (s : State) (domain : Bool) : List Byte :=
  dumpRecord (if domain then s.entryOf else s.ctr.dumps) s.me domain s.ctr.clear
    (s.clusters.map (fun k => k.drl.st == .running)) (s.clusters.map (·.ctr)) s.ctr.chip s.ctr.hub

/-- Its slot in the dump ring. -/
def State.snapSlot (s : State) : Nat := fld s.ctr.dumpBase 51 0 + s.ctr.dumps % max 1 (fld s.ctr.cfg 55 48) * 0x40000

/-- The dump counted, and the counters cleared where CLEAR was asked for. -/
def State.dumped (s : State) : State :=
  let t : State := { s with ctr := { s.ctr with dumps := (s.ctr.dumps + 1) % 2 ^ 32, clear := false } }
  if s.ctr.clear then
    { t with
      clusters := s.clusters.map (fun k => { k with ctr := List.replicate 128 0 })
      ctr := { t.ctr with chip := List.replicate 8 (List.replicate 128 0), hub := List.replicate 64 0 } }
  else t

theorem State.dumped_keeps (s : State) : s.dumped.mem = s.mem ∧ s.dumped.pages = s.pages ∧ s.dumped.start = s.start ∧
    s.dumped.ctr.dumps = (s.ctr.dumps + 1) % 2 ^ 32 ∧ s.dumped.ctr.clear = false := by
  unfold State.dumped
  dsimp only
  split <;> exact ⟨rfl, rfl, rfl, rfl, rfl⟩

theorem State.dumped_counters (s : State) :
    (s.ctr.clear = false → s.dumped.clusters = s.clusters ∧ s.dumped.ctr.chip = s.ctr.chip ∧ s.dumped.ctr.hub = s.ctr.hub) ∧
    (s.ctr.clear = true → s.dumped.ctr.hub = List.replicate 64 0 ∧ ∀ k, k < s.clusters.length → (s.dumped.cluster k).ctr = List.replicate 128 0) := by
  refine ⟨fun h => ?_, fun h => ?_⟩
  · simp [State.dumped, h]
  · refine ⟨by simp [State.dumped, h], fun k hk => ?_⟩
    simp [State.dumped, h, State.cluster, hk]

theorem State.dumped_drl (s : State) (k : Nat) : (s.dumped.cluster k).drl = (s.cluster k).drl := by
  unfold State.dumped
  dsimp only
  split
  · simp only [State.cluster, List.getD_eq_getElem?_getD, List.getElem?_map]
    cases s.clusters[k]? <;> rfl
  · rfl

/-- A snap whose ring lies here and whose bytes can land writes its record in its slot. -/
theorem State.snap_here {s : State} (hbusy : s.hub.snapBusy = false) (hme : fld s.ctr.dumpBase 63 52 = s.me) (domain : Bool)
    (hl : s.lands s.snapSlot (s.snapRecord domain).length = true) :
    s.snap domain = s.dumped.store [(s.snapSlot, s.snapRecord domain)] := by
  obtain ⟨-, hpages, hstart, -⟩ := s.dumped_keeps
  have hstore : s.dumped.hubStore [(s.snapSlot, s.snapRecord domain)] = s.dumped.store [(s.snapSlot, s.snapRecord domain)] :=
    State.hubStore_of_lands (by simpa [State.lands_congr hpages hstart] using hl)
  rw [← hstore]
  unfold State.snap State.dumped
  have hreach : s.fab.routes.reaches s.me s.me = true := by simp [Graph.reaches]
  rw [if_neg (by simp [hbusy])]
  simp only [hme, hreach, if_true, Bool.not_true, Bool.false_eq_true, if_false, -List.reduceReplicate]
  split <;> exact if_pos rfl

theorem Cells.writeAll_singleton (m : Cells) (a : Nat) (bs : List Byte) : Cells.writeAll m [(a, bs)] = Cells.write m a bs := rfl

section
variable {s : State} (hbusy : s.hub.snapBusy = false) (hme : fld s.ctr.dumpBase 63 52 = s.me) {domain : Bool}
  (hl : s.lands s.snapSlot (s.snapRecord domain).length = true)
include hbusy hme hl

theorem State.snap_mem : (s.snap domain).mem = Cells.write s.mem s.snapSlot (s.snapRecord domain) := by
  rw [State.snap_here hbusy hme domain hl, State.store_mem, s.dumped_keeps.1, Cells.writeAll_singleton]

theorem State.snap_counters : (s.snap domain).ctr = s.dumped.ctr ∧ (s.snap domain).clusters = s.dumped.clusters := by
  rw [State.snap_here hbusy hme domain hl]
  exact ⟨rfl, rfl⟩

end

/-- Settles O11: the three commands are one snap; its record is one write of the hub. -/
theorem snapWritesOneRecord : Obligations.SnapWritesOneRecord := by
  unfold Obligations.SnapWritesOneRecord
  refine ⟨?_, fun s ha => onHub_alive ha _⟩
  intro s c domain ha hc hm hbusy hme a r hl
  have hexec : exec c s = .next (s.snap domain) := by
    obtain ⟨rfl, rfl⟩ | ⟨rfl, rfl, he⟩ | ⟨rfl, rfl, hen⟩ := hc
    · exact onHub_alive ha _
    · exact (onHub_alive ha _).trans (by rw [if_pos he])
    · exact (onHub_alive ha _).trans (by rw [if_neg (by simp [hen]), if_neg (by simp [hbusy])])
  obtain ⟨-, -, -, hdumps, hclear⟩ := s.dumped_keeps
  have hstored : (s.snap domain).mem = Cells.write s.mem a r := State.snap_mem hbusy hme hl
  obtain ⟨hctr, hclusters⟩ := State.snap_counters hbusy hme hl
  refine ⟨_, hexec, ?_, fun b hb => ?_, ?_⟩
  · exact (congrArg (Cells.read · a r.length) hstored).trans (Cells.read_write_self hm a r)
  · exact (congrArg (Cells.byte · b) hstored).trans (Cells.byte_write_other _ _ _ _ (hb (a, r.length) (List.mem_singleton.2 rfl)))
  · simp only [State.cluster, hctr, hclusters, -List.reduceReplicate]
    exact ⟨hdumps, hclear, s.dumped_drl, s.dumped_counters⟩

end Sys2Proof.Machine
end

section
/-!
Proof, rings (O24 to O26): completions reach their queue (R451), doorbells move TAIL (R448), and intake takes the next packet (R449, R454).
-/

namespace Sys2Proof.Machine

/-! ## A ring of the hub -/

theorem Ring.ne_shut_of_opened {r : Ring} (h : r.st = .opened) : r ≠ Ring.shut := fun hs => by simp [hs, Ring.shut] at h

/-- A ring that is set, and is open, reads as it was set. -/
theorem Hub.ring_setRing_self (h : Hub) (n : Nat) {r : Ring} (ho : r.st = .opened) : (h.setRing n r).ring n = r := by
  rw [Hub.ring, Hub.setRing, if_neg (Ring.ne_shut_of_opened ho), assoc_assocSet_self, Option.getD_some]

theorem Ring.settle_of_opened {r : Ring} (h : r.st = .opened) : r.settle = r := if_neg (by simp [h])

/-! ## Completions (R451) -/

theorem Cqe.bytes_length (c : Cqe) (slots n : Nat) : (c.bytes slots n).length = 16 := by
  simp [Cqe.bytes, leBytes_length]

/-- The ring once a completion is written and its slot released. -/
def Ring.completed (r : Ring) (slot : Nat) : Ring := ({ r with cqWritten := (r.cqWritten + 1) % 2 ^ 32 } : Ring).release slot

theorem Ring.complete_of_room {r : Ring} (ho : r.st = .opened) (hroom : r.cqRoom = true) (hw : r.waiting = []) (slot : Nat) (c : Cqe) :
    r.complete slot true c = (r.completed slot, [(r.cqBase + 16 * (r.cqWritten % r.slots), c.bytes r.slots r.cqWritten)]) := by
  rw [Ring.complete, if_pos ⟨hroom, by simp [hw]⟩]
  exact Prod.ext (Ring.settle_of_opened (r := r.completed slot) ho) rfl

section
variable {s : State} {p : Pkt} {n slot : Nat} (hor : p.origin = .ring n slot) (ho : (s.hub.ring n).st = .opened)
  (hroom : (s.hub.ring n).cqRoom = true) (hw : (s.hub.ring n).waiting = [])
include hor ho hroom hw

/-- The end of a packet of a ring with room for its completion. -/
theorem State.endPkt_of_room (status : Nat) (v : Word) : s.endPkt p status v =
    ((({ s with hub := (s.hub.dropPkt p.id).setRing n ((s.hub.ring n).completed slot) } : State).storeHdm
      [((s.hub.ring n).cqBase + 16 * ((s.hub.ring n).cqWritten % (s.hub.ring n).slots),
        (⟨false, p.type, status, p.tag, v⟩ : Cqe).bytes (s.hub.ring n).slots (s.hub.ring n).cqWritten)]).hubCount chCompletions 1) := by
  have hring : (s.hub.dropPkt p.id).ring n = s.hub.ring n := rfl
  rw [State.endPkt, hor]
  dsimp only
  rw [State.ringEnd]
  dsimp only
  rw [hring, Ring.complete_of_room ho hroom hw]

end

/-- Settles O24: the completion is one write of the hub in the window, cut where the window's blocks end. -/
theorem completionReachesTheQueue : Obligations.CompletionReachesTheQueue := by
  unfold Obligations.CompletionReachesTheQueue
  intro s p n slot status v hm hor ho hroom hw r e off t hlands
  have hend : t = ((({ s with hub := (s.hub.dropPkt p.id).setRing n (r.completed slot) } : State).store
      (hdmPieces off (e.bytes r.slots r.cqWritten))).hubCount chCompletions 1) := by
    rw [← State.storeHdm_of_lands (s := { s with hub := (s.hub.dropPkt p.id).setRing n (r.completed slot) }) hlands]
    exact State.endPkt_of_room hor ho hroom hw status v
  have hmem : t.mem = Cells.writeAll s.mem (hdmPieces off (e.bytes r.slots r.cqWritten)) := congrArg State.mem hend
  have hring : t.hub.ring n = r.completed slot :=
    (congrArg (fun t : State => t.hub.ring n) hend).trans (Hub.ring_setRing_self _ n (r := r.completed slot) ho)
  have hlen := e.bytes_length r.slots r.cqWritten
  refine ⟨fun i hi => ?_, fun a ha => ?_, ?_, ?_, s.endPkt_pkt p status v true, by simp [t], by simp [t], by simp [t], by rw [hend]; rfl⟩
  · rw [hmem, byte_write_hdmPieces hm off (by omega), List.getD_eq_getElem?_getD, List.getElem?_eq_getElem (by omega), Option.getD_some]
  · rw [hmem]
    refine byte_write_hdmPieces_other _ fun i hi => ha _ ⟨(off, 16), List.mem_singleton.2 rfl, ?_⟩
    dsimp only
    omega
  · rw [hring]
    rfl
  · rw [hring]
    rfl

/-! ## Doorbells (R438, R448) -/

theorem testBit_low (i : Nat) : Nat.testBit 0x0F i = decide (i < 4) := Nat.testBit_two_pow_sub_one 4 i

/-- The bytes of a doorbell whose TAIL alone is enabled: its low four. -/
theorem runsOf_tail (v : Word) : (runsOf 0 ((leBytes 8 v.toNat).zipIdx.map (fun b => (Nat.testBit 0x0F b.2, b.1)))) = [(0, (leBytes 8 v.toNat).take 4)] := by
  simp [leBytes, runsOf, testBit_low]

/-- A write of a doorbell's TAIL. -/
def State.tailWritten (s : State) (n : Nat) (v : Word) : State := s.store [(hdmLocal (0x1000000 + 8 * n), (leBytes 8 v.toNat).take 4)]

/-- Four bytes of a word that is poisoned leave it so, and poison none. -/
theorem State.tailWritten_poison (s : State) (n : Nat) (v : Word) :
    (s.tailWritten n v).poison.contains (hdmLocal (0x1000000 + 8 * n)) = s.poison.contains (hdmLocal (0x1000000 + 8 * n)) := by
  simp [State.tailWritten, State.store, Poison.clear, leBytes_length]

/-- The hub acts on a TAIL that does not lie in a poisoned word. -/
theorem State.ringBell_tail (s : State) (n : Nat) (v : Word) : s.ringBell n v 0x0F =
    if s.poison.contains (hdmLocal (0x1000000 + 8 * n)) then s.tailWritten n v else (s.tailWritten n v).doorbell n v true false := by
  rw [← s.tailWritten_poison n v]
  unfold State.ringBell
  rw [runsOf_tail]
  simp only [List.map_cons, List.map_nil, Nat.add_zero, Bool.false_eq_true, if_false]
  rfl

theorem exec_doorbellWrite_tail {s : State} {n : Nat} (hn : n < 262144) (hup : s.hostUp = true) (v : Word) :
    exec (.doorbellWrite n v 0x0F) s =
      .next { s.ringBell n v 0x0F with hub := { (s.ringBell n v 0x0F).hub with served := some ([], false) } } :=
  (if_neg (Nat.not_le.2 hn)).trans (congrArg Host.Outcome.next (if_pos hup))

/-- A TAIL that the hub acts on sets its ring; of the rest it counts errors alone. -/
theorem State.doorbell_tail {s : State} {n : Nat} (ho : (s.hub.ring n).st = .opened) (hw : (s.hub.ring n).waiting = []) (v : Word) :
    (s.doorbell n v true false).hub.ring n = (s.hub.ring n).tail (fld v 31 0) ∧ (s.doorbell n v true false).hub.pkts = s.hub.pkts ∧
    (s.doorbell n v true false).hub.tasks = s.hub.tasks ∧ (s.doorbell n v true false).clusters = s.clusters ∧
    (s.doorbell n v true false).jobs = s.jobs := by
  have hst : ((s.hub.ring n).tail (fld v 31 0)).st = .opened := by
    unfold Ring.tail
    split <;> exact ho
  have hwait : ((s.hub.ring n).tail (fld v 31 0)).waiting = [] := by
    unfold Ring.tail
    split <;> exact hw
  unfold State.doorbell
  simp only [if_true, Bool.false_eq_true, if_false, hwait, List.length_nil, Ring.drain]
  exact ⟨Hub.ring_setRing_self _ n hst, rfl, rfl, rfl, rfl⟩

/-- Settles O25: a poisoned word keeps the hub from acting; else TAIL is taken, or ignored and counted. -/
theorem doorbellMovesTheTail : Obligations.DoorbellMovesTheTail := by
  unfold Obligations.DoorbellMovesTheTail
  intro s n v hn hup ho hw r poisoned
  have hexec := exec_doorbellWrite_tail hn hup v
  obtain ⟨hring, hpkts, htasks, hclusters, hjobs⟩ := State.doorbell_tail (s := s.tailWritten n v) ho hw v
  have hacts (hp : poisoned = false) : s.ringBell n v 0x0F = (s.tailWritten n v).doorbell n v true false :=
    (s.ringBell_tail n v).trans (if_neg (Bool.eq_false_iff.1 hp))
  refine ⟨fun hp => ⟨_, hexec, ?_⟩, fun hp hseen hrel => ⟨_, hexec, ?_⟩, fun hp hout => ⟨_, hexec, ?_⟩⟩
  · rw [State.ringBell_tail, if_pos hp]
    exact ⟨rfl, rfl, rfl, rfl, rfl, rfl⟩
  · rw [hacts hp]
    exact ⟨hring.trans (if_pos ⟨ho, hseen, hrel⟩), hpkts, htasks, hclusters, hjobs, rfl⟩
  · rw [hacts hp]
    refine ⟨hring.trans (if_neg fun ⟨_, hseen, hrel⟩ => ?_), hpkts, htasks, hclusters, hjobs⟩
    exact hout.elim (Nat.not_lt.2 hseen) (Nat.not_lt.2 hrel)

/-! ## Intake (R449, R454) -/

/-- An open ring stands in the hub's list. -/
theorem Hub.mem_rings {h : Hub} {n : Nat} (ho : (h.ring n).st = .opened) : (n, h.ring n) ∈ h.rings := by
  unfold Hub.ring assoc at ho ⊢
  cases hl : h.rings.lookup n with
  | none => simp [hl, Ring.shut] at ho
  | some r =>
    obtain ⟨l₁, l₂, heq, -⟩ := List.lookup_eq_some_iff.1 hl
    simp [heq]

/-- Fewer open rings deny a context no more of the window (R446). -/
theorem State.windowDenied_mono {s u : State} {ctx dst k : Nat} (hjobs : u.jobs = s.jobs)
    (hrings : ∀ r ∈ u.hub.rings, ∃ q ∈ s.hub.rings, q.1 = r.1 ∧ q.2.st = r.2.st ∧ q.2.buffers = r.2.buffers)
    (h : s.windowDenied ctx dst k = false) : u.windowDenied ctx dst k = false := by
  rw [← Bool.not_eq_true] at h ⊢
  refine fun hu => h ?_
  simp only [State.windowDenied, hjobs, Bool.and_eq_true, List.any_eq_true, List.mem_cons, List.mem_append, List.mem_flatMap,
    List.mem_filter] at hu ⊢
  obtain ⟨hctx, b, hb, hmeet⟩ := hu
  refine ⟨hctx, b, hb.imp_right (Or.imp_right ?_), hmeet⟩
  rintro ⟨r, ⟨hr, hother⟩, hbuf⟩
  obtain ⟨q, hq, h1, h2, h3⟩ := hrings r hr
  exact ⟨q, ⟨hq, by rw [h1, h2]; exact hother⟩, by rw [h3]; exact hbuf⟩

/-- The hub and the counters once intake has read a packet of ring `n`. -/
def State.advanced (s : State) (n : Nat) : State :=
  ((({ s with hub := { (s.hub.setRing n { s.hub.ring n with head := ((s.hub.ring n).head + 1) % 2 ^ 32 }) with
    turn := if 64 ≤ n then n else s.hub.turn, nextPid := s.hub.nextPid + 1 } } : State).hubCount chPackets 1).hubCount chPayload
      (s.nextPkt n).pay.length)

section
variable {s : State} {n : Nat} (ho : (s.hub.ring n).st = .opened)
include ho

theorem State.advanced_ring : (s.advanced n).hub.ring n = { s.hub.ring n with head := ((s.hub.ring n).head + 1) % 2 ^ 32 } :=
  Hub.ring_setRing_self s.hub n (r := { s.hub.ring n with head := ((s.hub.ring n).head + 1) % 2 ^ 32 }) ho

theorem State.advanced_rings (r : Nat × Ring) (hr : r ∈ (s.advanced n).hub.rings) :
    ∃ q ∈ s.hub.rings, q.1 = r.1 ∧ q.2.st = r.2.st ∧ q.2.buffers = r.2.buffers := by
  have hset : (s.advanced n).hub.rings = assocSet s.hub.rings n { s.hub.ring n with head := ((s.hub.ring n).head + 1) % 2 ^ 32 } :=
    if_neg (Ring.ne_shut_of_opened (r := { s.hub.ring n with head := ((s.hub.ring n).head + 1) % 2 ^ 32 }) ho)
  rw [hset, assocSet, List.mem_cons] at hr
  obtain rfl | hr := hr
  · exact ⟨(n, s.hub.ring n), Hub.mem_rings ho, rfl, rfl, rfl⟩
  · exact ⟨r, List.mem_of_mem_filter hr, rfl, rfl, rfl⟩

/-- A packet that passes every check passes them when HEAD has advanced over it. -/
theorem State.advanced_intakeFail {p : Pkt} (h : s.intakeFail n p = none) : (s.advanced n).intakeFail n p = none := by
  have hpool : ((s.advanced n).hub.ring n).poolBytes = (s.hub.ring n).poolBytes := by rw [State.advanced_ring ho]
  have hreach : (s.advanced n).fab.routes.reaches (s.advanced n).me p.dst = s.fab.routes.reaches s.me p.dst := rfl
  unfold State.intakeFail at h ⊢
  rw [hpool, hreach]
  split at h
  · cases h
  · split at h
    · cases h
    · split at h
      · cases h
      · rename_i hcrc hhead hdenied
        rw [if_neg hcrc, if_neg hhead, if_neg]
        · exact h
        · simp only [Bool.or_eq_true, not_or, Bool.not_eq_true, State.readDenied, Bool.and_eq_false_iff] at hdenied ⊢
          exact ⟨hdenied.1, hdenied.2.imp_right fun hd => State.windowDenied_mono (s := s) rfl (State.advanced_rings ho) hd⟩

/-- A packet for this module that passes every check is taken. -/
theorem State.take_here (hfail : s.intakeFail n (s.nextPkt n) = none) (hbar : s.intakeBar (s.nextPkt n) = none)
    (hdst : (s.nextPkt n).dst = s.me) :
    s.take n = { s.advanced n with hub := { (s.advanced n).hub with pkts := s.hub.pkts ++ [s.nextPkt n] } } := by
  have hf : (s.advanced n).intakeFail n (s.nextPkt n) = none := State.advanced_intakeFail ho hfail
  have hb : (s.advanced n).intakeBar (s.nextPkt n) = none := hbar
  have hd : (s.nextPkt n).dst = (s.advanced n).me := hdst
  unfold State.take
  extract_lets r p hub s1 s2 fail
  have h2 : s2 = s.advanced n := rfl
  rw [h2, hf]
  dsimp only
  rw [hb]
  dsimp only
  rw [if_pos hd]
  rfl

end

/-- What intake counts is no part of what it reads. -/
theorem exec_packetIntake {s : State} {n : Nat} (hup : s.hostUp = true) (he : s.start.edgeUp .host = true)
    (ho : s.hub.intakeOrder.find? s.canStart = some n) : exec .packetIntake s = .next (((s.hubCount 0 1).hubOver).take n) := by
  refine congrArg Host.Outcome.next ((if_neg (by simp [hup, he])).trans ?_)
  dsimp only
  rw [ho]

theorem State.intakeCounts (s : State) : ∃ c, (s.hubCount 0 1).hubOver = { s with ctr := c } := ⟨_, rfl⟩

/-- Settles O26: the packet passes its checks again once HEAD has advanced, and joins the hub's packets. -/
theorem intakeTakesOnePacket : Obligations.IntakeTakesOnePacket := by
  unfold Obligations.IntakeTakesOnePacket
  intro s n hup he hfind hfail hbar hdst ho
  obtain ⟨c, hc⟩ := State.intakeCounts s
  refine ⟨_, exec_packetIntake hup he hfind, ?_⟩
  rw [hc, State.take_here (s := { s with ctr := c }) ho hfail hbar hdst]
  exact ⟨rfl, rfl, State.advanced_ring (s := { s with ctr := c }) ho, rfl, rfl⟩

end Sys2Proof.Machine
end

section
/-!
Proof, forwarded packets (O56): what a hub makes of a packet that another hub has forwarded (R454, R457 to R459).
-/

namespace Sys2Proof.Machine

theorem State.settled_packet (u t : State) (rx : Rx) (pid : Nat) (words : List Word) (pay : List Byte) :
    u.settled t rx (.packet pid words pay) = u.portDone rx (.packet pid words pay) := by
  unfold State.settled State.portDone
  cases rx.port <;> rfl

/-- A forwarded packet, as the hub that executes it numbers it. -/
def State.forwarded (s : State) (rx : Rx) (pid : Nat) (words : List Word) (pay : List Byte) : Pkt :=
  ⟨s.hub.nextPid, words, pay, .fabric rx.src pid rx.tag, false, 0, 0⟩

/-- The module that has received it, and holds it among its packets. -/
def State.takenForward (s : State) (rx : Rx) (pid : Nat) (words : List Word) (pay : List Byte) : State :=
  { s.received rx (.packet pid words pay) with hub := { (s.received rx (.packet pid words pay)).hub with
      pkts := (s.received rx (.packet pid words pay)).hub.pkts ++ [s.forwarded rx pid words pay]
      nextPid := (s.received rx (.packet pid words pay)).hub.nextPid + 1 } }

/-- A packet runs as the command of its type, on a packet that the hub holds. -/
theorem exec_runPacket {s : State} {p : Pkt} (ha : s.alive = true) (hp : s.hub.pkt p.id = some p) (f : PktFind) {type : Nat} {c : Instr}
    (ht : p.type = type)
    (hc : (type, c) ∈ [(typeNop, Instr.nopPacket p.id), (typeData, .data p.id), (typeRead, .read p.id f.ev), (typeLoad, .load p.id),
      (typeUnload, .unload p.id), (typeRun, .run p.id), (typeSuspend, .suspend p.id), (typeResume, .resume p.id),
      (typeCtlWrite, .ctlWritePacket p.id), (typeCtlRead, .ctlRead p.id), (typeDelta, .solDelta p.id), (typeRestore, .restore p.id f.ev),
      (typeContextReset, .contextReset p.id), (typeRingOpen, .ringOpen p.id), (typeRingClose, .ringClose p.id),
      (typeFwImage, .fwImage p.id f.img), (typeAttest, .attest p.id f.secs f.flashOk)]) : exec c s = .next (s.runPacket p f) := by
  unfold State.runPacket
  rw [ht]
  simp only [List.mem_cons, Prod.mk.injEq, List.not_mem_nil, or_false] at hc
  obtain ⟨rfl, rfl⟩ | ⟨rfl, rfl⟩ | ⟨rfl, rfl⟩ | ⟨rfl, rfl⟩ | ⟨rfl, rfl⟩ | ⟨rfl, rfl⟩ | ⟨rfl, rfl⟩ | ⟨rfl, rfl⟩ | ⟨rfl, rfl⟩ | ⟨rfl, rfl⟩ |
    ⟨rfl, rfl⟩ | ⟨rfl, rfl⟩ | ⟨rfl, rfl⟩ | ⟨rfl, rfl⟩ | ⟨rfl, rfl⟩ | ⟨rfl, rfl⟩ | ⟨rfl, rfl⟩ := hc
  all_goals exact (onPkt_of_taken ha hp ht _).trans rfl

/-- One that the hub holds gets its new bytes. -/
theorem State.takeForward_of_held {s : State} {rx : Rx} {pid : Nat} (hheld : s.hub.held.any (fun h => h.isFrom rx.src pid) = true)
    (words : List Word) (pay : List Byte) (f : PktFind) : s.takeForward rx pid words pay f = { s with hub := { s.hub with
      held := s.hub.held.map (fun h => if h.isFrom rx.src pid then { h with pkt := { h.pkt with words, pay } } else h) } } := if_pos hheld

section
variable {s : State} {rx : Rx} {pid : Nat} {words : List Word} {pay : List Byte} {f : PktFind} (hears : s.hears rx = true)
include hears

theorem exec_packetForward : exec (.packetForward rx pid words pay f) s =
    .next (((s.received rx (.packet pid words pay)).takeForward rx pid words pay f).portDone rx (.packet pid words pay)) := by
  refine (State.arrive_of_hears hears (.packet pid words pay) (fun s => s.takeForward rx pid words pay f)).trans ?_
  rw [State.settled_packet]

theorem exec_packetForward_of_held (hheld : s.hub.held.any (fun h => h.isFrom rx.src pid) = true) :
    ∃ t, exec (.packetForward rx pid words pay f) s = .next t ∧
      t.hub = { s.hub with held := s.hub.held.map (fun h => if h.isFrom rx.src pid then { h with pkt := { h.pkt with words, pay } } else h) } ∧
      t.mem = s.mem ∧ t.clusters = s.clusters ∧ t.jobs = s.jobs := by
  have hr := onlyFab_received s rx (.packet pid words pay)
  have hd := onlyFab_portDone ((s.received rx (.packet pid words pay)).takeForward rx pid words pay f) rx (.packet pid words pay)
  refine ⟨_, exec_packetForward hears, ?_⟩
  rw [hd.hub, hd.mem, hd.clusters, hd.jobs, State.takeForward_of_held (by rwa [hr.hub])]
  exact ⟨by rw [hr.hub], hr.mem, hr.clusters, hr.jobs⟩

variable (hheld : s.hub.held.any (fun h => h.isFrom rx.src pid) = false)
include hheld

/-- Another is taken: the module's state bars it, or it runs. -/
theorem exec_packetForward_of_new : exec (.packetForward rx pid words pay f) s =
    .next ((match s.stateBars (s.forwarded rx pid words pay) with
      | some c => (s.takenForward rx pid words pay).endPkt (s.forwarded rx pid words pay) c 0
      | none => (s.takenForward rx pid words pay).runPacket (s.forwarded rx pid words pay) f).portDone rx (.packet pid words pay)) := by
  have hr := onlyFab_received s rx (.packet pid words pay)
  have hp : (⟨(s.received rx (.packet pid words pay)).hub.nextPid, words, pay, .fabric rx.src pid rx.tag, false, 0, 0⟩ : Pkt) =
      s.forwarded rx pid words pay := by rw [hr.hub, State.forwarded]
  have hbars : (s.takenForward rx pid words pay).stateBars (s.forwarded rx pid words pay) = s.stateBars (s.forwarded rx pid words pay) := by
    have hstart : (s.takenForward rx pid words pay).start = s.start := hr.start
    have hme : (s.takenForward rx pid words pay).me = s.me := hr.me
    rw [State.stateBars, hstart, hme, State.stateBars]
  rw [exec_packetForward hears, State.takeForward, if_neg (by rw [hr.hub, hheld]; exact Bool.false_ne_true)]
  dsimp only
  rw [hp, ← hbars]
  rfl

omit hears hheld in
theorem State.takenForward_pkt (hfresh : ∀ q ∈ s.hub.pkts, q.id ≠ s.hub.nextPid) :
    (s.takenForward rx pid words pay).hub.pkt (s.forwarded rx pid words pay).id = some (s.forwarded rx pid words pay) := by
  have hr := onlyFab_received s rx (.packet pid words pay)
  have hnone : s.hub.pkt (s.forwarded rx pid words pay).id = none := List.find?_eq_none.2 fun q hq => decide_eq_true_iff.not.2 (hfresh q hq)
  have hpkts : (s.takenForward rx pid words pay).hub.pkts = s.hub.pkts ++ [s.forwarded rx pid words pay] := by
    rw [State.takenForward, hr.hub]
  rw [Hub.pkt] at hnone ⊢
  rw [hpkts, List.find?_append, hnone]
  simp

omit hheld in
theorem State.takenForward_alive : (s.takenForward rx pid words pay).alive = true := by
  have hr := onlyFab_received s rx (.packet pid words pay)
  have ha := State.alive_of_hears hears
  unfold State.alive at ha ⊢
  rw [State.takenForward, hr]
  exact ha

end

/-- The end of a forwarded packet goes back to the hub that forwarded it; the hub holds what it held. -/
theorem State.endForwarded_spec {s : State} (rx : Rx) (pid : Nat) (words : List Word) (pay : List Byte)
    (hfresh : ∀ q ∈ s.hub.pkts, q.id ≠ s.hub.nextPid) (status : Nat) :
    let t := ((s.takenForward rx pid words pay).endPkt (s.forwarded rx pid words pay) status 0).portDone rx (.packet pid words pay)
    t.Queued ⟨rx.src, s.me, (s.forwarded rx pid words pay).ctx, rx.tag, 0, .ack pid (some ⟨pid, true, true, status, 0⟩)⟩ ∧
      t.hub.pkts = s.hub.pkts ∧ t.mem = s.mem ∧ t.clusters = s.clusters ∧ t.jobs = s.jobs := by
  have hr := onlyFab_received s rx (.packet pid words pay)
  have hd := onlyFab_portDone ((s.takenForward rx pid words pay).endPkt (s.forwarded rx pid words pay) status 0) rx (.packet pid words pay)
  have hme : (s.takenForward rx pid words pay).me = s.me := hr.me
  have hend : (s.takenForward rx pid words pay).endPkt (s.forwarded rx pid words pay) status 0 =
      ({ s.takenForward rx pid words pay with hub := (s.takenForward rx pid words pay).hub.dropPkt s.hub.nextPid } : State).send
        ⟨rx.src, s.me, (s.forwarded rx pid words pay).ctx, rx.tag, 0, .ack pid (some ⟨pid, true, true, status, 0⟩)⟩ := by
    rw [← hme]
    rfl
  have hdrop : (s.hub.pkts ++ [s.forwarded rx pid words pay]).filter (fun q => q.id ≠ s.hub.nextPid) = s.hub.pkts := by
    rw [List.filter_append, List.filter_eq_self.2 fun q hq => by simpa using hfresh q hq]
    simp [State.forwarded]
  refine ⟨State.Queued.portDone ?_ rx _, ?_, ?_, ?_, ?_⟩
  · rw [hend]
    exact State.send_queued _ _
  · rw [hd.hub, hend]
    simpa [State.takenForward, hr.hub, Hub.dropPkt] using hdrop
  · rw [hd.mem, hend]
    simp [State.takenForward]
  · rw [hd.clusters, hend]
    simp [State.takenForward]
  · rw [hd.jobs, hend]
    simp [State.takenForward]

/-- Settles O56: a packet that is new is held, and then barred or run as its type's command runs it. -/
theorem forwardedPacketsRun : Obligations.ForwardedPacketsRun := by
  unfold Obligations.ForwardedPacketsRun
  intro s rx pid words pay f hears hfresh b
  refine ⟨exec_packetForward_of_held hears, ?_⟩
  intro hheld p r u
  have hnew := exec_packetForward_of_new (words := words) (pay := pay) (f := f) hears hheld
  refine ⟨fun c hc => ?_, fun hnone => ?_⟩
  · rw [hnew, show s.stateBars (s.forwarded rx pid words pay) = some c from hc]
    rfl
  · rw [show s.stateBars (s.forwarded rx pid words pay) = none from hnone] at hnew
    refine ⟨fun type c ht hc => ⟨_, ?_, hnew⟩, fun ht => ⟨_, hnew, ?_⟩⟩
    · exact exec_runPacket (State.takenForward_alive hears) (State.takenForward_pkt hfresh) f ht hc
    · have hnop : (s.takenForward rx pid words pay).runPacket (s.forwarded rx pid words pay) f =
          (s.takenForward rx pid words pay).endPkt (s.forwarded rx pid words pay) pktOk 0 := if_pos ht
      dsimp only
      rw [hnop]
      exact State.endForwarded_spec rx pid words pay hfresh pktOk

end Sys2Proof.Machine
end

section
/-!
Proof, firmware images (O38): the install of one module's image, and the chunks and acknowledges of a broadcast (R430, R476, R478, R493).
-/

namespace Sys2Proof.Machine

/-! ## The install -/

section
variable {s : State} {p : Pkt} {img : ImageIn}

/-- The module with another flash. -/
def State.withFlash (s : State) (f : Flash) : State := { s with start := { s.start with flash := f } }

theorem State.leaveMinimal_of_ready (h : s.start.stage = .ready) : s.leaveMinimal = s := by simp [State.leaveMinimal, h]

/-- An image of the module alone is staged, verified and installed. -/
theorem State.doFwImage_alone (hscope : fld p.arg0 1 0 = 0) (hb : s.fab.bcast = none) : s.doFwImage p img =
    match ((s.stageWhole p.pay).installImage img).2 with
    | some c => ((s.stageWhole p.pay).installImage img).1.endPkt p c (mkFld 63 32 1)
    | none => (((s.stageWhole p.pay).installImage img).1.endPkt p pktOk (mkFld 31 0 1)).leaveMinimal := by
  simp only [State.doFwImage, hscope, hb, Option.isSome_none, Bool.false_eq_true, and_false, if_false, if_true] <;> rfl

/-- The copy that the install programs, compared with STAGE. -/
def Flash.installed (f : Flash) (img : ImageIn) (i : Image) : Flash := ((f.clearValid i.kind).program i.kind i img.wrong).confirm i.kind

/-- What an install makes of the answer of the verification. -/
def State.installOn (s : State) (img : ImageIn) : Option Nat → State × Option Nat
  | some c => ({ s with start := { s.start with lastCode := c } }, some c)
  | none => (s.program img (imageOf img s.start.flash.staged),
      if (s.program img (imageOf img s.start.flash.staged)).start.flash.valid (imageOf img s.start.flash.staged).kind then none else some pktState)

theorem State.installImage_eq : s.installImage img =
    s.installOn img (s.start.flash.verify (imageOf img s.start.flash.staged).kind (imageOf img s.start.flash.staged)) := by
  unfold State.installImage
  dsimp only
  generalize s.start.flash.verify (imageOf img s.start.flash.staged).kind (imageOf img s.start.flash.staged) = r
  cases r <;> rfl

theorem State.program_of_up (hup : s.start.edgeUp .flash = true) (i : Image) : s.program img i = s.withFlash (s.start.flash.installed img i) := by
  unfold State.program
  dsimp only
  rw [if_pos hup]
  rfl

/-- The install of an image that verifies, on a module `u` that differs from `s` in its flash. -/
theorem State.installImage_of_sound {u : State} {f : Flash} {i : Image} (hf : u.start.flash = f) (hi : imageOf img f.staged = i)
    (hu : ∀ g, u.withFlash g = s.withFlash g) (h : f.verify i.kind i = none) (hup : u.start.edgeUp .flash = true) :
    u.installImage img = (s.withFlash (f.installed img i), if (f.installed img i).valid i.kind then none else some pktState) := by
  subst hf hi
  have hflash (g : Flash) : (s.withFlash g).start.flash = g := rfl
  rw [State.installImage_eq, h, State.installOn, State.program_of_up hup, hu, hflash]

theorem State.installImage_of_refused {f : Flash} (hf : s.start.flash = f) {c : Nat}
    (h : f.verify (imageOf img f.staged).kind (imageOf img f.staged) = some c) :
    s.installImage img = ({ s with start := { s.start with lastCode := c } }, some c) := by
  subst hf
  rw [State.installImage_eq, h, State.installOn]

end

/-- A verified image names one of the four partitions. -/
theorem Flash.verify_kind {f : Flash} {i : Image} (h : f.verify i.kind i = none) : 1 ≤ i.kind ∧ i.kind ≤ 4 := by
  unfold Flash.verify at h
  split at h
  · cases h
  · rename_i hform
    obtain ⟨⟨⟨⟨⟨⟨⟨⟨⟨⟨⟨⟨-, -⟩, -⟩, hlow⟩, hhigh⟩, -⟩, -⟩, -⟩, -⟩, -⟩, -⟩, -⟩, -⟩ := by
      simpa only [Image.formOk, Bool.not_eq_true', Bool.not_eq_false, Bool.and_eq_true, decide_eq_true_eq] using hform
    exact ⟨hlow, hhigh⟩

/-- The partition of an image's kind after its install. -/
theorem Flash.installed_part {f : Flash} {img : ImageIn} {i : Image} (hwrong : img.wrong = []) {q : Part}
    (hq : (f.installed img i).parts[i.kind - 1]? = some q) : q.read = i ∧ q.valid = (digest256 i.bytes == digest256 f.staged) := by
  have hbs : i.bytes.zipIdx.map (fun b => if ([] : List Nat).contains b.2 then ~~~ b.1 else b.1) = i.bytes := by simp
  simp only [Flash.installed, Flash.confirm, Flash.program, Flash.clearValid, updAt, List.getElem?_modify_eq, hwrong, hbs] at hq
  obtain ⟨q₁, h₁, rfl⟩ := Option.map_eq_some_iff.1 hq
  obtain ⟨q₂, -, rfl⟩ := Option.map_eq_some_iff.1 h₁
  simp [Part.read]

/-- The other partitions stay as they are. -/
theorem Flash.installed_other {f : Flash} {img : ImageIn} {i : Image} {k : Nat} (hk : k ≠ i.kind - 1) :
    (f.installed img i).parts[k]? = f.parts[k]? := by
  simp [Flash.installed, Flash.confirm, Flash.program, Flash.clearValid, updAt, Ne.symm hk]

/-- A copy that reads back as it is in STAGE is VALID. -/
theorem Flash.installed_valid {f : Flash} {img : ImageIn} {i : Image} (hwrong : img.wrong = []) (hst : f.staged = i.bytes)
    (hparts : f.parts.length = 4) (hkind : 1 ≤ i.kind ∧ i.kind ≤ 4) : (f.installed img i).valid i.kind = true := by
  have hlen : i.kind - 1 < (f.installed img i).parts.length := by
    simp only [Flash.installed, Flash.confirm, Flash.program, Flash.clearValid, updAt_length, hparts]
    omega
  have hq := List.getElem?_eq_getElem hlen
  rw [Flash.valid, hq]
  simp only [(Flash.installed_part hwrong hq).2, hst, beq_self_eq_true]

/-! ## A message loose in the fabric part

The rounds of the ports that later messages start lose a waiting message only if a flood has bound it to its port. -/

/-- The message has been sent, or waits without a port that it is bound to. -/
def Fab.Loose (f : Fab) (m : Msg) : Prop := (∃ p, (p, m) ∈ f.sent) ∨ ∃ w ∈ f.waiting, w.msg = m ∧ w.fixed = false

theorem Fab.Loose.holds {f : Fab} {m : Msg} (h : f.Loose m) : f.Holds m := h.imp_right fun ⟨w, hw, hm, _⟩ => ⟨w, hw, hm⟩

theorem Fab.Loose.mono {f g : Fab} {m : Msg} (h : f.Loose m) (hs : ∀ x ∈ f.sent, x ∈ g.sent) (hw : ∀ w ∈ f.waiting, w ∈ g.waiting) :
    g.Loose m :=
  h.imp (fun ⟨p, hp⟩ => ⟨p, hs _ hp⟩) (fun ⟨w, hmem, hm⟩ => ⟨w, hw w hmem, hm⟩)

/-- A LINK changes nothing that waits, and drops nothing sent. -/
theorem Fab.link_grows (f : Fab) (me p : Nat) (req : Bool) : (∀ x ∈ f.sent, x ∈ (f.link me p req).sent) ∧ (f.link me p req).waiting = f.waiting := by
  unfold Fab.link
  dsimp only
  split
  · exact ⟨fun _ h => h, rfl⟩
  · split
    · exact ⟨fun _ h => h, rfl⟩
    · exact ⟨fun _ h => List.mem_append_left _ h, rfl⟩

theorem Fab.owe_grows (f : Fab) (p : Nat) (m : Msg) : (f.owe p m).sent = f.sent ∧ (f.owe p m).waiting = f.waiting := by
  unfold Fab.owe
  split <;> exact ⟨rfl, rfl⟩

theorem Fab.sendPort_grows (f : Fab) (me p : Nat) (m : Msg) :
    (∀ x ∈ f.sent, x ∈ (f.sendPort me p m).sent) ∧ (some p, m) ∈ (f.sendPort me p m).sent ∧ (f.sendPort me p m).waiting = f.waiting := by
  unfold Fab.sendPort
  dsimp only
  refine ⟨fun x hx => List.mem_append_left _ ?_, List.mem_append_right _ (List.mem_singleton.2 rfl), ?_⟩
  · split
    · exact (f.link_grows me p false).1 x hx
    · exact hx
  · split
    · exact (f.link_grows me p false).2
    · rfl

theorem Fab.Loose.link {f : Fab} {m : Msg} (h : f.Loose m) (me p : Nat) (req : Bool) : (f.link me p req).Loose m :=
  h.mono (f.link_grows me p req).1 (fun _ hw => (f.link_grows me p req).2 ▸ hw)

/-- A message that takes its place leaves those before it, and stays loose if it was. -/
theorem Fab.place_waiting (f : Fab) (me : Nat) (w : Wait) : (Fab.place me f w).sent = f.sent ∧ f.waiting ⊆ (Fab.place me f w).waiting ∧
    (w.fixed = false → ∃ v ∈ (Fab.place me f w).waiting, v.msg = w.msg ∧ v.fixed = false) := by
  have hold (v : Wait) : f.waiting ⊆ f.waiting ++ [v] := List.subset_append_left _ _
  have hnew (v : Wait) (hm : v.msg = w.msg) (hf : v.fixed = w.fixed) : w.fixed = false → ∃ x ∈ f.waiting ++ [v], x.msg = w.msg ∧ x.fixed = false :=
    fun hw => ⟨v, List.mem_append_right _ (List.mem_singleton.2 rfl), hm, hf.trans hw⟩
  unfold Fab.place
  split
  · rename_i hfix
    split
    · exact ⟨rfl, hold w, hnew w rfl rfl⟩
    · exact ⟨rfl, List.Subset.refl _, fun h => by simp [h] at hfix⟩
  · split
    · exact ⟨rfl, hold _, hnew _ rfl rfl⟩
    · split
      · exact ⟨rfl, hold w, hnew w rfl rfl⟩
      · split
        · exact ⟨rfl, hold _, hnew _ rfl rfl⟩
        · exact ⟨rfl, hold _, hnew _ rfl rfl⟩

theorem Fab.foldl_place_loose (me : Nat) (m : Msg) (ws : List Wait) (f : Fab) (h : f.Loose m ∨ ∃ w ∈ ws, w.msg = m ∧ w.fixed = false) :
    (ws.foldl (Fab.place me) f).Loose m := by
  induction ws generalizing f with
  | nil => simpa using h
  | cons w ws ih =>
    obtain ⟨hsent, hwait, hnew⟩ := f.place_waiting me w
    refine ih _ ?_
    rcases h with h | ⟨v, hv, rfl, hfix⟩
    · exact Or.inl (h.mono (fun _ hx => hsent ▸ hx) hwait)
    · rcases List.mem_cons.1 hv with rfl | hv
      · exact Or.inl (Or.inr (hnew hfix))
      · exact Or.inr ⟨v, hv, rfl, hfix⟩

/-- The waiting message that a port sends has been sent; the others wait on. -/
theorem Fab.Loose.retryOne {f g : Fab} {me : Nat} {m : Msg} (h : f.Loose m) (hg : f.retryOne me = some g) : g.Loose m := by
  unfold Fab.retryOne at hg
  dsimp only at hg
  split at hg
  · cases hg
  · rename_i x _
    obtain ⟨hs, hx, hw⟩ := Fab.sendPort_grows { f with waiting := f.waiting.erase x.2 } me x.1 x.2.msg
    have hsent : Fab.Loose (({ f with waiting := f.waiting.erase x.2 } : Fab).sendPort me x.1 x.2.msg) m := by
      rcases h with ⟨p, hp⟩ | ⟨w, hmem, rfl, hfix⟩
      · exact Or.inl ⟨p, hs _ hp⟩
      · by_cases hwx : w = x.2
        · exact Or.inl ⟨some x.1, hwx ▸ hx⟩
        · exact Or.inr ⟨w, hw ▸ (List.mem_erase_of_ne hwx).2 hmem, rfl, hfix⟩
    cases hg
    split
    · obtain ⟨hos, how⟩ := Fab.owe_grows (({ f with waiting := f.waiting.erase x.2 } : Fab).sendPort me x.1 x.2.msg) ‹Nat› x.2.msg
      exact hsent.mono (fun _ hy => hos ▸ hy) (fun _ hy => how ▸ hy)
    · exact hsent

theorem Fab.Loose.retryAll {f : Fab} {m : Msg} (h : f.Loose m) (me n : Nat) : (Fab.retryAll me n f).Loose m := by
  induction n generalizing f with
  | zero => exact h
  | succ n ih =>
    unfold Fab.retryAll
    split
    · exact ih (h.retryOne ‹_›)
    · exact h

theorem Fab.Loose.retry {f : Fab} {m : Msg} (h : f.Loose m) (me : Nat) : (f.retry me).Loose m := by
  have hlinks (ps : List Nat) (g : Fab) (hg : g.Loose m) : (ps.foldl (fun f p => f.link me p false) g).Loose m := by
    induction ps generalizing g with
    | nil => exact hg
    | cons p ps ih => exact ih _ (hg.link me p false)
  unfold Fab.retry
  exact hlinks _ _ ((Fab.foldl_place_loose me m f.waiting { f with waiting := [] } (h.imp_left Or.inl)).retryAll me _)

/-- A message injected is loose, and leaves loose what was. -/
theorem Fab.inject_loose (f : Fab) (me : Nat) (x : Msg) (came : Option Nat) {m : Msg} (h : f.Loose m ∨ x = m) : (f.inject me x came).Loose m := by
  unfold Fab.inject
  split
  · rcases h with h | rfl
    · exact h.mono (fun _ hx => List.mem_append_left _ hx) (fun _ hw => hw)
    · exact Or.inl ⟨none, List.mem_append_right _ (List.mem_singleton.2 rfl)⟩
  · refine Fab.Loose.retry ?_ me
    rcases h with h | rfl
    · exact h.mono (fun _ hx => hx) (fun _ hw => List.mem_append_left _ hw)
    · exact Or.inr ⟨⟨x, none, false, came⟩, List.mem_append_right _ (List.mem_singleton.2 rfl), rfl, rfl⟩

/-! ## A list of messages sent -/

theorem onlyFab_send (s : State) (m : Msg) : OnlyFab s (s.send m) := onlyFab_withFab s _

theorem onlyFab_sendAll (s : State) (ms : List Msg) : OnlyFab s (ms.foldl State.send s) := by
  induction ms generalizing s with
  | nil => rfl
  | cons m ms ih => exact (onlyFab_send s m).trans (ih _)

theorem State.sendAll_loose (s : State) (ms : List Msg) {m : Msg} (h : s.fab.Loose m ∨ m ∈ ms) : (ms.foldl State.send s).fab.Loose m := by
  induction ms generalizing s with
  | nil => simpa using h
  | cons x ms ih =>
    refine ih _ ?_
    rcases h with h | h
    · exact Or.inl (s.fab.inject_loose s.me x none (Or.inl h))
    · rcases List.mem_cons.1 h with rfl | h
      · exact Or.inl (s.fab.inject_loose s.me m none (Or.inr rfl))
      · exact Or.inr h

theorem State.sendAll_standing (s : State) (ms : List Msg) : (ms.foldl State.send s).fab.standing = s.fab.standing :=
  foldl_keeps (fun s : State => s.fab.standing) State.send (fun s m => s.send_standing m) ms s

/-- The message that carries a chunk to a child (R430). -/
def State.chunkMsg (s : State) (hall : Bool) (seq chunk : Nat) (bytes : List Byte) (m : Nat) : Msg :=
  ⟨m, s.me, 0, b2n hall, 0, .fwChunk seq chunk bytes⟩

theorem State.sendChunks_eq (s : State) (kids : List Nat) (hall : Bool) (seq chunk : Nat) (bytes : List Byte) :
    kids.foldl (fun s m => s.sendChunk m hall seq chunk bytes) s = (kids.map (s.chunkMsg hall seq chunk bytes)).foldl State.send s := by
  induction kids generalizing s with
  | nil => rfl
  | cons m kids ih =>
    have hme : (s.sendChunk m hall seq chunk bytes).me = s.me := (onlyFab_send s _).me
    have hmsg : (s.sendChunk m hall seq chunk bytes).chunkMsg hall seq chunk bytes = s.chunkMsg hall seq chunk bytes := by
      funext k
      rw [State.chunkMsg, hme, State.chunkMsg]
    rw [List.foldl_cons, ih, hmsg]
    rfl

/-- The acknowledge of a chunk to the parent, where there is one. -/
def State.ackMsgs (s : State) (b : Broadcast) (chunk : Nat) : List Msg :=
  match b.targets[fwParent (b.targets.findIdx (· = s.me))]? with
  | some m => [⟨m, s.me, 0, 0, 0, .fwAck b.seq chunk⟩]
  | none => []

theorem State.fwUp_eq (s : State) (b : Broadcast) (chunk : Nat) : s.fwUp b chunk = (s.ackMsgs b chunk).foldl State.send s := by
  unfold State.fwUp State.ackMsgs
  cases b.targets[fwParent (b.targets.findIdx (· = s.me))]? <;> rfl

theorem Fab.bcast_of_standing {f g : Fab} (h : f.standing = g.standing) : f.bcast = g.bcast := by
  change f.standing.bcast = g.standing.bcast
  rw [h]

/-! ## Chunks and acknowledges at a module of the broadcast -/

theorem State.settled_fwChunk (u t : State) (rx : Rx) (seq chunk : Nat) (bytes : List Byte) :
    u.settled t rx (.fwChunk seq chunk bytes) = u.portDone rx (.fwChunk seq chunk bytes) := by
  unfold State.settled State.portDone
  cases rx.port <;> rfl

theorem State.settled_fwAck (u t : State) (rx : Rx) (seq chunk : Nat) :
    u.settled t rx (.fwAck seq chunk) = u.portDone rx (.fwAck seq chunk) := by
  unfold State.settled State.portDone
  cases rx.port <;> rfl

/-- Children of this module in a broadcast. -/
def State.fwKids (s : State) (b : Broadcast) : List Nat :=
  (fwChildren b.targets.length (b.targets.findIdx (· = s.me))).filterMap (fun k => b.targets[k]?)

/-- The broadcast once a new chunk is held: it waits for the children's acknowledges, where there are children. -/
def Broadcast.holding (b : Broadcast) (kids : List Nat) (chunk : Nat) : Broadcast :=
  { b with
    held := b.held ++ [chunk]
    waiting := if kids.isEmpty then b.waiting else b.waiting ++ [(chunk, kids)]
    acked := if kids.isEmpty then b.acked ++ [chunk] else b.acked }

/-- The module with a new chunk staged, before any message leaves. -/
def State.stagedChunk (s : State) (b : Broadcast) (chunk : Nat) (bytes : List Byte) : State :=
  { s.hubCount chFwChunks 1 with
    start := { s.start with flash := s.start.flash.stagePut (4096 * chunk) bytes }
    fab := { s.fab with bcast := some (b.holding (s.fwKids b) chunk) } }

/-- The messages that a new chunk sends: to each child, or the acknowledge of a module without children. -/
def State.chunkMsgs (s : State) (b : Broadcast) (chunk : Nat) (bytes : List Byte) : List Msg :=
  (s.fwKids b).map (s.chunkMsg b.hall b.seq chunk bytes) ++ if (s.fwKids b).isEmpty then s.ackMsgs b chunk else []

section
variable {s : State} {rx : Rx} {b : Broadcast} {chunk : Nat} {bytes : List Byte} {img : ImageIn} (hb : s.fab.bcast = some b)
include hb

theorem State.takeChunk_of_held (hheld : chunk ∈ b.held) : s.takeChunk rx b.seq chunk bytes img = s.hubCount chFwChunks 1 := by
  have hc : b.held.contains chunk = true := by simpa using hheld
  simp only [State.takeChunk, State.hubCount_fab, hb, hc, if_true]

theorem State.takeChunk_of_new (hnew : chunk ∉ b.held)
    (hst : (s.withFlash (s.start.flash.stagePut (4096 * chunk) bytes)).staged { b with held := b.held ++ [chunk] } = false) :
    s.takeChunk rx b.seq chunk bytes img = (s.chunkMsgs b chunk bytes).foldl State.send (s.stagedChunk b chunk bytes) := by
  have hc : b.held.contains chunk = false := by simpa using hnew
  have hsends : (if (s.fwKids b).isEmpty then ((s.fwKids b).foldl (fun s m => s.sendChunk m b.hall b.seq chunk bytes) (s.stagedChunk b chunk bytes)).fwUp
        (b.holding (s.fwKids b) chunk) chunk
      else (s.fwKids b).foldl (fun s m => s.sendChunk m b.hall b.seq chunk bytes) (s.stagedChunk b chunk bytes)) =
      (s.chunkMsgs b chunk bytes).foldl State.send (s.stagedChunk b chunk bytes) := by
    rw [State.sendChunks_eq, State.chunkMsgs, List.foldl_append]
    split
    · rename_i hk
      rw [List.isEmpty_iff.1 hk]
      exact State.fwUp_eq _ _ _
    · rfl
  have hstaged (ms : List Msg) : (ms.foldl State.send (s.stagedChunk b chunk bytes)).staged (b.holding (s.fwKids b) chunk) = false := by
    rw [State.staged, (onlyFab_sendAll _ ms).start]
    exact hst
  unfold State.takeChunk
  simp only [State.hubCount_fab, hb, hc, if_true, Bool.false_eq_true, if_false, Option.isNone_some]
  refine Eq.trans ?_ hsends
  refine Eq.trans (if_neg ?_) rfl
  refine ne_true_of_eq_false (Eq.trans (congrArg (fun t : State => t.staged _) hsends) (hstaged _))

end

/-! ## The statement -/

/-- STAGE holds the packet's image. -/
def Flash.stagedWith (f : Flash) (pay : List Byte) : Flash := { f with staged := pay }

section
variable {s : State} {p : Pkt} {img : ImageIn} (hscope : fld p.arg0 1 0 = 0) (hb : s.fab.bcast = none)
include hscope hb

/-- An image that verifies is installed; where the copy does not read back, the packet ends with PKT_STATE. -/
theorem State.doFwImage_of_sound
    (h : (s.start.flash.stagedWith p.pay).verify (imageOf img p.pay).kind (imageOf img p.pay) = none) (hup : s.start.edgeUp .flash = true) :
    s.doFwImage p img = if ((s.start.flash.stagedWith p.pay).installed img (imageOf img p.pay)).valid (imageOf img p.pay).kind
      then ((s.withFlash ((s.start.flash.stagedWith p.pay).installed img (imageOf img p.pay))).endPkt p pktOk (mkFld 31 0 1)).leaveMinimal
      else (s.withFlash ((s.start.flash.stagedWith p.pay).installed img (imageOf img p.pay))).endPkt p pktState (mkFld 63 32 1) := by
  have hinst : (s.stageWhole p.pay).installImage img = (s.withFlash ((s.start.flash.stagedWith p.pay).installed img (imageOf img p.pay)),
      if ((s.start.flash.stagedWith p.pay).installed img (imageOf img p.pay)).valid (imageOf img p.pay).kind then none else some pktState) :=
    State.installImage_of_sound (f := s.start.flash.stagedWith p.pay) rfl rfl (fun _ => rfl) h hup
  rw [State.doFwImage_alone hscope hb, hinst]
  by_cases hv : ((s.start.flash.stagedWith p.pay).installed img (imageOf img p.pay)).valid (imageOf img p.pay).kind = true
  · simp only [if_pos hv]
  · simp only [if_neg hv]

/-- One that fails leaves its refusal. -/
theorem State.doFwImage_of_refused {c : Nat}
    (h : (s.start.flash.stagedWith p.pay).verify (imageOf img p.pay).kind (imageOf img p.pay) = some c) :
    s.doFwImage p img = ({ s with start := { s.start with flash := s.start.flash.stagedWith p.pay, lastCode := c } } : State).endPkt p c (mkFld 63 32 1) := by
  have hinst : (s.stageWhole p.pay).installImage img =
      ({ s with start := { s.start with flash := s.start.flash.stagedWith p.pay, lastCode := c } }, some c) :=
    State.installImage_of_refused (f := s.start.flash.stagedWith p.pay) rfl h
  rw [State.doFwImage_alone hscope hb, hinst]

end

/-- The overlaid bytes read back. -/
theorem overlay_getElem? {old bs : List Byte} {off i : Nat} (hi : i < bs.length) : (overlay old off bs)[off + i]? = bs[i]? := by
  have hlen : ((old ++ List.replicate (off - old.length) 0xFF).take off).length = off := by
    simp only [List.length_take, List.length_append, List.length_replicate]
    omega
  rw [overlay, List.append_assoc, List.getElem?_append_right (by omega), hlen, Nat.add_sub_cancel_left, List.getElem?_append_left hi]

section
variable {s : State} {rx : Rx} {b : Broadcast} {chunk : Nat} {bytes : List Byte} {img : ImageIn} (hears : s.hears rx = true)
  (hb : s.fab.bcast = some b)
omit hears in
include hb in
theorem State.received_bcast (body : Body) : (s.received rx body).fab.bcast = some b :=
  (Fab.bcast_of_standing (s.received_standing rx body)).trans hb

/-- The broadcast once a chunk's last acknowledge has come. -/
def Broadcast.acknowledged (b : Broadcast) (chunk : Nat) : Broadcast := { b with waiting := [], acked := b.acked ++ [chunk] }

omit hears in
include hb in
/-- The last acknowledge of the one chunk that waits. -/
theorem State.takeFwAck_of_last (hw : b.waiting = [(chunk, [rx.src])]) :
    s.takeFwAck rx b.seq chunk =
      if b.targets.findIdx (· = s.me) = 0 then
        match s.fwPay with
        | some pay => ({ s with fab := { s.fab with bcast := some (b.acknowledged chunk) } } : State).fwSend pay
        | none => { s with fab := { s.fab with bcast := some (b.acknowledged chunk) } }
      else (({ s with fab := { s.fab with bcast := some (b.acknowledged chunk) } } : State).fwUp (b.acknowledged chunk) chunk).fwFinish := by
  unfold State.takeFwAck
  rw [hb]
  simp [hw, Broadcast.acknowledged] <;> rfl

include hears

theorem exec_fwChunk (seq : Nat) : exec (.fwChunk rx seq chunk bytes img) s =
    .next (((s.received rx (.fwChunk seq chunk bytes)).takeChunk rx seq chunk bytes img).portDone rx (.fwChunk seq chunk bytes)) := by
  refine (State.arrive_of_hears hears (.fwChunk seq chunk bytes) (fun s => s.takeChunk rx seq chunk bytes img)).trans ?_
  rw [State.settled_fwChunk]

theorem exec_fwAck (seq : Nat) : exec (.fwAck rx seq chunk) s =
    .next (((s.received rx (.fwAck seq chunk)).takeFwAck rx seq chunk).portDone rx (.fwAck seq chunk)) := by
  refine (State.arrive_of_hears hears (.fwAck seq chunk) (fun s => s.takeFwAck rx seq chunk)).trans ?_
  rw [State.settled_fwAck]

include hb

/-- A chunk that is held already is counted alone. -/
theorem exec_fwChunk_of_held (hheld : chunk ∈ b.held) : Answers (.fwChunk rx b.seq chunk bytes img) s (fun t => t.fab.bcast = some b ∧ OnlyFab s t) := by
  have hr := onlyFab_received s rx (.fwChunk b.seq chunk bytes)
  have hrb := State.received_bcast (rx := rx) hb (.fwChunk b.seq chunk bytes)
  refine ⟨_, exec_fwChunk hears b.seq, ?_, ?_⟩
  · rw [Fab.bcast_of_standing (State.portDone_standing _ _ _), State.takeChunk_of_held hrb hheld]
    exact hrb
  · rw [State.takeChunk_of_held hrb hheld]
    exact (hr.trans (onlyFab_with _ _ _)).trans (onlyFab_portDone _ _ _)

/-- A new chunk is staged and goes on. -/
theorem exec_fwChunk_of_new (hnew : chunk ∉ b.held)
    (hst : (s.withFlash (s.start.flash.stagePut (4096 * chunk) bytes)).staged { b with held := b.held ++ [chunk] } = false) :
    Answers (.fwChunk rx b.seq chunk bytes img) s (fun t => t.fab.bcast = some (b.holding (s.fwKids b) chunk) ∧
      (∀ m ∈ s.chunkMsgs b chunk bytes, t.Queued m) ∧ OnlyFab (s.withFlash (s.start.flash.stagePut (4096 * chunk) bytes)) t) := by
  have hr := onlyFab_received s rx (.fwChunk b.seq chunk bytes)
  have hrb := State.received_bcast (rx := rx) hb (.fwChunk b.seq chunk bytes)
  have hkids : (s.received rx (.fwChunk b.seq chunk bytes)).fwKids b = s.fwKids b := by rw [State.fwKids, hr.me, State.fwKids]
  have hmsgs : (s.received rx (.fwChunk b.seq chunk bytes)).chunkMsgs b chunk bytes = s.chunkMsgs b chunk bytes := by
    have hmsg : (s.received rx (.fwChunk b.seq chunk bytes)).chunkMsg b.hall b.seq chunk bytes = s.chunkMsg b.hall b.seq chunk bytes := by
      funext m
      rw [State.chunkMsg, hr.me, State.chunkMsg]
    rw [State.chunkMsgs, hkids, hmsg, State.ackMsgs, hr.me]
    rfl
  have htake := State.takeChunk_of_new (rx := rx) (bytes := bytes) (img := img) hrb hnew (by
    rw [State.staged, State.withFlash, hr.start]
    exact hst)
  refine ⟨_, exec_fwChunk hears b.seq, ?_, fun m hm => ?_, ?_⟩
  · rw [Fab.bcast_of_standing (State.portDone_standing _ _ _), htake, Fab.bcast_of_standing (State.sendAll_standing _ _), ← hkids]
    rfl
  · refine State.Queued.portDone ((State.queued_iff_holds _ _).2 ?_) rx _
    rw [htake]
    exact (State.sendAll_loose _ _ (Or.inr (hmsgs ▸ hm))).holds
  · rw [htake]
    refine (OnlyFab.trans ?_ (onlyFab_sendAll _ _)).trans (onlyFab_portDone _ _ _)
    unfold OnlyFab State.stagedChunk State.withFlash
    rw [hr]
    rfl

end

/-- The last acknowledge of a chunk at a module that is not rank 0 passes up, and may end the module's part. -/
theorem exec_fwAck_of_last {s : State} {rx : Rx} {b : Broadcast} {chunk : Nat} (hears : s.hears rx = true) (hb : s.fab.bcast = some b)
    (hw : b.waiting = [(chunk, [rx.src])]) (hr0 : b.targets.findIdx (· = s.me) ≠ 0) :
    Answers (.fwAck rx b.seq chunk) s (fun t => t.fab.bcast = (if s.staged b then none else some (b.acknowledged chunk)) ∧
      (∀ m ∈ s.ackMsgs b chunk, t.Queued m) ∧ OnlyFab s t) := by
  have hr := onlyFab_received s rx (.fwAck b.seq chunk)
  have hrb := State.received_bcast (rx := rx) hb (.fwAck b.seq chunk)
  obtain ⟨u, hu⟩ : ∃ u : State, u = { s.received rx (.fwAck b.seq chunk) with
      fab := { (s.received rx (.fwAck b.seq chunk)).fab with bcast := some (b.acknowledged chunk) } } := ⟨_, rfl⟩
  have husr : OnlyFab s u := hr.trans (hu ▸ onlyFab_with _ _ _)
  have hmsgs : u.ackMsgs (b.acknowledged chunk) chunk = s.ackMsgs b chunk := by rw [State.ackMsgs, husr.me]; rfl
  have hup : u.fwUp (b.acknowledged chunk) chunk = (s.ackMsgs b chunk).foldl State.send u := by rw [State.fwUp_eq, hmsgs]
  have hall := husr.trans (onlyFab_sendAll u (s.ackMsgs b chunk))
  have hub : ((s.ackMsgs b chunk).foldl State.send u).fab.bcast = some (b.acknowledged chunk) := by
    rw [Fab.bcast_of_standing (State.sendAll_standing _ _), hu]
  have htake : (s.received rx (.fwAck b.seq chunk)).takeFwAck rx b.seq chunk = ((s.ackMsgs b chunk).foldl State.send u).fwFinish := by
    rw [State.takeFwAck_of_last hrb hw, hr.me, if_neg hr0, ← hup, hu]
  have hfinish : ((s.ackMsgs b chunk).foldl State.send u).fwFinish = if s.staged b
      then { (s.ackMsgs b chunk).foldl State.send u with fab := { ((s.ackMsgs b chunk).foldl State.send u).fab with bcast := none } }
      else (s.ackMsgs b chunk).foldl State.send u := by
    have hst : ((s.ackMsgs b chunk).foldl State.send u).staged (b.acknowledged chunk) = s.staged b := by
      rw [State.staged, hall.start]
      rfl
    have hdone : (b.acknowledged chunk).waiting = [] := rfl
    have htargets : (b.acknowledged chunk).targets = b.targets := rfl
    unfold State.fwFinish
    rw [hub]
    simp only [hst, hall.me, hdone, htargets, and_true, hr0, ne_eq, not_false_eq_true, true_and]
  have hloose (m : Msg) (hm : m ∈ s.ackMsgs b chunk) : ((s.ackMsgs b chunk).foldl State.send u).fab.Holds m :=
    (State.sendAll_loose u _ (Or.inr hm)).holds
  refine ⟨_, exec_fwAck hears b.seq, ?_, fun m hm => ?_, ?_⟩
  · rw [Fab.bcast_of_standing (State.portDone_standing _ _ _), htake, hfinish]
    split
    · rfl
    · exact hub
  · refine State.Queued.portDone ((State.queued_iff_holds _ _).2 ?_) rx _
    rw [htake, hfinish]
    split
    · exact hloose m hm
    · exact hloose m hm
  · rw [htake, hfinish]
    refine OnlyFab.trans ?_ (onlyFab_portDone _ _ _)
    split
    · exact hall.trans (onlyFab_with _ _ _)
    · exact hall

/-- Settles O38: the install goes by the verification alone, and a chunk by what the module holds of the broadcast. -/
theorem imagesTravelAndInstall : Obligations.ImagesTravelAndInstall := by
  unfold Obligations.ImagesTravelAndInstall
  constructor
  · intro s p img c hm hp htype hscope hb i f with' copy
    have htaken : exec (.fwImage p.id img) s = .next (s.doFwImage p img) := onPkt_of_taken hm hp htype _
    refine ⟨fun hok hup => ⟨fun hwrong hready hparts => ?_, fun hbad => ?_⟩, fun hbad => ?_⟩
    · have hvalid : (copy.confirm i.kind).valid i.kind = true := Flash.installed_valid (f := f) hwrong rfl hparts (Flash.verify_kind hok)
      refine ⟨?_, hvalid, fun q hq => (Flash.installed_part (f := f) hwrong hq).1, fun k hk => Flash.installed_other (f := f) hk⟩
      refine htaken.trans (congrArg Host.Outcome.next ((State.doFwImage_of_sound hscope hb hok hup).trans ((if_pos hvalid).trans ?_)))
      refine State.leaveMinimal_of_ready ?_
      obtain ⟨_, _, _, _, _, hstart, _⟩ := State.endPkt_keeps (with' (copy.confirm i.kind)) p pktOk (mkFld 31 0 1) true
      exact (congrArg Start.stage hstart).trans hready
    · exact htaken.trans (congrArg Host.Outcome.next ((State.doFwImage_of_sound hscope hb hok hup).trans (if_neg (ne_true_of_eq_false hbad))))
    · exact htaken.trans (congrArg Host.Outcome.next (State.doFwImage_of_refused hscope hb hbad))
  · intro s rx b chunk bytes img hears hb r kids put
    refine ⟨fun hnew hst => ⟨?_, fun i hi => overlay_getElem? hi⟩, exec_fwChunk_of_held hears hb, fun hw hr0 => ?_, fun hw hr0 => ?_⟩
    · obtain ⟨t, ht, hbt, hq, ho⟩ := exec_fwChunk_of_new (img := img) hears hb hnew hst
      refine ⟨t, ht, ⟨_, hbt, rfl, rfl, rfl, rfl⟩, fun m hm => hq _ ?_, fun hk m hm => hq _ ?_, ho⟩
      · exact List.mem_append_left _ (List.mem_map.2 ⟨m, hm, rfl⟩)
      · refine List.mem_append_right _ ?_
        rw [if_pos (by exact List.isEmpty_iff.2 hk), State.ackMsgs, hm]
        exact List.mem_singleton.2 rfl
    · obtain ⟨t, ht, hbt, hq, ho⟩ := exec_fwAck_of_last hears hb hw hr0
      refine ⟨t, ht, hbt, fun m hm => hq _ ?_, ho⟩
      rw [State.ackMsgs, hm]
      exact List.mem_singleton.2 rfl
    · have hr := onlyFab_received s rx (.fwAck b.seq chunk)
      intro u
      have hpay : (s.received rx (.fwAck b.seq chunk)).fwPay = s.fwPay := by rw [State.fwPay, hr.hub, State.fwPay]
      rw [exec_fwAck hears b.seq, State.takeFwAck_of_last (State.received_bcast (rx := rx) hb _) hw, hr.me, if_pos hr0, hpay]
      rfl

end Sys2Proof.Machine

end

section
/-!
Proof, Tune-up (O21): what a test that ends leaves of its cluster, and the commands of TST_TUNE_CMD and TST_FH_QUERY (R500, R501, R503 to
R506, R518).
-/

namespace Sys2Proof.Machine

/-! ## What charges and rotations leave of the tests -/

/-- Of each physical cluster, whether its test runs and whether its last test passed. -/
def Start.tests (x : Start) : List (Bool × Bool) := x.pcl.map (fun c => (c.tuning, c.lastPass))

theorem Start.tests_cluster {x y : Start} (h : x.tests = y.tests) (p : Nat) :
    (x.cluster p).tuning = (y.cluster p).tuning ∧ (x.cluster p).lastPass = (y.cluster p).lastPass := by
  have hget (z : Start) : z.tests.getD p ((PCl.ship 0).tuning, (PCl.ship 0).lastPass) = ((z.cluster p).tuning, (z.cluster p).lastPass) := by
    simp only [Start.tests, Start.cluster, List.getD_eq_getElem?_getD, List.getElem?_map]
    cases z.pcl[p]? <;> rfl
  refine Prod.mk.inj ?_
  rw [← hget x, h, hget y]

/-- A change of one cluster that is no part of its test. -/
theorem Start.upd_tests (x : Start) (p : Nat) {f : PCl → PCl} (hf : ∀ c, ((f c).tuning, (f c).lastPass) = (c.tuning, c.lastPass)) :
    (x.upd p f).tests = x.tests := by
  refine List.ext_getElem? fun k => ?_
  simp only [Start.tests, Start.upd, updAt, List.getElem?_map, List.getElem?_modify]
  split
  · cases x.pcl[k]? <;> simp [hf]
  · simp

@[simp] theorem PCl.substitute_test (c : PCl) (lt : Nat) : (c.substitute lt).tuning = c.tuning ∧ (c.substitute lt).lastPass = c.lastPass := by
  unfold PCl.substitute
  split <;> exact ⟨rfl, rfl⟩

@[simp] theorem Start.rotate_tests (x : Start) (p q : Nat) : (x.rotate p q).tests = x.tests := by
  unfold Start.rotate
  exact (Start.upd_tests _ p (f := fun c => { c with logical := none, spare := false, out := true, soft := true, offset := 0 }) fun _ => rfl).trans
    (Start.upd_tests x q fun _ => rfl)

@[simp] theorem Hist.charge_tuneFail (h : Hist) (starts kind index cause : Nat) : (h.charge starts kind index cause).tuneFail = h.tuneFail := by
  unfold Hist.charge
  split <;> rfl

@[simp] theorem Hist.charge_rotations (h : Hist) (starts kind index cause : Nat) : (h.charge starts kind index cause).rotations = h.rotations := by
  unfold Hist.charge
  split <;> rfl

/-- From `s` to `t` no test begins, ends or is counted. -/
def SameTests (s t : State) : Prop := t.start.tests = s.start.tests ∧ t.hist.tuneFail = s.hist.tuneFail

theorem SameTests.refl (s : State) : SameTests s s := ⟨rfl, rfl⟩

theorem SameTests.trans {s t u : State} (h : SameTests s t) (h' : SameTests t u) : SameTests s u := ⟨h'.1.trans h.1, h'.2.trans h.2⟩

theorem SameTests.foldl {α : Type} {g : State → α → State} (h : ∀ t a, SameTests t (g t a)) (l : List α) (s : State) : SameTests s (l.foldl g s) := by
  induction l generalizing s with
  | nil => exact .refl s
  | cons a l ih => exact (h s a).trans (ih _)

section
variable (s : State)

theorem sameTests_updCluster (l : Nat) (f : Cluster → Cluster) : SameTests s (s.updCluster l f) := by simp [SameTests]

theorem sameTests_setPCl (p : Nat) {f : PCl → PCl} (hf : ∀ c, ((f c).tuning, (f c).lastPass) = (c.tuning, c.lastPass)) : SameTests s (s.setPCl p f) :=
  ⟨s.start.upd_tests p hf, rfl⟩

theorem sameTests_drain (cause : Nat) : SameTests s (s.drain cause) := by
  unfold State.drain
  split <;> exact ⟨rfl, rfl⟩

theorem sameTests_settleSubst (l : Nat) : SameTests s (s.settleSubst l) := by
  unfold State.settleSubst
  split
  · exact .refl s
  · split
    · exact .refl s
    · dsimp only
      split
      · exact (sameTests_updCluster s l _).trans (sameTests_setPCl _ _ fun c => by simp)
      · exact sameTests_updCluster s l _

theorem sameTests_requestSubst (l t : Nat) : SameTests s (s.requestSubst l t) := by
  unfold State.requestSubst
  dsimp only
  split
  · exact (sameTests_updCluster s l _).trans (sameTests_settleSubst _ l)
  · exact .refl s

theorem sameTests_takeSpare (l p q : Nat) (full : Bool) : SameTests s (s.takeSpare l p q full) := by
  refine ⟨(congrArg Start.tests (s.takeSpare_start l p q full)).trans (s.start.rotate_tests p q), ?_⟩
  unfold State.takeSpare
  cases full <;> simp [Hist.append]

theorem sameTests_wantRotation (l p : Nat) : SameTests s (s.wantRotation l p) :=
  (sameTests_updCluster s l _).trans ⟨Start.upd_tests _ p fun _ => rfl, rfl⟩

theorem sameTests_rotation (p : Nat) : SameTests s (s.rotation p) := by
  unfold State.rotation
  split
  · exact sameTests_setPCl s p fun _ => rfl
  · split
    · split
      · exact sameTests_wantRotation s _ p
      · exact sameTests_drain s 1
    · split
      · exact sameTests_takeSpare s _ p _ false
      · exact sameTests_wantRotation s _ p

theorem sameTests_spareGone (p : Nat) : SameTests s (s.spareGone p) := by
  unfold State.spareGone
  split
  · exact .refl s
  · dsimp only
    split
    · exact .refl s
    · split
      · exact (sameTests_updCluster s _ _).trans (sameTests_rotation _ p)
      · exact sameTests_updCluster s _ _

theorem sameTests_suspectRows (p : Nat) (t : Option Nat) : SameTests s (s.suspectRows p t) := by
  have hmark (k : Nat) : SameTests s (s.setPCl p (fun c => { c with tileSoft := c.tileSoft ||| 2 ^ k })) := sameTests_setPCl s p fun _ => rfl
  unfold State.suspectRows
  extract_lets st perm n tilePerm
  split
  · split
    · extract_lets mark
      split
      · split
        · exact .refl s
        · split
          · exact (hmark _).trans (sameTests_requestSubst _ _ _)
          · exact sameTests_rotation s p
      · split
        · exact (hmark _).trans (sameTests_setPCl _ p fun c => by simp)
        · exact sameTests_rotation s p
      · exact (hmark _).trans (sameTests_spareGone _ p)
    · exact .refl s
  · split
    · exact sameTests_rotation s p
    · split
      · exact sameTests_setPCl s p fun _ => rfl
      · exact .refl s

theorem sameTests_charge (kind index cause : Nat) : SameTests s (s.charge kind index cause) := by
  have hcharge : SameTests s { s with hist := s.hist.charge s.start.starts kind index cause } := ⟨rfl, Hist.charge_tuneFail _ _ _ _ _⟩
  unfold State.charge
  dsimp only
  refine hcharge.trans ?_
  split
  · split
    · exact sameTests_suspectRows _ _ _
    · split
      · exact sameTests_suspectRows _ _ none
      · exact .refl _
  · exact .refl _

end

/-! ## A test that is due, and one that ends -/

section
variable {s : State} {p : Nat} {found : TuneFind}

/-- A cluster that is due stays so until its test begins. -/
theorem State.beginTune_due (hp : p < s.start.pcl.length) (hdue : (s.start.cluster p).due = true) (c : Nat) :
    ((s.beginTune c).start.cluster p).due = true ∨ ((s.beginTune c).start.cluster p).tuning = true := by
  have hbegin (q : Nat) : ((s.start.upd q (fun k => { k with tuning := true, due := false, was := none })).cluster p).due = true ∨
      ((s.start.upd q (fun k => { k with tuning := true, due := false, was := none })).cluster p).tuning = true := by
    by_cases hq : p = q
    · subst hq
      rw [Start.cluster_upd hp, if_pos rfl]
      exact Or.inr rfl
    · left
      simpa [Start.cluster, Start.upd, updAt, Ne.symm hq] using hdue
  unfold State.beginTune
  extract_lets waiting
  split
  · exact Or.inl hdue
  · split
    · exact Or.inl hdue
    · split
      · exact hbegin _
      · split
        · exact Or.inl hdue
        · exact Or.inl hdue

/-- The sets change a cluster's generator, registers and count of sets alone. -/
theorem PCl.tuneRun_keeps (c : PCl) (k : Pack) (stepping : Nat) (found : TuneFind) : (c.tuneRun k stepping found).1.was = c.was ∧
    (c.tuneRun k stepping found).1.logical = c.logical := by
  have hran (c : PCl) (seed : Word) (fs : List PassFind) : (c.ran seed fs).was = c.was ∧ (c.ran seed fs).logical = c.logical := by
    unfold PCl.ran
    split <;> exact ⟨rfl, rfl⟩
  unfold PCl.tuneRun
  dsimp only
  split
  · exact ⟨(hran _ _ _).1.trans (hran _ _ _).1, (hran _ _ _).2.trans (hran _ _ _).2⟩
  · exact hran _ _ _

/-- A cluster that passes: its hour and its pass are recorded, and one that was rotated out is a spare. -/
theorem PCl.tunePass_spec (c : PCl) (hours : Nat) : (c.tunePass hours).fleet = c.fleet ∧ (c.tunePass hours).tuning = false ∧
    (c.tunePass hours).lastTest = hours ∧ (c.tunePass hours).lastPass = true ∧ (c.was ≠ none → (c.tunePass hours).spare = true) := by
  unfold PCl.tunePass
  dsimp only
  split
  · exact ⟨rfl, rfl, rfl, rfl, fun _ => rfl⟩
  · rename_i hwas
    exact ⟨rfl, rfl, rfl, rfl, fun h => absurd (Option.isSome_iff_ne_none.2 h) hwas⟩

/-- The module when the sets of a cluster's test have run: the stores of a cluster in place read zero. -/
def State.ranSets (s : State) (p : Nat) (found : TuneFind) : State :=
  let s' : State := { s with start := s.start.upd p (fun _ => ((s.start.cluster p).tuneRun s.start.flash.pack s.start.flash.stepping found).1) }
  match (s.start.cluster p).logical with
  | some l => s'.zeroStores l
  | none => s'

theorem State.ranSets_keeps : (s.ranSets p found).start =
      s.start.upd p (fun _ => ((s.start.cluster p).tuneRun s.start.flash.pack s.start.flash.stepping found).1) ∧
    (s.ranSets p found).hist = s.hist ∧ (s.ranSets p found).hub = s.hub := by
  unfold State.ranSets
  dsimp only
  split <;> simp

/-- Nothing fails. -/
theorem State.tuneComplete_of_pass (ht : (s.start.cluster p).tuning = true)
    (hregs : ((s.start.cluster p).tuneRun s.start.flash.pack s.start.flash.stepping found).2 = []) (hlanes : found.lanes = true)
    (hpipes : found.pipes = true) (hrow : found.row = false) :
    s.tuneComplete p found 0 = (s.ranSets p found).setPCl p (fun c => c.tunePass s.hist.hours) := by
  have hbad : (List.range 9).filter (fun t => ([] : List Nat).contains t || (0 : Nat).testBit t) = [] := by
    simp only [List.contains_nil, Nat.zero_testBit, Bool.or_self, List.filter_false]
  unfold State.tuneComplete
  simp only [ht, hregs, hlanes, hpipes, hrow, hbad]
  simp only [Bool.not_true, Bool.false_eq_true, if_false, List.any_nil, Bool.or_self, Bool.not_false, List.isEmpty_nil, Bool.and_self, if_true]
  exact congrArg (fun h : Hist => (s.ranSets p found).setPCl p (fun c => c.tunePass h.hours)) State.ranSets_keeps.2.1

/-- The module when a test has failed as a whole: it is counted, and its cluster gives up its place. -/
def State.failedTune (s : State) (p : Nat) (found : TuneFind) : State :=
  ({ s.ranSets p found with hist := { (s.ranSets p found).hist with
    tuneFail := satAdd 12 (s.ranSets p found).hist.tuneFail 1 } } : State).tuneOut p

/-- A failing row of the cluster's store: what follows the failure changes no test. -/
theorem sameTests_tuneComplete_of_row (ht : (s.start.cluster p).tuning = true) (hrow : found.row = true) :
    SameTests (s.failedTune p found) (s.tuneComplete p found 0) := by
  unfold State.tuneComplete
  extract_lets c f run s₁ s₂ regs bad whole hist s₃ s₄ s₅
  have hwhole : whole = true := by simp only [whole, hrow, Bool.or_true]
  have hout : s₄ = s.failedTune p found := by
    have hs₃ : s₃.tuneOut p = s.failedTune p found := rfl
    simp only [s₄]
    split
    · rw [if_pos hwhole, hs₃]
    · exact hs₃
  rw [if_neg (by simp [c, ht]), if_neg (by simp [hwhole]), if_pos (by simp [hwhole]), ← hout]
  exact SameTests.trans (SameTests.foldl (fun t k => sameTests_charge t _ _ _) _ s₄) (sameTests_charge s₅ _ _ _)

/-- The cluster of a test that has failed as a whole. -/
theorem State.failedTune_spec (hp : p < s.start.pcl.length) : ((s.failedTune p found).start.cluster p).tuning = false ∧
    ((s.failedTune p found).start.cluster p).lastPass = false ∧ (s.failedTune p found).hist.tuneFail = satAdd 12 s.hist.tuneFail 1 := by
  obtain ⟨hstart, hhist, -⟩ := State.ranSets_keeps (s := s) (p := p) (found := found)
  have hlen : p < (s.ranSets p found).start.pcl.length := by rwa [hstart, (Start.upd_keeps _ _ _).1]
  obtain ⟨htests, hfail⟩ := sameTests_rotation ({ s.ranSets p found with
    start := (s.ranSets p found).start.upd p (fun c => { c with tuning := false, due := false, lastPass := false, was := none })
    hist := { (s.ranSets p found).hist with tuneFail := satAdd 12 (s.ranSets p found).hist.tuneFail 1 } } : State) p
  obtain ⟨htuning, hpass⟩ := Start.tests_cluster htests p
  rw [Start.cluster_upd hlen, if_pos rfl] at htuning hpass
  exact ⟨htuning, hpass, hfail.trans (by rw [hhist])⟩

end

/-! ## The statement -/

/-- Settles O21, by the branch of each command and, for a failing row, by what the charges that follow leave of the tests. -/
theorem tuneUpRunsAsCommanded : Obligations.TuneUpRunsAsCommanded := by
  unfold Obligations.TuneUpRunsAsCommanded
  constructor
  · intro s p hours found hm hlen hp run
    have hplt : p < s.start.pcl.length := hlen ▸ hp
    have hend : exec (.tuneUpComplete p found 0) s = .next (s.tuneComplete p found 0) := if_pos hp
    refine ⟨fun htest hon hdue => ?_, fun ht hrow => ⟨_, hend, ?_⟩, fun ht hregs hlanes hpipes hrow => ⟨_, hend, ?_⟩⟩
    · have hbegin : exec (.tuneUpDue p hours) s = .next (({ s with
          hist := { s.hist with hours := max hours s.hist.hours }
          start := s.start.upd p (fun k => { k with due := true }) } : State).beginTune (p / 17)) := by
        refine (if_pos hp).trans ((onHub_alive hm _).trans (congrArg (fun t : State => Host.Outcome.next (t.beginTune (p / 17))) ?_))
        exact if_pos (by simp [htest, hon, hdue])
      refine ⟨_, hbegin, ?_⟩
      obtain ⟨-, hmem, -, -, -, -, hhub, -, -, hhist, -⟩ := State.beginTune_keeps ({ s with
          hist := { s.hist with hours := max hours s.hist.hours }
          start := s.start.upd p (fun k => { k with due := true }) } : State) (p / 17)
      refine ⟨congrArg Hist.hours hhist, State.beginTune_due ?_ ?_ _, hmem, hhub⟩
      · exact hplt.trans_eq (Start.upd_keeps s.start p _).1.symm
      · exact congrArg PCl.due ((Start.cluster_upd hplt _ p).trans (if_pos rfl))
    · obtain ⟨htests, hfail⟩ := sameTests_tuneComplete_of_row ht hrow
      obtain ⟨htuning, hpass⟩ := Start.tests_cluster htests p
      obtain ⟨h₁, h₂, h₃⟩ := State.failedTune_spec (found := found) hplt
      exact ⟨htuning.trans h₁, hpass.trans h₂, hfail.trans h₃⟩
    · rw [State.tuneComplete_of_pass ht hregs hlanes hpipes hrow]
      obtain ⟨hstart, hhist, hhub⟩ := State.ranSets_keeps (s := s) (p := p) (found := found)
      have hcluster (q : Nat) : ((s.ranSets p found).setPCl p (fun c => c.tunePass s.hist.hours)).start.cluster q =
          if q = p then run.1.tunePass s.hist.hours else s.start.cluster q := by
        refine (Start.cluster_upd ?_ _ q).trans ?_
        · rwa [hstart, (Start.upd_keeps _ _ _).1]
        · rw [hstart, Start.cluster_upd hplt]
          split <;> rfl
      obtain ⟨hfleet, htuning, hlast, hpass, hspare⟩ := run.1.tunePass_spec s.hist.hours
      have hwas := (PCl.tuneRun_keeps (s.start.cluster p) s.start.flash.pack s.start.flash.stepping found).1
      have hself := (hcluster p).trans (if_pos rfl)
      refine ⟨hself ▸ hfleet, hself ▸ htuning, hself ▸ hlast, hself ▸ hpass, fun h => hself ▸ hspare (hwas ▸ h),
        fun q hq => (hcluster q).trans (if_neg hq), fun l hl a ha ha' => ?_, hhub, ?_⟩
      · have hmem : ((s.ranSets p found).setPCl p (fun c => c.tunePass s.hist.hours)).mem =
            Cells.zero s.mem (storeBase + l * storeStride) storeStride := by
          rw [(State.setPCl_keeps _ _ _).2.1, State.ranSets, hl]
          rfl
        have hhi : a < storeBase + l * storeStride + storeStride := by
          rw [Nat.add_mul, Nat.one_mul] at ha'
          omega
        rw [hmem, Cells.byte_zero, if_pos ⟨ha, hhi⟩]
        rfl
      · exact congrArg (fun h : Hist => h.append _) hhist
  · intro s p q l kind index hm err
    have hnow : exec (.tuneNow p) s = .next (if p > 135 then s.tuneErr else s.tuneNow p) := onHub_alive hm _
    have hclear : exec (.clearRail p) s = .next (if p > 135 then s.tuneErr else s.clearRail p) := onHub_alive hm _
    have hout : exec (.rotateOut p) s = .next (if p > 135 then s.tuneErr else s.rotateOut p) := onHub_alive hm _
    refine ⟨fun hmay hle => ?_, fun hno => ?_, ⟨_, onHub_alive hm _, rfl, rfl⟩, rfl, rfl⟩
    · have hgt : ¬ p > 135 := by omega
      refine ⟨?_, ?_, fun hlen hl hq hne hidle => ⟨_, hout, ?_⟩⟩
      · rw [hnow, if_neg hgt, State.tuneNow, if_pos hmay]
      · rw [hclear, if_neg hgt, State.clearRail, if_pos hmay]
        rfl
      · have hrot : (if p > 135 then s.tuneErr else s.rotateOut p) =
            ({ s with hist := s.hist.charge s.start.starts 2 p 0x0C } : State).takeSpare l p q false := by
          rw [if_neg hgt, State.rotateOut, if_pos hmay]
          unfold State.rotation
          dsimp only
          rw [hl]
          dsimp only
          rw [hq]
          exact if_pos hidle
        rw [hrot]
        dsimp only
        rw [State.takeSpare_start, (State.takeSpare_hist _ _ _ _ _).1]
        obtain ⟨hspare, hleft, hgone⟩ := Start.rotate_spec (x := s.start) (p := p) (q := q) (by omega)
          (hlen ▸ Start.spareOf_lt hq (by omega)) hne
        refine ⟨hspare.trans hl, hleft, hgone, ?_, ?_, ?_⟩
        · exact congrArg (fun n => satAdd 12 n 1) (Hist.charge_rotations _ _ _ _ _)
        · simp
        · simp
    · rw [hnow, hclear, hout]
      split
      · exact ⟨rfl, rfl, rfl⟩
      · have hmay : ¬ s.mayTune = true := by simpa using hno.resolve_right ‹_›
        rw [State.tuneNow, State.clearRail, State.rotateOut, if_neg hmay, if_neg hmay, if_neg hmay]
        exact ⟨rfl, rfl, rfl⟩

end Sys2Proof.Machine

end

section
/-!
Proof, the host link (O27): reads and writes of a line of the host window, and the resets of the host side (R289, R436, R438 to R441).
-/

namespace Sys2Proof.Machine

/-! ## A line of the window -/

/-- A line of 64 bytes is one thing throughout (R440). -/
theorem windowAt_line {off i : Nat} (h : off % 64 = 0) (hi : i < 64) : windowAt (off + i) = windowAt off := by
  have hblock : (off + i) / 64 = off / 64 := by omega
  unfold windowAt
  rw [hblock]
  refine if_congr (by omega) rfl (if_congr (by omega) rfl (if_congr (by omega) rfl rfl))

theorem inMemory_iff {off : Nat} : inMemory off = true ↔ windowAt off = .plain ∨ windowAt off = .doorbell := by
  simp [inMemory]

theorem inMemory_line {off i : Nat} (h : off % 64 = 0) (hi : i < 64) : inMemory (off + i) = inMemory off := by
  rw [inMemory, windowAt_line h hi, inMemory]

theorem hdmLocal_line {off i : Nat} (h : off % 64 = 0) (hi : i < 64) : hdmLocal (off + i) = hdmLocal off + i := hdmLocal_add (by omega)

theorem hdmLocal_aligned {off : Nat} (h : off % 64 = 0) : hdmLocal off % 64 = 0 := by
  simp only [hdmLocal, hdmPart, chipStride]
  omega

/-- Bytes of one line of memory lie in one page. -/
theorem pagesOf_line {a k n : Nat} (ha : a % 64 = 0) (hn : 0 < n) (hk : k + n ≤ 64) : pagesOf (a + k) n = [pageOf a] := by
  have hfirst : (a + k) / pageBytes = a / pageBytes := by
    simp only [pageBytes]
    omega
  have hlast : (a + k + n - 1) / pageBytes = a / pageBytes := by
    simp only [pageBytes]
    omega
  rw [pagesOf, if_neg (by omega), hfirst, hlast, Nat.sub_self]
  simp [pageOf, hfirst]

/-- A write of some bytes of a line lands where the line's page does not move and can be reached. -/
theorem State.lands_of_line {s : State} {a k n : Nat} (ha : a % 64 = 0) (hn : 0 < n) (hk : k + n ≤ 64) (hmove : s.pages.moving (pageOf a) = false)
    (hup : s.stackUp (pageOf a) = true) : s.lands (a + k) n = true := by
  simp [State.lands, State.reaches, pagesOf_line ha hn hk, hmove, hup]

/-! ## Reads -/

section
variable {s : State} {off : Nat} (halign : off % 64 = 0)
include halign

/-- A byte of a line that is no memory reads as the host reads it there. -/
theorem State.hostRead_fixed (h : inMemory off = false) {i : Nat} (hi : i < 64) : s.hostRead (off + i) = s.hostByte (off + i) := by
  simp [State.hostRead, inMemory_line halign hi, h]

/-- Bytes of memory without poison read as they are. -/
theorem State.hostRead_memory (h : inMemory off = true) (hp : ∀ w ∈ s.poison, ¬ (hdmLocal off ≤ w ∧ w < hdmLocal off + 64)) {i : Nat} (hi : i < 64) :
    s.hostRead (off + i) = Cells.byte s.mem (hdmLocal (off + i)) := by
  have hclean : s.poison.contains (hdmLocal (off + i) / 8 * 8) = false := by
    rw [← Bool.not_eq_true, List.contains_iff_mem]
    intro hmem
    have haligned := hdmLocal_aligned halign
    rw [hdmLocal_line halign hi] at hmem
    exact hp _ hmem (by omega)
  unfold State.hostRead
  simp only [hclean, Bool.false_eq_true, and_false, if_false, State.hostByte, windowAt_line halign hi]
  rcases inMemory_iff.1 h with h | h <;> rw [h]

theorem State.hostRead_line (h : inMemory off = true) (hp : ∀ w ∈ s.poison, ¬ (hdmLocal off ≤ w ∧ w < hdmLocal off + 64)) :
    (List.range 64).map (fun i => s.hostRead (off + i)) = s.readHdm off 64 :=
  List.map_congr_left fun _ hi => State.hostRead_memory halign h hp (List.mem_range.1 hi)

/-- A line that is no memory is served as it reads, and nothing else changes. -/
theorem exec_memRd_fixed (hhost : s.hostUp = true) (hlt : off < hdmBytes) (h : inMemory off = false) {bs : List Byte}
    (hbytes : (List.range 64).map (fun i => s.hostByte (off + i)) = bs) :
    exec (.memRd off Ev.none) s = .next { s with hub := { s.hub with served := some (bs, false) } } := by
  have hline : off / 64 * 64 = off := by omega
  have hread : (List.range 64).map (fun i => s.hostRead (off + i)) = bs :=
    (List.map_congr_left fun i hi => State.hostRead_fixed halign h (List.mem_range.1 hi)).trans hbytes
  change execMemRd off Ev.none s = _
  unfold execMemRd
  rw [hline, if_neg (by simp [hhost, hlt, h])]
  dsimp only
  rw [h, if_neg Bool.false_ne_true, if_neg Bool.false_ne_true, List.foldl_nil, hread, Bool.false_and]

/-- So it does once the bytes of the read are counted. -/
theorem State.hostRead_counted (h : inMemory off = true) (hp : ∀ w ∈ s.poison, ¬ (hdmLocal off ≤ w ∧ w < hdmLocal off + 64)) :
    (List.range 64).map (fun i => (s.countBytes none [⟨hdmLocal off, 64, false⟩]).hostRead (off + i)) = s.readHdm off 64 := by
  obtain ⟨-, hmem, -, hpoison, -⟩ := s.countBytes_keeps none [⟨hdmLocal off, 64, false⟩]
  have hclean : ∀ w ∈ (s.countBytes none [⟨hdmLocal off, 64, false⟩]).poison, ¬ (hdmLocal off ≤ w ∧ w < hdmLocal off + 64) := by
    rw [hpoison]
    exact hp
  rw [State.hostRead_line halign h hclean, State.readHdm, hmem, State.readHdm]

/-- A line of memory is served, and its bytes are counted. -/
theorem exec_memRd_memory (hhost : s.hostUp = true) (hlt : off < hdmBytes) (h : inMemory off = true)
    (hreach : s.reaches [⟨hdmLocal off, 64, false⟩] = true) (hp : ∀ w ∈ s.poison, ¬ (hdmLocal off ≤ w ∧ w < hdmLocal off + 64)) :
    ∃ c, exec (.memRd off Ev.none) s = .next { s with hub := { s.hub with served := some (s.readHdm off 64, false) }, ctr := c } := by
  have hline : off / 64 * 64 = off := by omega
  have hbytes := State.hostRead_counted halign h hp
  have hnone : s.poison.any (fun w => hdmLocal off ≤ w && w < hdmLocal off + 64) = false := by
    rw [← Bool.not_eq_true, List.any_eq_true]
    rintro ⟨w, hw, hin⟩
    exact hp w hw (by simpa using hin)
  have hbad (q : Nat → Bool) : Ev.none.bad.filter q = [] := rfl
  have hfixed : s.corrected Ev.none.fixed [⟨hdmLocal off, 64, false⟩] = s := rfl
  obtain ⟨c, hc⟩ : ∃ c, s.countBytes none [⟨hdmLocal off, 64, false⟩] = { s with ctr := c } := ⟨_, rfl⟩
  rw [hc] at hbytes
  refine ⟨c, ?_⟩
  change execMemRd off Ev.none s = _
  unfold execMemRd
  rw [hline, if_neg (by simp [hhost, hlt, hreach])]
  dsimp only
  rw [h, if_pos rfl, if_pos rfl, hbad, List.foldl_nil, hfixed, hc, hbytes, Bool.true_and, hnone]

end

/-- The bytes of a control block. -/
theorem Ring.block_bytes (r : Ring) : (List.range 64).map (fun i => (bytesOfWords r.block).getD i 0) = bytesOfWords r.block := by
  have hlen : (bytesOfWords r.block).length = 64 := by simp [bytesOfWords, Ring.block, leBytes_length]
  refine List.ext_getElem (by simp [hlen]) fun i hi hi' => ?_
  rw [List.getElem_map, List.getElem_range, List.getD_eq_getElem _ _ hi']

/-! ## Writes -/

/-- The runs of bytes behind an enabled one: it joins the run that follows it at once, or is a run of its own. -/
theorem runsOf_enabled (k : Nat) (b : Byte) (l : List (Bool × Byte)) :
    runsOf k ((true, b) :: l) = (k, [b]) :: runsOf (k + 1) l ∨
      ∃ bs rest, runsOf (k + 1) l = (k + 1, bs) :: rest ∧ runsOf k ((true, b) :: l) = (k, b :: bs) :: rest := by
  simp only [runsOf, Bool.not_true, Bool.false_eq_true, if_false]
  rcases runsOf (k + 1) l with _ | ⟨⟨a, bs⟩, rest⟩
  · exact Or.inl rfl
  · dsimp only
    split
    · subst a
      exact Or.inr ⟨bs, rest, rfl, rfl⟩
    · exact Or.inl rfl

theorem runsOf_disabled (k : Nat) (b : Byte) (l : List (Bool × Byte)) : runsOf k ((false, b) :: l) = runsOf (k + 1) l := rfl

/-- A run holds enabled bytes as they follow one another. -/
theorem runsOf_mem (l : List (Bool × Byte)) (k : Nat) : ∀ r ∈ runsOf k l, r.2 ≠ [] ∧ k ≤ r.1 ∧
    ∀ j (hj : j < r.2.length), l[r.1 - k + j]? = some (true, r.2[j]) := by
  induction l generalizing k with
  | nil => simp [runsOf]
  | cons x l ih =>
    obtain ⟨e, b⟩ := x
    have hlater (r : Nat × List Byte) (hr : r ∈ runsOf (k + 1) l) : r.2 ≠ [] ∧ k ≤ r.1 ∧
        ∀ j (hj : j < r.2.length), ((e, b) :: l)[r.1 - k + j]? = some (true, r.2[j]) := by
      obtain ⟨hne, hle, hbytes⟩ := ih (k + 1) r hr
      refine ⟨hne, by omega, fun j hj => ?_⟩
      rw [show r.1 - k + j = r.1 - (k + 1) + j + 1 by omega, List.getElem?_cons_succ, hbytes j hj]
    intro r hr
    cases e with
    | false => exact hlater r hr
    | true =>
      rcases runsOf_enabled k b l with heq | ⟨bs, rest, hruns, heq⟩
      · rw [heq] at hr
        rcases List.mem_cons.1 hr with rfl | hr
        · refine ⟨List.cons_ne_nil _ _, le_rfl, fun j hj => ?_⟩
          obtain rfl : j = 0 := by simpa using hj
          simp
        · exact hlater r hr
      · rw [heq] at hr
        rcases List.mem_cons.1 hr with rfl | hr
        · refine ⟨List.cons_ne_nil _ _, le_rfl, fun j hj => ?_⟩
          obtain ⟨-, -, hbytes⟩ := hlater (k + 1, bs) (hruns ▸ List.mem_cons_self)
          cases j with
          | zero => simp
          | succ j =>
            have hbyte := hbytes j (by simpa using hj)
            rw [show k + 1 - k + j = k - k + (j + 1) by omega] at hbyte
            exact hbyte
        · exact hlater r (hruns ▸ List.mem_cons_of_mem _ hr)

/-- Every enabled byte lies in a run. -/
theorem runsOf_cover (l : List (Bool × Byte)) (k i : Nat) {b : Byte} (h : l[i]? = some (true, b)) :
    ∃ r ∈ runsOf k l, r.1 ≤ k + i ∧ k + i < r.1 + r.2.length := by
  induction l generalizing k i with
  | nil => simp at h
  | cons x l ih =>
    obtain ⟨e, c⟩ := x
    cases i with
    | zero =>
      obtain rfl : e = true := congrArg Prod.fst (Option.some.inj (by simpa using h) : (e, c) = (true, b))
      rcases runsOf_enabled k c l with heq | ⟨bs, rest, -, heq⟩
      · exact ⟨_, heq ▸ List.mem_cons_self, by simp⟩
      · exact ⟨_, heq ▸ List.mem_cons_self, by simp⟩
    | succ i =>
      obtain ⟨r, hr, hle, hlt⟩ := ih (k + 1) i (by simpa using h)
      cases e with
      | false => exact ⟨r, hr, by omega, by omega⟩
      | true =>
        rcases runsOf_enabled k c l with heq | ⟨bs, rest, hruns, heq⟩
        · exact ⟨r, heq ▸ List.mem_cons_of_mem _ hr, by omega, by omega⟩
        · rw [hruns] at hr
          rcases List.mem_cons.1 hr with rfl | hr
          · refine ⟨(k, c :: bs), heq ▸ List.mem_cons_self, by simp, ?_⟩
            simp only [List.length_cons] at hlt ⊢
            omega
          · exact ⟨r, heq ▸ List.mem_cons_of_mem _ hr, by omega, by omega⟩

/-- A write of the host. -/
def hostWriteOf (w : Nat × List Byte) : HeldWrite := ⟨w.1, w.2, false, .host⟩

/-- What writes of the host that land leave: their bytes, and the host's completion. -/
structure HostWrote (s t : State) (ws : List (Nat × List Byte)) : Prop where
  mem : t.mem = Cells.writeAll s.mem ws
  hub : t.hub = { s.hub with served := t.hub.served }
  served : ws ≠ [] → t.hub.served = some ([], false)
  clusters : t.clusters = s.clusters
  pages : t.pages = s.pages
  start : t.start = s.start
  jobs : t.jobs = s.jobs

theorem HostWrote.refl (s : State) : HostWrote s s [] := ⟨rfl, rfl, fun h => absurd rfl h, rfl, rfl, rfl, rfl⟩

/-- One more write that lands, over bytes that are open to software. -/
theorem HostWrote.memWrite {s t : State} {ws : List (Nat × List Byte)} (h : HostWrote s t ws) {w : Nat × List Byte} (hne : w.2 ≠ [])
    (hlands : s.lands w.1 w.2.length = true) (hopen : s.OpenAt w.1 w.2.length) : HostWrote s (t.memWrite (hostWriteOf w)) (ws ++ [w]) := by
  have hmodule : t.hub.module = s.hub.module := by rw [h.hub]
  have hlands' : t.lands w.1 w.2.length = true := (State.lands_congr h.pages h.start _ _).trans hlands
  have hopen' : t.OpenAt w.1 w.2.length := fun i hi => (State.softMask_congr h.jobs h.start hmodule _).trans (hopen i hi)
  obtain ⟨u, hu, hmem, hhub, hclusters, hpages, hstart, hjobs⟩ : ∃ u : State, t.memWrite (hostWriteOf w) = { u with hub := { u.hub with served := some ([], false) } } ∧
      u.mem = (t.softStore w.1 w.2).mem ∧ u.hub = t.hub ∧ u.clusters = t.clusters ∧ u.pages = t.pages ∧ u.start = t.start ∧ u.jobs = t.jobs := by
    refine ⟨(((t.countBytes none [⟨w.1, w.2.length, true⟩]).softStore w.1 w.2).tagLanded w.1 w.2.length).echoHelds w.1 w.2.length, ?_, ?_, ?_, ?_, ?_, ?_, ?_⟩
    · refine (if_pos hlands').trans ?_
      simp [State.landWrite, hostWriteOf]
    · rw [← (onlyFab_countBytes t none [⟨w.1, w.2.length, true⟩]).softStore_mem w.1 w.2]
      simp
    all_goals simp
  rw [hu]
  refine ⟨?_, ?_, fun _ => rfl, hclusters.trans h.clusters, hpages.trans h.pages, hstart.trans h.start, hjobs.trans h.jobs⟩
  · change u.mem = _
    rw [hmem, State.softStore_mem_of_open hne hopen', h.mem]
    simp [Cells.writeAll]
  · change ({ u.hub with served := some ([], false) } : Hub) = _
    rw [hhub, h.hub]

/-- Writes of the host that all land. -/
theorem hostWrote_foldl {s : State} {ws : List (Nat × List Byte)}
    (hws : ∀ w ∈ ws, w.2 ≠ [] ∧ s.lands w.1 w.2.length = true ∧ s.OpenAt w.1 w.2.length) {t : State} {ws₀ : List (Nat × List Byte)}
    (h : HostWrote s t ws₀) : HostWrote s (ws.foldl (fun t w => t.memWrite (hostWriteOf w)) t) (ws₀ ++ ws) := by
  induction ws generalizing t ws₀ with
  | nil => simpa using h
  | cons w ws ih =>
    obtain ⟨hne, hlands, hopen⟩ := hws w List.mem_cons_self
    have hrest := ih (fun v hv => hws v (List.mem_cons_of_mem w hv)) (h.memWrite hne hlands hopen)
    rwa [List.append_assoc] at hrest

/-- The writes of a line's enabled bytes. -/
def lineWrites (off : Nat) (bytes : List Byte) (en : List Bool) : List (Nat × List Byte) :=
  (runsOf 0 (((List.range 64).map (fun i => en.getD i false)).zip ((List.range 64).map (fun i => bytes.getD i 0)))).map
    (fun r => (hdmLocal off + r.1, r.2))

theorem getElem?_range_map {α : Type} {n i : Nat} {f : Nat → α} {a : α} (h : ((List.range n).map f)[i]? = some a) : i < n ∧ a = f i := by
  obtain ⟨hi, rfl⟩ := List.getElem?_eq_some_iff.1 h
  rw [List.length_map, List.length_range] at hi
  rw [List.getElem_map, List.getElem_range]
  exact ⟨hi, rfl⟩

theorem getElem?_range_map_of_lt {α : Type} {n i : Nat} (hi : i < n) (f : Nat → α) : ((List.range n).map f)[i]? = some (f i) := by
  rw [List.getElem?_map, List.getElem?_range hi, Option.map_some]

section
variable {off : Nat} {bytes : List Byte} {en : List Bool}

/-- A byte of a write: it is enabled, and stands at its place in the line. -/
theorem lineWrites_byte {w : Nat × List Byte} (hw : w ∈ lineWrites off bytes en) : ∃ k, w.1 = hdmLocal off + k ∧ w.2 ≠ [] ∧ k + w.2.length ≤ 64 ∧
    ∀ j (hj : j < w.2.length), en.getD (k + j) false = true ∧ w.2[j] = bytes.getD (k + j) 0 := by
  obtain ⟨r, hr, rfl⟩ := List.mem_map.1 hw
  obtain ⟨hne, -, hbytes⟩ := runsOf_mem _ 0 r hr
  have hbyte (j : Nat) (hj : j < r.2.length) : r.1 + j < 64 ∧ en.getD (r.1 + j) false = true ∧ r.2[j] = bytes.getD (r.1 + j) 0 := by
    obtain ⟨h₁, h₂⟩ := List.getElem?_zip_eq_some.1 (hbytes j hj)
    obtain ⟨hi, he⟩ := getElem?_range_map h₁
    obtain ⟨-, hb⟩ := getElem?_range_map h₂
    exact ⟨hi, he.symm, hb⟩
  refine ⟨r.1, rfl, hne, ?_, fun j hj => (hbyte j hj).2⟩
  have hpos := List.length_pos_iff.2 hne
  have hlast := (hbyte (r.2.length - 1) (by omega)).1
  dsimp only
  omega

/-- Every enabled byte of a line is in a write. -/
theorem lineWrites_cover {i : Nat} (hi : i < 64) (he : en.getD i false = true) :
    ∃ w ∈ lineWrites off bytes en, w.1 ≤ hdmLocal off + i ∧ hdmLocal off + i < w.1 + w.2.length := by
  have hat : (((List.range 64).map (fun i => en.getD i false)).zip ((List.range 64).map (fun i => bytes.getD i 0)))[i]? =
      some (true, bytes.getD i 0) :=
    List.getElem?_zip_eq_some.2 ⟨he ▸ getElem?_range_map_of_lt hi _, getElem?_range_map_of_lt hi _⟩
  obtain ⟨r, hr, hle, hlt⟩ := runsOf_cover _ 0 i hat
  exact ⟨_, List.mem_map.2 ⟨r, hr, rfl⟩, by dsimp only; omega, by dsimp only; omega⟩

end

section
variable {s : State} {off : Nat} {bytes : List Byte} {en : List Bool} (halign : off % 64 = 0) (hhost : s.hostUp = true) (hlt : off < hdmBytes)
include halign hhost hlt

theorem exec_memWr (poison : Bool) : exec (.memWr off bytes en poison) s = .next (s.hostWrite off ((List.range 64).map (fun i => bytes.getD i 0))
    ((List.range 64).map (fun i => en.getD i false)) poison) := by
  have hline : off / 64 * 64 = off := by omega
  change execMemWr off bytes en poison s = _
  unfold execMemWr
  rw [hline, if_neg (by simp [hhost, hlt])]

/-- A control block or a reserved range discards a write. -/
theorem exec_memWr_of_fixed (h₁ : windowAt off ≠ .doorbell) (h₂ : windowAt off ≠ .plain) (poison : Bool) :
    exec (.memWr off bytes en poison) s = .next { s with hub := { s.hub with served := some ([], false) } } := by
  rw [exec_memWr halign hhost hlt, State.hostWrite]
  cases h : windowAt off with
  | block n => rfl
  | reserved => rfl
  | doorbell => exact absurd h h₁
  | plain => exact absurd h h₂

/-- A write of plain memory that can be reached and is open to software writes its enabled bytes. -/
theorem exec_memWr_of_plain (h : windowAt off = .plain) (hmove : s.pages.moving (pageOf (hdmLocal off)) = false)
    (hup : s.stackUp (pageOf (hdmLocal off)) = true) (hopen : ∀ k, k < 8 → s.softMask (hdmLocal off + 8 * k) = none) :
    ∃ t, exec (.memWr off bytes en false) s = .next t ∧ t.mem = Cells.writeAll s.mem (lineWrites off bytes en) ∧
      t.hub = { s.hub with served := some ([], false) } ∧ t.clusters = s.clusters ∧ t.pages = s.pages := by
  have hline := hdmLocal_aligned halign
  have hws (w : Nat × List Byte) (hw : w ∈ lineWrites off bytes en) : w.2 ≠ [] ∧ s.lands w.1 w.2.length = true ∧ s.OpenAt w.1 w.2.length := by
    obtain ⟨k, hk, hne, hfits, -⟩ := lineWrites_byte hw
    refine ⟨hne, ?_, fun j hj => ?_⟩
    · rw [hk]
      exact State.lands_of_line hline (List.length_pos_iff.2 hne) hfits hmove hup
    · rw [hk, show (hdmLocal off + k + j) / 8 * 8 = hdmLocal off + 8 * ((k + j) / 8) by omega]
      exact hopen _ (by omega)
  have hdone := hostWrote_foldl hws (HostWrote.refl s)
  rw [List.nil_append] at hdone
  rw [exec_memWr halign hhost hlt, State.hostWrite, h]
  dsimp only
  by_cases hnone : runsOf 0 (((List.range 64).map (fun i => en.getD i false)).zip ((List.range 64).map (fun i => bytes.getD i 0))) = []
  · have hnil : lineWrites off bytes en = [] := by rw [lineWrites, hnone, List.map_nil]
    rw [hnone, hnil]
    exact ⟨_, rfl, rfl, rfl, rfl, rfl⟩
  · have hne : lineWrites off bytes en ≠ [] := fun hnil => hnone (List.map_eq_nil_iff.1 hnil)
    refine ⟨(lineWrites off bytes en).foldl (fun t w => t.memWrite (hostWriteOf w)) s, ?_, hdone.mem, ?_, hdone.clusters, hdone.pages⟩
    · rw [lineWrites, List.foldl_map]
      split
      · exact absurd ‹_› hnone
      · rfl
    · rw [← hdone.served hne]
      exact hdone.hub

end

/-! ## Resets -/

/-- A number's low bits are all set where it is all ones in them. -/
theorem mod_two_pow_eq_ones_iff (m n : Nat) : m % 2 ^ n = 2 ^ n - 1 ↔ ∀ i, i < n → m.testBit i = true := by
  constructor
  · intro h i hi
    have hbit := congrArg (fun x => Nat.testBit x i) h
    simpa [Nat.testBit_mod_two_pow, Nat.testBit_two_pow_sub_one, hi] using hbit
  · intro h
    refine Nat.eq_of_testBit_eq fun i => ?_
    rw [Nat.testBit_mod_two_pow, Nat.testBit_two_pow_sub_one]
    by_cases hi : i < n
    · simp [hi, h i hi]
    · simp [hi]

theorem assoc_assocDel {α β : Type} [BEq α] [LawfulBEq α] (l : List (α × β)) (k j : α) :
    assoc (assocDel l k) j = if j == k then none else assoc l j := by
  induction l with
  | nil => simp [assoc, assocDel]
  | cons p l ih =>
    simp only [assoc, assocDel] at ih ⊢
    rw [List.filter_cons]
    by_cases hp : p.1 = k
    · rw [if_neg (by simp [hp]), ih]
      split
      · rfl
      · rename_i hj
        rw [List.lookup_cons, hp, Bool.eq_false_iff.2 hj]
    · rw [if_pos (by simp [hp]), List.lookup_cons, List.lookup_cons, ih]
      by_cases hj : j = p.1
      · rw [hj, beq_self_eq_true]
        exact (if_neg (by simpa using hp)).symm
      · rw [beq_eq_false_iff_ne.2 hj]

/-- A ring that has been set, and the others. -/
theorem Hub.ring_setRing (h : Hub) (n : Nat) (r : Ring) (k : Nat) : (h.setRing n r).ring k = if k = n then r else h.ring k := by
  unfold Hub.setRing Hub.ring
  by_cases hr : r = Ring.shut
  · rw [if_pos hr]
    dsimp only
    rw [assoc_assocDel, hr]
    by_cases hk : k = n
    · rw [if_pos (by simp [hk]), if_pos hk, Option.getD_none]
    · rw [if_neg (by simp [hk]), if_neg hk]
  · rw [if_neg hr]
    dsimp only
    split
    · subst k
      rw [assoc_assocSet_self, Option.getD_some]
    · rw [assoc_assocSet_other _ ‹_›]

/-- A ring that closes is open no longer. -/
theorem Ring.settle_closing (r : Ring) : ({ r with st := .closing } : Ring).settle.st ≠ .opened := by
  unfold Ring.settle
  split
  · exact fun h => by cases h
  · exact fun h => by cases h

/-- The rings of a list close. -/
def Hub.closeAll (h : Hub) (ns : List Nat) : Hub := ns.foldl (fun h n => h.setRing n ({ h.ring n with st := .closing } : Ring).settle) h

/-- What is still open then was open, and is none of them. -/
theorem Hub.closeAll_opened (ns : List Nat) (h : Hub) {n : Nat} (ho : ((h.closeAll ns).ring n).st = .opened) : (h.ring n).st = .opened ∧ n ∉ ns := by
  induction ns generalizing h with
  | nil => exact ⟨ho, List.not_mem_nil⟩
  | cons m ns ih =>
    obtain ⟨hopen, hnot⟩ := ih _ ho
    rw [Hub.ring_setRing] at hopen
    split at hopen
    · exact absurd hopen (Ring.settle_closing _)
    · exact ⟨hopen, fun hmem => (List.mem_cons.1 hmem).elim ‹_› hnot⟩

/-- The rings of job contexts that are open. -/
def Hub.jobRings (h : Hub) : List Nat := (h.rings.filter (fun r => 64 ≤ r.1 ∧ r.2.st = .opened)).map (fun r => r.1)

theorem Hub.closeAll_jobRings (h : Hub) {n : Nat} (hn : 64 ≤ n) : ((h.closeAll h.jobRings).ring n).st ≠ .opened := by
  intro ho
  obtain ⟨hopen, hnot⟩ := Hub.closeAll_opened _ h ho
  exact hnot (List.mem_map.2 ⟨_, List.mem_filter.2 ⟨Hub.mem_rings hopen, by simp [hn, hopen]⟩, rfl⟩)

/-- The width for the lanes that pass. -/
theorem linkWidth_spec (lanes : Nat) : (lanes % 65536 = 65535 → linkWidth lanes = 3) ∧
    (lanes % 65536 ≠ 65535 → lanes % 256 = 255 → linkWidth lanes = 2) ∧
    (lanes % 256 ≠ 255 → lanes % 16 = 15 → linkWidth lanes = 1) ∧ (lanes % 16 ≠ 15 → linkWidth lanes = 0) := by
  unfold linkWidth
  refine ⟨fun h => if_pos h, fun h₁ h₂ => ?_, fun h₁ h₂ => ?_, fun h => ?_⟩
  · rw [if_neg h₁, if_pos h₂]
  · rw [if_neg (by omega), if_neg h₁, if_pos h₂]
  · rw [if_neg (by omega), if_neg (by omega), if_neg h]

theorem exec_cxlReset {s : State} (hhost : s.hostUp = true) (hrest : s.contexts.any s.restoringIn = false) :
    exec .cxlReset s = .next { s.contexts.foldl (fun s n => (s.resetDomain n .plain).1) s with
      hub := (s.contexts.foldl (fun s n => (s.resetDomain n .plain).1) s).hub.closeAll
        (s.contexts.foldl (fun s n => (s.resetDomain n .plain).1) s).hub.jobRings } := by
  change execCxlReset s = _
  unfold execCxlReset
  rw [if_neg (by simp [hhost, hrest])]
  rfl

/-- Settles O27, by what a line of the window is, the runs of enabled bytes that a write is cut into, and the equations of the resets. -/
theorem hostRequestsAreServed : Obligations.HostRequestsAreServed := by
  unfold Obligations.HostRequestsAreServed
  refine ⟨?_, ?_, ?_⟩
  · intro s off hhost hlt halign
    refine ⟨fun hmem hreach hp => ?_, fun n hn => ?_, fun hres => ?_, ?_, rfl, ?_⟩
    · obtain ⟨c, hc⟩ := exec_memRd_memory halign hhost hlt (inMemory_iff.2 hmem) hreach hp
      exact ⟨_, hc, rfl, rfl⟩
    · have hfixed : inMemory off = false := by simp [inMemory, hn]
      refine ⟨_, exec_memRd_fixed halign hhost hlt hfixed (bs := bytesOfWords (s.hub.ring n).block) ?_, rfl, rfl⟩
      refine Eq.trans (List.map_congr_left fun i hi => ?_) (s.hub.ring n).block_bytes
      have hi := List.mem_range.1 hi
      rw [State.hostByte, windowAt_line halign hi, hn]
      dsimp only
      rw [show (off + i) % 64 = i by omega]
    · have hfixed : inMemory off = false := by simp [inMemory, hres]
      refine exec_memRd_fixed halign hhost hlt hfixed ?_
      refine List.eq_replicate_iff.2 ⟨by rw [List.length_map, List.length_range], fun b hb => ?_⟩
      obtain ⟨i, hi, rfl⟩ := List.mem_map.1 hb
      rw [State.hostByte, windowAt_line halign (List.mem_range.1 hi), hres]
    · exact congrArg Host.Outcome.next (if_pos ⟨hhost, hlt⟩)
    · exact congrArg Host.Outcome.next (if_pos hhost)
  · intro s off bytes en hwf hhost hlt halign _ _
    refine ⟨fun hplain hmove hup hopen => ?_, fun h₁ h₂ => exec_memWr_of_fixed halign hhost hlt h₁ h₂ false⟩
    obtain ⟨t, ht, hmem, hhub, hclusters, hpages⟩ := exec_memWr_of_plain (bytes := bytes) (en := en) halign hhost hlt hplain hmove hup hopen
    refine ⟨t, ht, fun i hi => ?_, fun a ha => ?_, hhub, hclusters, hpages⟩
    · rw [hmem, hdmLocal_line halign hi]
      split
      · rename_i he
        refine Cells.byte_writeAll_of_agree hwf (lineWrites_cover hi he) fun w hw j hj hat => ?_
        obtain ⟨k, hk, -, -, hbytes⟩ := lineWrites_byte hw
        obtain rfl : k + j = i := by omega
        exact (hbytes j hj).2
      · rename_i he
        refine Cells.byte_writeAll_other _ _ _ fun w hw ⟨hle, hwlt⟩ => he ?_
        obtain ⟨k, hk, -, -, hbytes⟩ := lineWrites_byte hw
        have hen := (hbytes (hdmLocal off + i - w.1) (by omega)).1
        rwa [show k + (hdmLocal off + i - w.1) = i by omega] at hen
    · rw [hmem]
      refine Cells.byte_writeAll_other _ _ _ fun w hw ⟨hle, hwlt⟩ => ha _ (List.mem_singleton.2 rfl) ?_
      obtain ⟨k, hk, -, hfits, -⟩ := lineWrites_byte hw
      dsimp only
      omega
  · intro s lanes speed ide hhost all
    have hall (n : Nat) : all n ↔ lanes % 2 ^ n = 2 ^ n - 1 := (mod_two_pow_eq_ones_iff lanes n).symm
    refine ⟨⟨_, congrArg Host.Outcome.next (if_neg (by simp [hhost])), ?_⟩, fun hrest => ?_, fun hrest => ⟨_, exec_cxlReset hhost hrest, ?_, ?_⟩⟩
    · obtain ⟨h₃, h₂, h₁, h₀⟩ := linkWidth_spec lanes
      refine ⟨fun h => h₃ ((hall 16).1 h), fun h h' => h₂ (mt (hall 16).2 h) ((hall 8).1 h'), fun h h' => h₁ (mt (hall 8).2 h) ((hall 4).1 h'),
        fun h => h₀ (mt (hall 4).2 h), beq_iff_eq, rfl, ?_, rfl, rfl, rfl, rfl⟩
      exact fun hmem => absurd rfl (bne_iff_ne.1 (List.mem_filter.1 hmem).2)
    · exact congrArg Host.Outcome.next (if_pos (by simp [hrest]))
    · exact fun n hn => Hub.closeAll_jobRings _ hn
    · exact foldl_keeps State.jobs (fun s n => (s.resetDomain n .plain).1) (fun t n => (t.resetDomain_keeps n .plain).2.1) _ _

end Sys2Proof.Machine

end
